-- ==== Sys2Proof/Word.lean ====
section
/-! DEFINITION. The 36-bit word of R5, the operand shapes of the commands and the small enumerations they use. -/

namespace Sys2Proof

/-- R5: a word is 36 bits, bit 0 the least significant. -/
abbrev Word := BitVec 36

/-- R60: the poison word 0x800_000_000. -/
def poison : Word := 0x800000000#36

/-- R66, register form of an instruction word without its opcode: release delta, predicate sense and number,
destination, sources A and B, modifier. -/
structure RegForm where
  delta : BitVec 4
  neg : Bool
  pred : BitVec 3
  d : BitVec 6
  a : BitVec 6
  b : BitVec 6
  m : BitVec 4
deriving DecidableEq, Repr

/-- R66, immediate form of an instruction word without its opcode. -/
structure ImmForm where
  delta : BitVec 4
  neg : Bool
  pred : BitVec 3
  d : BitVec 6
  imm : BitVec 16
deriving DecidableEq, Repr

/-- R491: the host roles. -/
inductive Role where
  | monitor | operator | engineer | secadmin | service
deriving DecidableEq, Repr

/-- R224, R569: what a word's 8 check bits show. -/
inductive Chk where
  | ok | single | uncor
deriving DecidableEq, Repr

/-- R443: the three bands of a 24 V input stage. -/
inductive Band where
  | wireBreak | openContact | on
deriving DecidableEq, Repr

/-- R373: the state a mandate loop is read into. -/
inductive LoopState where
  | unknown | released | claimed
deriving DecidableEq, Repr

/-- R266, R271, R279: the identifier words of a CAN FD frame. -/
structure FdHead where
  ide : Bool
  fdf : Bool
  brs : Bool
  rtr : Bool
  ident : BitVec 29
deriving DecidableEq, Repr

/-- R266, R271: a frame a port sends on its segment: its Zilco identifier, or the head and the octet count of a CAN FD frame, its ESI and its
words. -/
structure TxFrame where
  id : Nat := 0
  fd : Option FdHead := none
  octets : Nat := 0
  esi : Bool := false
  words : List Word := []
deriving DecidableEq, Repr

/-- R280, R282: the tick in which a port begins a deposit, and the one in which it writes word 0. -/
inductive DepositStep where
  | begin
  | finish
deriving DecidableEq, Repr

/-- A frame a port finds valid (R253): identifier, words (Zilco) or octets packed under R284 (CAN FD), the octet count of
a CAN FD frame, what ACK and ESI read, whether the port sent it itself, and the reference instant of R254 in
nanoseconds on the model's tick count (4 ns a tick). -/
structure RxFrame where
  id : BitVec 16
  words : List Word
  fd : Option FdHead
  octets : Nat
  ackd : Bool
  esir : Bool
  self : Bool
  refNs : Nat
deriving DecidableEq, Repr

/-- R258: what a node sees when it counts an error: who it is in the frame, and which row of the table applies. -/
inductive ErrRow where
  | receiverDetects      -- a receiving node detects an error: REC + 1
  | dominantAfterFlag    -- a receiver reads dominant as the first bit after its own flag: REC + 8
  | transmitterFlag      -- a transmitter sends an error flag: TEC + 8
  | ackPassiveQuiet      -- the exception of that row: an ack error while error-passive, no dominant bit read
  | bitInActiveFlagTx    -- a bit error while sending an active flag, transmitter: TEC + 8
  | bitInActiveFlagRx    -- the same, receiver: REC + 8
  | longDominantTx       -- 14 (8) dominant bits after the flag and each further 8, transmitter: TEC + 8
  | longDominantRx       -- the same, receiver: REC + 8
deriving DecidableEq, Repr

/-- What becomes of a contention for the bus (R251, R243, R244). -/
inductive Attempt where
  | lost                       -- arbitration lost
  | won                        -- SOF and ID sent, the frame goes on
deriving DecidableEq, Repr

/-- R469: a container header as it travels: its 4,096 octets, with `sigE` and `sigM` the outcome of verifying the two signatures under the
key KEYID (not its arithmetic). -/
structure RawHeader where
  octets : List (BitVec 8)
  sigE : Bool
  sigM : Bool
deriving DecidableEq, Repr

/-- R469: a container header with its fields read. `reserved` says that every octet the table calls zero is zero, and `octets` holds
them all. -/
structure Header where
  magic : BitVec 32
  format : Nat
  ty : Nat
  flags : Nat
  hwtype : Nat
  unit : List Word
  svn : Nat
  version : Nat
  compat : Nat
  length : Nat
  digest : Nat
  ident : List Word
  keyid : Nat
  base : List Word
  reserved : Bool
  octets : List (BitVec 8)
  sigE : Bool
  sigM : Bool
deriving DecidableEq, Repr

/-- What a host request carries beside its operands: the session (1-8 as 0-7) and the TAG of R556. -/
structure Rq where
  sess : Fin 8
  tag : BitVec 20
deriving DecidableEq, Repr

/-- R310, R311, R323: the content of an Announce message the module uses. -/
structure Announce where
  gm : BitVec 64
  clockClass : Nat
  accuracy : Nat
  traceable : Bool
  inacc : Option Nat      -- totalTimeInaccuracy of a C37.238 TLV, ns
  utcValid : Bool
  utcOffset : Int
  leap61 : Bool
  leap59 : Bool
  domain : BitVec 8       -- domainNumber
  interval : Int          -- logAnnounceInterval
  ptpTimescale : Bool := true   -- the timescale is PTP, not ARB
deriving DecidableEq, Repr

/-- R310, R312: a peer delay exchange in 1/64 ns: the module's stamps of the request it sent (t1) and of the response (t4), the peer's
of the request (t2) and of its response (t3), and the correctionFields summed. -/
structure PeerDelay where
  t1 : Int
  t2 : Int
  t3 : Int
  t4 : Int
  corr : Int
deriving DecidableEq, Repr

/-- R315: the content of an IRIG-B frame: the second of its Pr edge as coded (seconds since 1970), and the control-function
extension. -/
structure Irig where
  utcSec : Nat
  leapPending : Bool
  leapNegative : Bool
  localOffset : Int
  quality : Nat
deriving DecidableEq, Repr

/-- R382: the eight words of a NOTICE or FINAL. -/
structure Notice where
  day : Word
  state : BitVec 3
  slotB : Bool
  ready : Bool
  timeState : BitVec 4
  src : BitVec 4
  ckDay : Word
  swDay : Word
  fault : BitVec 12
deriving DecidableEq, Repr

/-- R379, R380: a frame of the pair link: its header word, its payload words and its check word, and whether its octet count is one that
R63 allows. -/
structure PairFrame where
  header : Word
  payload : List Word
  check : Word
  octets : Bool := true
deriving DecidableEq, Repr

/-- R391, R196: what a checkpoint names of an online change: its identity, the low word of day A, and whether it is applied. -/
structure Named where
  ident : List Word
  day : Word
  applied : Bool
deriving DecidableEq, Repr

/-- R405: the JOIN payload. -/
structure Join where
  plan : List Word
  config : List Word
  version : BitVec 8
deriving DecidableEq, Repr

/-- R367: a remote data frame: the marks that decide its validity, its phasors as pairs, its other values and its digital words, as
received. -/
structure RemoteData where
  cfgCnt : Nat
  rate : Nat
  sec : Nat
  index : Nat
  dataError : BitVec 2
  quality : BitVec 4
  phasors : List (BitVec 32 × BitVec 32)
  others : List (BitVec 32)
  digitals : List (BitVec 16)
deriving DecidableEq, Repr

/-! What the phasor section of a configuration image says (R356, R362 to R370). -/

/-- R364, R367: a configured base, a ratio of whole numbers. -/
structure Scale where
  num : Nat
  den : Nat
deriving DecidableEq, Repr, Inhabited

/-- R356: a phasor configuration: its channel, nominal frequency and reporting rate. -/
structure PhasorCfg where
  chan : Nat
  f0 : Nat
  fs : Nat
deriving DecidableEq, Repr, Inhabited

/-- R363: a PMU block of an output stream: the bases of its phasors, angles, frequency and ROCOF, its analog channels with theirs, and
the arrival source whose travelling-wave block follows the plan's digital words. -/
structure BlockCfg where
  phasors : List Scale
  angle : Scale
  freq : Scale
  rocof : Scale
  analogs : List (Nat × Scale)
  wave : Option Nat
deriving DecidableEq, Repr, Inhabited

/-- R362, R363: an output stream. FORMAT's four bits are `polar`, `fPhasor`, `fAnalog` and `fFreq`. -/
structure StreamCfg where
  idcode : Nat
  peers : List (BitVec 32)
  tcpPort : Nat
  udpPort : Nat
  udp : Bool
  fs : Nat
  polar : Bool
  fPhasor : Bool
  fAnalog : Bool
  fFreq : Bool
  blocks : List BlockCfg
deriving DecidableEq, Repr, Inhabited

/-- R367: a remote stream: the rate of the phasors combined with it, its ring in shared memory and its bases; of each other value
whether it is an analog. -/
structure RemoteCfg where
  fs : Nat
  port : Nat
  ring : Nat
  records : Nat
  phasors : List Scale
  angle : Scale
  others : List (Bool × Scale)
deriving DecidableEq, Repr, Inhabited

/-- R369, R370: a line: its remote stream, the places of Va, Vb, Vc, Ia, Ib and Ic in a block of an output stream and in the remote
frame, the arrival source and the first digital word of the remote travelling-wave block, impedance in pu, length in metres and wave
velocity in metres a second, and where which engine writes its result. -/
structure LineCfg where
  remote : Nat
  stream : Nat
  block : Nat
  near : List Nat
  far : List Nat
  wave : Nat
  farWave : Nat
  zRe : Word
  zIm : Word
  length : Nat
  speed : Nat
  engine : Nat
  record : Nat
deriving DecidableEq, Repr, Inhabited

/-- R368: a source of travelling-wave reports: segment, station and index. -/
structure WaveCfg where
  seg : Nat
  stn : Nat
  idx : Nat
deriving DecidableEq, Repr, Inhabited

/-- What the phasor section says. -/
structure PhasorSection where
  configs : List PhasorCfg
  streams : List StreamCfg
  remotes : List RemoteCfg
  lines : List LineCfg
  waves : List WaveCfg
deriving DecidableEq, Repr, Inhabited

/-- R358, R360: a phasor result as the plan has written it, in both forms, with its validity bit and its phasor configuration. -/
structure PhasorRes where
  config : Nat
  valid : Bool
  re : Word
  im : Word
  mag : Word
  ang : Word
deriving DecidableEq, Repr

/-- R359, R363, R365: what the plan has written for a PMU block: its trigger bits, phasors, frequency deviation and ROCOF with their
validity and phasor configuration, and digital words. -/
structure BlockRes where
  trigger : Nat
  phasors : List PhasorRes
  freqConfig : Nat
  freqValid : Bool
  freq : Word
  rocof : Word
  digitals : List (BitVec 16)
deriving DecidableEq, Repr

/-- R565, R507: what a vault install carries: a KEYID, a fingerprint and (access anchors) a role set. -/
structure VaultItem where
  keyid : Nat
  finger : Nat
  roles : List Role
  octets : Nat
  revoked : List Nat := []   -- a revocation list: the numbers of the anchor's certificates that it revokes
deriving DecidableEq, Repr

/-- R551, R508: how a peer connects: the IPv4 address and TCP port it asks for, and whether the rest of the TLS handshake (its suite,
group, signatures and certificate formats) succeeds. -/
structure Dial where
  dest : BitVec 32
  tcp : Nat
  tlsOk : Bool
deriving DecidableEq, Repr

/-- R551, R552: the settings of a PRP network: its IPv4 address, the length of its mask and its gateway. -/
structure NetAddr where
  addr : BitVec 32
  mask : Nat
  gateway : Option (BitVec 32)
deriving DecidableEq, Repr, Inhabited

/-- R508 to R510: a certificate of the client's chain: its SHA-384 fingerprint, that of its issuer's certificate, its serial number, and
its validity period in UTC seconds since 1970. -/
structure Cert where
  finger : Nat
  issuer : Nat
  number : Nat
  notBefore : Int
  notAfter : Int
deriving DecidableEq, Repr

/-- R513: the fields of a debug grant and whether both signatures verify. -/
structure Grant where
  serial : List Word
  level : Nat
  lastDay : Nat
  challenge : BitVec 64
  sigE : Bool
  sigM : Bool
deriving DecidableEq, Repr

/-- R465: what the environment shows a Daybreak: the carrier straps and identity memory, flash reads, how long each step
takes in ticks, and the self-test outcomes of step 5. -/
structure DayView where
  strapA : Bool
  strapB : Bool
  carid : Option (List Word)
  flashOk : Bool
  fwHeadOk : Bool := true
  fwReadOk : Bool := true
  cfgHeadOk : Bool := true
  stepTicks : List Nat
  detectorFail : List Nat
  comparatorFail : List Nat
  forcingOk : Bool
deriving DecidableEq, Repr

end Sys2Proof
end

