-- ==== Sys2Proof/Syntax.lean ====
section
/-! DEFINITION. The commands: one constructor per row of spec/opcode_table.json, in the table's order. -/

namespace Sys2Proof

/-- The commands of the module. An engine instruction is the release of that instruction by engine `e`; every other
command is the event its row names, with what the outside world supplies to it as operands. -/
inductive Instr where
  /-- NOP (R74): Instruction that does nothing but take its release tick. -/
  | nop (e : Fin 1028) (f : RegForm)
  /-- WAITT (R106): Instruction that rests the engine until a given day tick. -/
  | waitt (e : Fin 1028) (f : RegForm)
  /-- WAITEV (R107): Instruction that rests the engine until a matching event or a deadline tick. -/
  | waitev (e : Fin 1028) (f : RegForm)
  /-- LOOP (R101): Instruction that repeats the following body c times and writes the iteration index. -/
  | loop (e : Fin 1028) (f : ImmForm)
  /-- LOCK (R113): Instruction that opens a LOCK bracket, deferring debug halts and other supervisors' bank accesses. -/
  | lock (e : Fin 1028) (f : RegForm)
  /-- UNLOCK (R113): Instruction that closes an open LOCK bracket. -/
  | unlock (e : Fin 1028) (f : RegForm)
  /-- DONE (R112): Instruction that ends the engine's plan for the day until its next due midnight. -/
  | done (e : Fin 1028) (f : RegForm)
  /-- TSTAMP (R110): Instruction that samples the local clock into a time triple, optionally with an entry record. -/
  | tstamp (e : Fin 1028) (f : RegForm)
  /-- ADD (R76): Wrapping int36 addition, setting V on overflow. -/
  | add (e : Fin 1028) (f : RegForm)
  /-- ADDS (R76): Saturating addition, setting S on saturation. -/
  | adds (e : Fin 1028) (f : RegForm)
  /-- SUB (R76): Wrapping int36 subtraction, setting V on overflow. -/
  | sub (e : Fin 1028) (f : RegForm)
  /-- SUBS (R76): Saturating subtraction, setting S on saturation. -/
  | subs (e : Fin 1028) (f : RegForm)
  /-- AND (R74): Bitwise AND of two registers. -/
  | and (e : Fin 1028) (f : RegForm)
  /-- OR (R74): Bitwise OR of two registers. -/
  | or (e : Fin 1028) (f : RegForm)
  /-- XOR (R74): Bitwise XOR of two registers. -/
  | xor (e : Fin 1028) (f : RegForm)
  /-- ANDN (R74): Bitwise AND with the complement of the second register. -/
  | andn (e : Fin 1028) (f : RegForm)
  /-- NEG (R53): Wrapping negation, setting V for MAXN. -/
  | neg (e : Fin 1028) (f : RegForm)
  /-- NEGS (R53): Saturating negation, setting S for MAXN. -/
  | negs (e : Fin 1028) (f : RegForm)
  /-- ABS (R53): Wrapping absolute value, setting V for MAXN. -/
  | abs (e : Fin 1028) (f : RegForm)
  /-- ABSS (R53): Saturating absolute value, setting S for MAXN. -/
  | abss (e : Fin 1028) (f : RegForm)
  /-- MIN (R77): Signed minimum of two registers. -/
  | min (e : Fin 1028) (f : RegForm)
  /-- MAX (R77): Signed maximum of two registers. -/
  | max (e : Fin 1028) (f : RegForm)
  /-- SEL (R83): Selects one of two registers according to a predicate named in the modifier. -/
  | sel (e : Fin 1028) (f : RegForm)
  /-- CLS (R80): Counts the leading sign bits of a register. -/
  | cls (e : Fin 1028) (f : RegForm)
  /-- SHL (R55): Left shift, setting V when the result differs from the exact product. -/
  | shl (e : Fin 1028) (f : RegForm)
  /-- SHLS (R55): Saturating left shift, setting S on saturation. -/
  | shls (e : Fin 1028) (f : RegForm)
  /-- SHR (R55): Logical right shift. -/
  | shr (e : Fin 1028) (f : RegForm)
  /-- SAR (R55): Arithmetic right shift. -/
  | sar (e : Fin 1028) (f : RegForm)
  /-- ROT (R76): Left rotate by the count modulo 36. -/
  | rot (e : Fin 1028) (f : RegForm)
  /-- EXT (R81): Extracts a bit field, optionally sign-extended. -/
  | ext (e : Fin 1028) (f : RegForm)
  /-- INS (R81): Inserts a bit field into the destination register. -/
  | ins (e : Fin 1028) (f : RegForm)
  /-- CVT (R82): Converts between int36, pu36, turn36 and stream-sample formats. -/
  | cvt (e : Fin 1028) (f : RegForm)
  /-- LDI (R84): Loads a sign-extended 16-bit immediate. -/
  | ldi (e : Fin 1028) (f : ImmForm)
  /-- SHI (R84): Shifts the destination left by 16 and adds an unsigned immediate. -/
  | shi (e : Fin 1028) (f : ImmForm)
  /-- ADDI (R76): Adds a sign-extended immediate with wrapping. -/
  | addi (e : Fin 1028) (f : ImmForm)
  /-- CMP (R85): Writes a predicate from a comparison selected by the modifier. -/
  | cmp (e : Fin 1028) (f : RegForm)
  /-- PLOG (R86): Writes a predicate from a logic function of two predicates. -/
  | plog (e : Fin 1028) (f : RegForm)
  /-- PMOV (R87): Moves the predicates to or from a word. -/
  | pmov (e : Fin 1028) (f : RegForm)
  /-- RDF (R65): Reads the sticky flags into a word. -/
  | rdf (e : Fin 1028) (f : RegForm)
  /-- CLRF (R88): Clears the selected sticky flags. -/
  | clrf (e : Fin 1028) (f : RegForm)
  /-- MUL (R53): int36 multiply keeping the low 36 bits, setting V on overflow. -/
  | mul (e : Fin 1028) (f : RegForm)
  /-- MULS (R53): Saturating int36 multiply. -/
  | muls (e : Fin 1028) (f : RegForm)
  /-- MULH (R78): Returns the high part of the exact 72-bit product. -/
  | mulh (e : Fin 1028) (f : RegForm)
  /-- PMUL (R53): pu36 multiply with rounding and saturation. -/
  | pmul (e : Fin 1028) (f : RegForm)
  /-- TMUL (R78): Scales a turn36 angle by a pu36 factor modulo one turn. -/
  | tmul (e : Fin 1028) (f : RegForm)
  /-- MAC (R89): Adds or subtracts an exact product to an accumulator, optionally clearing it first. -/
  | mac (e : Fin 1028) (f : RegForm)
  /-- ACX (R91): Extracts an int36 or pu36 word from an accumulator. -/
  | acx (e : Fin 1028) (f : RegForm)
  /-- ACM (R92): Reads or writes one word of an accumulator. -/
  | acm (e : Fin 1028) (f : RegForm)
  /-- DIV (R93): int36 division truncating toward zero, setting D on edge cases. -/
  | div (e : Fin 1028) (f : RegForm)
  /-- REM (R93): int36 remainder with the edge cases of division. -/
  | rem (e : Fin 1028) (f : RegForm)
  /-- PDIV (R93): pu36 division truncating toward zero. -/
  | pdiv (e : Fin 1028) (f : RegForm)
  /-- SINCOS (R95): CORD function giving sine and cosine of a turn36 angle. -/
  | sincos (e : Fin 1028) (f : RegForm)
  /-- VROT (R95): CORD function rotating a pu36 vector by a turn36 angle. -/
  | vrot (e : Fin 1028) (f : RegForm)
  /-- ATAN2 (R95): CORD function giving the angle of a pu36 vector. -/
  | atan2 (e : Fin 1028) (f : RegForm)
  /-- MAG (R95): CORD function giving the magnitude of a pu36 vector. -/
  | mag (e : Fin 1028) (f : RegForm)
  /-- SQRT (R96): CORD function giving the square root of a pu36 value. -/
  | sqrt (e : Fin 1028) (f : RegForm)
  /-- LD (R97): Loads a word from the engine's local data at a register offset. -/
  | ld (e : Fin 1028) (f : RegForm)
  /-- ST (R97): Stores a word to the engine's local data at a register offset. -/
  | st (e : Fin 1028) (f : RegForm)
  /-- LDS (R98): Issues a shared read to a mapped address. -/
  | lds (e : Fin 1028) (f : RegForm)
  /-- STS (R98): Issues a shared write to a mapped address. -/
  | sts (e : Fin 1028) (f : RegForm)
  /-- LDL (R97): Loads a word from local data at an immediate offset. -/
  | ldl (e : Fin 1028) (f : ImmForm)
  /-- STL (R97): Stores a word to local data at an immediate offset. -/
  | stl (e : Fin 1028) (f : ImmForm)
  /-- EVS (R99): Posts a software event to a plant engine as a shared access. -/
  | evs (e : Fin 1028) (f : RegForm)
  /-- POPC (R80): Counts the 1 bits of a register. -/
  | popc (e : Fin 1028) (f : RegForm)
  /-- TMARK (R100): Writes a trace marker record. -/
  | tmark (e : Fin 1028) (f : RegForm)
  /-- LIM (R83): Limits the destination register between two bounds. -/
  | lim (e : Fin 1028) (f : RegForm)
  /-- SRR (R79): Divides by a power of two with rounding. -/
  | srr (e : Fin 1028) (f : RegForm)
  /-- JMP (R116): Supervisor extension that continues at an address. -/
  | jmp (e : Fin 1028) (f : RegForm)
  /-- CALL (R116): Supervisor extension that saves the return address and jumps. -/
  | call (e : Fin 1028) (f : RegForm)
  /-- ERET (R116): Supervisor extension returning from the exception handler. -/
  | eret (e : Fin 1028) (f : RegForm)
  /-- TRAP (R116): Supervisor extension entering the exception handler with a code. -/
  | trap (e : Fin 1028) (f : RegForm)
  /-- MFSR (R116): Supervisor extension reading a system register. -/
  | mfsr (e : Fin 1028) (f : RegForm)
  /-- MTSR (R116): Supervisor extension writing a system register. -/
  | mtsr (e : Fin 1028) (f : RegForm)
  /-- TLBI (R116): Supervisor extension invalidating translations. -/
  | tlbi (e : Fin 1028) (f : RegForm)
  /-- FENCE (R116): Supervisor extension waiting for all earlier accesses to complete. -/
  | fence (e : Fin 1028) (f : RegForm)
  /-- CAS (R116): Supervisor extension performing an atomic compare-and-swap. -/
  | cas (e : Fin 1028) (f : RegForm)
  /-- IDLE (R116): Supervisor extension resting until an interrupt. -/
  | idle (e : Fin 1028) (f : RegForm)
  /-- BEAT (R116): Supervisor extension strobing the supervisor heartbeat. -/
  | beat (e : Fin 1028) (f : RegForm)
  /-- SWC (R116): Supervisor extension entering the secure world. -/
  | swc (e : Fin 1028) (f : RegForm)
  /-- SWR (R116): Supervisor extension returning to the normal world. -/
  | swr (e : Fin 1028) (f : RegForm)
  /-- RESULT_LANDING (R71): An operation's result is written at its landing tick, and a late landing is detected. -/
  | resultLanding (e : Fin 1028) (late : Nat) (slack : Nat)
  /-- SHARED_ACCESS_SERVICE (R137): An arbitration point serves a request in its tick, gates it and performs the read or write. -/
  | sharedAccessService (point : Nat)
  /-- WAITT_TARGET_REACHED (R127): A resting WAITT ends at its target tick. -/
  | waittTargetReached (e : Fin 1028)
  /-- EVENT_WAKE (R128): An event queued while the engine rests in WAITEV ends the wait 14 ticks later. -/
  | eventWake (e : Fin 1028)
  /-- WAIT_DEADLINE (R128): A WAITEV ends at its deadline tick with no event. -/
  | waitDeadline (e : Fin 1028)
  /-- PAIR_INPUT_REPLAY (R208): A captured input is delivered to the trailing engine D ticks later. -/
  | pairInputReplay (k : Fin 512) (uncor : Bool)
  /-- COMPARATOR_CHECK (R211): The comparator takes a leading transaction with the trailing one D ticks later and compares them. -/
  | comparatorCheck (k : Fin 512)
  /-- COMPARATOR_SELF_TEST (R218): A differing field is injected while both engines rest, fault 0x305 if unreported. -/
  | comparatorSelfTest (k : Fin 512) (reported : Bool) (lead trail : Word)
  /-- DETECTOR_SELF_TEST (R153): A replica operation is forced late in a resting cluster, fault 0x116 if unreported. -/
  | detectorSelfTest (c : Fin 64) (reported : Bool)
  /-- COMPARATOR_ARM (R220): After the register copy of a join, the comparator is armed at tick 71. -/
  | comparatorArm (k : Fin 512)
  /-- ENGINE_IMAGE_CAPTURE (R386): At DONE + u the engine image is captured into the delta and the state signature computed. -/
  | engineImageCapture (e : Fin 1024)
  /-- TRIPLE_STORE_REPAIR (R225): A queued repair writes all three copies in a free tick. -/
  | tripleStoreRepair
  /-- TRIPLE_STORE_SCRUB (R228): The scrubber visits a triple-store word and decides it under R224. -/
  | tripleStoreScrub (off : Fin 65536) (found : Option (Fin 3 × Word × Chk))
  /-- MEMORY_SCRUB (R569): The scrubber visits a shared, local or plan memory word and corrects or reports it. -/
  | memoryScrub (a : BitVec 32) (found : Chk)
  /-- SPEED_MEASUREMENT (R155): The speed monitor remeasures a cluster's replica paths and temperature. -/
  | speedMeasurement (c : Fin 64) (idx : Option (BitVec 12)) (tj : Option (BitVec 9))
  /-- ANALOGUE_RECALIBRATION (R568): An input stage or loop input is recalibrated against internal references. -/
  | analogueRecalibration (input : Fin 32)
  /-- MIDNIGHT (R193): The day sequencer starts a day: advances N, issues the heartbeat, samples inputs, applies outputs and takes pending transitions. -/
  | midnight
  /-- DAY_WATCHDOG_CHECK (R190): At the end of tick T − 1 each engine that ran is checked for overrun or beyond-day release. -/
  | dayWatchdogCheck
  /-- CHECKPOINT_CUT (R177): At the first tick of Afternoon the dirty set is frozen for streaming. -/
  | checkpointCut
  /-- DELTA_FRAME_SEND (R385): The pair link reads frozen words and sends a DELTA frame. -/
  | deltaFrameSend (lane : Fin 2)
  /-- END_FRAME_SEND (R387): The active module sends the END frame closing the day's delta. -/
  | endFrameSend (lane : Fin 2)
  /-- DUSK_START (R177): At the first tick of Dusk the checkpoint completeness, acknowledgement and commit start are decided. -/
  | duskStart
  /-- COMMIT_COMPLETE (R390): The standby completes writing a checkpoint into its memories. -/
  | commitComplete
  /-- SWEEP_FRAME_SEND (R388): In Night the active module sends its sweep share in SWEEP frames. -/
  | sweepFrameSend (lane : Fin 2)
  /-- NOON_EVALUATION (R420): At the first tick of Noon the monitor evaluates each drive's speed, SS1 limit and restart conditions. -/
  | noonEvaluation
  /-- CHANGE_LOADER_COMPLETE (R197): The change loader finishes writing by tick T − 2,500, or overruns. -/
  | changeLoaderComplete
  /-- BEACON_SEND (R291): The port sends the Dawn beacon at the first bus idle at or after its tick. -/
  | beaconSend (p : Fin 256) (sub : Fin 256)
  /-- BEACON_MISSED (R291): A beacon not started by the end of Dawn is dropped, fault 0x424. -/
  | beaconMissed (p : Fin 256)
  /-- ECHO_REQUEST_SEND (R292): The port sends an echo request to the chosen station. -/
  | echoRequestSend (p : Fin 256)
  /-- ECHO_REPLY_RECEIVE (R292): The port computes the cable delay from a valid echo reply and accepts or voids it. -/
  | echoReplyReceive (p : Fin 256) (k : Fin 32) (e r : Word) (m : Nat)
  /-- DELAY_NOTICE_SEND (R292): The port sends the accepted delay to the station at the next bus idle. -/
  | delayNoticeSend (p : Fin 256)
  /-- TRANSMIT_ATTEMPT (R272): A due head descriptor's frame contends for the bus at a bus idle. -/
  | transmitAttempt (p : Fin 256) (how : Attempt)
  /-- TRANSMIT_SUCCESS (R253): A frame succeeds for its transmitter at the end of EOF and its descriptor ends as sent. -/
  | transmitSuccess (p : Fin 256) (loopd : BitVec 9)
  /-- ERROR_DETECTED (R256): A node detects a bus error, sends an error flag and updates its error counts. -/
  | errorDetected (p : Fin 256) (cls : Fin 9) (fast : Bool) (row : ErrRow) (loopd : Option (BitVec 9))
  /-- BUS_OFF_RECOVERY_COMPLETE (R261): After 128 recessive sequences the port clears its counts and returns error-active. -/
  | busOffRecoveryComplete (p : Fin 256) (driverHolds : Bool)
  /-- INTEGRATION_COMPLETE (R253): After 11 recessive bits a port may send, acknowledge and receive. -/
  | integrationComplete (p : Fin 256)
  /-- PROTOCOL_EXCEPTION (R266): A CAN FD port meets a recessive res bit or an XL frame, fault 0x408. -/
  | protocolException (p : Fin 256)
  /-- DOMINANT_TIMEOUT (R236): A driver dominant for 32 bit times is forced recessive and the port goes bus-off. -/
  | dominantTimeout (p : Fin 256)
  /-- DRIVER_CURRENT_LIMIT (R235): A driver at its current limit for 50 µs in 1 ms is turned off, fault 0x40B. -/
  | driverCurrentLimit (p : Fin 256)
  /-- DRIVER_DISABLE (R262): A port's driver is disabled, abandoning any frame in progress, fault 0x409. -/
  | driverDisable (p : Fin 256)
  /-- GROUP_SUPPLY_FAIL (R234): An isolation group supply fails, taking its eight ports out of service. -/
  | groupSupplyFail (g : Fin 32)
  /-- FRAME_VALID (R253): A frame becomes valid for a receiver at EOF bit 6 and awaits deposit. -/
  | frameValid (p : Fin 256) (f : RxFrame)
  /-- FRAME_DEPOSIT (R280): The port writes a valid frame into the receive queue and queues the receive notice. -/
  | frameDeposit (p : Fin 256) (d : DepositStep)
  /-- TXPTR_WRITE (R270): Software posts transmit descriptors by writing PUT. -/
  | txptrWrite (p : Fin 256) (put : BitVec 8)
  /-- TXCAN_CANCEL (R276): Software requests cancellation of a posted transmit descriptor. -/
  | txcanCancel (p : Fin 256) (index : BitVec 8)
  /-- RXACK (R281): Software returns the oldest held receive entries to the port. -/
  | rxack (p : Fin 256) (count : BitVec 9)
  /-- CFG_ENTER (R265): A write of CFG = 1 puts the port into configuration at the end of the current frame. -/
  | cfgEnter (p : Fin 256)
  /-- CFG_LEAVE (R265): A write of CFG = 0 checks bit timing and takes the port into operation. -/
  | cfgLeave (p : Fin 256)
  /-- LOREQ_SET (R264): Software makes the port listen-only at the end of the current frame. -/
  | loreqSet (p : Fin 256)
  /-- LOREQ_CLEAR (R264): Software ends the listen-only request; the port drives from the next bus idle. -/
  | loreqClear (p : Fin 256)
  /-- BOREC (R261): Software starts bus-off recovery when BOMAN is set. -/
  | borec (p : Fin 256)
  /-- UNMUTE (R295): Software clears a station's MUTED and INTR for the next beacon. -/
  | unmute (p : Fin 256) (k : Fin 32)
  /-- CLOCK_TICK (R301): The local clock advances by one rate-corrected tick, carrying into seconds. -/
  | clockTick
  /-- CLOCK_STEP (R304): The clock is stepped to the source while the day sequencer is stopped, fault 0x509. -/
  | clockStep (src : Fin 6) (sec ns64 : Nat)
  /-- DAY_SEQUENCER_START (R304): The day sequencer starts at the first grid midnight after the clock is set. -/
  | daySequencerStart
  /-- PLL_UNLOCK (R306): The time base loses lock and the day sequencer is stopped, fault 0x50F. -/
  | pllUnlock
  /-- PTP_SYNC_RECEIVE (R312): A Sync message gives an offset sample to the PTP servo. -/
  | ptpSyncReceive (k : Fin 2) (domain : BitVec 8) (interval t1 t2 corr : Int)
  /-- PTP_ANNOUNCE_RECEIVE (R311): An Announce message updates the domain's grandmaster and usability. -/
  | ptpAnnounceReceive (k : Fin 2) (lan : Fin 2) (a : Announce)
  /-- PDELAY_REQ_SEND (R310): Each PTP port sends Pdelay_Req every second. -/
  | pdelayReqSend (n : Fin 4)
  /-- PDELAY_REQ_RECEIVE (R310): A received Pdelay_Req is answered. -/
  | pdelayReqReceive (n : Fin 4)
  /-- PDELAY_RESP_RECEIVE (R310): A Pdelay response updates the port's peer delay. -/
  | pdelayRespReceive (n : Fin 4) (x : PeerDelay)
  /-- ANNOUNCE_TIMEOUT (R311): A domain without Announce within the receipt timeout becomes unusable. -/
  | announceTimeout (k : Fin 2)
  /-- GM_CHANGE_HOLD_END (R311): 16 s after a grandmaster change the domain may be usable again. -/
  | gmChangeHoldEnd (k : Fin 2)
  /-- PPS_EDGE (R314): A PPS rising edge is checked, assigned to a second and queued as event 0x0920. -/
  | ppsEdge
  /-- IRIG_FRAME (R315): An IRIG-B frame is decoded and its on-time marker queued as event 0x0921. -/
  | irigFrame (widths : List Nat)
  /-- SOURCE_REVERT (R318): A higher source usable for REVERT seconds is selected at the next whole second. -/
  | sourceRevert
  /-- LOCK_ACQUIRED (R308): After 60 s within ±50 ns the time unit enters a LOCK state. -/
  | lockAcquired
  /-- HOLD_LONG_ENTRY (R320): The holdover bound passes 1 µs and HOLD_LONG is entered, fault 0x508. -/
  | holdLongEntry
  /-- TREND_LEARNED (R320): After 12 h in LOCK the holdover trend is marked learned. -/
  | trendLearned
  /-- LEAP_APPLY (R323): At the leap second TAI − UTC changes and the leap is cleared, fault 0x50B. -/
  | leapApply
  /-- FAR_SOURCE_REPORT (R305): A source beyond 1 ms while FREE is reported once per hour, fault 0x50D. -/
  | farSourceReport (src : Fin 6)
  /-- TIME_WAIT_EXPIRY (R321): At Daybreak with no source after WAIT seconds the clock is set from the event log, fault 0x510. -/
  | timeWaitExpiry
  /-- PPS_OUTPUT_EDGE (R316): The PPS output drives an edge at each whole TAI second. -/
  | ppsOutputEdge
  /-- FEEDPTR_WRITE (R338): Software posts feed descriptors by writing the feed ring PUT. -/
  | feedptrWrite (put : BitVec 8)
  /-- FEED_PROCESS (R341): The signal chain unit takes a feed, places its samples and completes it by writing word 0. -/
  | feedProcess
  /-- CHANNEL_GO (R346): A write of GO checks and starts a stopped channel. -/
  | channelGo (c : Fin 2048)
  /-- CHANNEL_STOP (R346): A write of STOP stops a channel. -/
  | channelStop (c : Fin 2048)
  /-- SYNC_ARM_NEXT_PPS (R349): Arms a synchronous reset at the next PPS second. -/
  | syncArmNextPps
  /-- SYNC_ARM_MIDNIGHT (R349): Arms a synchronous reset at the midnight of SIG_SYNCDAY. -/
  | syncArmMidnight
  /-- SYNC_ARM_FAIL (R349): An arming fails when PPS is unusable for 4 s or the midnight has passed, fault 0x60B. -/
  | syncArmFail
  /-- C37_CONNECTION_ACCEPT (R362): A C37.118.2 connection or command from a listed peer is accepted, others ignored. -/
  | c37ConnectionAccept (stream : Fin 8) (peer : BitVec 32) (port : BitVec 16)
  /-- C37_DATA_OFF (R363): Command 1 turns a stream's data frames off. -/
  | c37DataOff (stream : Fin 8) (peer : BitVec 32)
  /-- C37_DATA_ON (R363): Command 2 turns a stream's data frames on. -/
  | c37DataOn (stream : Fin 8) (peer : BitVec 32)
  /-- C37_SEND_HEADER (R363): Command 3 sends the header frame. -/
  | c37SendHeader (stream : Fin 8) (peer : BitVec 32)
  /-- C37_SEND_CFG2 (R363): Command 5 sends CFG-2. -/
  | c37SendCfg2 (stream : Fin 8) (peer : BitVec 32)
  /-- C37_SEND_CFG3 (R363): Command 6 sends CFG-3. -/
  | c37SendCfg3 (stream : Fin 8) (peer : BitVec 32)
  /-- C37_CFG1_IGNORED (R363): Command 4 is ignored, fault 0x620. -/
  | c37Cfg1Ignored (stream : Fin 8) (peer : BitVec 32)
  /-- C37_EXTENDED_FRAME_IGNORED (R363): Command 8 is ignored. -/
  | c37ExtendedFrameIgnored (stream : Fin 8) (peer : BitVec 32)
  /-- C37_DATA_FRAME_SEND (R366): A data frame is sent once all its results are written. -/
  | c37DataFrameSend (stream : Fin 8) (sec j : Nat)
  /-- C37_FRAME_TIMEOUT (R366): A frame incomplete at t_r + 5/Fs is not sent, fault 0x621. -/
  | c37FrameTimeout (stream : Fin 8) (sec j : Nat)
  /-- REMOTE_CFG2_RECEIVE (R367): A remote stream's CFG-2 is received and data requested. -/
  | remoteCfg2Receive (r : Fin 16) (cfgCnt : Nat) (fmt : BitVec 4)
  /-- REMOTE_DATA_FRAME_RECEIVE (R367): A remote data frame is checked, converted and written to its ring. -/
  | remoteDataFrameReceive (r : Fin 16) (f : RemoteData)
  /-- REMOTE_STREAM_LOST (R367): A remote stream without a valid frame for 3/Fs is lost, fault 0x622. -/
  | remoteStreamLost (r : Fin 16)
  /-- REMOTE_CFG2_REREQUEST (R367): CFG-2 of a lost stream is requested again each second. -/
  | remoteCfg2Rerequest (r : Fin 16)
  /-- MANDATE_LOOP_STATE_CHANGE (R373): A loop current stays 1 µs in a new band and its state is reported. -/
  | mandateLoopStateChange (partner : Bool) (tenthMilliamp : BitVec 9)
  /-- PRESENCE_CHANGE (R377): A presence contact changes; opening of its own clears the claim. -/
  | presenceChange (partner inserted : Bool)
  /-- PRESENCE_DEBOUNCE_END (R402): After 10 ms of inserted presence the module releases reset and starts Daybreak. -/
  | presenceDebounceEnd
  /-- CLAIM_LATCH_SET (R378): At T − 2,500 the claimant sets its latch and drives its loop claimed. -/
  | claimLatchSet
  /-- YIELD_RECHECK (R378): 5 µs after yielding slot B rechecks the partner loop and reclaims or abandons. -/
  | yieldRecheck
  /-- CLAIM_CONFIRMATION (R378): At T − 1 the claim is confirmed and established or fails, fault 0x703. -/
  | claimConfirmation
  /-- LOOP_ERROR (R374): A loop path share or readback disagreement persisting raises fault 0x704. -/
  | loopError (path : Bool)
  /-- SWITCHOVER_READBACK (R399): At T − 3,250 of day W the standby takes its output readback. -/
  | switchoverReadback
  /-- SWITCHOVER_RELEASE (R399): At T − 3,000 of day W the outgoing module releases the mandate. -/
  | switchoverRelease
  /-- SWITCHOVER_FALLBACK_CHECK (R400): At T − 1,500 the old active reclaims if the standby has not claimed. -/
  | switchoverFallbackCheck
  /-- NOTICE_SEND (R381): Each module sends a NOTICE on each lane at least every 2 µs. -/
  | noticeSend (lane : Fin 2)
  /-- NOTICE_RECEIVE (R382): A partner NOTICE updates the partner's state, READY and source. -/
  | noticeReceive (lane : Fin 2) (f : PairFrame) (ofs : Int)
  /-- LANE_DOWN (R381): A lane with no good frame for 10 µs goes down, fault 0x705. -/
  | laneDown (lane : Fin 2)
  /-- DELTA_RECEIVE (R387): The standby receives a DELTA frame of the checkpoint. -/
  | deltaReceive (lane : Fin 2) (f : PairFrame)
  /-- SWEEP_RECEIVE (R388): The standby receives a SWEEP frame of the night's share. -/
  | sweepReceive (lane : Fin 2) (f : PairFrame)
  /-- END_RECEIVE (R389): The standby checks an END frame for completeness and sends ACK. -/
  | endReceive (lane : Fin 2) (f : PairFrame) (change : Option Named)
  /-- ABANDON_RECEIVE (R387): The standby receives ABANDON and discards the checkpoint or clears READY. -/
  | abandonReceive (lane : Fin 2) (f : PairFrame)
  /-- ACK_RECEIVE (R384): The active module receives ACK and releases the frozen set. -/
  | ackReceive (lane : Fin 2) (f : PairFrame)
  /-- JOIN_RECEIVE (R405): The active module accepts or refuses a JOIN, fault 0x720. -/
  | joinReceive (lane : Fin 2) (f : PairFrame)
  /-- CLONE_RECEIVE (R406): A DAYBREAK module receives CLONE frames and verifies the container. -/
  | cloneReceive (lane : Fin 2) (f : PairFrame) (ty : Fin 2) (h : RawHeader)
  /-- CLONE_COMPLETE (R406): The receiver writes the cloned containers to both banks and restarts, fault 0x722. -/
  | cloneComplete
  /-- FINAL_RECEIVE (R395): A FINAL frame from the partner raises fault 0x714. -/
  | finalReceive (lane : Fin 2) (f : PairFrame)
  /-- DAY_HEARTBEAT_TIMEOUT (R26): No day heartbeat for 1.5 L trips the Nightwatch. -/
  | dayHeartbeatTimeout
  /-- SUPERVISOR_HEARTBEAT_TIMEOUT (R26): No supervisor strobe for 50 ms trips the Nightwatch. -/
  | supervisorHeartbeatTimeout
  /-- FABRIC_RAIL_FAULT (R26): The fabric rail outside 0.62–0.85 V for 1 µs trips the Nightwatch. -/
  | fabricRailFault
  /-- INTERNAL_RAIL_FAULT (R26): An internal rail beyond 5 % for 1 µs trips the Nightwatch. -/
  | internalRailFault
  /-- FEEDS_LOST (R26): Both feeds below 2.7 V for 20 µs trip the Nightwatch. -/
  | feedsLost
  /-- NIGHTWATCH_RAIL_LOSS (R25): Loss of the Nightwatch rail or oscillator drops the permit. -/
  | nightwatchRailLoss
  /-- SUNDOWN (R27): The last-gasp sequence sends FINAL, logs the trip and writes the faceplate. -/
  | sundown (complete : Bool)
  /-- RESET_ASSERT (R27): 800 ms after a trip the Nightwatch asserts reset. -/
  | resetAssert
  /-- RESET_RELEASE (R27): The Nightwatch releases reset and the module enters DAYBREAK. -/
  | resetRelease
  /-- START_THRESHOLD_REACHED (R534): A feed between 3.0 V and 60 V for 100 ms lets the power stage start. -/
  | startThresholdReached
  /-- DAYBREAK (R465): The start sequence loads firmware, configuration and state and decides the outcome. -/
  | daybreak (v : DayView)
  /-- DAYBREAK_STEP_TIMEOUT (R466): A Daybreak step beyond its limit ends the start, fault 0xA09. -/
  | daybreakStepTimeout (step : Fin 8)
  /-- RETRY_WAIT_EXPIRY (R474): The backoff wait ends and the next start attempt begins. -/
  | retryWaitExpiry
  /-- COLD_START_RELEASE (R545): The thermal face at or above the lowest start temperature for 60 s lets the module start. -/
  | coldStartRelease
  /-- SAF_DRV_CMD_WRITE (R417): The safety logic writes a drive command of STO, SS1 or RUN. -/
  | safDrvCmdWrite (d : Fin 64) (cmd : BitVec 2)
  /-- SAF_CONN_RX_WRITE (R433): The safety logic copies an inbound telegram word to the monitor. -/
  | safConnRxWrite (c : Fin 128) (j : Fin 6) (v : Word)
  /-- SAF_RESUME_WRITE (R434): On the first day after takeover a drive's snapshot is resumed. -/
  | safResumeWrite (d : Fin 64) (snap : Word)
  /-- SAF_UNLOCK_GO (R419): The unlock register takes a drive out of LOCKOUT if its cause is gone. -/
  | safUnlockGo (d : Fin 64)
  /-- TEST_PULSE_START (R426): A test supply Tk is switched off for W once in each period. -/
  | testPulseStart (k : Fin 4)
  /-- TEST_PULSE_CHECK (R426): At W − 50 µs into a pulse each assigned input is checked for shorts. -/
  | testPulseCheck (k : Fin 4)
  /-- TEST_PULSE_END (R426): The test supply is switched back on at the end of its pulse. -/
  | testPulseEnd (k : Fin 4)
  /-- DARK_TEST (R428): An owned output that is on is switched off for WO and checked for stuck. -/
  | darkTest (l : Fin 24) (pulse readsOn : Bool)
  /-- CONTACTOR_FEEDBACK_TIMEOUT (R429): A wrong mirror-contact reading beyond TCF forces LOCKOUT, fault 0x816. -/
  | contactorFeedbackTimeout (d : Fin 64)
  /-- MONITOR_DISCREPANCY (R436): The monitor's two channels disagree, fault 0x8F0, handled as a mismatch. -/
  | monitorDiscrepancy
  /-- FORCING_PATH_TEST (R436): The daily forcing-path test of the monitor, fault 0x8F1 on failure. -/
  | forcingPathTest (ok : Bool)
  /-- INPUT_CROSSING (R445): An input crosses a band threshold, queuing an edge at FILT 0. -/
  | inputCrossing (l : Fin 24) (millivolt : Int)
  /-- FILTERED_BAND_CHANGE (R444): After the filter time the filtered band changes and an edge event may be queued. -/
  | filteredBandChange (l : Fin 24)
  /-- FREEZE_END (R444): A band freeze ends and the filtered band may take the raw band. -/
  | freezeEnd (l : Fin 24)
  /-- LOADING_SETTLE (R444): 1 µs after loading starts each filtered band is set to the raw band. -/
  | loadingSettle
  /-- LIO_OUT_WRITE (R453): A write to an output value refreshes the channel for the next capture. -/
  | lioOutWrite (l : Fin 24) (v : BitVec 10)
  /-- PWM_RELOAD (R451): A PWM output takes a new duty at its reload instant. -/
  | pwmReload (l : Fin 24)
  /-- OUTPUT_OVERLOAD (R447): An output at its limit for 1 ms turns off, fault 0x920. -/
  | outputOverload (l : Fin 24)
  /-- OUTPUT_READBACK_FAULT (R448): An output whose readback disagrees for 1 ms raises fault 0x921 or 0x922. -/
  | outputReadbackFault (l : Fin 24)
  /-- OPEN_LOAD (R448): An on output drawing under 5 mA for 100 ms raises fault 0x923. -/
  | openLoad (l : Fin 24)
  /-- GROUP_FIELD_SUPPLY_CHANGE (R440): A local I/O group supply leaves 19.2–30 V, fault 0x924. -/
  | groupFieldSupplyChange (g : Fin 3) (inRange : Bool)
  /-- TEST_SUPPLY_OVERLOAD (R455): A test supply at its limit for 1 ms turns off for 100 ms, fault 0x930. -/
  | testSupplyOverload (k : Fin 4)
  /-- TEST_SUPPLY_RETRY (R455): After 100 ms an overloaded test supply is tried again. -/
  | testSupplyRetry (k : Fin 4)
  /-- LOOP_SAMPLE (R456): Each current loop is sampled every 10 µs. -/
  | loopSample (a : Fin 8) (microamp : Int) (atLimit : Bool)
  /-- FACEPLATE_PASS_START (R460): At a whole second with differing lines an update pass starts. -/
  | faceplatePassStart
  /-- FACEPLATE_PASS_COMPLETE (R460): An update pass finishes writing its lines. -/
  | faceplatePassComplete
  /-- FACEPLATE_PASS_ABANDON (R461): A drive rail leaving its limits abandons the pass, fault 0x960. -/
  | faceplatePassAbandon
  /-- FEED_DROP (R535): One feed falls below 2.7 V and the other takes over, fault 0xC01 or 0xC02. -/
  | feedDrop (k : Fin 2) (millivolt : Int)
  /-- FEED_OVERVOLTAGE (R533): A feed above 63 V is disconnected, fault 0xC03. -/
  | feedOvervoltage (k : Fin 2) (millivolt : Int)
  /-- FEED_RECONNECT (R533): A feed below 61 V for 100 ms is reconnected. -/
  | feedReconnect (k : Fin 2) (millivolt : Int)
  /-- FEED_REVERSE (R533): A feed below −1 V is blocked, fault 0xC04. -/
  | feedReverse (k : Fin 2) (millivolt : Int)
  /-- STORE_STATE_CHANGE (R539): The hold-up store enters DISCHARGED, PARTIAL or FULL. -/
  | storeStateChange (charge : Fin 1001)
  /-- STORE_CAPACITY_TEST (R542): The daily partial discharge measures store capacity, fault 0xC12 if worn. -/
  | storeCapacityTest (tenthJoule : BitVec 12)
  /-- INTERFACE_OVERTEMP (R544): The interface above 85 °C raises fault 0xC21. -/
  | interfaceOvertemp (celsius : BitVec 9)
  /-- HOST_CONNECTION (R553): A TCP connection, TLS handshake and role assignment end with OPENED. -/
  | hostConnection (port : Fin 4) (peer : BitVec 32) (dial : Dial) (chain : List Cert)
  /-- SESSION_IDLE_TIMEOUT (R555): A session with no request for 300 s is closed. -/
  | sessionIdleTimeout (sess : Fin 8)
  /-- TLS_FAILURE (R555): The TLS layer fails or the peer closes, closing the session. -/
  | tlsFailure (sess : Fin 8)
  /-- KEY_UPDATE (R508): KeyUpdate is sent after 2²⁴ records or 1 h. -/
  | keyUpdate (sess : Fin 8)
  /-- HOST_FRAMING_ERROR (R558): A request with a bad KIND or LEN closes the session. -/
  | hostFramingError (sess : Fin 8) (w0 w1 : Word)
  /-- NETWORK_FRAME_DROP (R511): Traffic not permitted on N1–N4 is dropped and counted. -/
  | networkFrameDrop (port : Fin 4) (peer : BitVec 32)
  /-- ICMP_ECHO (R511): An ICMP echo request is answered within its rate limit. -/
  | icmpEcho (port : Fin 4) (ident : Nat)
  /-- RNG_READY (R504): After 512 bits of tested entropy the generator becomes ready, fault 0xB21. -/
  | rngReady
  /-- RNG_HEALTH_FAIL (R505): An entropy health test failure clears READY, fault 0xB20. -/
  | rngHealthFail
  /-- DRBG_RESEED (R504): The DRBG reseeds each second and after 2²⁰ requests. -/
  | drbgReseed
  /-- SEC_RNG_READ (R504): A read of SEC_RNG draws a fresh DRBG output. -/
  | secRngRead
  /-- GRANT_EXPIRY (R513): A debug grant ends at its last valid day, releasing halted engines. -/
  | grantExpiry
  /-- UPDATE_SESSION_LOSS (R482): An update session whose host session ended without OPEN within 60 s is lost. -/
  | updateSessionLoss
  /-- IDENT (R563): Host command returning identity, variant, versions and configuration identity. -/
  | ident (q : Rq)
  /-- ECHO (R563): Host command returning its payload words. -/
  | echo (q : Rq) (payload : List Word)
  /-- STATUS (R563): Host command returning module state and key status registers. -/
  | status (q : Rq)
  /-- READ (R564): Host command reading words as normal-world supervisor peeks. -/
  | read (q : Rq) (a : Word) (count : Nat)
  /-- LOG (R574): Host command returning event-log entries from a given SEQ. -/
  | log (q : Rq) (first : Word) (count : Nat)
  /-- TELEM (R570): Host command returning the latest telemetry set. -/
  | telem (q : Rq)
  /-- PMUCFG (R563): Host command returning a stream's CFG-3 content. -/
  | pmucfg (q : Rq) (stream : Nat)
  /-- STOP (R22): Host stop command, accepted for the next midnight or refused, forced if flagged. -/
  | stop (q : Rq) (flags : Word)
  /-- RESTART (R475): Host restart command from STOPPED or during a retry wait. -/
  | restart (q : Rq)
  /-- SWITCH (R398): Host command arming a planned switchover for day W. -/
  | switch (q : Rq) (day : Word)
  /-- HOST_UNLOCK (R419): Host UNLOCK command asking to clear a drive's LOCKOUT. -/
  | hostUnlock (q : Rq) (drive : Nat)
  /-- FPLINE (R563): Host command writing a faceplate line 4 to 11. -/
  | fpline (q : Rq) (line : Nat) (words : List Word)
  /-- UOPEN (R479): Host command opening an update session and checking its header. -/
  | uopen (q : Rq) (cls bank slot : Nat) (h : RawHeader) (ty floor : Nat)
  /-- UBLOCK (R479): Host command writing a payload block of an update session. -/
  | ublock (q : Rq) (offset : Nat) (words : List Word)
  /-- UCLOSE (R480): Host command verifying the payload and committing the slot or floor. -/
  | uclose (q : Rq)
  /-- UCOPY (R483): Host command copying a valid container to the other bank. -/
  | ucopy (q : Rq) (slot : Nat)
  /-- ACTIVATE (R485): Host command setting the preferred bank and restarting the module. -/
  | activate (q : Rq) (bank : Nat) (keep : Bool)
  /-- ARM (R195): Host command arming a staged online change for day A. -/
  | arm (q : Rq) (day : Word)
  /-- VAULT_GENERATE_DEVICE_KEY (R565): Vault subfunction generating the owner device key pair and a request. -/
  | vaultGenerateDeviceKey (q : Rq)
  /-- VAULT_INSTALL_DEVICE_CERT (R565): Vault subfunction installing the owner device certificate. -/
  | vaultInstallDeviceCert (q : Rq) (item : VaultItem)
  /-- VAULT_INSTALL_CONFIG_KEY (R565): Vault subfunction installing a configuration key pair. -/
  | vaultInstallConfigKey (q : Rq) (slot : Nat) (item : VaultItem)
  /-- VAULT_INSTALL_TRUST_ANCHOR (R565): Vault subfunction installing a TLS trust anchor. -/
  | vaultInstallTrustAnchor (q : Rq) (slot : Nat) (item : VaultItem)
  /-- VAULT_INSTALL_DEBUG_KEYS (R565): Vault subfunction installing owner debug grant keys. -/
  | vaultInstallDebugKeys (q : Rq) (slot : Nat) (item : VaultItem)
  /-- VAULT_INSTALL_ACCESS_ANCHOR (R565): Vault subfunction installing an owner access anchor and role set. -/
  | vaultInstallAccessAnchor (q : Rq) (slot : Nat) (item : VaultItem)
  /-- VAULT_REPLACE_CRL (R565): Vault subfunction replacing a revocation list. -/
  | vaultReplaceCrl (q : Rq) (item : VaultItem)
  /-- VAULT_DELETE_SLOT (R565): Vault subfunction deleting a slot. -/
  | vaultDeleteSlot (q : Rq) (slot : Nat)
  /-- VAULT_LIST_SLOTS (R565): Vault subfunction listing slot occupancy. -/
  | vaultListSlots (q : Rq)
  /-- ZEROISE (R507): Host command erasing the vault and configuration slots into delivery state. -/
  | zeroise (q : Rq) (serial : List Word)
  /-- COMMISSION (R507): Host command ending delivery state by installing initial keys and anchors. -/
  | commission (q : Rq) (key anchor access : VaultItem)
  /-- DBGCHAL (R513): Host command returning a fresh debug challenge. -/
  | dbgchal (q : Rq)
  /-- DBGGRANT (R513): Host command verifying a debug grant and raising the debug level. -/
  | dbggrant (q : Rq) (g : Grant)
  /-- PEEK (R579): Debug command reading words without side effects. -/
  | peek (q : Rq) (a : Word) (count : Nat)
  /-- TAKE (R578): Debug command reading words with their read side effects. -/
  | take (q : Rq) (a : Word) (count : Nat)
  /-- POKE (R579): Debug command writing words in BENCH or STOPPED. -/
  | poke (q : Rq) (a : Word) (words : List Word)
  /-- HALT (R580): Debug command halting an engine at its next release. -/
  | halt (q : Rq) (e : Nat)
  /-- RESUME (R580): Debug command releasing a halted engine. -/
  | resume (q : Rq) (e : Nat)
  /-- STEP (R578): Debug command releasing n instructions and halting again. -/
  | step (q : Rq) (e n : Nat)
  /-- REGS (R578): Debug command returning an engine's image, plan position and loop stack. -/
  | regs (q : Rq) (e : Nat)
  /-- FAB_LATE_READ (R149): A read pops a late record and latches its scheduled and actual ticks. -/
  | fabLateRead (master : Fin 1032) (secure : Bool)
  /-- DAY_OVR_READ (R190): A read pops an overrun record. -/
  | dayOvrRead (master : Fin 1032) (secure : Bool)
  /-- CMP_MISM_READ (R213): A read pops a mismatch record and latches the compared values. -/
  | cmpMismRead (master : Fin 1032) (secure : Bool)
  /-- GATE_VIOL_READ (R498): A read pops a violation record and latches its address and tick. -/
  | gateViolRead (master : Fin 1032) (secure : Bool)
  /-- DBG_TRRD_READ (R577): A read pops the next trace word. -/
  | dbgTrrdRead (master : Fin 1032) (secure : Bool)
  /-- DAY_NUML_READ (R172): A read of the day number low word latches the high part for the master. -/
  | dayNumlRead (master : Fin 1032) (secure : Bool)
  /-- TIM_CLKNS_READ (R302): A read of the clock nanoseconds latches the seconds words for the master. -/
  | timClknsRead (master : Fin 1032) (secure : Bool)
  /-- COUNTER_READ_CLEAR (R9): A read of an RC counter returns and clears it. -/
  | counterReadClear (master : Fin 1032) (secure : Bool) (a : Word)
  /-- GATE_REGION_WRITE (R497): A region entry write goes to the shadow table or takes effect, and LOCK locks it. -/
  | gateRegionWrite (master : Fin 1032) (secure : Bool) (n : Fin 256) (j : Fin 3) (v : Word)
  /-- REGISTER_WRITE (R9): A write to any register field without a row of its own, under its access code. -/
  | registerWrite (master : Fin 1032) (secure : Bool) (a v : Word)
  /-- TELEMETRY_COLLECTION (R570): At each whole TAI second the telemetry set is collected. -/
  | telemetryCollection
  /-- LOG_ENTRY_WRITE (R571): A queued event-log entry is written to flash in both banks. -/
  | logEntryWrite
  /-- TRACE_WRITE (R577): Trace writes up to 8 records per tick from its intake to trace memory. -/
  | traceWrite
  /-- FEED_RETURN (R535): A feed that was absent rises again to 2.7 V or more and may take over supplying the power stage. -/
  | feedReturn (k : Fin 2) (millivolt : Int)
  /-- SYNC_MISSING (R311): More than 3 consecutive Sync messages are missing on a domain's SLAVE port, so the domain becomes unusable. -/
  | syncMissing (k : Fin 2)
  /-- PEER_DELAY_TIMEOUT (R311): A port's peer delay has not been measured within the last 8 s, so the domain becomes unusable. -/
  | peerDelayTimeout (n : Fin 4)
  /-- PPS_EDGE_MISSING (R314): No PPS edge arrives within 1 s plus 1 µs of the previous edge, so the PPS input is counted missing and becomes unusable, fault 0x505. -/
  | ppsEdgeMissing
  /-- IRIG_SIGNAL_LOSS (R315): The IRIG-B input stops delivering pulses, so no frame completes and the input becomes unusable, fault 0x506. -/
  | irigSignalLoss
  /-- PARTNER_LOOP_UNKNOWN_REPEAT (R395): While the partner loop stays unknown with the partner present or the link up, fault 0x701 is raised again once per second. -/
  | partnerLoopUnknownRepeat
  /-- CLONE_FRAME_SEND (R406): The active module sends its configuration, and perhaps firmware, container in CLONE frames in the link capacity that checkpoints leave free. -/
  | cloneFrameSend (lane : Fin 2) (ty : Fin 2) (theirs : Word)
  /-- GROUP_SUPPLY_RETURN (R234): A failed Zilco isolation group supply returns, so the eight ports of the group may come back into service. -/
  | groupSupplyReturn (g : Fin 32)
  /-- PLL_RELOCK (R306): The time base phase-locked loop regains lock after an unlock. -/
  | pllRelock
deriving DecidableEq, Repr

end Sys2Proof
end

