-- ==== Sys2Proof/WellFormed.lean ====
section
/-! DEFINITION. Which engine instructions are free of the reserved encodings of R69 and R94 and of a register range beyond
w63 (R118). A command of another unit carries no encoding, and its operands are bounded by their types. -/

namespace Sys2Proof

/-- R69, register form: a non-zero release delta, and zero in every field the opcode does not use. A field that the opcode uses
under any modifier is used by it (log entry 114). A value that a described modifier leaves unnamed (EXT bits [3:1], PMUL, TMUL
and SRR bits [2:0], PMOV 2 to 15) is taken as reserved (log entry 123). -/
def RegForm.fits (f : RegForm) (useD useA useB modOk : Bool) : Bool :=
  f.delta != 0 && (useD || f.d == 0) && (useA || f.a == 0) && (useB || f.b == 0) && modOk

/-- R69 for WAITT and WAITEV: their release delta is zero. -/
def RegForm.fitsWait (f : RegForm) (useDB modOk : Bool) : Bool :=
  f.delta == 0 && (useDB || (f.d == 0 && f.b == 0)) && modOk

/-- A register range of `n` words from register `r` stays within w63 (R118). -/
def rangeOk (r : BitVec 6) (n : Nat) : Bool := r.toNat + n ≤ 64

/-- CORD's modifier (R94): bits [2:0] the function, bit [3] ignored. -/
def cordOk (f : RegForm) (fn : Nat) : Bool := f.m.toNat % 8 == fn

/-- R69, R75 to R118: no reserved encoding and no register range beyond w63. -/
def wellFormed (i : Instr) : Bool :=
  match i with
  | .nop _ f | .lock _ f | .unlock _ f | .done _ f => f.fits false false false (f.m == 0)
  | .waitt _ f => f.fitsWait false (f.m == 0)
  | .waitev _ f => f.fitsWait true true
  | .loop _ f => f.delta != 0
  | .tstamp _ f => f.fits true false false (f.m.toNat < 2 && rangeOk f.d (3 + f.m.toNat))
  | .add _ f | .adds _ f | .sub _ f | .subs _ f | .and _ f | .or _ f | .xor _ f | .andn _ f | .min _ f | .max _ f
  | .shl _ f | .shls _ f | .shr _ f | .sar _ f | .rot _ f | .ins _ f | .mul _ f | .muls _ f | .mulh _ f | .div _ f
  | .rem _ f | .pdiv _ f | .ld _ f | .st _ f | .lds _ f | .sts _ f | .lim _ f => f.fits true true true (f.m == 0)
  | .neg _ f | .negs _ f | .abs _ f | .abss _ f | .cls _ f | .popc _ f => f.fits true true false (f.m == 0)
  | .sel _ f => f.fits true true true true
  | .ext _ f => f.fits true true true (f.m.toNat < 2)
  | .cvt _ f => f.fits true true false (f.m.toNat % 8 < 5)
  | .ldi _ f | .shi _ f | .addi _ f => f.delta != 0
  | .cmp _ f => f.fits true true true (f.m.toNat < 12 && f.d.toNat < 8)
  | .plog _ f => f.fits true true true (f.m.toNat < 4 && f.d.toNat < 8 && f.a.toNat < 16 && f.b.toNat < 16)
  | .rdf _ f => f.fits true false false (f.m == 0)
  | .clrf _ f => f.fits false false false (f.m.toNat < 8)
  | .pmov _ f => f.fits true true false (f.m.toNat < 2)
  | .pmul _ f | .tmul _ f | .srr _ f => f.fits true true true (f.m.toNat % 8 == 0)
  | .mac _ f => f.fits false true true (f.m.toNat < 8)
  | .acx _ f => f.fits true false false (!f.m.getLsbD 2)
  | .acm _ f => f.fits true true false (f.m.toNat / 2 % 4 != 3)
  | .sincos _ f => f.fits true true true (cordOk f 0 && rangeOk f.d 2)
  | .vrot _ f => f.fits true true true (cordOk f 1 && rangeOk f.d 2 && rangeOk f.a 2)
  | .atan2 _ f => f.fits true true true (cordOk f 2)
  | .mag _ f => f.fits true true true (cordOk f 3)
  | .sqrt _ f => f.fits true true true (cordOk f 4)
  | .ldl _ f | .stl _ f => f.delta != 0 && f.imm.toNat < 8192
  | .evs _ f => f.fits false true true (f.m == 0)
  | .tmark _ f => f.fits false true false true
  | .jmp e f => 1024 ≤ e.val && f.fits true true true (f.m == 0)
  | .call e f => 1024 ≤ e.val && f.fits true true true (f.m == 1)
  | .eret e f => 1024 ≤ e.val && f.fits true true true (f.m == 2)
  | .trap e f => 1024 ≤ e.val && f.fits true true true (f.m == 3)
  | .mfsr e f => 1024 ≤ e.val && f.fits true true true (f.m == 4)
  | .mtsr e f => 1024 ≤ e.val && f.fits true true true (f.m == 5)
  | .tlbi e f => 1024 ≤ e.val && f.fits true true true (f.m == 6)
  | .fence e f => 1024 ≤ e.val && f.fits true true true (f.m == 7)
  | .cas e f => 1024 ≤ e.val && f.fits true true true (f.m == 8)
  | .idle e f => 1024 ≤ e.val && f.fits true true true (f.m == 9)
  | .beat e f => 1024 ≤ e.val && f.fits true true true (f.m == 10)
  | .swc e f => 1024 ≤ e.val && f.fits true true true (f.m == 11)
  | .swr e f => 1024 ≤ e.val && f.fits true true true (f.m == 12)
  | _ => true

end Sys2Proof
end

