-- ==== Sys2Proof/Decode.lean ====
section
/-! DEFINITION. The reading of a plan word (R66, R74, R94, R116) and the host's hook on the table's bits. -/

namespace Sys2Proof

/-- R66: bits [hi:lo] of a word, as a number. -/
def Word.field (w : Word) (hi lo : Nat) : Nat := w.toNat / 2 ^ lo % 2 ^ (hi + 1 - lo)

/-- R66, register form. -/
def regFormOf (w : Word) : RegForm where
  delta := BitVec.ofNat 4 (Word.field w 35 32)
  neg := Word.field w 25 25 == 1
  pred := BitVec.ofNat 3 (Word.field w 24 22)
  d := BitVec.ofNat 6 (Word.field w 21 16)
  a := BitVec.ofNat 6 (Word.field w 15 10)
  b := BitVec.ofNat 6 (Word.field w 9 4)
  m := BitVec.ofNat 4 (Word.field w 3 0)

/-- R66, immediate form. -/
def immFormOf (w : Word) : ImmForm where
  delta := BitVec.ofNat 4 (Word.field w 35 32)
  neg := Word.field w 25 25 == 1
  pred := BitVec.ofNat 3 (Word.field w 24 22)
  d := BitVec.ofNat 6 (Word.field w 21 16)
  imm := BitVec.ofNat 16 (Word.field w 15 0)

/-- R94: CORD's function by modifier bits [2:0]; 5 to 7 are reserved. -/
def decodeCord (e : Fin 1028) (f : RegForm) : Option Instr :=
  match f.m.toNat % 8 with
  | 0 => some (.sincos e f)
  | 1 => some (.vrot e f)
  | 2 => some (.atan2 e f)
  | 3 => some (.mag e f)
  | 4 => some (.sqrt e f)
  | _ => none

/-- R116: SYS's function by modifier; 13 to 15 are reserved. -/
def decodeSys (e : Fin 1028) (f : RegForm) : Option Instr :=
  match f.m.toNat with
  | 0 => some (.jmp e f)
  | 1 => some (.call e f)
  | 2 => some (.eret e f)
  | 3 => some (.trap e f)
  | 4 => some (.mfsr e f)
  | 5 => some (.mtsr e f)
  | 6 => some (.tlbi e f)
  | 7 => some (.fence e f)
  | 8 => some (.cas e f)
  | 9 => some (.idle e f)
  | 10 => some (.beat e f)
  | 11 => some (.swc e f)
  | 12 => some (.swr e f)
  | _ => none

/-- R74: the instruction a word holds, released by engine `e`; none for a modifier that names no function. -/
def decodeWord (e : Fin 1028) (w : Word) : Option Instr :=
  match Word.field w 31 26 with
  | 0 => some (.nop e (regFormOf w))
  | 1 => some (.waitt e (regFormOf w))
  | 2 => some (.waitev e (regFormOf w))
  | 3 => some (.loop e (immFormOf w))
  | 4 => some (.lock e (regFormOf w))
  | 5 => some (.unlock e (regFormOf w))
  | 6 => some (.done e (regFormOf w))
  | 7 => some (.tstamp e (regFormOf w))
  | 8 => some (.add e (regFormOf w))
  | 9 => some (.adds e (regFormOf w))
  | 10 => some (.sub e (regFormOf w))
  | 11 => some (.subs e (regFormOf w))
  | 12 => some (.and e (regFormOf w))
  | 13 => some (.or e (regFormOf w))
  | 14 => some (.xor e (regFormOf w))
  | 15 => some (.andn e (regFormOf w))
  | 16 => some (.neg e (regFormOf w))
  | 17 => some (.negs e (regFormOf w))
  | 18 => some (.abs e (regFormOf w))
  | 19 => some (.abss e (regFormOf w))
  | 20 => some (.min e (regFormOf w))
  | 21 => some (.max e (regFormOf w))
  | 22 => some (.sel e (regFormOf w))
  | 23 => some (.cls e (regFormOf w))
  | 24 => some (.shl e (regFormOf w))
  | 25 => some (.shls e (regFormOf w))
  | 26 => some (.shr e (regFormOf w))
  | 27 => some (.sar e (regFormOf w))
  | 28 => some (.rot e (regFormOf w))
  | 29 => some (.ext e (regFormOf w))
  | 30 => some (.ins e (regFormOf w))
  | 31 => some (.cvt e (regFormOf w))
  | 32 => some (.ldi e (immFormOf w))
  | 33 => some (.shi e (immFormOf w))
  | 34 => some (.addi e (immFormOf w))
  | 35 => some (.cmp e (regFormOf w))
  | 36 => some (.plog e (regFormOf w))
  | 37 => some (.rdf e (regFormOf w))
  | 38 => some (.clrf e (regFormOf w))
  | 39 => some (.pmov e (regFormOf w))
  | 40 => some (.mul e (regFormOf w))
  | 41 => some (.muls e (regFormOf w))
  | 42 => some (.mulh e (regFormOf w))
  | 43 => some (.pmul e (regFormOf w))
  | 44 => some (.tmul e (regFormOf w))
  | 45 => some (.mac e (regFormOf w))
  | 46 => some (.acx e (regFormOf w))
  | 47 => some (.acm e (regFormOf w))
  | 48 => some (.div e (regFormOf w))
  | 49 => some (.rem e (regFormOf w))
  | 50 => some (.pdiv e (regFormOf w))
  | 51 => decodeCord e (regFormOf w)
  | 52 => some (.ld e (regFormOf w))
  | 53 => some (.st e (regFormOf w))
  | 54 => some (.lds e (regFormOf w))
  | 55 => some (.sts e (regFormOf w))
  | 56 => some (.ldl e (immFormOf w))
  | 57 => some (.stl e (immFormOf w))
  | 58 => some (.evs e (regFormOf w))
  | 59 => some (.popc e (regFormOf w))
  | 60 => some (.tmark e (regFormOf w))
  | 61 => some (.lim e (regFormOf w))
  | 62 => some (.srr e (regFormOf w))
  | 63 => decodeSys e (regFormOf w)
  | _ => none

/-- R69, R118: a word a plant plan may hold: opcode 0x3F, a reserved encoding and a register range beyond w63 are refused. -/
def planWordOk (w : Word) : Bool :=
  Word.field w 31 26 != 63 && (match decodeWord 0 w with
    | some i => wellFormed i
    | none => false)

/-- The table gives no row any bits (each row's fields are empty), so no word spells a command. -/
def decodeTableWord (_nbits _w : Nat) : Option Instr := none

end Sys2Proof
end

