-- ==== Sys2Proof/Machine/Crc.lean ====
section
/-! DEFINITION. The CRC-32 of R249 and the pair-packing of R61. -/

namespace Sys2Proof.Machine

/-- R249: one input bit. -/
def crcBit (r : Nat) (b : Bool) : Nat :=
  let f := b != (r / 2 ^ 31 % 2 == 1)
  let r' := r * 2 % 2 ^ 32
  if f then r' ^^^ 0x04C11DB7 else r'

/-- R249: the low `n` bits of `v`, most significant first. -/
def crcBits (v : Nat) : Nat → Nat → Nat
  | 0, r => r
  | n + 1, r => crcBits v n (crcBit r (v / 2 ^ n % 2 == 1))

/-- R249, R61: the words in order, 36 bits each, most significant first. Pair-packed octets carry exactly these bits. -/
def crcWords : List Word → Nat → Nat
  | [], r => r
  | w :: t, r => crcWords t (crcBits w.toNat 36 r)

/-- R62: an odd sequence is padded with a zero word. -/
def padPairs (ws : List Word) : List Word := if ws.length % 2 = 1 then ws ++ [0] else ws

/-- R249: the check value of words sent pair-packed, as a word. -/
def crcOf (ws : List Word) : Word := BitVec.ofNat 36 (crcWords (padPairs ws) (2 ^ 32 - 1))

end Sys2Proof.Machine
end

