-- ==== Sys2Proof/Config.lean ====
section
/-! DEFINITION. What an implementation fixes and the free values: constants without a body, so that no proof can see what
they are. A free value is one of these functions applied to the state's plain counter `fresh`, or to the operands it
depends on. -/

namespace Sys2Proof

/-- R3: whether the part is a CM-936-X (true) or a CM-936-S. -/
opaque Config.variantX : Bool
/-- MID_SERIAL: the factory's serial number, words 0 to 3. -/
opaque Config.serial : Nat → Word
/-- R156: the factory-calibrated entry latency of an engine at the corner, in 1/64 ns. -/
opaque Config.entryLatency : Nat → Nat
/-- TIM_PPSDLY (R331): the factory delay of the PPS input. -/
opaque Config.ppsDelay : Word
/-- R312: the factory-calibrated receive latency of a PTP port, N1 as 0, in 1/64 ns. -/
opaque Config.ptpLatency : Nat → Int
/-- R312: the factory-calibrated transmit latency of a PTP port. -/
opaque Config.ptpTxLatency : Nat → Int
/-- LIO_CHk_EDLY (R463): the factory edge delay of channel Lk. -/
opaque Config.edgeDelay : Nat → Word
/-- UPD_FLOOR (R488): the two rollback floors in the fuses as the part was delivered. -/
opaque Config.fuseFloor : Word
/-- MID_LOGSEQ: the count of log entries written since manufacture. -/
opaque Config.logSeq : Nat
/-- R330, R287: the delay from a port's drive to its contacts, in 1/64 ns. -/
opaque Config.driverDelay : Nat → Nat
/-- R116: the firmware's exception handler address. -/
opaque Config.excHandler : Word
/-- R116: the fixed entry point of the secure world. -/
opaque Config.secureEntry : Word
/-- R571: entries of the event log beyond the 1,000,000 the spec guarantees. -/
opaque Config.logExtra : Nat
/-- A free word: the value of a result the spec leaves open or random. -/
opaque Config.freeWord : Nat → Word
/-- A free 64-bit value (the challenge of R513). -/
opaque Config.freeChallenge : Nat → BitVec 64
/-- A free natural number, taken modulo the bound the spec gives (the entry instant of R129, the estimate of R110). -/
opaque Config.freeNat : Nat → Nat
/-- The value an unlisted system register of the supervisor reads as (R503 lists five). -/
opaque Config.sysReg : Nat → Nat → Word
/-- The key material a vault slot receives (R506): a fingerprint only. -/
opaque Config.vaultKey : Nat → Nat
/-- R506: the fingerprint of the device identity of slot 0. -/
opaque Config.deviceId : Nat
/-- R565: the PKCS #10 request for a device key pair. -/
opaque Config.keyRequest : Nat → List Word
/-- R565: the answer that lists the vault, from slot, KEYID and fingerprint of each slot occupied; the spec gives it no layout. -/
opaque Config.vaultList : List (Nat × Nat × Nat) → List Word
/-- R578: a loop-stack entry as a word, from its start, length, remaining count and index register; no layout is given. -/
opaque Config.loopWord : Nat → Nat → Nat → Nat → Word
/-- MID_STATE.SLOT (R21): the slot of the carrier the module sits in, false for slot A. -/
opaque Config.slotB : Bool

/-- R459: word j of faceplate line n, 0 to 3, for the data the line shows; the spec fixes the data and no wording. -/
opaque Config.faceText : Nat → List Nat → Nat → Word
/-- R462: the same for lines 1 to 3 of the Sundown page, below the word SUNDOWN. -/
opaque Config.sundownText : Nat → List Nat → Nat → Word

/-- R476, R527: the same for lines 1 to 3 of the pages NO FIRMWARE (0) and NO SLOT (1), below these words, for the cause shown. -/
opaque Config.bootText : Nat → Nat → Nat → Nat → Word
/-- R322: the TAI − UTC offset a configuration image gives; the spec names no place for it. -/
opaque Config.imageUtc : List Word → Nat

/-! The phasor section of the configuration image (type 0x07 of R472) and the plan's result records have no format in the spec: what
they say is read by these functions. -/

/-- R356, R362 to R370: what the words of a phasor section say. -/
opaque Config.phasorSection : List Word → PhasorSection
/-- R358 to R360, R363, R366: the plan's results for the blocks of an output stream at second and index of a reporting instant, read
from memory; none while one is not yet written. -/
opaque Config.c37Results : List Word → Nat → List (Nat × Word) → Nat → Nat → Option (List BlockRes)
/-- R360: the phasor configurations with a result that the plan has written as invalid in the records of a memory, at an instant. -/
opaque Config.invalidResults : List Word → List (Nat × Word) → Nat → Nat → List Nat
/-- R363: what a header frame (command 3), CFG-2 (5) or CFG-3 (6) of a stream holds beside the fields the spec names. -/
opaque Config.c37Text : List Word → Nat → Nat → List Word
/-- R364: the payload of the quiet NaN that stands for an invalid float value. -/
opaque Config.quietNan : BitVec 22
/-- R367: the words of a record of a remote stream's ring, from its values and whether they are marked invalid. -/
opaque Config.remoteRecord : List Word → Nat → Bool → List Word → List Word
/-- R369: whether the plan asks for a location on a line at a reporting instant. -/
opaque Config.flocAsked : List Word → Nat → List (Nat × Word) → Nat → Nat → Bool

/-! The station maps (type 0x06 of R472) and the network and access settings (0x08) have no format in the spec either. -/

/-- R286, R297: the word pairs of each frame that port p starts in Dusk, by the station maps. -/
opaque Config.duskFrames : List Word → Nat → List Nat
/-- R495: the region entries that the access settings write: entry, word and content. -/
opaque Config.accessRegions : List Word → List (Nat × Nat × Word)
/-- R510: the access entries: a certificate fingerprint and the role set it grants. -/
opaque Config.accessRoles : List Word → List (Nat × List Role)
/-- R551: the settings of the network of N1 and N2 (0) and of N3 and N4 (1), and the host service's TCP port. -/
opaque Config.network : List Word → Nat → NetAddr
opaque Config.hostPort : List Word → Nat
/-- R495: what supervisor firmware writes into region entries 0 to 31, its LOCK bit apart. -/
opaque Config.fwRegion : Nat → Nat → Word

end Sys2Proof
end

