-- ==== Sys2Proof/Machine/Regs.lean ====
section
/-! DEFINITION. The register index of R583 with the access codes of R9 and the reset values of each register's own table:
which word addresses a block defines, and which of their bits are RW, W1C, RC, WO or RO. -/

namespace Sys2Proof.Machine

/-- A register, or an array of them at `base + i * stride + j * stride2` for `i < count` and `j < count2`, and the masks of
its fields by access code. A bit in no mask is reserved. -/
structure RegDesc where
  base : Nat
  count : Nat := 1
  stride : Nat := 1
  count2 : Nat := 1
  stride2 : Nat := 1
  rw : Nat := 0
  w1c : Nat := 0
  rc : Nat := 0
  wo : Nat := 0
  ro : Nat := 0
  reset : Nat := 0
deriving DecidableEq, Repr

/-- The mask of bits [hi:lo]. -/
def bits (hi lo : Nat) : Nat := 2 ^ (hi + 1) - 2 ^ lo

/-- Whether the descriptor covers word address `a`. -/
def RegDesc.covers (d : RegDesc) (a : Nat) : Bool :=
  d.base ≤ a && (a - d.base) / d.stride < d.count && (a - d.base) % d.stride / d.stride2 < d.count2
    && (a - d.base) % d.stride % d.stride2 == 0

/-- Every bit of a word. -/
def allBits : Nat := bits 35 0

/-- MID, offsets of R583. -/
def descMid : List RegDesc := [
  { base := 0x04000000, ro := allBits }, { base := 0x04000001, count := 4, ro := allBits },
  { base := 0x04000010, ro := allBits }, { base := 0x04000011, ro := bits 11 0 },
  { base := 0x04000020, rc := bits 17 0 }, { base := 0x04000021, ro := allBits }]

/-- FAB. -/
def descFab : List RegDesc := [
  { base := 0x04010000, rc := bits 15 8, w1c := bits 7 0 }, { base := 0x04010008, ro := allBits },
  { base := 0x04010009, count := 2, ro := bits 27 0 }, { base := 0x04010010, rw := bits 15 0, reset := 2 * 256 + 4 },
  { base := 0x04010011, rw := bits 23 0, reset := 1000 * 4096 + 960 }, { base := 0x04010012, rw := 1 },
  { base := 0x04010018, ro := bits 17 0, reset := 255 }, { base := 0x04010020, count := 4, ro := allBits },
  { base := 0x04010030, rc := allBits }, { base := 0x04010100, count := 64, ro := bits 20 0 },
  { base := 0x04010200, count := 1024, ro := bits 11 0, reset := 255 }]

/-- DAY. -/
def descDay : List RegDesc := [
  { base := 0x04020000, rc := bits 15 8, ro := bits 7 6, w1c := bits 5 1 }, { base := 0x04020001, count := 4, ro := allBits },
  { base := 0x04020011, count := 5, ro := bits 27 0 }, { base := 0x04020020, count := 8, ro := bits 23 0 },
  { base := 0x04020030, ro := bits 11 0 }, { base := 0x04020031, ro := allBits }, { base := 0x04020040, ro := allBits },
  { base := 0x04020048, ro := bits 17 0 }]

/-- CMP. -/
def descCmp : List RegDesc := [
  { base := 0x04030000, rc := bits 15 8, w1c := bits 3 0 }, { base := 0x04030008, count := 3, ro := allBits },
  { base := 0x04030010, ro := bits 19 4, w1c := bits 3 0 }, { base := 0x04030011, rc := allBits },
  { base := 0x04030100, count := 512, rc := bits 13 8, ro := bits 7 5 + bits 3 0 }]

/-- A register of the 256 port blocks of R583, at offset `off`, `n` of them in a row. -/
def descPort (off n rw w1c rc wo ro reset : Nat) : RegDesc :=
  { base := 0x04040000 + off, count := 256, stride := 0x100, count2 := n, rw := rw, w1c := w1c, rc := rc, wo := wo,
    ro := ro, reset := reset }

/-- ZP. -/
def descZp : List RegDesc := [
  descPort 0x00 1 (bits 7 5 + 9) 0 0 4 (16 + 2) 0x32, descPort 0x01 2 allBits 0 0 0 0 0,
  descPort 0x03 1 (bits 17 8) 0 0 0 (bits 26 18) 0, descPort 0x04 1 0 0 0 0 (bits 19 18 + bits 16 0) 0,
  descPort 0x05 1 0 (bits 10 0) 0 0 (bits 15 11) 0, descPort 0x10 1 (bits 31 0) 0 0 0 0 0,
  descPort 0x11 1 (bits 8 0) 0 0 0 0 0, descPort 0x12 1 (bits 7 0) 0 0 0 (bits 15 8) 0,
  descPort 0x13 1 0 0 0 (bits 8 0) (bits 17 16) 0, descPort 0x14 1 (bits 31 0) 0 0 0 0 0,
  descPort 0x15 1 (bits 18 0) 0 0 0 0 0, descPort 0x16 1 0 0 0 0 (bits 16 0) 0, descPort 0x17 1 0 0 0 (bits 8 0) 0 0,
  descPort 0x20 12 0 0 allBits 0 0 0, descPort 0x30 1 (2 ^ 35 + bits 27 0) 0 0 0 0 0, descPort 0x31 1 0 0 0 0 allBits 0,
  descPort 0x32 1 (2 ^ 35 + bits 27 0) 0 0 0 (bits 32 28) 0, descPort 0x40 32 (2 ^ 35 + bits 27 0) 0 0 0 0 0,
  descPort 0x60 32 (bits 35 16) 0 0 512 (bits 15 10 + 256) 0, descPort 0x80 32 0 0 0 0 allBits 0]

/-- TIM. -/
def descTim : List RegDesc := [
  { base := 0x04050000, ro := allBits, reset := 0xFFF * 2 ^ 24 }, { base := 0x04050001, w1c := bits 9 0 },
  { base := 0x04050002, count := 3, ro := allBits },
  { base := 0x04050008, rw := bits 35 17 + bits 11 0, reset := 60 * 2 ^ 26 + 60 * 2 ^ 18 + 0x29C },
  { base := 0x04050009, rw := allBits, reset := 250 * 2 ^ 24 + 10 * 2 ^ 12 + 1000 },
  { base := 0x04050010, count := 2, stride := 8, rw := bits 35 34 + bits 7 0 },
  { base := 0x04050011, count := 2, stride := 8, ro := 2 ^ 35 + bits 33 16, w1c := 2 ^ 34, rc := bits 15 0,
    reset := 0xFF * 2 ^ 24 + 0xFE * 2 ^ 16 },
  { base := 0x04050012, count := 2, stride := 8, count2 := 5, ro := allBits },
  { base := 0x04050020, ro := bits 35 34, rc := bits 23 0 }, { base := 0x04050021, count := 2, ro := allBits },
  { base := 0x04050023, rw := bits 10 0, reset := 100 }, { base := 0x04050024, ro := allBits },
  { base := 0x04050030, ro := bits 20 0 }, { base := 0x04050031, ro := allBits }, { base := 0x04050032, ro := bits 11 0 },
  { base := 0x04050038, rw := allBits }, { base := 0x04050039, ro := bits 25 0, reset := 0x800000 }]

/-- A register of the 2,048 channel contexts of SIG, at offset `j`, `n` of them in a row. -/
def descChan (j n rw wo ro rc : Nat) : RegDesc :=
  { base := 0x04068000 + j, count := 2048, stride := 16, count2 := n, rw := rw, wo := wo, ro := ro, rc := rc }

/-- SIG: the tables of R344 (33 words each) and the coefficient sets of R343 (384 words each) are RW words. Words 33 to 63 of a table,
which R344 calls reserved, are offsets the block does not define: refused, with poison and RULE 3 (DESIGN CHOICE, log entry 121). -/
def descSig : List RegDesc := [
  { base := 0x04060000, w1c := bits 8 0 }, { base := 0x04060010, rw := bits 31 0 }, { base := 0x04060011, rw := bits 8 0 },
  { base := 0x04060012, rw := bits 7 0, ro := bits 15 8 }, { base := 0x04060020, w1c := bits 3 2, rw := bits 1 0 },
  { base := 0x04060021, rw := allBits }, { base := 0x04060100, count := 32, ro := bits 14 0 },
  { base := 0x04061000, count := 64, stride := 0x40, count2 := 33, rw := allBits },
  { base := 0x04062000, count := 32, stride := 0x180, count2 := 384, rw := allBits },
  descChan 0 1 (bits 33 32) 3 (bits 35 34) 0, descChan 1 1 (bits 35 23 + bits 13 0) 0 0 0,
  descChan 2 1 (bits 28 6 + bits 4 0) 0 0 0, descChan 3 1 (bits 9 0) 0 0 0, descChan 4 6 allBits 0 0 0,
  descChan 10 1 allBits 0 0 0, descChan 11 1 0 0 (bits 19 0) 0, descChan 12 1 0 0 0 allBits]

/-- PAIR. -/
def descPair : List RegDesc := [
  { base := 0x04070000, w1c := bits 14 0 }, { base := 0x04070001, count := 2, ro := allBits },
  { base := 0x04070008, ro := allBits }, { base := 0x04070009, ro := bits 8 0 }, { base := 0x0407000A, ro := bits 23 0 },
  { base := 0x04070010, ro := allBits }, { base := 0x04070011, ro := bits 11 0 }, { base := 0x04070018, rw := bits 1 0 }]

/-- SAF. -/
def descSaf : List RegDesc := [
  { base := 0x04080000, w1c := bits 9 0 }, { base := 0x04080010, ro := bits 23 0 },
  { base := 0x04080020, wo := 2 ^ 35 + bits 5 0, ro := bits 7 6 }, { base := 0x04080100, count := 64, rw := bits 1 0 },
  { base := 0x04080140, count := 64, ro := allBits }, { base := 0x04080180, count := 64, wo := allBits },
  { base := 0x04080400, count := 128, stride := 8, count2 := 6, rw := allBits },
  { base := 0x04080800, count := 128, stride := 8, count2 := 6, ro := allBits }]

/-- LIO. -/
def descLio : List RegDesc := [
  { base := 0x04090000, w1c := bits 8 0 }, { base := 0x04090001, ro := bits 10 0 },
  { base := 0x04090002, rw := bits 15 0, reset := 0x5555 }, { base := 0x04090011, count := 24, rw := bits 35 10 },
  { base := 0x04090031, count := 24, rw := bits 9 0 }, { base := 0x04090051, count := 24, ro := bits 11 0 },
  { base := 0x04090071, count := 24, ro := allBits }, { base := 0x04090091, count := 8, ro := allBits },
  { base := 0x040900A1, count := 8, ro := bits 2 0, reset := 6 }]

/-- R459: the bits of a line word, four characters of a code and the inverse mark; bit [8] of each field is zero. -/
def fpdChars : Nat := bits 34 27 + bits 25 18 + bits 16 9 + bits 7 0

/-- FPD. -/
def descFpd : List RegDesc := [
  { base := 0x040A0000, ro := bits 20 12 + 8 + 3, w1c := 4 }, { base := 0x040A0001, ro := allBits },
  { base := 0x040A0100, count := 32, ro := allBits, reset := 0x100804020 },
  { base := 0x040A0120, count := 64, rw := fpdChars, reset := 0x100804020 }]

/-- UPD. -/
def descUpd : List RegDesc := [
  { base := 0x040B0000, w1c := bits 6 2, ro := 3 }, { base := 0x040B0001, ro := bits 35 1, rw := 1 },
  { base := 0x040B0010, count := 2, ro := bits 19 0 }, { base := 0x040B0020, ro := bits 15 0 },
  { base := 0x040B0030, ro := bits 17 0 }, { base := 0x040B0031, ro := bits 17 0 },
  { base := 0x040B0040, count := 4, ro := allBits }, { base := 0x040B0044, ro := bits 31 0 },
  { base := 0x040B0045, ro := bits 7 0 }]

/-- GATE. -/
def descGate : List RegDesc := [
  { base := 0x040C0000, rc := bits 15 8, w1c := bits 2 0 }, { base := 0x040C0008, ro := allBits },
  { base := 0x040C0009, ro := bits 31 0 }, { base := 0x040C000A, ro := bits 27 0 }, { base := 0x040C0010, rc := allBits },
  { base := 0x040C1000, count := 256, stride := 4, count2 := 2, rw := bits 31 0 },
  { base := 0x040C1002, count := 256, stride := 4, rw := bits 35 30 + bits 21 0 }]

/-- SEC; the vault interface is the firmware's alone, and the spec gives its words no content. -/
def descSec : List RegDesc := [
  { base := 0x040D0000, ro := 32, w1c := bits 4 0 }, { base := 0x040D0001, ro := bits 11 0 },
  { base := 0x040D0002, ro := allBits }, { base := 0x040D0003, ro := 3 }, { base := 0x040D0100, count := 256, ro := allBits }]

/-- NET, PWR, DBG and NWT. PWR_FEEDk stands at 0x0000 + k. -/
def descRest : List RegDesc := [
  { base := 0x040E0011, count := 4, ro := bits 1 0 }, { base := 0x040E0021, count := 4, rc := allBits },
  { base := 0x040F0000, w1c := bits 8 0 }, { base := 0x040F0001, count := 2, ro := bits 35 34 + bits 31 0 },
  { base := 0x040F0003, ro := bits 29 16 + bits 9 0 }, { base := 0x040F0004, ro := bits 23 0 },
  { base := 0x040F0005, ro := bits 17 0 }, { base := 0x040F0008, ro := 7 }, { base := 0x040F0009, count := 4, ro := allBits },
  { base := 0x04100010, rw := bits 35 32 }, { base := 0x04100011, count := 2, rw := bits 31 0 },
  { base := 0x04100013, rc := bits 35 20, ro := 2 ^ 19 + bits 14 0 }, { base := 0x04100018, ro := allBits },
  { base := 0x04110000, ro := allBits }, { base := 0x04110001, ro := bits 23 0 }, { base := 0x04110002, count := 3, ro := allBits }]

/-- R583: the registers of the block a word address lies in (R35). -/
def blockDescs (a : Nat) : List RegDesc :=
  match a / 0x10000 - 0x400 with
  | 0 => descMid
  | 1 => descFab
  | 2 => descDay
  | 3 => descCmp
  | 4 => descZp
  | 5 => descTim
  | 6 => descSig
  | 7 => descPair
  | 8 => descSaf
  | 9 => descLio
  | 10 => descFpd
  | 11 => descUpd
  | 12 => descGate
  | 13 => descSec
  | _ => descRest

/-- R11, R583: the register at a word address; none for an offset its block does not define. -/
def regDesc (a : Nat) : Option RegDesc := (blockDescs a).find? (·.covers a)

/-- What a register field that nothing has written reads as: the Reset column, or the factory's value. -/
def regReset (a : Nat) : Word :=
  if a = 0x04050022 then Config.ppsDelay
  else if a = 0x040B0020 then Config.fuseFloor
  else if a = 0x04000021 then BitVec.ofNat 36 Config.logSeq
  else if 0x04090071 ≤ a ∧ a ≤ 0x04090088 then Config.edgeDelay (a - 0x04090070)
  else match regDesc a with
    | some d => BitVec.ofNat 36 d.reset
    | none => 0

/-! Names of the registers the meanings use. -/

def midState : Nat := 0x04000010
def midLastF : Nat := 0x04000011
def midLog : Nat := 0x04000020
def midLogSeq : Nat := 0x04000021
def fabStatus : Nat := 0x04010000
def fabLateSch : Nat := 0x04010009
def fabLateAct : Nat := 0x0401000A
def fabSlkTh : Nat := 0x04010010
def fabSpdTh : Nat := 0x04010011
def fabCtrl : Nat := 0x04010012
def fabMinSlack : Nat := 0x04010018
def fabPlan : Nat := 0x04010020
def fabMemErr : Nat := 0x04010030
def fabSpeed (c : Nat) : Nat := 0x04010100 + c
def fabSlack (e : Nat) : Nat := 0x04010200 + e
def dayStatus : Nat := 0x04020000
def dayChg : Nat := 0x04020030
def dayChgDay : Nat := 0x04020031
def dayAlign : Nat := 0x04020048
def cmpStatus : Nat := 0x04030000
def cmpLead : Nat := 0x04030009
def cmpTrail : Nat := 0x0403000A
def cmpTsStat : Nat := 0x04030010
def cmpTsCnt : Nat := 0x04030011
def cmpPair (k : Nat) : Nat := 0x04030100 + k
def zp (p off : Nat) : Nat := 0x04040000 + p * 0x100 + off
def timState : Nat := 0x04050000
def timStatus : Nat := 0x04050001
def timCfg : Nat := 0x04050008
def timLim : Nat := 0x04050009
def timDom (k off : Nat) : Nat := 0x04050010 + 8 * k + off
def timPpsSt : Nat := 0x04050020
def timPpsOfs : Nat := 0x04050021
def timPpsDly : Nat := 0x04050022
def timPpsO : Nat := 0x04050023
def timIrigOfs : Nat := 0x04050024
def timUtc : Nat := 0x04050030
def timLeapL : Nat := 0x04050031
def timLeapH : Nat := 0x04050032
def timRate : Nat := 0x04050038
def timOsc : Nat := 0x04050039
def sigStatus : Nat := 0x04060000
def sigFeedBase : Nat := 0x04060010
def sigFeedCfg : Nat := 0x04060011
def sigFeedPtr : Nat := 0x04060012
def sigSync : Nat := 0x04060020
def sigSyncDay : Nat := 0x04060021
def sigLoad (p : Nat) : Nat := 0x04060100 + p
def sigTable (t : Nat) : Nat := 0x04061000 + t * 0x40
def sigCoef (t : Nat) : Nat := 0x04062000 + t * 0x180
def sigCh (c j : Nat) : Nat := 0x04068000 + 16 * c + j
def pairStatus : Nat := 0x04070000
def pairCk : Nat := 0x04070008
def pairCkSt : Nat := 0x04070009
def pairCkLen : Nat := 0x0407000A
def pairSwDay : Nat := 0x04070010
def pairSwSt : Nat := 0x04070011
def pairCfg : Nat := 0x04070018
def safStatus : Nat := 0x04080000
def safInst : Nat := 0x04080010
def safUnlock : Nat := 0x04080020
def safCmd (d : Nat) : Nat := 0x04080100 + d
def safState (d : Nat) : Nat := 0x04080140 + d
def safRx (c j : Nat) : Nat := 0x04080400 + 8 * c + j
def safTx (c j : Nat) : Nat := 0x04080800 + 8 * c + j
def lioStatus : Nat := 0x04090000
def lioTsup : Nat := 0x04090001
def lioAiCfg : Nat := 0x04090002
def lioCfg (k : Nat) : Nat := 0x04090010 + k
def lioOut (k : Nat) : Nat := 0x04090030 + k
def lioIn (k : Nat) : Nat := 0x04090050 + k
def lioEdly (k : Nat) : Nat := 0x04090070 + k
def lioAi (k : Nat) : Nat := 0x04090090 + k
def lioAiSt (k : Nat) : Nat := 0x040900A0 + k
def fpdStatus : Nat := 0x040A0000
def fpdPasses : Nat := 0x040A0001
def fpdLine (n j : Nat) : Nat := 0x040A0100 + 8 * n + j
def updStatus : Nat := 0x040B0000
def updBoot : Nat := 0x040B0001
def updFloor : Nat := 0x040B0020
def updSess : Nat := 0x040B0030
def updSessCnt : Nat := 0x040B0031
def updCfgId : Nat := 0x040B0040
def updFwVer : Nat := 0x040B0044
def updPairVer : Nat := 0x040B0045
def gateStatus : Nat := 0x040C0000
def gateViolAddr : Nat := 0x040C0009
def gateViolTick : Nat := 0x040C000A
def gateCnt : Nat := 0x040C0010
def gateR (n j : Nat) : Nat := 0x040C1000 + 4 * n + j
def secStatus : Nat := 0x040D0000
def secRngSt : Nat := 0x040D0001
def secDbg : Nat := 0x040D0003
def netPort (k : Nat) : Nat := 0x040E0010 + k
def netDrop (k : Nat) : Nat := 0x040E0020 + k
def pwrStatus : Nat := 0x040F0000
def pwrFeed (k : Nat) : Nat := 0x040F0000 + k
def pwrStore : Nat := 0x040F0003
def pwrLoad : Nat := 0x040F0004
def pwrTherm : Nat := 0x040F0005
def pwrCarrier : Nat := 0x040F0008
def pwrCarId : Nat := 0x040F0009
def dbgTrCtl : Nat := 0x04100010
def dbgTrMask0 : Nat := 0x04100011
def dbgTrMask1 : Nat := 0x04100012
def dbgTrStat : Nat := 0x04100013
def nwtStatus : Nat := 0x04110000
def nwtApplied : Nat := 0x04110001
def nwtTripT : Nat := 0x04110002

end Sys2Proof.Machine
end

