-- ==== Sys2Proof/Machine/State.lean ====
section
/-! DEFINITION. Everything the spec gives the module to hold, as plain data, the machine right after reset, and the reasons
a step can stop. Register fields live in `regs`, keyed by their word address, in the layout each block's own table gives
them; what a register table does not show lives in the structures below. -/

namespace Sys2Proof.Machine

/-- Why the machine stops with a fault. -/
inductive Fault where
  /-- A feed is taken beyond the withstand of R533, where the spec says the module may be damaged. Raised by
  FEED_OVERVOLTAGE and FEED_REVERSE on such a voltage. Safe: the hardware may go on or be destroyed. -/
  | feedBeyondWithstand (feed : Nat)
  /-- A supervisor engine meets an encoding that R69 calls reserved; R119 gives fault 0x181 to plant engines only and the
  spec gives the supervisor no effect. Raised by every engine instruction of engines 1024-1027. Safe. -/
  | reservedOnSupervisor (engine : Nat)
deriving DecidableEq, Repr

/-- Why the model gives a command no meaning. -/
inductive Refusal where
  /-- The command has no meaning yet. Raised by its arm of the dispatch alone. Safe. -/
  | notModelled (mnemonic : String)
deriving DecidableEq, Repr

/-- R18: the module states. -/
inductive MState where
  | daybreak | standby | active | bench | stopped
deriving DecidableEq, Repr

/-- What leaves the module. The model's own record of it, oldest first. -/
inductive Out where
  | response (sess : Nat) (tag : BitVec 20) (code status : Nat) (words : List Word)
  | notice (sess code : Nat) (tag : BitVec 20) (status : Nat) (words : List Word)
  | pairFrame (lane : Nat) (f : PairFrame)
  | names (c : Named)                        -- R196: what a checkpoint's END names beside its three words
  | segFrame (port : Nat) (f : TxFrame)
  | beacon (port : Nat) (words : List Word)
  | ptp (port kind : Nat)
  | pps (high : Nat)
  | c37 (stream kind port : Nat) (words : List Word)
  | icmp (port ident : Nat)
  | keyUpdate (sess : Nat)
  | faceplate (lines : List (Nat × Word))
  | read (a : Nat) (v : Word)
deriving DecidableEq, Repr

/-- One effect of a result that lands (R71 to R73, R90, R92). -/
inductive Effect where
  | reg (r : Nat) (v : Word)
  | pred (n : Nat) (v : Bool)
  | flag (f : Fin 3)                         -- 0 V, 1 S, 2 D
  | clear (m : Nat)                          -- CLRF's modifier
  | mac (ac : Bool) (zero neg : Bool) (prod : Int)
  | acm (ac : Bool) (part : Nat) (v : Word)
  | load (off d : Nat)
  | store (off : Nat) (v : Word)
deriving DecidableEq, Repr

/-- A result in flight: landing tick, release order, timing class (R158's code), plan word, effects, whether it is a shared
access (R133), whether its words are an asynchronous input the pair input buffer captures (R208), and the landing tick its
release gave it, which a late service puts off (R136). -/
structure Landing where
  land : Nat
  ord : Nat
  cls : Nat
  word : Nat
  effs : List Effect
  shared : Bool
  capture : Bool
  due : Nat
  entry : Bool := false    -- an entry sample of R129, whose slack is not measured
deriving DecidableEq, Repr

/-- R64: a loop-stack entry; `k` is the iteration index, `dead` says that the LOOP's condition was false (R104), and `ord` is the
LOOP's place in the release order (R72). -/
structure LoopEnt where
  start : Nat
  len : Nat
  left : Nat
  idx : Nat
  k : Nat
  dead : Bool
  ord : Nat
deriving DecidableEq, Repr

/-- R109: a queued event: its word, the tick it arrived and the clock at the start of that tick. -/
structure EvEntry where
  word : Word
  tick : Nat
  sec : Nat
  ns64 : Nat
deriving DecidableEq, Repr

/-- Where an engine stands between two releases. -/
inductive Rest where
  | idle                                              -- not loaded, or waiting for its first due midnight
  | run
  | waitT (target : Nat)
  | waitEv (any : Bool) (src deadline d m : Nat)
  | done
  | sleep                                             -- IDLE of a supervisor engine
deriving DecidableEq, Repr

/-- R64 and what the contract keeps of an engine (R126, R133, R158, R163, R110, R129, R580). Ticks are the model's own
running count `State.now`. -/
structure Engine where
  w : List (Nat × Word) := []
  ac0 : BitVec 80 := 0
  ac1 : BitVec 80 := 0
  p : BitVec 8 := 0
  fV : Bool := false
  fS : Bool := false
  fD : Bool := false
  setV : Nat := 0          -- one more than the landing tick of the last set of V
  setS : Nat := 0
  setD : Nat := 0
  pos : Nat := 0
  loops : List LoopEnt := []
  lockOpen : Bool := false
  lockCnt : Nat := 0
  evq : List EvEntry := []
  fly : List Landing := []
  ord : Nat := 0
  rest : Rest := .idle
  prev : Nat := 0          -- the tick the next release delta counts from
  role : Nat := 0
  split : Bool := false
  dly : Nat := 0
  rate : Nat := 0
  len : Nat := 0
  start : Nat := 0
  divFree : Nat := 0
  cordFree : Nat := 0
  port : List Nat := []    -- R133: the shared accesses in flight, by their place in the release order, oldest first
  portAt : List (Nat × Nat) := []   -- and those landed of late: place and landing tick
  lastRel : Nat := 0       -- one more than the tick of the last release
  base : Nat := 0          -- the midnight of the day its instructions belong to
  waitCnt : Nat := 0       -- queue-wait count of the entry the last WAITEV delivered
  entry : Option EvEntry := none   -- that entry, while the next instruction follows the wait directly
  discards : Nat := 0
  minSlack : Nat := 255
  minClass : Nat := 0
  ran : Bool := false
  halted : Bool := false
  haltReq : Bool := false
  stepN : Nat := 0
  waitWord : Nat := 0      -- the plan word of the wait last reached
  lastLand : Nat := 0      -- one more than the tick in which a result last landed
  landed : List (Nat × Nat) := []   -- R72: what has been written in the tick of lastLand, a register or 64 + a predicate, by place in the release order
  imgAt : Nat := 0         -- one more than the tick a commit last wrote an image, until a takeover restores it
deriving DecidableEq, Repr

/-- R115, R116, R500 to R503: what a supervisor engine holds beside R64. A cached translation is (world, virtual page,
level-2 entry). -/
structure Sup where
  pc : Word := 0
  secure : Bool := true
  excSecure : Bool := true
  cause : Word := 0
  excVa : Word := 0
  excPc : Word := 0
  ttbS : Word := 0x800000000#36
  ttbN : Word := 0x800000000#36
  tlb : List (Bool × Nat × Word) := []
  notices : List Nat := []     -- SEQ of refused writes not yet delivered
  banks : List Nat := []       -- shared banks a LOCK bracket has accessed
deriving DecidableEq, Repr

/-- R136: what a shared request does when it is served. -/
inductive ReqOp where
  | load (d : Nat)
  | store (v : Word)
  | evs (target src payload : Nat)
deriving DecidableEq, Repr

/-- A shared request in flight (R30, R136, R137): release and access ticks, hops, release order and plan word, and the channels it
occupies, its cluster's injection channel in the tick after its release and then one a tick. -/
structure Req where
  master : Nat
  secure : Bool
  addr : Word
  op : ReqOp
  rel : Nat
  acc : Nat
  hops : Nat
  ord : Nat
  word : Nat
  route : List Nat := []
deriving DecidableEq, Repr

/-- R211: a transaction an engine of a joined pair made, with its tick, kind and compared fields. -/
structure Tx where
  tick : Nat
  kind : Nat
  fields : List Word
  word : Nat
deriving DecidableEq, Repr

/-- R208, R210: what a pair input buffer entry delivers. -/
inductive Input where
  | lds (d : Nat) (v : Word)
  | waitEv (event : Bool) (d m : Nat) (v : Word)
  | waitT
  | tstamp (d : Nat) (ws : List Word)
deriving DecidableEq, Repr

/-- R210: an entry of the pair input buffer: capture tick, input, the entries it takes, whether it was lost, the tick at which
the leading engine's result was due, and the plan word and place in the release order of the leading instruction. -/
structure BufEnt where
  tick : Nat
  inp : Input
  n : Nat
  lost : Bool
  due : Nat
  word : Nat
  ord : Nat
deriving DecidableEq, Repr

/-- R202 to R220: a comparison pair today. -/
structure Pair where
  joined : Bool := false
  d : Nat := 0
  safety : Bool := false
  armed : Bool := false
  mirror : Bool := false
  buf : List BufEnt := []
  lead : List Tx := []
  trail : List Tx := []
deriving DecidableEq, Repr

/-- R222: a triple-store word, its three copies and what their check bits show. -/
structure TsWord where
  c1 : Word := 0
  c2 : Word := 0
  c3 : Word := 0
  k1 : Chk := .ok
  k2 : Chk := .ok
  k3 : Chk := .ok
deriving DecidableEq, Repr

/-- R171 to R180, R195: the day sequencer and an online change. `tick` counts 0 to T; T says that the midnight is due. -/
structure Day where
  run : Bool := false
  tick : Nat := 0
  n : Nat := 0
  table : List Word := []
  beatHeld : Bool := false       -- R150: the heartbeat of the next midnight is withheld
  broken : Bool := false         -- R150: the day is broken: no start of frame, no checkpoint
  brokenAt : Nat := 0            -- one more than the tick in which that was detected
  halted : Bool := false         -- R150: no engine restarts any more
  changeDay : Option Nat := none -- A of an armed change
  changeDone : Bool := false     -- the change loader of day A has completed
  cutDone : Bool := false
  hot : List Nat := []           -- R159: the clusters above 110 °C in the day
  wdDone : Bool := false         -- the day watchdog has made its check
  noonDone : Bool := false       -- and the monitor its Noon evaluation
  midWrites : List (Nat × Word) := []    -- register writes that take effect at the next midnight
  midRegions : List (Nat × Word) := []   -- the shadow region table of R497
deriving DecidableEq, Repr

/-- What a port is sending (R272). -/
inductive Sending where
  | none | beacon | echo (k : Nat) | delay (k : Nat) | ring (i : Nat)
deriving DecidableEq, Repr

/-- A frame awaiting deposit with the marks of R279. -/
structure Await where
  f : RxFrame
  intr : Bool
  muted : Bool
  tick : Nat
  began : Option Nat := none      -- R282: the tick in which its deposit began
  full : Bool := false            -- R281: the queue was full when it was to begin; the tick's acknowledgements decide
  d : Nat := 0                    -- R280: the ticks by which word 0 is late
deriving DecidableEq, Repr

/-- R234 to R293: what a port controller holds beside its registers. -/
structure Port where
  shortOff : Bool := false
  groupFail : Bool := false
  integrating : Bool := false
  trial : Bool := false           -- R235: the driver is being tried after it was turned off at its limit
  inError : Bool := false         -- an error sequence of the segment may still be in progress (R264, R265)
  posts : List Nat := []          -- R275: the tick in which each posted descriptor was posted
  headAt : Nat := 0               -- the tick from which the port has had the head descriptor
  headDue : Bool := false         -- the head descriptor has become due
  duskHold : Bool := false        -- the head, an output frame due before the last midnight, waits for Dusk (R178)
  nightRing : Nat := 0            -- and so does an output frame at once among so many descriptors, posted with it before that midnight
  cfgPend : Bool := false
  loPend : Bool := false
  sending : Sending := .none
  tx : TxFrame := {}
  sof : Nat := 0
  sofAt : Nat := 0                -- the running tick of that start of frame
  att : Nat := 0
  w0 : Nat := 0                   -- word 0 of the ring descriptor being sent, as fetched
  sofDriven : Bool := false
  lastErr : Nat := 0
  lastSof : Nat := 0
  cancelled : List Nat := []
  seq : Nat := 0
  awaiting : List Await := []
  bcnToday : Bool := false
  echoToday : Bool := false
  echo : Option (Nat × Word) := none   -- station and E of the outstanding request
  lastEcho : Nat := 31
  delay : Option (Nat × Nat) := none   -- the station of a delay notice, and the day of the measurement
deriving DecidableEq, Repr

/-- R309 to R313: a PTP domain beside its registers. Ticks are of `State.now`. -/
structure Dom where
  gm : Option (BitVec 64) := none
  annTick : Option Nat := none        -- of the last Announce on the SLAVE port
  annOther : Option Nat := none       -- and on the other port
  annWait : Nat := 3                  -- seconds of the receipt timeout, by that port's last Announce
  annWaitOther : Nat := 3
  cls : Nat := 255
  traceable : Bool := false
  inacc : Option Nat := none
  miss : Nat := 0                     -- consecutive missing Sync messages
  holdUntil : Nat := 0
  offs : List Int := []               -- the previous 8 offsets, newest first
  ofs : Option Int := none            -- the last offset kept, 1/64 ns
  jump : Bool := false
deriving DecidableEq, Repr

/-- R301 to R323: the local clock and the time unit beside its registers. -/
structure Time where
  sec : Nat := 0
  ns64 : Nat := 0
  frac : Nat := 0                     -- the part below 1/64 ns, in 2^-32 units of 1/64 ns
  set : Bool := false
  pllLost : Bool := false
  domA : Dom := {}
  domB : Dom := {}
  mpd : List (Nat × Nat) := []        -- mean link delay by Ethernet port, 1/64 ns
  mpdAt : List (Nat × Nat) := []      -- one more than the tick it was measured
  inBand : Option Nat := none         -- tick since when the filtered offset is within 50 ns
  lockedAt : Option Nat := none       -- tick of the LOCK state in force
  lockTicks : Nat := 0                -- ticks in LOCK states before it, since Daybreak
  holdAt : Option Nat := none
  revert : List (Nat × Nat) := []     -- R318: each source above the one selected, and the tick since when it has been usable
  pairOfs : Option Int := none        -- the last offset from the partner's clock
  pairJump : Bool := false
  slew : Option Int := none           -- R319: RATE at the last switch, until the source is locked to
  bound : Nat := 0                    -- R331: the module's contribution to BOUND as the holdover began
  pdelayAt : List (Nat × Nat) := []   -- R310: one more than the tick in which a port last sent Pdelay_Req
  ppsAt : Option (Nat × Nat) := none  -- clock of the last PPS edge
  ppsOfs : Int := 0
  ppsJump : Bool := false
  irigCnt : Nat := 0
  irigAt : Option (Nat × Nat) := none -- clock of the last Pr edge
  irigLast : Option Int := none       -- the TAI second of the last frame free of errors
  irigQual : Nat := 0                 -- and its time quality
  irigOfs : Int := 0
  irigJump : Bool := false
  secKnown : Option Nat := none       -- tick the seconds count was last known from a source
  far : List (Nat × Nat) := []        -- 0x50D: source, one more than the tick of its last report
  leapFrom : Nat := 0                 -- which source marked the pending leap
  rates : List Int := []              -- RATE of the last 1,000 seconds, newest first
  lockLeft : Option Nat := none       -- tick the state last left LOCK (R365)
  leapDone : Option (Nat × Nat × Bool) := none   -- tick and second of the last leap, and whether it was a deletion (R365)
deriving DecidableEq, Repr

/-- R372 to R407: the mandate line, the pair link and the checkpoint. -/
structure Link where
  latch : Bool := false
  estab : Bool := false
  own : LoopState := .unknown
  part : LoopState := .unknown
  ownI : BitVec 9 := 0
  partI : BitVec 9 := 0
  inserted : Bool := false
  partner : Bool := false
  spresAt : Option Nat := none          -- tick the own presence closed
  claimDay : Option Nat := none         -- N of the midnight claimed for
  confirmed : Bool := false
  yielded : Option Nat := none
  decided : Option Nat := none          -- tick of the takeover decision
  laneAt : List (Nat × Nat) := []       -- lane, one more than the tick of its last good frame
  discarded : Nat := 0
  noticeCnt : Nat := 0
  heard : Option Notice := none
  unknownAt : Nat := 0                  -- one more than the tick of the last 0x701
  claimLost : Bool := false             -- R467: a claim of this Daybreak was not confirmed
  joinSent : Bool := false
  joinAccepted : Bool := false
  swOwner : Option (Nat × BitVec 20) := none
  swRunning : Bool := false
  swReleased : Bool := false            -- R399: the old active has released its loop
  swSeen : Bool := false                -- the partner loop has read claimed since the release
  swReclaimed : Bool := false           -- R400
  readback : List (Nat × Word) := []    -- terminals read back for R449
  stateMap : List (Nat × Nat) := []     -- first address and length of each range
  dirty : List Nat := []
  frozen : List Nat := []
  kept : List (Nat × Word) := []        -- capture buffers: address, value before the write
  images : List (Nat × List Word) := []       -- images captured for the next cut
  frozenImg : List (Nat × List Word) := []    -- images of the cut not yet streamed
  streamed : List Nat := []                   -- frozen words streamed and not yet acknowledged
  streamedImg : List (Nat × List Word) := []
  stream : Bool := false
  blocks : Nat := 0
  sent : List Word := []                -- payload words of the day's DELTA frames, in order
  linkWords : Nat := 0
  ckDay : Nat := 0
  acked : Bool := false
  ended : Bool := false
  endSent : Bool := false               -- the END of `ckDay` has been sent
  sweepPos : Nat := 0
  sweepLeft : Nat := 0
  sweepBlk : Nat := 0
  rx : List (Nat × List Word) := []     -- standby: DELTA blocks
  rxSweep : List (Nat × List Word) := []     -- and the blocks of the sweep share of the night before
  rxEnd : Option (Nat × Nat × Word × Nat × Bool) := none   -- day, words, CRC, blocks, names a change
  rxBad : Bool := false
  complete : Option Nat := none
  commit : Option (Nat × List (Nat × Word) × List (Nat × List Word)) := none   -- day, words and engine images
  consec : Nat := 0
  lastOk : Option Nat := none           -- day of the last checkpoint acknowledged
  cloneTx : List (Nat × Nat) := []      -- slot of a container and the blocks of it sent
  cloneRx : List (Nat × Header × List (Nat × List Word)) := []
  partVer : Option Nat := none          -- the partner's pair protocol version at its join
  partSerial : List Word := []
deriving DecidableEq, Repr

/-- R572: a log entry, without its SEQ while it waits. -/
structure LogEnt where
  seq : Nat := 0
  code : Nat
  mst : Nat
  slotB : Bool
  rep : Nat
  sec : Nat
  ns64 : Nat
  day : Nat
  detail : Nat
  tick : Nat
  torn : Option Nat := none         -- R541, R573: its write was cut: what it reads as, from this value of `fresh` on
deriving DecidableEq, Repr

/-- R25 to R29: the Nightwatch. -/
structure Watch where
  permit : Bool := false
  dayFrom : Option Nat := none      -- tick of the last pulse, or of the start of watching
  strobe : Nat := 0                 -- tick of the last strobe, or of reset release
  relAt : Nat := 0
  trip : Option LogEnt := none      -- the log entry of the trip being acted on
  feedTrip : Bool := false
  inReset : Bool := true            -- until the presence has shown the module inserted (R402), and for the last 10 ms of a trip
  sundown : Nat := 0                -- stages of Sundown done
  railOk : Bool := true
  fabOk : Bool := true
  own : Bool := true                -- its own rail and oscillator
  ownLost : Bool := false           -- 0xD06 to be logged at the next Daybreak
  restartOf : Option Nat := none    -- code for 0xD10
deriving DecidableEq, Repr

/-- R468: the state of a flash slot. -/
inductive SlotSt where
  | empty | writing | valid | invalid
deriving DecidableEq, Repr

/-- R468: a flash slot. -/
structure Slot where
  st : SlotSt := .empty
  hdr : Option Header := none
  blocks : List (Nat × List Word) := []
  words : List Word := []
deriving DecidableEq, Repr

/-- R478: the update session. -/
structure Session where
  cls : Nat
  bank : Nat
  slot : Nat
  hdr : Option Header
  ty : Nat
  floor : Nat
  sess : Nat
  blocks : List (Nat × List Word) := []
  lostAt : Option Nat := none
deriving DecidableEq, Repr

/-- R464 to R488: flash, the retained start record, Daybreak and updates. -/
structure Boot where
  slots : List (Nat × Slot) := []       -- 2 × bank + slot
  attempts : Nat := 0
  lastBank : Nat := 0
  tried : Bool := false                 -- R474: an attempt has begun since the record was cleared
  step : Nat := 0
  stepAt : Nat := 0
  waitEnd : Option Nat := none
  slotB : Option Bool := none           -- R527: the slot the straps showed
  session : Option Session := none
  staged : Option (Header × List Word) := none
  sundownDone : Bool := true            -- R541
  hdrAt : Option (Nat × Nat) := none    -- R481: the slot last committed, and the tick its header write began
  benchDue : Bool := false
  utcSaved : Option Word := none        -- R322: the TAI − UTC offset the module saved
  netSaved : List Word := []
  net : List Word := []
  stations : List Word := []
  phasors : List Word := []
  units : List Word := []
  plan : List Word := []                -- the running plan image
  pointResv : List Word := []           -- R166, R167: the reservations of the running plan
  chanResv : List Word := []
deriving DecidableEq, Repr

/-- R551 to R561: a host session. -/
structure HostSess where
  roles : List Role := []
  last : Nat := 0
  challenge : Option (BitVec 64) := none
  port : Nat := 0                   -- R560: the port N1 to N4, as 0 to 3, that receives it
  rank : Nat := 0                   -- R560: its place in the order in which sessions were opened
  server : Nat := 0                 -- R508: the vault slot whose certificate authenticated the module
  keyAt : Nat := 0                  -- R508: the tick of its present keys
deriving DecidableEq, Repr

/-- R510, R511: what limits network traffic. Ticks are of `State.now`. -/
structure NetUse where
  tlsAt : List (Nat × Nat) := []    -- peer address, one more than the tick of its last fault 0xB30
  dropAt : Nat := 0                 -- one more than the tick of the last fault 0xB32
  conns : List Nat := []            -- ticks of the new connections of the last second
  echoes : List (Nat × List Nat) := []   -- by port pair, ticks of the ICMP echoes answered in the last second
  turn : Nat × Nat × Nat := (0, 0, 0)    -- R560: the last request: one more than its tick, its port and its session's rank
deriving DecidableEq, Repr

/-- R570: the counters telemetry keeps for itself, and its last complete set. -/
structure Telem where
  set : List Word := List.replicate 16 0
  maxSpeed : Nat := 0
  maxCluster : Nat := 0
  maxTemp : Int := -256
  minSlack : Nat := 255
  minEngine : Nat := 0
  align : Nat := 0
  maxCk : Nat := 0
  valid : Nat := 0
  failed : Nat := 0
  refusals : Nat := 0
  written : Nat := 0
  lost : Nat := 0
  corr : Nat := 0
  uncor : Nat := 0
  setAt : Nat := 0                  -- one more than the tick of the last collection
deriving DecidableEq, Repr

/-- R575 to R577: trace. -/
structure Trace where
  mem : List (List Word) := []
  intake : List (List Word) := []
  dropped : Nat := 0
  readPos : Nat := 0
  came : Nat × Nat := (0, 0)        -- one more than the tick of the last record, and how many of that tick the intake holds
  wroteAt : Nat := 0                -- one more than the tick of the last write to trace memory
deriving DecidableEq, Repr

/-- R440 to R453: a 24 V channel beside its registers. Ticks are of `State.now`. -/
structure Chan where
  mv : Int := 0                    -- the terminal's voltage
  raw : Band := .wireBreak
  rawAt : Nat := 0                 -- tick of the raw band's last change
  steady : Bool := false           -- R429: the raw band is On, as it stood before a freeze in progress
  onAt : Nat := 0                  -- the tick in which that last changed
  frozen : Bool := false
  freezeEnd : Option Nat := none   -- tick the freeze ends; none while a test pulse lasts
  rise0 : Nat := 0                 -- the rising crossing before the last, the falling one between, and the last rising one
  fall0 : Nat := 0
  fall1 : Nat := 0                 -- and the last falling one
  rise1 : Nat := 0
  driven : Nat := 0                -- what the driver is set to, in 0.1 % (1,000 for a plain output that is on)
  drvAt : Nat := 0                 -- the tick in which it was last switched on or off
  hist : List (Nat × Nat) := []    -- writes of the last 251 ticks: tick and the value before
  ovlAt : Option Nat := none       -- tick the driver turned off at its limit, or in which it was tried again
  retried : Bool := false
  written : Bool := false          -- a write was served in the day
  refresh : Nat := 0
  broke : Bool := false            -- the last midnight sample was in the wire-break band with WBEN set
  latch : Nat := 0                 -- R452: the safe state held by the Nightwatch: 0 off, 1 on, 2 hold
deriving DecidableEq, Repr

/-- R441, R455 to R457: local I/O beside its registers. Samples are (tick, microamperes, at the limit). -/
structure Lio where
  chans : List (Nat × Chan) := []
  loading : Bool := false
  loadAt : Option Nat := none      -- tick loading last started or stopped
  loads : List Nat := []           -- the ticks of the last 100 ms and more at which it did
  settled : Bool := true
  heldAt : Nat := 0                -- the tick in which the module last took the mandate
  tovlAt : List (Nat × Nat) := []  -- one more than the tick a test supply turned off
  loops : List (Nat × List (Nat × Int × Bool)) := []
deriving DecidableEq, Repr

/-- R459 to R462: the faceplate beside its registers. -/
structure Fpd where
  panel : List (Nat × Word) := []  -- the panel's image, word j of line n at 8n + j, where it is not blank
  pass : Option (List (Nat × Word)) := none
  abandoned : Nat := 0
  redo : List Nat := []            -- lines of an abandoned pass
  passEnd : Nat := 0               -- R460: the tick in which the pass in progress ends
  page : Option (Nat × Nat) := none    -- R476, R527: the boot ROM's page on lines 0 to 3, NO FIRMWARE (0) or NO SLOT (1), and its cause
deriving DecidableEq, Repr

/-- R417 to R434: a supervised drive beside its registers. -/
structure Drive where
  cmdToday : Bool := false
  n0 : Nat := 0                    -- the day SS1 began
  v0 : Option Word := none
  speed : Option Word := none      -- the valid speed taken today
  runNext : Bool := false          -- the restart conditions were met at Noon
  edge : Bool := false             -- a rising edge of RSTIN since STO was entered
  rstOn : Bool := false            -- RSTIN was On at the last midnight
  phase : Nat := 0                 -- R425: 0 opening, 1 open long enough, 2 closed, 3 complete
  open' : Nat := 0                 -- midnights GIN has been open without a break
  closedAt : Nat := 0
  dis : Nat := 0                   -- days the two speed sources have disagreed
  resumed : Bool := false
  expired : Bool := false          -- a time expectation had expired at the last midnight
deriving DecidableEq, Repr

/-- R430 to R433: a safety connection. -/
structure Conn where
  mask : Nat := 0                  -- words of RX written today
  good : Bool := false             -- today's telegram was good
  missing : Nat := 0               -- midnights since the last good telegram
deriving DecidableEq, Repr

/-- R426, R427: the pulse test of an input channel. -/
structure InTest where
  before : Band := .wireBreak
  bad : Bool := false
  passes : Nat := 0
deriving DecidableEq, Repr

/-- R409 to R436: the safety monitor beside its registers. -/
structure Saf where
  frozen : Bool := false           -- R435
  drives : List (Nat × Drive) := []
  conns : List (Nat × Conn) := []
  inputs : List (Nat × InTest) := []
  pulse : List (Nat × Nat) := []   -- one more than the tick a test supply's pulse began
  checked : List (Nat × Nat) := [] -- and one more than the tick of its last check
  resumeDay : Option Nat := none   -- R434: the first day after transition 6
  changed : List Nat := []         -- drives whose block a change alters in its day A
deriving DecidableEq, Repr

/-- R341 to R354: a signal channel beside its registers. -/
structure SigCh where
  e : Option (Nat × Nat) := none           -- second and index of the next sample
  limAt : Nat := 0                         -- R353: 1 + the tick of the last write of HI, LO or HYS
  lims : Word × Word × Word := (0, 0, 0)   -- HI, LO and HYS as that tick began
  last : Word := 0                         -- the last accepted sample, widened
  xs : List Word := []                     -- input positions, newest first
  ys : List (Word × Bool) := []            -- stage-1 outputs and their saturation, newest first
  q : Nat := 0                             -- positions since the start
  filled : Nat := 0                        -- q of the last filled position, 0 none
  hi : Bool := false
  lo : Bool := false
  satDay : Option Nat := none              -- day of the last fault 0x609
  sync : Option (Nat × Nat) := none        -- pending reset instant: TAI second and microseconds
deriving DecidableEq, Repr

/-- R338 to R349: the signal chain unit beside its registers. Ticks are of `State.now`. -/
structure Sig where
  chans : List (Nat × SigCh) := []
  posts : List Nat := []                   -- tick each posted feed was posted
  doneAt : Nat := 0                        -- tick the last feed was completed
  armAt : Nat := 0
  restart : List Nat := []                 -- channels a change of day A stopped, started again at day A + 1
deriving DecidableEq, Repr

/-- R362 to R366: an output stream. -/
structure Stream where
  peers : List (BitVec 32) := []           -- the peers connected
  on : Bool := false
  cfgCnt : Nat := 0
  armedAt : Bool := false                  -- an armed change alters the stream
  chgUntil : Nat := 0                      -- tick until which STAT bit 10 stays set
deriving DecidableEq, Repr

/-- R367: a remote stream. -/
structure Remote where
  cfgCnt : Option Nat := none              -- of the last CFG-2 received
  fmt : BitVec 4 := 0                      -- and its FORMAT bits
  validAt : Nat := 0                       -- tick of the last valid frame, or of the first request for data
  lost : Bool := false
  askedAt : Nat := 0
deriving DecidableEq, Repr

/-- R368: a travelling-wave arrival report. -/
structure Arrival where
  seq : Nat
  polarity : Nat
  phases : Nat
  sec : Nat
  ns64 : Nat
  amplitude : Word
  accuracy : Nat
deriving DecidableEq, Repr

/-- C37.118.2 as the supervisor runs it, the last report of each arrival source, and one more than the day in which a phasor
configuration last raised 0x610 (R360). -/
structure C37 where
  streams : List (Nat × Stream) := []
  remotes : List (Nat × Remote) := []
  arrivals : List (Nat × Arrival) := []
  invalid : List (Nat × Nat) := []
deriving DecidableEq, Repr

/-- R533 to R545: the feeds, the store and the start conditions. -/
structure Pwr where
  mv1 : Int := 0
  mv2 : Int := 0
  off1 : Bool := false             -- disconnected above 63 V, or blocked
  off2 : Bool := false
  okAt1 : Option Nat := none       -- R534: the tick since when P1, and P2, has stood between 3.0 V and 60 V
  okAt2 : Option Nat := none
  threshold : Bool := false        -- R534: the start threshold has been reached, and a feed has stood since
  warm : Bool := true              -- R545: the thermal face permits a start
  warmAt : Option Nat := none      -- the tick since when it has stood at or above the lowest start temperature again
  coldHeld : Bool := false         -- the start was held below the lowest start temperature
deriving DecidableEq, Repr

/-- R9, R10: what the module has done to its registers in the tick that runs. `sets` holds the bits it has set, by register; `counts`
the RC fields that have counted, a register with its word before the tick's first event and the tick's events alone; `hw` the RW
fields it has updated, as register, mask and value; `wrote` the registers that an access has written; `born` the RP registers whose
queue was empty until this tick; `viols` how many violation records the tick has queued. -/
structure TickLog where
  sets : List (Nat × Word) := []
  counts : List (Nat × Word × Word) := []
  hw : List (Nat × Word × Word) := []
  wrote : List Nat := []
  born : List Nat := []
  viols : Nat := 0
  seq : Nat := 0                   -- SEQ of the violation record last made
  touched : List Nat := []         -- the word addresses the command being executed has accessed
deriving DecidableEq, Repr

/-- R30, R31: an access that found its arbitration point taken: the tick of its retry, the point, its master and its unit among
those that share the number. -/
structure Waiter where
  tick : Nat
  point : Nat
  master : Nat
  sub : Nat
deriving DecidableEq, Repr

/-- R31: the words of an operation that its point has still to serve, one a tick: those beyond the operation's first at the point. -/
structure Owed where
  point : Nat
  master : Nat
  sub : Nat
  left : Nat
deriving DecidableEq, Repr

/-- R271, R273: the end of a transmit descriptor that waits for its point: port, index and the fields written. -/
structure TxEnd where
  port : Nat
  index : Nat
  st : Nat
  att : Nat
  errc : Nat
  sent : Nat
deriving DecidableEq, Repr

/-- R504: the DRBG: the generate requests since it was last seeded, and the tick of that. -/
structure Rng where
  draws : Nat := 0
  seededAt : Nat := 0
deriving DecidableEq, Repr

/-- R564, R578: a request in service whose words wait for their points, with the debug level it was accepted at. -/
inductive MemReq where
  | read (a : Word) (count : Nat)
  | peek (a : Word) (count level : Nat)
  | take (a : Word) (count level : Nat)
  | poke (a : Word) (words : List Word) (level : Nat)
deriving DecidableEq, Repr

/-- R563, R565, R578: a host request: a command with its operands, a frame of a known or unknown command that is not in its format, one that
another exclusive command turns away, and the two that may be in service for some time. -/
inductive HostReq where
  | ident
  | echo (payload : List Word)
  | status
  | read (a : Word) (count : Nat)
  | log (first : Word) (count : Nat)
  | telem
  | pmucfg (stream : Nat)
  | stop (flags : Word)
  | restart
  | switch (day : Word)
  | unlock (drive : Nat)
  | fpline (line : Nat) (words : List Word)
  | uopen (cls bank slot : Nat) (h : RawHeader) (ty floor : Nat)
  | ublock (offset : Nat) (words : List Word)
  | uclose
  | ucopy (slot : Nat)
  | activate (bank : Nat) (keep : Bool)
  | arm (day : Word)
  | deviceKey
  | deviceCert (item : VaultItem)
  | configKey (slot : Nat) (item : VaultItem)
  | trustAnchor (slot : Nat) (item : VaultItem)
  | debugKeys (slot : Nat) (item : VaultItem)
  | accessAnchor (slot : Nat) (item : VaultItem)
  | crl (item : VaultItem)
  | deleteSlot (slot : Nat)
  | listSlots
  | zeroise (serial : List Word)
  | commission (key anchor access : VaultItem)
  | dbgchal
  | dbggrant (g : Grant)
  | peek (a : Word) (count : Nat)
  | take (a : Word) (count : Nat)
  | poke (a : Word) (words : List Word)
  | halt (e : Nat)
  | resume (e : Nat)
  | step (e n : Nat)
  | regs (e : Nat)
  | misformed (code : Nat)
  | clash (code : Nat)
  | held (m : MemReq)
  | resting (e since : Nat)
deriving DecidableEq, Repr

/-- R559: a request that waits, by session (8: closed). -/
structure HostWait where
  sess : Nat
  q : Rq
  req : HostReq
deriving DecidableEq, Repr

/-- The module. Every table is a list in rising order of its keys without an entry equal to its default. -/
structure State where
  pending : List Instr := []               -- the commands waiting, first in, first out
  now : Nat := 0                           -- the model's own running count of ticks
  fresh : Nat := 0                         -- the model's own counter for free values
  out : List Out := []                     -- what has left the module
  mst : MState := .daybreak
  mlast : Nat := 0
  stopReq : Option (Bool × Nat × BitVec 20) := none   -- accepted stop: forced, session, tag
  stopActivate : Bool := false             -- R485: the stop is an activation
  armReq : Option (Nat × BitVec 20) := none
  regs : List (Nat × Word) := []
  tk : TickLog := {}
  waiters : List Waiter := []
  owed : List Owed := []
  ends : List TxEnd := []                  -- in the order in which they came
  latch : List (Nat × Word) := []          -- words latched for one master: 8 × master + number
  mem : List (Nat × Word) := []            -- R35: shared memory, local data and plan memory
  chk : List (Nat × Chk) := []             -- R569: what the check bits of a word show
  ts : List (Nat × TsWord) := []
  tsRepairs : List (Nat × Word) := []
  tsSplit : List Nat := []
  priv : List (Nat × Word) := []           -- R37
  eng : List (Nat × Engine) := []
  sup : List (Nat × Sup) := []
  pairs : List (Nat × Pair) := []
  reqs : List Req := []
  served : List (Nat × Nat) := []          -- one more than the tick in which a point last served an access
  mirrors : List (Nat × Nat × Word) := []  -- R205: due tick, address, word
  bindings : List (Nat × Nat) := []        -- event source, engine
  arrivals : List (Nat × Nat × Nat) := []  -- R325: events on their way to a queue: arrival tick, source, payload
  late : List (Word × Nat × Nat) := []     -- record word, scheduled and actual tick
  ovr : List Word := []
  mism : List (Word × Word × Word) := []
  viol : List (Word × Nat × Nat) := []     -- record word, address, tick
  violSeq : Nat := 0
  violMasters : List Nat := []             -- masters already refused today
  speeds : List (Nat × List Nat) := []     -- R155: the last measurements of a cluster
  dayMin : Nat := 255                      -- R158: the fabric's least slack of the day and its engine
  dayMinEng : Nat := 0
  day : Day := {}
  ports : List (Nat × Port) := []
  time : Time := {}
  link : Link := {}
  nwt : Watch := {}
  saf : Saf := {}
  lio : Lio := {}
  fpd : Fpd := {}
  pwr : Pwr := {}
  sig : Sig := {}
  c37 : C37 := {}
  boot : Boot := {}
  net : NetUse := {}
  sess : List (Nat × HostSess) := []       -- open sessions by number, 0 to 7 for 1 to 8
  hostQ : List HostWait := []              -- R559: the host requests not answered yet, in their order
  vault : List (Nat × VaultItem) := []     -- slots 1 to 23; 32 and up: the revocation list of trust anchor slot 10 and up
  rng : Rng := {}
  grant : Option (Nat × Grant) := none
  lastFSec : Nat := 0                      -- the TAI second of the last fault
  logQ : List LogEnt := []
  log : List LogEnt := []
  telem : Telem := {}
  trace : Trace := {}
deriving DecidableEq, Repr

/-- The module right after power is applied: R21, R464 and the reset columns of the register tables, which the register
file reads where `regs` lists nothing. -/
def State.reset : State := {}

end Sys2Proof.Machine
end

