-- ==== Sys2Proof/Machine/Ops.lean ====
section
/-! DEFINITION. The named operations over the state: sparse tables, register fields, memory words, faults and the event log,
late events and their response, events for engines, trace and the mandate. -/

namespace Sys2Proof.Machine

/-! Sparse tables in canonical form: keys strictly rising, no entry equal to the default. -/

/-- The entry of key `k`, or the default. -/
def tabGet {α : Type} (d : α) : List (Nat × α) → Nat → α
  | [], _ => d
  | (k', v) :: t, k => if k = k' then v else if k < k' then d else tabGet d t k

/-- The table with key `k` at `v`; writing the default removes the entry. -/
def tabSet {α : Type} [DecidableEq α] (d : α) : List (Nat × α) → Nat → α → List (Nat × α)
  | [], k, v => if v = d then [] else [(k, v)]
  | (k', v') :: t, k, v =>
    if k < k' then (if v = d then (k', v') :: t else (k, v) :: (k', v') :: t)
    else if k = k' then (if v = d then t else (k, v) :: t)
    else (k', v') :: tabSet d t k v

/-- Whether every key of the table is above `lo` (none: any key), rises strictly, and no value is the default. -/
def tabWf {α : Type} [DecidableEq α] (d : α) : Option Nat → List (Nat × α) → Bool
  | _, [] => true
  | lo, (k, v) :: t => (match lo with | none => true | some l => decide (l < k)) && decide (v ≠ d) && tabWf d (some k) t

/-- The keys of a table rise strictly. -/
abbrev rising {α : Type} (l : List (Nat × α)) : Prop := (l.map (·.1)).Pairwise (· < ·)

/-- The list with its `i`-th element replaced, or unchanged beyond its end. -/
def listSet {α : Type} : List α → Nat → α → List α
  | [], _, _ => []
  | _ :: t, 0, v => v :: t
  | x :: t, i + 1, v => x :: listSet t i v

/-- Each index below `n`, in rising order, folded over a state. -/
def forUpto {σ : Type} (n : Nat) (f : Nat → σ → σ) (s : σ) : σ := (List.range n).foldl (fun t i => f i t) s

/-- Bits [hi:lo] of a number. -/
def slice (v hi lo : Nat) : Nat := v / 2 ^ lo % 2 ^ (hi + 1 - lo)

/-- A number with bits [hi:lo] replaced by `x`, taken modulo the field's width. -/
def splice (v hi lo x : Nat) : Nat :=
  v / 2 ^ (hi + 1) * 2 ^ (hi + 1) + x % 2 ^ (hi + 1 - lo) * 2 ^ lo + v % 2 ^ lo

/-- A flag as a bit at place `b`. -/
def flagAt (b : Nat) (v : Bool) : Nat := if v then 2 ^ b else 0

/-- A number as a word. -/
def word (n : Nat) : Word := BitVec.ofNat 36 n

/-- An integer as a word, modulo 2^36. -/
def wordI (i : Int) : Word := BitVec.ofInt 36 i

/-! Registers. -/

/-- What the register file holds at a word address. -/
def reg (s : State) (a : Nat) : Word := tabGet (regReset a) s.regs a

/-- The register file with a word address at `v`. -/
def setReg (s : State) (a : Nat) (v : Word) : State := { s with regs := tabSet (regReset a) s.regs a v }

/-- Bits [hi:lo] of a register. -/
def getF (s : State) (a hi lo : Nat) : Nat := slice (reg s a).toNat hi lo

/-- A register with bits [hi:lo] at `v`. -/
def setF (s : State) (a hi lo v : Nat) : State := setReg s a (word (splice (reg s a).toNat hi lo v))

/-- Bit `b` of a register. -/
def bitOf (s : State) (a b : Nat) : Bool := getF s a b b == 1

/-- R9: a bit that the module sets, remembered for the tick. -/
def TickLog.noteSet (t : TickLog) (a b : Nat) : TickLog := { t with sets := tabSet 0 t.sets a (tabGet 0 t.sets a ||| word (2 ^ b)) }

/-- A register with bit `b` set or cleared by the module. -/
def setBit (s : State) (a b : Nat) (v : Bool := true) : State :=
  { setF s a b b (if v then 1 else 0) with tk := if v then s.tk.noteSet a b else s.tk }

/-- A counter field of a word raised by `n`, saturating. -/
def satAdd (v : Word) (hi lo n : Nat) : Word := word (splice v.toNat hi lo (Nat.min (slice v.toNat hi lo + n) (2 ^ (hi + 1 - lo) - 1)))

/-- R9: `n` events of a counter field, remembered for the tick; `old` is the register before them. -/
def TickLog.noteCount (t : TickLog) (a hi lo n : Nat) (old : Word) : TickLog :=
  let e := (t.counts.find? (·.1 == a)).getD (a, old, 0)
  { t with counts := t.counts.filter (·.1 != a) ++ [(a, e.2.1, satAdd e.2.2 hi lo n)] }

/-- A counter field raised by `n`, saturating. -/
def addSat (s : State) (a hi lo n : Nat) : State :=
  { setF s a hi lo (Nat.min (getF s a hi lo + n) (2 ^ (hi + 1 - lo) - 1)) with tk := s.tk.noteCount a hi lo n (reg s a) }

/-- R9: an RC field that keeps the highest value seen; what this tick has shown is remembered. -/
def rcMax (s : State) (a hi lo v : Nat) : State :=
  let e := (s.tk.counts.find? (·.1 == a)).getD (a, reg s a, 0)
  { setF s a hi lo (Nat.max (getF s a hi lo) v) with
    tk := { s.tk with counts := s.tk.counts.filter (·.1 != a)
                        ++ [(a, e.2.1, word (splice e.2.2.toNat hi lo (Nat.max (slice e.2.2.toNat hi lo) v)))] } }

/-- R9: the module updates bits [hi:lo] of an RW field: at once, or in the next tick where an access has written the register in this
one. -/
def hwField (s : State) (a hi lo v : Nat) : State :=
  { (if s.tk.wrote.contains a then s else setF s a hi lo v) with
    tk := { s.tk with hw := s.tk.hw ++ [(a, word (splice 0 hi lo (2 ^ (hi + 1 - lo) - 1)), word (splice 0 hi lo v))] } }

/-- R9: the updates that an access of the tick put off are made, and a new tick begins. -/
def applyHw (s : State) : State :=
  let t := s.tk.hw.foldl (fun t u =>
    if s.tk.wrote.contains u.1 then setReg t u.1 ((reg t u.1 &&& ~~~u.2.1) ||| u.2.2) else t) s
  { t with tk := {} }

/-- R9: an access has written register `a` in this tick. -/
def noteWrote (a : Nat) (s : State) : State := { s with tk := { s.tk with wrote := a :: s.tk.wrote } }

/-- A write of the whole of register `a` that takes effect in the next tick. -/
def laterTick (a : Nat) (v : Word) (s : State) : State :=
  { s with tk := { s.tk with wrote := a :: s.tk.wrote, hw := s.tk.hw ++ [(a, BitVec.allOnes 36, v)] } }

/-- R10: an entry arrives at the queue behind RP register `a`, which held none before if `empty`. -/
def noteBorn (a : Nat) (empty : Bool) (s : State) : State :=
  { s with tk := { s.tk with born := if empty then a :: s.tk.born else s.tk.born } }

/-! Free values. -/

/-- The counter of free values, one further. -/
def bump (s : State) : State := { s with fresh := s.fresh + 1 }

/-- `n` free words, from the counter as it stands. -/
def freeWords (n : Nat) (s : State) : List Word := (List.range n).map fun i => Config.freeWord (s.fresh + i)

/-- Something leaves the module. -/
def emit (o : Out) (s : State) : State := { s with out := s.out ++ [o] }

/-! The parts of State that are tables. -/

def engine (s : State) (e : Nat) : Engine := tabGet {} s.eng e
def setEngine (s : State) (e : Nat) (x : Engine) : State := { s with eng := tabSet {} s.eng e x }
def modEngine (e : Nat) (f : Engine → Engine) (s : State) : State := setEngine s e (f (engine s e))
def supOf (s : State) (e : Nat) : Sup := tabGet {} s.sup e
def setSup (s : State) (e : Nat) (x : Sup) : State := { s with sup := tabSet {} s.sup e x }
def modSup (e : Nat) (f : Sup → Sup) (s : State) : State := setSup s e (f (supOf s e))
def pairOf (s : State) (k : Nat) : Pair := tabGet {} s.pairs k
def setPair (s : State) (k : Nat) (x : Pair) : State := { s with pairs := tabSet {} s.pairs k x }
def modPair (k : Nat) (f : Pair → Pair) (s : State) : State := setPair s k (f (pairOf s k))
def portOf (s : State) (p : Nat) : Port := tabGet {} s.ports p
def setPort (s : State) (p : Nat) (x : Port) : State := { s with ports := tabSet {} s.ports p x }
def modPort (p : Nat) (f : Port → Port) (s : State) : State := setPort s p (f (portOf s p))
def modDay (f : Day → Day) (s : State) : State := { s with day := f s.day }
def modTime (f : Time → Time) (s : State) : State := { s with time := f s.time }
def modLink (f : Link → Link) (s : State) : State := { s with link := f s.link }
def modNwt (f : Watch → Watch) (s : State) : State := { s with nwt := f s.nwt }
def modSaf (f : Saf → Saf) (s : State) : State := { s with saf := f s.saf }
def modLio (f : Lio → Lio) (s : State) : State := { s with lio := f s.lio }
def chan (s : State) (l : Nat) : Chan := tabGet {} s.lio.chans l
def modChan (l : Nat) (f : Chan → Chan) (s : State) : State :=
  modLio (fun x => { x with chans := tabSet {} x.chans l (f (tabGet {} x.chans l)) }) s
def modFpd (f : Fpd → Fpd) (s : State) : State := { s with fpd := f s.fpd }
def drive (s : State) (d : Nat) : Drive := tabGet {} s.saf.drives d
def modDrive (d : Nat) (f : Drive → Drive) (s : State) : State :=
  modSaf (fun x => { x with drives := tabSet {} x.drives d (f (tabGet {} x.drives d)) }) s
def conn (s : State) (c : Nat) : Conn := tabGet {} s.saf.conns c
def modConn (c : Nat) (f : Conn → Conn) (s : State) : State :=
  modSaf (fun x => { x with conns := tabSet {} x.conns c (f (tabGet {} x.conns c)) }) s
def inTest (s : State) (l : Nat) : InTest := tabGet {} s.saf.inputs l
def modInTest (l : Nat) (f : InTest → InTest) (s : State) : State :=
  modSaf (fun x => { x with inputs := tabSet {} x.inputs l (f (tabGet {} x.inputs l)) }) s
def sigChan (s : State) (c : Nat) : SigCh := tabGet {} s.sig.chans c
def modSig (f : Sig → Sig) (s : State) : State := { s with sig := f s.sig }
def modSigChan (c : Nat) (f : SigCh → SigCh) (s : State) : State :=
  modSig (fun x => { x with chans := tabSet {} x.chans c (f (tabGet {} x.chans c)) }) s
def stream (s : State) (i : Nat) : Stream := tabGet {} s.c37.streams i
def modStream (i : Nat) (f : Stream → Stream) (s : State) : State :=
  { s with c37 := { s.c37 with streams := tabSet {} s.c37.streams i (f (stream s i)) } }
def remote (s : State) (i : Nat) : Remote := tabGet {} s.c37.remotes i
def modRemote (i : Nat) (f : Remote → Remote) (s : State) : State :=
  { s with c37 := { s.c37 with remotes := tabSet {} s.c37.remotes i (f (remote s i)) } }
def modPwr (f : Pwr → Pwr) (s : State) : State := { s with pwr := f s.pwr }
def modBoot (f : Boot → Boot) (s : State) : State := { s with boot := f s.boot }
def modTelem (f : Telem → Telem) (s : State) : State := { s with telem := f s.telem }
def modTrace (f : Trace → Trace) (s : State) : State := { s with trace := f s.trace }

/-! Memory (R35): shared memory, engine local data and plan memory, one word an address. -/

/-- A memory in canonical form: addresses strictly rising, no entry equal to the zero an unlisted address reads as. -/
abbrev Memory.wf (m : List (Nat × Word)) : Bool := tabWf 0 none m

def memGet (s : State) (a : Nat) : Word := tabGet 0 s.mem a

/-- A write to a memory word also restores its check bits (R569). -/
def memSet (s : State) (a : Nat) (v : Word) : State :=
  { s with mem := tabSet 0 s.mem a v, chk := tabSet .ok s.chk a .ok }

def chkOf (s : State) (a : Nat) : Chk := tabGet .ok s.chk a

/-- R35: address ranges. -/
def isShared (a : Nat) : Bool := a ≤ 0x007FFFFF
def isLocal (a : Nat) : Bool := 0x01000000 ≤ a && a ≤ 0x017FFFFF
def isPlan (a : Nat) : Bool := 0x02000000 ≤ a && a ≤ 0x023FFFFF
def isVoted (a : Nat) : Bool := 0x03000000 ≤ a && a ≤ 0x0300FFFF
def isRaw (a : Nat) : Bool := 0x03010000 ≤ a && a ≤ 0x0303FFFF
def isReg (a : Nat) : Bool := 0x04000000 ≤ a && a ≤ 0x0411FFFF
def isMapped (a : Nat) : Bool := isShared a || isLocal a || isPlan a || isVoted a || isRaw a || isReg a

/-- R35: the mapped address of a word of engine `e`'s local data. -/
def localAddr (e off : Nat) : Nat := 0x01000000 + e * 0x2000 + off % 8192

/-! Module state, day and clock. -/

/-- MID_STATE.STATE (R21). -/
def mstCode : MState → Nat
  | .daybreak => 1
  | .standby => 2
  | .active => 3
  | .bench => 4
  | .stopped => 5

/-- L in microseconds, T in ticks and Q days a second (R171); 0 until the day table is loaded. -/
def dayL (s : State) : Nat := slice (s.day.table.getD 0 0).toNat 19 0
def dayT (s : State) : Nat := dayL s * 250
def dayQ (s : State) : Nat := if dayL s = 0 then 0 else 1000000 / dayL s

/-- KDAY: the index of the day within its second (R172). -/
def dayK (s : State) : Nat := if dayQ s = 0 then 0 else s.day.n % dayQ s

/-- The day tick, 0 to T − 1 (R125); 0 while the sequencer is stopped. -/
def dayTick (s : State) : Nat := if s.day.run then Nat.min s.day.tick (dayT s - 1) else 0

/-- The start tick of phase `k`, 1 Morning to 5 Night (R179). -/
def phaseStart (s : State) (k : Nat) : Nat := slice (s.day.table.getD k 0).toNat 27 0

/-- R175: the phase of day tick `t`, 0 Dawn to 5 Night. -/
def phaseOf (s : State) (t : Nat) : Nat :=
  if t < phaseStart s 1 then 0 else if t < phaseStart s 2 then 1 else if t < phaseStart s 3 then 2
  else if t < phaseStart s 4 then 3 else if t < phaseStart s 5 then 4 else 5

/-- N as the record words of R572 hold it: 0 while the day sequencer is stopped. -/
def dayN (s : State) : Nat := if s.day.run then s.day.n else 0

/-- R57: the three words of a time triple. -/
def triple (sec ns64 : Nat) : List Word := [word ns64, word (sec / 2 ^ 36 % 4096), word (sec % 2 ^ 36)]

/-- 10^9 ns in 1/64 ns. -/
def nsWrap : Nat := 64000000000

/-- A clock reading moved by a number of 1/64 ns (R58, R59). -/
def clockAdd (sec ns64 : Nat) (d : Int) : Nat × Nat :=
  let total : Int := (sec * nsWrap + ns64 : Nat) + d
  let t : Nat := (total % (2 ^ 48 * nsWrap : Nat)).toNat
  (t / nsWrap, t % nsWrap)

/-- R301: one tick of the clock: 256 units of 1/64 ns times (1 + RATE × 2^-40), the part below 1/64 ns kept exactly. -/
def clockTick (rate : Int) (t : Time) : Time :=
  let f : Int := (t.frac : Nat) + rate
  let c := clockAdd t.sec t.ns64 (256 + f / 2 ^ 32)
  { t with sec := c.1, ns64 := c.2, frac := (f % 2 ^ 32).toNat }

/-! Faults and the event log (R571 to R573, R582). -/

/-- MID_LASTF. -/
def setLastF (code : Nat) (s : State) : State := { setReg s midLastF (word code) with lastFSec := s.time.sec }

/-- Whether a pending entry takes a repeat of this code and detail in this second (R573). -/
def LogEnt.folds (code detail sec : Nat) (l : LogEnt) : Bool := l.code == code && l.detail == detail && l.sec == sec

/-- R573: entries in the order raised, those of one tick by code. -/
def logInsert (x : LogEnt) : List LogEnt → List LogEnt
  | [] => [x]
  | y :: t => if y.tick = x.tick ∧ x.code < y.code then x :: y :: t else y :: logInsert x t

/-- MID_STATE.SLOT (R21, R527): as the straps showed it, and before a Daybreak has read them as the carrier has it. -/
def slotB (s : State) : Bool := s.boot.slotB.getD Config.slotB

/-- The entry a raise makes. -/
def newEntry (s : State) (code detail : Nat) : LogEnt :=
  { code := code, mst := mstCode s.mst, slotB := slotB s, rep := 0, sec := s.time.sec, ns64 := s.time.ns64,
    day := dayN s, detail := detail, tick := s.now }

/-- R571, R573: the log queue with a raise of `code`: a repeat of the second folds, a full queue discards. -/
def logPush (code detail : Nat) (s : State) : State :=
  if s.logQ.any (·.folds code detail s.time.sec) then
    { s with logQ := s.logQ.map fun l =>
        if l.folds code detail s.time.sec then { l with rep := Nat.min (l.rep + 1) 4095 } else l }
  else if s.logQ.length < 256 then { s with logQ := logInsert (newEntry s code detail) s.logQ }
  else modTelem (fun t => { t with lost := t.lost + 1 }) (addSat s midLog 17 0 1)

/-- Every fault code any block raises (R571): MID_LASTF and the event log. -/
def raise (code detail : Nat) (s : State) : State := logPush code detail (setLastF code s)

/-- R582, range 0x1xx: master in [10:0], plan word in [22:11]. -/
def detailEngine (master pos : Nat) : Nat := master % 2048 + pos % 4096 * 2048

/-! Trace (R575 to R577). -/

/-- Whether engine `e` is traced: trace on, its cluster selected, and no trailing engine of a joined pair. -/
def traced (s : State) (e : Nat) : Bool :=
  bitOf s dbgTrCtl 35 && e < 1024 && bitOf s (if e / 16 < 32 then dbgTrMask0 else dbgTrMask1) (e / 16 % 32)
    && !(e % 2 == 1 && (pairOf s (e / 2)).joined)

/-- R576: the four words of a record. -/
def traceWords (s : State) (ty kind master value pos : Nat) : List Word :=
  [word (ty * 2 ^ 32 + kind * 2 ^ 28 + master), word (s.day.n % 256 * 2 ^ 28 + dayTick s), word value, word pos]

/-- R577: a record of this tick joins the intake. -/
def Trace.take (t : Trace) (now : Nat) (r : List Word) : Trace :=
  { t with intake := t.intake ++ [r], came := (now + 1, if t.came.1 = now + 1 then t.came.2 + 1 else 1) }

/-- R577: a record enters the intake of 1,024, or is discarded and counted. -/
def traceRec (ty kind master value pos : Nat) (s : State) : State :=
  if s.trace.intake.length < 1024 then
    modTrace (fun t => t.take s.now (traceWords s ty kind master value pos)) s
  else addSat (modTrace (fun t => { t with dropped := t.dropped + 1 }) s) dbgTrStat 35 20 1

/-- A record that concerns engine `e`, if it is traced. -/
def traceEngine (e ty kind value pos : Nat) (s : State) : State :=
  if traced s e then traceRec ty kind e value pos s else s

/-- A rest marker (R575), with REST = 1. -/
def traceRest (e ty value pos : Nat) (s : State) : State :=
  if bitOf s dbgTrCtl 33 then traceEngine e ty 0 value pos s else s

/-! Late events and breaches (R149 to R152). -/

/-- R381: a lane, or the link, is up. -/
def laneUp (s : State) (l : Nat) : Bool := tabGet 0 s.link.laneAt l != 0
def linkUp (s : State) : Bool := laneUp s 0 || laneUp s 1

/-- A lane that is up, lane 0 first. -/
def anyLane (s : State) : Nat := if laneUp s 0 then 0 else 1

/-- R379, R380: a frame with its header word and its check word. -/
def packFrame (ty seq : Nat) (ws : List Word) : PairFrame :=
  let h := word (ty * 2 ^ 32 + (ws.length - 1) % 256 * 2 ^ 24 + seq % 2 ^ 24)
  { header := h, payload := ws, check := crcOf (h :: ws) }

/-- R379: a frame leaves on a lane. -/
def sendFrame (lane ty seq : Nat) (ws : List Word) (s : State) : State := emit (.pairFrame lane (packFrame ty seq ws)) s

/-- R387: the end of the day's stream, and an ABANDON frame if a lane still carries it. -/
def abandonCheckpoint (reason : Nat) (s : State) : State :=
  if s.link.stream then
    let t := modLink (fun l => { l with stream := false, ended := true }) s
    if linkUp s then sendFrame (anyLane s) 5 0 [word (s.day.n % 2 ^ 36), word reason] t else t
  else s

/-- R150: what a breach detected in ACTIVE sets off; in the other states nothing. Ports and the pair link act in the next tick. -/
def breach (s : State) : State :=
  match s.mst with
  | .active =>
    modDay (fun d =>
      { d with broken := true, brokenAt := if d.broken then d.brokenAt else s.now + 1, beatHeld := true, halted := true }) s
  | _ => s

/-- R150: the port controllers start no further frame: from the tick after detection. -/
def frameBarred (s : State) : Bool := s.day.broken && s.day.brokenAt ≤ s.now

/-- R150: in the tick after detection the checkpoint of the day is abandoned. -/
def breachTick (s : State) : State := if s.day.broken && s.day.brokenAt == s.now then abandonCheckpoint 1 s else s

/-- R149: the late record queue, its loss count and the BROKEN mark. -/
def lateRecord (code master pos sch act : Nat) (s : State) : State :=
  let s := setBit s fabStatus 0
  if s.late.length < 16 then
    { noteBorn 0x04010008 s.late.isEmpty s with late := s.late ++ [(word (code * 2 ^ 24 + master % 2048 * 2 ^ 13 + pos % 4096), sch, act)] }
  else addSat s fabStatus 15 8 1

/-- R149 to R151: a late event of engine `master` at plan word `pos`, logged with `detail`. -/
def lateWith (code master pos sch act detail : Nat) (s : State) : State :=
  breach (traceEngine master 4 0 (code + pos * 4096) 0
    (raise code detail (lateRecord code master pos (sch % 2 ^ 28) (act % 2 ^ 28) s)))

/-- A late event with the detail word of the 0x1xx range. -/
def lateEvent (code master pos sch act : Nat) (s : State) : State :=
  lateWith code master pos sch act (detailEngine master pos) s

/-- R435: the monitor is signalled a mismatch of a safety pair, with fault `code`: it removes torque and freezes. -/
def safetySignal (code detail : Nat) (s : State) : State :=
  raise code detail (setBit { s with saf := { s.saf with frozen := true } } safStatus (if code = 0x850 then 8 else 9))

/-- R217: what a mismatch of pair `k`, or a fault treated as one, does beyond its record: in ACTIVE the rows of R150, its first among
them. -/
def mismatchResponse (k : Nat) (s : State) : State :=
  match s.mst with
  | .active => breach (setBit (if (pairOf s k).safety then safetySignal 0x850 0 s else s) fabStatus 0)
  | .bench => setBit s fabStatus 0
  | _ => s

/-- R213: a mismatch record of 16 at most, its loss count, and its latched values. -/
def mismRecord (code k kind pos : Nat) (lead trail : Word) (s : State) : State :=
  if s.mism.length < 16 then
    { noteBorn 0x04030008 s.mism.isEmpty s with mism := s.mism ++ [(word (code * 2 ^ 24 + k * 2 ^ 15 + kind * 2 ^ 12 + pos % 4096), lead, trail)] }
  else addSat s cmpStatus 15 8 1

/-- The day tick of an instant of the running count. -/
def tickAt (s : State) (abs : Nat) : Nat := abs - (s.now - dayTick s)

/-! Events for engines (R108, R109). -/

/-- An event word. -/
def eventWord (src payload : Nat) : Word := word (src * 2 ^ 20 + payload % 2 ^ 20)

/-- R109: an event at engine `e`'s queue of 16. The plan word in the detail of a discarded one is free: no instruction raises it. -/
def enqueue (e : Nat) (w : Word) (s : State) : State :=
  let x := engine s e
  if x.evq.length < 16 then
    setEngine s e { x with evq := x.evq ++ [{ word := w, tick := s.now, sec := s.time.sec, ns64 := s.time.ns64 }] }
  else raise 0x182 (detailEngine e (Config.freeNat s.fresh)) (bump (setEngine s e { x with discards := x.discards + 1 }))

/-- R109: an event of a hardware source, at the engine it is bound to; an unbound source's event is discarded. -/
def postEvent (src payload : Nat) (s : State) : State :=
  match s.bindings.find? (·.1 == src) with
  | some (_, e) => enqueue e (eventWord src payload) s
  | none => s

/-! The mandate (R19, R375). -/

/-- R375, R376: whether the partner's loop and presence let this module drive. -/
def partnerClear (l : Link) : Bool :=
  l.part == .released || (l.part == .unknown && !l.partner)

/-- R375: the conditions on permit, presence, latch and partner. -/
def mandateMet (s : State) : Bool :=
  s.nwt.permit && s.link.inserted && s.link.latch && (partnerClear s.link || (s.link.estab && s.link.part == .claimed))

/-- R17, R18, R375: the module holds the mandate: in ACTIVE, and not by a claim for a midnight still to come. -/
def holds (s : State) : Bool := mandateMet s && s.mst == .active && s.link.claimDay.isNone

/-- R145: an engine rests in a wait, after DONE, halted or not loaded. -/
def restsNow (x : Engine) : Bool := x.halted || (match x.rest with | .run => false | _ => true)

/-- R205, R221: whether engine `e` leads a joined pair, or trails one. -/
def leadsJoined (s : State) (e : Nat) : Bool := e < 1024 && e % 2 == 0 && (pairOf s (e / 2)).joined
def trailsJoined (s : State) (e : Nat) : Bool := e < 1024 && e % 2 == 1 && (pairOf s (e / 2)).joined

end Sys2Proof.Machine
end

