-- ==== Sys2Proof/Machine/Flags.lean ====
section
/-! DEFINITION. Results and sticky flags of the arithmetic of R39 to R56 and R76 to R92: each function answers the result and
the flag it sets, if any (0 V, 1 S, 2 D). -/

namespace Sys2Proof.Machine

/-- A result and the flag it sets. -/
abbrev Res := Word × Option (Fin 3)

/-- R40: the saturation limits. -/
def maxP : Int := 2 ^ 35 - 1
def maxN : Int := -2 ^ 35

/-- R41: an int36 result, wrapping, V on overflow. -/
def wrap (v : Int) : Res := (wordI v, if v < maxN ∨ maxP < v then some 0 else none)

/-- R41: the nearer limit outside [MAXN, MAXP], with flag `f`. -/
def satWith (f : Fin 3) (v : Int) : Res :=
  if v < maxN then (wordI maxN, some f) else if maxP < v then (wordI maxP, some f) else (wordI v, none)

/-- R41: saturation with S. -/
def sat (v : Int) : Res := satWith 1 v

/-- A result that sets no flag. -/
def plainRes (w : Word) : Res := (w, none)

/-- R47: v / 2^n rounded half to even, or toward minus infinity. -/
def roundShift (floor : Bool) (v : Int) (n : Nat) : Int :=
  let q := v / 2 ^ n
  let r := v % 2 ^ n
  if floor then q
  else if 2 * r < 2 ^ n then q
  else if 2 ^ n < 2 * r then q + 1
  else if q % 2 = 0 then q else q + 1

/-- R53: the sums, differences, negations and absolute values. ADD and SUB set V by the int36 reading whatever their words hold: R53 gives
turn36 sums no flag, and R74 gives them no opcode of their own (DESIGN CHOICE, log entry 122). -/
def aluAdd (a b : Word) : Res := wrap (a.toInt + b.toInt)
def aluAdds (a b : Word) : Res := sat (a.toInt + b.toInt)
def aluSub (a b : Word) : Res := wrap (a.toInt - b.toInt)
def aluSubs (a b : Word) : Res := sat (a.toInt - b.toInt)
def aluNeg (a : Word) : Res := wrap (-a.toInt)
def aluNegs (a : Word) : Res := sat (-a.toInt)
def aluAbs (a : Word) : Res := wrap (Int.natAbs a.toInt)
def aluAbss (a : Word) : Res := sat (Int.natAbs a.toInt)

/-- R77: signed minimum and maximum; R83: the limit between two registers. -/
def aluMin (a b : Word) : Word := if a.toInt ≤ b.toInt then a else b
def aluMax (a b : Word) : Word := if a.toInt ≤ b.toInt then b else a
def aluLim (a b d : Word) : Word := aluMax a (aluMin d b)

/-- R80: how many bits below bit `n` equal `sign`, from the top, before the first that differs. -/
def runOf (w : Word) (sign : Bool) : Nat → Nat
  | 0 => 0
  | n + 1 => if w.getLsbD n == sign then runOf w sign n + 1 else 0

/-- R80: CLS and POPC. -/
def aluCls (a : Word) : Word := word (runOf a (a.getLsbD 35) 35)
def aluPopc (a : Word) : Word := word ((List.range 36).countP (fun i => a.getLsbD i))

/-- R55: a shift or rotate count. -/
def countOf (b : Word) : Nat := b.toNat % 256

/-- R55: the shifts and the rotate. -/
def aluShl (a b : Word) : Res :=
  let r := a <<< countOf b
  (r, if r.toInt = a.toInt * 2 ^ countOf b then none else some 0)
def aluShls (a b : Word) : Res := sat (a.toInt * 2 ^ countOf b)
def aluShr (a b : Word) : Word := a >>> countOf b
def aluSar (a b : Word) : Word := a.sshiftRight (countOf b)
def aluRot (a b : Word) : Word := a.rotateLeft (countOf b % 36)

/-- R79: wa / 2^n rounded. -/
def aluSrr (floor : Bool) (a b : Word) : Word := wordI (roundShift floor a.toInt (countOf b))

/-- R81: field position, length and effective length. -/
def fieldPos (b : Word) : Nat := b.toNat % 64
def fieldLen (b : Word) : Nat := Nat.min (b.toNat / 64 % 64) (36 - fieldPos b)

/-- R81: EXT, with or without sign extension from bit e − 1. -/
def aluExt (signed : Bool) (a b : Word) : Word :=
  let e := fieldLen b
  let v := a.toNat / 2 ^ fieldPos b % 2 ^ e
  if signed && e != 0 && v / 2 ^ (e - 1) == 1 then wordI ((v : Int) - 2 ^ e) else word v

/-- R81: INS. -/
def aluIns (a b d : Word) : Word :=
  if fieldLen b = 0 then d else word (splice d.toNat (fieldPos b + fieldLen b - 1) (fieldPos b) a.toNat)

/-- R82, R56: the conversion `k` of CVT. -/
def aluCvt (floor : Bool) (k : Nat) (a : Word) : Res :=
  match k with
  | 0 => sat (a.toInt * 2 ^ 30)
  | 1 => plainRes (wordI (roundShift floor a.toInt 30))
  | 2 => plainRes (word (a.toNat * 2 ^ 6))
  | 3 =>
    let v := roundShift floor a.toNat 6
    plainRes (if v = 2 ^ 30 then 0 else wordI v)
  | _ => plainRes (wordI ((BitVec.ofNat 24 a.toNat).toInt * 2 ^ 7))

/-- R84: SHI. -/
def aluShi (d : Word) (imm : BitVec 16) : Word := word (d.toNat % 2 ^ 20 * 2 ^ 16 + imm.toNat)

/-- R85: the condition of CMP that modifier `k` selects. -/
def cmpCond (k : Nat) (a b : Word) : Bool :=
  match k with
  | 0 => a == b
  | 1 => a != b
  | 2 => a.toInt < b.toInt
  | 3 => b.toInt ≤ a.toInt
  | 4 => a.toInt ≤ b.toInt
  | 5 => b.toInt < a.toInt
  | 6 => a.toNat < b.toNat
  | 7 => b.toNat ≤ a.toNat
  | 8 => (a - b).toInt < 0
  | 9 => 0 ≤ (a - b).toInt
  | 10 => (a &&& b) != 0
  | _ => (a &&& b) == 0

/-- R86: the logic of PLOG. -/
def plogOf (k : Nat) (x y : Bool) : Bool :=
  match k with
  | 0 => x && y
  | 1 => x || y
  | 2 => x != y
  | _ => x

/-- R53, R78, R43: the products. -/
def aluMul (a b : Word) : Res := wrap (a.toInt * b.toInt)
def aluMuls (a b : Word) : Res := sat (a.toInt * b.toInt)
def aluMulh (a b : Word) : Word := wordI (a.toInt * b.toInt / 2 ^ 36)
def aluPmul (floor : Bool) (a b : Word) : Res := sat (roundShift floor (a.toInt * b.toInt) 30)
def aluTmul (floor : Bool) (a b : Word) : Word := wordI (roundShift floor (a.toNat * b.toInt) 30)

/-- R54: the int36 quotient. -/
def aluDiv (a b : Word) : Res :=
  if b = 0 then
    (if a = 0 then 0 else if a.toInt < 0 then wordI maxN else wordI maxP, some 2)
  else satWith 2 (a.toInt.tdiv b.toInt)

/-- R54, R76: the int36 remainder, with D exactly where DIV sets it. -/
def aluRem (a b : Word) : Res := (if b = 0 then a else wordI (a.toInt.tmod b.toInt), (aluDiv a b).2)

/-- R54: the pu36 quotient. -/
def aluPdiv (a b : Word) : Res :=
  if b = 0 then
    (if a = 0 then 0 else if a.toInt < 0 then wordI maxN else wordI maxP, some 2)
  else satWith 2 ((a.toInt * 2 ^ 30).tdiv b.toInt)

/-- R45: the accumulator's bounds. -/
def accMax : Int := 2 ^ 79 - 1
def accMin : Int := -2 ^ 79

/-- R45, R89: an accumulator after a multiply-accumulate, and whether it saturated. -/
def accAdd (a : BitVec 80) (zero neg : Bool) (prod : Int) : BitVec 80 × Bool :=
  let v : Int := (if zero then 0 else a.toInt) + (if neg then -prod else prod)
  if v < accMin then (BitVec.ofInt 80 accMin, true)
  else if accMax < v then (BitVec.ofInt 80 accMax, true) else (BitVec.ofInt 80 v, false)

/-- R45, R91: extraction, int36 or pu36. -/
def accExtract (floor pu : Bool) (a : BitVec 80) : Res := sat (if pu then roundShift floor a.toInt 30 else a.toInt)

/-- R46: a word of an accumulator, 0 low, 1 middle, 2 high. -/
def accWord (a : BitVec 80) (part : Nat) : Word :=
  match part with
  | 0 => a.setWidth 36
  | 1 => (a >>> 36).setWidth 36
  | _ => ((a >>> 72).setWidth 8).signExtend 36

/-- R92: an accumulator with one part written. -/
def accSet (a : BitVec 80) (part : Nat) (v : Word) : BitVec 80 :=
  match part with
  | 0 => BitVec.ofNat 80 (splice a.toNat 35 0 v.toNat)
  | 1 => BitVec.ofNat 80 (splice a.toNat 71 36 v.toNat)
  | _ => BitVec.ofNat 80 (splice a.toNat 79 72 v.toNat)

end Sys2Proof.Machine
end

