-- ==== Sys2Proof/Machine/Operands.lean ====
section
/-! DEFINITION. Engine registers and predicates, results in flight and their landing, loops and brackets, memory as an engine
reaches it (R64 to R73, R101 to R104, R113 to R115, R121 to R134). -/

namespace Sys2Proof.Machine

/-! Registers, predicates, flags (R64, R65). -/

/-- w0 reads zero. -/
def wGet (x : Engine) (r : Nat) : Word := if r % 64 = 0 then 0 else tabGet 0 x.w (r % 64)

/-- A write to w0 is discarded. -/
def wSet (r : Nat) (v : Word) (x : Engine) : Engine := if r % 64 = 0 then x else { x with w := tabSet 0 x.w (r % 64) v }

/-- p0 reads true. -/
def pGet (x : Engine) (n : Nat) : Bool := n % 8 == 0 || x.p.getLsbD (n % 8)

/-- A write to p0 is discarded. -/
def pSet (n : Nat) (v : Bool) (x : Engine) : Engine :=
  if n % 8 = 0 then x else { x with p := BitVec.ofNat 8 (splice x.p.toNat (n % 8) (n % 8) (if v then 1 else 0)) }

/-- R65: the predicates as PMOV writes them. -/
def predWord (x : Engine) : Word := word (x.p.toNat / 2 * 2 + 1)

/-- R65: the flags as RDF writes them. -/
def flagWord (x : Engine) : Word :=
  word ((if x.fV then 1 else 0) + (if x.fS then 2 else 0) + (if x.fD then 4 else 0))

/-- The operands a, b and d of a register form. -/
def opA (x : Engine) (f : RegForm) : Word := wGet x f.a.toNat
def opB (x : Engine) (f : RegForm) : Word := wGet x f.b.toNat
def opD (x : Engine) (f : RegForm) : Word := wGet x f.d.toNat
def immD (x : Engine) (f : ImmForm) : Word := wGet x f.d.toNat

/-- R67, R104: the instruction's condition holds and no enclosing loop's condition was false. -/
def condHolds (x : Engine) (neg : Bool) (pred : BitVec 3) : Bool :=
  (pGet x pred.toNat != neg) && x.loops.all (fun l => !l.dead)

/-- R47, R75: modifier bit [3] selects floor. -/
def floorOf (f : RegForm) : Bool := f.m.getLsbD 3

/-! Memory as engines reach it. -/

/-- R166, R385: the arbitration point of a memory word: banks 0-63, local data 64-1087, the triple store 1088, register
blocks 1089-1106, then the plan memories, and last what has no target. -/
def pointOf (a : Word) : Nat :=
  let n := a.toNat
  if isShared n then n / 0x20000
  else if isLocal n then 64 + (n - 0x01000000) / 0x2000
  else if 0x03000000 ≤ n && n ≤ 0x0303FFFF then 1088
  else if isReg n then 1089 + (n / 0x10000 - 0x400)
  else if isPlan n then 1107 + (n - 0x02000000) / 0x1000
  else 2131

/-- R383: whether the state map names the word. -/
def inStateMap (s : State) (a : Nat) : Bool := s.link.stateMap.any fun r => r.1 ≤ a && a < r.1 + r.2

/-- A sorted list of addresses with `a` in it. -/
def addrInsert (a : Nat) : List Nat → List Nat
  | [] => [a]
  | x :: t => if a < x then a :: x :: t else if a = x then x :: t else x :: addrInsert a t

/-- R385: how many values the capture buffer of a point keeps. -/
def keptAt (s : State) (p : Nat) : Nat := s.link.kept.countP fun k => pointOf (word k.1) == p

/-- R384, R385: a write-set write that is served sets the word's dirty bit; on a frozen word not yet streamed the point's
capture buffer keeps the value from before, and an overflow of its 1,024 words abandons the checkpoint. -/
def markWrite (a : Nat) (old : Word) (s : State) : State :=
  if !inStateMap s a then s
  else
    let s := modLink (fun l => { l with dirty := addrInsert a l.dirty }) s
    if s.link.stream && s.link.frozen.contains a && !s.link.kept.any (·.1 == a) then
      if keptAt s (pointOf (word a)) < 1024 then modLink (fun l => { l with kept := l.kept ++ [(a, old)] }) s
      else abandonCheckpoint 2 (raise 0x70A (s.day.n % 2 ^ 36) (setBit s pairStatus 5))
    else s

/-- A write to shared memory, local data or plan memory by `master`; a plant engine's write is of the write set, and a
foreign write to the local data of a joined pair's leading engine reaches the trailing engine D ticks later (R205). -/
def memWrite (master a : Nat) (v : Word) (s : State) : State :=
  let s := if master < 1024 then markWrite a (memGet s a) s else s
  let s := memSet s a v
  let e := (a - 0x01000000) / 0x2000
  if isLocal a && e % 2 == 0 && master != e && ((pairOf s (e / 2)).joined || (pairOf s (e / 2)).mirror) then
    { s with mirrors := s.mirrors ++ [(s.now + (pairOf s (e / 2)).d, a + 0x2000, v)] }
  else s

/-- R569: what a read of a memory word gives, with what its check bits cause; `plant` is the engine and plan word of a
plant engine's read, whose uncorrectable error is handled as a late event. -/
def memRead (plant : Option (Nat × Nat)) (a : Nat) (s : State) : Word × State :=
  match chkOf s a with
  | .ok => (memGet s a, s)
  | .single =>
    (memGet s a, modTelem (fun t => { t with corr := t.corr + 1 })
      (raise 0x130 a (addSat { s with chk := tabSet .ok s.chk a .ok } fabMemErr 35 18 1)))
  | .uncor =>
    let s := modTelem (fun t => { t with uncor := t.uncor + 1 }) (addSat s fabMemErr 17 0 1)
    (poison, match plant with
      | some (e, pos) => lateWith 0x131 e pos (dayTick s) (dayTick s) a s
      | none => raise 0x131 a s)

/-! Landing (R71 to R73, R90, R92). -/

/-- A flag is set by a result landing at tick `land`. -/
def setFlag (f : Fin 3) (land : Nat) (x : Engine) : Engine :=
  match f with
  | 0 => { x with fV := true, setV := land + 1 }
  | 1 => { x with fS := true, setS := land + 1 }
  | _ => { x with fD := true, setD := land + 1 }

/-- R88, R72: CLRF landing at tick `land`; a flag set in the same tick stays set. -/
def clearFlags (m land : Nat) (x : Engine) : Engine :=
  { x with
    fV := x.fV && !(m % 2 == 1 && x.setV != land + 1)
    fS := x.fS && !(m / 2 % 2 == 1 && x.setS != land + 1)
    fD := x.fD && !(m / 4 % 2 == 1 && x.setD != land + 1) }

/-- An accumulator by number. -/
def accOf (x : Engine) (one : Bool) : BitVec 80 := if one then x.ac1 else x.ac0
def accPut (one : Bool) (v : BitVec 80) (x : Engine) : Engine := if one then { x with ac1 := v } else { x with ac0 := v }

/-- R89, R45: a multiply-accumulate lands. -/
def landMac (one zero neg : Bool) (prod : Int) (land : Nat) (x : Engine) : Engine :=
  let r := accAdd (accOf x one) zero neg prod
  if r.2 then setFlag 1 land (accPut one r.1 x) else accPut one r.1 x

/-- One effect of a result of engine `e` landing at tick `land`; `pos` is its plan word. -/
def applyEffect (e land pos : Nat) (f : Effect) (s : State) : State :=
  match f with
  | .reg r v => modEngine e (wSet r v) s
  | .pred n v => modEngine e (pSet n v) s
  | .flag g => modEngine e (setFlag g land) s
  | .clear m => modEngine e (clearFlags m land) s
  | .mac ac zero neg prod => modEngine e (landMac ac zero neg prod land) s
  | .acm ac part v => modEngine e (fun x => accPut ac (accSet (accOf x ac) part v) x) s
  | .load off d =>
    let r := memRead (if e < 1024 then some (e, pos) else none) (localAddr e off) s
    modEngine e (wSet d r.1) r.2
  | .store off v => memWrite e (localAddr e off) v s

/-- Every effect of a result, in order. -/
def applyAll (e land pos : Nat) (fs : List Effect) (s : State) : State := fs.foldl (fun t f => applyEffect e land pos f t) s

/-- A register result with the flag its computation sets. -/
def resEffects (d : BitVec 6) (r : Res) : List Effect :=
  match r.2 with
  | some f => [.reg d.toNat r.1, .flag f]
  | none => [.reg d.toNat r.1]

/-! R72: of two writes of one register or predicate in a tick, that of the later instruction is kept. -/

/-- What an effect writes: a register, or 64 and a predicate. -/
def effKey : Effect → Option Nat
  | .reg r _ | .load _ r => some (r % 64)
  | .pred n _ => some (64 + n % 8)
  | _ => none

/-- In tick `now` an instruction later than place `ord` has already written what the effect writes. -/
def superseded (now ord : Nat) (x : Engine) (f : Effect) : Bool :=
  x.lastLand == now + 1 && x.landed.any fun l => ord < l.2 && effKey f == some l.1

/-- The effects of a result of the instruction at place `ord` that take place in tick `now`: a superseded load is made, and its word
discarded. -/
def surviving (now ord : Nat) (x : Engine) (fs : List Effect) : List Effect :=
  fs.filterMap fun f => if superseded now ord x f then (match f with | .load off _ => some (.load off 0) | _ => none) else some f

/-- What the instruction at place `ord` has written in tick `now`. -/
def noteLanded (now ord : Nat) (fs : List Effect) (x : Engine) : Engine :=
  { x with lastLand := now + 1
           landed := (fs.filterMap effKey).map (·, ord) ++ (if x.lastLand = now + 1 then x.landed else []) }

/-! Results in flight. -/

/-- R72: a result joins those in flight, ordered by landing tick and then by release. -/
def flyInsert (l : Landing) : List Landing → List Landing
  | [] => [l]
  | y :: t => if l.land < y.land ∨ (l.land = y.land ∧ l.ord < y.ord) then l :: y :: t else y :: flyInsert l t

/-- A result of class `cls`, of the instruction at place `ord` of the release order, lands at tick `land`. -/
def addLanding (land ord cls pos : Nat) (capture : Bool) (fs : List Effect) (x : Engine) (entry : Bool := false) : Engine :=
  { x with fly := flyInsert { land := land, ord := ord, cls := cls, word := pos, effs := fs, shared := false,
                              capture := capture, due := land, entry := entry } x.fly }

/-- R73, R90: what takes effects in release order: an accumulator (1, 2), the local memory (3). -/
def orderedUnit (f : Effect) : Nat :=
  match f with
  | .mac ac _ _ _ | .acm ac _ _ => if ac then 2 else 1
  | .load _ _ | .store _ _ => 3
  | _ => 0

/-! Plan position, loops and brackets. -/

/-- R101 to R103: the position after the instruction at `p − 1` among `n`, the loop stack, and the iteration indices to write. -/
def advanceIn (n : Nat) : List LoopEnt → Nat → Nat × List LoopEnt × List Effect
  | [], p => (p % n, [], [])
  | t :: rest, p =>
    if p = t.start + t.len then
      if 0 < t.left then
        (t.start, { t with left := t.left - 1, k := t.k + 1 } :: rest,
          if t.idx = 0 || t.dead then [] else [.reg t.idx (word (t.k + 1))])
      else advanceIn n rest p
    else (p % n, t :: rest, [])

/-- The same for a plant engine's plan of 4,096 words, and for a supervisor engine's instruction addresses. -/
abbrev advance : List LoopEnt → Nat → Nat × List LoopEnt × List Effect := advanceIn 4096
abbrev advanceSup : List LoopEnt → Nat → Nat × List LoopEnt × List Effect := advanceIn (2 ^ 36)

/-- The place of the innermost loop's LOOP in the release order (R72, R102). -/
def loopOrd (ls : List LoopEnt) : Nat :=
  match ls with
  | l :: _ => l.ord
  | [] => 0

/-- The engine after an instruction released now: its position and loops, an iteration index landing 1 tick later. -/
def stepPos (now : Nat) (x : Engine) : Engine :=
  let a := advance x.loops (x.pos + 1)
  let x := { x with pos := a.1, loops := a.2.1 }
  if a.2.2.isEmpty then x else addLanding (now + 1) (loopOrd a.2.1) 0 x.pos false a.2.2 x

/-- R114: an instruction counts in an open bracket; the 32nd closes it with fault 0x183. -/
def countLock (e pos : Nat) (s : State) : State :=
  let x := engine s e
  if x.lockOpen then
    if x.lockCnt + 1 < 32 then setEngine s e { x with lockCnt := x.lockCnt + 1 }
    else raise 0x183 (detailEngine e pos) (setEngine s e { x with lockOpen := false, lockCnt := 0 })
  else s

/-! Pair input and transactions of a joined pair (R208 to R211). -/

/-- R211: engine `e` of a joined pair makes a transaction, for the comparator. -/
def addTx (e kind pos : Nat) (fields : List Word) (s : State) : State :=
  let t : Tx := { tick := s.now, kind := kind, fields := fields, word := pos }
  if leadsJoined s e then modPair (e / 2) (fun p => { p with lead := p.lead ++ [t] }) s
  else if trailsJoined s e then modPair (e / 2) (fun p => { p with trail := p.trail ++ [t] }) s
  else s

/-- R210: entries held in the pair input buffer. -/
def bufHeld (p : Pair) : Nat := p.buf.foldl (fun n b => if b.lost then n else n + b.n) 0

/-- R208, R210: an asynchronous input of a leading engine's instruction at plan word `pos`, due at tick `due`, is captured; into a full buffer of 64 entries it is
lost, with fault 0x303 handled as a mismatch. An input of several words that does not fit whole is lost whole, and the record of a lost or
wrong input latches 0 for both values (DESIGN CHOICE, log entries 163, 164). -/
def captureDue (e n due pos ord : Nat) (inp : Input) (s : State) : State :=
  if !leadsJoined s e then s
  else
    let k := e / 2
    let p := pairOf s k
    if bufHeld p + n ≤ 64 then
      let s := setPair s k { p with buf := p.buf ++ [{ tick := s.now, inp := inp, n := n, lost := false, due := due, word := pos, ord := ord }] }
      rcMax s (cmpPair k) 13 8 (bufHeld p + n)
    else
      let s := setPair s k { p with buf := p.buf ++ [{ tick := s.now, inp := inp, n := n, lost := true, due := due, word := pos, ord := ord }] }
      mismatchResponse k (mismRecord 0x303 k 7 pos 0 0 (raise 0x303 k (setBit s cmpStatus 1)))

/-- The end of the wait last reached, at place `ord` of the release order, captured in its tick. -/
def capture (e n ord : Nat) (inp : Input) (s : State) : State :=
  captureDue e n s.now (engine s e).waitWord ord inp s

end Sys2Proof.Machine
end

