-- ==== Sys2Proof/Machine/Gate.lean ====
section
/-! DEFINITION. The gates: fixed rules, region table, default map and violation records (R490 to R498). -/

namespace Sys2Proof.Machine

/-- How an access acts on its word: a read, a write, both (CAS, R494), or a read in peek form (R12). -/
inductive Access where
  | read | write | both | peek
deriving DecidableEq, Repr

def Access.reads : Access → Bool
  | .write => false
  | _ => true

def Access.writes : Access → Bool
  | .write | .both => true
  | _ => false

/-- R30: the masters beside the plant engines. -/
def masterSig : Nat := 1028
def masterPort : Nat := 1029
def masterLink : Nat := 1030
def masterDebug : Nat := 1031

def isSupMaster (m : Nat) : Bool := 1024 ≤ m && m ≤ 1027

/-- R206: the engine whose local data or plan memory a word belongs to. -/
def ownerOf (n : Nat) : Option Nat :=
  if isLocal n then some ((n - 0x01000000) / 0x2000) else if isPlan n then some ((n - 0x02000000) / 0x1000) else none

/-- R206, R220: engine `e` is closed to other masters: it trails a joined pair, or one being joined in day A. -/
def closedEngine (s : State) (e : Nat) : Bool := e % 2 == 1 && ((pairOf s (e / 2)).joined || (pairOf s (e / 2)).mirror)

/-- R493, rule 8. -/
def trailRefused (s : State) (m n : Nat) (acc : Access) : Bool :=
  match ownerOf n with
  | some e => closedEngine s e && m != e && !(m == masterDebug && acc == .peek)
  | none => false

/-- R410: the master is the leading engine of a joined pair of ROLE safety. -/
def safetyLeader (s : State) (m : Nat) : Bool := leadsJoined s m && (pairOf s (m / 2)).safety

/-- R493, rule 5: SAF_DRVd_CMD and SAF_CONNc_RXj. -/
def isSafeCommand (n : Nat) : Bool := (0x04080100 ≤ n && n ≤ 0x0408013F) || (0x04080400 ≤ n && n ≤ 0x040807FF)

/-- R493: the SEC, GATE and UPD blocks. -/
def isGuardedBlock (n : Nat) : Bool := n / 0x10000 == 0x40B || n / 0x10000 == 0x40C || n / 0x10000 == 0x40D

/-- R493, R11: the first fixed rule that refuses, as (RULE, REGION) of a violation record. -/
def fixedRule (s : State) (m : Nat) (secure : Bool) (acc : Access) (n : Nat) : Option (Nat × Nat) :=
  if !isMapped n then some (3, 0)
  else if isReg n && (regDesc n).isNone then some (3, 0)
  else if acc.writes && n / 0x10000 == 0x411 then some (2, 2)
  else if isRaw n && !secure then some (2, 3)
  else if acc.writes && 0x03000000 ≤ n && n ≤ 0x030083FF && !(isSupMaster m && secure) then some (2, 4)
  else if acc.writes && isSafeCommand n && !safetyLeader s m then some (2, 5)
  else if acc.writes && isGuardedBlock n && !secure then some (2, 6)
  else if acc.writes && isPlan n && s.mst != .daybreak then some (2, 7)
  else if trailRefused s m n acc then some (2, 8)
  else none

/-- R494: region entry `k` matches an access. -/
def regionMatches (s : State) (k m n : Nat) : Bool :=
  bitOf s (gateR k 2) 35 && getF s (gateR k 0) 31 0 ≤ n && n ≤ getF s (gateR k 1) 31 0
    && getF s (gateR k 2) 21 11 ≤ m && m ≤ getF s (gateR k 2) 10 0

/-- R494: a matching entry grants the access. -/
def regionGrants (s : State) (k : Nat) (secure : Bool) (acc : Access) : Bool :=
  bitOf s (gateR k 2) (if secure then 31 else 30) && (!acc.reads || bitOf s (gateR k 2) 33)
    && (!acc.writes || bitOf s (gateR k 2) 32)

/-- R496: the default map. -/
def defaultGrants (m : Nat) (secure : Bool) (acc : Access) (n : Nat) : Bool :=
  let normalRead := isShared n || isVoted n || (isReg n && n / 0x10000 != 0x40C && n / 0x10000 != 0x40D)
  if isSupMaster m then
    secure || ((!acc.reads || normalRead) && (!acc.writes || isShared n))
  else if m = masterLink then isShared n || isLocal n || isVoted n
  else if m = masterDebug then acc == .peek && (secure || normalRead)
  else false

/-- R492 to R496: how a gate refuses an access, as (RULE, REGION); none when it grants it. The first matching region entry
decides, and the default map where none matches. -/
def gate (s : State) (m : Nat) (secure : Bool) (acc : Access) (a : Word) : Option (Nat × Nat) :=
  match fixedRule s m secure acc a.toNat with
  | some r => some r
  | none =>
    match (List.range 256).find? (fun k => regionMatches s k m a.toNat) with
    | some k => if regionGrants s k secure acc then none else some (0, k)
    | none => if defaultGrants m secure acc a.toNat then none else some (1, 0)

/-- R498: a violation record. -/
def violWord (seq m : Nat) (secure write : Bool) (rule region : Nat) (walk : Bool) : Word :=
  word (seq % 4096 * 2 ^ 24 + m % 2048 * 2 ^ 13 + (if secure then 2 ^ 12 else 0) + (if write then 2 ^ 11 else 0)
    + rule * 2 ^ 9 + (if walk then 2 ^ 8 else 0) + region % 256)

/-- R498: where a record stands among those of its tick: its arbitration point, one without a target last, and its master. -/
def violKey (r : Word × Nat × Nat) : Nat × Nat :=
  let a := r.2.1
  let bare := slice r.1.toNat 10 9 == 3 && !isReg a
  (if bare then 2131 else pointOf (word a), slice r.1.toNat 23 13)

/-- R498: a record among those of its tick, in the order of their points and masters. -/
def violInsert (x : Word × Nat × Nat) : List (Word × Nat × Nat) → List (Word × Nat × Nat)
  | [] => [x]
  | y :: t =>
    if (violKey x).1 < (violKey y).1 ∨ ((violKey x).1 = (violKey y).1 ∧ (violKey x).2 < (violKey y).2) then x :: y :: t
    else y :: violInsert x t

/-- The SEQ of a record. -/
def violSeqOf (r : Word × Nat × Nat) : Nat := slice r.1.toNat 35 24

/-- R498: the records of one tick are numbered in their order: the numbers `seqs` for `rs`. -/
def violNumber (seqs : List Nat) (rs : List (Word × Nat × Nat)) : List (Word × Nat × Nat) :=
  (rs.zip seqs).map fun x => (word (splice x.1.1.toNat 35 24 x.2), x.1.2)

/-- A SEQ as renumbered, by pairs of old and new. -/
def reSeq (m : List (Nat × Nat)) (n : Nat) : Nat := ((m.find? (·.1 == n)).map (·.2)).getD n

/-- R498, R499, R503: a supervisor engine's notices, and a cause that names a record, follow the numbers of the records. -/
def reSeqSup (m : List (Nat × Nat)) (u : Sup) : Sup :=
  let c := u.cause.toNat
  { u with notices := u.notices.map (reSeq m)
           cause := if 1 ≤ slice c 7 0 ∧ slice c 7 0 ≤ 4 then word (splice c 21 10 (reSeq m (slice c 21 10))) else u.cause }

/-- R498: the record joins those of its tick in the order of their points and masters; the last of them is counted lost where the queue
of 32 is full. -/
def queueViol (rec : Word) (a : Nat) (s : State) : State :=
  let k := s.viol.length - s.tk.viols
  let x := (rec, a, dayTick s)
  let tail := s.viol.drop k ++ [x]
  let new := violInsert x (s.viol.drop k)
  let m := (new.map violSeqOf).zip (tail.map violSeqOf)
  let all := s.viol.take k ++ violNumber (tail.map violSeqOf) new
  let t := noteBorn 0x040C0008 s.viol.isEmpty s
  let t := { t with
    viol := all.take 32
    sup := if new = tail then s.sup else s.sup.map fun u => (u.1, reSeqSup m u.2)
    tk := { t.tk with viols := Nat.min (s.tk.viols + 1) (32 - k), seq := reSeq m (violSeqOf x) } }
  if s.viol.length < 32 then t else addSat t gateStatus 15 8 1

/-- R498, R206: a refusal: its record, the count of all refusals, the mark, and fault 0xB01 for a master's first of the
day; one of rule 8 also raises 0x304. The record carries the current SEQ, and SEQ moves on. -/
def violate (m : Nat) (secure write : Bool) (r : Nat × Nat) (walk : Bool) (a : Word) (s : State) : State :=
  let s := queueViol (violWord s.violSeq m secure write r.1 r.2 walk) a.toNat s
  let s := modTelem (fun t => { t with refusals := t.refusals + 1 }) (addSat (setBit s gateStatus 0) gateCnt 35 0 1)
  let s := { s with violSeq := (s.violSeq + 1) % 4096 }
  let s := if r = (2, 8) then
      raise 0x304 ((ownerOf a.toNat).getD 0 / 2) (setBit s cmpStatus 3)
    else s
  if s.violMasters.contains m then s else raise 0xB01 m { s with violMasters := s.violMasters ++ [m] }

/-! Arbitration (R30 to R32, R113, R134, R137, R145, R146). -/

/-- R31, R134: engine `e` accesses its own local data point in this tick: a class L access lands in the next. -/
def ownAccess (s : State) (e : Nat) : Bool :=
  (engine s e).fly.any fun l => l.due == s.now + 1 && l.effs.any (orderedUnit · == 3)

/-- R31, R134, R146: the point cannot serve a numbered request now: it has served one in this tick, the engine's own local
access holds it, or it is the plan memory of an engine that runs. A request without a target has no point to wait for. -/
def pointHeld (s : State) (point : Nat) : Bool :=
  point != 2131 && (tabGet 0 s.served point == s.now + 1
    || (64 ≤ point && point < 1088 && ownAccess s (point - 64))
    || (1107 ≤ point && point < 2131 && !restsNow (engine s (point - 1107))))

/-- R31: a request of a plant engine below master `m` is present at the point. -/
def plantPresent (s : State) (point m : Nat) : Bool :=
  s.reqs.any fun r => r.acc ≤ s.now && pointOf r.addr == point && r.master < m

/-- R30, R31: an access that found the point taken retries in this tick and comes first: its master is lower, or shares the number
and its unit is lower. -/
def waiterFirst (s : State) (point m sub : Nat) : Bool :=
  s.waiters.any fun w => w.tick == s.now && w.point == point && (w.master < m || (w.master == m && w.sub < sub))

/-- R31: words of an operation of a lower master, of a lower unit that shares its number, or of the unit itself have still to be served at
the point. -/
def owedFirst (s : State) (point m sub : Nat) : Bool :=
  s.owed.any fun w => w.point == point && (w.master < m || (w.master == m && w.sub ≤ sub))

/-- R113: the bank is held against supervisor engine or debug master `m` by another supervisor engine's open bracket. -/
def bankHeld (s : State) (e n : Nat) : Bool :=
  isShared n && (isSupMaster e || e == masterDebug) && [1024, 1025, 1026, 1027].any fun x =>
    x != e && (engine s x).lockOpen && (supOf s x).banks.contains (n / 0x20000)

/-- R145: an engine's local data and plan memory serve masters from 1024 on only while the engine rests. -/
def ownerBusy (s : State) (n : Nat) : Bool :=
  match ownerOf n with
  | some x => !restsNow (engine s x)
  | none => false

/-- R31, R113, R134, R145: an access of unit `sub` of master `m` to word address `a` must wait: its point serves another access in
this tick, the engine that owns the word runs, or a bracket holds the bank. An address without a target has no point. -/
def blockedAt (s : State) (m sub a : Nat) : Bool :=
  let p := pointOf (word a)
  p != 2131 && (pointHeld s p || plantPresent s p m || waiterFirst s p m sub || owedFirst s p m sub
    || (1024 ≤ m && (ownerBusy s a || bankHeld s m a)))

/-- R32: a background access to word address `a` is granted: no numbered master's request was present at its point as the tick began, and
the point has served none; a request that arrives in the tick waits one. -/
def backgroundFree (s : State) (a : Nat) : Bool :=
  let p := pointOf (word a)
  !pointHeld s p && !s.reqs.any (fun r => r.acc < s.now && pointOf r.addr == p)
    && !s.waiters.any (fun w => w.tick == s.now && w.point == p) && !s.owed.any (·.point == p)

/-- R31: an access to word address `a` takes its arbitration point for this tick. -/
def touch (a : Nat) (s : State) : State :=
  { s with served := tabSet 0 s.served (pointOf (word a)) (s.now + 1), tk := { s.tk with touched := a :: s.tk.touched } }

/-- No access belongs to the command that begins. -/
def untouched (s : State) : State := { s with tk := { s.tk with touched := [] } }

/-- R32: a background access, once granted, holds the point for its tick. -/
def grantBackground (a : Nat) (s : State) : State := untouched (touch a s)

/-- R31: an access that must wait retries in the next tick; one that a bracket holds (R113) is no request at its point meanwhile. -/
def waitFor (m sub : Nat) (as : List Nat) (s : State) : State :=
  let ws := (as.filter fun a => blockedAt s m sub a && !bankHeld s m a).map fun a =>
    ({ tick := s.now + 1, point := pointOf (word a), master := m, sub := sub } : Waiter)
  { s with waiters := s.waiters ++ ws.filter fun w => !s.waiters.contains w }

/-- R31: the accesses that led from `s` to `t` are made together: whether each of their points is free in this tick. -/
def freeFor (m sub : Nat) (s t : State) : Bool := !t.tk.touched.any (blockedAt s m sub)

/-- R31: the words at addresses `as` that unit `sub` of master `m` has still to access at each point, when `first` of them at each are made. -/
def owe (m sub first : Nat) (as : List Nat) : List Owed :=
  let ps := as.eraseDups.map fun a => pointOf (word a)
  (ps.eraseDups.filter (· != 2131)).filterMap fun p =>
    let n := ps.count p
    if first < n then some { point := p, master := m, sub := sub, left := n - first } else none

/-- R31: an operation whose first access at each point has been made in this tick. -/
def settle (m sub : Nat) (as : List Nat) (t : State) : State :=
  { t with owed := t.owed ++ owe m sub 1 t.tk.touched, tk := { t.tk with touched := as } }

/-- R31: at the end of a tick, whether its point serves this word: it has served no other access, and no lower request is there. -/
def owedServed (s : State) (w : Owed) : Bool :=
  !pointHeld s w.point && !plantPresent s w.point w.master
    && !s.owed.any fun v => v.point == w.point && (v.master < w.master || (v.master == w.master && v.sub < w.sub))

/-- R197: the rank of the change loader, which carries no master number: below every numbered master and above background activity. -/
def masterLoader : Nat := 1032

/-- R197: the change loader writes one word a tick at the points of a cluster, in their order. -/
def loaderTurn (s : State) (w : Owed) : Bool :=
  w.master != masterLoader || s.owed.find? (fun v => v.master == w.master && v.sub == w.sub) == some w

/-- R31, R197: at the end of a tick each free point serves one word of those that wait there. -/
def serveOwed (s : State) : State :=
  { s with owed := s.owed.filterMap fun w =>
      if owedServed s w && loaderTurn s w then (if w.left ≤ 1 then none else some { w with left := w.left - 1 }) else some w }

/-- R31: what `f` does by its accesses; or, where one of them must wait, nothing in this tick. -/
def ifFree (m sub : Nat) (f : State → State) (s : State) : State :=
  let t := f (untouched s)
  if freeFor m sub s t then settle m sub s.tk.touched t else waitFor m sub t.tk.touched s

/-- R31: the same for a command. -/
def whenFree (m sub : Nat) (f : State → Host.Outcome State Fault Refusal) (s : State) : Host.Outcome State Fault Refusal :=
  match f (untouched s) with
  | .next t => .next (if freeFor m sub s t then settle m sub s.tk.touched t else waitFor m sub t.tk.touched s)
  | o => o

/-! Memory as a unit reaches it under its own master number (R30, R35, R492). -/

/-- A read by master `m`; nothing where the gate refuses it, or where no memory word answers. -/
def mRead (m a : Nat) (s : State) : Option Word × State :=
  let s := touch a s
  match gate s m false .read (word a) with
  | some r => (none, violate m false false r false (word a) s)
  | none =>
    if isShared a || isLocal a || isPlan a then
      let r := memRead none a s
      (some r.1, r.2)
    else (none, s)

/-- A write by master `m`; a refused one has no effect beyond its record. -/
def mWrite (m a : Nat) (v : Word) (s : State) : State :=
  let s := touch a s
  match gate s m false .write (word a) with
  | some r => violate m false true r false (word a) s
  | none => if isShared a || isLocal a then memWrite m a v s else s

/-- R499: what `t` has done from `s` on, with the unit's own fault where a gate refused an access of it. -/
def ownFault (fault : State → State) (s t : State) : State := if t.telem.refusals = s.telem.refusals then t else fault t

/-- Words from `a` on; nothing where any of them is refused. -/
def mReads (m : Nat) : Nat → Nat → State → Option (List Word) × State
  | _, 0, s => (some [], s)
  | a, n + 1, s =>
    let h := mRead m a s
    let t := mReads m (a + 1) n h.2
    (match h.1, t.1 with | some w, some ws => some (w :: ws) | _, _ => none, t.2)

/-- Words written from `a` on, in order. -/
def mWrites (m a : Nat) (ws : List Word) (s : State) : State :=
  (ws.mapIdx fun i w => (a + i, w)).foldl (fun t x => mWrite m x.1 x.2 t) s

end Sys2Proof.Machine
end

