-- ==== Sys2Proof/Machine/Irig.lean ====
section
/-! DEFINITION. IRIG-B B004 frames (R315): the pulses of a frame, their classes, the time they encode and the control-function
extension. -/

namespace Sys2Proof.Machine

/-- R315: the meanings of a pulse. -/
inductive Pulse where
  | zero | one | mark
deriving DecidableEq, Repr

/-- R315: a pulse's class by its width in nanoseconds; any other width is a frame error. -/
def pulseOf (ns : Nat) : Option Pulse :=
  if 1500000 ≤ ns ∧ ns ≤ 2500000 then some .zero
  else if 4500000 ≤ ns ∧ ns ≤ 5500000 then some .one
  else if 7500000 ≤ ns ∧ ns ≤ 8500000 then some .mark
  else none

/-- The number that `n` pulses from position `p` encode, the least first. -/
def pulseBits (l : List Pulse) (p n : Nat) : Nat :=
  (List.range n).foldl (fun v i => if l[p + i]? = some .one then v + 2 ^ i else v) 0

/-- A decimal digit of four pulses, and the tens above it, after the index pulse between them. -/
def pulseBcd (l : List Pulse) (p n : Nat) : Nat := pulseBits l p 4 + 10 * pulseBits l (p + 5) n

/-- The position identifiers stand where a frame of 100 pulses has them: the first, and each tenth. -/
def marksOk (l : List Pulse) : Bool :=
  l.length == 100 && (List.range 100).all fun i => (l[i]? == some .mark) == (i == 0 || i % 10 == 9)

/-- Every digit is decimal and every number within its range. -/
def irigRanges (l : List Pulse) : Bool :=
  [1, 10, 20, 30, 35, 50, 55].all (fun p => pulseBits l p 4 ≤ 9) && pulseBcd l 1 3 ≤ 60 && pulseBcd l 10 3 ≤ 59
    && pulseBcd l 20 2 ≤ 23
    && (let d := pulseBcd l 30 4 + 100 * pulseBits l 40 2; 1 ≤ d && d ≤ 366)

/-- R315: seconds since 1970 of day `d` (1 to 366) of year 2000 + `y`, at h:m:s. -/
def irigSeconds (y d h m s : Nat) : Nat := (10957 + 365 * y + (y + 3) / 4 + d - 1) * 86400 + h * 3600 + m * 60 + s

/-- R315: the content of a frame whose pulses are sound. -/
def irigContent (l : List Pulse) : Irig :=
  let half := 3600 * pulseBits l 65 4 + 1800 * pulseBits l 70 1
  { utcSec := irigSeconds (pulseBcd l 50 4) (pulseBcd l 30 4 + 100 * pulseBits l 40 2) (pulseBcd l 20 2) (pulseBcd l 10 3)
      (pulseBcd l 1 3)
    leapPending := pulseBits l 60 1 == 1, leapNegative := pulseBits l 61 1 == 1
    localOffset := if pulseBits l 64 1 = 1 then -(half : Nat) else (half : Nat)
    quality := pulseBits l 71 4 }

/-- R315: a frame from the widths of its pulses in nanoseconds; none for a frame error. The places of the digits are those of the
IRIG standard and of IEEE C37.118.1 (PRESUMED, log entry 127). -/
def irigDecode (widths : List Nat) : Option Irig :=
  match widths.mapM pulseOf with
  | some l => if marksOk l && irigRanges l then some (irigContent l) else none
  | none => none

end Sys2Proof.Machine
end

