-- ==== Sys2Proof/Machine/Sync.lean ====
section
/-! DEFINITION. Synchronous reset of the signal channels (R348, R349). -/

namespace Sys2Proof.Machine

/-- SIG_CHc_CTL.STATE: 0 stopped, 1 settling, 2 running, 3 failed. -/
def chState (s : State) (c : Nat) : Nat := getF s (sigCh c 0) 35 34
def chActive (s : State) (c : Nat) : Bool := chState s c == 1 || chState s c == 2

/-- SIG_SYNC.ARM. -/
def syncArm (s : State) : Nat := getF s sigSync 1 0

/-- R348, R349: a reset at TAI second `sec` and `us` microseconds reaches every settling or running channel; ARM returns to
0, with fault 0x60A. -/
def applySync (sec us : Nat) (s : State) : State :=
  let s := forUpto 2048 (fun c s => if chActive s c then modSigChan c (fun x => { x with sync := some (sec, us) }) s else s) s
  raise 0x60A 0 (setBit (hwField s sigSync 1 0 0) sigSync 3)

/-- R349: an arming fails, with fault 0x60B. -/
def failSync (s : State) : State := raise 0x60B 0 (setBit (hwField s sigSync 1 0 0) sigSync 2)

/-- R314, R349: the first PPS edge at least 1 s after the arming, while the input is usable, gives its second as R. -/
def syncPps (s : State) : State :=
  if syncArm s = 1 ∧ bitOf s timState 6 = true ∧ s.sig.armAt + 250000000 ≤ s.now then
    applySync (if 2 * s.time.ns64 < nsWrap then s.time.sec else s.time.sec + 1) 0 s
  else s

/-- R349: R is the midnight that begins the day now beginning. -/
def syncMidnight (s : State) : State :=
  if syncArm s = 2 ∧ s.day.n % 2 ^ 36 = (reg s sigSyncDay).toNat then
    applySync (if dayQ s = 0 then 0 else s.day.n / dayQ s) (dayK s * dayL s) s
  else s

end Sys2Proof.Machine
end

