-- ==== Sys2Proof/Machine/TimeEv.lean ====
section
/-! DEFINITION. The time unit: local clock, sources and their choice, lock, holdover, leap seconds and the day sequencer's
start (R301 to R332). Sources carry their TIM_STATE.SRC code: 1 domain A, 2 domain B, 3 PPS, 4 IRIG-B, 5 partner. -/

namespace Sys2Proof.Machine

/-- Ticks of a number of seconds. -/
def secTicks (n : Nat) : Nat := n * 250000000

/-- R511: traffic that is dropped: counted for the port, with fault 0xB32 at most once per minute. -/
def dropTraffic (port : Nat) (peer : BitVec 32) (s : State) : State :=
  let s := addSat s (netDrop (port + 1)) 35 0 1
  if s.net.dropAt = 0 ∨ s.net.dropAt + secTicks 60 ≤ s.now + 1 then
    raise 0xB32 peer.toNat { s with net := { s.net with dropAt := s.now + 1 } }
  else s


/-- R511: the same where the command does not name the port: a free value. -/
def dropSomewhere (peer : BitVec 32) (s : State) : State := dropTraffic (Config.freeNat s.fresh % 4) peer (bump s)

/-- R511: the same for a frame whose peer the command does not name: the fault's detail is a free value. -/
def dropUnnamed (port : Nat) (s : State) : State := dropTraffic port (BitVec.ofNat 32 (Config.freeNat s.fresh)) (bump s)

/-- A fault of the time range, naming the source (R582). -/
def timeFault (code src : Nat) (s : State) : State := raise code src s

/-- TIM_STATE.STATE, R307. -/
def timeCode (s : State) : Nat := getF s timState 3 0
def timeSrc (s : State) : Nat := getF s timState 15 12
def isLock (c : Nat) : Bool := 2 ≤ c && c ≤ 6

/-- TIM_RATE as a signed value. -/
def rateOf (s : State) : Int := (reg s timRate).toInt

/-- R303: the greatest |RATE|. -/
def rateLimit : Int := 2199023

/-- A value limited to ±`m`. -/
def clampInt (m v : Int) : Int := if v < -m then -m else if m < v then m else v

/-! Domains (R309 to R313). -/

def domOf (t : Time) (k : Nat) : Dom := if k = 0 then t.domA else t.domB
def modDom (k : Nat) (f : Dom → Dom) (s : State) : State :=
  modTime (fun t => if k = 0 then { t with domA := f t.domA } else { t with domB := f t.domB }) s

/-- The Ethernet port, N1 as 0, of domain `k` on LAN A (0) or LAN B (1). -/
def domPort (k lan : Nat) : Nat := 2 * k + lan

/-- TIM_DOMk_ST.PORT as a LAN; none before the first Announce. -/
def slaveLan (s : State) (k : Nat) : Option Nat :=
  match getF s (timDom k 1) 33 32 with
  | 1 => some 0
  | 2 => some 1
  | _ => none

/-- The mean link delay of the SLAVE port, 1/64 ns. -/
def slaveDelay (s : State) (k : Nat) : Nat := tabGet 0 s.time.mpd (domPort k ((slaveLan s k).getD 0))

/-- R311: the SLAVE port's peer delay has been measured within the last 8 s. -/
def delayFresh (s : State) (k : Nat) : Bool :=
  let at' := tabGet 0 s.time.mpdAt (domPort k ((slaveLan s k).getD 0))
  at' != 0 && s.now + 1 - at' ≤ secTicks 8

/-- R311, R313: the domain is usable. -/
def domUsable (s : State) (k : Nat) : Bool :=
  let d := domOf s.time k
  bitOf s (timDom k 0) 35 && d.annTick.isSome && (d.cls == 6 || d.cls == 7) && d.traceable && d.miss ≤ 3
    && delayFresh s k && (match d.inacc with | some n => n ≤ getF s timLim 11 0 | none => true)
    && d.holdUntil ≤ s.now && d.ofs.isSome && !d.jump

/-! The choice of a source (R305, R317 to R320). -/

/-- The latest offset of a source from the local clock, 1/64 ns, clock minus source. -/
def srcOffset (s : State) (src : Nat) : Int :=
  match src with
  | 1 => s.time.domA.ofs.getD 0
  | 2 => s.time.domB.ofs.getD 0
  | 3 => s.time.ppsOfs
  | 4 => s.time.irigOfs
  | 5 => s.time.pairOfs.getD 0
  | _ => 0

/-- 1 ms and 1 µs in 1/64 ns. -/
def oneMs : Int := 64000000
def oneUs : Int := 64000

/-- The partner's notices show it ACTIVE over a lane that is up. -/
def partnerActive (s : State) : Bool :=
  (match s.link.heard with | some n => n.state == 3 | none => false) && s.link.laneAt.any (·.2 != 0)

/-- R311, R313 to R315, R317: the source is usable, whatever its distance. -/
def srcUsable (s : State) (src : Nat) : Bool :=
  match src with
  | 1 => bitOf s timState 4
  | 2 => bitOf s timState 5
  | 3 => bitOf s timState 6
  | 4 => bitOf s timState 7
  | 5 => partnerActive s && (s.mst == .standby || s.mst == .daybreak) && s.time.pairOfs.isSome && !s.time.pairJump
  | _ => false

/-- R305: the source lies beyond 1 ms while the day sequencer runs. -/
def srcFar (s : State) (src : Nat) : Bool := s.day.run && (oneMs < srcOffset s src || srcOffset s src < -oneMs)

/-- R317: the order of the sources. In STANDBY a FREE partner comes first, and otherwise the partner's own choice. -/
def srcOrder (s : State) : List Nat :=
  let own := [getF s timCfg 11 9, getF s timCfg 8 6, getF s timCfg 5 3, getF s timCfg 2 0].filter fun n => 1 ≤ n && n ≤ 4
  match s.mst, s.link.heard with
  | .standby, some n => if n.timeState = 0 then 5 :: own else n.src.toNat :: (own ++ [5])
  | .standby, none => own ++ [5]
  | .daybreak, _ => 5 :: own
  | _, _ => own

/-- R305, R317: the source may be used now. -/
def srcMay (s : State) (src : Nat) : Bool := srcUsable s src && !srcFar s src

/-- The first source of the order that may be used now. -/
def firstSrc (s : State) : Option Nat := (srcOrder s).find? (srcMay s)

/-- A LOCK state ends: its ticks are counted toward the holdover trend (R320). -/
def leaveLock (s : State) : State :=
  modTime (fun t => { t with
    lockTicks := t.lockTicks + (match t.lockedAt with | some a => s.now - a | none => 0),
    lockedAt := none, lockLeft := some s.now }) s

/-- R320: the holdover bound in 1/1,000 ns times the ticks of a second, after `t` ticks. -/
def holdBound (s : State) (t : Nat) : Nat := 25000 * 250000000 + (if bitOf s timOsc 25 then 135 else 1350) * t

/-- R331: in a holdover the bound B, in whole nanoseconds rounded up, is added to the module's contribution. -/
def noteBound (s : State) : State :=
  match s.time.holdAt with
  | some a => setF s timState 35 24 (Nat.min 4094 (s.time.bound + (holdBound s (s.now - a) + 249999999999) / 250000000000))
  | none => s

/-- R307: the time state changes. TIM_STATE.BOUND has no figure in FREE and ACQUIRE (R331); in a LOCK state, and where a holdover
begins, the spec gives no way to compute the module's own estimate, which is free. -/
def setTimeState (code : Nat) (s : State) : State :=
  let s := if isLock (timeCode s) then leaveLock s else s
  let s := setF s timState 3 0 code
  if code ≤ 1 then setF s timState 35 24 0xFFF
  else if code ≤ 6 then setF (bump s) timState 35 24 (Config.freeNat s.fresh % 4095)
  else if code = 7 then noteBound (modTime (fun t => { t with bound := Config.freeNat s.fresh % 4095 }) (bump s))
  else noteBound s

/-- R318: the sources above `cur` in the order that may be used now. -/
def higherSrcs (s : State) (cur : Nat) : List Nat := ((srcOrder s).takeWhile (· != cur)).filter (srcMay s)

/-- R318: since when a source above the one selected has been usable; one that appears begins now. -/
def revertSince (s : State) (h : Nat) : Nat := ((s.time.revert.find? (·.1 == h)).map (·.2)).getD s.now

/-- A source is selected: ACQUIRE, until the lock criterion is met. A source above it that has been usable since before the switch goes on
counting (R318). -/
def selectSrc (src : Nat) (s : State) : State :=
  let higher := (higherSrcs s src).map fun h => (h, revertSince s h)
  let s := setTimeState 1 (modTime (fun t => { t with holdAt := none }) (setF s timState 15 12 src))
  modTime (fun t => { t with revert := higher, inBand := none,
                             set := t.set || (-oneUs ≤ srcOffset s src && srcOffset s src ≤ oneUs) }) s

/-- R318, R319: a switch of source, fault 0x504. -/
def switchSrc (src : Nat) (s : State) : State :=
  timeFault 0x504 src (setBit (modTime (fun t => { t with slew := some (rateOf s) }) (selectSrc src s)) timStatus 4)

/-- R320: RATE's mean over the last 1,000 s, truncated. -/
def rateMean (s : State) : Int :=
  if s.time.rates.isEmpty then rateOf s else (s.time.rates.foldl (· + ·) 0).tdiv (s.time.rates.length : Nat)

/-- R320: no source is usable. -/
def enterHold (s : State) : State :=
  let s := modTime (fun t => { t with holdAt := some s.now, inBand := none, revert := [], slew := none })
    (setF (hwField s timRate 35 0 (wordI (rateMean s)).toNat) timState 15 12 0)
  timeFault 0x507 0 (setBit (setTimeState 7 s) timStatus 5)

/-- R317, R318: the selection after any change of the sources. -/
def reselect (s : State) : State :=
  let cur := timeSrc s
  if cur ≠ 0 ∧ srcMay s cur then
    modTime (fun t => { t with revert := (higherSrcs s cur).map fun h => (h, revertSince s h) }) s
  else match firstSrc s with
    | some h => if cur = 0 ∧ timeCode s < 7 then selectSrc h s else switchSrc h s
    | none => if cur = 0 then s else enterHold s

/-- TIM_STATE.USABLE of source 1 to 4, with the fault and mark of a source that becomes unusable. -/
def setUsable (src : Nat) (v : Bool) (s : State) : State :=
  let was := srcUsable s src
  let s := setBit s timState (3 + src) v
  let s := match src with
    | 1 => setBit s (timDom 0 1) 35 v
    | 2 => setBit s (timDom 1 1) 35 v
    | 3 => setBit s timPpsSt 35 v
    | _ => setBit s timPpsSt 34 v
  if was && !v then
    match src with
    | 1 => timeFault 0x501 1 (setBit s timStatus 1)
    | 2 => timeFault 0x502 2 (setBit s timStatus 1)
    | 3 => timeFault 0x505 3 (setBit s timStatus 2)
    | _ => timeFault 0x506 4 (setBit s timStatus 2)
  else s

/-- R314: the seconds count is known now from a domain, from IRIG-B or from the partner. -/
def noteSeconds (s : State) : State :=
  if srcUsable s 1 || srcUsable s 2 || srcUsable s 4 || partnerActive s then
    modTime (fun t => { t with secKnown := some s.now }) s
  else s

/-- A domain's usability is re-evaluated, and the selection with it. -/
def refreshDom (k : Nat) (s : State) : State := reselect (noteSeconds (setUsable (k + 1) (domUsable s k) s))

/-! The clock (R301, R304). -/

/-- R301, R320, R331: each whole second, RATE joins the last 1,000, and a holdover's bound has grown. -/
def secondCarry (s : State) : State :=
  noteSeconds (noteBound <| modTime (fun t => { t with rates := (rateOf s :: t.rates).take 1000 }) s)

/-- R205: writes that reach a trailing engine's local data in this tick. -/
def applyMirrors (s : State) : State :=
  (s.mirrors.filter (·.1 ≤ s.now)).foldl (fun t m => memSet t m.2.1 m.2.2)
    { s with mirrors := s.mirrors.filter (fun m => s.now < m.1) }

/-- R325: an event whose defining instant lies in this tick arrives `delay`, in 1/64 ns, later. The place of the instant in its tick is
not shown to the model: a free value. -/
def postDelayed (delay src payload : Nat) (s : State) : State :=
  let d := (delay + Config.freeNat s.fresh % 256) / 256
  let s := bump s
  if d = 0 then postEvent src payload s else { s with arrivals := s.arrivals ++ [(s.now + d, src, payload)] }

/-- R325: the events that arrive in this tick. -/
def arriveEvents (s : State) : State :=
  (s.arrivals.filter (·.1 ≤ s.now)).foldl (fun t a => postEvent a.2.1 a.2.2 t)
    { s with arrivals := s.arrivals.filter (fun a => s.now < a.1) }

/-- R301, R173: one tick passes: the clock advances, the day tick rises to at most T, which says that the midnight is due, and the
writes that mature in the tick are made. -/
def passTick (s : State) : State :=
  let t := clockTick (rateOf s) s.time
  let carry := t.sec != s.time.sec
  let s : State := { s with now := s.now + 1, time := t
                            day := if s.day.run then { s.day with tick := Nat.min (s.day.tick + 1) (dayT s) } else s.day }
  let s := arriveEvents <| applyMirrors (breachTick (applyHw { s with waiters := s.waiters.filter fun w => s.now ≤ w.tick }))
  if carry then secondCarry s else s

/-- The clock set to an instant; the offsets measured against the old clock no longer hold. -/
def putClock (sec ns64 : Nat) (s : State) : State :=
  let z (d : Dom) : Dom := { d with offs := [], ofs := d.ofs.map (fun _ => 0) }
  modTime (fun t =>
    { t with
      sec := sec % 2 ^ 48, ns64 := ns64 % nsWrap, frac := 0, set := true, inBand := none, domA := z t.domA, domB := z t.domB
      ppsAt := none, irigAt := none, irigLast := none, pairOfs := t.pairOfs.map (fun _ => 0), slew := none }) s

/-- CLOCK_STEP (R304, R321): the clock takes its selected source's time, or that of an ACTIVE partner at Daybreak, while
the day sequencer is stopped and the two differ by more than 1 µs. -/
def execClockStep (src : Fin 6) (sec ns64 : Nat) (s : State) : Host.Outcome State Fault Refusal :=
  let d : Int := (sec * nsWrap + ns64 : Nat) - (s.time.sec * nsWrap + s.time.ns64 : Nat)
  if s.day.run || src.val = 0 || timeSrc s ≠ src.val || (-oneUs ≤ d ∧ d ≤ oneUs) then .next s
  else .next (timeFault 0x509 src (putClock sec ns64 s))

/-- R301: by how much the tick that runs advances the clock, in 1/64 ns. -/
def thisAdvance (s : State) : Nat := (256 + ((s.time.frac : Int) + rateOf s) / 2 ^ 32).toNat

/-- Of the instants `off`, `off + step`, `off + 2 × step` … after each TAI second, in 1/64 ns divided by `scale`, one lies in the tick that
runs. -/
def instantIn (s : State) (scale step off : Nat) : Bool :=
  step != 0 && (off % step + step - s.time.ns64 * scale % step) % step < thisAdvance s * scale

/-- R301: by how much the last tick advanced the clock, in 1/64 ns. -/
def lastAdvance (s : State) : Nat :=
  let r := rateOf s
  if 0 ≤ r then (if (s.time.frac : Int) < r then 257 else 256)
  else (if (2 ^ 32 : Int) + r ≤ (s.time.frac : Nat) then 255 else 256)

/-- R172: the day number the clock gives. -/
def clockDay (s : State) : Nat := (s.time.sec * dayQ s + (if dayL s = 0 then 0 else s.time.ns64 / (dayL s * 64000))) % 2 ^ 48

/-- R173, R304: how far the clock is past its grid midnight, in 1/64 ns. -/
def gridOffset (s : State) : Nat := if dayL s = 0 then 0 else s.time.ns64 % (dayL s * 64000)

/-- DAY_SEQUENCER_START (R18, R174, R304, R321): tick 0 is the first tick that starts at or after a grid midnight of a clock that
has been set. In STOPPED the day sequencer stays stopped, and in a Daybreak before the end of step 6 (R466). -/
def execDaySequencerStart (s : State) : Host.Outcome State Fault Refusal :=
  if s.mst == .stopped || (s.mst == .daybreak && s.boot.step < 6) || s.day.run || !s.time.set || dayL s = 0 || s.time.pllLost || lastAdvance s ≤ gridOffset s then .next s
  else .next (modDay (fun d => { d with run := true, tick := 0, n := clockDay s }) s)

/-- PLL_UNLOCK (R306): the day sequencer stops in the same tick. -/
def execPllUnlock (s : State) : Host.Outcome State Fault Refusal :=
  .next (timeFault 0x50F (timeSrc s) (modDay (fun d => { d with run := false })
    (modTime (fun t => { t with pllLost := true }) s)))

/-- PLL_RELOCK (R306). -/
def execPllRelock (s : State) : Host.Outcome State Fault Refusal := .next (modTime (fun t => { t with pllLost := false }) s)

/-! Lock and the filtered offset (R308). -/

/-- R308: a new filtered offset of the selected source, in 1/64 ns. -/
def trackLock (ofs : Int) (s : State) : State :=
  if isLock (timeCode s) then
    if ofs < -12800 || 12800 < ofs then modTime (fun t => { t with inBand := none }) (setTimeState 1 s) else s
  else if -3200 ≤ ofs && ofs ≤ 3200 then
    modTime (fun t => { t with inBand := some (t.inBand.getD s.now) }) s
  else modTime (fun t => { t with inBand := none }) s

/-- R173, R303: how far the day sequencer is from the grid of the clock, in 1/64 ns: what DAY_ALIGN will show. -/
def alignNow (s : State) : Int :=
  let l := dayL s * 64000
  if l = 0 then 0
  else
    let g := (gridOffset s + l - dayTick s * 256 % l) % l
    if l < 2 * g then (g : Int) - (l : Nat) else g

/-- R303: in a LOCK state the grid loop holds RATE to what brings DAY_ALIGN to zero in the 4 s in which the source's next sample comes, or
as fast as the limit of RATE lets it, within a band of 20 ns that narrows; so both tend to zero, and DAY_ALIGN, at most 1 ms off under
R305, is within 20 ns long before 600 s have passed (DESIGN CHOICE, log entry 80). -/
def gridHold (s : State) (r : Int) : Int :=
  match s.time.lockedAt with
  | some a =>
    if s.day.run then
      let mid := (-alignNow s * 2 ^ 40).tdiv 256000000000
      let band : Int := (5497 * secTicks 60 / (secTicks 60 + (s.now - a)) : Nat)
      if r < mid - band then mid - band else if mid + band < r then mid + band else r
    else r
  | none => r

/-- R319: after a switch the clock moves toward the new source by at most 100 ns in a second. -/
def slewHold (s : State) (r : Int) : Int :=
  match s.time.slew with
  | some r0 => if r < r0 - 109951 then r0 - 109951 else if r0 + 109951 < r then r0 + 109951 else r
  | none => r

/-- R303, R312: RATE after the servo has taken the offset `ofs`: what corrects it with the loop's time constant, 2 s in ACQUIRE and 16 s
in a LOCK state, beside the loop's frequency correction, for which the spec gives no formula and which is free; within the limits. -/
def servoRate (ofs : Int) (s : State) : State :=
  let f : Int := (Config.freeNat s.fresh % 4398047 : Nat) - rateLimit
  let r := f - (ofs * 2 ^ 40).tdiv ((if isLock (timeCode s) then 16 else 2) * 64000000000)
  hwField (bump s) timRate 35 0 (wordI (clampInt rateLimit (slewHold s (gridHold s r)))).toNat

/-- LOCK_ACQUIRED (R308): 60 s within ±50 ns. -/
def execLockAcquired (s : State) : Host.Outcome State Fault Refusal :=
  match s.time.inBand with
  | some a =>
    if timeCode s = 1 ∧ 1 ≤ timeSrc s ∧ a + secTicks 60 ≤ s.now then
      .next (modTime (fun t => { t with lockedAt := some s.now, slew := none }) (setTimeState (timeSrc s + 1) s))
    else .next s
  | none => .next s

/-! PTP (R309 to R313, R319). -/

/-- R313: the offset of a candidate source fails the jump check. -/
def jumps (s : State) (src : Nat) (ofs : Int) : Bool :=
  s.day.run && isLock (timeCode s) && timeSrc s != src
    && ((getF s timLim 23 12 * 64000 : Nat) < ofs || ofs < -(getF s timLim 23 12 * 64000 : Nat))

/-- R313: fault 0x503 for a source that begins to fail the check. -/
def jumpFault (src : Nat) (was now' : Bool) (s : State) : State :=
  if now' && !was then timeFault 0x503 src (setBit s timStatus 3) else s

/-- A number put into a rising list. -/
def insertInt (x : Int) : List Int → List Int
  | [] => [x]
  | y :: t => if x ≤ y then x :: y :: t else y :: insertInt x t

/-- The numbers of a list in rising order. -/
def sortInts (l : List Int) : List Int := l.foldr insertInt []

/-- R312: the offset differs by more than 1 µs from the median of the previous 8. -/
def outlier (offs : List Int) (o : Int) : Bool :=
  let q := sortInts offs
  offs.length == 8 && (let d := 2 * o - (q.getD 3 0 + q.getD 4 0); d < -128000 || 128000 < d)

/-- R319: two usable domains that differ by more than TIM_LIM.DISAG. -/
def disagrees (s : State) : Bool :=
  let d := srcOffset s 1 - srcOffset s 2
  let lim : Int := (getF s timLim 35 24 * 64 : Nat)
  srcUsable s 1 && srcUsable s 2 && (d < -lim || lim < d)

/-- R319: the fault of it. -/
def disagree (s : State) : State := if disagrees s then timeFault 0x503 (timeSrc s) (setBit s timStatus 3) else s

/-- A saturated word of a signed value. -/
def satOf (v : Int) : Word := wordI (if v < -(2 ^ 35) then -(2 ^ 35) else if 2 ^ 35 - 1 < v then 2 ^ 35 - 1 else v)

/-- R310: a message of domain `k` carries its domainNumber, one that its profile allows. -/
def domainHeard (s : State) (k : Nat) (n : BitVec 8) : Bool :=
  bitOf s (timDom k 0) 35 && getF s (timDom k 0) 7 0 == n.toNat
    && (n.toNat ≤ 127 || (n.toNat == 254 && bitOf s (timDom k 0) 34))

/-- PTP_SYNC_RECEIVE (R303, R305, R308, R310 to R313, R319): logSyncInterval, and t1, the stamp taken of its arrival and correctionField
in 1/64 ns; t2 is the stamp with the port's latency. -/
def execPtpSyncReceive (k : Fin 2) (domain : BitVec 8) (interval t1 t2 corr : Int) (s : State) : Host.Outcome State Fault Refusal :=
  if !domainHeard s k domain || interval < -4 || 0 < interval then .next s
  else
    let src := k.val + 1
    let o := t2 + Config.ptpLatency (domPort k ((slaveLan s k).getD 0)) - t1 - (slaveDelay s k : Nat) - corr
    let bad := outlier (domOf s.time k).offs o
    let s := modDom k (fun d => { d with miss := 0, offs := (o :: d.offs).take 8 }) s
    if bad then .next (refreshDom k s)
    else
      let j := jumps s src o
      let s := jumpFault src (domOf s.time k).jump j s
      let s := setReg (modDom k (fun d => { d with ofs := some o, jump := j }) s) (timDom k 2) (satOf o)
      let s := disagree (refreshDom k s)
      .next (if timeSrc s = src then servoRate o (trackLock o s) else s)

/-- SYNC_MISSING (R311): more than 3 consecutive Sync messages are missing. -/
def execSyncMissing (k : Fin 2) (s : State) : Host.Outcome State Fault Refusal :=
  if !bitOf s (timDom k 0) 35 then .next s
  else
    let m := (domOf s.time k).miss
    let n := if m < 4 then 4 else m + 1
    .next (refreshDom k (modDom k (fun d => { d with miss := n }) (addSat s (timDom k 1) 15 0 (n - m))))

/-- R322, R323: the source's offset and leap marks, from domain `k` when it is selected. -/
def setUtc (from' ofs : Nat) (s : State) : State :=
  let s := setF (setBit (setF s timUtc 15 0 ofs) timUtc 18) timUtc 20 19 from'
  modBoot (fun b => { b with utcSaved := some (word ofs) }) s

/-- R322: currentUtcOffset of the selected domain; a change outside a scheduled leap is fault 0x50C. -/
def takeUtc (src : Nat) (ofs : Int) (s : State) : State :=
  let v := (ofs % 65536).toNat
  if bitOf s timUtc 18 && getF s timUtc 15 0 != v then timeFault 0x50C src (setBit (setUtc 2 v s) timStatus 0) else setUtc 2 v s

/-- TAI − UTC as held. -/
def utcOffset (s : State) : Int :=
  let v := getF s timUtc 15 0
  if 32768 ≤ v then (v : Int) - 65536 else v

/-- R323: the TAI second that begins the following UTC day, the leap included. -/
def leapSecond (s : State) (insert : Bool) : Nat :=
  let utc : Int := (s.time.sec : Int) - utcOffset s
  ((utc / 86400 + 1) * 86400 + utcOffset s + (if insert then 1 else -1)).toNat

/-- R323: a leap is marked pending, with fault 0x50A. -/
def markLeap (src : Nat) (insert : Bool) (s : State) : State :=
  if getF s timUtc 17 16 ≠ 0 then s
  else
    let t := leapSecond s insert
    let s := setReg (setReg s timLeapL (word (t % 2 ^ 36))) timLeapH (word (t / 2 ^ 36 % 4096))
    let s := modTime (fun x => { x with leapFrom := src }) (setF s timUtc 17 16 (if insert then 1 else 2))
    timeFault 0x50A src (setBit s timStatus 9)

/-- R323: a leap withdrawn by its source is cleared without effect. -/
def clearLeap (s : State) : State := setF (setReg (setReg s timLeapL 0) timLeapH 0) timUtc 17 16 0

/-- R323: a source that no longer marks the leap which it marked withdraws it, whether it is selected or not. -/
def withdrawLeap (src : Nat) (s : State) : State := if getF s timUtc 17 16 ≠ 0 ∧ s.time.leapFrom = src then clearLeap s else s

/-- R323: what a source's leap marks do. -/
def takeLeap (src : Nat) (ins del : Bool) (s : State) : State :=
  if ins then markLeap src true s
  else if del then markLeap src false s
  else withdrawLeap src s

/-- R311: the grandmaster of a domain; a change of identity makes it unusable for 16 s. -/
def takeGm (k : Nat) (a : Announce) (s : State) : State :=
  let changed := match (domOf s.time k).gm with | some g => g != a.gm | none => false
  let s := if changed then setBit (modDom k (fun d => { d with holdUntil := s.now + secTicks 16 }) s) (timDom k 1) 34 else s
  let s := setReg (setReg s (timDom k 4) (word (a.gm.toNat / 2 ^ 32))) (timDom k 5) (word (a.gm.toNat % 2 ^ 32))
  modDom k (fun d => { d with gm := some a.gm, cls := a.clockClass, traceable := a.traceable, inacc := a.inacc }) s

/-- R310: announceReceiptTimeout, 3 intervals, in seconds. -/
def announceWait (a : Announce) : Nat := if a.interval = 1 then 6 else 3

/-- PTP_ANNOUNCE_RECEIVE (R309 to R311, R322, R323): on LAN A or B of domain `k`; one of an ARB timescale is none. The first port with a master is SLAVE. -/
def execPtpAnnounceReceive (k lan : Fin 2) (a : Announce) (s : State) : Host.Outcome State Fault Refusal :=
  if !domainHeard s k a.domain || a.interval < 0 || 1 < a.interval || !a.ptpTimescale then .next s
  else if (slaveLan s k).getD lan.val ≠ lan.val then
    .next (modDom k (fun d => { d with annOther := some s.now, annWaitOther := announceWait a }) s)
  else
    let s := setF (modDom k (fun d => { d with annTick := some s.now, annWait := announceWait a }) s) (timDom k 1) 33 32 (lan.val + 1)
    let s := setF (setF (takeGm k a s) (timDom k 1) 31 24 a.clockClass) (timDom k 1) 23 16 a.accuracy
    let s := setReg s (timDom k 6) (match a.inacc with | some n => word (Nat.min n (2 ^ 36 - 1)) | none => word (2 ^ 36 - 1))
    let s := refreshDom k s
    if timeSrc s ≠ k.val + 1 then .next (if a.leap61 || a.leap59 then s else withdrawLeap (k.val + 1) s)
    else
      let s := if a.utcValid then takeUtc (k.val + 1) a.utcOffset s else s
      .next (takeLeap (k.val + 1) a.leap61 a.leap59 s)

/-- ANNOUNCE_TIMEOUT (R309, R311): no Announce within the receipt timeout of 3 intervals; the other port becomes SLAVE if it
has a master, and otherwise the domain has none. -/
def execAnnounceTimeout (k : Fin 2) (s : State) : Host.Outcome State Fault Refusal :=
  match (domOf s.time k).annTick with
  | none => .next s
  | some a =>
    if s.now < a + secTicks (domOf s.time k).annWait then .next s
    else match (domOf s.time k).annOther with
      | some b =>
        if s.now < b + secTicks (domOf s.time k).annWaitOther then
          .next (refreshDom k (setF (modDom k (fun d => { d with annTick := some b, annOther := none, annWait := d.annWaitOther }) s) (timDom k 1) 33 32
            (3 - getF s (timDom k 1) 33 32)))
        else .next (refreshDom k (setF (modDom k (fun d => { d with annTick := none, annOther := none }) s) (timDom k 1) 33 32 0))
      | none => .next (refreshDom k (setF (modDom k (fun d => { d with annTick := none }) s) (timDom k 1) 33 32 0))

/-- GM_CHANGE_HOLD_END (R311). -/
def execGmChangeHoldEnd (k : Fin 2) (s : State) : Host.Outcome State Fault Refusal :=
  .next (if (domOf s.time k).holdUntil ≤ s.now then refreshDom k s else s)

/-- The domain an Ethernet port serves is in use (R309). -/
def portDomOn (s : State) (n : Nat) : Bool := bitOf s (timDom (n / 2) 0) 35

/-- PDELAY_REQ_SEND (R310): every second on each port. -/
def execPdelayReqSend (n : Fin 4) (s : State) : Host.Outcome State Fault Refusal :=
  let last := tabGet 0 s.time.pdelayAt n
  .next (if portDomOn s n && (last == 0 || last + secTicks 1 ≤ s.now + 1) then
      emit (.ptp n 2) (modTime (fun t => { t with pdelayAt := tabSet 0 t.pdelayAt n (s.now + 1) }) s)
    else s)

/-- PDELAY_REQ_RECEIVE (R310, R511): every request is answered; at a port whose domain is off it is no traffic of the port. -/
def execPdelayReqReceive (n : Fin 4) (s : State) : Host.Outcome State Fault Refusal :=
  .next (if portDomOn s n then emit (.ptp n 3) s else dropUnnamed n s)

/-- R312: twice the mean link delay of an exchange, the module's stamps with the port's latencies. -/
def linkDelay (n : Nat) (x : PeerDelay) : Int :=
  (x.t4 + Config.ptpLatency n - (x.t1 + Config.ptpTxLatency n)) - (x.t3 - x.t2) - x.corr

/-- PDELAY_RESP_RECEIVE (R310 to R312): the port's peer delay in 1/64 ns; the spec leaves open how half a unit is rounded. -/
def execPdelayRespReceive (n : Fin 4) (x : PeerDelay) (s : State) : Host.Outcome State Fault Refusal :=
  if !portDomOn s n then .next s
  else
    let d := linkDelay n x
    let mpd := (d / 2).toNat + (if d % 2 = 0 then 0 else Config.freeNat s.fresh % 2)
    let s := bump s
    let s := modTime (fun t => { t with mpd := tabSet 0 t.mpd n mpd, mpdAt := tabSet 0 t.mpdAt n (s.now + 1) }) s
    let k := n.val / 2
    let s := if (slaveLan s k).getD 0 = n.val % 2 then setReg s (timDom k 3) (word mpd) else s
    .next (refreshDom k s)

/-- PEER_DELAY_TIMEOUT (R311): the domain of a port not measured within the last 8 s is evaluated again. -/
def execPeerDelayTimeout (n : Fin 4) (s : State) : Host.Outcome State Fault Refusal := .next (refreshDom (n.val / 2) s)

/-! PPS and IRIG-B (R313 to R316, R325). -/

/-- The difference of two clock readings in 1/64 ns. -/
def clockDiff (a b : Nat × Nat) : Int := (a.1 * nsWrap + a.2 : Nat) - (b.1 * nsWrap + b.2 : Nat)

/-- R314, R315: two edges are 1 s ± 1 µs apart. -/
def secondApart (a b : Nat × Nat) : Bool :=
  let d := clockDiff a b - (nsWrap : Nat)
  d ≤ oneUs && -oneUs ≤ d

/-- R314: the clock's offset from the nearest whole second. -/
def nearestSecond (ns64 : Nat) : Int := if 2 * ns64 < nsWrap then ns64 else (ns64 : Int) - (nsWrap : Nat)

/-- R314: the seconds count is known from a source within the last 24 h. -/
def secondsKnown (s : State) : Bool :=
  match s.time.secKnown with
  | some a => s.now ≤ a + secTicks 86400
  | none => false

/-- PPS_EDGE (R313, R314, R325, R349): the edge is checked against the previous one, assigned to the nearest second and
queued as event 0x0920 once the input's arrival delay is over. -/
def execPpsEdge (s : State) : Host.Outcome State Fault Refusal :=
  let c := (s.time.sec, s.time.ns64)
  let inWin := match s.time.ppsAt with | some p => secondApart c p | none => false
  let o := nearestSecond s.time.ns64
  let j := jumps s 3 o
  let s := if s.time.ppsAt.isSome && !inWin then addSat s timPpsSt 11 0 1 else s
  let s := jumpFault 3 s.time.ppsJump j s
  let s := setReg (modTime (fun t => { t with ppsAt := some c, ppsOfs := o, ppsJump := j }) s) timPpsOfs (satOf o)
  let s := reselect (setUsable 3 (inWin && secondsKnown s && !j) s)
  .next (syncPps (postDelayed (getF s timPpsDly 17 0) 0x0920 0 (if timeSrc s = 3 then servoRate o (trackLock o s) else s)))

/-- PPS_EDGE_MISSING (R314): no edge within 1 s plus 1 µs. -/
def execPpsEdgeMissing (s : State) : Host.Outcome State Fault Refusal :=
  match s.time.ppsAt with
  | some p =>
    if clockDiff (s.time.sec, s.time.ns64) p ≤ (nsWrap : Int) + oneUs then .next s
    else .next (reselect (setUsable 3 false (modTime (fun t => { t with ppsAt := none }) (addSat s timPpsSt 11 0 1))))
  | none => .next s

/-- The TAI second of the leap held in TIM_LEAP. -/
def leapAt (s : State) : Nat := (reg s timLeapL).toNat + getF s timLeapH 11 0 * 2 ^ 36

/-- R323, R365: TAI − UTC in force at a TAI second, the last leap not yet taken before it. -/
def offsetAt (s : State) (sec : Nat) : Int :=
  match s.time.leapDone with
  | some (_, at', del) => if sec < at' then utcOffset s + (if del then 1 else -1) else utcOffset s
  | none => utcOffset s

/-- R315: the TAI second of a frame's Pr edge, seen at `p` on the clock: its UTC with the offset in force there. -/
def irigTai (s : State) (p : Nat × Nat) (f : Irig) : Int :=
  (f.utcSec : Int) - (if bitOf s timCfg 17 then f.localOffset else 0) + offsetAt s (p.1 + (if nsWrap ≤ 2 * p.2 then 1 else 0))

/-- R315: a frame error, counted and unusable. -/
def irigError (s : State) : State :=
  let s := addSat s timPpsSt 23 12 1
  if srcUsable s 4 then setUsable 4 false s else timeFault 0x506 4 (setBit s timStatus 2)

/-- R305, R313, R315, R323: a frame free of errors, whose Pr edge came `o` off its TAI second `tai`. -/
def irigGood (f : Irig) (tai o : Int) (s : State) : State :=
  let j := jumps s 4 o
  let s := jumpFault 4 s.time.irigJump j s
  let s := modTime (fun t =>
    { t with irigCnt := t.irigCnt + 1, irigJump := j, irigOfs := o, irigLast := some tai, irigQual := f.quality }) s
  let s := setReg s timIrigOfs (satOf o)
  let s := if bitOf s timCfg 17 then
      takeLeap 4 (f.leapPending && !f.leapNegative) (f.leapPending && f.leapNegative) s
    else s
  let s := reselect (noteSeconds (setUsable 4 (decide (3 ≤ s.time.irigCnt) && !j) s))
  if timeSrc s = 4 then servoRate o (trackLock o s) else s

/-- R315: no run of frames goes on: the next begins one. -/
def irigBreak (s : State) : State := modTime (fun t => { t with irigCnt := 0, irigLast := none }) s

/-- R315: the frame that began with the Pr edge at `p` is complete. One free of errors whose time does not follow the frame before
begins a new run; a Pr edge of now that is not a second later ends it. -/
def irigTake (p : Nat × Nat) (f : Option Irig) (s : State) : State :=
  match f with
  | some f =>
    if secondApart (s.time.sec, s.time.ns64) p then
      let tai := irigTai s p f
      let next := match s.time.irigLast with | some t => tai == t + 1 | none => true
      irigGood f tai (((p.1 : Int) - tai) * (nsWrap : Nat) + (p.2 : Nat)) (if next then s else irigBreak s)
    else setUsable 4 false (irigBreak s)
  | none => irigError (irigBreak s)

/-- IRIG_FRAME (R313, R315, R323, R325): the frame whose Pr edge was the last one is complete, its pulses of the given widths in
nanoseconds, and the Pr edge of now begins the next and is queued as event 0x0921 once the input's arrival delay is over. -/
def execIrigFrame (widths : List Nat) (s : State) : Host.Outcome State Fault Refusal :=
  let t := match s.time.irigAt with
    | some p => irigTake p (irigDecode widths) s
    | none => s
  let t := modTime (fun t => { t with irigAt := some (s.time.sec, s.time.ns64) }) t
  .next (postDelayed (getF t timPpsDly 17 0) 0x0921 0 (reselect t))

/-- IRIG_SIGNAL_LOSS (R315). -/
def execIrigSignalLoss (s : State) : Host.Outcome State Fault Refusal :=
  .next (reselect (setUsable 4 false (modTime (fun t => { t with irigCnt := 0, irigAt := none, irigLast := none }) s)))

/-- R316: the states in which the PPS output drives. -/
def ppsState (c : Nat) : Bool := isLock c || c == 7

/-- PPS_OUTPUT_EDGE (R316): at a whole TAI second, a rising edge with the high time of WIDTH. -/
def execPpsOutputEdge (s : State) : Host.Outcome State Fault Refusal :=
  if lastAdvance s ≤ s.time.ns64 then .next s
  else if bitOf s timPpsO 9 || (bitOf s timPpsO 10 && ppsState (timeCode s)) then .next (emit (.pps (getF s timPpsO 8 0)) s)
  else .next s

/-! Switching back, holdover, leap seconds and Daybreak (R305, R318 to R323). -/

/-- R318: a source above the one selected has stayed usable for TIM_CFG.REVERT seconds. -/
def revertDue (s : State) (h : Nat) : Bool :=
  srcMay s h && s.time.revert.any fun r => r.1 == h && r.2 + secTicks (getF s timCfg 25 18) ≤ s.now

/-- SOURCE_REVERT (R318, R319): at a whole second, the first source of the order that has stayed usable for long enough is taken, unless
the domains disagree. -/
def execSourceRevert (s : State) : Host.Outcome State Fault Refusal :=
  if lastAdvance s ≤ s.time.ns64 || disagrees s then .next s
  else match (higherSrcs s (timeSrc s)).find? (revertDue s) with
    | some h => .next (switchSrc h s)
    | none => .next s

/-- HOLD_LONG_ENTRY (R320): the bound exceeds 1,000 ns. -/
def execHoldLongEntry (s : State) : Host.Outcome State Fault Refusal :=
  match s.time.holdAt with
  | some a =>
    if timeCode s = 7 ∧ 1000000 * 250000000 < holdBound s (s.now - a) then
      .next (timeFault 0x508 0 (setBit (setTimeState 8 s) timStatus 6))
    else .next s
  | none => .next s

/-- TREND_LEARNED (R320): 12 h in a LOCK state since Daybreak. -/
def execTrendLearned (s : State) : Host.Outcome State Fault Refusal :=
  let t := s.time.lockTicks + (match s.time.lockedAt with | some a => s.now - a | none => 0)
  .next (if secTicks 43200 ≤ t then setBit s timOsc 25 else s)

/-- LEAP_APPLY (R323): TAI − UTC changes at the leap second. -/
def execLeapApply (s : State) : Host.Outcome State Fault Refusal :=
  let at' := (reg s timLeapL).toNat + getF s timLeapH 11 0 * 2 ^ 36
  let leap := getF s timUtc 17 16
  if leap = 0 ∨ s.time.sec < at' then .next s
  else
    let v := (getF s timUtc 15 0 + (if leap = 1 then 1 else 65535)) % 65536
    let s := modBoot (fun b => { b with utcSaved := some (word v) }) (setF (clearLeap s) timUtc 15 0 v)
    let s := modTime (fun t => { t with leapDone := some (s.now, at', leap == 2) }) s
    .next (timeFault 0x50B s.time.leapFrom (setBit s timStatus 9))

/-- FAR_SOURCE_REPORT (R305): once an hour, in FREE, for a source beyond 1 ms. -/
def execFarSourceReport (src : Fin 6) (s : State) : Host.Outcome State Fault Refusal :=
  let at' := tabGet 0 s.time.far src
  if timeCode s = 0 && srcUsable s src && srcFar s src && (at' == 0 || at' + secTicks 3600 ≤ s.now + 1) then
    .next (timeFault 0x50D src (setBit (modTime (fun t => { t with far := tabSet 0 t.far src (s.now + 1) }) s) timStatus 7))
  else .next s

/-- TIME_WAIT_EXPIRY (R321): at Daybreak, with no source after TIM_CFG.WAIT seconds of step 6, the clock takes the time of the
last event-log entry and the state is FREE. -/
def execTimeWaitExpiry (s : State) : Host.Outcome State Fault Refusal :=
  if s.mst ≠ .daybreak ∨ s.time.set = true ∨ (firstSrc s).isSome = true ∨ s.boot.step ≠ 6 ∨ s.now < s.boot.stepAt + secTicks (getF s timCfg 35 26) then
    .next s
  else
    let s := match (s.log.filter (·.torn.isNone)).getLast? with
      | some l => putClock l.sec l.ns64 s
      | none => modTime (fun t => { t with set := true }) s
    .next (timeFault 0x510 0 (setTimeState 0 s))

end Sys2Proof.Machine
end

