-- ==== Sys2Proof/Machine/Panel.lean ====
section
/-! DEFINITION. The faceplate (R459 to R462). -/

namespace Sys2Proof.Machine

/-- Four spaces. -/
def blankWord : Word := 0x100804020

/-- R459: the data lines 0 to 3 show: identity, variant and slot; module state and mandate; time state and day number; the
last fault with its TAI second. -/
def faceData (s : State) (n : Nat) : List Nat :=
  let b (x : Bool) : Nat := if x then 1 else 0
  match n with
  | 0 => (List.range 4).map (fun i => (Config.serial i).toNat) ++ [b Config.variantX, b (slotB s)]
  | 1 => [mstCode s.mst, b (holds s)]
  | 2 => [timeCode s, dayN s]
  | _ => [(reg s midLastF).toNat, s.lastFSec]

/-- R459: word `j` of a line that begins with ASCII codes, and goes on blank. -/
def spelled (codes : List Nat) (j : Nat) : Word :=
  word ((List.range 4).foldl (fun v i => v * 512 + codes.getD (4 * j + i) 0x20) 0)

/-- R462, R476, R527: the words SUNDOWN, NO FIRMWARE and NO SLOT. -/
def textSundown : List Nat := [83, 85, 78, 68, 79, 87, 78]
def textNoFirmware : List Nat := [78, 79, 32, 70, 73, 82, 77, 87, 65, 82, 69]
def textNoSlot : List Nat := [78, 79, 32, 83, 76, 79, 84]

/-- R462: lines 0 to 3 of the Sundown page: code and second of the trip, day number and state before it. Which line holds what the spec
does not say (DESIGN CHOICE, log entry 167). -/
def sundownWord (data : List Nat) (n j : Nat) : Word := if n = 0 then spelled textSundown j else Config.sundownText n data j

/-- R476, R527: lines 0 to 3 of a page of the boot ROM. -/
def bootWord (page cause n j : Nat) : Word :=
  if n = 0 then spelled (if page = 0 then textNoFirmware else textNoSlot) j else Config.bootText page cause n j

/-- What the Sundown page says of a trip. -/
def tripData (t : LogEnt) : List Nat := [t.code, t.sec, t.day, t.mst]

/-- R459, R462, R476, R527: lines 0 to 3 as the module writes them. -/
def ownLine (s : State) (n j : Nat) : Word :=
  match s.nwt.trip, s.fpd.page with
  | some t, _ => sundownWord (tripData t) n j
  | none, some p => bootWord p.1 p.2 n j
  | none, none => Config.faceText n (faceData s n) j

/-- FPD_LINEn_j (R459): the module writes lines 0 to 3. -/
def fpdWord (s : State) (n j : Nat) : Word := if n < 4 then ownLine s n j else reg s (fpdLine n j)

/-- R459: the 9-bit field of a character as it is shown: a code outside 0x20 to 0x7E as a space. -/
def shownChar (c : Nat) : Nat := (if 0x20 ≤ c % 128 ∧ c % 128 ≤ 0x7E then c % 128 else 0x20) + c / 128 % 2 * 128

/-- R459: a line word as it is shown. -/
def shownWord (w : Word) : Word :=
  word ((List.range 4).foldl (fun v i => v * 512 + shownChar (slice w.toNat (35 - 9 * i) (27 - 9 * i))) 0)

/-- The panel's image. -/
def panelWord (s : State) (n j : Nat) : Word := tabGet blankWord s.fpd.panel (8 * n + j)

/-- R460, R461: the words of every line that differs from the panel, or is treated as differing. -/
def differing (s : State) : List (Nat × Word) :=
  (List.range 12).flatMap fun n =>
    let ws := (List.range 8).map fun j => (8 * n + j, shownWord (fpdWord s n j))
    if (List.range 8).all (fun j => shownWord (fpdWord s n j) == panelWord s n j) && !s.fpd.redo.contains n then [] else ws

/-- The panel with some words written. -/
def writePanel (ws : List (Nat × Word)) (s : State) : State :=
  modFpd (fun x => { x with panel := ws.foldl (fun t w => tabSet blankWord t w.1 w.2) x.panel }) s

/-- The lines of a pass. -/
def passLines (ws : List (Nat × Word)) : List Nat := (List.range 12).filter fun n => ws.any (·.1 / 8 == n)

/-- R460: the ticks a pass lasts, for `k` kelvin below 0 °C: 150 ms, and 12.5 ms a kelvin to 650 ms at −40 °C. -/
def passTicks (k : Nat) : Nat := 37500000 + 3125000 * k

/-- FACEPLATE_PASS_START (R460 to R462): at a whole TAI second at which a line differs and no pass is in progress; after a trip only
Sundown writes. The panel's temperature during the pass is free, 0 °C and above or as far as −40 °C. -/
def execFaceplatePassStart (s : State) : Host.Outcome State Fault Refusal :=
  if lastAdvance s ≤ s.time.ns64 || s.fpd.pass.isSome || bitOf s fpdStatus 3 || s.nwt.trip.isSome || (differing s).isEmpty then .next s
  else
    let till := s.now + passTicks (Config.freeNat s.fresh % 41)
    .next (setBit (bump (modFpd (fun x => { x with pass := some (differing s), passEnd := till }) s)) fpdStatus 1)

/-- FACEPLATE_PASS_COMPLETE (R460). -/
def execFaceplatePassComplete (s : State) : Host.Outcome State Fault Refusal :=
  match s.fpd.pass with
  | some ws =>
    if s.now < s.fpd.passEnd then .next s
    else
    let s := modFpd (fun x => { x with pass := none, abandoned := 0, redo := [] }) (writePanel ws s)
    .next (emit (.faceplate ws) (addSat (setBit s fpdStatus 1 false) fpdPasses 35 0 1))
  | none => .next s

/-- FACEPLATE_PASS_ABANDON (R461): the third in a row stops the passes until reset. -/
def execFaceplatePassAbandon (s : State) : Host.Outcome State Fault Refusal :=
  match s.fpd.pass with
  | some ws =>
    let n := s.fpd.abandoned + 1
    let s := modFpd (fun x => { x with pass := none, abandoned := n, redo := passLines ws }) s
    let s := raise 0x960 (4 * 2 ^ 5) (setBit (setBit s fpdStatus 1 false) fpdStatus 2)
    .next (if 3 ≤ n then raise 0x961 (4 * 2 ^ 5) (setBit s fpdStatus 3) else s)
  | none => .next s

/-- R462: what the Sundown write puts on the panel: its own page, and every line of a pass it abandons or that was abandoned before. -/
def sundownLines (t : LogEnt) (s : State) : List (Nat × Word) :=
  let own := (List.range 32).map fun i => (i, shownWord (sundownWord (tripData t) (i / 8) (i % 8)))
  let redo := s.fpd.redo.flatMap fun n => (List.range 8).map fun j => (8 * n + j, shownWord (fpdWord s n j))
  own ++ (s.fpd.pass.getD redo).filter fun w => 32 ≤ w.1

/-- R462: the Sundown write. -/
def sundownPage (ws : List (Nat × Word)) (s : State) : State :=
  setBit (modFpd (fun x => { x with pass := none, redo := [] }) (emit (.faceplate ws) (writePanel ws s))) fpdStatus 1 false

/-- R541: the Sundown write cut short in line `n`: the lines before it, in the order written, are new, it may show a mixed image, and the
others stay. -/
def cutPage (n : Nat) (ws : List (Nat × Word)) (s : State) : State :=
  let cut := (ws.drop (8 * n)).take 8
  let mixed := cut.mapIdx fun i w => (w.1, shownWord (Config.freeWord (s.fresh + i)))
  { sundownPage (ws.take (8 * n) ++ mixed) s with fresh := s.fresh + 8 }

end Sys2Proof.Machine
end

