-- ==== Sys2Proof/Machine/Power.lean ====
section
/-! DEFINITION. The feeds, the hold-up store and the temperatures of the power stage (R533 to R545). -/

namespace Sys2Proof.Machine

/-! Feeds (R533, R535). Feed `k` is P(k + 1). -/

def feedMv (s : State) (k : Nat) : Int := if k = 0 then s.pwr.mv1 else s.pwr.mv2
def feedOff (s : State) (k : Nat) : Bool := if k = 0 then s.pwr.off1 else s.pwr.off2

/-- R533: the feed is between 2.7 V and 63 V and connected. -/
def feedOk (s : State) (k : Nat) : Bool := 2700 ≤ feedMv s k && feedMv s k ≤ 63000 && !feedOff s k

/-- R535: the feed supplies the power stage: it is the higher one, or within 100 mV of it. -/
def feedUsed (s : State) (k : Nat) : Bool := feedOk s k && (!feedOk s (1 - k) || feedMv s (1 - k) ≤ feedMv s k + 100)

/-- R525: the own presence has shown the module inserted for 10 ms. -/
def presentLong (s : State) : Bool :=
  s.link.inserted && (match s.link.spresAt with | some t => t + 2500000 ≤ s.now | none => false)

/-- PWR_FEEDk without its current, a measurement. -/
def showFeed (k : Nat) (s : State) : State :=
  let a := pwrFeed (k + 1)
  setF (setBit (setBit s a 35 (feedUsed s k)) a 34 (feedOk s k)) a 15 0 (Min.min (feedMv s k) 65535).toNat

/-- R534: the tick since when a feed has stood between 3.0 V and 60 V. -/
def stoodSince (mv : Int) (off : Bool) (was : Option Nat) (now : Nat) : Option Nat :=
  if 3000 ≤ mv ∧ mv ≤ 60000 ∧ !off then some (was.getD now) else none

/-- A feed's voltage changes; `off` says that it is disconnected or blocked. With no feed left the start threshold is to be reached
anew. -/
def setFeed (k : Nat) (mv : Int) (off : Bool) (s : State) : State :=
  let s := modPwr (fun p =>
    if k = 0 then { p with mv1 := mv, off1 := off, okAt1 := stoodSince mv off p.okAt1 s.now }
    else { p with mv2 := mv, off2 := off, okAt2 := stoodSince mv off p.okAt2 s.now }) s
  let s := modPwr (fun p => { p with threshold := p.threshold && (feedOk s 0 || feedOk s 1) }) s
  showFeed 1 (showFeed 0 s)

/-- The faults of the power range name a feed from 1, or a value measured (R582). -/
def feedFault (code k : Nat) (s : State) : State := raise code (k + 1) s

/-- R533: a feed at a voltage of at most 63 V: a fall below 2.7 V has its fault, and so has reverse polarity, which is blocked. -/
def feedAt (k : Nat) (mv : Int) (off : Bool) (s : State) : State :=
  let fell := mv < 2700 ∧ 2700 ≤ feedMv s k
  let s := setFeed k mv (off || mv < 0) s
  let s := if fell then feedFault (0xC01 + k) k (setBit s pwrStatus k) else s
  if mv < -1000 then feedFault 0xC04 k (setBit s pwrStatus 3) else s

/-- FEED_DROP (R533, R535): a feed falls, out of its range or within it; below −60 V it is outside the withstand. -/
def execFeedDrop (k : Fin 2) (millivolt : Int) (s : State) : Host.Outcome State Fault Refusal :=
  if millivolt < -60000 then .fault (.feedBeyondWithstand (k + 1))
  else if millivolt < feedMv s k ∧ 2700 ≤ feedMv s k then .next (feedAt k millivolt (feedOff s k) s)
  else .next s

/-- FEED_RETURN (R533, R535): a feed rises, into its range or within it. One that reverse polarity blocked is free again. -/
def execFeedReturn (k : Fin 2) (millivolt : Int) (s : State) : Host.Outcome State Fault Refusal :=
  if 2700 ≤ millivolt ∧ millivolt ≤ 63000 ∧ feedMv s k < millivolt then
    .next (setFeed k millivolt (feedOff s k && 0 ≤ feedMv s k) s)
  else .next s

/-- FEED_OVERVOLTAGE (R533): above 63 V the feed is disconnected; above 80 V it is outside the withstand. -/
def execFeedOvervoltage (k : Fin 2) (millivolt : Int) (s : State) : Host.Outcome State Fault Refusal :=
  if 80000 < millivolt then .fault (.feedBeyondWithstand (k + 1))
  else if 63000 < millivolt then .next (feedFault 0xC03 k (setBit (setFeed k millivolt true s) pwrStatus 2))
  else .next s

/-- FEED_RECONNECT (R533): below 61 V for 100 ms. -/
def execFeedReconnect (k : Fin 2) (millivolt : Int) (s : State) : Host.Outcome State Fault Refusal :=
  if feedOff s k ∧ 0 ≤ millivolt ∧ millivolt < 61000 then .next (feedAt k millivolt false s) else .next s

/-- FEED_REVERSE (R533): below −1 V the feed is blocked with fault 0xC04; below −60 V it is outside the withstand. -/
def execFeedReverse (k : Fin 2) (millivolt : Int) (s : State) : Host.Outcome State Fault Refusal :=
  if millivolt < -60000 then .fault (.feedBeyondWithstand (k + 1))
  else if millivolt < -1000 then .next (feedAt k millivolt true s)
  else .next s

/-! The hold-up store (R525, R539, R542). -/

/-- R539: the state of a charge in 0.1 %: 0 DISCHARGED, 1 PARTIAL, 2 FULL. -/
def storeState (charge : Nat) : Nat := if charge < 500 then 0 else if charge < 950 then 1 else 2

/-- R542: the highest charge that a measured capacity allows, in 0.1 % of 48 J. -/
def chargeLimit (s : State) : Nat := if getF s pwrStore 27 16 = 0 then 1000 else getF s pwrStore 27 16 * 1000 / 480

/-- R539: the store stands at a charge: a fault on each entry into a state that has one. -/
def setCharge (charge : Nat) (s : State) : State :=
  let was := getF s pwrStore 29 28
  let new := storeState charge
  let s := setF (setF s pwrStore 9 0 charge) pwrStore 29 28 new
  if new = was then s
  else match new with
    | 0 => raise 0xC10 charge (setBit s pwrStatus 4)
    | 2 => raise 0xC11 charge s
    | _ => s

/-- STORE_STATE_CHANGE (R525, R539, R542): a store whose capacity was measured stays within it, and one of a module not inserted for 10 ms
does not charge. -/
def execStoreStateChange (charge : Fin 1001) (s : State) : Host.Outcome State Fault Refusal :=
  if getF s pwrStore 9 0 < charge.val ∧ !presentLong s then .next s else .next (setCharge (Nat.min charge (chargeLimit s)) s)

/-- STORE_CAPACITY_TEST (R542): in 0.1 J; below 48 J the store is worn. -/
def execStoreCapacityTest (tenthJoule : BitVec 12) (s : State) : Host.Outcome State Fault Refusal :=
  let s := setF s pwrStore 27 16 tenthJoule.toNat
  let s := if tenthJoule.toNat < 480 then raise 0xC12 tenthJoule.toNat (setBit s pwrStatus 6) else s
  .next (setCharge (Nat.min (getF s pwrStore 9 0) (chargeLimit s)) s)

/-- R545: the lowest start temperature. -/
def lowestStart : Int := if Config.variantX then -40 else -25

/-- R545: what a temperature of the thermal face means for a start: below the lowest start temperature a module in reset stays there, its
fabric rail off. -/
def noteWarmth (celsius : Int) (s : State) : State :=
  let s := if celsius < lowestStart ∧ s.nwt.inReset then modNwt (fun n => { n with fabOk := false }) s else s
  modPwr (fun p =>
    if celsius < lowestStart then { p with warm := false, warmAt := none }
    else if p.warm || p.warmAt.isSome then p else { p with warmAt := some s.now }) s

/-- INTERFACE_OVERTEMP (R544, R545): PWR_THERM.IF takes the temperature of the thermal face; above 85 °C it is an indication. -/
def execInterfaceOvertemp (celsius : BitVec 9) (s : State) : Host.Outcome State Fault Refusal :=
  let s := noteWarmth celsius.toInt (setF s pwrTherm 17 9 celsius.toNat)
  if 85 < celsius.toInt then .next (raise 0xC21 celsius.toNat (setBit s pwrStatus 5)) else .next s

end Sys2Proof.Machine
end

