-- ==== Sys2Proof/Machine/Triple.lean ====
section
/-! DEFINITION. The triple store: its three copies, the vote and voted writes (R222 to R226). -/

namespace Sys2Proof.Machine

/-- A triple-store word by offset. -/
def tsWord (s : State) (off : Nat) : TsWord := tabGet {} s.ts off
def setTs (off : Nat) (w : TsWord) (s : State) : State := { s with ts := tabSet {} s.ts off w }

/-- R224: how three copies decide a word. -/
inductive Vote where
  | same (v : Word) (corrected : Bool)
  | odd (v : Word)
  | uncor (v : Word)
  | split
deriving DecidableEq, Repr

/-- R224: a copy is intact when its check bits show no error or a corrected single error. -/
def chkIntact : Chk → Bool
  | .uncor => false
  | _ => true

/-- R224: three intact copies. -/
def voteThree (w : TsWord) : Vote :=
  if w.c1 = w.c2 ∧ w.c2 = w.c3 then .same w.c1 (w.k1 == .single || w.k2 == .single || w.k3 == .single)
  else if w.c1 = w.c2 ∨ w.c1 = w.c3 then .odd w.c1
  else if w.c2 = w.c3 then .odd w.c2
  else .split

/-- R224: two intact copies. -/
def voteTwo (a b : Word) : Vote := if a = b then .uncor a else .split

/-- R224: the decision of a word from its three copies. -/
def vote (w : TsWord) : Vote :=
  match chkIntact w.k1, chkIntact w.k2, chkIntact w.k3 with
  | true, true, true => voteThree w
  | true, true, false => voteTwo w.c1 w.c2
  | true, false, true => voteTwo w.c1 w.c3
  | false, true, true => voteTwo w.c2 w.c3
  | _, _, _ => .split

/-- R224, R226: the decision of a word of the store; a word that read as split stays split. -/
def tsVoteOf (s : State) (off : Nat) : Vote := if s.tsSplit.contains off then .split else vote (tsWord s off)

/-- R224: the value a vote gives; poison where it is split. -/
def Vote.value : Vote → Word
  | .same v _ | .odd v | .uncor v => v
  | .split => poison

/-- The voted value of a word, without what a read causes. -/
def tsPeek (s : State) (off : Nat) : Word := (tsVoteOf s off).value

/-- R223, R225, R226: a voted write writes the three copies, cancels a queued repair and ends a split. -/
def tsWrite (off : Nat) (v : Word) (s : State) : State :=
  { setTs off { c1 := v, c2 := v, c3 := v } s with
    tsRepairs := s.tsRepairs.filter (·.1 != off), tsSplit := s.tsSplit.filter (· != off) }

/-- R225: a repair joins the queue of 8, or is dropped with fault 0x314. A second repair of a word that waits is the same repair (DESIGN
CHOICE, log entry 162). -/
def queueRepair (off : Nat) (v : Word) (s : State) : State :=
  if s.tsRepairs.any (·.1 == off) then s
  else if s.tsRepairs.length < 8 then { s with tsRepairs := s.tsRepairs ++ [(off, v)] }
  else raise 0x314 off (setBit s cmpTsStat 3)

/-- R223: a write to raw copy `k`, 1 to 3. -/
def tsWriteRaw (k off : Nat) (v : Word) (s : State) : State :=
  let w := tsWord s off
  setTs off (match k with
    | 1 => { w with c1 := v, k1 := .ok }
    | 2 => { w with c2 := v, k2 := .ok }
    | _ => { w with c3 := v, k3 := .ok }) s

/-- R223: a raw copy and what its check bits show. -/
def tsCopy (s : State) (k off : Nat) : Word × Chk :=
  let w := tsWord s off
  match k with
  | 1 => (w.c1, w.k1)
  | 2 => (w.c2, w.k2)
  | _ => (w.c3, w.k3)

/-- R223: a read of a raw copy. -/
def tsReadRaw (k off : Nat) (s : State) : Word × State :=
  let c := tsCopy s k off
  if c.2 = .uncor then (poison, raise 0x312 off (addSat (setBit s cmpTsStat 2) cmpTsCnt 23 12 1)) else (c.1, s)

/-- TRIPLE_STORE_REPAIR (R225): a queued repair writes all three copies with the voted value, in a tick in which no numbered
master requests the store. -/
def execTripleStoreRepair (s : State) : Host.Outcome State Fault Refusal :=
  match s.tsRepairs with
  | (off, v) :: t =>
    if !backgroundFree s 0x03000000 then .next s
    else .next (grantBackground 0x03000000
      (addSat (setTs off { c1 := v, c2 := v, c3 := v } { s with tsRepairs := t }) cmpTsCnt 11 0 1))
  | [] => .next s

/-! Safety parameters (R412, R413). -/

/-- Word `j` of drive block `d`. -/
def drvPar (s : State) (d j : Nat) : Nat := (tsPeek s (0x400 + d * 0x200 + j)).toNat
/-- Word `j` of the common safety parameters. -/
def comPar (s : State) (j : Nat) : Nat := (tsPeek s (0x200 + j)).toNat

end Sys2Proof.Machine
end

