-- ==== Sys2Proof/Machine/Lio.lean ====
section
/-! DEFINITION. Local field I/O: bands, filters, outputs, PWM, safe states, test supplies and current loops (R440 to R458).
Channel `l` is L(l + 1), supply `k` is T(k + 1) and loop `a` is A(a + 1). -/

namespace Sys2Proof.Machine

/-- A fault of local I/O: number, from 1, and kind 0 channel, 1 supply, 2 loop, 3 group, 4 faceplate (R582). -/
def lioFault (code kind n : Nat) (s : State) : State := raise code (n % 32 + kind * 2 ^ 5) s

/-! Configuration and loading (R440, R441). -/

/-- LIO_CHk_CFG.DIR: 0 unused, 1 input, 2 output, 3 PWM output. -/
def chanDir (s : State) (l : Nat) : Nat := getF s (lioCfg (l + 1)) 35 34
def isOutput (s : State) (l : Nat) : Bool := 2 ≤ chanDir s l
/-- R444: the filter time in ticks. -/
def filterTicks (s : State) (l : Nat) : Nat :=
  match getF s (lioCfg (l + 1)) 25 24 with
  | 0 => 1000
  | 1 => 250000
  | 2 => 750000
  | _ => 2500000

/-- R441: the module loads its terminals. -/
def loadsNow (s : State) : Bool := s.link.latch || (s.mst == .bench && !s.link.partner)

/-- R444: a band freeze of channel `l` while a test pulse lasts, and until tick `t` after its end. -/
def freezeChan (l : Nat) (t : Option Nat) (s : State) : State :=
  modChan l (fun c => { c with frozen := true, freezeEnd := t }) s

/-- R444: the freeze of channel `l` until tick `t` as loading stops; a longer freeze goes on. -/
def freezeUnloaded (l t : Nat) (s : State) : State :=
  modChan l (fun c =>
    { c with frozen := true, freezeEnd := if c.frozen then c.freezeEnd.map (Nat.max t) else some t }) s

/-- R441, R444, R457: loading starts or stops after a change of the claim, of the state or of the partner's presence. -/
def loadUpdate (s : State) : State :=
  let recent (x : Lio) : List Nat := x.loads.filter (fun t => s.now < t + 25002500) ++ [s.now]
  if loadsNow s = s.lio.loading then s
  else if loadsNow s then modLio (fun x => { x with loading := true, loadAt := some s.now, loads := recent x, settled := false }) s
  else forUpto 24 (fun l => freezeUnloaded l (s.now + 2500))
    (modLio (fun x => { x with loading := false, loadAt := some s.now, loads := recent x, settled := true }) s)

/-! Bands (R443 to R446). -/

def bandCode : Band → Nat
  | .wireBreak => 0
  | .openContact => 1
  | .on => 2

/-- The filtered band, LIO_CHk_IN.NOW. -/
def nowBand (s : State) (l : Nat) : Nat := getF s (lioIn (l + 1)) 5 4

/-- R443: the band of a terminal voltage; in a transition range the previous band stands. -/
def bandOf (mv : Int) (was : Band) : Band :=
  if 11000 ≤ mv then .on
  else if 2000 ≤ mv ∧ mv ≤ 8000 then .openContact
  else if mv < 1500 then .wireBreak
  else was

/-- R445: edge events are queued for the channel. -/
def edgesOn (s : State) (l : Nat) : Bool :=
  chanDir s l == 1 && bitOf s (lioCfg (l + 1)) 23 && (s.mst == .active || s.mst == .bench)

/-- R108, R325, R445: an edge event of channel `l`, which arrives its edge delay later. -/
def edgeEvent (l : Nat) (rising : Bool) (s : State) : State :=
  let d := reg s (lioEdly (l + 1))
  postDelayed (if rising then slice d.toNat 17 0 else slice d.toNat 35 18) (0x0900 + l) (if rising then 1 else 0) s

/-- R448: what the output drives and reads back no longer disagree. -/
def clearReadback (l : Nat) (s : State) : State :=
  let on := (chan s l).raw == .on
  let s := if on then setBit s (lioIn (l + 1)) 7 false else setBit s (lioIn (l + 1)) 8 false
  if (chan s l).driven = 0 then setBit (setBit s (lioIn (l + 1)) 7 false) (lioIn (l + 1)) 9 false
  else setBit s (lioIn (l + 1)) 8 false

/-- R449, R450: crossings are kept for the measured duty. -/
def noteCrossing (l : Nat) (rising : Bool) (s : State) : State :=
  modChan l (fun c => if rising then { c with rise0 := c.rise1, fall0 := c.fall1, rise1 := s.now } else { c with fall1 := s.now }) s

/-- R429, R448: whether the terminal reads On, and since when; a freeze of the channel keeps it. -/
def noteOn (l : Nat) (s : State) : State :=
  modChan l (fun c => if c.frozen || c.steady == (c.raw == .on) then c else { c with steady := c.raw == .on, onAt := s.now }) s

/-- INPUT_CROSSING (R443, R445): the terminal's voltage moves; at FILT 0 each crossing of 11 V upward or 8 V downward queues
an event. -/
def execInputCrossing (l : Fin 24) (millivolt : Int) (s : State) : Host.Outcome State Fault Refusal :=
  let c := chan s l
  let up := decide (c.mv < 11000) && decide (11000 ≤ millivolt)
  let down := decide (8000 ≤ c.mv) && decide (millivolt < 8000)
  let raw := bandOf millivolt c.raw
  let s := modChan l (fun c => { c with mv := millivolt, raw := raw, rawAt := if raw = c.raw then c.rawAt else s.now }) s
  let s := noteOn l (if up || down then noteCrossing l up s else s)
  let s := clearReadback l s
  .next (if (up || down) && getF s (lioCfg (l + 1)) 25 24 == 0 && edgesOn s l then edgeEvent l up s else s)

/-- R444: the filtered band takes the raw band; an event follows where it enters or leaves On with FILT not 0. -/
def takeBand (l : Nat) (event : Bool) (s : State) : State :=
  let was := nowBand s l
  let new := bandCode (chan s l).raw
  let s := setF s (lioIn (l + 1)) 5 4 new
  if event && (was == 2) != (new == 2) && getF s (lioCfg (l + 1)) 25 24 != 0 && edgesOn s l then edgeEvent l (new == 2) s
  else s

/-- The raw band has stood unchanged for the filter time. -/
def hasStood (s : State) (l : Nat) : Bool := (chan s l).rawAt + filterTicks s l ≤ s.now

/-- FILTERED_BAND_CHANGE (R444, R445). -/
def execFilteredBandChange (l : Fin 24) (s : State) : Host.Outcome State Fault Refusal :=
  .next (if hasStood s l && !(chan s l).frozen && nowBand s l != bandCode (chan s l).raw then takeBand l true s else s)

/-- FREEZE_END (R444): the filtered band takes the raw band at once, without an event, if that has stood long enough. -/
def execFreezeEnd (l : Fin 24) (s : State) : Host.Outcome State Fault Refusal :=
  match (chan s l).freezeEnd with
  | some t =>
    if !(chan s l).frozen || s.now < t then .next s
    else
      let s := noteOn l (modChan l (fun c => { c with frozen := false, freezeEnd := none }) s)
      .next (if hasStood s l then takeBand l false s else s)
  | none => .next s

/-- LOADING_SETTLE (R444): 250 ticks after loading starts, each filtered band is the raw band. -/
def execLoadingSettle (s : State) : Host.Outcome State Fault Refusal :=
  match s.lio.loadAt with
  | some t =>
    if s.lio.loading && !s.lio.settled && decide (t + 250 ≤ s.now) then
      .next (forUpto 24 (fun l => takeBand l false) (modLio (fun x => { x with settled := true }) s))
    else .next s
  | none => .next s

/-! Ownership (R411). -/

/-- The channel field of a drive block, 1 to 24 for L01 to L24. -/
def tloc (s : State) (d : Nat) : Nat := slice (drvPar s d 0) 29 25
def kloc (s : State) (d : Nat) : Nat := slice (drvPar s d 0) 24 20
def kfb (s : State) (d : Nat) : Nat := slice (drvPar s d 0) 19 15
def ginCh (s : State) (d : Nat) : Nat := slice (drvPar s d 0) 14 10
def rstCh (s : State) (d : Nat) : Nat := slice (drvPar s d 0) 9 5

/-- The monitor's state of drive `d`: 0 UNSUP, 1 RUN, 2 SS1, 3 STO, 4 LOCKOUT (R416). -/
def drvState (s : State) (d : Nat) : Nat := getF s (safState d) 2 0
def supervised (s : State) (d : Nat) : Bool := drvState s d != 0

/-- The drive, if any, whose torque or contactor output channel `l` is. -/
def torqueOf (s : State) (l : Nat) : Option Nat := (List.range 64).find? fun d => supervised s d && tloc s d == l + 1
def contactorOf (s : State) (l : Nat) : Option Nat := (List.range 64).find? fun d => supervised s d && kloc s d == l + 1

/-- R411: the monitor owns the channel. -/
def owned (s : State) (l : Nat) : Bool :=
  (List.range 64).any fun d => supervised s d
    && (tloc s d == l + 1 || kloc s d == l + 1 || kfb s d == l + 1 || ginCh s d == l + 1 || rstCh s d == l + 1)

/-- R413: P and WO in 1/64 ns. -/
def testPeriod (s : State) : Nat := slice (comPar s 0) 9 0 * 64000000
def darkWidth (s : State) : Nat := slice (comPar s 0) 29 20 * 64000

/-- R413, R428: the dark test of an owned output switches it off in this tick: for WO, from P/8 after the multiple of P. -/
def darkNow (s : State) (l : Nat) : Bool :=
  slice (comPar s (l + 1)) 3 3 == 1 && owned s l
    && (s.time.ns64 + testPeriod s - testPeriod s / 8) % testPeriod s < darkWidth s

/-- What channel `l` drives, in 0.1 %: nothing without the mandate (R19), no torque once the monitor is frozen (R435), and nothing in a
dark test. -/
def drivenNow (s : State) (l : Nat) : Nat :=
  if !holds s || !isOutput s l || (s.saf.frozen && (torqueOf s l).isSome) || darkNow s l then 0 else (chan s l).driven

/-- R448, R450: the output drives its terminal on in this tick; a PWM output does so for its duty's share of each period. -/
def onNow (s : State) (l : Nat) : Bool :=
  let d := drivenNow s l
  if chanDir s l = 3 ∧ d < 1000 then s.time.ns64 * getF s (lioCfg (l + 1)) 20 10 % nsWrap * 1000 < d * nsWrap else d != 0

/-- A channel's driver is set. -/
def setDriven (l v : Nat) (s : State) : State :=
  clearReadback l (modChan l (fun c => { c with driven := v, drvAt := if (c.driven == 0) == (v == 0) then c.drvAt else s.now }) s)

/-- R447: a channel's driver is set at a midnight: one turned off at its limit is tried again at the first that lies 1 s later or more, with
a value that is on; a retry that has held until the next midnight ends the overload. -/
def tryDrive (l v : Nat) (s : State) : State :=
  match (chan s l).ovlAt with
  | some t =>
    if (chan s l).retried then
      setDriven l v (setBit (modChan l (fun c => { c with ovlAt := none, retried := false }) s) (lioIn (l + 1)) 10 false)
    else if t + 250000000 ≤ s.now ∧ v ≠ 0 then setDriven l v (modChan l (fun c => { c with ovlAt := some s.now, retried := true }) s)
    else s
  | none => setDriven l v s

/-- R447: a retry has held for the 1 ms in which a driver at its limit turns off: OVL then reads 0. -/
def retryHeld (s : State) (l : Nat) : Bool :=
  (chan s l).retried && (match (chan s l).ovlAt with | some t => t + 250000 ≤ s.now | none => false)

/-! Outputs (R183, R411, R447 to R451). -/

/-- R411, R451, R453: a plant write to an output value. -/
def lioOutWrite (l v : Nat) (s : State) : State :=
  if owned s l then s
  else
    let was := getF s (lioOut (l + 1)) 9 0
    setReg (modChan l (fun c => { c with written := true,
                                         hist := (c.hist ++ [(s.now, was)]).filter (fun h => s.now ≤ h.1 + 251) }) s)
      (lioOut (l + 1)) (word v)

/-- LIO_OUT_WRITE (R9, R411, R453). -/
def execLioOutWrite (l : Fin 24) (v : BitVec 10) (s : State) : Host.Outcome State Fault Refusal :=
  .next (lioOutWrite l v.toNat (noteWrote (lioOut (l + 1)) s))

/-- R450: the duty of a written value. -/
def dutyOf (v : Nat) : Nat := Nat.min v 1000

/-- R451: LIO_CHk_OUT as it stood at the end of the tick 251 before now. -/
def outBefore (s : State) (l : Nat) : Nat :=
  match (chan s l).hist.find? (fun h => s.now ≤ h.1 + 250) with
  | some h => h.2
  | none => getF s (lioOut (l + 1)) 9 0

/-- R450: a reload instant j/f falls in this tick. -/
def reloadNow (s : State) (f : Nat) : Bool := f != 0 && instantIn s f nsWrap 0

/-- R448: the centre of an on interval (`on`) or off interval of a PWM output of duty `d` falls in this tick, and the interval lasts at
least 20 µs. -/
def centreNow (s : State) (f d : Nat) (on : Bool) : Bool :=
  if on then f ≤ 50 * d && instantIn s (2000 * f) (2000 * nsWrap) (d * nsWrap)
  else f ≤ 50 * (1000 - d) && instantIn s (2000 * f) (2000 * nsWrap) ((1000 + d) * nsWrap)

/-- PWM_RELOAD (R450, R451): outside a safe state, and not while the driver is off at its limit. -/
def execPwmReload (l : Fin 24) (s : State) : Host.Outcome State Fault Refusal :=
  .next (if chanDir s l == 3 && reloadNow s (getF s (lioCfg (l + 1)) 20 10) && !owned s l && !bitOf s (lioIn (l + 1)) 11
      && ((chan s l).ovlAt.isNone || (chan s l).retried) then
    setDriven l (dutyOf (outBefore s l)) s else s)

/-- OUTPUT_OVERLOAD (R447): the driver turns off. -/
def execOutputOverload (l : Fin 24) (s : State) : Host.Outcome State Fault Refusal :=
  if drivenNow s l = 0 then .next s
  else
    let s := setBit (setBit s (lioIn (l + 1)) 10) lioStatus 1
    .next (lioFault 0x920 0 (l + 1) (setDriven l 0 (modChan l (fun c => { c with ovlAt := some s.now, retried := false }) s)))

/-- OPEN_LOAD (R448). -/
def execOpenLoad (l : Fin 24) (s : State) : Host.Outcome State Fault Refusal :=
  if drivenNow s l = 0 || !bitOf s (lioCfg (l + 1)) 21 then .next s
  else .next (lioFault 0x923 0 (l + 1) (setBit (setBit s (lioIn (l + 1)) 9) lioStatus 4))

/-- GROUP_FIELD_SUPPLY_CHANGE (R440): group supply `g` + 1 enters or leaves 19.2 V to 30 V. -/
def execGroupFieldSupplyChange (g : Fin 3) (inRange : Bool) (s : State) : Host.Outcome State Fault Refusal :=
  let was := bitOf s lioTsup (8 + g)
  let s := setBit s lioTsup (8 + g) inRange
  .next (if was && !inRange then lioFault 0x924 3 (g + 1) (setBit s lioStatus 5) else s)

/-! Test supplies (R455). -/

/-- TEST_SUPPLY_OVERLOAD (R455): off for 100 ms. -/
def execTestSupplyOverload (k : Fin 4) (s : State) : Host.Outcome State Fault Refusal :=
  if !holds s || bitOf s lioTsup (4 + k) then .next s
  else .next (lioFault 0x930 1 (k + 1) (setBit (setBit (modLio (fun x => { x with tovlAt := tabSet 0 x.tovlAt k (s.now + 1) }) s)
    lioTsup (4 + k)) lioStatus 7))

/-- TEST_SUPPLY_RETRY (R455). -/
def execTestSupplyRetry (k : Fin 4) (s : State) : Host.Outcome State Fault Refusal :=
  let at' := tabGet 0 s.lio.tovlAt k
  .next (if at' != 0 && decide (at' + 25000000 ≤ s.now + 1) then
    setBit (modLio (fun x => { x with tovlAt := tabSet 0 x.tovlAt k 0 }) s) lioTsup (4 + k) false else s)

/-! Current loops (R456 to R458). -/

/-- LOOP_SAMPLE (R456): the samples of the last 100 ms are kept. -/
def execLoopSample (a : Fin 8) (microamp : Int) (atLimit : Bool) (s : State) : Host.Outcome State Fault Refusal :=
  let keep := (tabGet [] s.lio.loops a).filter fun t => s.now < t.1 + 25000000
  .next (modLio (fun x => { x with loops := tabSet [] x.loops a (keep ++ [(s.now, microamp, atLimit)]) }) s)

/-- R457: the window of loop `a` in ticks. -/
def loopWindow (s : State) (a : Nat) : Nat :=
  match getF s lioAiCfg (2 * a + 1) (2 * a) with
  | 0 => 250000
  | 2 => 25000000
  | _ => 5000000

/-- R457: the samples of the window that ends now, without those near a change of loading. -/
def loopSamples (s : State) (a : Nat) : List (Int × Bool) :=
  ((tabGet [] s.lio.loops a).filter fun t =>
    s.now ≤ t.1 + loopWindow s a && s.lio.loads.all fun c => t.1 < c || c + 2500 ≤ t.1).map (·.2)

/-- A quotient rounded half to even. -/
def divHalfEven (n : Int) (d : Nat) : Int :=
  let q := n / d
  let r := n % d
  if 2 * r < d then q else if (d : Int) < 2 * r then q + 1 else if q % 2 = 0 then q else q + 1

/-- R457: (I − 4 mA)/16 mA as pu36, limited to [−0.25, +1.3125] pu. -/
def loopValue (sum : Int) (n : Nat) : Word :=
  wordI (Max.max (-(2 ^ 28)) (Min.min (21 * 2 ^ 26) (divHalfEven ((sum - 4000 * (n : Nat)) * 2 ^ 30) (16000 * n))))

/-- R458: the status of a mean loop current. -/
def loopStatus (sum : Int) (n : Nat) (limit : Bool) : Nat :=
  let m (t : Int) : Int := t * (n : Nat)
  if limit then 5 else if sum ≤ m 3600 then 3 else if sum < m 3800 then 1 else if sum ≤ m 20500 then 0
  else if sum < m 21000 then 2 else 4

/-- R458: the fault of a status. -/
def loopFault (st : Nat) : Option Nat :=
  match st with
  | 1 | 2 => some 0x942
  | 3 => some 0x940
  | 4 => some 0x941
  | 5 => some 0x943
  | _ => none

/-- R457, R458: loop `a` at a midnight. With no sample in the window the spec gives no value: it is free. -/
def loopMidnight (a : Nat) (s : State) : State :=
  let xs := loopSamples s a
  let was := getF s (lioAiSt (a + 1)) 2 0
  let sum := xs.foldl (fun t x => t + x.1) 0
  let st := if xs.isEmpty then 6 else loopStatus sum xs.length (xs.any (·.2))
  let s := if xs.isEmpty then setReg (bump s) (lioAi (a + 1)) (Config.freeWord s.fresh)
    else setReg s (lioAi (a + 1)) (loopValue sum xs.length)
  let s := setReg s (lioAiSt (a + 1)) (word st)
  match loopFault st with
  | some f => if st = was then s else lioFault f 2 (a + 1) (setBit s lioStatus 8)
  | none => s

/-! Readback for a change of mandate (R449). -/

/-- R449, R450: the duty measured over the last whole period, to 0.1 %; a terminal that has had no rise for a period and 1 µs is steady. -/
def measuredDuty (s : State) (l : Nat) : Nat :=
  let c := chan s l
  if c.rise0 < c.fall0 ∧ c.fall0 < c.rise1 ∧ s.now ≤ c.rise1 + (c.rise1 - c.rise0) + 250 then
    ((c.fall0 - c.rise0) * 2000 + (c.rise1 - c.rise0)) / (2 * (c.rise1 - c.rise0))
  else if c.raw = .on then 1000 else 0

/-- R449: what the module would load its outputs with. -/
def readback (s : State) : List (Nat × Word) :=
  (List.range 24).filterMap fun l =>
    if chanDir s l = 2 then some (l, if (chan s l).raw = .on then 1 else 0)
    else if chanDir s l = 3 then some (l, word (measuredDuty s l))
    else none

/-- R449: each LIO_CHk_OUT loaded from a readback at the midnight of transition 6; a PWM output drives its duty from there on. -/
def loadReadback (s : State) : State :=
  s.link.readback.foldl (fun t r =>
    let t := hwField t (lioOut (r.1 + 1)) 35 0 r.2.toNat
    if chanDir t r.1 = 3 then setDriven r.1 (dutyOf r.2.toNat) t else t) s

/-! The midnight of local I/O (R183, R446, R447, R452, R453). -/

/-- R446: the midnight sample of channel `l`, and fault 0x910 on the first midnight in the wire-break band. -/
def sampleChan (l : Nat) (s : State) : State :=
  let b := nowBand s l
  let wb := bitOf s (lioCfg (l + 1)) 22
  let mid := if b = 0 ∧ wb = false then 1 else b
  let brk := b == 0 && wb && chanDir s l == 1
  let first := brk && !(chan s l).broke
  let s := setF (setF s (lioIn (l + 1)) 3 2 mid) (lioIn (l + 1)) 0 0 (if mid = 2 then 1 else 0)
  let s := modChan l (fun c => { c with broke := brk }) s
  if first then lioFault 0x910 0 (l + 1) (setBit s lioStatus 0) else s

/-- R452: a safe state as its voted word gives it; 3 is taken as off. -/
def safeStateOf (w : Word) : Nat := if w.toNat % 4 = 3 then 0 else w.toNat % 4

/-- R183, R447, R453: the captured value reaches the driver; a PWM output takes it at its reloads, and here where it leaves its safe state
or is tried again. -/
def applyCaptured (leaves : Bool) (l : Nat) (s : State) : State :=
  let out := getF s (lioOut (l + 1)) 9 0
  let again := (chan s l).ovlAt.isSome && !(chan s l).retried
  tryDrive l (if chanDir s l = 2 then (if out % 2 = 1 then 1000 else 0) else if leaves || again then dutyOf out else (chan s l).driven) s

/-- R453: the refresh count of an output channel, 0 at transition 6, and its safe state when the count reaches TMO. -/
def refreshChan (l : Nat) (s : State) : State :=
  let c := chan s l
  let n := if c.written || s.saf.resumeDay == some s.day.n then 0 else Nat.min (c.refresh + 1) 255
  let tmo := getF s (lioCfg (l + 1)) 33 26
  let s := modChan l (fun c => { c with refresh := n }) s
  if tmo ≠ 0 ∧ tmo ≤ n then
    let s := if c.latch = 2 then s else tryDrive l (if c.latch = 1 then 1000 else 0) s
    if bitOf s (lioIn (l + 1)) 11 then s
    else lioFault 0x925 0 (l + 1) (setBit (setBit s (lioIn (l + 1)) 11) lioStatus 6)
  else s

/-- R183, R453: an output channel that the monitor does not own, at a midnight. It leaves its safe state at the midnight that
captures the next write. `beat` says that the module holds the mandate and the heartbeat is issued. -/
def outputMidnight (beat : Bool) (l : Nat) (s : State) : State :=
  if !isOutput s l || owned s l then s
  else
    let leaves := bitOf s (lioIn (l + 1)) 11 && (chan s l).written
    let s := if leaves then setBit s (lioIn (l + 1)) 11 false else s
    let s := if bitOf s (lioIn (l + 1)) 11 then s else applyCaptured leaves l s
    let s := if beat then refreshChan l s else s
    modChan l (fun c => { c with written := false }) s

end Sys2Proof.Machine
end

