-- ==== Sys2Proof/Machine/SafetyEv.lean ====
section
/-! DEFINITION. The safety monitor: drive states and commands, ramp monitoring, restart, input and output tests, telegrams,
and what a split of the triple store does to the drives (R224 to R228, R409 to R439). -/

namespace Sys2Proof.Machine

/-- A fault of the safety range: drive in [5:0], channel in [12:6], connection in [19:13] (R582). -/
def safFault (code d ch c : Nat) (s : State) : State := raise code (d % 64 + ch % 128 * 2 ^ 6 + c % 128 * 2 ^ 13) s

/-- Safety functions run where plans run (R18, R410). -/
def safRuns (s : State) : Bool := s.mst == .active || s.mst == .bench

/-! Drive states (R411, R416 to R418). -/

/-- R412: TPATH names a local torque path. -/
def localTorque (s : State) (d : Nat) : Bool := slice (drvPar s d 0) 30 30 == 1 && tloc s d != 0

/-- R411: the drive's torque output is off. -/
def torqueOff (d : Nat) (s : State) : State := if localTorque s d then setDriven (tloc s d - 1) 0 s else s

/-- R416, R447: the drive's contactor output; its change starts the feedback time of R429. -/
def setCoil (d : Nat) (v : Bool) (s : State) : State :=
  if kloc s d = 0 then s else if v then tryDrive (kloc s d - 1) 1000 s else setDriven (kloc s d - 1) 0 s

/-- The drive enters STO: torque removed, restart conditions begin anew (R416, R424), fault 0x840 where torque was permitted. -/
def enterSto (d : Nat) (s : State) : State :=
  let was := drvState s d
  let s := torqueOff d (setF (setF s (safState d) 5 5 0) (safState d) 2 0 3)
  let s := modDrive d (fun x => { x with runNext := false, edge := false, phase := 0, open' := 0 }) s
  if was = 1 ∨ was = 2 then safFault 0x840 d 0 0 s else s

/-- R418: a cause forces the drive to STO; LOCKOUT, the more restrictive, stays. -/
def forceSto (d cause : Nat) (s : State) : State :=
  match drvState s d with
  | 1 | 2 => enterSto d (setF s (safState d) 35 24 cause)
  | 3 => modDrive d (fun x => { x with runNext := false }) (setF s (safState d) 35 24 cause)
  | _ => s

/-- R418: a cause forces the drive to LOCKOUT: torque removed and the contactor output open. -/
def forceLockout (d cause : Nat) (s : State) : State :=
  if !supervised s d then s
  else setCoil d false (modDrive d (fun x => { x with runNext := false })
    (torqueOff d (setF (setF (setF s (safState d) 35 24 cause) (safState d) 5 5 0) (safState d) 2 0 4)))

/-! The triple store read with what a vote causes (R224, R226, R227). -/

/-- R227: the drives whose safety data a split offset belongs to. -/
def splitDrives (off : Nat) : List Nat :=
  if off < 0x400 then List.range 64 else if off < 0x8400 then [(off - 0x400) / 0x200] else []

/-- R226, R227: a word is found split. -/
def tsSplitFound (off : Nat) (s : State) : State :=
  let s := addSat (setF (setBit s cmpTsStat 0) cmpTsStat 19 4 off) cmpTsCnt 35 24 1
  let s := raise 0x313 off { s with tsSplit := if s.tsSplit.contains off then s.tsSplit else s.tsSplit ++ [off] }
  (splitDrives off).foldl (fun t d => forceSto d 0x313 t) s

/-- R224: a voted read or a scrub visit: the value, with the repair and the fault of its row. -/
def tsRead (off : Nat) (s : State) : Word × State :=
  match tsVoteOf s off with
  | .same v corrected => (v, if corrected then raise 0x311 off (queueRepair off v s) else s)
  | .odd v => (v, raise 0x310 off (queueRepair off v (setBit s cmpTsStat 1)))
  | .uncor v => (v, raise 0x312 off (queueRepair off v (addSat (setBit s cmpTsStat 2) cmpTsCnt 23 12 1)))
  | .split => (poison, tsSplitFound off s)

/-- TRIPLE_STORE_SCRUB (R224, R228): the scrubber visits a word; `found` is a disturbance of one copy since the last visit. The
visit is made only in a tick in which the store is free (R32). -/
def execTripleStoreScrub (off : Fin 65536) (found : Option (Fin 3 × Word × Chk)) (s : State) :
    Host.Outcome State Fault Refusal :=
  let w := tsWord s off
  let w := match found with
    | some (⟨0, _⟩, v, k) => { w with c1 := v, k1 := k }
    | some (⟨1, _⟩, v, k) => { w with c2 := v, k2 := k }
    | some (_, v, k) => { w with c3 := v, k3 := k }
    | none => w
  let s := setTs off w s
  .next (if backgroundFree s 0x03000000 then (tsRead off (grantBackground 0x03000000 s)).2 else s)

/-! Commands (R417, R419 to R421). -/

/-- R412: milliseconds as days, rounded up. -/
def daysOf (s : State) (ms : Nat) : Nat := if dayL s = 0 then ms else (ms * 1000 + dayL s - 1) / dayL s

/-- |v| read by ABSS (R423). -/
def magOf (v : Word) : Word := (aluAbss v).1

/-- R420: SS1 starts in the tick of its command. -/
def startSs1 (d : Nat) (s : State) : State :=
  modDrive d (fun x => { x with n0 := s.day.n, v0 := x.speed.map magOf, runNext := false })
    (setF (setF s (safState d) 23 12 0) (safState d) 2 0 2)

/-- R417: what a served command does. SS1 to a drive that does not permit it is taken as STO. -/
def takeCommand (d cmd : Nat) (s : State) : State :=
  match cmd, drvState s d with
  | 2, _ => s
  | 1, 1 => if slice (drvPar s d 0) 34 34 = 1 then startSs1 d s else enterSto d s
  | 1, _ => modDrive d (fun x => { x with runNext := false }) s
  | _, 1 => enterSto d s
  | _, 2 => enterSto d s
  | _, _ => modDrive d (fun x => { x with runNext := false }) s

/-- R417, R435: a write of a drive's command. A frozen monitor refuses it. -/
def drvCmdWrite (d cmd : Nat) (s : State) : State :=
  if s.saf.frozen then s
  else
    let s := modDrive d (fun x => { x with cmdToday := true }) (setReg s (safCmd d) (word (cmd % 4)))
    if supervised s d then takeCommand d (cmd % 4) s else s

/-- SAF_DRV_CMD_WRITE (R417). -/
def execSafDrvCmdWrite (d : Fin 64) (cmd : BitVec 2) (s : State) : Host.Outcome State Fault Refusal :=
  .next (drvCmdWrite d cmd.toNat s)

/-- R433, R435: a write of an inbound telegram word. -/
def connRxWrite (c j : Nat) (v : Word) (s : State) : State :=
  if s.saf.frozen then s
  else modConn c (fun x => { x with mask := x.mask ||| 2 ^ j }) (setReg s (safRx c j) v)

/-- SAF_CONN_RX_WRITE (R433). -/
def execSafConnRxWrite (c : Fin 128) (j : Fin 6) (v : Word) (s : State) : Host.Outcome State Fault Refusal :=
  .next (connRxWrite c j v s)

/-! Contactor feedback and unlock (R419, R429). -/

/-- The raw band of a channel named by a drive block, 1 to 24, is On. -/
def readsOn (s : State) (ch : Nat) : Bool := ch != 0 && (chan s (ch - 1)).raw == .on

/-- R429: the contactor output is energised. -/
def coilOn (s : State) (d : Nat) : Bool := kloc s d != 0 && (chan s (kloc s d - 1)).driven != 0

/-- R412: TCF in ticks, its days whole. -/
def tcfTicks (s : State) (d : Nat) : Nat :=
  if dayL s = 0 then slice (drvPar s d 7) 19 0 * 250000 else daysOf s (slice (drvPar s d 7) 19 0) * dayT s

/-- R429: the mirror contact reads wrongly for the coil as it stands; what it reads in a pulse of its own test supply does not count. -/
def feedbackWrong (s : State) (d : Nat) : Bool := kfb s d != 0 && (chan s (kfb s d - 1)).steady == coilOn s d

/-- R429: the tick since when coil and mirror contact have stood as they do. -/
def feedbackSince (s : State) (d : Nat) : Nat :=
  Nat.max (if kloc s d = 0 then 0 else (chan s (kloc s d - 1)).drvAt) (chan s (kfb s d - 1)).onAt

/-- CONTACTOR_FEEDBACK_TIMEOUT (R429): a wrong reading held for longer than TCF forces LOCKOUT. -/
def execContactorFeedbackTimeout (d : Fin 64) (s : State) : Host.Outcome State Fault Refusal :=
  if !supervised s d || !holds s || !feedbackWrong s d || decide (s.now ≤ feedbackSince s d + tcfTicks s d) || bitOf s (safState d) 4 then
    .next s
  else .next (safFault 0x816 d (kfb s d) 0 (forceLockout d 0x816 (setBit (setBit s (safState d) 4) safStatus 3)))

/-- R419, R428, R429: the cause of a drive's LOCKOUT persists: its mirror contact reads wrongly, or its contactor output, which is off, reads
On; or its torque output does. -/
def causePersists (s : State) (d : Nat) : Bool :=
  (bitOf s (safState d) 4 && (feedbackWrong s d || readsOn s (kloc s d))) || (bitOf s (safState d) 3 && readsOn s (tloc s d))

/-- R419: an unlock. RESULT 1 unlocked, 2 cause persists, 3 not in LOCKOUT. -/
def unlock (d : Nat) (s : State) : State :=
  if drvState s d ≠ 4 then setF s safUnlock 7 6 3
  else if causePersists s d then setF s safUnlock 7 6 2
  else safFault 0x841 d 0 0 (enterSto d (setF (setF s safUnlock 7 6 1) (safState d) 4 3 0))

/-- SAF_UNLOCK_GO (R419). -/
def execSafUnlockGo (d : Fin 64) (s : State) : Host.Outcome State Fault Refusal := .next (unlock d s)

/-! Telegrams (R430, R431, R433). -/

/-- R430: one input bit of the check value, polynomial 0x1EDC_6F41. -/
def safBit (r : Nat) (b : Bool) : Nat :=
  if b != (r / 2 ^ 31 % 2 == 1) then (r * 2 % 2 ^ 32) ^^^ 0x1EDC6F41 else r * 2 % 2 ^ 32

/-- R430: the low `n` bits of `v`, most significant first. -/
def safBits (v : Nat) : Nat → Nat → Nat
  | 0, r => r
  | n + 1, r => safBits v n (safBit r (v / 2 ^ n % 2 == 1))

/-- R430: the check value of words 0 to 3, the register starting at the CID. -/
def safCheck (cid : Nat) (ws : List Word) : Nat := ws.foldl (fun r w => safBits w.toNat 36 r) cid

/-- R413: connection `c` is in use in a direction, 0 inbound and 1 outbound. -/
def connUsed (s : State) (c dir : Nat) : Bool := slice (comPar s (64 + c)) 35 35 == 1 && slice (comPar s (64 + c)) 34 34 == dir
def connCid (s : State) (c : Nat) : Nat := slice (comPar s (64 + c)) 31 0

/-- RX word `j` of connection `c`. -/
def rxWord (s : State) (c j : Nat) : Word := reg s (safRx c j)

/-- R431: kind and CID, check value and inverse copy, SEQ. -/
def kindOk (s : State) (c : Nat) : Bool := slice (rxWord s c 0).toNat 35 32 == 0xA && slice (rxWord s c 0).toNat 31 0 == connCid s c
def checkOk (s : State) (c : Nat) : Bool :=
  (rxWord s c 4).toNat == safCheck (connCid s c) [rxWord s c 0, rxWord s c 1, rxWord s c 2, rxWord s c 3]
    && rxWord s c 5 == ~~~ rxWord s c 2
def seqOk (s : State) (c : Nat) : Bool := (rxWord s c 1).toNat == s.day.n % 2 ^ 24

/-- A telegram fault, with its mark. -/
def teleFault (bad : Bool) (code c : Nat) (s : State) : State :=
  if bad then safFault code 0 0 c (setBit s safStatus 6) else s

/-- R431: today's inbound telegram of connection `c` is checked at Noon. -/
def checkConn (c : Nat) (s : State) : State :=
  if !connUsed s c 0 || (conn s c).mask = 0 then s
  else
    let ok := kindOk s c && checkOk s c && seqOk s c
    let s := teleFault (!checkOk s c) 0x820 c s
    let s := teleFault (!kindOk s c) 0x821 c s
    let s := teleFault (!seqOk s c) 0x822 c s
    if ok then modConn c (fun x => { x with good := true, missing := 0 }) s else s

/-- R412: the connections of a drive block. -/
def outC (s : State) (d : Nat) : Nat := slice (drvPar s d 1) 22 16
def incC (s : State) (d : Nat) : Nat := slice (drvPar s d 1) 14 8
def spd2 (s : State) (d : Nat) : Bool := slice (drvPar s d 1) 7 7 == 1
def inc2C (s : State) (d : Nat) : Nat := slice (drvPar s d 1) 6 0

/-- R423: a source's speed of today; none where it is invalid. -/
def speedOf (s : State) (c : Nat) : Option Word :=
  if (conn s c).good && (rxWord s c 3).getLsbD 2 then some (rxWord s c 2) else none

/-- R430, R433: the words of drive `d`'s outbound telegram. The plan-defined command bits have no stated source: free. -/
def txWords (s : State) (d : Nat) : List Word :=
  let c := outC s d
  let st := drvState s d
  let w0 := word (5 * 2 ^ 32 + connCid s c)
  let w1 := word ((s.day.n + 1) % 2 ^ 24)
  let w2 := word ((if st = 1 ∨ st = 2 then 1 else 0) + (if st = 2 then 2 else 0) + (if 1 ≤ st ∧ st ≤ 3 then 4 else 0))
  let w3 := Config.freeWord s.fresh
  [w0, w1, w2, w3, word (safCheck (connCid s c) [w0, w1, w2, w3]), ~~~ w2]

/-- R150, R196, R399: no output frame, and so no telegram, leaves today. -/
def framesHeld (s : State) : Bool := s.day.broken || bitOf s dayStatus 7 || (s.mst == .active && s.link.swRunning)

/-- R412: TPATH names the torque path by telegram. -/
def telegramTorque (s : State) (d : Nat) : Bool := slice (drvPar s d 0) 31 31 == 1

/-- R412, R418, R433: the telegram of a drive with a torque path by telegram is composed into the TX registers; a frozen monitor's stay
(R435). -/
def composeTx (d : Nat) (s : State) : State :=
  if s.saf.frozen || !supervised s d || !telegramTorque s d || !connUsed s (outC s d) 1 then s
  else
    let c := outC s d
    let s := if framesHeld s then s else modConn c (fun x => { x with missing := 0 }) s
    ((txWords s d).mapIdx fun j w => (j, w)).foldl (fun t x => setReg t (safTx c x.1) x.2) (bump s)

/-! The Noon evaluation (R420 to R424). -/

/-- R420: s, the ramp of one day, rounded half to even. -/
def rampStep (s : State) (d : Nat) : Int := divHalfEven ((word (drvPar s d 2)).toInt * (dayL s : Nat)) 1000000

/-- R420: lim = v0 + TOL − s × max(0, k − kD), saturating. -/
def rampLimit (s : State) (d k : Nat) (v0 : Word) : Word :=
  (aluSubs (aluAdds v0 (word (drvPar s d 3))).1
    (sat (rampStep s d * ((k - daysOf s (slice (drvPar s d 5) 19 0) : Nat) : Int))).1).1

/-- R421: the fault that ends an SS1 at this evaluation, the first row of its table that applies. -/
def ss1End (s : State) (d k : Nat) (v0 : Word) (v : Option Word) : Option Nat :=
  let kd := daysOf s (slice (drvPar s d 5) 19 0)
  let tmax := daysOf s (slice (drvPar s d 6) 19 0)
  match v with
  | some v =>
    if (magOf v).toInt ≤ (word (drvPar s d 4)).toInt then some 0x833
    else if tmax ≤ k then some 0x833
    else if kd < k ∧ (rampLimit s d k v0).toInt < (magOf v).toInt then some 0x830
    else none
  | none => if tmax ≤ k then some 0x833 else some 0x831

/-- R423: the two speed sources are compared. -/
def compareSpeeds (d : Nat) (v v2 : Option Word) (s : State) : State :=
  match v, v2 with
  | some a, some b =>
    let far := decide ((word (drvPar s d 10)).toInt < (magOf (aluSubs a b).1).toInt)
    let n := if far then (drive s d).dis + 1 else 0
    let s := modDrive d (fun x => { x with dis := n }) s
    if n = slice (drvPar s d 11) 7 0 + 1 then safFault 0x832 d 0 0 (forceSto d 0x832 (setBit s safStatus 4)) else s
  | _, _ => s

/-- R420, R421: a drive in SS1 at Noon; the first evaluation may be that of day N0. A speed that was invalid in day N0 leaves v0
unstated: it is free. -/
def noonSs1 (d : Nat) (v : Option Word) (s : State) : State :=
  let k := s.day.n - (drive s d).n0
  let s := setF s (safState d) 23 12 (Nat.min k 4095)
  let s := if k = 0 then modDrive d (fun x => { x with v0 := v.map magOf }) s else s
  match ss1End s d k ((drive s d).v0.getD (Config.freeWord s.fresh)) v with
    | some f =>
      let s := if f = 0x833 then s else setBit s safStatus 4
      safFault f d 0 0 (forceSto d f (bump s))
    | none => bump s

/-- R418, R431: the first of a drive's connections that has gone TE midnights or more without a good telegram, or, outbound and with a torque
path by telegram, without one sent. -/
def expired (s : State) (d : Nat) : Option Nat :=
  ((if telegramTorque s d then [outC s d] else []) ++ [incC s d] ++ (if spd2 s d then [inc2C s d] else [])).find? fun c =>
    (connUsed s c 0 || connUsed s c 1) && slice (drvPar s d 9) 7 0 ≤ (conn s c).missing

/-- R418, R424: a cause that forces STO is still active. -/
def causeActive (s : State) (d : Nat) : Bool :=
  s.saf.frozen
    || (ginCh s d != 0 && bitOf s safInst (ginCh s d - 1)) || (rstCh s d != 0 && bitOf s safInst (rstCh s d - 1))
    || (expired s d).isSome
    || decide (slice (drvPar s d 11) 7 0 < (drive s d).dis)
    || s.tsSplit.any (fun off => (splitDrives off).contains d)

/-- R434: the resumed state of a drive: RUN stays RUN, SS1 becomes STO, STO and LOCKOUT stay. Refused on any other day than
the first after transition 6. RUN is not resumed past a LOCKOUT, an active cause or the first tick of Afternoon (R418, R424). -/
def resumeWrite (d : Nat) (snap : Word) (s : State) : State :=
  if s.saf.frozen || s.saf.resumeDay != some s.day.n || !supervised s d then s
  else
    let t := modDrive d (fun x => { x with resumed := true }) s
    if drvState s d = 4 then t
    else match snap.toNat % 8 with
    | 1 => setF t (safState d) 2 0 (if causeActive s d || phaseStart s 3 ≤ dayTick s then 3 else 1)
    | 2 => setF t (safState d) 2 0 3
    | 3 => setF t (safState d) 2 0 3
    | 4 => setCoil d false (setF t (safState d) 2 0 4)
    | _ => t

/-- SAF_RESUME_WRITE (R434). -/
def execSafResumeWrite (d : Fin 64) (snap : Word) (s : State) : Host.Outcome State Fault Refusal := .next (resumeWrite d snap s)

/-- R424: the restart condition of RESTART. -/
def restartMet (s : State) (d : Nat) : Bool :=
  match slice (drvPar s d 0) 33 32 with
  | 0 => (drive s d).edge
  | 1 => (drive s d).phase == 3
  | _ => false

/-- R424: a drive in STO at Noon passes to RUN at the next midnight when every condition is met. -/
def noonSto (d : Nat) (s : State) : State :=
  let ok := restartMet s d
  let s := setBit s (safState d) 5 ok
  let go := ok && !causeActive s d && (reg s (safCmd d)).toNat == 2
    && (conn s (incC s d)).good && (rxWord s (incC s d) 3).getLsbD 0
    && !bitOf s (safState d) 4 && !(kfb s d != 0 && (chan s (kfb s d - 1)).steady)
  modDrive d (fun x => { x with runNext := go }) s

/-- R420 to R424: drive `d` at the first tick of Noon. -/
def noonDrive (d : Nat) (s : State) : State :=
  if !supervised s d then s
  else
    let a := speedOf s (incC s d)
    let b := if spd2 s d then speedOf s (inc2C s d) else a
    let v := if b.isSome then a else none
    let s := modDrive d (fun x => { x with speed := v }) s
    let s := if spd2 s d then compareSpeeds d a b s else s
    match drvState s d with
    | 2 => noonSs1 d v s
    | 3 => noonSto d s
    | _ => s

/-- R413, R418, R227: the monitor's voted reads of a drive's parameters act on a split. -/
def readBlock (d : Nat) (s : State) : State :=
  if supervised s d then forUpto 12 (fun j s => (tsRead (0x400 + d * 0x200 + j) s).2) s else s

/-- NOON_EVALUATION (R420): at the first tick of Noon of a day in which plans run, once. -/
def execNoonEvaluation (s : State) : Host.Outcome State Fault Refusal :=
  if !(safRuns s && s.day.run && dayTick s == phaseStart s 2) || s.day.noonDone then .next s
  else .next (forUpto 64 noonDrive (forUpto 128 checkConn (forUpto 64 readBlock (modDay (fun d => { d with noonDone := true }) s))))

/-! Afternoon (R417, R433, R434). -/

/-- R417: a drive whose command was not written today is taken as commanded STO. -/
def defaultSto (d : Nat) (s : State) : State :=
  if supervised s d && !(drive s d).cmdToday then takeCommand d 0 s else s

/-- R434: a drive not resumed by the first tick of Afternoon of the first day after transition 6. -/
def resumeDeadline (d : Nat) (s : State) : State :=
  if s.saf.resumeDay == some s.day.n && supervised s d && !(drive s d).resumed then
    safFault 0x802 d 0 0 (forceSto d 0x802 (setBit s safStatus 7))
  else s

/-- R422, R433: what the monitor does at the first tick of Afternoon: the telegrams of the day carry the drive states at the end of Noon,
and what it decides now is carried in those of the next day. -/
def safAfternoon (s : State) : State :=
  if safRuns s then forUpto 64 resumeDeadline (forUpto 64 defaultSto (forUpto 64 composeTx s)) else s

/-! The midnight (R411, R424, R425, R431, R434). -/

/-- The filtered band of a channel named by a drive block, with the failed inputs of R427 as open contact. -/
def sampled (s : State) (ch : Nat) : Nat := if ch = 0 then 1 else if bitOf s safInst (ch - 1) then 1 else nowBand s (ch - 1)

/-- R425: the test restarts. -/
def guardRestart (d : Nat) (s : State) : State :=
  safFault 0x811 d (ginCh s d) 0 (setBit (modDrive d (fun x => { x with phase := 0, open' := 0 }) s) safStatus 1)

/-- R425: the guard test on the samples of a midnight; `rise` is a rising edge of RSTIN. -/
def guardTest (d : Nat) (rise : Bool) (s : State) : State :=
  let g := sampled s (ginCh s d)
  let x := drive s d
  if x.phase = 3 then s
  else if g = 0 then guardRestart d s
  else if x.phase = 0 then
    let n := if g = 1 then x.open' + 1 else 0
    modDrive d (fun x => { x with open' := n, phase := if g = 1 ∧ daysOf s (slice (drvPar s d 8) 19 0) < n then 1 else 0 }) s
  else if x.phase = 1 then
    if g = 2 then modDrive d (fun x => { x with phase := 2, closedAt := s.now }) s else s
  else if x.closedAt + 2500000000 < s.now then guardRestart d s
  else if rise then modDrive d (fun x => { x with phase := 3 }) s
  else s

/-- R424, R425: restart conditions on the samples of a midnight. -/
def restartSamples (d : Nat) (s : State) : State :=
  let on := sampled s (rstCh s d) == 2
  let rise := on && !(drive s d).rstOn
  let s := modDrive d (fun x => { x with rstOn := on, edge := x.edge || (rise && drvState s d == 3) }) s
  if drvState s d = 3 ∧ slice (drvPar s d 0) 33 32 = 1 then guardTest d rise s else s

/-- R431, R434: the midnights since a connection's last good telegram, or the last one sent; a takeover has set the count of its
midnight. -/
def countConn (c : Nat) (s : State) : State :=
  let n := if s.saf.resumeDay == some s.day.n then 0 else 1
  if connUsed s c 0 then modConn c (fun x => { x with mask := 0, good := false, missing := x.missing + n }) s
  else if connUsed s c 1 then modConn c (fun x => { x with missing := x.missing + n }) s
  else s

/-- R431, R418: a drive one of whose connections' time expectation has expired. -/
def timeExpect (d : Nat) (s : State) : State :=
  match supervised s d, expired s d with
  | true, some c =>
    if (drive s d).expired then s
    else safFault 0x823 d 0 c (forceSto d 0x823 (setBit (modDrive d (fun x => { x with expired := true }) s) safStatus 5))
  | _, _ => modDrive d (fun x => { x with expired := false }) s

/-- R411, R424: a drive's restart takes effect and its outputs are energised, at the midnight. -/
def drivesMidnight (d : Nat) (s : State) : State :=
  if !supervised s d then s
  else
    let s := if (drive s d).runNext && drvState s d == 3 then setF s (safState d) 2 0 1 else s
    let s := modDrive d (fun x => { x with runNext := false, cmdToday := false, speed := none }) s
    let st := drvState s d
    let s := setCoil d (1 ≤ st ∧ st ≤ 3) s
    if localTorque s d then tryDrive (tloc s d - 1) (if st = 1 ∨ st = 2 then 1000 else 0) s else s

/-- R415: a drive whose block the day's change alters is in STO from the midnight of day A. -/
def changedDrives (s : State) : State := s.saf.changed.foldl (fun t d => forceSto d 0x840 t) s

/-- The monitor at a midnight at which plans run. -/
def safMidnight (s : State) : State :=
  if safRuns s then
    forUpto 64 drivesMidnight (forUpto 64 restartSamples (forUpto 64 timeExpect (forUpto 128 countConn s)))
  else s

/-- R434: the first day after transition 6: drives wait to be resumed, and each connection's count is N − PAIR_CK.DAY. -/
def safTakeover (s : State) : State :=
  let n := (s.day.n + 2 ^ 36 - (reg s pairCk).toNat) % 2 ^ 36
  let s := modSaf (fun x => { x with resumeDay := some s.day.n }) s
  let s := forUpto 64 (fun d => modDrive d (fun x => { x with resumed := false })) s
  forUpto 128 (fun c s => if connUsed s c 0 || connUsed s c 1 then modConn c (fun x => { x with missing := n }) s else s) s

/-- R424, R412: at Daybreak every drive with EN starts in STO; the others are UNSUP. -/
def startDrives (s : State) : State :=
  forUpto 64 (fun d s =>
    let en := slice (drvPar s d 0) 35 35 == 1
    modDrive d (fun _ => { rstOn := true }) (setReg s (safState d) (if en then 3 else 0))) s

/-- R412, R415: the drives of a change that its block brings under supervision are in STO. -/
def superviseChanged (s : State) : State :=
  s.saf.changed.foldl (fun t d => if slice (drvPar t d 0) 35 35 = 1 ∧ drvState t d = 0 then
    modDrive d (fun _ => { rstOn := true }) (setReg t (safState d) 3) else t) s

/-- R412, R415: the drives that a change has left without EN are unsupervised. -/
def unsuperviseChanged (s : State) : State :=
  s.saf.changed.foldl (fun t d => if slice (drvPar t d 0) 35 35 = 0 then setReg t (safState d) 0 else t) s

/-! Input and output tests (R426 to R428). -/

/-- R413: W in ticks. -/
def pulseWidth (s : State) : Nat := slice (comPar s 0) 19 10 * 250
/-- R413: the test supply of channel `l`, 0 none. -/
def supplyOf (s : State) (l : Nat) : Nat := slice (comPar s (l + 1)) 2 0

/-- R426: the pulse of supply `k` begins in this tick: (k − 1) × P/4 after a multiple of P, `k` counted from 1. -/
def pulseBegins (s : State) (k : Nat) : Bool := instantIn s 1 (testPeriod s) (k * (testPeriod s / 4))

/-- TEST_PULSE_START (R426, R444, R455): supply `k` is switched off; the readings just before are kept, and the filtered bands of its inputs
freeze, in the module that holds the mandate and in the other. -/
def execTestPulseStart (k : Fin 4) (s : State) : Host.Outcome State Fault Refusal :=
  if tabGet 0 s.saf.pulse k != 0 || !pulseBegins s k then .next s
  else
    let s := modSaf (fun x => { x with pulse := tabSet 0 x.pulse k (s.now + 1) }) s
    .next (forUpto 24 (fun l s =>
      let s := modInTest l (fun t => { t with before := (chan s l).raw }) s
      if supplyOf s l = k.val + 1 then freezeChan l none s else s) s)

/-- R426, R455: whether the check of a pulse of supply `k` fails for channel `l`; an overloaded supply fails its own inputs. -/
def pulseFails (s : State) (k l : Nat) : Bool :=
  let on := (chan s l).raw == .on
  if supplyOf s l = k + 1 then on || bitOf s lioTsup (4 + k) else (inTest s l).before == .on && !on

/-- R418, R427: channel `l` fails: its guards and restarts force STO. -/
def failInput (l : Nat) (s : State) : State :=
  let s := modInTest l (fun t => { t with bad := true, passes := 0 }) s
  if bitOf s safInst l then s
  else
    let s := safFault 0x810 0 (l + 1) 0 (setBit (setBit s safInst l) safStatus 0)
    forUpto 64 (fun d s => if ginCh s d = l + 1 ∨ rstCh s d = l + 1 then forceSto d 0x810 s else s) s

/-- R427: a period of channel `l` ends with its own supply's check: 8 in a row that pass end a failure. -/
def closePeriod (l : Nat) (s : State) : State :=
  let n := if (inTest s l).bad then 0 else (inTest s l).passes + 1
  let s := modInTest l (fun t => { t with bad := false, passes := Nat.min n 8 }) s
  if 8 ≤ n then setBit s safInst l false else s

/-- R426, R427: one input at the check of a pulse of supply `k`. -/
def checkInput (k l : Nat) (s : State) : State :=
  if chanDir s l ≠ 1 ∨ supplyOf s l = 0 then s
  else
    let s := if pulseFails s k l then failInput l s else s
    if supplyOf s l = k + 1 then closePeriod l s else s

/-- TEST_PULSE_CHECK (R426): at W − 50 µs into the pulse, once, by the module that holds the mandate. -/
def execTestPulseCheck (k : Fin 4) (s : State) : Host.Outcome State Fault Refusal :=
  let a := tabGet 0 s.saf.pulse k
  if !holds s || a = 0 || s.now + 1 + 12500 != a + pulseWidth s || tabGet 0 s.saf.checked k == s.now + 1 then .next s
  else .next (forUpto 24 (checkInput k) (modSaf (fun x => { x with checked := tabSet 0 x.checked k (s.now + 1) }) s))

/-- TEST_PULSE_END (R426, R444): the supply is on again; its inputs stay frozen until 100 µs after the pulse's end. -/
def execTestPulseEnd (k : Fin 4) (s : State) : Host.Outcome State Fault Refusal :=
  let a := tabGet 0 s.saf.pulse k
  if a = 0 ∨ s.now + 1 < a + pulseWidth s then .next s
  else
    let s := modSaf (fun x => { x with pulse := tabSet 0 x.pulse k 0 }) s
    .next (forUpto 24 (fun l s => if supplyOf s l = k.val + 1 then freezeChan l (some (a + pulseWidth s + 24999)) s else s) s)

/-- R428: an owned output fails its check. -/
def outputStuck (l : Nat) (s : State) : State :=
  match torqueOf s l, contactorOf s l with
  | some d, _ => safFault 0x814 d (l + 1) 0 (forceLockout d 0x814 (setBit (setBit s (safState d) 3) safStatus 2))
  | none, some d => safFault 0x816 d (l + 1) 0 (forceLockout d 0x816 (setBit (setBit s (safState d) 4) safStatus 3))
  | none, none => s

/-- R428: the check of a dark test falls in this tick: WO − 20 µs into it. -/
def darkCheckNow (s : State) : Bool := instantIn s 1 (testPeriod s) (testPeriod s / 8 + darkWidth s - 1280000)

/-- R448: coil, driver and terminal have stood as they do for the 1 ms of the readback filter. -/
def readbackStood (s : State) (l : Nat) : Bool :=
  Nat.max (Nat.max (chan s l).onAt (chan s l).drvAt) s.lio.heldAt + 250000 ≤ s.now

/-- DARK_TEST (R413, R428): `pulse` is the check of an output that is on and has been switched off for WO, `readsOn` what its readback shows
then; otherwise that of one that is off, whose readback has a filter of 1 ms. -/
def execDarkTest (l : Fin 24) (pulse readsOn : Bool) (s : State) : Host.Outcome State Fault Refusal :=
  let fails := if pulse then darkCheckNow s && darkNow s l && (chan s l).driven != 0
    else drivenNow s l == 0 && (chan s l).driven == 0 && (chan s l).raw == .on && readbackStood s l
  .next (if holds s && owned s l && isOutput s l && readsOn && fails then outputStuck l s else s)

/-- R448: the readback of channel `l` is judged in this tick: a running PWM output's at the centres of its intervals, any other's once
it has stood for 1 ms. -/
def readbackJudged (s : State) (l : Nat) : Bool :=
  let d := drivenNow s l
  if chanDir s l = 3 ∧ 0 < d ∧ d < 1000 then centreNow s (getF s (lioCfg (l + 1)) 20 10) d (onNow s l) else readbackStood s l

/-- OUTPUT_READBACK_FAULT (R428, R448): the readback disagrees with the driven state. -/
def execOutputReadbackFault (l : Fin 24) (s : State) : Host.Outcome State Fault Refusal :=
  let on := onNow s l
  let rb := (chan s l).raw == .on
  if !holds s || !isOutput s l || on == rb || darkNow s l || !readbackJudged s l then .next s
  else if on then .next (lioFault 0x922 0 (l + 1) (setBit (setBit s (lioIn (l + 1)) 7) lioStatus 3))
  else
    let s := lioFault 0x921 0 (l + 1) (setBit (setBit s (lioIn (l + 1)) 8) lioStatus 2)
    .next (if owned s l then outputStuck l s else s)

/-! Mismatches of the monitor itself (R435, R436). -/

/-- R436, R217: a fault of the monitor, handled as a mismatch of every safety pair. -/
def monitorFault (code : Nat) (s : State) : State :=
  let s := raise code 0 (setBit s safStatus 9)
  match s.mst with
  | .active => breach (setBit (safetySignal 0x850 0 s) fabStatus 0)
  | .bench => setBit s fabStatus 0
  | _ => s

/-- MONITOR_DISCREPANCY (R436). -/
def execMonitorDiscrepancy (s : State) : Host.Outcome State Fault Refusal := .next (monitorFault 0x8F0 s)

/-- FORCING_PATH_TEST (R436). -/
def execForcingPathTest (ok : Bool) (s : State) : Host.Outcome State Fault Refusal :=
  .next (if ok then s else monitorFault 0x8F1 s)

end Sys2Proof.Machine
end

