-- ==== Sys2Proof/Machine/Cordic.lean ====
section
/-! DEFINITION. The CORDIC functions of R94 to R96, by the procedure of R95 on integers of unlimited width. -/

namespace Sys2Proof.Machine

/-- R95: atn[i] = 2^36 · atan(2^-i) / 2π rounded half to even, for i from 0 to 33. -/
def atn : List Int := [
  8589934592, 5070934490, 2679342518, 1360076098, 682677297, 341671446, 170877414, 85443921, 42722612, 21361388,
  10680704, 5340353, 2670177, 1335088, 667544, 333772, 166886, 83443, 41722, 20861,
  10430, 5215, 2608, 1304, 652, 326, 163, 81, 41, 20,
  10, 5, 3, 1]

/-- R95: k44 = 2^44 · ∏ (1 + 2^-2i)^-1/2 over i = 0 to 33, rounded half to even. -/
def k44 : Int := 10682906608694

/-- R95: the rotation loop from step `i`, over the constants that remain. -/
def rotSteps : List Int → Nat → Int × Int × Int → Int × Int × Int
  | [], _, v => v
  | a :: t, i, (x, y, z) =>
    rotSteps t (i + 1) (if 0 ≤ z then (x - y / 2 ^ i, y + x / 2 ^ i, z - a) else (x + y / 2 ^ i, y - x / 2 ^ i, z + a))

/-- R95: the vectoring loop. -/
def vecSteps : List Int → Nat → Int × Int × Int → Int × Int × Int
  | [], _, v => v
  | a :: t, i, (x, y, z) =>
    vecSteps t (i + 1) (if y < 0 then (x - y / 2 ^ i, y + x / 2 ^ i, z - a) else (x + y / 2 ^ i, y - x / 2 ^ i, z + a))

/-- R95: a scaled coordinate back in pu36, rounded half to even and saturated. -/
def cordOut (v : Int) : Res := sat (roundShift false (v * k44) 58)

/-- R95: rotation of (x, y) by the angle `z`. -/
def rotate (x y : Int) (z : Word) : Res × Res :=
  let (x', y', _) := rotSteps atn 0 (x * 2 ^ 14, y * 2 ^ 14, (z.toNat % 2 ^ 34 : Nat))
  let (x'', y'') := match z.toNat / 2 ^ 34 with
    | 0 => (x', y')
    | 1 => (-y', x')
    | 2 => (-x', -y')
    | _ => (y', -x')
  (cordOut x'', cordOut y'')

/-- R95: the angle and the magnitude of (x, y). -/
def vectoring (x y : Int) : Word × Res :=
  if x = 0 ∧ y = 0 then (0, (0, none))
  else
    let v := vecSteps atn 0 (if x < 0 then (-x * 2 ^ 14, -y * 2 ^ 14, 2 ^ 35) else (x * 2 ^ 14, y * 2 ^ 14, 0))
    (wordI v.2.2, cordOut v.1)

/-- The integer square root by halving: the largest r below 2^n with r * r ≤ v, given the bits above found in `r`. -/
def isqrtBits (v : Nat) : Nat → Nat → Nat
  | 0, r => r
  | n + 1, r => isqrtBits v n (if (r + 2 ^ n) * (r + 2 ^ n) ≤ v then r + 2 ^ n else r)

/-- R96: √(wa · 2^30) to the nearest integer, which is never a tie; 0 with S for a negative operand. -/
def cordSqrt (a : Word) : Res :=
  if a.toInt < 0 then (0, some 1)
  else
    let v := a.toNat * 2 ^ 30
    let r := isqrtBits v 36 0
    (word (if r * r + r < v then r + 1 else r), none)

end Sys2Proof.Machine
end

