-- ==== Sys2Proof/Machine/Zilco.lean ====
section
/-! DEFINITION. The Zilco ports: transmit ring, receive queue, errors and confinement, configuration, beacon, slots and echo
exchanges (R230 to R300). -/

namespace Sys2Proof.Machine

/-! What a port is. -/

/-- A fault of segment `p`, naming station `k` where the code does (R582). -/
def portFault (code p : Nat) (k : Nat := 0) (s : State) : State := raise code (p + k % 32 * 2 ^ 8) s

/-- ZP_CNTk of port `p` rises by one. -/
def portCount (p k : Nat) (s : State) : State :=
  modTelem (fun t => { t with valid := if k = 0 then t.valid + 1 else t.valid,
                              failed := if k = 2 ∨ k = 4 then t.failed + 1 else t.failed })
    (addSat s (zp p (0x20 + k)) 35 0 1)

def protoOf (s : State) (p : Nat) : Nat := getF s (zp p 0) 7 6
def isZilco (s : State) (p : Nat) : Bool := protoOf s p == 1
def isCanFd (s : State) (p : Nat) : Bool := protoOf s p == 2
def cfgAct (s : State) (p : Nat) : Bool := bitOf s (zp p 0) 4
/-- ZP_ERR.STATE: 0 error-active, 1 error-passive, 2 bus-off, 3 recovering. -/
def confState (s : State) (p : Nat) : Nat := getF s (zp p 4) 19 18

/-- R237, R235, R234: the port's transceiver driver is enabled. -/
def driverOn (s : State) (p : Nat) : Bool := holds s && !(portOf s p).shortOff && !(portOf s p).groupFail

/-- R263, R264: the port is listen-only; a request of LOREQ waits for the end of a frame in progress. -/
def listenOnly (s : State) (p : Nat) : Bool := !driverOn s p || (bitOf s (zp p 0) 0 && !(portOf s p).loPend)

/-- The port takes part in the bus: out of configuration, with a protocol, integrated, its group supplied. -/
def onBus (s : State) (p : Nat) : Bool :=
  !cfgAct s p && (isZilco s p || isCanFd s p) && !(portOf s p).integrating && !(portOf s p).groupFail

/-- R260, R263: the port drives nothing: it is listen-only, or in bus-off and behaves so. -/
def silent (s : State) (p : Nat) : Bool := listenOnly s p || 2 ≤ confState s p

/-- The port may start a frame (R253, R263, R150). -/
def mayStart (s : State) (p : Nat) : Bool :=
  onBus s p && !listenOnly s p && !bitOf s (zp p 0) 0 && confState s p < 2 && (portOf s p).sending == .none && !frameBarred s

/-- The port's driver is disabled, or it is in bus-off or configuration: no descriptor can be sent (R273). -/
def cannotSend (s : State) (p : Nat) : Bool := !driverOn s p || confState s p ≥ 2 || cfgAct s p

/-- The class, station and index of a Zilco identifier (R250). -/
def idClass (i : Nat) : Nat := i / 2048 % 32
def idStation (i : Nat) : Nat := i / 64 % 32
/-- R250: the module sends classes 0, 4–7 and 20–27. -/
def moduleClass (c : Nat) : Bool := c == 0 || (4 ≤ c && c ≤ 7) || (20 ≤ c && c ≤ 27)
/-- R250: an output frame. -/
def outputClass (c : Nat) : Bool := 20 ≤ c && c ≤ 27
/-- R250: the classes a station sends. -/
def stationClass (c : Nat) : Bool := !moduleClass c && c != 31

/-! The transmit ring (R270 to R276). -/

def txSize (s : State) (p : Nat) : Nat := getF s (zp p 0x11) 8 0
def txGet (s : State) (p : Nat) : Nat := getF s (zp p 0x12) 15 8
def txPut (s : State) (p : Nat) : Nat := getF s (zp p 0x12) 7 0
def descAddr (s : State) (p i : Nat) : Nat := getF s (zp p 0x10) 31 0 + 4 * i

/-- R270: how many descriptors belong to the port, from GET to PUT − 1 around the ring. -/
def posted (s : State) (p : Nat) : Nat :=
  if txSize s p < 2 then 0 else (txPut s p + txSize s p - txGet s p) % txSize s p

/-- R276: INDEX is between GET and PUT − 1. -/
def isPosted (s : State) (p i : Nat) : Bool :=
  2 ≤ txSize s p && i < txSize s p && (i + txSize s p - txGet s p) % txSize s p < posted s p

/-- R273: GET moves to the next descriptor. -/
def advanceGet (p : Nat) (s : State) : State :=
  modPort p (fun x => { x with att := 0, sofDriven := false, lastErr := 0, lastSof := 0, headDue := false, duskHold := false
                               nightRing := x.nightRing - 1, posts := x.posts.tail
                               headAt := Nat.max s.now (x.posts.tail.headD 0 + 1) })
    (setF s (zp p 0x12) 15 8 ((txGet s p + 1) % Nat.max (txSize s p) 1))

/-- R271, R273: the words a descriptor ends with: word 2, then word 3, then word 0. -/
def writeEnd (e : TxEnd) (s : State) : State :=
  let a := descAddr s e.port e.index
  let r := mRead masterPort (a + 2) s
  let s := mWrite masterPort (a + 2) (word (splice (r.1.getD 0).toNat 31 28 e.errc)) r.2
  let s := if isZilco s e.port then mWrite masterPort (a + 3) (word (e.sent % 2 ^ 28)) s else s
  let r := mRead masterPort a s
  mWrite masterPort a (word (splice (splice (r.1.getD 0).toNat 35 34 e.st) 27 24 e.att)) r.2

/-- R31, R134, R137, R145, R273, R499: a descriptor ends once its point is free, and after those of the port that wait already; GET and the
port's own marks do not wait (DESIGN CHOICE, log entry 166). -/
def endDesc (e : TxEnd) (s : State) : State :=
  let t := ownFault (portFault 0x414 e.port) s (writeEnd e (untouched s))
  if freeFor masterPort e.port s t && !s.ends.any (·.port == e.port) then settle masterPort e.port s.tk.touched t
  else waitFor masterPort e.port t.tk.touched { s with ends := s.ends ++ [e] }

/-- R31: the ends that wait for their points try again, in their order. -/
def retryEnds (s : State) : State := s.ends.foldl (fun t e => endDesc e t) { s with ends := [] }

/-- The head descriptor ends with what the port keeps of its attempts. -/
def endHead (p st sent : Nat) (s : State) : State :=
  let x := portOf s p
  advanceGet p (endDesc { port := p, index := txGet s p, st := st, att := x.att, errc := x.lastErr, sent := sent } s)

/-- A descriptor cancelled away from the head has ended already; the port skips it (R276). -/
def skipHead (p : Nat) (s : State) : State :=
  advanceGet p (modPort p (fun x => { x with cancelled := x.cancelled.filter (· != txGet s p) }) s)

/-- Cancelled descriptors at the head are passed over. -/
def skipAll (p : Nat) : Nat → State → State
  | 0, s => s
  | n + 1, s => if posted s p ≠ 0 ∧ (portOf s p).cancelled.contains (txGet s p) then skipAll p n (skipHead p s) else s

/-- R273: the head fails at once. -/
def failHead (p : Nat) (s : State) : State :=
  if (portOf s p).cancelled.contains (txGet s p) then skipHead p s
  else endHead p 3 (if (portOf s p).att = 0 then 0 else (portOf s p).lastSof) s

/-- R273: every posted descriptor fails, in ring order. -/
def failPosted (p : Nat) : Nat → State → State
  | 0, s => s
  | n + 1, s => if posted s p = 0 then s else failPosted p n (failHead p s)

/-- R243, R244, R267: the port sends a frame with delay compensation: in Zilco mode always, in CAN FD mode with FDUSE in the data
phase of a frame that switches its bit rate. -/
def compensated (s : State) (p : Nat) : Bool :=
  (portOf s p).sending != .none
    && (isZilco s p || (isCanFd s p && bitOf s (zp p 3) 8 && (match (portOf s p).tx.fd with | some h => h.fdf && h.brs | none => false)))

/-- R243: LOOPD of a frame that the port sends, once its DLY bit has come back. -/
def noteLoop (p : Nat) (loopd : Option (BitVec 9)) (s : State) : State :=
  match loopd with
  | some d => if compensated s p then setF s (zp p 3) 26 18 d.toNat else s
  | none => s

/-- R243: LOOPD of a frame that is cut off: no command says whether its DLY bit had come back, nor with what delay: free values. -/
def cutLoop (s : State) : Option (BitVec 9) :=
  if Config.freeNat s.fresh % 2 = 0 then none else some (BitVec.ofNat 9 (Config.freeNat (s.fresh + 1)))

/-- R243, R260, R262, R265: a transmit in progress fails, and so does every posted descriptor; a delay notice that waits goes with them. -/
def failAll (p : Nat) (s : State) : State :=
  failPosted p 256 (modPort p (fun x => { x with
    sending := .none, delay := none, inError := x.inError || x.sending != .none })
      (if compensated s p then bump (bump (noteLoop p (cutLoop s) s)) else s))

/-- A descriptor's fields and whether it is one the port may send (R250, R252, R271, R274). -/
structure TxDesc where
  w0 : Nat
  buf : Nat
  tick : Nat
  w3 : Nat
deriving DecidableEq, Repr

def TxDesc.ident (d : TxDesc) : Nat := slice d.w0 15 0
def TxDesc.len (d : TxDesc) : Nat := slice d.w0 23 16
def TxDesc.when (d : TxDesc) : Nat := slice d.w0 29 28
/-- TRY, 0 taken as 1. -/
def TxDesc.tries (d : TxDesc) : Nat := Nat.max (slice d.w0 33 30) 1
def TxDesc.fdf (d : TxDesc) : Bool := slice d.w3 34 34 == 1
/-- R271: IDE, FDF, BRS and the identifier of a CAN FD descriptor. No remote frame is sent (R266). -/
def TxDesc.head (d : TxDesc) : FdHead :=
  { ide := slice d.w3 35 35 == 1, fdf := d.fdf, brs := slice d.w3 33 33 == 1, rtr := false, ident := BitVec.ofNat 29 d.w3 }

/-- R274: the data lengths of ISO 11898-1:2015. -/
def canLength (fdf : Bool) (n : Nat) : Bool := n ≤ 8 || (fdf && [12, 16, 20, 24, 32, 48, 64].contains n)

/-- R271: the payload words of a descriptor. -/
def TxDesc.words (zilco : Bool) (d : TxDesc) : Nat := if zilco then 2 * (d.len + 1) else (d.len + 3) / 4

/-- R274, R250, R285: the descriptor may be sent. Class 0 is the port's own. -/
def TxDesc.valid (zilco : Bool) (d : TxDesc) : Bool :=
  d.when != 3 && (if zilco then d.len ≤ 223 && moduleClass (idClass d.ident) && idClass d.ident != 0 else canLength d.fdf d.len)

/-- The head descriptor as fetched; nothing where a read is refused. -/
def fetchDesc (p : Nat) (s : State) : Option TxDesc × State :=
  let r := mReads masterPort (descAddr s p (txGet s p)) 4 s
  (match r.1 with
   | some [a, b, c, d] => some { w0 := a.toNat, buf := b.toNat, tick := slice c.toNat 27 0, w3 := d.toNat }
   | _ => none, r.2)

/-- R199, R399: today no output frame starts: an activation day, or the day of a running switchover. -/
def outputsHeld (s : State) : Bool := bitOf s dayStatus 7 || (s.mst == .active && s.link.swRunning)

/-- R272: today's Dusk has come, and the port had the head before its end. -/
def duskCame (s : State) (p : Nat) : Bool :=
  s.day.run && phaseStart s 4 ≤ dayTick s && (portOf s p).headAt + dayTick s < s.now + phaseStart s 5

/-- R272, R178: the head is due now; a WHEN of Dusk is due in Dusk, and an output frame waits after it for the next Dusk. -/
def isDue (s : State) (p : Nat) (d : TxDesc) : Bool :=
  ((portOf s p).headDue
    || d.when == 0 || (d.when == 1 && d.tick ≤ dayTick s) || (d.when == 2 && duskCame s p))
    && !(isZilco s p && outputClass (idClass d.ident) && (outputsHeld s || (s.day.run && phaseOf s (dayTick s) == 5)
      || (((portOf s p).duskHold || (0 < (portOf s p).nightRing && d.when == 0)) && phaseOf s (dayTick s) != 4)))

/-- R274: the invalid head ends with nothing sent and no attempts. -/
def endInvalid (p k : Nat) (s : State) : State :=
  portFault 0x414 p k (advanceGet p (writeEnd { port := p, index := txGet s p, st := 3, att := 0, errc := (portOf s p).lastErr, sent := 0 } s))

/-! Own frames due (R272, R291, R292). -/

/-- ZP_BCN.TICK has come, in Dawn, and today's beacon has not been started. -/
def beaconDue (s : State) (p : Nat) : Bool :=
  isZilco s p && s.day.run && bitOf s (zp p 0x30) 35 && getF s (zp p 0x30) 27 0 ≤ dayTick s
    && phaseOf s (dayTick s) == 0 && !(portOf s p).bcnToday

/-- R293: a station with an enabled slot. -/
def slotEnabled (s : State) (p k : Nat) : Bool := bitOf s (zp p (0x40 + k)) 35

/-- R293: the station echoed next. -/
def echoNext (s : State) (p : Nat) : Option Nat :=
  match (List.range 32).find? (fun k => slotEnabled s p k && !bitOf s (zp p (0x80 + k)) 35) with
  | some k => some k
  | none =>
    ((List.range 32).map (fun i => ((portOf s p).lastEcho + 1 + i) % 32)).find? (slotEnabled s p)

/-- R292: ZP_ECHO.TICK has come before the start of Dusk and today's exchange has not been made. -/
def echoDue (s : State) (p : Nat) : Bool :=
  isZilco s p && s.day.run && bitOf s (zp p 0x32) 35 && getF s (zp p 0x32) 27 0 ≤ dayTick s
    && dayTick s < phaseStart s 4 && !(portOf s p).echoToday && (echoNext s p).isSome

/-- R272: an own frame goes before the ring frame. -/
def ownDue (s : State) (p : Nat) : Bool := beaconDue s p || echoDue s p || (isZilco s p && (portOf s p).delay.isSome)

/-- A frame's start of frame is driven; its ESI says whether the port is error-passive. -/
def startFrame (p : Nat) (what : Sending) (f : TxFrame) (s : State) : State :=
  modPort p (fun x => { x with
    sending := what, tx := { f with esi := confState s p == 1 }, sof := dayTick s, sofAt := s.now }) s

/-- R284: octets packed four to a word, the first highest; every other bit is zero. -/
def packOctets (n : Nat) (ws : List Word) : List Word :=
  (List.range ((n + 3) / 4)).map fun i =>
    let k := 2 ^ (8 * (4 - Nat.min 4 (n - 4 * i)))
    word (slice (ws.getD i 0).toNat 31 0 / k * k)

/-- R266, R271, R284: the frame of a ring descriptor with its payload words. -/
def TxDesc.frame (zilco : Bool) (d : TxDesc) (ws : List Word) : TxFrame :=
  if zilco then { id := d.ident, words := ws }
  else { fd := some d.head, octets := d.len, words := packOctets d.len ws }

/-- The fetched head contends: a lost arbitration is counted, a won one starts the frame (R251, R272, R273, R276). -/
def contend (p : Nat) (how : Attempt) (d : TxDesc) (ws : List Word) (s : State) : State :=
  let s := modPort p (fun x => { x with sofDriven := true, headDue := true, w0 := d.w0 }) s
  match how with
  | .lost => portCount p 3 s
  | .won => startFrame p (.ring (txGet s p)) (d.frame (isZilco s p) ws) s

/-- R275: the head descriptor was posted in an earlier tick. -/
def headReadable (s : State) (p : Nat) : Bool := posted s p != 0 && decide ((portOf s p).posts.headD 0 < s.now)

/-- TRANSMIT_ATTEMPT (R272, R274, R275): at a bus idle, the head descriptor is fetched and, if due, contends. -/
def attempt (p : Nat) (how : Attempt) (s : State) : State :=
  let s := skipAll p 256 s
  if !headReadable s p then s
  else
    let r := fetchDesc p s
    match r.1 with
    | none => endInvalid p 0 r.2
    | some d =>
      if !d.valid (isZilco s p) then endInvalid p (idStation d.ident) r.2
      else if !isDue s p d then s
      else
        let q := mReads masterPort d.buf (d.words (isZilco s p)) r.2
        match q.1 with
        | none => endInvalid p (idStation d.ident) q.2
        | some ws => contend p how d ws q.2

/-- The frame and any error sequence in progress have ended: a request that waited for that takes effect (R264, R265). -/
def frameEnd (p : Nat) (s : State) : State :=
  let x := portOf s p
  let s := modPort p (fun x => { x with sending := .none, cfgPend := false, loPend := false, inError := false }) s
  if x.cfgPend then failAll p (setBit s (zp p 0) 4) else s

/-- R264, R265: the bus is idle, which ends what a request waited for; nothing of it concerns a frame of the port's own. -/
def busIdle (p : Nat) (s : State) : State := if (portOf s p).sending = .none then frameEnd p s else s

/-- TRANSMIT_ATTEMPT (R31, R251, R272 to R275). -/
def execTransmitAttempt (p : Fin 256) (how : Attempt) (s : State) : Host.Outcome State Fault Refusal :=
  let s := busIdle p s
  .next (if mayStart s p && !ownDue s p && headReadable s p then ifFree masterPort p (attempt p how) s else s)

/-! The end of a frame (R253, R258, R259). -/

/-- R258: REC of a valid frame. -/
def recDown (rec : Nat) : Nat := if rec = 0 then 0 else if rec ≤ 127 then rec - 1 else 120

/-- R235, R261: recovery starts; a driver turned off at its limit is tried again. -/
def startRecovery (p : Nat) (s : State) : State :=
  modPort p (fun x => { x with shortOff := false, trial := x.trial || x.shortOff }) (setF s (zp p 4) 19 18 3)

/-- R260, R261: entry to bus-off; recovery starts at once unless BOMAN is set. -/
def enterBusOff (p : Nat) (s : State) : State :=
  let s := failAll p (portFault 0x404 p 0 (setBit (setF s (zp p 4) 19 18 2) (zp p 5) 4))
  if bitOf s (zp p 0) 3 then s else startRecovery p s

/-- R259: the confinement state that the counts give. -/
def confine (p : Nat) (s : State) : State :=
  let tec := getF s (zp p 4) 16 8
  let rec' := getF s (zp p 4) 7 0
  if confState s p ≥ 2 then s
  else if 256 ≤ tec then enterBusOff p s
  else if 128 ≤ tec || 128 ≤ rec' then
    if confState s p = 0 then portFault 0x403 p 0 (setBit (setF s (zp p 4) 19 18 1) (zp p 5) 3) else s
  else setF s (zp p 4) 19 18 0

/-- R258, R260, R263: the counts change, unless the port is listen-only or in bus-off. -/
def changeCounts (p : Nat) (tec rec' : Nat → Nat) (s : State) : State :=
  if listenOnly s p || confState s p ≥ 2 then s
  else
    let s := setF s (zp p 4) 16 8 (Nat.min (tec (getF s (zp p 4) 16 8)) 256)
    confine p (setF s (zp p 4) 7 0 (Nat.min (rec' (getF s (zp p 4) 7 0)) 255))

/-- R178: an output frame that ends after tick T − 500 of the day in which it began. -/
def duskLate (p : Nat) (x : Port) (s : State) : State :=
  if isZilco s p && outputClass (idClass x.tx.id) && s.day.run && dayT s - 500 < x.sof + (s.now - x.sofAt) then
    portCount p 10 (raise 0x213 p (setBit s dayStatus 5))
  else s

/-- TRANSMIT_SUCCESS (R253, R258, R271, R273): what is particular to the frame sent. -/
def sentWhat (p : Nat) (x : Port) (s : State) : State :=
  match x.sending with
  | .ring _ => endHead p 2 x.sof (emit (.segFrame p x.tx) s)
  | .beacon => portCount p 11 (emit (.beacon p x.tx.words) s)
  | .echo _ => emit (.segFrame p x.tx) s
  | .delay _ => emit (.segFrame p x.tx) s
  | .none => s

/-- R253, R273, R291, R292: an attempt fails. -/
def attemptFailed (p cls : Nat) (s : State) : State :=
  let x := portOf s p
  let s := duskLate p x (modPort p (fun x => { x with sending := .none }) s)
  let s := if x.sending = .none then s else portCount p 2 s
  match x.sending with
  | .ring _ =>
    let s := modPort p (fun x => { x with att := x.att + 1, lastErr := cls, lastSof := x.sof }) s
    if x.att + 1 < Nat.max (slice x.w0 33 30) 1 then s
    else portFault 0x413 p (idStation x.w0) (endHead p 3 x.sof s)
  | .beacon => portFault 0x424 p 0 s
  | .echo k => portFault 0x423 p k (modPort p (fun x => { x with echo := none }) s)
  | .delay _ | .none => s

/-- R256: the class and indications of an error. -/
def noteError (p cls : Nat) (fast : Bool) (s : State) : State :=
  if cls = 0 then s
  else
    let s := setF (setF s (zp p 5) 15 12 cls) (zp p 5) 11 11 (if fast then 1 else 0)
    if cls = 4 then portFault 0x406 p 0 (setBit (setBit s (zp p 5) 6) (zp p 5) 0)
    else if cls ≤ 3 then setBit s (zp p 5) 0
    else if cls = 8 then portCount p 4 (setBit s (zp p 5) 2)
    else portCount p 5 (setBit s (zp p 5) 1)

/-- R258: the counts an error row changes. -/
def countRow (p : Nat) (row : ErrRow) (s : State) : State :=
  match row with
  | .receiverDetects => changeCounts p id (· + 1) s
  | .dominantAfterFlag => changeCounts p id (· + 8) s
  | .transmitterFlag => changeCounts p (· + 8) id s
  | .ackPassiveQuiet => s
  | .bitInActiveFlagTx => changeCounts p (· + 8) id s
  | .bitInActiveFlagRx => changeCounts p id (· + 8) s
  | .longDominantTx => changeCounts p (· + 8) id s
  | .longDominantRx => changeCounts p id (· + 8) s

/-- Whether an error row ends the transmitter's frame. -/
def rowFails : ErrRow → Bool
  | .transmitterFlag | .ackPassiveQuiet => true
  | _ => false

/-- R243: the secondary sample point of a loop delay, in ns from the start of the bit. -/
def sspPoint (s : State) (p loopd : Nat) : Nat :=
  loopd + (if getF s (zp p 3) 17 9 = 0 then getF s (zp p 2) 25 13 else getF s (zp p 3) 17 9)

/-- R244: the point lies 8 data bit times or more after the start of the bit. -/
def sspBad (s : State) (p loopd : Nat) : Bool := 8 * getF s (zp p 2) 12 0 ≤ sspPoint s p loopd

/-- R256 to R260, R263, R273: an error of a class and what it leads to. The error sequence that follows holds back what waits for its
end (R264, R265). -/
def portError (p cls : Nat) (fast : Bool) (row : ErrRow) (s : State) : State :=
  let s := noteError p cls fast s
  let fails := rowFails row && (portOf s p).sending != .none
  let s := if fails then attemptFailed p cls s else s
  modPort p (fun x => { x with inError := true }) (countRow p row s)

/-- ERROR_DETECTED (R243, R244, R256 to R260, R263, R273): `loopd` is the loop delay measured in the frame the port sends, if it came so
far. A frame without delay compensation has no error of class 4. -/
def execErrorDetected (p : Fin 256) (cls : Fin 9) (fast : Bool) (row : ErrRow) (loopd : Option (BitVec 9)) (s : State) :
    Host.Outcome State Fault Refusal :=
  if !onBus s p || (cls == 4 && !compensated s p) then .next s
  else .next (portError p cls fast row (noteLoop p loopd s))

/-- TRANSMIT_SUCCESS (R253, R243, R244): the frame in progress ends, with the loop delay it measured; one whose secondary sample point
lay out of range had a bit error of class 4 instead. -/
def execTransmitSuccess (p : Fin 256) (loopd : BitVec 9) (s : State) : Host.Outcome State Fault Refusal :=
  let x := portOf s p
  if x.sending = .none || !driverOn s p then .next s
  else
    let s := noteLoop p (some loopd) s
    if compensated s p && sspBad s p loopd.toNat then .next (portError p 4 true .transmitterFlag s)
    else
      let s := sentWhat p x (duskLate p x (portCount p 1 s))
      .next (frameEnd p (changeCounts p (· - 1) id (modPort p (fun x => { x with sending := .none }) s)))

/-- BUS_OFF_RECOVERY_COMPLETE (R235, R261, R264, R265): the counts clear and the port is error-active, at a bus idle; a driver turned off at its limit
must have been tried and have held a dominant bit. -/
def execBusOffRecoveryComplete (p : Fin 256) (driverHolds : Bool) (s : State) : Host.Outcome State Fault Refusal :=
  let x := portOf s p
  if confState s p ≠ 3 ∨ x.shortOff = true ∨ (x.trial = true ∧ driverHolds = false) then .next s
  else .next (busIdle p (portFault 0x405 p 0 (modPort p (fun x => { x with trial := false, integrating := false }) (setReg s (zp p 4) 0))))

/-- INTEGRATION_COMPLETE (R253, R264, R265): 11 consecutive recessive bits, after which the bus is idle. -/
def execIntegrationComplete (p : Fin 256) (s : State) : Host.Outcome State Fault Refusal :=
  .next (if cfgAct s p then s else busIdle p (modPort p (fun x => { x with integrating := false }) s))

/-- PROTOCOL_EXCEPTION (R266): the port integrates, its counters unchanged. -/
def execProtocolException (p : Fin 256) (s : State) : Host.Outcome State Fault Refusal :=
  if !(onBus s p && isCanFd s p) then .next s
  else .next (portFault 0x408 p 0 (modPort p (fun x => { x with integrating := true }) (setBit s (zp p 5) 10)))

/-- DOMINANT_TIMEOUT (R236): TEC becomes 256, so the port enters bus-off. -/
def execDominantTimeout (p : Fin 256) (s : State) : Host.Outcome State Fault Refusal :=
  if !driverOn s p then .next s
  else .next (confine p (setF (portFault 0x407 p 0 (setBit s (zp p 5) 7)) (zp p 4) 16 8 256))

/-- DRIVER_CURRENT_LIMIT (R235): the driver is turned off and the port enters bus-off, from a trial in recovery too. -/
def execDriverCurrentLimit (p : Fin 256) (s : State) : Host.Outcome State Fault Refusal :=
  if !driverOn s p then .next s
  else
    let s := portFault 0x40B p 0 (setBit s (zp p 5) 9)
    .next (enterBusOff p (modPort p (fun x => { x with shortOff := true, trial := false }) s))

/-- DRIVER_DISABLE (R262, R273): the driver is off; a frame in progress is abandoned and every posted descriptor fails. -/
def execDriverDisable (p : Fin 256) (s : State) : Host.Outcome State Fault Refusal :=
  if driverOn s p then .next s
  else if (portOf s p).sending = .none then .next (failAll p s)
  else .next (failAll p (portFault 0x409 p 0 (setBit s (zp p 5) 5)))

/-- The ports of isolation group `g` (R234). -/
def groupPorts (g : Nat) : List Nat := (List.range 8).map (8 * g + ·)

/-- GROUP_SUPPLY_FAIL (R234): the eight ports go out of service, each with fault 0x40A. -/
def execGroupSupplyFail (g : Fin 32) (s : State) : Host.Outcome State Fault Refusal :=
  .next ((groupPorts g).foldl (fun s p =>
    if (portOf s p).groupFail then s
    else frameEnd p (failAll p (portFault 0x40A p 0 (setBit (modPort p (fun x => { x with groupFail := true }) s) (zp p 5) 8)))) s)

/-- GROUP_SUPPLY_RETURN (R234): the ports of the group come back and integrate. -/
def execGroupSupplyReturn (g : Fin 32) (s : State) : Host.Outcome State Fault Refusal :=
  .next ((groupPorts g).foldl (fun s p =>
    if (portOf s p).groupFail then modPort p (fun x => { x with groupFail := false, integrating := true }) s else s) s)

/-! The receive queue (R277 to R284). -/

/-- R255: the duration of a Zilco frame in ns. -/
def frameNs (s : State) (p pairs stuff : Nat) : Nat :=
  let ta := getF s (zp p 1) 12 0
  let td := getF s (zp p 2) 12 0
  (27 + stuff) * ta + getF s (zp p 1) 25 13 + (td - getF s (zp p 2) 25 13) + (48 + 81 * pairs) * td

/-- R247: the dynamic stuff bits of SOF and ID, most significant bit first, from a run of `n` bits equal to `b`. -/
def stuffBits (v : Nat) : Nat → Bool → Nat → Nat
  | 0, _, _ => 0
  | i + 1, b, n =>
    let x := v / 2 ^ i % 2 == 1
    let n := if x = b then n + 1 else 1
    if n = 5 then 1 + stuffBits v i (!x) 1 else stuffBits v i x n

/-- R247: SOF and the identifier. -/
def stuffOf (ident : Nat) : Nat := stuffBits ident 16 false 1

/-- The day tick of an instant in ns of the running count, and the ns since midnight. -/
def dayNs (s : State) (ns : Nat) : Int := (ns : Int) - 4 * ((s.now : Int) - (dayTick s : Nat))

/-- The day tick containing an instant (R279); one before midnight is counted in the day before. -/
def dayTickOfNs (s : State) (ns : Nat) : Nat :=
  let d := dayNs s ns
  if dayT s = 0 then 0 else ((d / 4) % (dayT s : Nat)).toNat

/-- R294: a station's frame outside its slot, its reference instant `t` and end in ns since midnight. -/
def offSlot (s : State) (p k : Nat) (t fin : Int) : Bool :=
  let st : Int := (getF s (zp p (0x40 + k)) 27 0 * 4 : Nat)
  let en : Int := st + (getF s (zp p (0x60 + k)) 35 16 * 4 : Nat)
  !slotEnabled s p k || t < st - 1000 || t > en + 1000 || fin > en + 1000

/-- R294: the frame is a slot intrusion. Only a driving port that sends the beacon checks (R296). -/
def intrudes (s : State) (p : Nat) (f : RxFrame) : Bool :=
  let t := dayNs s f.refNs
  let ph := phaseOf s (dayTickOfNs s f.refNs)
  isZilco s p && !silent s p && bitOf s (zp p 0x30) 35 && s.day.run && stationClass (idClass f.id.toNat) && !f.self
    && (ph == 4 || (ph == 0 && offSlot s p (idStation f.id.toNat) t
      (t + (frameNs s p (f.words.length / 2) (stuffOf f.id.toNat) : Nat))))

/-- R294: an intrusion is counted against its station, once a day. -/
def countIntrusion (p k : Nat) (s : State) : State := portFault 0x420 p k (portCount p 9 (setBit s (zp p (0x60 + k)) 8))

/-- R296: a listen-only port takes each station's MUTED from the beacon it receives. -/
def adoptMutes (p : Nat) (f : RxFrame) (s : State) : State :=
  if isZilco s p && silent s p && f.id == 0 then
    forUpto 32 (fun k s => setBit s (zp p (0x60 + k)) 11 ((f.words.getD 4 0).getLsbD k)) s
  else s

/-- R277, R283: the frame joins the two places that await deposit. -/
def awaitDeposit (p : Nat) (f : RxFrame) (intr : Bool) (s : State) : State :=
  let k := idStation f.id.toNat
  if (portOf s p).awaiting.length < 2 then
    modPort p (fun x => { x with awaiting := x.awaiting ++
      [{ f := f, intr := intr, muted := isZilco s p && stationClass (idClass f.id.toNat) && bitOf s (zp p (0x60 + k)) 11,
         tick := dayTickOfNs s f.refNs }] }) s
  else portFault 0x411 p k (portCount p 7 s)

/-- R277, R283, R294, R296: a frame valid for the port; one of its own is deposited with SELF alone. -/
def takeFrame (p : Nat) (f : RxFrame) (s : State) : State :=
  let s := adoptMutes p f (if f.self then s else changeCounts p id recDown s)
  let i := intrudes s p f
  let s := if i then countIntrusion p (idStation f.id.toNat) s else s
  if f.self && !bitOf s (zp p 0x15) 18 then s else awaitDeposit p f i s

/-- FRAME_VALID (R253, R258, R264, R265, R277, R283, R294, R296, R299): the frame is counted, and its end is what a request may have
waited for; after an error sequence its start of frame came after that sequence's end. -/
def execFrameValid (p : Fin 256) (f : RxFrame) (s : State) : Host.Outcome State Fault Refusal :=
  let s := if (portOf s p).inError then busIdle p s else s
  if !onBus s p then .next s else .next (busIdle p (takeFrame p f (portCount p 0 s)))

/-- R279: words 0 to 3 of a receive descriptor, without AGE. -/
def rxWord0 (seq : Nat) (f : RxFrame) : Word :=
  word (seq % 4096 * 2 ^ 24 + (match f.fd with | some _ => f.octets | none => f.words.length / 2 - 1) % 256 * 2 ^ 16
    + (match f.fd with | some _ => 0 | none => f.id.toNat))
def rxWord2 (trunc : Bool) (w : Await) : Word :=
  word ((if trunc then 2 ^ 35 else 0) + (if w.intr then 2 ^ 34 else 0) + (if w.muted then 2 ^ 33 else 0)
    + (if w.f.ackd then 2 ^ 32 else 0) + (if w.f.esir then 2 ^ 31 else 0) + (if w.f.self then 2 ^ 30 else 0) + w.tick % 2 ^ 28)
def rxWord3 (f : RxFrame) : Word :=
  match f.fd with
  | none => 0
  | some h => word ((if h.ide then 2 ^ 35 else 0) + (if h.fdf then 2 ^ 34 else 0) + (if h.brs then 2 ^ 33 else 0)
      + (if h.rtr then 2 ^ 32 else 0) + h.ident.toNat)

/-- R279, R280: AGE, to the start of the tick after the one in which word 1 was written, `d` ticks ago. -/
def rxAge (s : State) (d : Nat) (f : RxFrame) : Word := wordI ((4 * ((s.now : Int) - (d : Nat)) - (f.refNs : Nat)) * 64)

/-- R284: the octets of a CAN FD frame are packed; a remote frame deposits no payload. -/
def rxPayload (f : RxFrame) : List Word :=
  match f.fd with
  | some h => if h.rtr then [] else packOctets f.octets f.words
  | none => f.words

/-- R57, R368: the report that eight words hold. -/
def arrivalOf (ws : List Word) : Arrival :=
  let w (i : Nat) : Nat := (ws.getD i 0).toNat
  { seq := slice (w 0) 35 24, polarity := slice (w 0) 5 3, phases := slice (w 0) 2 0, sec := w 2 % 4096 * 2 ^ 36 + w 3, ns64 := w 1
    amplitude := ws.getD 4 0, accuracy := slice (w 5) 17 0 }

/-- R368: a travelling-wave report of a source of the phasor section is kept for the output. -/
def noteArrival (p : Nat) (f : RxFrame) (s : State) : State :=
  let id := f.id.toNat
  if s.boot.phasors.isEmpty || f.fd.isSome || idClass id != 2 || f.words.length != 8 then s
  else match (Config.phasorSection s.boot.phasors).waves.findIdx? fun w => w.seg == p && w.stn == idStation id && w.idx == id % 64 with
    | some k => { s with c37 := { s.c37 with
        arrivals := (s.c37.arrivals.filter (·.1 < k)) ++ [(k, arrivalOf f.words)] ++ s.c37.arrivals.filter (k < ·.1) } }
    | none => s

/-- The first word of the queue entry written next. -/
def entryAddr (s : State) (p : Nat) : Nat := getF s (zp p 0x14) 31 0 + getF s (zp p 0x16) 7 0 * (4 + getF s (zp p 0x15) 17 9)

/-- R280, R282: the entry is written, word 0 last, and the receive notice queued. -/
def deposit (p d : Nat) (w : Await) (s : State) : State :=
  let bufw := getF s (zp p 0x15) 17 9
  let idx := getF s (zp p 0x16) 7 0
  let a := entryAddr s p
  let trunc := bufw < (rxPayload w.f).length
  let s := if trunc then portFault 0x412 p (idStation w.f.id.toNat) (portCount p 8 s) else s
  let s := mWrites masterPort (a + 4) ((rxPayload w.f).take bufw) s
  let s := mWrite masterPort (a + 3) (rxWord3 w.f) s
  let s := mWrite masterPort (a + 2) (rxWord2 trunc w) s
  let s := mWrite masterPort (a + 1) (rxAge s d w.f) s
  let s := mWrite masterPort a (rxWord0 (portOf s p).seq w.f) s
  let s := modPort p (fun x => { x with seq := (x.seq + 1) % 4096 }) s
  let s := setF (setF s (zp p 0x16) 7 0 ((idx + 1) % Nat.max (getF s (zp p 0x15) 8 0) 1)) (zp p 0x16) 16 8
    (getF s (zp p 0x16) 16 8 + 1)
  postEvent p (idx + Nat.min d 4095 * 2 ^ 8) (noteArrival p w.f s)

/-- R281: HELD equals SIZE. -/
def queueFull (s : State) (p : Nat) : Bool := getF s (zp p 0x15) 8 0 ≤ getF s (zp p 0x16) 16 8

/-- R280: the addresses of an entry but for its word 0: the payload, then words 3, 2 and 1. -/
def entryAddrs (s : State) (p : Nat) (f : RxFrame) : List Nat :=
  (List.range (3 + Nat.min (rxPayload f).length (getF s (zp p 0x15) 17 9))).map (entryAddr s p + 1 + ·)

/-- R280: the deposit of the oldest awaiting frame begins: its words are served one a tick at their point. -/
def depositBegins (p : Nat) (w : Await) (t : List Await) (s : State) : State :=
  modPort p (fun x => { x with awaiting := { w with began := some s.now } :: t })
    { s with owed := s.owed ++ owe masterPort p 0 (entryAddrs s p w.f) }

/-- R281, R282: the port begins the deposit of the oldest awaiting frame; at a full queue the acknowledgements of the tick decide. -/
def beginDeposit (p : Nat) (s : State) : State :=
  match (portOf s p).awaiting with
  | [] => s
  | w :: t =>
    if w.began.isSome then s
    else if queueFull s p then modPort p (fun x => { x with awaiting := { w with full := true } :: t }) s
    else depositBegins p w t s

/-- R281, R282: at the end of the tick a deposit that found the queue full begins, or its frame is dropped. -/
def decideDeposit (p : Nat) (s : State) : State :=
  match (portOf s p).awaiting with
  | [] => s
  | w :: t =>
    if !w.full || w.began.isSome then s
    else if queueFull s p then
      portFault 0x410 p (idStation w.f.id.toNat) (portCount p 6 (modPort p (fun x => { x with awaiting := t }) s))
    else depositBegins p w t s

/-- R280: word 1 of the deposit in progress has been written in an earlier tick. -/
def wordZeroDue (s : State) (p : Nat) : Bool :=
  match (portOf s p).awaiting with
  | [] => false
  | w :: _ => (w.began.any (· < s.now)) && !s.owed.any (fun o => o.master == masterPort && o.sub == p)

/-- R280, R281, R499: word 0 of the deposit in progress is written, as many ticks late as its point has kept it waiting. -/
def finishDeposit (p : Nat) (s : State) : State :=
  match (portOf s p).awaiting with
  | [] => s
  | w :: t =>
    let a := entryAddr s p
    if !wordZeroDue s p then s
    else if blockedAt s masterPort p a then waitFor masterPort p [a] s
    else
      let u := ownFault (portFault 0x414 p (idStation w.f.id.toNat)) s <| deposit p w.d w (modPort p (fun x => { x with awaiting := t }) s)
      { u with served := tabSet 0 s.served (pointOf (word a)) (s.now + 1), tk := { u.tk with touched := s.tk.touched } }

/-- R280: at the end of a tick in which word 0 was due the port has written it, or its point has kept it waiting for one tick more. -/
def depositTick (p : Nat) (s : State) : State :=
  if !wordZeroDue s p then s
  else
    let t := finishDeposit p s
    if (portOf t p).awaiting.length < (portOf s p).awaiting.length then t
    else modPort p (fun x => { x with awaiting := x.awaiting.mapIdx fun i w => if i = 0 then { w with d := w.d + 1 } else w }) t

/-- R31, R280 to R282: what the tick that ends has still to do: deposits, and the words that operations have still to access. -/
def endPorts (s : State) : State :=
  let s := s.ports.foldl (fun t p => decideDeposit p.1 (depositTick p.1 t)) s
  serveOwed s

/-- FRAME_DEPOSIT (R31, R280 to R282). -/
def execFrameDeposit (p : Fin 256) (d : DepositStep) (s : State) : Host.Outcome State Fault Refusal :=
  match d with
  | .begin => .next (beginDeposit p s)
  | .finish => .next (finishDeposit p s)

/-! Software's writes (R261, R264, R265, R270, R276, R281, R295). -/

/-- TXPTR_WRITE (R270, R275): the descriptors newly posted are read from the next tick on. -/
def txptrWrite (p put : Nat) (s : State) : State :=
  let was := posted s p
  let s := setF s (zp p 0x12) 7 0 put
  modPort p (fun x => { x with
    posts := (x.posts ++ List.replicate (posted s p - was) s.now).take (posted s p)
    headAt := if was = 0 then s.now + 1 else x.headAt }) s

/-- R273, R275: a descriptor posted while the port cannot send fails as the port reads it, in the tick after it was posted. -/
def portTick (p : Nat) (s : State) : State :=
  if (portOf s p).posts.isEmpty || !cannotSend s p then s else failPosted p 256 s

/-- TXPTR_WRITE (R270). -/
def execTxptrWrite (p : Fin 256) (put : BitVec 8) (s : State) : Host.Outcome State Fault Refusal :=
  .next (txptrWrite p put.toNat s)

/-- TXCAN_CANCEL (R276). -/
def txcanCancel (p i : Nat) (s : State) : State :=
  if !isPosted s p i then setF s (zp p 0x13) 17 16 3
  else if (portOf s p).cancelled.contains i || (i = txGet s p && (portOf s p).sofDriven) then setF s (zp p 0x13) 17 16 2
  else
    let s := setF s (zp p 0x13) 17 16 1
    if i = txGet s p then endHead p 1 0 s
    else modPort p (fun x => { x with cancelled := x.cancelled ++ [i] })
      (endDesc { port := p, index := i, st := 1, att := 0, errc := 0, sent := 0 } s)

/-- TXCAN_CANCEL (R276). -/
def execTxcanCancel (p : Fin 256) (index : BitVec 8) (s : State) : Host.Outcome State Fault Refusal :=
  .next (txcanCancel p index.toNat s)

/-- RXACK (R281): the oldest held entries go back to the port; a count above those held is fault 0x415. -/
def rxack (p count : Nat) (s : State) : State :=
  let held := getF s (zp p 0x16) 16 8
  setF (if held < count then portFault 0x415 p 0 s else s) (zp p 0x16) 16 8 (held - count)

/-- RXACK (R281). -/
def execRxack (p : Fin 256) (count : BitVec 9) (s : State) : Host.Outcome State Fault Refusal := .next (rxack p count.toNat s)

/-- R264, R265: a frame or an error sequence is in progress on the segment. Of a frame that the port is receiving no command tells before
its end: a free value. -/
def segmentBusy (s : State) (p : Nat) : Bool :=
  (portOf s p).sending != .none || (portOf s p).inError || (onBus s p && Config.freeNat s.fresh % 2 == 1)

/-- CFG_ENTER (R265): at the end of the frame or error sequence in progress, or at once. -/
def cfgEnter (p : Nat) (s : State) : State :=
  let s := setBit s (zp p 0) 5
  if cfgAct s p then s
  else if segmentBusy s p then bump (modPort p (fun x => { x with cfgPend := true }) s)
  else bump (failAll p (setBit s (zp p 0) 4))

/-- CFG_ENTER (R265). -/
def execCfgEnter (p : Fin 256) (s : State) : Host.Outcome State Fault Refusal := .next (cfgEnter p s)

/-- R239: the conditions on one set of bit-timing values that hold in both modes. -/
def timingOk (w : Nat) : Bool :=
  let blen := slice w 12 0
  let spt := slice w 25 13
  let rjw := slice w 35 26
  20 ≤ blen && blen ≤ 8000 && (blen + 1) / 2 ≤ spt && spt ≤ blen - 4 && 1 ≤ rjw && rjw ≤ Nat.min 1023 (blen - spt)

/-- R239, R265, R267: the port may leave configuration. -/
def leaveOk (proto atim ftim : Nat) : Bool :=
  let ta := slice atim 12 0
  let td := slice ftim 12 0
  match proto with
  | 0 => timingOk atim && timingOk ftim
  | 1 => timingOk atim && timingOk ftim && (ta == 1000 || ta == 2000) && (td == 25 || td == 50 || td == 100 || td == 200)
  | 2 => timingOk atim && timingOk ftim && 1000 ≤ ta && 125 ≤ td && td ≤ 1000 && td ≤ ta
  | _ => false

/-- CFG_LEAVE (R239, R253, R265): the check of the bit timing; the port then integrates. -/
def cfgLeave (p : Nat) (s : State) : State :=
  if !cfgAct s p then modPort p (fun x => { x with cfgPend := false }) (setBit s (zp p 0) 5 false)
  else if leaveOk (protoOf s p) (reg s (zp p 1)).toNat (reg s (zp p 2)).toNat then
    modPort p (fun x => { x with integrating := true }) (setBit (setBit s (zp p 0) 5 false) (zp p 0) 4 false)
  else portFault 0x401 p 0 (setBit s (zp p 0) 5)

/-- CFG_LEAVE (R265). -/
def execCfgLeave (p : Fin 256) (s : State) : Host.Outcome State Fault Refusal := .next (cfgLeave p s)

/-- LOREQ_SET (R264): the port is listen-only at the end of the frame or error sequence in progress, or at once. -/
def loreqSet (p : Nat) (s : State) : State :=
  if bitOf s (zp p 0) 0 then s else bump (modPort p (fun x => { x with loPend := segmentBusy s p }) (setBit s (zp p 0) 0))

/-- LOREQ_SET (R264). -/
def execLoreqSet (p : Fin 256) (s : State) : Host.Outcome State Fault Refusal := .next (loreqSet p s)

/-- LOREQ_CLEAR (R264): the port drives from the next bus idle. -/
def loreqClear (p : Nat) (s : State) : State := modPort p (fun x => { x with loPend := false }) (setBit s (zp p 0) 0 false)

/-- LOREQ_CLEAR (R264). -/
def execLoreqClear (p : Fin 256) (s : State) : Host.Outcome State Fault Refusal := .next (loreqClear p s)

/-- BOREC (R261): with BOMAN set recovery starts; outside bus-off the write has no effect. -/
def borec (p : Nat) (s : State) : State := if confState s p = 2 ∧ bitOf s (zp p 0) 3 = true then startRecovery p s else s

/-- BOREC (R261). -/
def execBorec (p : Fin 256) (s : State) : Host.Outcome State Fault Refusal := .next (borec p s)

/-- UNMUTE (R295): MUTED and INTR clear. RESYNC, which shows what INTR and MUTED give, is cleared with them. -/
def unmute (p k : Nat) (s : State) : State := setF s (zp p (0x60 + k)) 15 10 0

/-- UNMUTE (R295). -/
def execUnmute (p : Fin 256) (k : Fin 32) (s : State) : Host.Outcome State Fault Refusal := .next (unmute p k s)

/-! Segment time (R287, R290 to R293). -/

/-- The module's field bits by station: RESYNC is bit 10 and MUTED bit 11 of ZP_STNk. -/
def stationBits (s : State) (p b : Nat) : Nat := ((List.range 32).map fun k => if bitOf s (zp p (0x60 + k)) b then 2 ^ k else 0).sum

/-- R287: the launch offset O of a frame whose SOF is driven `sub` 1/64 ns into this tick: from the grid midnight to the contacts, in
1/64 ns. -/
def launchOffset (s : State) (p sub : Nat) : Nat :=
  (if dayL s = 0 then 0 else (s.time.ns64 + sub) % (dayL s * 64000)) + Config.driverDelay p

/-- R287: the words of the Dawn beacon. -/
def beaconWords (s : State) (p sub : Nat) : List Word :=
  [word (s.day.n % 2 ^ 36), word (getF s timState 3 0 * 2 ^ 32 + dayL s * 2 ^ 12 + s.day.n / 2 ^ 36 % 4096),
   word (launchOffset s p sub), word (stationBits s p 10), word (stationBits s p 11),
   word (phaseStart s 1), word (phaseStart s 4), word (phaseStart s 5)]

/-- BEACON_SEND (R272, R287, R291, R330): at the first bus idle at or after its tick, `sub` 1/64 ns into this tick. -/
def execBeaconSend (p sub : Fin 256) (s : State) : Host.Outcome State Fault Refusal :=
  let s := busIdle p s
  if !(mayStart s p && beaconDue s p) then .next s
  else
    let ws := beaconWords s p sub
    .next (startFrame p .beacon { words := ws } (setReg (modPort p (fun x => { x with bcnToday := true }) s) (zp p 0x31) (ws.getD 2 0)))

/-- BEACON_MISSED (R291): a beacon not started by the last tick of Dawn. -/
def execBeaconMissed (p : Fin 256) (s : State) : Host.Outcome State Fault Refusal :=
  if isZilco s p && driverOn s p && !listenOnly s p && !cfgAct s p && bitOf s (zp p 0x30) 35 && s.day.run
      && 0 < phaseOf s (dayTick s) && !(portOf s p).bcnToday then
    .next (portFault 0x424 p 0 (modPort p (fun x => { x with bcnToday := true }) s))
  else .next s

/-- ECHO_REQUEST_SEND (R290, R292, R293): the echo number is the module's own choice, a free value. -/
def execEchoRequestSend (p : Fin 256) (s : State) : Host.Outcome State Fault Refusal :=
  match echoNext s p with
  | some k =>
    let s := busIdle p s
    if mayStart s p && echoDue s p && !beaconDue s p then
      let e := Config.freeWord s.fresh
      .next (startFrame p (.echo k) { id := k * 64 + 1, words := [e, 0] }
        (modPort p (fun x => { x with echoToday := true, lastEcho := k, echo := some (k, e) }) (bump s)))
    else .next s
  | none => .next s

/-- R292: the delay in 1/64 ns, from twice it; an odd value's half unit is rounded as the spec leaves open. -/
def halfDelay (s : State) (twice : Int) : Nat := (twice / 2).toNat + (if twice % 2 = 0 then 0 else Config.freeNat s.fresh % 2)

/-- ECHO_REPLY_RECEIVE (R292): p = (M − R)/2 is accepted with the same E and 0 ≤ p ≤ 1,000 ns; any other outcome voids the
exchange, and so does a port that is listen-only or in bus-off by now (R260, R296). -/
def execEchoReplyReceive (p : Fin 256) (k : Fin 32) (e r : Word) (m : Nat) (s : State) : Host.Outcome State Fault Refusal :=
  match (portOf s p).echo with
  | none => .next s
  | some (k', e') =>
    let s := modPort p (fun x => { x with echo := none }) s
    let twice : Int := (m * 64 : Nat) - (r.toNat : Int)
    if isZilco s p = true ∧ silent s p = false ∧ k' = k.val ∧ e = e' ∧ 0 ≤ twice ∧ twice ≤ 128000 then
      .next (modPort p (fun x => { x with delay := some (k.val, s.day.n) })
        (setReg (bump s) (zp p (0x80 + k)) (word (2 ^ 35 + halfDelay s twice % 2 ^ 24))))
    else .next (portFault 0x423 p k' s)

/-- R290: the words of a delay notice on a measurement of day `n`. -/
def delayWords (s : State) (p k n : Nat) : List Word :=
  [word (getF s (zp p (0x80 + k)) 23 0), word (n % 2 ^ 36),
   word (getF s (zp p (0x40 + k)) 35 35 * 2 ^ 35 + getF s (zp p (0x40 + k)) 27 0), word (getF s (zp p (0x60 + k)) 35 16)]

/-- DELAY_NOTICE_SEND (R272, R290, R292): at the next bus idle. -/
def execDelayNoticeSend (p : Fin 256) (s : State) : Host.Outcome State Fault Refusal :=
  match (portOf s p).delay with
  | some (k, n) =>
    let s := busIdle p s
    if mayStart s p && isZilco s p && !beaconDue s p && !echoDue s p then
      .next (startFrame p (.delay k) { id := k * 64 + 2, words := delayWords s p k n } (modPort p (fun x => { x with delay := none }) s))
    else .next s
  | none => .next s

/-! What a midnight does to a port (R292, R295). -/

/-- R295: INTR of a station with an enabled slot, and what it leads to. -/
def stationMidnight (p k : Nat) (s : State) : State :=
  let a := zp p (0x60 + k)
  let n := if bitOf s a 8 then Nat.min (getF s a 15 12 + 1) 15 else 0
  let was := getF s a 15 12
  let s := setBit s a 8 false
  if !slotEnabled s p k then s
  else
    let s := setF s a 15 12 n
    let s := if n = 3 ∧ was = 2 then portFault 0x421 p k s else s
    let s := if n = 10 ∧ was = 9 then portFault 0x422 p k (setBit s a 11) else s
    setBit s a 10 (decide (3 ≤ n) && !bitOf s a 11)

/-- ZP_DLYk.AGE counts days (R292's register). -/
def delayMidnight (p k : Nat) (s : State) : State :=
  if bitOf s (zp p (0x80 + k)) 35 then addSat s (zp p (0x80 + k)) 34 24 1 else s

/-- R178: the head is an output frame that was due in the day just ended, or is in flight at its midnight. -/
def leftOver (s : State) (p : Nat) : Bool :=
  let a := descAddr s p (txGet s p)
  let w := (memGet s a).toNat
  posted s p != 0 && (portOf s p).headAt < s.now && !(portOf s p).cancelled.contains (txGet s p)
    && outputClass (idClass (slice w 15 0)) && slice w 29 28 != 3
    && ((portOf s p).headDue || slice w 29 28 != 1 || slice (memGet s (a + 2)).toNat 27 0 < dayT s)

/-- R272: the head has become due in the day just ended: its tick has come, or a Dusk whose end it did not miss. -/
def dueBefore (s : State) (p : Nat) : Bool :=
  let a := descAddr s p (txGet s p)
  let w := slice (memGet s a).toNat 29 28
  posted s p != 0 && !(portOf s p).cancelled.contains (txGet s p) && ((portOf s p).headDue
    || (w == 1 && (portOf s p).headAt < s.now && slice (memGet s (a + 2)).toNat 27 0 < dayT s)
    || (w == 2 && (portOf s p).headAt + dayT s < s.now + phaseStart s 5))

/-- R178, R272, R291, R292, R295: a port at a midnight. An exchange still open is void, as its reply is not of the same day. -/
def portMidnight (p : Nat) (s : State) : State :=
  let due := dueBefore s p
  let s := if due == (portOf s p).headDue then s else modPort p (fun x => { x with headDue := due }) s
  if !isZilco s p then s
  else
    let s := match (portOf s p).echo with
      | some (k, _) => portFault 0x423 p k s
      | none => s
    let s := modPort p (fun x => { x with bcnToday := false, echoToday := false, echo := none, duskHold := leftOver s p, nightRing := if leftOver s p then posted s p else 0 }) s
    forUpto 32 (fun k s => delayMidnight p k (stationMidnight p k s)) s

/-- R296: a port that begins to drive after a takeover starts every INTR at 0 and keeps MUTED. -/
def portTakeover (p : Nat) (s : State) : State := forUpto 32 (fun k s => setF s (zp p (0x60 + k)) 15 12 0) s

/-! Budgets (R175, R297). -/

/-- R255, R297: a frame with its interframe space, in ns. -/
def busNs (s : State) (p pairs stuff : Nat) : Nat := frameNs s p pairs stuff + 3 * getF s (zp p 1) 12 0

/-- R297: the end of the latest slot, and of the beacon on a port that sends one and has no enabled slot, in ticks. -/
def dawnBudget (s : State) (p : Nat) : Nat :=
  let ends := ((List.range 32).filter (slotEnabled s p)).map fun k => getF s (zp p (0x40 + k)) 27 0 + getF s (zp p (0x60 + k)) 35 16
  if !isZilco s p then 0
  else if ends.isEmpty && bitOf s (zp p 0x30) 35 then (getF s (zp p 0x30) 27 0 * 4 + busNs s p 4 (stuffOf 0) + 3) / 4
  else ends.foldl Nat.max 0

/-- R297: the frames that the port starts in Dusk, by the station maps, in ticks. -/
def duskBudget (s : State) (maps : List Word) (p : Nat) : Nat :=
  if !isZilco s p || maps.isEmpty then 0 else (((Config.duskFrames maps p).map fun n => busNs s p n 4).sum + 3) / 4

/-- R175: Dawn and Dusk of a day table cover every segment's budget. -/
def budgetsOk (s : State) (maps t : List Word) : Bool :=
  (List.range 256).all fun p =>
    dawnBudget s p ≤ (t.getD 1 0).toNat && (t.getD 4 0).toNat + duskBudget s maps p ≤ (t.getD 5 0).toNat

end Sys2Proof.Machine
end

