-- ==== Sys2Proof/Machine/Signal.lean ====
section
/-! DEFINITION. The signal chain unit: feeds, filters, characterisation, records, thresholds, starts and stops (R333 to
R355). -/

namespace Sys2Proof.Machine

/-! A channel's context (R334, R335, R337, R346). -/

def chRin (s : State) (c : Nat) : Nat := getF s (sigCh c 1) 13 0
def chN1 (s : State) (c : Nat) : Nat := getF s (sigCh c 2) 20 14 + 1
def chN2 (s : State) (c : Nat) : Nat := getF s (sigCh c 2) 28 21 + 1
def chM1 (s : State) (c : Nat) : Nat := getF s (sigCh c 2) 9 6 + 1
def chM2 (s : State) (c : Nat) : Nat := getF s (sigCh c 2) 13 10 + 1
def chSet (s : State) (c : Nat) : Nat := getF s (sigCh c 2) 4 0
def chMode (s : State) (c : Nat) : Nat := getF s (sigCh c 3) 7 6
def chTable (s : State) (c : Nat) : Nat := getF s (sigCh c 3) 5 0
/-- A pu36 parameter of a channel: 4 GAIN, 5 OFS, 6 CUT, 7 HI, 8 LO, 9 HYS. -/
def chPar (s : State) (c j : Nat) : Word := reg s (sigCh c j)

/-- R335: the positions a settled output depends on. -/
def chWindow (s : State) (c : Nat) : Nat := chN1 s c + (chN2 s c - 1) * chM1 s c

/-- A common multiple of 1 to 16, in which the loads of R337 are whole. -/
def loadUnit : Nat := 720720

/-- R337: operations per output of the characterisation. -/
def chOps (s : State) (c : Nat) : Nat :=
  match chMode s c with
  | 1 => 16
  | 2 => 8
  | _ => 4

/-- R337: the load of a channel, times loadUnit². -/
def chLoad (s : State) (c : Nat) : Nat :=
  let a := loadUnit / chM1 s c
  chRin s c * (3 * loadUnit * loadUnit + chN1 s c * a * loadUnit + (chN2 s c + chOps s c) * a * (loadUnit / chM2 s c))

/-- R337: the load of a pipeline over its settling and running channels. -/
def pipeLoad (s : State) (p : Nat) : Nat :=
  ((List.range 64).map fun i => if chActive s (64 * p + i) then chLoad s (64 * p + i) else 0).sum

/-- SIG_LOADp: thousands of operations a second, rounded up. -/
def sigLoadOf (s : State) (p : Nat) : Nat := (pipeLoad s p + 1000 * loadUnit * loadUnit - 1) / (1000 * loadUnit * loadUnit)

/-- R346, R351: the output ring lies in shared memory. -/
def outBaseOk (s : State) (c : Nat) : Bool :=
  let sz := getF s (sigCh c 10) 35 32
  let a := getF s (sigCh c 10) 31 0
  sz ≤ 8 && a % 2 == 0 && a + 2 * 2 ^ (4 + sz) ≤ 0x800000

/-- R346, R353: HI > LO and HYS ≥ 0. -/
def thresholdsOk (hi lo hys : Word) : Bool := lo.toInt < hi.toInt && 0 ≤ hys.toInt

/-- R346: the checks of a GO but for the budget. -/
def contextOk (s : State) (c : Nat) : Bool :=
  1 ≤ chRin s c && chRin s c ≤ 14400 && chRin s c % (chM1 s c * chM2 s c) == 0 && chMode s c != 3 && outBaseOk s c
    && thresholdsOk (chPar s c 7) (chPar s c 8) (chPar s c 9)

/-- R337, R346: the budget of the channel's pipeline. -/
def loadOk (s : State) (c : Nat) : Bool := pipeLoad s (c / 64) + chLoad s c ≤ 24000000 * loadUnit * loadUnit

/-- R347: delay lines, threshold states, E and count cleared; the day of the last 0x609 is kept, a reset still pending and the limits. -/
def chClear (c : Nat) (s : State) : State :=
  modSigChan c (fun x => { satDay := x.satDay, sync := x.sync, limAt := x.limAt, lims := x.lims }) (setF s (sigCh c 0) 35 34 1)

/-- R346, R355: a GO; in STANDBY every chain stays stopped. -/
def chStart (c : Nat) (s : State) : State :=
  if chActive s c || s.mst == .standby then s
  else if !contextOk s c then raise 0x601 c (setBit (setF s (sigCh c 0) 35 34 3) sigStatus 0)
  else if !loadOk s c then raise 0x602 c (setBit (setF s (sigCh c 0) 35 34 3) sigStatus 1)
  else modSigChan c (fun x => { x with sync := none }) (chClear c (setReg s (sigCh c 11) 0))

/-- R346: a STOP; a failed channel stays failed until its next GO. -/
def chStop (c : Nat) (s : State) : State := if chActive s c then setF s (sigCh c 0) 35 34 0 else s

/-- CHANNEL_GO (R346). -/
def execChannelGo (c : Fin 2048) (s : State) : Host.Outcome State Fault Refusal := .next (chStart c s)

/-- CHANNEL_STOP (R346). -/
def execChannelStop (c : Fin 2048) (s : State) : Host.Outcome State Fault Refusal := .next (chStop c s)

/-- R355: every channel stops. -/
def stopChains (s : State) : State := forUpto 2048 chStop s

/-- R355: every channel with AUTO starts, at the midnight of transition 4, 5 or 6. -/
def autoStart (s : State) : State :=
  forUpto 2048 (fun c s => if bitOf s (sigCh c 0) 33 then chStart c s else s) s

/-! Characterisation (R350). -/

/-- A result whose S joins what came before it. -/
def joinS (b : Bool) (r : Res) : Word × Bool := (r.1, b || r.2.isSome)

/-- R335: Σ h[j]·x[j], accumulated exactly and extracted as pu36; `base` is the address of h[0]. -/
def chainSum (s : State) (base n : Nat) (xs : List Word) : Res :=
  sat (roundShift false
    ((((List.range n).zip xs).map fun p => (reg s (base + p.1)).toInt * p.2.toInt).sum) 30)

/-- R350: between two table values. -/
def tableValue (s : State) (t : Nat) (u : Word) : Res :=
  let v (i : Nat) : Int := (reg s (sigTable t + i)).toInt
  if u.toInt < 0 then plainRes (wordI (v 0))
  else if 2 ^ 30 ≤ u.toInt then plainRes (wordI (v 32))
  else
    let i := u.toNat / 2 ^ 25
    sat (v i + roundShift false ((v (i + 1) - v i) * (u.toNat % 2 ^ 25 : Nat)) 25)

/-- R350: the characterised value of a filter output, and whether a step saturated. -/
def characterise (s : State) (c : Nat) (y : Word) : Word × Bool :=
  let g := sat (roundShift false (y.toInt * (chPar s c 4).toInt) 30)
  let u := joinS g.2.isSome (aluAdds g.1 (chPar s c 5))
  match chMode s c with
  | 1 =>
    let cut := if (chPar s c 6).toInt < 0 then 0 else (chPar s c 6).toInt
    if u.1.toInt < cut then (0, u.2) else joinS u.2 (cordSqrt u.1)
  | 2 => joinS u.2 (tableValue s (chTable s c) u.1)
  | _ => u

/-! Thresholds (R353, R354). -/

/-- R354: a threshold event of kind `k` for output `o` of second `sec`. -/
def thresholdEvent (c k sec o : Nat) (s : State) : State :=
  if bitOf s (sigCh c 0) 32 then postEvent (0x100 + c) (k * 2 ^ 18 + sec % 16 * 2 ^ 14 + o) s else s

/-- A change of the high state; 0 entered, 1 left. -/
def setHigh (c sec o : Nat) (v : Bool) (s : State) : State :=
  if (sigChan s c).hi = v then s
  else thresholdEvent c (if v then 0 else 1) sec o (modSigChan c (fun x => { x with hi := v }) s)

/-- A change of the low state; 2 entered, 3 left. -/
def setLow (c sec o : Nat) (v : Bool) (s : State) : State :=
  if (sigChan s c).lo = v then s
  else thresholdEvent c (if v then 2 else 3) sec o (modSigChan c (fun x => { x with lo := v }) s)

/-- R353: HI, LO and HYS for an output formed now: a write counts from the first output after its tick. -/
def chLims (s : State) (c : Nat) : Word × Word × Word :=
  if (sigChan s c).limAt = s.now + 1 then (sigChan s c).lims else (chPar s c 7, chPar s c 8, chPar s c 9)

/-- R353: the high state after a value. -/
def nextHigh (s : State) (c : Nat) (z : Word) : Bool :=
  let l := chLims s c
  if !bitOf s (sigCh c 3) 9 then (sigChan s c).hi
  else if l.1.toInt ≤ z.toInt then true
  else if z.toInt < (aluSubs l.1 l.2.2).1.toInt then false
  else (sigChan s c).hi

/-- R353: the low state after a value. -/
def nextLow (s : State) (c : Nat) (z : Word) : Bool :=
  let l := chLims s c
  if !bitOf s (sigCh c 3) 8 then (sigChan s c).lo
  else if z.toInt ≤ l.2.1.toInt then true
  else if (aluAdds l.2.1 l.2.2).1.toInt < z.toInt then false
  else (sigChan s c).lo

/-- R353, R354: both states after a good output; the high state first when it is left, the low state first when it is left. -/
def thresholds (c sec o : Nat) (z : Word) (s : State) : State :=
  let h := nextHigh s c z
  let l := nextLow s c z
  if h then setHigh c sec o true (setLow c sec o l s) else setLow c sec o l (setHigh c sec o false s)

/-! Outputs (R347, R351, R352). -/

/-- R351: word 1 of a record. -/
def recordWord (bad settle sat' : Bool) (sec o : Nat) : Word :=
  word ((if bad then 2 ^ 35 else 0) + (if settle then 2 ^ 34 else 0) + (if sat' then 2 ^ 33 else 0) + sec % 2 ^ 19 * 2 ^ 14 + o)

/-- R352: a saturated output is counted, and fault 0x609 raised once a day. -/
def noteSat (c : Nat) (s : State) : State :=
  let s := addSat (setBit s sigStatus 8) (sigCh c 12) 11 0 1
  if (sigChan s c).satDay = some s.day.n then s
  else raise 0x609 c (modSigChan c (fun x => { x with satDay := some s.day.n }) s)

/-- R347: output marks at the position just taken. -/
def isSettling (s : State) (c : Nat) : Bool := (sigChan s c).q < chWindow s c
def isBad (s : State) (c : Nat) : Bool := (sigChan s c).filled != 0 && (sigChan s c).q < (sigChan s c).filled + chWindow s c

/-- R350 to R354: the output of the input index `idx` of second `sec`, from the stage-1 outputs held. -/
def formOutput (c sec idx : Nat) (s : State) : State :=
  let ys := (sigChan s c).ys
  let y := chainSum s (sigCoef (chSet s c) + 128) (chN2 s c) (ys.map (·.1))
  let z := characterise s c y.1
  let sat' := z.2 || y.2.isSome || ys.any (·.2)
  let o := idx / (chM1 s c * chM2 s c)
  let bad := isBad s c
  let settle := isSettling s c
  let a := getF s (sigCh c 10) 31 0 + 2 * (getF s (sigCh c 11) 19 0 % 2 ^ (4 + getF s (sigCh c 10) 35 32))
  let s := mWrite masterSig (a + 1) (recordWord bad settle sat' sec o) (mWrite masterSig a z.1 s)
  let s := setF s (sigCh c 11) 19 0 (getF s (sigCh c 11) 19 0 + 1)
  let s := if sat' then noteSat c s else s
  let s := if settle then s else setF s (sigCh c 0) 35 34 2
  if bad || settle then s else thresholds c sec o z.1 s

/-! Positions (R335, R341, R347, R348). -/

/-- R335: a position enters the chain: stage 1 at its indices, stage 2 at its own. -/
def takePosition (c sec idx : Nat) (w : Word) (filled : Bool) (s : State) : State :=
  let n1 := chN1 s c
  let n2 := chN2 s c
  let s := modSigChan c (fun x =>
    { x with xs := (w :: x.xs).take n1, q := x.q + 1, filled := if filled then x.q + 1 else x.filled, last := w }) s
  if idx % chM1 s c ≠ 0 then s
  else
    let y := chainSum s (sigCoef (chSet s c)) n1 (sigChan s c).xs
    let s := modSigChan c (fun x => { x with ys := ((y.1, y.2.isSome) :: x.ys).take n2 }) s
    if idx % (chM1 s c * chM2 s c) = 0 then formOutput c sec idx s else s

/-- R341: an instant `j` samples later, carrying into the next second at the input rate. -/
def sampleAdd (rin sec idx j : Nat) : Nat × Nat :=
  let r := Nat.max rin 1
  (sec + (idx + j) / r, (idx + j) % r)

/-- R341: `n` missing positions from an instant on are filled with the last accepted value. -/
def fillGap (c sec idx : Nat) : Nat → State → State
  | 0, s => s
  | n + 1, s =>
    let t := sampleAdd (chRin s c) sec idx 1
    fillGap c t.1 t.2 n (takePosition c sec idx (sigChan s c).last true s)

/-- R348: a pending reset takes effect before a sample at R or later. -/
def takeSync (c sec idx : Nat) (s : State) : State :=
  match (sigChan s c).sync with
  | some (rs, us) =>
    if rs * 1000000 * chRin s c + us * chRin s c ≤ sec * 1000000 * chRin s c + idx * 1000000 then
      modSigChan c (fun x => { satDay := x.satDay, last := x.last, limAt := x.limAt, lims := x.lims }) (setF s (sigCh c 0) 35 34 1)
    else s
  | none => s

/-- R341: a sample is accepted, and E moves to the next. -/
def acceptSample (c sec idx : Nat) (w : Word) (s : State) : State :=
  let s := takePosition c sec idx w false (takeSync c sec idx s)
  modSigChan c (fun x => { x with e := some (sampleAdd (chRin s c) sec idx 1) }) s

/-- R341: one sample of a feed. -/
def takeSample (c sec idx : Nat) (w : Word) (s : State) : State :=
  if !chActive s c then s
  else match (sigChan s c).e with
    | none => acceptSample c sec idx w s
    | some (es, ei) =>
      let d : Int := (sec * chRin s c + idx : Nat) - (es * chRin s c + ei : Nat)
      if d < 0 then raise 0x605 c (addSat (setBit s sigStatus 5) (sigCh c 12) 23 12 1)
      else if d = 0 then acceptSample c sec idx w s
      else if d ≤ 16 then
        let s := raise 0x606 c (addSat (setBit s sigStatus 6) (sigCh c 12) 35 24 d.toNat)
        acceptSample c sec idx w (fillGap c es ei d.toNat s)
      else acceptSample c sec idx w (raise 0x607 c (chClear c (setBit s sigStatus 7)))

/-! Feeds (R289, R338 to R342). -/

def feedSize (s : State) : Nat := getF s sigFeedCfg 8 0
def feedGet (s : State) : Nat := getF s sigFeedPtr 15 8
def feedPut (s : State) : Nat := getF s sigFeedPtr 7 0

/-- R270, R338: descriptors from GET to PUT − 1 around the ring. -/
def feedsPosted (s : State) : Nat :=
  if feedSize s < 2 then 0 else (feedPut s + feedSize s - feedGet s) % feedSize s

/-- FEEDPTR_WRITE (R338): the tick in which each feed was posted is kept for its bound. -/
def feedptrWrite (put : Nat) (s : State) : State :=
  let was := feedsPosted s
  let s := setF s sigFeedPtr 7 0 put
  modSig (fun x => { x with posts := (x.posts ++ List.replicate (feedsPosted s - was) s.now).take (feedsPosted s) }) s

/-- FEEDPTR_WRITE (R338). -/
def execFeedptrWrite (put : BitVec 8) (s : State) : Host.Outcome State Fault Refusal := .next (feedptrWrite put.toNat s)

/-- R289, R279: what a feed's receive entry and its frame's first two words say. -/
structure Feed where
  seg : Nat
  ident : Nat
  len : Nat
  trunc : Bool
  first : Nat
  cnt : Nat
  per : Nat
  secLow : Nat
  idx : Nat
deriving DecidableEq, Repr

/-- R340: the reason a feed is refused, from its entry: the first of the table's cases 1 to 5. -/
def feedReason (s : State) (f : Feed) : Option Nat :=
  let bad (c : Nat) : Bool :=
    getF s (sigCh c 1) 35 28 != f.seg || getF s (sigCh c 1) 27 23 != idStation f.ident || chRin s c != chRin s f.first
  if idClass f.ident < 16 ∨ 19 < idClass f.ident then some 1
  else if f.len ≠ (f.cnt * f.per + 2) / 3 then some 2
  else if (List.range f.cnt).any (fun i => f.first + i < 2048 && bad (f.first + i)) then some 3
  else if f.cnt = 0 ∨ f.per = 0 ∨ 669 < f.cnt * f.per ∨ 2048 < f.first + f.cnt then some 4
  else if f.trunc then some 5
  else none

/-- The head feed's descriptor and entry; none where a read is refused. -/
def fetchFeed (s : State) : Option (Nat × Feed) × State :=
  let a := getF s sigFeedBase 31 0 + 2 * feedGet s
  let d := mReads masterSig a 2 s
  match d.1 with
  | some [d0, d1] =>
    let e := d1.toNat
    let r := mReads masterSig e 6 d.2
    (match r.1 with
     | some [w0, _, w2, _, p0, p1] =>
       some (e, { seg := slice d0.toNat 7 0, ident := slice w0.toNat 15 0, len := slice w0.toNat 23 16,
                  trunc := w2.getLsbD 35, first := slice p0.toNat 34 24, cnt := slice p0.toNat 23 16,
                  per := slice p0.toNat 15 0, secLow := slice p1.toNat 35 14, idx := slice p1.toNat 13 0 })
     | _ => none, r.2)
  | _ => (none, d.2)

/-- R341: the second within ±2^21 s of the clock's whose low 22 bits are `low`. -/
def fullSecond (now' low : Nat) : Nat :=
  let d := (low + 2 ^ 22 - now' % 2 ^ 22) % 2 ^ 22
  if d < 2 ^ 21 then now' + d else now' + d - 2 ^ 22

/-- R289, R56: sample `n` of the words after the frame's first two, widened. -/
def sampleOf (ws : List Word) (n : Nat) : Word :=
  let pair := (ws.getD (n / 3 * 2) 0).toNat * 2 ^ 36 + (ws.getD (n / 3 * 2 + 1) 0).toNat
  (aluCvt false 4 (word (pair / 2 ^ (48 - 24 * (n % 3)) % 2 ^ 24))).1

/-- R341: every sample of a feed, by instant and then by channel. -/
def takeFeed (f : Feed) (ws : List Word) (s : State) : State :=
  let sec := fullSecond s.time.sec f.secLow
  let rin := chRin s f.first
  forUpto (f.cnt * f.per) (fun n s =>
    let t := sampleAdd rin sec f.idx (n / f.cnt)
    takeSample (f.first + n % f.cnt) t.1 t.2 (sampleOf ws n) s) s

/-- R342: the feed is complete: word 0 is written and GET moves on; 0x608 when its bound has passed. -/
def endFeed (reason : Nat) (s : State) : State :=
  let a := getF s sigFeedBase 31 0 + 2 * feedGet s
  let r := mRead masterSig a s
  let w := splice (splice (r.1.getD 0).toNat 35 34 (if reason = 0 then 2 else 3)) 33 30 reason
  let s := mWrite masterSig a (word w) r.2
  let since := Nat.max (s.sig.posts.headD s.now) s.sig.doneAt
  let s := modSig (fun x => { x with posts := x.posts.tail, doneAt := s.now }) s
  let s := setF s sigFeedPtr 15 8 ((feedGet s + 1) % Nat.max (feedSize s) 1)
  if since + 4096 < s.now then raise 0x608 0 (setBit s sigStatus 4) else s

/-- R340: a refused feed changes no channel. -/
def refuseFeed (reason : Nat) (s : State) : State := endFeed reason (raise 0x604 0 (setBit s sigStatus 3))

/-- R338 to R342, R499: the head feed. -/
def processFeed (s : State) : State :=
  let r := fetchFeed s
  match r.1 with
  | none => refuseFeed 6 r.2
  | some (e, f) =>
    match feedReason r.2 f with
    | some n => refuseFeed n r.2
    | none =>
      let q := mReads masterSig (e + 6) (2 * f.len) r.2
      match q.1 with
      | none => refuseFeed 6 q.2
      | some ws => ownFault (raise 0x604 0) q.2 (endFeed 0 (takeFeed f ws q.2))

/-- R30: the pipeline that takes the head feed, that of its first channel. -/
def headPipe (s : State) : Nat := match (fetchFeed s).1 with | some x => x.2.first / 64 | none => 0

/-- R275, R338: the head feed may be read: it was posted in an earlier tick. -/
def feedReady (s : State) : Bool := feedsPosted s != 0 && decide (s.sig.posts.headD s.now < s.now)

/-- FEED_PROCESS (R31, R275, R338 to R354): the unit takes the next posted feed. -/
def execFeedProcess (s : State) : Host.Outcome State Fault Refusal :=
  .next (if feedReady s then ifFree masterSig (headPipe s) processFeed s else s)

/-! Synchronous reset (R349). -/

/-- SYNC_ARM_NEXT_PPS (R349). -/
def armPps (s : State) : State := modSig (fun x => { x with armAt := s.now }) (setF s sigSync 1 0 1)

/-- SYNC_ARM_NEXT_PPS (R9, R349). -/
def execSyncArmNextPps (s : State) : Host.Outcome State Fault Refusal := .next (armPps (noteWrote sigSync s))

/-- R349: the number of the day of SIG_SYNCDAY; its bits above 35 are the present day's. -/
def syncDayFull (s : State) : Nat :=
  let n := if s.day.run then s.day.n else clockDay s
  n / 2 ^ 36 * 2 ^ 36 + (reg s sigSyncDay).toNat

/-- SYNC_ARM_MIDNIGHT (R349): a midnight that is not later than now fails at once. -/
def armMidnight (s : State) : State :=
  let n := if s.day.run then s.day.n else clockDay s
  let s := modSig (fun x => { x with armAt := s.now }) (setF s sigSync 1 0 2)
  if syncDayFull s ≤ n then failSync s else s

/-- SYNC_ARM_MIDNIGHT (R9, R349). -/
def execSyncArmMidnight (s : State) : Host.Outcome State Fault Refusal := .next (armMidnight (noteWrote sigSync s))

/-- SYNC_ARM_FAIL (R349): PPS has not been usable for 4 s after arming, or the midnight has passed. -/
def execSyncArmFail (s : State) : Host.Outcome State Fault Refusal :=
  if syncArm s = 1 ∧ s.sig.armAt + 1000000000 ≤ s.now ∧ bitOf s timState 6 = false then .next (failSync s)
  else if syncArm s = 2 ∧ syncDayFull s ≤ (if s.day.run then s.day.n else clockDay s) then .next (failSync s)
  else .next s

/-! Writes while in use (R345, R353). -/

/-- R345: the write of a coefficient, table or context word is served only while its channels are stopped. -/
def sigWriteServed (s : State) (a : Nat) : Bool :=
  if 0x04062000 ≤ a ∧ a < 0x04065000 then
    (List.range 2048).all fun c => chSet s c != (a - 0x04062000) / 0x180 || !chActive s c
  else if 0x04061000 ≤ a ∧ a < 0x04062000 then
    (List.range 2048).all fun c => chMode s c != 2 || chTable s c != (a - 0x04061000) / 0x40 || !chActive s c
  else !chActive s ((a - 0x04068000) / 16)

/-- R345: a write refused while in use; the detail names the channel whose context was addressed. -/
def inUse (c : Nat) (s : State) : State := raise 0x603 c (setBit s sigStatus 2)

/-- R353: a write of HI, LO or HYS, `j` 7 to 9, is refused if the channel is not stopped and its result breaks the order. -/
def writeThreshold (c j : Nat) (v : Word) (s : State) : State :=
  let t := setReg (modSigChan c (fun x => { x with limAt := s.now + 1, lims := chLims s c }) s) (sigCh c j) v
  if chActive s c && !thresholdsOk (chPar t c 7) (chPar t c 8) (chPar t c 9) then inUse c s else t

/-- R355: in the midnight of day A, the channels a change alters stop; in that of day A + 1 those with AUTO start again. -/
def changedChannels (cs : List Nat) (s : State) : State :=
  modSig (fun x => { x with restart := cs }) (cs.foldl (fun t c => chStop c t) s)

/-- R355: the midnight of day A + 1. -/
def restartChannels (s : State) : State :=
  (s.sig.restart.foldl (fun t c => if bitOf t (sigCh c 0) 33 then chStart c t else t) s) |> modSig (fun x => { x with restart := [] })

end Sys2Proof.Machine
end

