-- ==== Sys2Proof/Machine/Access.lean ====
section
/-! DEFINITION. What a granted access does: the values registers show, the side effects of a read, the action of a write
under its access code, and the register commands (R9 to R12, R35, R223, R497). -/

namespace Sys2Proof.Machine

/-! What registers show. -/

/-- R22: a forced stop is accepted. -/
def forcedStop (s : State) : Bool := match s.stopReq with | some (b, _) => b | none => false

/-- R398: day `n` is the day of the armed planned switchover. -/
def switchesOn (s : State) (n : Nat) : Bool := reg s pairSwDay != 0 && reg s pairSwDay == word (n % 2 ^ 36)

/-- MID_STATE.PEND (R21): a transition is accepted for the next midnight. A switchover takes its own at the end of day W, and displaces
a forced stop of either of its midnights (R23); a fallback that is confirmed takes none (R400). -/
def transitionPending (s : State) : Bool :=
  match s.mst with
  | .daybreak => s.boot.step == 8 && (s.boot.benchDue || s.link.joinAccepted || s.link.confirmed)
  | .standby => s.link.confirmed || s.stopReq.isSome
  | .active =>
    if s.link.swRunning then !(s.link.swReclaimed && s.link.confirmed) else forcedStop s && !switchesOn s (s.day.n + 1)
  | .bench => s.stopReq.isSome
  | .stopped => false

/-- MID_STATE and MID_HW. -/
def viewMid (s : State) (off : Nat) : Word :=
  match off with
  | 0 => word ((if Config.variantX then 0x58 else 0x53) * 2 ^ 16 + 0x936)
  | 0x10 => word (s.mlast * 2 ^ 8 + flagAt 7 (slotB s) + flagAt 6 (transitionPending s) + mstCode s.mst)
  | _ => if 1 ≤ off ∧ off ≤ 4 then Config.serial (off - 1) else reg s (0x04000000 + off)

/-- R10: the queue behind RP register `a` was empty at the start of the tick, so that a read removes nothing. -/
def bornNow (s : State) (a : Nat) : Bool := s.tk.born.contains a

/-- What an RP register shows: the head of its queue; poison where that was empty at the start of the tick (R10). -/
def headWord (s : State) (a : Nat) (l : List Word) : Word := if bornNow s a then poison else l.headD poison

/-- The DAY block as master `m` reads it. -/
def viewDay (s : State) (m off : Nat) : Word :=
  match off with
  | 0 => reg s dayStatus ||| word (flagAt 6 s.day.run)
  | 1 => word ((if dayT s = 0 then 0 else phaseOf s (dayTick s)) * 2 ^ 28 + dayTick s)
  | 2 => word (s.day.n % 2 ^ 36)
  | 3 => tabGet 0 s.latch (8 * m)
  | 4 => word (dayK s * 2 ^ 20 + dayL s)
  | 0x40 => headWord s 0x04020040 s.ovr
  | _ =>
    if 0x11 ≤ off ∧ off ≤ 0x15 then word (phaseStart s (off - 0x10))
    else if 0x20 ≤ off ∧ off ≤ 0x27 then word (slice (s.day.table.getD (off - 0x20 + 6) 0).toNat 23 0)
    else reg s (0x04020000 + off)

/-- The CMP block. -/
def viewCmp (s : State) (off : Nat) : Word :=
  if off = 8 then headWord s 0x04030008 (s.mism.map (·.1))
  else if 0x100 ≤ off ∧ off < 0x300 then
    let p := pairOf s (off - 0x100)
    word (getF s (0x04030000 + off) 13 8 * 2 ^ 8 + flagAt 7 p.safety + flagAt 6 p.armed + flagAt 5 p.joined
      + (if p.joined then p.d % 16 else 0))
  else reg s (0x04030000 + off)

/-- A register whose write waits for the next midnight reads as written. -/
def viewDelayed (s : State) (a : Nat) : Word :=
  match s.day.midWrites.find? (·.1 == a), regDesc a with
  | some w, some d => (reg s a &&& ~~~(word d.rw)) ||| w.2
  | _, _ => reg s a

/-- The ZP block. -/
def viewZp (s : State) (a : Nat) : Word :=
  let p := (a - 0x04040000) / 0x100
  match (a - 0x04040000) % 0x100 with
  | 0 => (reg s a &&& ~~~2#36) ||| word (flagAt 1 (listenOnly s p))
  | 0x32 => viewDelayed s a ||| word ((echoNext s p).getD 0 * 2 ^ 28)
  | _ => viewDelayed s a

/-- The TIM block as master `m` reads it. -/
def viewTim (s : State) (m off : Nat) : Word :=
  match off with
  | 2 => word s.time.ns64
  | 3 => tabGet 0 s.latch (8 * m + 1)
  | 4 => tabGet 0 s.latch (8 * m + 2)
  | _ => reg s (0x04050000 + off)

/-- R373: a loop state's code. -/
def loopCode : LoopState → Nat
  | .unknown => 0
  | .released => 1
  | .claimed => 2

/-- PAIR_MAND. -/
def mandWord (s : State) : Word :=
  word (s.link.partI.toNat * 2 ^ 19 + s.link.ownI.toNat * 2 ^ 10 + flagAt 9 (holds s) + flagAt 8 s.link.estab
    + flagAt 7 s.link.latch + flagAt 6 s.nwt.permit + flagAt 5 s.link.partner + flagAt 4 s.link.inserted
    + loopCode s.link.part * 4 + loopCode s.link.own)

/-- PAIR_LINK. -/
def linkWord (s : State) : Word :=
  let base := flagAt 9 (linkUp s) + flagAt 8 (laneUp s 1) + flagAt 7 (laneUp s 0)
  match s.link.heard with
  | some n => word (base + n.state.toNat * 2 ^ 4 + flagAt 3 n.slotB + flagAt 2 n.ready)
  | none => word base

/-- The PAIR block. -/
def viewPair (s : State) (off : Nat) : Word :=
  match off with
  | 1 => mandWord s
  | 2 => linkWord s
  | 9 => (reg s pairCkSt &&& 0x100#36) ||| word (flagAt 7 s.link.commit.isSome + Nat.min s.link.consec 64)
  | _ => reg s (0x04070000 + off)

/-- R427: how the safety logic reads a failed input: open contact. -/
def failedInput (w : Word) : Word := (w &&& ~~~0x3D#36) ||| 0x14#36

/-- R455: Tk's terminal reads On: where the holder drives it from a group supply in range. Otherwise it shows what the partner or the plant
puts there, a measurement. -/
def tonBit (s : State) (k : Nat) : Bool :=
  (holds s && tabGet 0 s.saf.pulse k == 0 && !bitOf s lioTsup (4 + k) && bitOf s lioTsup 8) || (Config.freeWord s.fresh).getLsbD k

/-- The LIO block as master `m` reads it. -/
def viewLio (s : State) (m off : Nat) : Word :=
  if off = 1 then reg s lioTsup ||| word ((List.range 4).map fun k => flagAt k (tonBit s k)).sum
  else if 0x51 ≤ off ∧ off ≤ 0x68 then
    let w := reg s (0x04090000 + off) ||| word (flagAt 6 s.lio.loading)
    let w := if retryHeld s (off - 0x51) then w &&& ~~~(word (2 ^ 10)) else w
    if safetyLeader s m && bitOf s safInst (off - 0x51) then failedInput w else w
  else viewDelayed s (0x04090000 + off)

/-- The FPD block; the panel's temperature is a measurement. -/
def viewFpd (s : State) (off : Nat) : Word :=
  if off = 0 then (reg s fpdStatus &&& 0xE#36) ||| (Config.freeWord s.fresh &&& word (bits 20 12))
    ||| word (flagAt 0 (!(differing s).isEmpty))
  else if 0x100 ≤ off ∧ off < 0x160 then fpdWord s ((off - 0x100) / 8) ((off - 0x100) % 8)
  else reg s (0x040A0000 + off)

/-- R468: a slot's state code. -/
def slotCode : SlotSt → Nat
  | .empty => 0
  | .writing => 1
  | .valid => 2
  | .invalid => 3

def slotOf (s : State) (bank slot : Nat) : Slot := tabGet {} s.boot.slots (2 * bank + slot)

/-- UPD_BANKb. -/
def bankWord (s : State) (b : Nat) : Word :=
  let svn (x : Slot) : Nat := match x.st, x.hdr with | .valid, some h => h.svn % 256 | _, _ => 0
  word (svn (slotOf s b 1) * 2 ^ 12 + svn (slotOf s b 0) * 2 ^ 4 + slotCode (slotOf s b 1).st * 4 + slotCode (slotOf s b 0).st)

/-- The UPD block. -/
def viewUpd (s : State) (off : Nat) : Word :=
  match off with
  | 0 => (reg s updStatus &&& ~~~2#36) ||| word (flagAt 1 (bitOf s updBoot 1 != bitOf s updBoot 0))
  | 0x10 => bankWord s 0
  | 0x11 => bankWord s 1
  | 0x31 => word ((s.boot.session.map fun x => x.blocks.length).getD 0 % 2 ^ 18)
  | _ => reg s (0x040B0000 + off)

/-- The GATE block; a region entry of the shadow table reads as written (R497). -/
def viewGate (s : State) (off : Nat) : Word :=
  if off = 8 then headWord s 0x040C0008 (s.viol.map (·.1))
  else match s.day.midRegions.find? (·.1 == 0x040C0000 + off) with
    | some w => w.2
    | none => reg s (0x040C0000 + off)

/-- R507: delivery state: slots 2 to 9 and 20 to 23 of the vault are empty. -/
def delivery (s : State) : Bool := s.vault.all fun v => !((2 ≤ v.1 && v.1 ≤ 9) || (20 ≤ v.1 && v.1 ≤ 23))

/-- R512: SEC_DBG.LEVEL: that of the grant in force, or 1 while a SERVICE session is open. -/
def levelWord (s : State) : Word :=
  if reg s secDbg = 0 ∧ s.sess.any (fun x => x.2.roles.contains .service) then 1 else reg s secDbg

/-- The SEC block; the content of the firmware's vault interface is not stated. -/
def viewSec (s : State) (off : Nat) : Word :=
  if off = 3 then levelWord s
  else if off = 0 then reg s secStatus ||| word (flagAt 5 (delivery s))
  else if off = 2 then (if bitOf s secRngSt 0 then Config.freeWord s.fresh else 0)
  else if 0x100 ≤ off then Config.freeWord s.fresh else reg s (0x040D0000 + off)

/-- R577: the next trace word, of the record at the head. -/
def traceHead (s : State) : Word :=
  if bornNow s 0x04100018 then poison else (s.trace.mem.headD []).getD s.trace.readPos poison

/-- NWT_STATUS. -/
def nwtWord (s : State) : Word :=
  (reg s nwtStatus &&& word (bits 35 16)) ||| word (flagAt 7 s.nwt.permit
    + flagAt 6 (2700 ≤ s.pwr.mv1 || 2700 ≤ s.pwr.mv2) + flagAt 5 s.nwt.fabOk + flagAt 4 s.nwt.railOk
    + flagAt 3 (s.nwt.relAt < s.nwt.strobe && s.now ≤ s.nwt.strobe + 12500000) + flagAt 2 s.nwt.dayFrom.isSome
    + flagAt 1 (s.nwt.trip.isSome && s.nwt.sundown == 0))

/-- R525, R533, R535 to R537: a feed's current in mA: of the feed that supplies the power stage free up to 28 A, and up to 0.5 A before the
module has been inserted for 10 ms; an operating feed that supplies nothing shows at most 1 mA, a blocked or absent one none. -/
def feedCurrent (s : State) (k : Nat) : Nat :=
  let most := if feedUsed s k then (if presentLong s then 28000 else 500) else if feedOk s k then 1 else 0
  (Config.freeWord s.fresh).toNat % (most + 1)

/-- PWR_LOAD (R525, R536, R537), in 0.1 W: the power drawn from the feeds, free up to 58 W and up to 30 W in Sundown, and of it the
charging power of the store, at least 2 W while it is below FULL. -/
def loadWord (s : State) : Word :=
  if !(feedOk s 0 || feedOk s 1) then 0
  else
    let least := if presentLong s && getF s pwrStore 29 28 != 2 then 20 else 0
    let most := if s.nwt.trip.isSome then 300 else 580
    let pin := least + (Config.freeWord s.fresh).toNat % (most - least + 1)
    let pchg := if presentLong s then least + (Config.freeWord (s.fresh + 1)).toNat % (pin - least + 1) else 0
    word (pin * 2 ^ 12 + pchg)

/-- The NET, PWR, DBG and NWT blocks; link states, feed currents, powers and the store's temperature are measurements. -/
def viewRest (s : State) (a : Nat) : Word :=
  let free (hi lo : Nat) : Word := Config.freeWord s.fresh &&& word (bits hi lo)
  if a = pwrFeed 1 ∨ a = pwrFeed 2 then reg s a ||| word (feedCurrent s (a - pwrFeed 1) * 2 ^ 16)
  else if netPort 1 ≤ a ∧ a ≤ netPort 4 then free 1 0
  else if a = pwrLoad then loadWord s
  else if a = pwrTherm then reg s a ||| free 8 0
  else if a = dbgTrStat then
    reg s a ||| word (flagAt 19 (16384 ≤ s.trace.mem.length) + Nat.min s.trace.mem.length 16384)
  else if a = 0x04100018 then traceHead s
  else if a = nwtStatus then nwtWord s
  else if a = nwtApplied then
    word ((List.range 24).map fun l => flagAt l (bitOf s (lioIn (l + 1)) 11)).sum
  else viewDelayed s a

/-- R9, R12: what a read of a register by master `m` shows. -/
def viewReg (s : State) (m a : Nat) : Word :=
  let off := a % 0x10000
  match a / 0x10000 - 0x400 with
  | 0 => viewMid s off
  | 1 => if off = 8 then headWord s 0x04010008 (s.late.map (·.1)) else reg s a
  | 2 => viewDay s m off
  | 3 => viewCmp s off
  | 4 => viewZp s a
  | 5 => viewTim s m off
  | 6 => if 0x100 ≤ off ∧ off < 0x120 then word (sigLoadOf s (off - 0x100)) else reg s a
  | 7 => viewPair s off
  | 9 => viewLio s m off
  | 10 => viewFpd s off
  | 11 => viewUpd s off
  | 12 => viewGate s off
  | 13 => viewSec s off
  | 8 => reg s a
  | _ => viewRest s a

/-! The side effects of a read (R9). -/

/-- A word latched for master `m`. -/
def latchWord (m n : Nat) (v : Word) (s : State) : State := { s with latch := tabSet 0 s.latch (8 * m + n) v }

/-- FAB_LATE (R149): the head record leaves and its ticks are latched. -/
def popLate (s : State) : State :=
  match s.late with
  | r :: t => setReg (setReg { s with late := t } fabLateSch (word r.2.1)) fabLateAct (word r.2.2)
  | [] => s

/-- DAY_OVR (R190). -/
def popOvr (s : State) : State := { s with ovr := s.ovr.tail }

/-- CMP_MISM (R213). -/
def popMism (s : State) : State :=
  match s.mism with
  | r :: t => setReg (setReg { s with mism := t } cmpLead r.2.1) cmpTrail r.2.2
  | [] => s

/-- GATE_VIOL (R498). -/
def popViol (s : State) : State :=
  match s.viol with
  | r :: t => setReg (setReg { s with viol := t } gateViolAddr (word (r.2.1 % 2 ^ 32))) gateViolTick (word r.2.2)
  | [] => s

/-- DBG_TRRD (R577): the fourth word of a record ends it. -/
def popTrace (s : State) : State :=
  if s.trace.mem.isEmpty then s
  else if s.trace.readPos < 3 then modTrace (fun t => { t with readPos := t.readPos + 1 }) s
  else modTrace (fun t => { t with readPos := 0, mem := t.mem.tail }) s

/-- DAY_NUML (R172): N[47:36] is latched for the master. -/
def latchDay (m : Nat) (s : State) : State := latchWord m 0 (word (s.day.n / 2 ^ 36 % 4096)) s

/-- TIM_CLKNS (R302): the seconds words are latched for the master. -/
def latchClock (m : Nat) (s : State) : State :=
  latchWord m 2 (word (s.time.sec % 2 ^ 36)) (latchWord m 1 (word (s.time.sec / 2 ^ 36 % 4096)) s)

/-- R9: what register `a` has counted in this tick, if it has: its word before, and the events alone. -/
def counted (s : State) (a : Nat) : Option (Word × Word) := (s.tk.counts.find? (·.1 == a)).map (·.2)

/-- R9: the RC fields of a register clear; the events of this tick stay for the next read. -/
def clearRc (a : Nat) (s : State) : State :=
  match regDesc a with
  | some d =>
    if d.rc = 0 then s
    else
      let kept : Word := match counted s a with | some c => c.2 &&& word d.rc | none => 0
      { setReg s a ((reg s a &&& ~~~(word d.rc)) ||| kept) with tk := { s.tk with counts := s.tk.counts.filter (·.1 != a) } }
  | none => s

/-- R9: a read returns RC fields as they stood before the events of its tick. -/
def beforeTick (s : State) (a : Nat) (v : Word) : Word :=
  match regDesc a, counted s a with
  | some d, some c => (v &&& ~~~(word d.rc)) ||| (c.1 &&& word d.rc)
  | _, _ => v

/-- R10: a read of RP register `a` removes the head of its queue, unless the queue was empty at the start of the tick. -/
def popUnlessBorn (a : Nat) (f : State → State) (s : State) : State := if bornNow s a then s else f s

/-- R504: the DRBG is due to reseed: after 2^20 generate requests or 1 s. -/
def reseedDue (s : State) : Bool := 2 ^ 20 ≤ s.rng.draws || s.rng.seededAt + secTicks 1 ≤ s.now

/-- R504: it reseeds from 384 bits of full entropy. -/
def reseed (s : State) : State := addSat { s with rng := { draws := 0, seededAt := s.now } } secRngSt 11 1 384

/-- R504: a generate request, which comes after a reseed where one is due. -/
def drawn (s : State) : State :=
  if bitOf s secRngSt 0 then
    let s := if reseedDue s then reseed s else s
    { s with rng := { s.rng with draws := s.rng.draws + 1 } }
  else s

/-- What a read that is no peek does. -/
def readEffect (m a : Nat) (s : State) : State :=
  if a = 0x04010008 then popUnlessBorn a popLate s
  else if a = 0x04020040 then popUnlessBorn a popOvr s
  else if a = 0x04030008 then popUnlessBorn a popMism s
  else if a = 0x040C0008 then popUnlessBorn a popViol s
  else if a = 0x04100018 then popUnlessBorn a popTrace s
  else if a = 0x04020002 then latchDay m s
  else if a = 0x04050002 then latchClock m s
  else if a = 0x040D0002 then drawn s
  else clearRc a s

/-- A peek of a word shows nothing where a fresh random value would be drawn (R505). -/
def readReg (m : Nat) (peek : Bool) (a : Nat) (s : State) : Word × State :=
  if peek then (if a = 0x040D0002 then 0 else viewReg s m a, bump s)
  else (beforeTick s a (viewReg s m a), readEffect m a (bump s))

/-- A peek of a memory word: its value, poison where it is uncorrectable, and nothing changes. -/
def peekMem (s : State) (a : Nat) : Word := if chkOf s a = .uncor then poison else memGet s a

/-- A granted read of a mapped word by master `m`; `plant` is the engine and plan word of a plant engine's read. -/
def readMapped (m : Nat) (plant : Option (Nat × Nat)) (peek : Bool) (a : Nat) (s : State) : Word × State :=
  if isShared a || isLocal a || isPlan a then (if peek then (peekMem s a, s) else memRead plant a s)
  else if isVoted a then (if peek then (tsPeek s (a % 0x10000), s) else tsRead (a % 0x10000) s)
  else if isRaw a then
    (if peek then ((tsReadRaw (a / 0x10000 - 0x300) (a % 0x10000) s).1, s) else tsReadRaw (a / 0x10000 - 0x300) (a % 0x10000) s)
  else readReg m peek a s

/-! The action of a write (R9). -/

/-- R9: the bits that a write of `v` clears among the W1C bits `m`: a bit the module has set in this tick stays. -/
def clears (s : State) (a : Nat) (m v : Word) : Word := v &&& m &&& ~~~(tabGet 0 s.tk.sets a)

/-- R9: RW fields take the written value, W1C bits written 1 clear, and nothing else changes. -/
def writeFields (d : RegDesc) (a : Nat) (v : Word) (s : State) : State :=
  setReg s a ((((reg s a) &&& ~~~(word d.rw)) ||| (v &&& word d.rw)) &&& ~~~(clears s a (word d.w1c) v))

def writePlain (a : Nat) (v : Word) (s : State) : State :=
  match regDesc a with
  | some d => writeFields d a v s
  | none => s

/-- A write that takes effect at the next midnight. -/
def writeLater (a : Nat) (v : Word) (s : State) : State :=
  match regDesc a with
  | some d => modDay (fun x => { x with midWrites := x.midWrites.filter (·.1 != a) ++ [(a, v &&& word d.rw)] }) s
  | none => s

/-- The register writes waiting for a midnight take effect. -/
def applyLater (s : State) : State :=
  let s' := s.day.midWrites.foldl (fun t w => writePlain w.1 w.2 t) s
  modDay (fun x => { x with midWrites := [] }) s'

/-- ZP_MODE (R261, R264, R265). -/
def writeMode (p : Nat) (v : Word) (s : State) : State :=
  let s := if cfgAct s p then setF s (zp p 0) 7 6 (slice v.toNat 7 6) else s
  let s := setBit s (zp p 0) 3 (v.getLsbD 3)
  let s := if v.getLsbD 0 then (if bitOf s (zp p 0) 0 then s else loreqSet p s) else loreqClear p s
  let s := if v.getLsbD 2 then borec p s else s
  if v.getLsbD 5 then cfgEnter p s else cfgLeave p s

/-- The ZP block (R242, R270, R276, R281, R295, R299). -/
def writeZp (a : Nat) (v : Word) (s : State) : State :=
  let p := (a - 0x04040000) / 0x100
  let off := (a - 0x04040000) % 0x100
  if off = 0 then writeMode p v s
  else if off ≤ 3 then (if cfgAct s p then writePlain a v s else portFault 0x402 p 0 s)
  else if off = 0x10 ∨ off = 0x11 ∨ off = 0x14 ∨ off = 0x15 then
    (if cfgAct s p then writePlain a v s else portFault 0x416 p 0 s)
  else if off = 0x12 then txptrWrite p (slice v.toNat 7 0) s
  else if off = 0x13 then (if v.getLsbD 8 then txcanCancel p (slice v.toNat 7 0) s else s)
  else if off = 0x17 then rxack p (slice v.toNat 8 0) s
  else if off = 0x30 ∨ off = 0x32 ∨ (0x40 ≤ off ∧ off < 0x60) then writeLater a v s
  else if 0x60 ≤ off ∧ off < 0x80 then
    writeLater a v (if v.getLsbD 9 then unmute p (off - 0x60) s else s)
  else writePlain a v s

/-- The TIM block (R303, R310, R317). -/
def writeTim (a : Nat) (v : Word) (s : State) : State :=
  if a = timRate then setReg s a (wordI (clampInt rateLimit v.toInt))
  else if a = timCfg then reselect (writePlain a v s)
  else if a = timDom 0 0 then refreshDom 0 (writePlain a v s)
  else if a = timDom 1 0 then refreshDom 1 (writePlain a v s)
  else writePlain a v s

/-- R345: the channel a refused coefficient or table write names, the lowest in use. -/
def userOf (s : State) (a : Nat) : Nat :=
  if 0x04068000 ≤ a then (a - 0x04068000) / 16
  else ((List.range 2048).find? fun c => chActive s c &&
    (if 0x04062000 ≤ a then chSet s c == (a - 0x04062000) / 0x180
     else chMode s c == 2 && chTable s c == (a - 0x04061000) / 0x40)).getD 0

/-- SIG_CHc_CTL (R346): AUTO and EVEN, then GO, then STOP. -/
def writeCtl (c : Nat) (v : Word) (s : State) : State :=
  let s := writePlain (sigCh c 0) v s
  let s := if v.getLsbD 0 then chStart c s else s
  if v.getLsbD 1 then chStop c s else s

/-- SIG_SYNC (R349): DONE and FAIL clear, and ARM is taken. -/
def writeSync (v : Word) (s : State) : State :=
  let s := setReg s sigSync (reg s sigSync &&& ~~~(clears s sigSync 0xC#36 v))
  match slice v.toNat 1 0 with
  | 0 => setF s sigSync 1 0 0
  | 1 => armPps s
  | 2 => armMidnight s
  | _ => s

/-- The SIG block (R338, R345, R346, R349, R353). -/
def writeSig (a : Nat) (v : Word) (s : State) : State :=
  if a = sigFeedBase then (if feedSize s = 0 then writePlain a v s else s)
  else if a = sigFeedCfg then (if feedsPosted s = 0 then writePlain a v s else inUse 0 s)
  else if a = sigFeedPtr then feedptrWrite (slice v.toNat 7 0) s
  else if a = sigSync then writeSync v s
  else if a < 0x04061000 then writePlain a v s
  else if a < 0x04068000 then (if sigWriteServed s a then writePlain a v s else inUse (userOf s a) s)
  else
    let c := (a - 0x04068000) / 16
    let j := (a - 0x04068000) % 16
    if j = 0 then writeCtl c v s
    else if 7 ≤ j ∧ j ≤ 9 then writeThreshold c j v s
    else if 11 ≤ j then writePlain a v s
    else if sigWriteServed s a then writePlain a v s else inUse c s

/-- The SAF block (R417, R419, R433, R434). -/
def writeSaf (a : Nat) (v : Word) (s : State) : State :=
  if a = safUnlock then (if v.getLsbD 35 then unlock (slice v.toNat 5 0) s else s)
  else if safCmd 0 ≤ a ∧ a < safCmd 64 then drvCmdWrite (a - safCmd 0) (slice v.toNat 1 0) s
  else if 0x04080180 ≤ a ∧ a < 0x040801C0 then resumeWrite (a - 0x04080180) v s
  else if safRx 0 0 ≤ a ∧ a < safTx 0 0 then connRxWrite ((a - safRx 0 0) / 8) ((a - safRx 0 0) % 8) v s
  else writePlain a v s

/-- The LIO block (R453 and the block's own note). -/
def writeLio (a : Nat) (v : Word) (s : State) : State :=
  if lioOut 1 ≤ a ∧ a ≤ lioOut 24 then lioOutWrite (a - lioOut 1) (slice v.toNat 9 0) s
  else if a = lioAiCfg ∨ (lioCfg 1 ≤ a ∧ a ≤ lioCfg 24) then writeLater a v s
  else writePlain a v s

/-- UPD_BOOT.PREF: a change raises 0xA25. -/
def setPref (b : Bool) (s : State) : State :=
  if bitOf s updBoot 0 = b then s else raise 0xA25 (flagAt 4 b) (setBit (setBit s updBoot 0 b) updStatus 5)

/-- R495, R497: whether region entry `n` is locked, by the table in effect or by a write to the shadow table. -/
def regionLocked (s : State) (n : Nat) : Bool :=
  bitOf s (gateR n 2) 34 || s.day.midRegions.any fun w => w.1 == gateR n 2 && w.2.getLsbD 34

/-- R495, R497: a write to word `j` of region entry `n` by master `m`: ignored with fault 0xB04 if the entry is locked; to the
shadow table while the day sequencer runs; from the next tick otherwise. -/
def regionWrite (m n j : Nat) (v : Word) (s : State) : State :=
  let v := v &&& (if j = 2 then word (bits 35 30 + bits 21 0) else word (bits 31 0))
  if regionLocked s n then raise 0xB04 m (setBit s gateStatus 2)
  else if s.day.run then
    modDay (fun x => { x with midRegions := x.midRegions.filter (·.1 != gateR n j) ++ [(gateR n j, v)] }) s
  else laterTick (gateR n j) v (modDay (fun x => { x with midRegions := x.midRegions.filter (·.1 != gateR n j) }) s)

/-- R497: the shadow table is copied into effect at tick 0 of a midnight. -/
def applyRegions (s : State) : State :=
  modDay (fun x => { x with midRegions := [] }) (s.day.midRegions.foldl (fun t w => setReg t w.1 w.2) s)

/-- R9: a write to a register by master `m`. -/
def writeReg (m a : Nat) (v : Word) (s : State) : State :=
  let s := noteWrote a s
  match a / 0x10000 - 0x400 with
  | 4 => writeZp a v s
  | 5 => writeTim a v s
  | 6 => writeSig a v s
  | 8 => writeSaf a v s
  | 9 => writeLio a v s
  | 11 => if a = updBoot then setPref (v.getLsbD 0) s else writePlain a v s
  | 12 => if 0x040C1000 ≤ a then regionWrite m ((a - 0x040C1000) / 4) ((a - 0x040C1000) % 4) v s else writePlain a v s
  | 16 => if a = dbgTrCtl ∨ a = dbgTrMask0 ∨ a = dbgTrMask1 then writeLater a v s else writePlain a v s
  | _ => writePlain a v s

/-- A granted write of a mapped word by master `m`. -/
def writeMapped (m a : Nat) (v : Word) (s : State) : State :=
  if isShared a || isLocal a || isPlan a then memWrite m a v s
  else if isVoted a then
    tsWrite (a % 0x10000) v (if m < 1024 then markWrite a (tsPeek s (a % 0x10000)) s else s)
  else if isRaw a then tsWriteRaw (a / 0x10000 - 0x300) (a % 0x10000) v s
  else writeReg m a v s

/-! Gated accesses. -/

/-- A read by master `m` in its world through the gate; a refused one answers nothing. -/
def gatedRead (m : Nat) (secure : Bool) (plant : Option (Nat × Nat)) (walk : Bool) (a : Word) (s : State) :
    Option Word × State :=
  let s := touch a.toNat s
  match gate s m secure .read a with
  | some r => (none, violate m secure false r walk a s)
  | none => let r := readMapped m plant false a.toNat s; (some r.1, r.2)

/-- A write by master `m` through the gate, and whether it was granted. -/
def gatedWrite (m : Nat) (secure : Bool) (a v : Word) (s : State) : Bool × State :=
  let s := touch a.toNat s
  match gate s m secure .write a with
  | some r => (false, violate m secure true r false a s)
  | none => (true, writeMapped m a.toNat v s)

/-! The register commands. -/

/-- R490, R512: the world of an access of master `m`: a supervisor engine's own, and that of the debug grant in force. A command's operand
`secure` is the sender's view of it alone. -/
def worldOf (s : State) (m : Nat) : Bool :=
  m == masterLink || (isSupMaster m && (supOf s m).secure) || (m == masterDebug && s.grant.any (·.2.level == 3))

/-- R11: a command's read of a register: the value it answers is poison where the gate refuses. -/
def readCommand (m : Nat) (a : Word) (s : State) : Host.Outcome State Fault Refusal :=
  .next (ifFree m 0 (fun s =>
    let r := gatedRead m (worldOf s m) none false a s
    emit (.read a.toNat (r.1.getD poison)) r.2) s)

/-- FAB_LATE_READ (R149). -/
def execFabLateRead (master : Fin 1032) (_secure : Bool) (s : State) : Host.Outcome State Fault Refusal :=
  readCommand master 0x04010008#36 s

/-- DAY_OVR_READ (R190). -/
def execDayOvrRead (master : Fin 1032) (_secure : Bool) (s : State) : Host.Outcome State Fault Refusal :=
  readCommand master 0x04020040#36 s

/-- CMP_MISM_READ (R213). -/
def execCmpMismRead (master : Fin 1032) (_secure : Bool) (s : State) : Host.Outcome State Fault Refusal :=
  readCommand master 0x04030008#36 s

/-- GATE_VIOL_READ (R498). -/
def execGateViolRead (master : Fin 1032) (_secure : Bool) (s : State) : Host.Outcome State Fault Refusal :=
  readCommand master 0x040C0008#36 s

/-- DBG_TRRD_READ (R577). -/
def execDbgTrrdRead (master : Fin 1032) (_secure : Bool) (s : State) : Host.Outcome State Fault Refusal :=
  readCommand master 0x04100018#36 s

/-- DAY_NUML_READ (R172). -/
def execDayNumlRead (master : Fin 1032) (_secure : Bool) (s : State) : Host.Outcome State Fault Refusal :=
  readCommand master 0x04020002#36 s

/-- TIM_CLKNS_READ (R302). -/
def execTimClknsRead (master : Fin 1032) (_secure : Bool) (s : State) : Host.Outcome State Fault Refusal :=
  readCommand master 0x04050002#36 s

/-- COUNTER_READ_CLEAR (R9): a read of a register with RC fields. -/
def execCounterReadClear (master : Fin 1032) (_secure : Bool) (a : Word) (s : State) : Host.Outcome State Fault Refusal :=
  readCommand master a s

/-- SEC_RNG_READ (R504): a read served at the SEC block draws a fresh value; zero while the generator is not ready. -/
def execSecRngRead (s : State) : Host.Outcome State Fault Refusal :=
  let r := readReg 0 false 0x040D0002 s
  .next (emit (.read 0x040D0002 r.1) r.2)

/-- GATE_REGION_WRITE (R495, R497). -/
def execGateRegionWrite (master : Fin 1032) (_secure : Bool) (n : Fin 256) (j : Fin 3) (v : Word) (s : State) :
    Host.Outcome State Fault Refusal :=
  .next (ifFree master 0 (fun s => (gatedWrite master (worldOf s master) (word (gateR n j)) v s).2) s)

/-- REGISTER_WRITE (R9). -/
def execRegisterWrite (master : Fin 1032) (_secure : Bool) (a v : Word) (s : State) : Host.Outcome State Fault Refusal :=
  .next (ifFree master 0 (fun s => (gatedWrite master (worldOf s master) a v s).2) s)

end Sys2Proof.Machine
end

