-- ==== Sys2Proof/Machine/Sources.lean ====
section
/-! DEFINITION. What an instruction reads at its release, and whether every result that it reads has landed (R67, R71, R83, R122,
R130). -/

namespace Sys2Proof.Machine

/-- R71: the condition of an instruction, and the registers, predicates, flags and accumulator it reads at release. -/
structure Sources where
  neg : Bool := false
  pred : BitVec 3 := 0
  regs : List Nat := []
  preds : List Nat := []
  flags : Bool := false
  acc : Option Bool := none
deriving DecidableEq, Repr

/-- A register form that reads the registers of some of its fields. -/
def srcR (f : RegForm) (useD useA useB : Bool) : Sources :=
  { neg := f.neg, pred := f.pred,
    regs := (if useD then [f.d.toNat] else []) ++ (if useA then [f.a.toNat] else []) ++ (if useB then [f.b.toNat] else []) }

/-- An immediate form, with or without a read of wd. -/
def srcI (f : ImmForm) (useD : Bool) : Sources :=
  { neg := f.neg, pred := f.pred, regs := if useD then [f.d.toNat] else [] }

/-- R74 to R110: what an instruction reads at its release. A MAC reads its accumulator at its landing (R90), and a load its word
(R73). -/
def sources (i : Instr) : Sources :=
  match i with
  | .nop _ f | .lock _ f | .unlock _ f | .done _ f | .tstamp _ f | .clrf _ f => srcR f false false false
  | .waitt _ f | .neg _ f | .negs _ f | .abs _ f | .abss _ f | .cls _ f | .cvt _ f | .popc _ f | .tmark _ f | .sincos _ f
  | .sqrt _ f => srcR f false true false
  | .waitev _ f => srcR f false (!f.m.getLsbD 0) true
  | .add _ f | .adds _ f | .sub _ f | .subs _ f | .and _ f | .or _ f | .xor _ f | .andn _ f | .min _ f | .max _ f | .shl _ f
  | .shls _ f | .shr _ f | .sar _ f | .rot _ f | .ext _ f | .cmp _ f | .mul _ f | .muls _ f | .mulh _ f | .pmul _ f | .tmul _ f
  | .mac _ f | .div _ f | .rem _ f | .pdiv _ f | .atan2 _ f | .mag _ f | .ld _ f | .lds _ f | .evs _ f | .srr _ f =>
    srcR f false true true
  | .ins _ f | .lim _ f | .st _ f | .sts _ f => srcR f true true true
  | .sel _ f => { srcR f false true true with preds := [f.m.toNat % 8] }
  | .vrot _ f => { srcR f false true true with regs := [f.a.toNat, f.a.toNat + 1, f.b.toNat] }
  | .plog _ f => { srcR f false false false with preds := [f.a.toNat % 8, f.b.toNat % 8] }
  | .rdf _ f => { srcR f false false false with flags := true }
  | .pmov _ f =>
    if f.m = 0 then { srcR f false false false with preds := [1, 2, 3, 4, 5, 6, 7] } else srcR f false true false
  | .acx _ f => { srcR f false false false with acc := some (f.m.getLsbD 0) }
  | .acm _ f =>
    if f.m.getLsbD 3 then srcR f false true false else { srcR f false false false with acc := some (f.m.getLsbD 0) }
  | .loop _ f | .ldi _ f | .ldl _ f => srcI f false
  | .shi _ f | .addi _ f | .stl _ f => srcI f true
  | _ => {}

/-- R67, R68, R104: what the engine reads for it: under a false condition its predicate alone, in the body of a LOOP whose
condition was false nothing. -/
def Sources.atRelease (q : Sources) (x : Engine) : Sources :=
  if x.loops.any (·.dead) then {}
  else if condHolds x q.neg q.pred then { q with preds := q.pred.toNat :: q.preds }
  else { preds := [q.pred.toNat] }

/-- Whether an effect writes one of the operands. -/
def Sources.waitsFor (q : Sources) (f : Effect) : Bool :=
  match f with
  | .reg r _ | .load _ r => r % 64 != 0 && q.regs.any (· % 64 == r % 64)
  | .pred n _ => n % 8 != 0 && q.preds.any (· % 8 == n % 8)
  | .flag _ | .clear _ => q.flags
  | .mac ac _ _ _ => q.flags || q.acc == some ac
  | .acm ac _ _ => q.acc == some ac
  | .store _ _ => false

/-- R136: the triple store's voter adds 2 ticks. -/
def voterTicks (a : Word) : Nat := if isVoted a.toNat || isRaw a.toNat then 2 else 0

/-- R136: the tick at which the result of a shared access is due. -/
def dueOf (r : Req) : Nat := r.rel + 7 + r.hops + voterTicks r.addr

/-- The results of engine `e` not yet landed: the tick at which each is due, and its effects. -/
def pendingResults (s : State) (e : Nat) : List (Nat × List Effect) :=
  (engine s e).fly.map (fun l => (l.due, l.effs))
    ++ (s.reqs.filter (·.master == e)).map (fun r => (dueOf r, match r.op with | .load d => [.reg d 0] | _ => []))

/-- The effects of a captured input (R208). -/
def inputEffects (inp : Input) : List Effect :=
  match inp with
  | .lds d v => [.reg d v]
  | .tstamp d ws => ws.mapIdx fun i w => .reg (d + i) w
  | _ => []

/-- R130, R208: the inputs of a trailing engine not yet replayed, each due D ticks after its leading engine's. -/
def pendingInputs (s : State) (e : Nat) : List (Nat × List Effect) :=
  let p := pairOf s (e / 2)
  p.buf.map (fun b => (b.due + p.d, inputEffects b.inp))
    ++ ((engine s (e - 1)).fly.filter (·.capture)).map (fun l => (l.due + p.d, l.effs))
    ++ (s.reqs.filter (·.master == e - 1)).map (fun r => (dueOf r + p.d, match r.op with | .load d => [.reg d 0] | _ => []))

/-- R71, R122: no result that the instruction reads is past the tick at which it was due without having landed. -/
def operandsLanded (s : State) (e : Nat) (q : Sources) : Bool :=
  (pendingResults s e ++ (if trailsJoined s e then pendingInputs s e else [])).all fun p =>
    s.now < p.1 || !p.2.any q.waitsFor

end Sys2Proof.Machine
end

