-- ==== Sys2Proof/Machine/Translate.lean ====
section
/-! DEFINITION. The translated accesses of supervisor engines and their exceptions (R37, R115, R499 to R503). -/

namespace Sys2Proof.Machine

/-! The exception handler (R115, R503). -/

/-- R115, R503: the firmware's exception handler is entered with a cause, level, record SEQ and virtual address, saving the
address `epc` and the world. -/
def enterHandler (e cause level seq : Nat) (va epc : Word) (s : State) : State :=
  modSup e (fun u =>
    { u with cause := word (cause + level % 4 * 2 ^ 8 + seq % 4096 * 2 ^ 10), excVa := va, excPc := epc,
             excSecure := u.secure, pc := Config.excHandler }) s

/-- The exception of the instruction a supervisor engine is executing: its own address is one behind the counter. -/
def except (e cause level seq : Nat) (va : Word) (s : State) : State :=
  enterHandler e cause level seq va ((supOf s e).pc - 1) s

/-! Supervisor translation (R500 to R502). -/

/-- What the translation of an access needs of its page. -/
structure Need where
  rd : Bool := false
  wr : Bool := false
  ex : Bool := false
deriving DecidableEq, Repr

/-- A translated address, in private memory or in the map, or the fault of the translation: its cause, level and record. -/
inductive Trans where
  | to (priv : Bool) (a : Nat)
  | bad (cause level seq : Nat)
deriving DecidableEq, Repr

/-- What private memory that nothing has written reads as: a table entry that maps its page to private page 0. -/
def privFill : Word := 0xF40000000#36

/-- R37: private memory. -/
def privGet (s : State) (a : Nat) : Word := tabGet privFill s.priv a
def privSet (a : Nat) (v : Word) (s : State) : State := { s with priv := tabSet privFill s.priv a v }

/-- R502: a walk reads a table entry: from private memory ungated, from the map through the gate as the engine's own access in
its world; an entry in a register block is never read. -/
def walkRead (e level : Nat) (priv : Bool) (a : Nat) (s : State) : (Word ⊕ Trans) × State :=
  if priv then (.inl (privGet s a), s)
  else if isReg a then (.inr (.bad 5 level 0), raise 0xB11 e (setBit s gateStatus 1))
  else
    match gatedRead e (supOf s e).secure none true (word a) s with
    | (some w, s) => (.inl w, s)
    | (none, s) => (.inr (.bad 4 level s.tk.seq), raise 0xB10 e (setBit s gateStatus 1))

/-- R501: the page frame of a table entry. -/
def pfn (w : Word) : Nat := slice w.toNat 19 0

/-- R500: the two-level walk of a virtual address: the level-2 entry, or a fault. -/
def walk (e va : Nat) (s : State) : (Word ⊕ Trans) × State :=
  let u := supOf s e
  let ttb := if u.secure then u.ttbS else u.ttbN
  match walkRead e 1 (ttb.getLsbD 35) (slice ttb.toNat 31 0 + slice va 31 22) s with
  | (.inr t, s) => (.inr t, s)
  | (.inl w1, s) =>
    if !w1.getLsbD 35 then (.inr (.bad 6 1 0), s)
    else match walkRead e 2 (w1.getLsbD 30) (pfn w1 * 4096 + slice va 21 12) s with
      | (.inr t, s) => (.inr t, s)
      | (.inl w2, s) => (if w2.getLsbD 35 then .inl w2 else .inr (.bad 6 2 0), s)

/-- R501: the page permits the access. -/
def permits (u : Sup) (n : Need) (w : Word) : Bool :=
  (!n.rd || w.getLsbD 34) && (!n.wr || w.getLsbD 33) && (!n.ex || w.getLsbD 32) && (!w.getLsbD 31 || u.secure)

/-- R501: the address a level-2 entry gives. -/
def physical (u : Sup) (n : Need) (va : Nat) (w : Word) : Trans :=
  if permits u n w then .to (w.getLsbD 30) (pfn w * 4096 + slice va 11 0) else .bad 6 2 0

/-- R500, R503: a virtual address through the engine's cached translations, or by a walk whose entry is kept until a TLBI. -/
def translate (e : Nat) (n : Need) (va : Nat) (s : State) : Trans × State :=
  let u := supOf s e
  match u.tlb.find? fun t => t.1 == u.secure && t.2.1 == slice va 31 12 with
  | some t => (physical u n va t.2.2, s)
  | none =>
    match walk e va s with
    | (.inr t, s) => (t, s)
    | (.inl w, s) => (physical u n va w, modSup e (fun x => { x with tlb := (u.secure, slice va 31 12, w) :: x.tlb }) s)

/-- R503: a translation fault enters the handler. -/
def badTrans (e : Nat) (t : Trans) (va : Word) (s : State) : State :=
  match t with
  | .bad cause level seq => except e cause level seq va s
  | .to _ _ => s

/-- R500: a virtual address has 32 bits; one with bits above is refused under R34, as its address would be. -/
def vaBad (va : Word) : Bool := 2 ^ 32 ≤ va.toNat

/-- R499, R503: the exception of the access whose violation record was the last made. -/
def exceptRec (e cause : Nat) (va : Word) (s : State) : State := except e cause 0 s.tk.seq va s

/-- A supervisor read: the word, or the exception it takes (R115, R499). -/
def supRead (e : Nat) (va : Word) (s : State) : Option Word × State :=
  if vaBad va then (none, exceptRec e 1 va (violate e (supOf s e).secure false (3, 0) false va s))
  else match translate e { rd := true } va.toNat s with
    | (.to true a, s) => (some (privGet s a), s)
    | (.to false a, s) =>
      (match gatedRead e (supOf s e).secure none false (word a) s with
        | (some w, s) => (some w, s)
        | (none, s) => (none, exceptRec e 1 va s))
    | (t, s) => (none, badTrans e t va s)

/-- R499: a refused supervisor write, whose violation record was the last made, is noticed before the engine's next instruction. -/
def noteWrite (e : Nat) (s : State) : State := modSup e (fun u => { u with notices := u.notices ++ [s.tk.seq] }) s

/-- A supervisor write: a translation fault is precise, a refusal is noticed later. -/
def supWrite (e : Nat) (va v : Word) (s : State) : State :=
  if vaBad va then noteWrite e (violate e (supOf s e).secure true (3, 0) false va s)
  else match translate e { wr := true } va.toNat s with
    | (.to true a, s) => privSet a v s
    | (.to false a, s) =>
      (match gatedWrite e (supOf s e).secure (word a) v s with
        | (true, s) => s
        | (false, s) => noteWrite e s)
    | (t, s) => badTrans e t va s

/-- R116, R494: CAS of a shared word `a`, its point free and taken. -/
def sharedCas (e : Nat) (secure : Bool) (va : Word) (a : Nat) (b d : Word) (s : State) : Option Word × State :=
  match gate s e secure .both (word a) with
  | some r => (none, exceptRec e 2 va (violate e secure true r false (word a) s))
  | none =>
    let r := readMapped e none false a s
    (some r.1, if r.1 = b then writeMapped e a d r.2 else r.2)

/-- R116, R494: CAS: the word is read and, if it equals `b`, written with `d`; both permissions are needed. -/
def supCas (e : Nat) (va b d : Word) (s : State) : Option Word × State :=
  let secure := (supOf s e).secure
  if vaBad va then (none, exceptRec e 2 va (violate e secure true (3, 0) false va s))
  else match translate e { rd := true, wr := true } va.toNat s with
    | (.to true a, s) => (some (privGet s a), if privGet s a = b then privSet a d s else s)
    | (.to false a, s) => sharedCas e secure va a b d (touch a s)
    | (t, s) => (none, badTrans e t va s)

/-! The banks of a bracket (R113). -/

/-- R113: the shared banks accessed by an instruction that its engine executes in an open bracket (`held`, open before it) are held: by its
fetch and its walks too. -/
def holdBanks (e : Nat) (held : Bool) (s : State) : State :=
  if held && (engine s e).lockOpen then
    modSup e (fun u => { u with banks := (u.banks ++ (s.tk.touched.filter isShared).map (· / 0x20000)).eraseDups }) s
  else s

end Sys2Proof.Machine
end

