-- ==== Sys2Proof/Machine/Release.lean ====
section
/-! DEFINITION. The release of an instruction by a plant engine on its schedule (R67 to R72, R121 to R134) and by a supervisor
engine in order (R115, R499). -/

namespace Sys2Proof.Machine

/-! The release of an instruction. -/

/-- R133: the unit an instruction needs. -/
inductive UnitKind where
  | none | divider | cordic | shared
deriving DecidableEq, Repr

/-- R133: the shared access of engine `e` at place `ord` of its release order has landed. -/
def accessLanded (s : State) (e ord : Nat) : Bool :=
  !s.reqs.any (fun r => r.master == e && r.ord == ord) && !(engine s e).fly.any (fun l => l.shared && l.ord == ord)

/-- R130, R133: it has landed for the engine's own shared port: on a trailing engine D ticks after its leading engine's. -/
def portLanded (s : State) (e ord : Nat) : Bool :=
  if trailsJoined s e then
    accessLanded s (e - 1) ord && (engine s (e - 1)).portAt.all fun a => a.1 != ord || a.2 + (pairOf s (e / 2)).d ≤ s.now
  else accessLanded s e ord

/-- R133: the shared accesses in flight; a later one that has landed holds its place until the oldest has. -/
def portHeld (s : State) (e : Nat) : List Nat := (engine s e).port.dropWhile (portLanded s e)

/-- R122, R133: whether the unit is free now. -/
def unitFree (s : State) (e : Nat) (u : UnitKind) : Bool :=
  match u with
  | .none => true
  | .divider => (engine s e).divFree ≤ s.now
  | .cordic => (engine s e).cordFree ≤ s.now
  | .shared => (portHeld s e).length < 8

/-- R133, R134: the unit is taken by an instruction released now; `held` are the shared accesses in flight. -/
def takeUnit (now : Nat) (held : List Nat) (u : UnitKind) (x : Engine) : Engine :=
  match u with
  | .divider => { x with divFree := now + 9 }
  | .cordic => { x with cordFree := now + 12 }
  | .shared => { x with port := held ++ [x.ord] }
  | .none => x

/-- R70, R122, R131, R133: engine `e` may release its next instruction, which reads `q`, now: it runs, its scheduled tick has come
and lies in its day, no other instruction has taken the tick, its source operands have landed and the unit is free; the shared
port, which bounds accesses, is needed under a true condition only. -/
def mayRelease (s : State) (e : Nat) (q : Sources) (delta : Nat) (u : UnitKind) : Bool :=
  let x := engine s e
  x.rest == .run && !x.halted && x.prev + delta ≤ s.now && x.lastRel ≤ s.now && (dayT s == 0 || x.prev + delta < x.base + dayT s)
    && operandsLanded s e (q.atRelease x) && (unitFree s e u || (u == .shared && !condHolds x q.neg q.pred))

/-- R580: the halt takes effect at this release: asked for, outside a bracket, or the trailing engine at the instruction at
which its halted leading engine stands. -/
def haltsNow (s : State) (e : Nat) : Bool :=
  let x := engine s e
  (x.haltReq && !x.lockOpen)
    || (trailsJoined s e && (engine s (e - 1)).halted && x.ord == (engine s (e - 1)).ord)

/-- R580, R576: the engine is halted before its next release. -/
def haltEngine (e : Nat) (s : State) : State :=
  traceRest e 1 3 (engine s e).pos (modEngine e (fun x => { x with halted := true, haltReq := false, stepN := 0 }) s)

/-- R569, R152: the plan word at the engine's position fetches with an uncorrectable error. -/
def fetchBad (s : State) (e : Nat) : Bool := chkOf s (0x02000000 + e * 0x1000 + (engine s e).pos) == .uncor

/-- R578: STEP releases its count of instructions, then halts again. -/
def countStep (x : Engine) : Engine :=
  if x.stepN = 0 then x else { x with stepN := x.stepN - 1, haltReq := x.haltReq || x.stepN == 1 }

/-- R70, R126: the bookkeeping of a release: the next delta counts from tick `r`, the position moves on, the release order rises,
the tick is taken, and the entry of a wait no longer directly precedes. -/
def released (e r : Nat) (s : State) : State :=
  modEngine e (fun x =>
    countStep (stepPos s.now { x with prev := r, ord := x.ord + 1, entry := none, ran := true, lastRel := s.now + 1 })) s

/-- What an instruction does when it executes: it answers the state with its immediate effects and the effects of its
result. -/
abbrev Body := Engine → State → State × List Effect

/-- A result computed from the engine's state at release alone. -/
def resultOf (f : Engine → List Effect) : Body := fun x s => (s, f x)

/-- R68: an instruction whose condition is false does nothing. -/
def nothing : Body := fun _ s => (s, [])

/-- R123: the late release record of a plant engine released after its scheduled tick. -/
def lateRelease (e delta : Nat) (s : State) : State :=
  let x := engine s e
  if x.prev + delta < s.now then lateEvent 0x102 e x.pos (tickAt s (x.prev + delta)) (dayTick s) s else s

/-- R569: the fault of an uncorrectable fetch. -/
def fetchFault (e : Nat) (s : State) : State :=
  if fetchBad s e then
    raise 0x131 (0x02000000 + e * 0x1000 + (engine s e).pos)
      (modTelem (fun t => { t with uncor := t.uncor + 1 }) (addSat s fabMemErr 17 0 1))
  else s

/-- R119, R152: a reserved encoding reached at run time acts as a false condition and is handled as a late event. Its record holds the
actual day tick in both places, also where the release was late (DESIGN CHOICE, log entry 116). -/
def reservedReached (e : Nat) (s : State) : State :=
  lateEvent 0x181 e (engine s e).pos (dayTick s) (dayTick s) (fetchFault e s)

/-- How an instruction is released: its unit (R133), timing class code (R158) and duration in ticks (R132), whether its
result is an asynchronous input (R208), whether it is a wait, after which the next delta counts from the wait's end (R106, R107,
R126), what it does, what it does under a false condition, whether it is an operation with a landing (R123), whether it takes
an entry sample (R129), and whether a bracket counts it under a false condition too (R114). -/
structure Issue where
  unit : UnitKind := .none
  cls : Nat := 0
  dur : Nat := 1
  cap : Bool := false
  wait : Bool := false
  body : Body
  onFalse : Body := nothing
  lands : Bool := true
  entry : Bool := false
  counts : Bool := false

/-- R68, R133: under a false condition an instruction still takes its divider or CORDIC unit, whose limit counts releases; it has no
operation that could land. -/
def Issue.idle (k : Issue) : Issue :=
  { k with body := k.onFalse, lands := false, unit := if k.unit == .shared then .none else k.unit }

/-- R123, R132, R158: the instruction's operation completes, and lands by its class: a wait and a shared request do not here. -/
def Issue.completes (k : Issue) : Bool := k.lands && !k.wait && k.unit != .shared

/-- A plant instruction executes: its immediate effects, and its result lands `dur` ticks after release. -/
def execBody (e : Nat) (k : Issue) (s : State) : State :=
  let pos := (engine s e).pos
  let b := k.body (engine s e) s
  let held := portHeld s e
  modEngine e (fun x =>
    let x := takeUnit s.now held k.unit x
    if b.2.isEmpty && !k.completes then x else addLanding (s.now + k.dur) x.ord k.cls pos k.cap b.2 x k.entry) b.1

/-- R114: an instruction whose condition is true counts in an open bracket, and LOCK and UNLOCK under a false one too. -/
def countIf (c : Bool) (e pos : Nat) (s : State) : State := if c then countLock e pos s else s

/-- R119, R152: the engine stands at a reserved encoding, or at a plan word that fetches with an uncorrectable error. -/
def reservedHere (s : State) (e : Nat) (ok : Bool) : Bool := !ok || fetchBad s e

/-- R68, R70, R119: what holds the release: a reserved encoding reads nothing and needs no port, as under a false condition. -/
def mayIssue (s : State) (e : Nat) (ok : Bool) (q : Sources) (delta : Nat) (k : Issue) : Bool :=
  if reservedHere s e ok then mayRelease s e {} delta k.idle.unit else mayRelease s e q delta k.unit

/-- R67 to R72, R121 to R134: a plant engine's instruction. It stays unreleased, the state unchanged, while it may not be
released; a condition that is false lets it be released without effect. -/
def plantRelease (e : Nat) (ok : Bool) (q : Sources) (delta : Nat) (neg : Bool) (pred : BitVec 3) (k : Issue) (s : State) : State :=
  if !mayIssue s e ok q delta k then s
  else if haltsNow s e then haltEngine e s
  else
    let x := engine s e
    let r := if k.wait then s.now else x.prev + delta
    let c := !reservedHere s e ok && condHolds x neg pred
    let s := lateRelease e delta s
    let s := if fetchBad s e then reservedReached e s
      else if !ok then execBody e k.idle (reservedReached e s)
      else execBody e (if condHolds x neg pred then k else k.idle) s
    released e r (countIf (c || k.counts) e x.pos s)

/-! Supervisor engines. -/

/-- R106, R107, R580: a supervisor engine that waits or is halted issues nothing. -/
def supWaits (x : Engine) : Bool :=
  x.halted || (match x.rest with | .waitT _ => true | .waitEv _ _ _ _ _ => true | _ => false)

/-- A supervisor instruction executes at the engine's counter: every earlier result is in place, and its own is in place for the next. -/
def supExecute (e : Nat) (neg : Bool) (pred : BitVec 3) (k : Issue) (s : State) : State :=
  let at' := (supOf s e).pc.toNat
  let s := modSup e (fun u => { u with pc := u.pc + 1 })
    (modEngine e (fun x => { x with rest := .run, fly := [], setV := 0, setS := 0, setD := 0, pos := at' }) s)
  let x := engine s e
  let b := (if condHolds x neg pred then k.body else k.onFalse) x s
  applyAll e s.now x.pos b.2 b.1

/-- The bookkeeping after a supervisor instruction: where the counter has come to the end of a loop's body it goes back (R101,
R115); the loops' indices are in place at once; and brackets, which count it if `c`. The spec does not say what a JMP, CALL, ERET or
handler entry out of a loop's body does to the loop: the loop stays open, and an arrival at the address after its body is the end of an
iteration (DESIGN CHOICE, log entry 154). -/
def supReleased (e pos : Nat) (c : Bool) (s : State) : State :=
  let a := advanceSup (engine s e).loops (supOf s e).pc.toNat
  let s := modSup e (fun u => { u with pc := word a.1 })
    (modEngine e (fun x => countStep { x with ord := x.ord + 1, entry := none, loops := a.2.1, pos := a.1, fly := [] }) s)
  countIf c e pos (applyAll e s.now pos a.2.2 s)

/-- R500 to R502: the fetch of the instruction at the engine's counter is permitted; otherwise the handler is entered there. -/
def supFetch (e : Nat) (s : State) : Bool × State :=
  let pc := (supOf s e).pc
  let enter (s : State) : State := enterHandler e 1 0 s.tk.seq pc pc s
  if vaBad pc then (false, enter (violate e (supOf s e).secure false (3, 0) false pc s))
  else match translate e { ex := true } pc.toNat s with
    | (.to true _, s) => (true, s)
    | (.to false a, s) =>
      (match gatedRead e (supOf s e).secure none false (word a) s with
        | (some _, s) => (true, s)
        | (none, s) => (false, enter s))
    | (.bad cause level q, s) => (false, enterHandler e cause level q pc pc s)

/-- A supervisor engine's instruction, in order (R115); a notice of a refused write is delivered in its place (R499). -/
def supRelease (e : Nat) (neg : Bool) (pred : BitVec 3) (k : Issue) (s : State) : State :=
  if supWaits (engine s e) then s
  else if haltsNow s e then haltEngine e s
  else match (supOf s e).notices with
    | n :: t => enterHandler e 3 0 n 0 (supOf s e).pc (modSup e (fun u => { u with notices := t }) s)
    | [] =>
      let held := (engine s e).lockOpen
      let c := condHolds (engine s e) neg pred || k.counts
      match supFetch e s with
      | (true, s) => holdBanks e held (supReleased e (engine s e).pos c (supExecute e neg pred k s))
      | (false, s) => holdBanks e held s

/-- The release of an instruction by any engine. -/
def release (e : Fin 1028) (i : Instr) (delta : Nat) (neg : Bool) (pred : BitVec 3) (k : Issue) (s : State) :
    Host.Outcome State Fault Refusal :=
  if e.val < 1024 then .next (plantRelease e.val (wellFormed i) (sources i) delta neg pred k s)
  else if wellFormed i then .next (ifFree e.val 0 (supRelease e.val neg pred k) s)
  else .fault (.reservedOnSupervisor e.val)

/-- The release of a register-form instruction. -/
def releaseR (e : Fin 1028) (i : Instr) (f : RegForm) (k : Issue) (s : State) : Host.Outcome State Fault Refusal :=
  release e i f.delta.toNat f.neg f.pred k s

/-- The release of an immediate-form instruction. -/
def releaseI (e : Fin 1028) (i : Instr) (f : ImmForm) (k : Issue) (s : State) : Host.Outcome State Fault Refusal :=
  release e i f.delta.toNat f.neg f.pred k s

end Sys2Proof.Machine
end

