-- ==== Sys2Proof/Machine/Arith.lean ====
section
/-! DEFINITION. The class A arithmetic, logic, conversion, constant and predicate instructions (R74 to R88). -/

namespace Sys2Proof.Machine

/-- NOP (R74): it takes its release tick and does nothing. -/
def execNop (e : Fin 1028) (f : RegForm) (s : State) : Host.Outcome State Fault Refusal :=
  releaseR e (.nop e f) f { body := nothing } s

/-- ADD (R53, R76). -/
def execAdd (e : Fin 1028) (f : RegForm) (s : State) : Host.Outcome State Fault Refusal :=
  releaseR e (.add e f) f { body := resultOf fun x => resEffects f.d (aluAdd (opA x f) (opB x f)) } s

/-- ADDS (R53, R76). -/
def execAdds (e : Fin 1028) (f : RegForm) (s : State) : Host.Outcome State Fault Refusal :=
  releaseR e (.adds e f) f { body := resultOf fun x => resEffects f.d (aluAdds (opA x f) (opB x f)) } s

/-- SUB (R53, R76). -/
def execSub (e : Fin 1028) (f : RegForm) (s : State) : Host.Outcome State Fault Refusal :=
  releaseR e (.sub e f) f { body := resultOf fun x => resEffects f.d (aluSub (opA x f) (opB x f)) } s

/-- SUBS (R53, R76). -/
def execSubs (e : Fin 1028) (f : RegForm) (s : State) : Host.Outcome State Fault Refusal :=
  releaseR e (.subs e f) f { body := resultOf fun x => resEffects f.d (aluSubs (opA x f) (opB x f)) } s

/-- AND (R74). -/
def execAnd (e : Fin 1028) (f : RegForm) (s : State) : Host.Outcome State Fault Refusal :=
  releaseR e (.and e f) f { body := resultOf fun x => [.reg f.d.toNat (opA x f &&& opB x f)] } s

/-- OR (R74). -/
def execOr (e : Fin 1028) (f : RegForm) (s : State) : Host.Outcome State Fault Refusal :=
  releaseR e (.or e f) f { body := resultOf fun x => [.reg f.d.toNat (opA x f ||| opB x f)] } s

/-- XOR (R74). -/
def execXor (e : Fin 1028) (f : RegForm) (s : State) : Host.Outcome State Fault Refusal :=
  releaseR e (.xor e f) f { body := resultOf fun x => [.reg f.d.toNat (opA x f ^^^ opB x f)] } s

/-- ANDN (R74). -/
def execAndn (e : Fin 1028) (f : RegForm) (s : State) : Host.Outcome State Fault Refusal :=
  releaseR e (.andn e f) f { body := resultOf fun x => [.reg f.d.toNat (opA x f &&& ~~~(opB x f))] } s

/-- NEG (R53, R76). -/
def execNeg (e : Fin 1028) (f : RegForm) (s : State) : Host.Outcome State Fault Refusal :=
  releaseR e (.neg e f) f { body := resultOf fun x => resEffects f.d (aluNeg (opA x f)) } s

/-- NEGS (R53, R76). -/
def execNegs (e : Fin 1028) (f : RegForm) (s : State) : Host.Outcome State Fault Refusal :=
  releaseR e (.negs e f) f { body := resultOf fun x => resEffects f.d (aluNegs (opA x f)) } s

/-- ABS (R53, R76). -/
def execAbs (e : Fin 1028) (f : RegForm) (s : State) : Host.Outcome State Fault Refusal :=
  releaseR e (.abs e f) f { body := resultOf fun x => resEffects f.d (aluAbs (opA x f)) } s

/-- ABSS (R53, R76). -/
def execAbss (e : Fin 1028) (f : RegForm) (s : State) : Host.Outcome State Fault Refusal :=
  releaseR e (.abss e f) f { body := resultOf fun x => resEffects f.d (aluAbss (opA x f)) } s

/-- MIN (R77). -/
def execMin (e : Fin 1028) (f : RegForm) (s : State) : Host.Outcome State Fault Refusal :=
  releaseR e (.min e f) f { body := resultOf fun x => [.reg f.d.toNat (aluMin (opA x f) (opB x f))] } s

/-- MAX (R77). -/
def execMax (e : Fin 1028) (f : RegForm) (s : State) : Host.Outcome State Fault Refusal :=
  releaseR e (.max e f) f { body := resultOf fun x => [.reg f.d.toNat (aluMax (opA x f) (opB x f))] } s

/-- SEL (R83: predicate p[m] XOR s selects wa or wb). -/
def execSel (e : Fin 1028) (f : RegForm) (s : State) : Host.Outcome State Fault Refusal :=
  releaseR e (.sel e f) f { body := resultOf fun x => [.reg f.d.toNat (if pGet x (f.m.toNat % 8) != f.m.getLsbD 3 then opA x f else opB x f)] } s

/-- CLS (R80). -/
def execCls (e : Fin 1028) (f : RegForm) (s : State) : Host.Outcome State Fault Refusal :=
  releaseR e (.cls e f) f { body := resultOf fun x => [.reg f.d.toNat (aluCls (opA x f))] } s

/-- SHL (R55, R76). -/
def execShl (e : Fin 1028) (f : RegForm) (s : State) : Host.Outcome State Fault Refusal :=
  releaseR e (.shl e f) f { body := resultOf fun x => resEffects f.d (aluShl (opA x f) (opB x f)) } s

/-- SHLS (R55, R76). -/
def execShls (e : Fin 1028) (f : RegForm) (s : State) : Host.Outcome State Fault Refusal :=
  releaseR e (.shls e f) f { body := resultOf fun x => resEffects f.d (aluShls (opA x f) (opB x f)) } s

/-- SHR (R55, R76). -/
def execShr (e : Fin 1028) (f : RegForm) (s : State) : Host.Outcome State Fault Refusal :=
  releaseR e (.shr e f) f { body := resultOf fun x => [.reg f.d.toNat (aluShr (opA x f) (opB x f))] } s

/-- SAR (R55, R76). -/
def execSar (e : Fin 1028) (f : RegForm) (s : State) : Host.Outcome State Fault Refusal :=
  releaseR e (.sar e f) f { body := resultOf fun x => [.reg f.d.toNat (aluSar (opA x f) (opB x f))] } s

/-- ROT (R55, R76). -/
def execRot (e : Fin 1028) (f : RegForm) (s : State) : Host.Outcome State Fault Refusal :=
  releaseR e (.rot e f) f { body := resultOf fun x => [.reg f.d.toNat (aluRot (opA x f) (opB x f))] } s

/-- EXT (R81). -/
def execExt (e : Fin 1028) (f : RegForm) (s : State) : Host.Outcome State Fault Refusal :=
  releaseR e (.ext e f) f { body := resultOf fun x => [.reg f.d.toNat (aluExt (f.m.getLsbD 0) (opA x f) (opB x f))] } s

/-- INS (R81). -/
def execIns (e : Fin 1028) (f : RegForm) (s : State) : Host.Outcome State Fault Refusal :=
  releaseR e (.ins e f) f { body := resultOf fun x => [.reg f.d.toNat (aluIns (opA x f) (opB x f) (opD x f))] } s

/-- CVT (R82, R56). -/
def execCvt (e : Fin 1028) (f : RegForm) (s : State) : Host.Outcome State Fault Refusal :=
  releaseR e (.cvt e f) f { body := resultOf fun x => resEffects f.d (aluCvt (floorOf f) (f.m.toNat % 8) (opA x f)) } s

/-- LDI (R84). -/
def execLdi (e : Fin 1028) (f : ImmForm) (s : State) : Host.Outcome State Fault Refusal :=
  releaseI e (.ldi e f) f { body := resultOf fun _ => [.reg f.d.toNat (f.imm.signExtend 36)] } s

/-- SHI (R84). -/
def execShi (e : Fin 1028) (f : ImmForm) (s : State) : Host.Outcome State Fault Refusal :=
  releaseI e (.shi e f) f { body := resultOf fun x => [.reg f.d.toNat (aluShi (immD x f) f.imm)] } s

/-- ADDI (R76: as ADD). -/
def execAddi (e : Fin 1028) (f : ImmForm) (s : State) : Host.Outcome State Fault Refusal :=
  releaseI e (.addi e f) f { body := resultOf fun x => resEffects f.d (aluAdd (immD x f) (f.imm.signExtend 36)) } s

/-- CMP (R85). -/
def execCmp (e : Fin 1028) (f : RegForm) (s : State) : Host.Outcome State Fault Refusal :=
  releaseR e (.cmp e f) f { body := resultOf fun x => [.pred (f.d.toNat % 8) (cmpCond f.m.toNat (opA x f) (opB x f))] } s

/-- R86: a predicate operand of PLOG, p[A[2:0]] XOR A[3]. -/
def plogOperand (x : Engine) (a : BitVec 6) : Bool := pGet x (a.toNat % 8) != a.getLsbD 3

/-- PLOG (R86). -/
def execPlog (e : Fin 1028) (f : RegForm) (s : State) : Host.Outcome State Fault Refusal :=
  releaseR e (.plog e f) f { body := resultOf fun x => [.pred (f.d.toNat % 8) (plogOf f.m.toNat (plogOperand x f.a) (plogOperand x f.b))] } s

/-- RDF (R65). -/
def execRdf (e : Fin 1028) (f : RegForm) (s : State) : Host.Outcome State Fault Refusal :=
  releaseR e (.rdf e f) f { body := resultOf fun x => [.reg f.d.toNat (flagWord x)] } s

/-- CLRF (R88, R50). -/
def execClrf (e : Fin 1028) (f : RegForm) (s : State) : Host.Outcome State Fault Refusal :=
  releaseR e (.clrf e f) f { body := resultOf fun _ => [.clear f.m.toNat] } s

/-- R87: PMOV with modifier 1 sets p1 to p7 from wa[7:1]. -/
def predEffects (a : Word) : List Effect := (List.range 7).map fun i => .pred (i + 1) (a.getLsbD (i + 1))

/-- PMOV (R87, R65). -/
def execPmov (e : Fin 1028) (f : RegForm) (s : State) : Host.Outcome State Fault Refusal :=
  releaseR e (.pmov e f) f { body := resultOf fun x => if f.m = 0 then [.reg f.d.toNat (predWord x)] else predEffects (opA x f) } s

/-- POPC (R80). -/
def execPopc (e : Fin 1028) (f : RegForm) (s : State) : Host.Outcome State Fault Refusal :=
  releaseR e (.popc e f) f { body := resultOf fun x => [.reg f.d.toNat (aluPopc (opA x f))] } s

/-- LIM (R83). -/
def execLim (e : Fin 1028) (f : RegForm) (s : State) : Host.Outcome State Fault Refusal :=
  releaseR e (.lim e f) f { body := resultOf fun x => [.reg f.d.toNat (aluLim (opA x f) (opB x f) (opD x f))] } s

/-- SRR (R79). -/
def execSrr (e : Fin 1028) (f : RegForm) (s : State) : Host.Outcome State Fault Refusal :=
  releaseR e (.srr e f) f { body := resultOf fun x => [.reg f.d.toNat (aluSrr (floorOf f) (opA x f) (opB x f))] } s

end Sys2Proof.Machine
end

