-- ==== Sys2Proof/Machine/Phasor.lean ====
section
/-! DEFINITION. Phasors and fault location: what the loader asks of a phasor configuration (R356), the conversions of C37.118.2 values
in both directions (R364, R367), the symmetric components of R359 and FLOC (R369, R370). -/

namespace Sys2Proof.Machine

/-! Exact ratios. -/

/-- num / den rounded half to even. -/
def roundRatio (num : Int) (den : Nat) : Int :=
  let q := num / (den : Int)
  let r := (num % (den : Int)).toNat
  if 2 * r < den then q else if den < 2 * r then q + 1 else if q % 2 = 0 then q else q + 1

/-- 10^40 π, truncated: as many digits as keep every rounding below exact. -/
def piDigits : Int := 31415926535897932384626433832795028841971

/-! The loader's conditions (R356). -/

/-- The terms of a cosine's series after `t`, the k-th, for an angle whose square is `q`, both in units of 2^-62. -/
def cosTerms (q : Int) : Nat → Nat → Int → Int
  | 0, _, _ => 0
  | n + 1, k, t => t + cosTerms q n (k + 1) (-(t * q / 2 ^ 62) / (((2 * k + 1) * (2 * k + 2) : Nat) : Int))

/-- The cosine of an angle of num / den of a quarter turn or less, in units of 2^-62; num / den in turns. -/
def cosQuarter (num : Int) (den : Nat) : Int :=
  let a := 2 * piDigits * 2 ^ 62 * num / ((den : Int) * 10 ^ 40)
  cosTerms (a * a / 2 ^ 62) 16 0 (2 ^ 62)

/-- The cosine of num / den turns, in units of 2^-62. -/
def cosTurns (num : Int) (den : Nat) : Int :=
  let x := num % (den : Int)
  let x := if (den : Int) < 2 * x then den - x else x
  if (den : Int) < 4 * x then -cosQuarter (den - 2 * x) (2 * den) else cosQuarter x den

/-- R356: Σ h[j]·cos(2π f0 (j − (N − 1)/2)/r) of a stage of `n` coefficients from `base`, in units of 2^-92. -/
def stageGain (s : State) (base n f0 rate : Nat) : Int :=
  ((List.range n).map fun j => (reg s (base + j)).toInt * cosTurns ((f0 : Int) * (2 * (j : Int) - (n - 1 : Nat))) (2 * rate)).sum

/-- R356: h[j] = h[N − 1 − j]. -/
def symmetric (s : State) (base n : Nat) : Bool := (List.range n).all fun j => reg s (base + j) == reg s (base + (n - 1 - j))

/-- R343: the first coefficient of a stage of the channel's set. -/
def coefBase (s : State) (c stage : Nat) : Nat := 0x04062000 + chSet s c * 0x180 + stage * 128

/-- R336: twice g. -/
def groupDelay2 (s : State) (c : Nat) : Nat := (chN1 s c - 1) + (chN2 s c - 1) * chM1 s c

/-- R356: what a configuration says by itself. -/
def phasorCfgOk (p : PhasorCfg) : Bool := p.chan < 2048 && (p.f0 == 50 || p.f0 == 60) && 10 ≤ p.fs && p.fs ≤ 240
def phasorsOk (q : PhasorSection) : Bool := q.configs.all phasorCfgOk

/-- R356: |H0| ≥ 0.5, by cosines in units of 2^-62. -/
def gainOk (s : State) (p : PhasorCfg) : Bool :=
  let h := stageGain s (coefBase s p.chan 0) (chN1 s p.chan) p.f0 (chRin s p.chan)
    * stageGain s (coefBase s p.chan 1) (chN2 s p.chan) p.f0 (chRin s p.chan / chM1 s p.chan)
  2 ^ 183 ≤ h.natAbs

/-- R356: the configuration suits its channel. -/
def phasorFits (s : State) (p : PhasorCfg) : Bool :=
  let m := chM1 s p.chan * chM2 s p.chan
  let out := chRin s p.chan / m
  chRin s p.chan % m == 0 && out % p.f0 == 0 && 8 ≤ out / p.f0 && out / p.f0 ≤ 64 && out % p.fs == 0 && chMode s p.chan == 0
    && symmetric s (coefBase s p.chan 0) (chN1 s p.chan) && symmetric s (coefBase s p.chan 1) (chN2 s p.chan)
    && groupDelay2 s p.chan % 2 == 0 && groupDelay2 s p.chan / 2 % m == 0 && gainOk s p

/-! Values sent (R362 to R364). -/

/-- R362: the blocks with at most `n` phasors between them. -/
def capPhasors : Nat → List BlockCfg → List BlockCfg
  | _, [] => []
  | n, b :: t => { b with phasors := b.phasors.take n } :: capPhasors (n - b.phasors.length) t

/-- R364: num / den as the nearest single-precision value, ties to even; beyond the greatest, infinity. -/
def singleOf (num : Int) (den : Nat) : Nat :=
  let a := num.natAbs
  if a = 0 then 0
  else
    let l : Int := (Nat.log2 a : Int) - (Nat.log2 den : Int)
    let l := if (if 0 ≤ l then decide (a < den * 2 ^ l.toNat) else decide (a * 2 ^ (-l).toNat < den)) then l - 1 else l
    let e : Int := max (l - 23) (-149)
    let q := if 0 ≤ e then roundRatio a (den * 2 ^ e.toNat) else roundRatio (a * 2 ^ (-e).toNat : Nat) den
    Nat.min ((e + 149).toNat * 2 ^ 23 + q.toNat) 0x7F800000 + (if num < 0 then 2 ^ 31 else 0)

/-- R364: a float value; a quiet NaN for an invalid one. -/
def floatField (valid : Bool) (num : Int) (den : Nat) : Word :=
  word (if valid then singleOf num den else 0x7FC00000 + Config.quietNan.toNat)

/-- R364: a 16-bit integer, rounded half to even and saturated; 0x8000 for an invalid one. -/
def intField (valid : Bool) (num : Int) (den : Nat) : Word :=
  if valid then
    let v := roundRatio num den
    let v := if v < -32767 then -32767 else if 32767 < v then 32767 else v
    word (v % 65536).toNat
  else 0x8000#36

/-- R364: a pu36 value times its base, as a float or an integer. -/
def scaledField (float valid : Bool) (v : Word) (b : Scale) : Word :=
  let num := v.toInt * (b.num : Int)
  let den := 2 ^ 30 * b.den
  if float then floatField valid num den else intField valid num den

/-- R364, R42: an angle: a float in turns times its base, an integer in 10^-4 rad. -/
def angleField (float valid : Bool) (v : Word) (b : Scale) : Word :=
  if float then floatField valid (v.toInt * (b.num : Int)) (2 ^ 36 * b.den)
  else intField valid (v.toInt * 2 * piDigits) (2 ^ 36 * 10 ^ 36)

/-- R363, R364: a phasor of a block, by its FORMAT. -/
def phasorFields (c : StreamCfg) (b : BlockCfg) (x : Scale × PhasorRes) : List Word :=
  let p := x.2
  if c.polar then [scaledField c.fPhasor p.valid p.mag x.1, angleField c.fPhasor p.valid p.ang b.angle]
  else [scaledField c.fPhasor p.valid p.re x.1, scaledField c.fPhasor p.valid p.im x.1]

/-- R363, R364: frequency and ROCOF: floats by their bases, integers in mHz and 0.01 Hz/s. -/
def freqFields (c : StreamCfg) (b : BlockCfg) (r : BlockRes) : List Word :=
  if c.fFreq then [scaledField true r.freqValid r.freq b.freq, scaledField true r.freqValid r.rocof b.rocof]
  else [intField r.freqValid (r.freq.toInt * 1000) (2 ^ 30), intField r.freqValid (r.rocof.toInt * 100) (2 ^ 30)]

/-- R363: an analog value, by its FORMAT. -/
def analogField (c : StreamCfg) (valid : Bool) (v : Word) (b : Scale) : Word := scaledField c.fAnalog valid v b

/-- R351: the record of output `o` of second `sec` in a channel's ring, if it is there. -/
def ringRecord (s : State) (c sec o : Nat) : Option (Word × Word) :=
  let a := getF s (sigCh c 10) 31 0
  ((List.range (2 ^ (4 + getF s (sigCh c 10) 35 32))).map fun r => (memGet s (a + 2 * r), memGet s (a + 2 * r + 1))).find? fun x =>
    slice x.2.toNat 32 14 == sec % 2 ^ 19 && slice x.2.toNat 13 0 == o

/-- R351, R363: a channel's characterised value at t_r, from the record with o = j·R_out/Fs, with its validity; none before it is
written. -/
def analogAt (s : State) (fs sec j : Nat) (x : Nat × Scale) : Option (Bool × Word × Scale) :=
  let c := x.1
  (ringRecord s c sec (j * (chRin s c / (chM1 s c * chM2 s c)) / fs)).map fun r =>
    (!(r.2.getLsbD 35 || r.2.getLsbD 34), r.1, x.2)

/-! Values received (R367). -/

/-- A single-precision number as a ratio; none for an infinity or a NaN. -/
def singleValue (b : BitVec 32) : Option (Int × Nat) :=
  let e := b.toNat / 2 ^ 23 % 256
  let m := b.toNat % 2 ^ 23
  let v : Nat × Nat := if e = 0 then (m, 2 ^ 149) else if e < 150 then (m + 2 ^ 23, 2 ^ (150 - e)) else ((m + 2 ^ 23) * 2 ^ (e - 150), 1)
  if e = 255 then none else some (if b.getLsbD 31 then -(v.1 : Int) else v.1, v.2)

/-- A received value as a ratio: a float, or a signed 16-bit integer. -/
def rawValue (float : Bool) (b : BitVec 32) : Option (Int × Nat) :=
  if float then singleValue b else some ((b.setWidth 16).toInt, 1)

/-- R367: a received value in pu36 by its base, rounded half to even and saturated; `free` where it is no number. -/
def puOf (float : Bool) (b : BitVec 32) (k : Scale) (free : Word) : Word :=
  match rawValue float b with
  | some (n, d) => (sat (roundRatio (n * (k.den * 2 ^ 30 : Nat)) (d * k.num))).1
  | none => free

/-- R367: a received angle in turn36: a float by its base, an integer in 10^-4 rad. -/
def turnOf (float : Bool) (b : BitVec 32) (k : Scale) (free : Word) : Word :=
  match rawValue float b with
  | some (n, d) =>
    if float then wordI (roundRatio (n * (k.den * 2 ^ 36 : Nat)) (d * k.num))
    else wordI (roundRatio (n * 2 ^ 36 * 10 ^ 36) (2 * piDigits).toNat)
  | none => free

/-- R367: a remote phasor, in the form of its FORMAT. -/
def remotePhasor (c : RemoteCfg) (fmt : BitVec 4) (fresh i : Nat) (x : BitVec 32 × BitVec 32) : Word × Word :=
  let b := c.phasors.getD i { num := 1, den := 1 }
  let g (n : Nat) : Word := Config.freeWord (fresh + n)
  (puOf (fmt.getLsbD 1) x.1 b (g (2 * i)),
   if fmt.getLsbD 0 then turnOf (fmt.getLsbD 1) x.2 c.angle (g (2 * i + 1)) else puOf (fmt.getLsbD 1) x.2 b (g (2 * i + 1)))

/-- R367: at most 128 phasors of a remote frame. -/
def remotePhasors (c : RemoteCfg) (fmt : BitVec 4) (f : RemoteData) (fresh : Nat) : List (Word × Word) :=
  (f.phasors.take 128).mapIdx fun i x => remotePhasor c fmt fresh i x

/-- R367: the accepted values of a frame; analogs have their own bit of FORMAT. -/
def remoteValues (c : RemoteCfg) (fmt : BitVec 4) (f : RemoteData) (fresh : Nat) : List Word :=
  (remotePhasors c fmt f fresh).flatMap (fun x => [x.1, x.2]) ++ f.others.mapIdx fun i b =>
    let o := c.others.getD i (false, { num := 1, den := 1 })
    puOf (fmt.getLsbD (if o.1 then 2 else 3)) b o.2 (Config.freeWord (fresh + 256 + i))

/-- The phasors of a remote frame by their components: those in polar form by VROT. -/
def farPhasors (c : RemoteCfg) (fmt : BitVec 4) (f : RemoteData) (fresh : Nat) : List (Word × Word) :=
  (remotePhasors c fmt f fresh).map fun x =>
    if fmt.getLsbD 0 then (let r := rotate x.1.toInt 0 x.2; (r.1.1, r.2.1)) else x

/-! Fault location (R359, R369, R370). -/

/-- R359: the positive or the negative sequence of three phasors. -/
def sequence (negative : Bool) (a b c : Word × Word) : Word × Word :=
  let rot (v : Word × Word) (z : Word) : Word × Word := let r := rotate v.1.toInt v.2.toInt z; (r.1.1, r.2.1)
  let b := rot b (if negative then 0xAAAAAAAAB#36 else 0x555555555#36)
  let c := rot c (if negative then 0x555555555#36 else 0xAAAAAAAAB#36)
  let third (x y z : Word) : Word := (aluPmul false (aluAdds (aluAdds x y).1 z).1 0x015555555#36).1
  (third a.1 b.1 c.1, third a.2 b.2 c.2)

/-- The voltage and the current of six phasors, in a sequence. -/
def voltage (negative : Bool) (l : List (Word × Word)) : Word × Word := sequence negative (l.getD 0 (0, 0)) (l.getD 1 (0, 0)) (l.getD 2 (0, 0))
def current (negative : Bool) (l : List (Word × Word)) : Word × Word := sequence negative (l.getD 3 (0, 0)) (l.getD 4 (0, 0)) (l.getD 5 (0, 0))

/-- R369: |I2| > 0.05 pu. -/
def unbalanced (l : List (Word × Word)) : Bool :=
  let i := current true l
  2 ^ 60 < 400 * (i.1.toInt * i.1.toInt + i.2.toInt * i.2.toInt)

/-- R369: m as a ratio from the impedance, A and B in units of 2^-60; none where |B| < 0.05 pu. -/
def impedanceRatio (z vs is vr ir : Word × Word) : Option (Int × Nat) :=
  let i (w : Word) : Int := w.toInt
  let sr := i is.1 + i ir.1
  let si := i is.2 + i ir.2
  let br := i z.1 * sr - i z.2 * si
  let bi := i z.1 * si + i z.2 * sr
  let ar := (i vs.1 - i vr.1) * 2 ^ 30 + (i z.1 * i ir.1 - i z.2 * i ir.2)
  let ai := (i vs.2 - i vr.2) * 2 ^ 30 + (i z.1 * i ir.2 + i z.2 * i ir.1)
  let d := br * br + bi * bi
  if 400 * d < 2 ^ 120 then none else some (ar * br + ai * bi, d.toNat)

/-- R370: m_TW as a ratio, for arrivals `gap` apart in 1/64 ns, local less remote; none for arrivals too far apart. -/
def waveRatio (l : LineCfg) (gap : Option Int) : Option (Int × Nat) :=
  match gap with
  | some g =>
    if g.natAbs * l.speed ≤ l.length * 64000000000 + 320000 * l.speed then
      some ((l.length * 64000000000 : Nat) + l.speed * g, 2 * l.length * 64000000000)
    else none
  | none => none

/-- R370: the two results agree. -/
def agree (l : LineCfg) (a b : Int × Nat) : Bool :=
  (a.1 * b.2 - b.1 * a.2).natAbs * l.length * 100 ≤ Nat.max (2 * l.length) 30000 * a.2 * b.2

/-- R370: what FLOC reports. -/
structure Located where
  m : Option (Int × Nat)
  method : Nat
  fault : Option Nat
deriving DecidableEq, Repr

/-- R370: the table. -/
def report (l : LineCfg) (z w : Option (Int × Nat)) : Located :=
  match z, w with
  | some a, some b => if agree l b a then ⟨some b, 2, none⟩ else ⟨some a, 1, some 0x631⟩
  | some a, none => ⟨some a, 1, none⟩
  | none, some b => ⟨some b, 3, some 0x630⟩
  | none, none => ⟨none, 0, some 0x630⟩

/-- R369, R370: FLOC on the six phasors of each end and the arrivals' difference. -/
def floc (l : LineCfg) (near far : List (Word × Word)) (gap : Option Int) : Located :=
  let neg := unbalanced near || unbalanced far
  report l (impedanceRatio (l.zRe, l.zIm) (voltage neg near) (current neg near) (voltage neg far) (current neg far)) (waveRatio l gap)

/-- R368, R370: the local arrival less the remote one, both within 32,768 s, from the local report with its UTC second and the remote
block's words; none without both. -/
def arrivalGap (near : Option (Nat × Arrival)) (utc : Arrival → Int) (p : Nat) (ds : List (BitVec 16)) : Option Int :=
  match near, ds[p]?, ds[p + 1]?, ds[p + 2]?, ds[p + 3]? with
  | some (_, a), some w0, some w1, some w2, some w3 =>
    if w0.getLsbD 15 then
      some ((((utc a - w1.toNat + 32768) % 65536) - 32768) * 64000000000 + (a.ns64 : Int) - ((w2.toNat * 65536 + w3.toNat) * 64 : Nat))
    else none
  | _, _, _, _, _ => none

/-- A value as an int36 word; `free` where it is none. -/
def intWord (v : Int) (free : Word) : Word := if -(2 ^ 35) ≤ v ∧ v < 2 ^ 35 then wordI v else free

/-- R370: the three words of the result record. Without a result, and for a value beyond its word, a word is free. -/
def flocRecord (q : Located) (l : LineCfg) (fresh : Nat) : List Word :=
  match q.m with
  | some (n, d) =>
    [word (q.method + flagAt 2 (decide (n < 0 ∨ (d : Int) < n))), intWord (roundRatio (n * 2 ^ 30) d) (Config.freeWord fresh),
     intWord (roundRatio (n * l.length) d) (Config.freeWord (fresh + 1))]
  | none => [word q.method, Config.freeWord fresh, Config.freeWord (fresh + 1)]

end Sys2Proof.Machine
end

