-- ==== Sys2Proof/Machine/C37.lean ====
section
/-! DEFINITION. C37.118.2 output streams and remote streams (R362 to R368), and the fault location that a remote frame completes
(R369, R370). -/

namespace Sys2Proof.Machine

/-! Output streams (R362, R363). -/

/-- The phasor section in force. -/
def phasorSec (s : State) : PhasorSection := Config.phasorSection s.boot.phasors

/-- R362: output stream `i`, if it is configured. -/
def streamCfg (s : State) (i : Nat) : Option StreamCfg := if s.boot.phasors.isEmpty then none else (phasorSec s).streams[i]?

/-- R362: the configuration image lists the peer for the stream. -/
def peerListed (s : State) (i : Nat) (peer : BitVec 32) : Bool :=
  match streamCfg s i with
  | some c => c.peers.contains peer
  | none => false

/-- R362, R511: a connection or command of an unlisted peer is ignored with fault 0x620, and dropped as traffic of the port that received
it, which the command does not name: a free value. Otherwise `f` acts. -/
def c37Command (i : Nat) (peer : BitVec 32) (f : State → State) (s : State) : State :=
  if peerListed s i peer then f s else dropSomewhere peer (raise 0x620 i s)

/-- The stream's rate, 0 where it is not configured. -/
def streamFs (s : State) (i : Nat) : Nat := ((streamCfg s i).map (·.fs)).getD 0

/-- R363: TIME_BASE for a rate. -/
def timeBase (fs : Nat) : Nat := if 1200000 % fs = 0 then 1200000 else fs * ((1000000 + fs - 1) / fs)

/-- R363: FORMAT, in the standard's bits (PRESUMED). -/
def formatBits (c : StreamCfg) : Nat := flagAt 3 c.fFreq + flagAt 2 c.fAnalog + flagAt 1 c.fPhasor + flagAt 0 c.polar

/-- R363: what a configuration frame says of a block: FORMAT and the counts of its values. -/
def blockHead (c : StreamCfg) (b : BlockCfg) : List Word :=
  [word (formatBits c), word b.phasors.length, word b.analogs.length]

/-- R362, R363, R365: a header frame (command 3), CFG-2 (5) or CFG-3 (6): the fields the spec names, with IDCODE first, and the rest. -/
def configFrame (s : State) (i cmd : Nat) : List Word :=
  match streamCfg s i with
  | some c =>
    word c.idcode :: (if cmd = 3 then [] else
      [word (timeBase c.fs), word c.fs, word (stream s i).cfgCnt] ++ (capPhasors 512 c.blocks).flatMap (blockHead c))
      ++ Config.c37Text s.boot.phasors i cmd
  | none => []

/-- The port on which a stream's connections stand. -/
def tcpPort (s : State) (i : Nat) : Nat := ((streamCfg s i).map (·.tcpPort)).getD 0

/-- R363: a header frame (kind 1, command 3), CFG-2 (2, 5) or CFG-3 (3, 6). -/
def sendConfig (i kind cmd : Nat) (s : State) : State := emit (.c37 i kind (tcpPort s i) (configFrame s i cmd)) s

/-- C37_CONNECTION_ACCEPT (R362, R511): at the stream's port; traffic to another port is dropped. -/
def execC37ConnectionAccept (stream : Fin 8) (peer : BitVec 32) (port : BitVec 16) (s : State) : Host.Outcome State Fault Refusal :=
  if peerListed s stream peer && tcpPort s stream != port.toNat then .next (dropSomewhere peer s)
  else .next (c37Command stream peer (modStream stream (fun x =>
    { x with peers := if x.peers.contains peer then x.peers else x.peers ++ [peer] })) s)

/-- C37_DATA_OFF (R363). -/
def execC37DataOff (stream : Fin 8) (peer : BitVec 32) (s : State) : Host.Outcome State Fault Refusal :=
  .next (c37Command stream peer (modStream stream (fun x => { x with on := false })) s)

/-- C37_DATA_ON (R363). -/
def execC37DataOn (stream : Fin 8) (peer : BitVec 32) (s : State) : Host.Outcome State Fault Refusal :=
  .next (c37Command stream peer (modStream stream (fun x => { x with on := true })) s)

/-- C37_SEND_HEADER (R363). -/
def execC37SendHeader (stream : Fin 8) (peer : BitVec 32) (s : State) : Host.Outcome State Fault Refusal :=
  .next (c37Command stream peer (sendConfig stream 1 3) s)

/-- C37_SEND_CFG2 (R363). -/
def execC37SendCfg2 (stream : Fin 8) (peer : BitVec 32) (s : State) : Host.Outcome State Fault Refusal :=
  .next (c37Command stream peer (sendConfig stream 2 5) s)

/-- C37_SEND_CFG3 (R363). -/
def execC37SendCfg3 (stream : Fin 8) (peer : BitVec 32) (s : State) : Host.Outcome State Fault Refusal :=
  .next (c37Command stream peer (sendConfig stream 3 6) s)

/-- C37_CFG1_IGNORED (R363): command 4 is ignored, with fault 0x620, whoever sends it. -/
def execC37Cfg1Ignored (stream : Fin 8) (_peer : BitVec 32) (s : State) : Host.Outcome State Fault Refusal :=
  .next (raise 0x620 stream s)

/-- C37_EXTENDED_FRAME_IGNORED (R362, R363): command 8 is ignored; from an unlisted peer it also raises fault 0x620. -/
def execC37ExtendedFrameIgnored (stream : Fin 8) (peer : BitVec 32) (s : State) : Host.Outcome State Fault Refusal :=
  .next (c37Command stream peer id s)

/-! Data frames (R364 to R366). -/

/-- TIM_STATE.BOUND in ns, 0xFFF unknown. -/
def timeBound (s : State) : Nat := getF s timState 35 24

/-- R324: the second is an inserted one. -/
def insertedSecond (s : State) (sec : Nat) : Bool :=
  (getF s timUtc 17 16 == 1 && sec + 1 == leapAt s)
    || (match s.time.leapDone with | some (_, at', del) => !del && sec + 1 == at' | none => false)

/-- R365: SOC; an inserted second carries that of 23:59:59 again. -/
def socOf (s : State) (sec : Nat) : Int := (sec : Int) - offsetAt s sec - (if insertedSecond s sec then 1 else 0)

/-- R365: the message time quality code of the standard whose accuracy covers BOUND. PRESUMED: the standard's table. -/
def messageQuality (b : Nat) : Nat :=
  if b = 0xFFF then 15 else if b = 0 then 0 else if b ≤ 1 then 1 else if b ≤ 10 then 2 else if b ≤ 100 then 3
  else if b ≤ 1000 then 4 else 5

/-- R365: the PMU time quality code of the standard that covers BOUND. PRESUMED: the standard's table. -/
def pmuQuality (b : Nat) : Nat := if b = 0xFFF then 7 else if b ≤ 100 then 1 else if b ≤ 1000 then 2 else 3

/-- R365: the unlocked time in the standard's bands of 10 s, 100 s and 1,000 s. PRESUMED: the standard's table. -/
def unlockedBand (s : State) : Nat :=
  if isLock (timeCode s) then 0
  else match s.time.lockLeft with
    | some a => if s.now - a < secTicks 10 then 0 else if s.now - a < secTicks 100 then 1
        else if s.now - a < secTicks 1000 then 2 else 3
    | none => 3

/-- R365: leap bits of FRACSEC: direction, occurred, pending. -/
def leapBits (s : State) : Nat :=
  let pend := getF s timUtc 17 16 != 0 && decide (leapAt s ≤ s.time.sec + 60)
  let occ := match s.time.leapDone with | some (t, _, _) => decide (s.now < t + secTicks 86400) | none => false
  let del := if getF s timUtc 17 16 = 0 then (match s.time.leapDone with | some (_, _, d) => occ && d | none => false)
    else getF s timUtc 17 16 == 2
  (if pend then 1 else 0) + (if occ then 2 else 0) + (if del then 4 else 0)

/-- R365: STAT of a PMU block. -/
def statWord (s : State) (i : Nat) (valid : Bool) (trig : Nat) : Word :=
  let synced := isLock (timeCode s) || (timeCode s == 7 && timeBound s ≤ 1000)
  word ((if !valid then 3 * 2 ^ 14 else if s.mst == .bench then 2 * 2 ^ 14 else 0) + (if synced then 0 else 2 ^ 13)
    + slice trig 11 11 * 2 ^ 11 + (if (stream s i).armedAt || s.now < (stream s i).chgUntil then 2 ^ 10 else 0)
    + pmuQuality (timeBound s) * 2 ^ 6 + unlockedBand s * 2 ^ 4 + trig % 16)

/-- R365, R366: the words of a data frame of second `sec`, index `j`: SOC, FRACSEC with its quality, and each block. -/
def dataFrame (s : State) (i sec j : Nat) (bs : List (Bool × Nat × List Word)) : List Word :=
  let fs := streamFs s i
  let frac := (leapBits s * 16 + messageQuality (timeBound s)) * 2 ^ 24 + (if fs = 0 then 0 else j * timeBase fs / fs) % 2 ^ 24
  [wordI (socOf s sec), word frac] ++ bs.flatMap fun b => statWord s i b.1 b.2.1 :: b.2.2

/-- R368: the travelling-wave block of an arrival source: zero words, not valid, before its first report. -/
def waveBlock (s : State) (k : Nat) : List Word :=
  match s.c37.arrivals.find? (·.1 == k) with
  | some (_, a) =>
    [word (2 ^ 15 + a.phases * 2 ^ 12 + a.seq), word ((socOf s a.sec % 65536).toNat), word (a.ns64 / 64 / 65536 % 65536),
     word (a.ns64 / 64 % 65536)]
  | none => [0, 0, 0, 0]

/-- R363 to R365, R368: the block's validity, its trigger and its words; none while a record it carries is not yet written. -/
def blockData (s : State) (c : StreamCfg) (sec j : Nat) (b : BlockCfg) (r : BlockRes) : Option (Bool × Nat × List Word) :=
  match b.analogs.mapM (analogAt s c.fs sec j) with
  | none => none
  | some as =>
    some (r.phasors.all (·.valid) && r.freqValid && as.all (·.1), r.trigger,
      (b.phasors.zip r.phasors).flatMap (phasorFields c b) ++ freqFields c b r ++ as.map (fun a => analogField c a.1 a.2.1 a.2.2)
        ++ r.digitals.map (fun d => d.setWidth 36) ++ (match b.wave with | some k => waveBlock s k | none => []))

/-- The plan's results of a reporting instant, by block. -/
def blockResults (s : State) (i sec j : Nat) : Option (List BlockRes) :=
  if s.boot.phasors.isEmpty then none else Config.c37Results s.boot.phasors i s.mem sec j

/-- R366: the blocks of a reporting instant, once every result is written; at most 512 phasors (R362). -/
def frameData (s : State) (i sec j : Nat) : Option (List (Bool × Nat × List Word)) :=
  match streamCfg s i, blockResults s i sec j with
  | some c, some rs => ((capPhasors 512 c.blocks).zip rs).mapM fun x => blockData s c sec j x.1 x.2
  | _, _ => none

/-- R360: the phasor configurations whose results of a reporting instant are invalid. -/
def invalidConfigs (rs : List BlockRes) : List Nat :=
  rs.flatMap fun r => ((r.phasors.filter (!·.valid)).map (·.config)) ++ (if r.freqValid then [] else [r.freqConfig])

/-- R360: an invalid result raises fault 0x610, once a day for its configuration. -/
def noteInvalid (k : Nat) (s : State) : State :=
  if tabGet 0 s.c37.invalid k = s.day.n + 1 then s
  else raise 0x610 (((phasorSec s).configs[k]?.map (·.chan)).getD 0 % 2048)
    { s with c37 := { s.c37 with invalid := tabSet 0 s.c37.invalid k (s.day.n + 1) } }

/-- R360: the invalid results that stand now, in a stream or in none. -/
def noteResults (s : State) : State :=
  if s.boot.phasors.isEmpty then s
  else (Config.invalidResults s.boot.phasors s.mem s.time.sec s.time.ns64).foldl (fun t k => noteInvalid k t) s

/-- R362: data frames of the stream are sent: over its connections after command 2, or spontaneously. -/
def streamSends (s : State) (i : Nat) : Bool := (stream s i).on || ((streamCfg s i).map (·.udp)).getD false

/-- R362: a data frame leaves with its IDCODE, over TCP (kind 0) and over UDP (kind 0x20). -/
def sendData (i : Nat) (ws : List Word) (s : State) : State :=
  match streamCfg s i with
  | some c =>
    let t := if (stream s i).on then emit (.c37 i 0 c.tcpPort (word c.idcode :: ws)) s else s
    if c.udp then emit (.c37 i 0x20 c.udpPort (word c.idcode :: ws)) t else t
  | none => s

/-- The clock is at t_r + `n`/Fs or later. -/
def pastFrames (s : State) (fs sec j n : Nat) : Bool := (sec * fs + j + n) * nsWrap ≤ (s.time.sec * nsWrap + s.time.ns64) * fs

/-- R360: the invalid results of a reporting instant. -/
def noteInstant (i sec j : Nat) (s : State) : State :=
  (invalidConfigs ((blockResults s i sec j).getD [])).foldl (fun t k => noteInvalid k t) s

/-- C37_DATA_FRAME_SEND (R360, R362 to R366, R368): before t_r + 5/Fs, once the results are complete; an invalid one raises its fault
whether the frame is sent or not. -/
def execC37DataFrameSend (stream : Fin 8) (sec j : Nat) (s : State) : Host.Outcome State Fault Refusal :=
  match frameData s stream sec j with
  | some bs =>
    if streamSends s stream && !pastFrames s (streamFs s stream) sec j 5 then
      .next (sendData stream (dataFrame s stream sec j bs) (noteInstant stream sec j s))
    else .next (noteInstant stream sec j s)
  | none => .next s

/-- C37_FRAME_TIMEOUT (R366): a frame incomplete at t_r + 5/Fs is not sent. -/
def execC37FrameTimeout (stream : Fin 8) (sec j : Nat) (s : State) : Host.Outcome State Fault Refusal :=
  if streamSends s stream && (frameData s stream sec j).isNone && pastFrames s (streamFs s stream) sec j 5 then
    .next (raise 0x621 stream s)
  else .next s

/-- R365: an online change that alters a stream is armed. -/
def armStreams (change : List Word) (s : State) : State :=
  forUpto 8 (fun i s =>
    if (Config.phasorSection change).streams[i]? = streamCfg s i then s else modStream i (fun x => { x with armedAt := true }) s) s

/-- R365: it is activated, at the midnight of day A: CFG_CNT rises, and STAT bit 10 stays for 60 s. -/
def activateStreams (s : State) : State :=
  forUpto 8 (fun i s => if (stream s i).armedAt then
    modStream i (fun x => { x with armedAt := false, cfgCnt := (x.cfgCnt + 1) % 65536, chgUntil := s.now + secTicks 60 }) s
    else s) s

/-! Remote streams (R367). -/

/-- R367: remote stream `r`, if it is configured. -/
def remoteCfg (s : State) (r : Nat) : Option RemoteCfg := if s.boot.phasors.isEmpty then none else (phasorSec s).remotes[r]?

/-- The rate of the phasors combined with a remote stream, 0 where it is not configured. -/
def remoteFs (s : State) (r : Nat) : Nat := ((remoteCfg s r).map (·.fs)).getD 0

/-- A request to a remote stream's peer. -/
def askRemote (r kind : Nat) (s : State) : State := emit (.c37 r kind (((remoteCfg s r).map (·.port)).getD 0) []) s

/-- R367: CFG-2 is requested. -/
def requestCfg2 (r : Nat) (s : State) : State := askRemote r 0x10 (modRemote r (fun x => { x with askedAt := s.now }) s)

/-- REMOTE_CFG2_RECEIVE (R367): command 2 follows; a changed CFG-2 raises fault 0x622 and is requested again. -/
def execRemoteCfg2Receive (r : Fin 16) (cfgCnt : Nat) (fmt : BitVec 4) (s : State) : Host.Outcome State Fault Refusal :=
  if remoteFs s r = 0 then .next s
  else
    let changed := match (remote s r).cfgCnt with | some c => c != cfgCnt | none => false
    let s := modRemote r (fun x => { x with cfgCnt := some cfgCnt, fmt := fmt, validAt := s.now, lost := changed }) s
    .next (if changed then raise 0x622 r s else askRemote r 0x11 s)

/-- R367: the address of the ring's record of a reporting instant, for records of `n` words. -/
def remoteAddr (c : RemoteCfg) (sec j n : Nat) : Nat := c.ring + (sec * c.fs + j) % Nat.max c.records 1 * n

/-- R369, R370: the phasors, arrivals and result of line `k` at the instant of a remote frame, where the plan asks for them. -/
def locate (r : Nat) (far : List (Word × Word)) (f : RemoteData) (k : Nat) (l : LineCfg) (s : State) : State :=
  if l.remote ≠ r ∨ Config.flocAsked s.boot.phasors k s.mem f.sec f.index = false then s
  else match blockResults s l.stream f.sec f.index with
    | none => s
    | some rs =>
      let near := ((rs[l.block]?.map (·.phasors)).getD []).map fun p => (p.re, p.im)
      let q := floc l (l.near.map (near.getD · (0, 0))) (l.far.map (far.getD · (0, 0)))
        (arrivalGap (s.c37.arrivals.find? (·.1 == l.wave)) (fun a => socOf s a.sec) l.farWave f.digitals)
      let s := mWrites l.engine l.record (flocRecord q l s.fresh) { s with fresh := s.fresh + 2 }
      match q.fault with
      | some c => raise c (l.stream % 16) s
      | none => s

/-- R367, R369, R370: an accepted frame's values go to the stream's ring; a marked value raises 0x623. -/
def takeRemote (r : Nat) (c : RemoteCfg) (f : RemoteData) (s : State) : State :=
  let bad := f.dataError != 0 || decide (4 < f.quality.toNat)
  let vs := remoteValues c (remote s r).fmt f s.fresh
  let ws := Config.remoteRecord s.boot.phasors r bad vs
  let far := farPhasors c (remote s r).fmt f s.fresh
  let s := { modRemote r (fun x => { x with validAt := s.now }) s with fresh := s.fresh + 256 + f.others.length }
  let s := mWrites 1024 (remoteAddr c f.sec f.index ws.length) ws s
  let s := if bad then raise 0x623 r s else s
  ((phasorSec s).lines.mapIdx fun k l => (k, l)).foldl (fun t x => locate r far f x.1 x.2 t) s

/-- REMOTE_DATA_FRAME_RECEIVE (R31, R113, R367, R369, R370): the frame's words are written once their points are free. -/
def execRemoteDataFrameReceive (r : Fin 16) (f : RemoteData) (s : State) : Host.Outcome State Fault Refusal :=
  match remoteCfg s r with
  | none => .next s
  | some c =>
    if c.fs = 0 ∨ (remote s r).cfgCnt ≠ some f.cfgCnt ∨ f.rate ≠ c.fs then .next s
    else .next (ifFree 1024 r (takeRemote r c f) s)

/-- REMOTE_STREAM_LOST (R367): no valid frame for 3/Fs. -/
def execRemoteStreamLost (r : Fin 16) (s : State) : Host.Outcome State Fault Refusal :=
  let x := remote s r
  if remoteFs s r ≠ 0 ∧ x.cfgCnt.isSome ∧ x.lost = false ∧ x.validAt + 750000000 / remoteFs s r ≤ s.now then
    .next (raise 0x622 r (modRemote r (fun x => { x with lost := true }) s))
  else .next s

/-- REMOTE_CFG2_REREQUEST (R367): once per second while no CFG-2 stands. -/
def execRemoteCfg2Rerequest (r : Fin 16) (s : State) : Host.Outcome State Fault Refusal :=
  let x := remote s r
  if remoteFs s r ≠ 0 ∧ (x.lost = true ∨ x.cfgCnt.isNone) ∧ (x.askedAt = 0 ∨ x.askedAt + secTicks 1 ≤ s.now) then
    .next (requestCfg2 r s)
  else .next s

end Sys2Proof.Machine
end

