-- ==== Sys2Proof/Machine/Plan.lean ====
section
/-! DEFINITION. The plan image: its checks in the loader's order (R118, R161 to R169, R202, R203), the day table's (R171, R175,
R179, R180), and what loading one writes (R161 to R168, R221). -/

namespace Sys2Proof.Machine

/-! Words of an image. -/

/-- A word of an image as a number; beyond its end, 0. -/
def wordAt (img : List Word) (i : Nat) : Nat := (img.getD i 0).toNat

/-- R162: the directory: type, first word and length of each section. -/
def planDir (img : List Word) : List (Nat × Nat × Nat) :=
  (List.range (wordAt img 4)).map fun i => (wordAt img (16 + 3 * i), wordAt img (17 + 3 * i), wordAt img (18 + 3 * i))

/-- The words of a section; an absent one has none. -/
def planSection (img : List Word) (ty : Nat) : List Word :=
  match (planDir img).find? (·.1 == ty) with
  | some d => (img.drop d.2.1).take d.2.2
  | none => []

/-- A refusal: the fault code and its detail word. -/
abbrev Refuse := Option (Nat × Nat)

/-- The first refusal of a list of checks. -/
def firstOf (l : List Refuse) : Refuse := l.findSome? id

/-- A check that must hold, and the fault where it does not. -/
def must (ok : Bool) (code detail : Nat) : Refuse := if ok then none else some (code, detail)

/-! The header and the directory (R161, R162). -/

/-- R161 but for the timing table identity and the check code. -/
def headerOk (img : List Word) : Bool :=
  wordAt img 0 == 1 && wordAt img 3 == wordAt img 2 * 250 && 1 ≤ wordAt img 4 && wordAt img 4 ≤ 16
    && wordAt img 5 == img.length && 16 ≤ img.length && (List.range 4).all fun i => wordAt img (11 + i) == 0

/-- R161: the CRC-32 of the image with word 15 counted as zero. -/
def checkCodeOk (img : List Word) : Bool := img.getD 15 0 == crcOf (listSet img 15 0)

/-- R162: a section stands after the directory and within the image. -/
def sectionInside (img : List Word) (d : Nat × Nat × Nat) : Bool :=
  16 + 3 * wordAt img 4 ≤ d.2.1 && d.2.1 + d.2.2 ≤ img.length

/-- R162: two sections share no word. -/
def sectionsApart (a b : Nat × Nat × Nat) : Bool :=
  a.2.2 == 0 || b.2.2 == 0 || a.2.1 + a.2.2 ≤ b.2.1 || b.2.1 + b.2.2 ≤ a.2.1

/-- Whether a relation holds between each element of a list and every later one. -/
def pairwiseOk {α : Type} (r : α → α → Bool) : List α → Bool
  | [] => true
  | a :: t => t.all (r a) && pairwiseOk r t

/-- R162. -/
def directoryOk (img : List Word) : Bool :=
  let ds := planDir img
  16 + 3 * wordAt img 4 ≤ img.length && ds.all (fun d => 1 ≤ d.1 && d.1 ≤ 7 && sectionInside img d)
    && pairwiseOk (fun a b => a.1 != b.1 && sectionsApart a b) ds
    && [1, 2, 4, 5].all fun ty => ds.any (·.1 == ty)

/-! The engine table (R163, R202, R203). -/

/-- An entry of the engine table. -/
structure EngEntry where
  role : Nat
  split : Bool
  d : Nat
  rate : Nat
  len : Nat
  start : Nat
  clean : Bool
deriving DecidableEq, Repr

/-- R163: engine `e`'s entry; `clean` says that its zero fields are zero. -/
def engEntry (tab : List Word) (e : Nat) : EngEntry :=
  let a := wordAt tab (2 * e)
  let b := wordAt tab (2 * e + 1)
  { role := slice a 35 33, split := slice a 32 32 == 1, d := slice a 31 28, rate := slice a 27 25, len := slice a 24 12,
    start := slice b 27 0, clean := slice a 11 0 == 0 && b < 2 ^ 28 }

/-- R163: the pair is loaded. -/
def pairLoaded (tab : List Word) (k : Nat) : Bool := (engEntry tab (2 * k)).role != 0 || (engEntry tab (2 * k + 1)).role != 0

/-- R202: the pair is joined. -/
def pairJoined (tab : List Word) (k : Nat) : Bool := pairLoaded tab k && !(engEntry tab (2 * k)).split

/-- R202: an engine trails a joined pair of the table. -/
def trailsIn (tab : List Word) (e : Nat) : Bool := e % 2 == 1 && pairJoined tab (e / 2)

/-- R163: one entry. -/
def entryOk (x : EngEntry) : Bool :=
  x.clean && x.role ≤ 3 && x.len ≤ 4096 && (x.role != 0 || (x.len == 0 && x.d == 0))

/-- R202, R203: the rules of a pair that is loaded. -/
def pairOk (tab : List Word) (k : Nat) : Bool :=
  let a := engEntry tab (2 * k)
  let b := engEntry tab (2 * k + 1)
  !pairLoaded tab k || (a.split == b.split &&
    (if a.split then a.d == 0 && b.d == 0 && a.role != 3 && b.role != 3
     else 2 ≤ a.d && b.len == 0 && b.d == 0 && b.start == 0 && b.role == a.role && b.rate == a.rate))

/-- The engine table: the first entry or pair that breaks a rule. -/
def tableCheck (tab : List Word) : Refuse :=
  firstOf [must (tab.length == 2048) 0x123 0,
    ((List.range 1024).find? fun e => !entryOk (engEntry tab e)).map fun e => (0x123, e),
    ((List.range 512).find? fun k => !pairOk tab k).map fun k => (0x123, 2 * k)]

/-! The plan code (R118). -/

/-- Where a static scan of a plan stands: the open loop bodies, innermost first, as their end and count, and the open bracket
as its count and the depth at which it opened. -/
structure Scan where
  loops : List (Nat × Nat) := []
  lock : Option (Nat × Nat) := none
deriving DecidableEq, Repr

/-- How often an instruction of the bracket executes: the counts of the bodies opened inside it. -/
def Scan.times (c : Scan) (depth : Nat) : Nat := ((c.loops.take (c.loops.length - depth)).map (·.2)).prod

/-- Bodies that end before plan word `i` are closed. -/
def Scan.close (i : Nat) (c : Scan) : Scan := { c with loops := c.loops.dropWhile (·.1 == i) }

/-- R114: an instruction inside an open bracket counts. -/
def Scan.count (c : Scan) : Scan :=
  match c.lock with
  | some (n, d) => { c with lock := some (n + c.times d, d) }
  | none => c

/-- R103, R105, R114: the bracket is within its count and within the bodies open. -/
def Scan.sound (c : Scan) : Bool :=
  match c.lock with
  | some (n, d) => n ≤ 32 && d ≤ c.loops.length
  | none => true

/-- R101, R103: a LOOP at plan word `i` opens a body. -/
def Scan.loop (i len : Nat) (f : ImmForm) (c : Scan) : Option Scan :=
  let fin := i + 2 + f.imm.toNat % 64
  if c.loops.length < 4 && fin ≤ len && (match c.loops with | l :: _ => fin ≤ l.1 | [] => true) then
    some { c with loops := (fin, f.imm.toNat / 64 + 1) :: c.loops }
  else none

/-- R105, R114: an instruction at plan word `i` of a plan of `len` words. -/
def Scan.step (i len : Nat) (x : Instr) (c : Scan) : Option Scan :=
  match x with
  | .loop _ f => c.count.loop i len f
  | .lock _ _ => if c.lock.isNone then some { c with lock := some (1, c.loops.length) } else none
  | .unlock _ _ =>
    match c.lock with
    | some (n, d) => if n + 1 ≤ 32 && d = c.loops.length then some { c with lock := none } else none
    | none => some c
  | .waitt _ _ | .done _ _ => if c.loops.isEmpty && c.lock.isNone then some c else none
  | .waitev _ _ => if c.lock.isNone then some c else none
  | _ => some c.count

/-- R118: the last instruction is a DONE with p0 and sense 0. -/
def isFinalDone (w : Word) : Bool :=
  match decodeWord 0 w with
  | some (.done _ f) => f.pred == 0 && !f.neg
  | _ => false

/-- R118: the first plan word, from `i` on, at which a plan breaks a rule. -/
def scanPlan (len : Nat) : Nat → Scan → List Word → Option Nat
  | i, _, [] => some i
  | i, c, w :: t =>
    let c := c.close i
    if !planWordOk w || !c.sound then some i
    else match (decodeWord 0 w).bind fun x => Scan.step i len x c with
      | none => some i
      | some c => if t.isEmpty then (if isFinalDone w && c.sound then none else some i) else if c.sound then scanPlan len (i + 1) c t else some i

/-- R164: the plan of engine `e` in the plan code section. -/
def planOf (tab code : List Word) (e : Nat) : List Word :=
  (code.drop ((List.range e).map fun x => (engEntry tab x).len).sum).take (engEntry tab e).len

/-- R118, R164: the plan code. -/
def codeCheck (tab code : List Word) : Refuse :=
  firstOf (must (code.length == ((List.range 1024).map fun x => (engEntry tab x).len).sum) 0x180 0 ::
    (List.range 1024).map fun e =>
      if (engEntry tab e).len = 0 then none
      else (scanPlan (engEntry tab e).len 0 {} (planOf tab code e)).map fun i => (0x180, detailEngine e i))

/-! Initial data (R165). -/

/-- R165: the records: target and words; none where a record runs beyond the section. -/
def initRecords : Nat → List Word → Option (List (Nat × List Word))
  | 0, _ => some []
  | _ + 1, [] => some []
  | n + 1, a :: c :: t =>
    if c.toNat ≤ t.length then (initRecords n (t.drop c.toNat)).map fun r => (a.toNat, t.take c.toNat) :: r else none
  | _ + 1, [_] => none

/-- R165: a word initial data may target. -/
def initTarget (tab : List Word) (a : Nat) : Bool :=
  isShared a || (isLocal a && !trailsIn tab ((a - 0x01000000) / 0x2000)) || (0x03008400 ≤ a && a ≤ 0x0300FFFF)

/-- R165. -/
def initCheck (tab init : List Word) : Refuse :=
  match initRecords init.length init with
  | some rs => must (rs.all fun r => (List.range r.2.length).all fun i => initTarget tab (r.1 + i)) 0x123 0
  | none => some (0x123, 0)

/-! Reservations (R144, R166, R167). -/

/-- A reservation entry. -/
structure Resv where
  kind : Nat
  owner : Nat
  num : Nat
  first : Nat
  last : Nat
  clean : Bool
deriving DecidableEq, Repr

/-- R166: the entries of a section. -/
def resvEntries (ws : List Word) : List Resv :=
  (List.range (ws.length / 3)).map fun i =>
    let a := wordAt ws (3 * i)
    { kind := slice a 35 33, owner := slice a 32 22, num := slice a 11 0, first := wordAt ws (3 * i + 1),
      last := wordAt ws (3 * i + 2), clean := slice a 21 12 == 0 }

/-- R166: a channel number names an injection channel, the hub link or a link of the mesh. -/
def channelOk (n : Nat) : Bool :=
  n ≤ 64 || (128 ≤ n && n < 384 &&
    let c := (n - 128) / 4
    match n % 4 with
    | 0 => c % 8 < 7
    | 1 => 0 < c % 8
    | 2 => c / 8 < 7
    | _ => 0 < c / 8)

/-- R167: an entry of a section, of points or of channels. -/
def resvOk (tab : List Word) (ticks : Nat) (points : Bool) (r : Resv) : Bool :=
  let loaded := r.owner < 1024 && (engEntry tab r.owner).role != 0 && !trailsIn tab r.owner
  r.clean && 1 ≤ r.kind && r.kind ≤ 3 && r.first < 2 ^ 28 && r.last < 2 ^ 28 && r.first < ticks && r.last < ticks
    && (if points then r.num ≤ 1106 else channelOk r.num)
    && (if r.kind = 1 then r.last == r.first + (if points then 1 else 0) else r.first ≤ r.last)
    && (if r.kind = 3 then r.owner == 2047 else loaded)

/-- R144, R180: the divisor and offset of the days on which a reservation applies. -/
def resvRate (tab dayTab : List Word) (r : Resv) : Nat × Nat :=
  if r.kind = 3 then (1, 0)
  else let w := wordAt dayTab (6 + (engEntry tab r.owner).rate); (slice w 11 0, slice w 23 12)

/-- R144: two reservations on one point or channel share no tick of a day on which both apply. -/
def resvApart (tab dayTab : List Word) (a b : Resv) : Bool :=
  let x := resvRate tab dayTab a
  let y := resvRate tab dayTab b
  a.num != b.num || a.last < b.first || b.last < a.first || x.1 == 0 || y.1 == 0
    || x.2 % Nat.gcd x.1 y.1 != y.2 % Nat.gcd x.1 y.1

/-- R144, R166, R167: a section of reservations. -/
def resvCheck (tab dayTab : List Word) (ticks : Nat) (points : Bool) (ws : List Word) : Refuse :=
  let rs := resvEntries ws
  must (ws.length % 3 == 0 && rs.all (resvOk tab ticks points) && pairwiseOk (resvApart tab dayTab) rs) 0x122 0

/-! Event bindings and telemetry settings (R168). -/

/-- R108, R168: a source that may be bound. -/
def bindable (src : Nat) : Bool := src ≤ 0x0917 || src == 0x0920 || src == 0x0921 || src == 0x0B00

/-- R168: the source and the engine of a binding. -/
def bindSrc (w : Word) : Nat := slice w.toNat 35 20
def bindEng (w : Word) : Nat := slice w.toNat 9 0

/-- R168: a binding, after those before it. -/
def bindCheck (tab : List Word) (before : List Word) (w : Word) : Refuse :=
  let e := bindEng w
  firstOf [must (slice w.toNat 19 10 == 0 && bindable (bindSrc w) && !before.any (fun b => bindSrc b == bindSrc w)) 0x120 0,
    must ((engEntry tab e).role != 0 && !trailsIn tab e) 0x123 e]

/-- R168: the bindings in order, a malformed one before an engine that may not be named (DESIGN CHOICE, log entry 157). -/
def bindsCheck (tab ws : List Word) : Refuse :=
  firstOf ((List.range ws.length).map fun i => bindCheck tab (ws.take i) (ws.getD i 0))

/-! The checks in the loader's order (R169). -/

/-- R169: the one refusal of an image, under a day table. -/
def planCheck (dayTab img : List Word) : Refuse :=
  let tab := planSection img 1
  let ticks := wordAt img 3
  firstOf [must (headerOk img) 0x120 0, must (wordAt img 1 == 1) 0x121 0, must (checkCodeOk img) 0x124 0,
    must (directoryOk img) 0x120 0, tableCheck tab, codeCheck tab (planSection img 2), initCheck tab (planSection img 3),
    resvCheck tab dayTab ticks true (planSection img 4), resvCheck tab dayTab ticks false (planSection img 5),
    bindsCheck tab (planSection img 6),
    must (!(planDir img).any (·.1 == 7) || (planSection img 7).length == 3) 0x120 0]

/-! The day table (R171, R175, R179, R180). -/

/-- R175: the lengths of the phases against their least, the Dawn and Dusk budgets of the segments apart. -/
def phasesOk (t : List Word) (ticks : Nat) : Bool :=
  let p (k : Nat) : Nat := if k = 0 then 0 else if k = 6 then ticks else wordAt t k
  let len (k least : Nat) : Bool := p k + least ≤ p (k + 1)
  len 0 2500 && len 1 250 && len 2 250 && len 3 (500 + (wordAt t 14 + 1) / 2) && len 4 2500
    && len 5 (500 + (wordAt t 15 + 127) / 128)

/-- R180: rate entry `k`. -/
def rateOk (q k w : Nat) : Bool :=
  let m := slice w 11 0
  let o := slice w 23 12
  w < 2 ^ 24 && (if m = 0 then o == 0 && k != 0 else q % m == 0 && o < m && (k != 0 || (m == 1 && o == 0)))

/-- R171, R175, R179, R180: the day table is valid, with zeros above every stated field (DESIGN CHOICE, log entry 161). -/
def dayTableOk (t : List Word) : Bool :=
  let l := wordAt t 0
  t.length == 16 && 250 ≤ l && l ≤ 1000000 && 1000000 % l == 0 && (List.range 5).all (fun k => wordAt t (k + 1) < 2 ^ 28)
    && phasesOk t (l * 250) && (List.range 8).all (fun k => rateOk (1000000 / l) k (wordAt t (k + 6)))
    && wordAt t 14 < 2 ^ 24 && wordAt t 15 < 2 ^ 25

/-- R163, R180, R181: every engine of a loaded pair names a used rate, and a safety or event engine rate 0. -/
def ratesOk (t tab : List Word) : Bool :=
  (List.range 1024).all fun e =>
    let x := engEntry tab e
    !pairLoaded tab (e / 2) || (slice (wordAt t (6 + x.rate)) 11 0 != 0 && (x.role ≤ 1 || x.rate == 0))

/-! Loading (R161 to R168, R221). -/

/-- Words written from `a` on, in order. -/
def writeRun (f : Nat → Word → State → State) (a : Nat) (ws : List Word) (s : State) : State :=
  (ws.mapIdx fun i w => (a + i, w)).foldl (fun t x => f x.1 x.2 t) s

/-- R163: engine `e`'s entry takes effect; a pair that is not loaded leaves both engines idle. -/
def loadEntry (tab : List Word) (e : Nat) (s : State) : State :=
  let x := engEntry tab e
  if !pairLoaded tab (e / 2) then modEngine e (fun y => { y with role := 0, split := false, dly := 0, rate := 0, len := 0, rest := .idle }) s
  else
    let l := engEntry tab (if pairJoined tab (e / 2) then e / 2 * 2 else e)
    modEngine e (fun y => { y with role := x.role, split := x.split, dly := l.d, rate := l.rate, len := l.len, start := l.start }) s

/-- R164: engine `e`'s plan memory; a trailing engine of a joined pair receives its leading engine's plan. -/
def loadPlanMem (tab code : List Word) (e : Nat) (s : State) : State :=
  writeRun (fun a v s => memSet s a v) (0x02000000 + e * 0x1000) (planOf tab code (if trailsIn tab e then e - 1 else e)) s

/-- R165: one word of initial data; the local data of a joined pair's leading engine goes to both. -/
def initWord (tab : List Word) (a : Nat) (v : Word) (s : State) : State :=
  if isVoted a then tsWrite (a % 0x10000) v s
  else
    let e := (a - 0x01000000) / 0x2000
    let s := memSet s a v
    if isLocal a && e % 2 == 0 && pairJoined tab (e / 2) then memSet s (a + 0x2000) v else s

/-- R165: the initial data. -/
def loadInit (tab init : List Word) (s : State) : State :=
  ((initRecords init.length init).getD []).foldl (fun t r => writeRun (initWord tab) r.1 r.2 t) s

/-- R202, R203: the composition of pair `k` under a table, with its comparator armed where it is joined. -/
def loadPair (tab : List Word) (k : Nat) (s : State) : State :=
  setPair s k { joined := pairJoined tab k, d := if pairJoined tab k then (engEntry tab (2 * k)).d else 0,
                safety := pairLoaded tab k && ((engEntry tab (2 * k)).role == 3 || (engEntry tab (2 * k + 1)).role == 3),
                armed := pairJoined tab k }

/-- R161, R222: the plan identity, in FAB_PLAN and in the store header with the layout version. -/
def loadIdentity (img : List Word) (s : State) : State :=
  forUpto 4 (fun i s => tsWrite (4 + i) (img.getD (6 + i) 0) (setReg s (fabPlan + i) (img.getD (6 + i) 0))) (tsWrite 0 1 s)

/-- R168: the telemetry settings. -/
def loadTelemetry (ws : List Word) (s : State) : State :=
  if ws.length = 3 then writePlain fabCtrl (ws.getD 2 0) (writePlain fabSpdTh (ws.getD 1 0) (writePlain fabSlkTh (ws.getD 0 0) s))
  else s

/-- R166, R168: the bindings and the reservations of a plan. -/
def loadTables (img : List Word) (s : State) : State :=
  loadTelemetry (planSection img 7)
    { s with bindings := (planSection img 6).map fun w => (bindSrc w, bindEng w),
             boot := { s.boot with plan := img, pointResv := planSection img 4, chanResv := planSection img 5 } }

/-- R161 to R168, R221: a whole plan image is loaded. -/
def loadPlan (img : List Word) (s : State) : State :=
  let tab := planSection img 1
  let s := forUpto 1024 (fun e s => loadPlanMem tab (planSection img 2) e (loadEntry tab e s)) s
  loadTables img (loadInit tab (planSection img 3) (loadIdentity img (forUpto 512 (loadPair tab) s)))

end Sys2Proof.Machine
end

