-- ==== Sys2Proof/Machine/Sha.lean ====
section
/-! DEFINITION. SHA-384 (FIPS 180-4), which R469 takes over the payload octets of a container. -/

namespace Sys2Proof.Machine

/-- The primes below 410, of which there are 80. -/
def shaPrimes : List Nat := (List.range 410).filter fun n => 1 < n && (List.range 21).all fun d => d < 2 || n ≤ d || n % d != 0

/-- The whole part of the `k`-th root of `n`, a number of at most 68 bits, found bit by bit from the top. -/
def wholeRoot (k n : Nat) : Nat :=
  (List.range 68).foldl (fun r i => if (r + 2 ^ (67 - i)) ^ k ≤ n then r + 2 ^ (67 - i) else r) 0

/-- The first 64 bits of the fraction of the `k`-th root of a prime. -/
def rootFraction (k p : Nat) : BitVec 64 := BitVec.ofNat 64 (wholeRoot k (p * 2 ^ (64 * k)))

/-- The round constants: of the cube roots of the first 80 primes. -/
def shaK : List (BitVec 64) := shaPrimes.map (rootFraction 3)

/-- The initial hash value: of the square roots of the ninth to the sixteenth prime. -/
def shaInit : List (BitVec 64) := ((shaPrimes.drop 8).take 8).map (rootFraction 2)

/-- The four mixing functions of rotations and shifts. -/
def shaBig0 (x : BitVec 64) : BitVec 64 := x.rotateRight 28 ^^^ x.rotateRight 34 ^^^ x.rotateRight 39
def shaBig1 (x : BitVec 64) : BitVec 64 := x.rotateRight 14 ^^^ x.rotateRight 18 ^^^ x.rotateRight 41
def shaSmall0 (x : BitVec 64) : BitVec 64 := x.rotateRight 1 ^^^ x.rotateRight 8 ^^^ (x >>> 7)
def shaSmall1 (x : BitVec 64) : BitVec 64 := x.rotateRight 19 ^^^ x.rotateRight 61 ^^^ (x >>> 6)

/-- The schedule words after the block's 16, `n` of them; the list is newest first. -/
def shaSchedule : Nat → List (BitVec 64) → List (BitVec 64)
  | 0, w => w
  | n + 1, w => shaSchedule n
      ((shaSmall1 (w.getD 1 0) + w.getD 6 0 + shaSmall0 (w.getD 14 0) + w.getD 15 0) :: w)

/-- One round on the eight working variables. -/
def shaRound (v : List (BitVec 64)) (kw : BitVec 64) : List (BitVec 64) :=
  match v with
  | [a, b, c, d, e, f, g, h] =>
    let t1 := h + shaBig1 e + ((e &&& f) ^^^ (~~~e &&& g)) + kw
    let t2 := shaBig0 a + ((a &&& b) ^^^ (a &&& c) ^^^ (b &&& c))
    [t1 + t2, a, b, c, d + t1, e, f, g]
  | _ => v

/-- One block of 16 words. -/
def shaBlock (h blk : List (BitVec 64)) : List (BitVec 64) :=
  let w := (shaSchedule 64 blk.reverse).reverse
  List.zipWith (· + ·) h ((List.zipWith (· + ·) shaK w).foldl shaRound h)

/-- The number that octets spell, most significant first. -/
def octetNat (os : List Nat) : Nat := os.foldl (fun v o => v * 256 + o) 0

/-- Octets as words of eight, most significant first. -/
def shaWords (os : List Nat) : List (BitVec 64) :=
  (List.range (os.length / 8)).map fun i => BitVec.ofNat 64 (octetNat ((os.drop (8 * i)).take 8))

/-- The blocks in turn; `n` bounds their number. -/
def shaBlocks : Nat → List (BitVec 64) → List (BitVec 64) → List (BitVec 64)
  | 0, h, _ => h
  | n + 1, h, ws => if ws.isEmpty then h else shaBlocks n (shaBlock h (ws.take 16)) (ws.drop 16)

/-- The octets with the padding of FIPS 180-4. -/
def shaPad (os : List Nat) : List Nat :=
  let z := (239 - os.length % 128) % 128
  os ++ [0x80] ++ List.replicate z 0 ++ (List.range 16).map fun i => os.length * 8 / 2 ^ (120 - 8 * i) % 256

/-- SHA-384 of octets, as a number of 384 bits. -/
def sha384 (os : List Nat) : Nat :=
  let ws := shaWords (shaPad os)
  ((shaBlocks (ws.length / 16) shaInit ws).take 6).foldl (fun n w => n * 2 ^ 64 + w.toNat) 0

/-- R61: the octets of words sent pair-packed. -/
def wordOctets : List Word → List Nat
  | a :: b :: t =>
    let v := a.toNat * 2 ^ 36 + b.toNat
    (List.range 9).map (fun k => v / 2 ^ (64 - 8 * k) % 256) ++ wordOctets t
  | [a] => (List.range 9).map fun k => a.toNat * 2 ^ 36 / 2 ^ (64 - 8 * k) % 256
  | [] => []

/-- R469: the digest of a payload. -/
def digestOf (ws : List Word) : Nat := sha384 (wordOctets ws)

end Sys2Proof.Machine
end

