-- ==== Sys2Proof/Machine/Image.lean ====
section
/-! DEFINITION. Containers (R469, R470) and the configuration image: its directory, the checks of its sections in their order and
what loading it writes (R383, R412 to R414, R463, R472, R473, R495, R584). -/

namespace Sys2Proof.Machine

/-! Containers. -/

/-- R469: the number in octets `a` to `a + n - 1`, most significant first. -/
def octetsAt (os : List Nat) (a n : Nat) : Nat := octetNat ((os.drop a).take n)

/-- R61: the four words pair-packed in the 18 octets from `a` on. -/
def packedAt (os : List Nat) (a : Nat) : List Word :=
  [0, 9].flatMap fun i => [word (octetsAt os (a + i) 9 / 2 ^ 36), word (octetsAt os (a + i) 9)]

/-- R469: the fields of a header. -/
def headerOf (r : RawHeader) : Header :=
  let os := r.octets.map (·.toNat)
  let n := octetsAt os
  { magic := BitVec.ofNat 32 (n 0 4), format := n 4 2, ty := n 6 1, flags := n 7 1, hwtype := n 8 4, unit := packedAt os 12
    svn := n 30 4, version := n 34 4, compat := n 38 4, length := n 42 8, digest := n 50 48, ident := packedAt os 98
    keyid := n 116 4, base := packedAt os 120, octets := r.octets, sigE := r.sigE, sigM := r.sigM
    reserved := r.octets.length == 4096 && ((os.drop 138).take 118).all (· == 0) && (os.drop 3661).all (· == 0) }

/-- R284, R564: octets four to a word, the first in bits [31:24]. -/
def fourPacked (os : List Nat) : List Word :=
  (List.range ((os.length + 3) / 4)).map fun i => word ((List.range 4).foldl (fun v k => v * 256 + os.getD (4 * i + k) 0) 0)

/-- R468, R478: the payload octets a slot or the staging area takes, by TYPE. -/
def capacity (ty : Nat) : Nat :=
  match ty with
  | 1 => 67108864 - 4096
  | 2 => 939524096 - 4096
  | _ => 33554432 - 4096

/-- R469, R470: MAGIC, FORMAT, TYPE and the reserved fields, and the container fits. -/
def headerForm (ty : Nat) (h : Header) : Bool :=
  h.magic == 0x474C4E43#32 && h.format == 1 && h.ty == ty && h.reserved && h.length % 9 == 0 && h.length != 0
    && h.length ≤ capacity ty && h.svn < 256 && (if ty = 2 then h.flags ≤ 1 else h.flags == 0)
    && (if ty = 3 then h.compat == 0 else h.base.all (· == 0)) && (ty != 1 || h.compat < 256)

/-- R506: a configuration key of the vault has this KEYID. -/
def keyKnown (s : State) (keyid : Nat) : Bool := s.vault.any fun v => 2 ≤ v.1 && v.1 ≤ 9 && v.2.keyid == keyid

/-- MID_SERIAL. -/
def serialWords : List Word := (List.range 4).map Config.serial

/-- R487: the rollback floor of a TYPE. -/
def floorFor (s : State) (ty : Nat) : Nat := if ty = 1 then getF s updFloor 7 0 else getF s updFloor 15 8

/-- R470: the first check of a header that fails, COMPAT apart. -/
def headerCheck (s : State) (ty : Nat) (h : Header) : Option Nat :=
  if !headerForm ty h then some 0xA01
  else if !(h.sigE && h.sigM && (ty == 1 || keyKnown s h.keyid)) then some 0xA02
  else if h.hwtype != 0x936 || !(h.unit.all (· == 0) || h.unit == serialWords) then some 0xA04
  else if h.svn < floorFor s ty then some 0xA05
  else none

/-! The payload of a configuration or change container (R472). -/

/-- R472: type, first word and length of each section. -/
def cfgDir (img : List Word) : List (Nat × Nat × Nat) :=
  (List.range (wordAt img 0)).map fun i => (wordAt img (1 + 3 * i) % 256, wordAt img (2 + 3 * i), wordAt img (3 + 3 * i))

def cfgHas (img : List Word) (ty : Nat) : Bool := (cfgDir img).any (·.1 == ty)

/-- The words of a section; an absent one has none. -/
def cfgSection (img : List Word) (ty : Nat) : List Word :=
  match (cfgDir img).find? (·.1 == ty) with
  | some d => (img.drop d.2.1).take d.2.2
  | none => []

/-- R472: the sections follow one another within the payload, each type once, out of those permitted. -/
def dirOk (img : List Word) (types : List Nat) : Bool :=
  1 + 3 * wordAt img 0 ≤ img.length
    && (cfgDir img).all (fun d => types.contains d.1 && d.2.1 + d.2.2 ≤ img.length)
    && pairwiseOk (fun a b => a.1 != b.1 && a.2.1 + a.2.2 ≤ b.2.1) (cfgDir img)

/-- R472: the directory of a configuration. -/
def cfgDirOk (img : List Word) : Bool :=
  4 ≤ wordAt img 0 && wordAt img 0 ≤ 32 && dirOk img [1, 2, 3, 4, 5, 6, 7, 8, 9] && [1, 2, 3, 5].all (cfgHas img)

/-- R195: the sections an online change may carry: plan image, day table, register settings, triple-store content, phasors. -/
def changeDirOk (img : List Word) : Bool :=
  1 ≤ wordAt img 0 && wordAt img 0 ≤ 32 && dirOk img [1, 2, 4, 5, 7]

/-! The state map (R383). -/

/-- R383: first address and length of each range. -/
def mapRanges (ws : List Word) : List (Nat × Nat) :=
  (List.range (ws.length / 2)).map fun i => (wordAt ws (2 * i), wordAt ws (2 * i + 1))

/-- R383: the local data of engine `e` may stand in a state map: it leads its pair, or its pair is split. -/
def mapEngine (tab : List Word) (e : Nat) : Bool := e % 2 == 0 || (pairLoaded tab (e / 2) && !pairJoined tab (e / 2))

/-- R383: a range lies within one of the three areas. -/
def mapArea (tab : List Word) (r : Nat × Nat) : Bool :=
  let last := r.1 + r.2 - 1
  r.2 == 0 || last ≤ 0x007FFFFF || (0x03008400 ≤ r.1 && last ≤ 0x0300FFFF)
    || (0x01000000 ≤ r.1 && last ≤ 0x017FFFFF && (List.range 1024).all fun e =>
          e < (r.1 - 0x01000000) / 0x2000 || (last - 0x01000000) / 0x2000 < e || mapEngine tab e)

/-- R383: two ranges share no word. -/
def rangesApart (a b : Nat × Nat) : Bool := a.1 + a.2 ≤ b.1 || b.1 + b.2 ≤ a.1 || a.2 == 0 || b.2 == 0

/-- R383: the areas and overlaps of a state map. -/
def mapCheck (tab ws : List Word) : Refuse :=
  must (ws.length % 2 == 0 && (mapRanges ws).all (mapArea tab) && pairwiseOk rangesApart (mapRanges ws)) 0xA07 0

/-- Ranges in address order. -/
def rangeInsert (r : Nat × Nat) : List (Nat × Nat) → List (Nat × Nat)
  | [] => [r]
  | x :: t => if r.1 < x.1 then r :: x :: t else x :: rangeInsert r t
def sortRanges (l : List (Nat × Nat)) : List (Nat × Nat) := l.foldr rangeInsert []

/-- The words of a state map in all. -/
def mapTotal (l : List (Nat × Nat)) : Nat := (l.map (·.2)).sum

/-! Register settings (R463, R473). -/

/-- Address and word of each record of a section, in order; none where a record runs beyond it. -/
def recordWords (ws : List Word) : Option (List (Nat × Word)) :=
  (initRecords ws.length ws).map fun rs => rs.flatMap fun r => r.2.mapIdx fun i w => (r.1 + i, w)

/-- R473: a word that register settings may write: RW fields of ZP, TIM, SIG, LIO, PAIR and FPD alone. -/
def settable (x : Nat × Word) : Bool :=
  isReg x.1 && [4, 5, 6, 7, 9, 10].contains (x.1 / 0x10000 - 0x400) &&
    match regDesc x.1 with
    | some d => d.rw != 0 && (x.2 &&& ~~~(word d.rw)) == 0
    | none => false

/-- R473. -/
def settingsOk (ws : List Word) : Bool :=
  match recordWords ws with
  | some l => l.all settable
  | none => false

/-- R463: local I/O values that are invalid: TMO of 1, FREQ outside 10 to 2,000 on a PWM output, WBEN or FILT on an output. -/
def lioOk (s : State) : Bool :=
  (List.range 24).all fun l =>
    let dir := chanDir s l
    let freq := getF s (lioCfg (l + 1)) 20 10
    getF s (lioCfg (l + 1)) 33 26 != 1 && (dir != 3 || (10 ≤ freq && freq ≤ 2000))
      && (dir < 2 || (getF s (lioCfg (l + 1)) 22 22 == 0 && getF s (lioCfg (l + 1)) 25 24 == 0))

/-! Safety parameters (R412 to R414). -/

/-- The fields of word 0 of drive block `d`: the channels it names, 0 none. -/
def drvOutputs (s : State) (d : Nat) : List Nat := [slice (drvPar s d 0) 29 25, slice (drvPar s d 0) 24 20]
def drvInputs (s : State) (d : Nat) : List Nat :=
  [slice (drvPar s d 0) 19 15, slice (drvPar s d 0) 14 10, slice (drvPar s d 0) 9 5]
def drvOwned (s : State) (d : Nat) : List Nat := (drvOutputs s d ++ drvInputs s d).filter (· != 0)
def drvOn (s : State) (d : Nat) : Bool := slice (drvPar s d 0) 35 35 == 1
def drvTpath (s : State) (d : Nat) : Nat := slice (drvPar s d 0) 31 30
def drvSs1 (s : State) (d : Nat) : Bool := slice (drvPar s d 0) 34 34 == 1

/-- R412: every field of a supervised drive's block is in its range, and words 12 to 511 are zero. -/
def drvRanges (s : State) (d : Nat) : Bool :=
  let w (j : Nat) : Nat := drvPar s d j
  let ms (j : Nat) : Nat := slice (w j) 19 0
  let signed (j : Nat) : Int := (word (w j)).toInt
  slice (w 0) 33 32 ≤ 1 && drvTpath s d != 0 && (drvOwned s d).all (· ≤ 24) && 0 < signed 2 && 0 ≤ signed 3 && 0 < signed 4
    && ms 5 < ms 6 && 10 ≤ ms 7 && ms 7 ≤ 500 && 50 ≤ ms 8 && ms 8 ≤ 10000 && 6 ≤ w 9 % 256 && 1 ≤ w 11 % 256
    && (List.range 500).all fun j => w (12 + j) == 0

/-- R413: the common parameters are in range, and every other word is zero. -/
def comRanges (s : State) : Bool :=
  let w0 := comPar s 0
  let p := slice w0 9 0
  let w := slice w0 19 10
  let wo := slice w0 29 20
  [10, 20, 25, 40, 50, 100, 200, 250, 500, 1000].contains p && 200 ≤ w && w ≤ 1000 && 100 ≤ wo && wo ≤ 500
    && (List.range 24).all (fun l => comPar s (l + 1) % 8 ≤ 4)
    && (List.range 512).all fun j => j ≤ 24 || (64 ≤ j && j < 192) || comPar s j == 0

/-- R412, R414, R424: the connections a supervised drive names, with their direction: OUTC, INC and, with a second speed source, INC2. -/
def drvConns (s : State) (d : Nat) : List (Nat × Nat) :=
  [(outC s d, 1), (incC s d, 0)] ++ (if spd2 s d then [(inc2C s d, 0)] else [])

/-- The supervised drives. -/
def drivesOn (s : State) : List Nat := (List.range 64).filter (drvOn s)

/-- R414, for one drive. -/
def drvOk (s : State) (d : Nat) : Bool :=
  drvRanges s d && (drvTpath s d % 2 == 0 || slice (drvPar s d 0) 29 25 != 0)
    && (drvConns s d).all (fun c => connUsed s c.1 c.2) && rampStep s d != 0

/-- R414, for two drives: no channel is shared, and a connection both name has one TE. -/
def drvsOk (s : State) (a b : Nat) : Bool :=
  !(drvOwned s a).any (fun l => (drvOwned s b).contains l)
    && (drvPar s a 9 % 256 == drvPar s b 9 % 256
      || !(drvConns s a).any fun c => (drvConns s b).any fun c' => c.1 == c'.1)

/-- R414: the connections in use have different CIDs. -/
def cidsOk (s : State) : Bool :=
  pairwiseOk (fun a b => connCid s a != connCid s b)
    ((List.range 128).filter fun c => connUsed s c 0 || connUsed s c 1)

/-- R412 to R414, but for the local I/O settings. -/
def safetyOk (s : State) : Bool :=
  comRanges s && cidsOk s && (drivesOn s).all (drvOk s) && pairwiseOk (drvsOk s) (drivesOn s)

/-- R414: an owned channel has its direction. -/
def ownedOk (s : State) : Bool :=
  (drivesOn s).all fun d =>
    (drvOutputs s d).all (fun l => l == 0 || isOutput s (l - 1)) && (drvInputs s d).all fun l => l == 0 || chanDir s (l - 1) == 1

/-- R165, R222, R415: triple-store content lies in the safe states, the common safety parameters or the drive blocks. -/
def tsContentOk (ws : List Word) : Bool :=
  match recordWords ws with
  | some l => l.all fun x => 0x03000100 ≤ x.1 && x.1 ≤ 0x030083FF
  | none => false

/-! Loading an image (R472, R473, R495). -/

/-- R472: triple-store content. -/
def loadContent (ws : List Word) (s : State) : State :=
  ((recordWords ws).getD []).foldl (fun t x => tsWrite (x.1 % 0x10000) x.2 t) s

/-- R473: the register settings, with the write rules of each block; nothing runs, so each takes effect at once. -/
def loadSettings (ws : List Word) (s : State) : State :=
  applyLater (((recordWords ws).getD []).foldl (fun t x => writeReg 1024 x.1 x.2 t) s)

/-- R495: the firmware's region entries, locked, and those of the access settings. -/
def loadRegions (ws : List Word) (s : State) : State :=
  let s := forUpto 32 (fun n s => setBit (forUpto 3 (fun j s => setReg s (gateR n j) (Config.fwRegion n j)) s) (gateR n 2) 34) s
  if ws.isEmpty then s else (Config.accessRegions ws).foldl (fun t x => setReg t (gateR x.1 x.2.1) x.2.2) s

/-- Every target a configuration image names is loaded. -/
def loadImage (img : List Word) (s : State) : State :=
  let s := modDay (fun d => { d with table := cfgSection img 2 }) (loadPlan (cfgSection img 1) s)
  let s := modLink (fun l => { l with stateMap := sortRanges (mapRanges (cfgSection img 3)) }) s
  let s := loadContent (cfgSection img 5) s
  let s := modBoot (fun b =>
    { b with stations := cfgSection img 6, phasors := cfgSection img 7, net := cfgSection img 8, units := cfgSection img 9 }) s
  startDrives (loadSettings (cfgSection img 4) (loadRegions (cfgSection img 8) s))

/-! The checks (R584). -/

/-- R584, point 2: a section's own rules; `t` is the state with the image loaded. -/
def sectionCheck (img : List Word) (t : State) (ty : Nat) : Refuse :=
  let ws := cfgSection img ty
  let tab := planSection (cfgSection img 1) 1
  match ty with
  | 1 => planCheck (cfgSection img 2) ws
  | 2 => must (dayTableOk ws) 0x201 0
  | 3 => mapCheck tab ws
  | 4 => firstOf [must (settingsOk ws) 0xA07 0, must (lioOk t) 0x901 0]
  | 5 => must (tsContentOk ws && safetyOk t) 0x801 0
  | 7 => must (phasorsOk (Config.phasorSection ws)) 0x611 0
  | 8 => must ((Config.accessRegions ws).all fun x => 32 ≤ x.1) 0xA07 0
  | _ => none

/-- R390: a commit ends 2,500 ticks before the next Afternoon. -/
def commitOk (t : List Word) : Bool :=
  wordAt t 14 + (wordAt t 15 + 63) / 64 + (wordAt t 4 - wordAt t 3) + 2500 ≤ wordAt t 0 * 250

/-- R584, point 4: the checks that involve more than one section. -/
def crossCheck (img : List Word) (t : State) : Refuse :=
  let day := cfgSection img 2
  let plan := cfgSection img 1
  firstOf [must (wordAt day 0 == wordAt plan 2 && commitOk day && ratesOk day (planSection plan 1)) 0x201 0,
    must (mapTotal (mapRanges (cfgSection img 3)) == wordAt day 15) 0xA07 0,
    must (budgetsOk t (cfgSection img 6) day) 0x201 0,
    must (!cfgHas img 7 || (Config.phasorSection (cfgSection img 7)).configs.all (phasorFits t)) 0x611 0,
    must (ownedOk t) 0x801 0]

/-- R584, points 2 and 4 for a payload whose digest is right; the sections in the order in which they lie. -/
def imageCheck (img : List Word) (t : State) : Refuse :=
  if !cfgDirOk img then some (0xA07, 0)
  else firstOf (((cfgDir img).map fun d => sectionCheck img t d.1) ++ [crossCheck img t])

end Sys2Proof.Machine
end

