-- ==== Sys2Proof/Machine/Change.lean ====
section
/-! DEFINITION. Online change (R195 to R199, R219, R220, R355, R365, R391, R415) and the notices that report on accepted host
commands (R561, R566). -/

namespace Sys2Proof.Machine

/-! Notices. -/

/-- A session is open. -/
def sessOpen (s : State) (n : Nat) : Bool := s.sess.any (·.1 == n)

/-- R561, R566: the DONE notice of a request, to its session while that is open. -/
def doneNotice (r : Nat × BitVec 20) (status : Nat) (ws : List Word) (s : State) : State :=
  if sessOpen s r.1 then emit (.notice r.1 4 r.2 status ws) s else s

/-- R566: the STATE notice, to every session. -/
def stateNotices (s : State) : State :=
  s.sess.foldl (fun t x => emit (.notice x.1 3 0 0 [viewMid t 0x10, word (t.day.n % 2 ^ 36)]) t) s

/-! What a change carries. -/

/-- The payload of the staged change. -/
def changeImg (s : State) : List Word := (s.boot.staged.map (·.2)).getD []

/-- Its plan image and engine table. -/
def changePlan (img : List Word) : List Word := cfgSection img 1
def changeTab (img : List Word) : List Word := planSection (changePlan img) 1

/-- R220: the change joins pair `k`. -/
def joining (s : State) (img : List Word) (k : Nat) : Bool :=
  cfgHas img 1 && pairJoined (changeTab img) k && !(pairOf s k).joined

/-- The plan engine `e` runs under the change. -/
def newPlan (img : List Word) (e : Nat) : List Word :=
  planOf (changeTab img) (planSection (changePlan img) 2) (if trailsIn (changeTab img) e then e - 1 else e)

/-- The change writes engine `e`'s plan memory: its plan is another than the running one. -/
def planChanged (s : State) (img : List Word) (e : Nat) : Bool :=
  let p := newPlan img e
  p.length != (engine s e).len || (p.mapIdx fun i w => memGet s (0x02000000 + e * 0x1000 + i) != w).any id

/-- The addresses that the change's initial data writes; those in a joined pair's leading engine stand for both engines. -/
def initAddrs (img : List Word) : List Nat :=
  let tab := changeTab img
  let init := planSection (changePlan img) 3
  ((initRecords init.length init).getD []).flatMap fun r => (List.range r.2.length).flatMap fun i =>
    let a := r.1 + i
    let e := (a - 0x01000000) / 0x2000
    if isLocal a && e % 2 == 0 && pairJoined tab (e / 2) then [a, a + 0x2000] else [a]

/-- R398: the day a word names, on the present day's high bits. -/
def fullDay (s : State) (w : Word) : Nat := s.day.n / 2 ^ 36 * 2 ^ 36 + w.toNat

/-- R197, R220: the words of engine `e`'s plan memory that the loader writes: its plan where that changes (DESIGN CHOICE, log entry
159), or the whole of it for a trailing engine being joined. -/
def planContent (s : State) (img : List Word) (e : Nat) : Nat :=
  if e % 2 = 1 && joining s img (e / 2) then 4096 else if planChanged s img e then (newPlan img e).length else 0

/-- R220: the words of its local data that the copy to an engine being joined takes. -/
def localContent (s : State) (img : List Word) (e : Nat) : Nat := if e % 2 = 1 && joining s img (e / 2) then 8192 else 0

/-- R197, R220: the words of engine `e`'s memories that the loader writes. -/
def engineContent (s : State) (img : List Word) (e : Nat) : Nat := planContent s img e + localContent s img e

/-- R197: words that fall on cluster `c`. -/
def clusterContent (s : State) (img : List Word) (c : Nat) : Nat :=
  if !cfgHas img 1 then 0
  else
    ((List.range 16).map fun i => engineContent s img (16 * c + i)).sum
    + (initAddrs img).countP fun a =>
        (isShared a && a / 0x20000 == c) || (isLocal a && (a - 0x01000000) / 0x20000 == c)

/-- R197: triple-store words. -/
def storeContent (img : List Word) : Nat :=
  (if cfgHas img 1 then (initAddrs img).countP isVoted else 0) + ((recordWords (cfgSection img 5)).getD []).length

/-- R197: the cluster that a word of initial data falls on; 64 for the triple store. -/
def clusterOf (a : Nat) : Nat := if isShared a then a / 0x20000 else if isLocal a then (a - 0x01000000) / 0x20000 else 64

/-- The words of the change loader at the point of an address, for a cluster. -/
def loaderWords (a c n : Nat) : Owed := { point := pointOf (word a), master := masterLoader, sub := c, left := n }

/-- R197: what the change loader has to write, by point. -/
def loaderOwed (s : State) (img : List Word) : List Owed :=
  let plan := (List.range 1024).flatMap fun e =>
    [loaderWords (0x02000000 + e * 0x1000) (e / 16) (planContent s img e), loaderWords (localAddr e 0) (e / 16) (localContent s img e)]
  let ks := (initAddrs img).map fun a => (pointOf (word a), clusterOf a)
  let init := ks.eraseDups.map fun k => ({ point := k.1, master := masterLoader, sub := k.2, left := ks.count k } : Owed)
  ((if cfgHas img 1 then plan ++ init else []) ++ [loaderWords 0x03000000 64 ((recordWords (cfgSection img 5)).getD []).length]).filter
    (0 < ·.left)

/-- R197: the loader has words still to write. -/
def loaderBusy (s : State) : Bool := s.owed.any (·.master == masterLoader)

/-- The loader writes no more. -/
def stopLoader (s : State) : State := { s with owed := s.owed.filter (·.master != masterLoader) }

/-- R197: the limit on any cluster and on the triple store. -/
def loaderLimit (s : State) : Nat := dayT s / 2 - 1250

/-- R391: the change writes this word. -/
def changeWrites (s : State) (img : List Word) (a : Nat) : Bool :=
  (cfgHas img 1 && ((initAddrs img).contains a
    || (isLocal a && (a - 0x01000000) / 0x2000 % 2 == 1 && joining s img ((a - 0x01000000) / 0x4000))))
  || ((recordWords (cfgSection img 5)).getD []).any (·.1 == a)

/-- R415: the triple-store content alters a word of the voted offsets from `lo` to `hi`. -/
def altersStore (s : State) (img : List Word) (lo hi : Nat) : Bool :=
  ((recordWords (cfgSection img 5)).getD []).any fun x =>
    let off := x.1 % 0x10000
    lo ≤ off && off ≤ hi && tsPeek s off != x.2

/-- R415: the drives whose block the change alters. -/
def alteredDrives (s : State) (img : List Word) : List Nat :=
  (List.range 64).filter fun d => altersStore s img (0x400 + d * 0x200) (0x5FF + d * 0x200)

/-- R355: a register setting of the change gives register `x.1` another value than it has; a GO or a STOP alters its channel too. -/
def altersReg (s : State) (x : Nat × Word) : Bool :=
  match regDesc x.1 with
  | some d => (reg s x.1 ^^^ x.2) &&& word d.rw != 0 || x.2 &&& word d.wo != 0
  | none => false

/-- R355: the channels whose context, coefficient set or table the change alters. -/
def alteredChannels (s : State) (img : List Word) : List Nat :=
  let set := ((recordWords (cfgSection img 4)).getD []).filter (altersReg s)
  (List.range 2048).filter fun c => set.any fun x =>
    (sigCh c 0 ≤ x.1 && x.1 ≤ sigCh c 15) || (sigCoef (chSet s c) ≤ x.1 && x.1 < sigCoef (chSet s c) + 0x180)
      || (sigTable (chTable s c) ≤ x.1 && x.1 < sigTable (chTable s c) + 0x40 && chMode s c == 2)

/-! Arming (R195). -/

/-- R195, reason 1: the change alters L or T. -/
def altersLength (s : State) (img : List Word) : Bool :=
  (cfgHas img 2 && wordAt (cfgSection img 2) 0 != dayL s)
    || (cfgHas img 1 && (wordAt (changePlan img) 2 != dayL s || wordAt (changePlan img) 3 != dayT s))

/-- R195: the partner is STANDBY and ready. -/
def partnerReady (s : State) : Bool :=
  linkUp s && match s.link.heard with
    | some n => n.state == 2#3 && n.ready
    | none => false

/-- R144, R169, R195: the plan image that results is refused: the change's own, or the running one under a new day table. -/
def resultingPlanBad (s : State) (img : List Word) : Bool :=
  let t := if cfgHas img 2 then cfgSection img 2 else s.day.table
  let p := if cfgHas img 1 then changePlan img else s.boot.plan
  (cfgHas img 1 || (cfgHas img 2 && !p.isEmpty)) && (planCheck t p).isSome

/-- R195, reason 7: the change, or the plan image that results, is refused. A change may not alter the register settings beyond R473. -/
def changeRefused (s : State) (img : List Word) : Bool :=
  !changeDirOk img || resultingPlanBad s img || !settingsOk (cfgSection img 4) || !tsContentOk (cfgSection img 5)

/-- The engine table in force, as R163 lays it out, for the rates it names. -/
def ratesNow (s : State) (t : List Word) : Bool :=
  (List.range 1024).all fun e =>
    let x := engine s e
    slice (wordAt t (6 + x.rate)) 11 0 != 0 && (x.role ≤ 1 || x.rate == 0)

/-- The registers as the change leaves them. -/
def settingsAfter (s : State) (img : List Word) : State :=
  ((recordWords (cfgSection img 4)).getD []).foldl (fun t x => setReg t x.1 x.2) s

/-- R175, R179, R195, reason 8: the resulting day table is refused. -/
def changeTableBad (s : State) (img : List Word) : Bool :=
  let t := if cfgHas img 2 then cfgSection img 2 else s.day.table
  !dayTableOk t || !commitOk t || !budgetsOk (settingsAfter s img) s.boot.stations t || !(if cfgHas img 1 then ratesOk t (changeTab img) else ratesNow s t)

/-- R195: the reason an arming for day `a` is refused, the first of the table; none where it is armed. Whether the partner has
staged an identical change is not shown to the model: `same`. -/
def armReason (s : State) (a : Nat) (same : Bool) : Option Nat :=
  let img := changeImg s
  if altersLength s img then some 1
  else if s.day.changeDay.isSome then some 2
  else if a < s.day.n + 2 || s.day.n + dayQ s * 3600 < a then some 3
  else if (List.range 64).any (fun c => loaderLimit s < clusterContent s img c) || loaderLimit s < storeContent img then some 4
  else if partnerReady s && !same then some 5
  else if !(s.mst == .active || s.mst == .bench) then some 6
  else if changeRefused s img then some 7
  else if changeTableBad s img then some 8
  else if altersStore s img 0x100 0x3FF then some 9
  else none

/-- R195: a refusal. STATE then shows refused, also over another change that stays armed (DESIGN CHOICE, log entry 158). -/
def refuseChange (reason : Nat) (s : State) : State := raise 0x230 0 (setF (setF s dayChg 11 4 reason) dayChg 3 0 5)

/-- R195: the change is armed for day `a`. -/
def armChange (a : Nat) (s : State) : State :=
  let s := modDay (fun d => { d with changeDay := some a, changeDone := false }) s
  let s := if cfgHas (changeImg s) 7 then armStreams (cfgSection (changeImg s) 7) s else s
  setReg (setF s dayChg 3 0 2) dayChgDay (word (a % 2 ^ 36))

/-- R23, R198: an armed change is cancelled, and reported to its requester. -/
def cancelChange (s : State) : State :=
  if s.day.changeDay.isNone then s
  else
    let s := forUpto 8 (fun i s => modStream i (fun x => { x with armedAt := false }) s) (modDay (fun d => { d with changeDay := none }) s)
    let s := raise 0x231 0 (setF s dayChg 3 0 6)
    match s.armReq with
    | some r => doneNotice r 0x31 [] { s with armReq := none }
    | none => s

/-- R482: at a state transition the staged change is discarded, and with it an armed one. -/
def discardStaged (s : State) : State :=
  let s := modBoot (fun b => { b with staged := none }) (cancelChange s)
  if getF s dayChg 3 0 = 1 then setF s dayChg 3 0 0 else s

/-! Activation (R196, R199, R220, R355, R365, R415). -/

/-- R220: in day A, writes to the leading engine of a pair being joined reach the trailing engine too. -/
def startMirror (img : List Word) (k : Nat) (s : State) : State :=
  if joining s img k then modPair k (fun p => { p with mirror := true, d := (engEntry (changeTab img) (2 * k)).d }) s else s

/-- R196, R197: the midnight of day A. -/
def beginChange (s : State) : State :=
  let img := changeImg s
  let s := { s with owed := s.owed ++ loaderOwed s img }
  let s := setF (setBit s dayStatus 7) dayChg 3 0 3
  let s := activateStreams (changedChannels (alteredChannels s img) s)
  let s := modSaf (fun x => { x with changed := alteredDrives s img }) s
  forUpto 512 (startMirror img) (changedDrives s)

/-- R220: the leading engine's plan memory and local data are copied to the trailing engine of a pair being joined. -/
def copyEngine (k : Nat) (s : State) : State :=
  let plan (i : Nat) : Nat := 0x02000000 + 2 * k * 0x1000 + i
  let s := forUpto 4096 (fun i s => memSet s (plan i + 0x1000) (memGet s (plan i))) s
  forUpto 8192 (fun i s => memSet s (localAddr (2 * k + 1) i) (memGet s (localAddr (2 * k) i))) s

/-- R196, R415: everything the change loader writes in day A. -/
def writeChange (img : List Word) (s : State) : State :=
  let tab := changeTab img
  let joins := (List.range 512).filter (joining s img)
  let s := if cfgHas img 1 then
      let s := forUpto 1024 (fun e s => loadPlanMem tab (planSection (changePlan img) 2) e s) s
      joins.foldl (fun t k => copyEngine k t) (loadInit tab (planSection (changePlan img) 3) s)
    else s
  loadContent (cfgSection img 5) s

/-- R196, R484: the loader is done: DAY_CHG.STATE, fault 0x232 and the running configuration identity. -/
def changeLoaded (s : State) : State :=
  let ident := (s.boot.staged.map (·.1.ident)).getD []
  let s := forUpto 4 (fun i s => setReg s (updCfgId + i) (ident.getD i 0)) s
  let s := raise 0x232 0 (setF (modDay (fun d => { d with changeDone := true }) s) dayChg 3 0 4)
  match s.armReq with
  | some r => doneNotice r 0 [] { s with armReq := none }
  | none => s

/-- R219, R220: pair `k` at the midnight of day A + 1. A pair that is joined there is armed at tick 71. -/
def composePair (tab : List Word) (k : Nat) (s : State) : State :=
  let was := pairOf s k
  let s := modPair k (fun p => { p with armed := p.joined && was.joined && was.armed }) (loadPair tab k s)
  if was.joined = pairJoined tab k then s else modEngine (2 * k + 1) (fun x => { x with evq := [] }) s

/-- R205, R206: a change that was not loaded leaves its split pairs split. -/
def endMirrors (s : State) : State := forUpto 512 (fun k s => modPair k (fun p => { p with mirror := false }) s) s

/-- R17, R199: the midnight of day A + 1: plans, tables, register settings and pair composition of a change that was loaded are in
force. -/
def finishChange (s : State) : State :=
  let s := stopLoader (setBit s dayStatus 7 false)
  if !s.day.changeDone then restartChannels (endMirrors (modDay (fun d => { d with changeDay := none }) s))
  else
    let img := changeImg s
    let tab := changeTab img
    let s := if cfgHas img 1 then
        let s := forUpto 512 (composePair tab) (forUpto 1024 (loadEntry tab) s)
        loadTables (changePlan img) (loadIdentity (changePlan img) s)
      else s
    let s := loadSettings (cfgSection img 4) s
    let s := modDay (fun d =>
      { d with table := if cfgHas img 2 then cfgSection img 2 else d.table, changeDay := none, changeDone := false }) s
    let s := modBoot (fun b => { b with phasors := if cfgHas img 7 then cfgSection img 7 else b.phasors, staged := none }) s
    modSaf (fun x => { x with changed := [] }) (restartChannels (unsuperviseChanged s))

/-! The day watchdog's records (R190, R191). -/

/-- R190: an overrun record of 16, its loss count and its mark. -/
def overrun (code master pos : Nat) (s : State) : State :=
  let s := raise code (master % 2048) (setBit s dayStatus (if code = 0x210 then 1 else 2))
  if s.ovr.length < 16 then { noteBorn 0x04020040 s.ovr.isEmpty s with ovr := s.ovr ++ [word (code * 2 ^ 24 + master * 2 ^ 13 + pos % 4096)] }
  else addSat s dayStatus 15 8 1

/-- R191: in ACTIVE an overrun is a breach. -/
def overrunBreach (s : State) : State := if s.mst == .active then breach s else s

/-- The current day is the activation day of an armed change. -/
def changeDayNow (s : State) : Bool := s.day.run && s.day.changeDay == some s.day.n && bitOf s dayStatus 7

/-- R191, R197, R391, R561: a loader that is not done in time: the change does not take effect, its requester learns it, and where plans
run there is an overrun. The record names engine 0 and word 0, and DAY_CHG.STATE stays at activating (DESIGN CHOICE, log entry
160). -/
def loaderOverrun (s : State) : State :=
  let s := stopLoader (modDay (fun d => { d with changeDay := none }) s)
  let s := match s.armReq with
    | some r => doneNotice r 0x30 [word 0x210, 0] { s with armReq := none }
    | none => s
  if s.mst == .active || s.mst == .bench then overrunBreach (overrun 0x210 0 0 s) else s

/-- CHANGE_LOADER_COMPLETE (R196, R197, R391): by tick T − 2,500, once its points have served every word, the loader has written the change;
later, it is not done in time. -/
def execChangeLoaderComplete (s : State) : Host.Outcome State Fault Refusal :=
  if !changeDayNow s || s.day.changeDone then .next s
  else if dayTick s + 2500 ≤ dayT s ∧ loaderBusy s then .next s
  else if dayTick s + 2500 ≤ dayT s then .next (changeLoaded (superviseChanged (writeChange (changeImg s) s)))
  else .next (loaderOverrun s)

end Sys2Proof.Machine
end

