-- ==== Sys2Proof/Machine/Control.lean ====
section
/-! DEFINITION. Loops, brackets, waits, time stamps, landings and the comparison of pairs (R101 to R114, R123 to R129, R207
to R218). -/

namespace Sys2Proof.Machine

/-! Loops, brackets and the end of a day's plan. -/

/-- R101, R104: LOOP opens a body of `b` instructions repeated `c` times; at the depth of 4 no further body opens. -/
def openLoop (e : Nat) (dead : Bool) (f : ImmForm) (s : State) : State :=
  modEngine e (fun x =>
    if x.loops.length < 4 then
      { x with loops := { start := x.pos + 1, len := f.imm.toNat % 64 + 1, left := f.imm.toNat / 64, idx := f.d.toNat,
                          k := 0, dead := dead, ord := x.ord } :: x.loops }
    else x) s

/-- LOOP (R101 to R104). -/
def execLoop (e : Fin 1028) (f : ImmForm) (s : State) : Host.Outcome State Fault Refusal :=
  releaseI e (.loop e f) f
    { body := fun _ s => (openLoop e.val false f s, if f.d = 0 then [] else [.reg f.d.toNat 0]),
      onFalse := fun _ s => (openLoop e.val true f s, []) } s

/-- R113: a bracket of a supervisor engine opens or closes: it holds no bank. -/
def freeBanks (e : Nat) (s : State) : State := if e < 1024 then s else modSup e (fun u => { u with banks := [] }) s

/-- LOCK (R113, R114): it opens a bracket; brackets do not nest. R114 bars a second LOCK in a bracket; one reached at run time in a bracket
that a false UNLOCK left open only counts in it (DESIGN CHOICE, log entry 156). -/
def execLock (e : Fin 1028) (f : RegForm) (s : State) : Host.Outcome State Fault Refusal :=
  releaseR e (.lock e f) f
    { counts := true, body := fun x s =>
        (if x.lockOpen then s
         else freeBanks e.val (modEngine e.val (fun x => { x with lockOpen := true, lockCnt := 0 }) s), []) } s

/-- UNLOCK (R113, R114): it closes an open bracket and is a NOP without one. -/
def execUnlock (e : Fin 1028) (f : RegForm) (s : State) : Host.Outcome State Fault Refusal :=
  releaseR e (.unlock e f) f
    { counts := true, body := fun _ s => (freeBanks e.val (modEngine e.val (fun x => { x with lockOpen := false, lockCnt := 0 }) s), []) } s

/-- R112: the engine rests until its next due midnight, its loop stack empty. -/
def restDone (e : Nat) (s : State) : State :=
  traceRest e 1 2 (engine s e).pos
    (addTx e 5 (engine s e).pos [] (modEngine e (fun x => { x with rest := .done, loops := [] }) s))

/-- DONE (R112); a NOP on a supervisor engine (R117). -/
def execDone (e : Fin 1028) (f : RegForm) (s : State) : Host.Outcome State Fault Refusal :=
  releaseR e (.done e f) f { lands := false, body := fun _ s => (if e.val < 1024 then restDone e.val s else s, []) } s

/-! Time stamps (R110, R129, R156). -/

/-- R156, R157: the entry-latency estimate of an engine in 1/64 ns. A supervisor engine belongs to no cluster with a speed monitor and
the spec gives it no estimate: a free value (log entry 124). -/
def entryEstimate (s : State) (e : Nat) : Nat :=
  if 1024 ≤ e then Config.freeNat (s.fresh + 1) else
  let idx := getF s (fabSpeed (e / 16)) 11 0
  if idx = 0xFFF then 52 * 64 else (roundShift false (Config.entryLatency e * idx : Nat) 10).toNat

/-- R129: the clock sample of a TSTAMP: at entry when it directly follows, with Δ = 1, a wait that an event ended while the
engine rested (an instant inside the 14 ticks after the arrival's tick began), else at the start of its release tick. -/
def clockSample (x : Engine) (delta : Nat) (s : State) : Nat × Nat :=
  match x.entry with
  | some v =>
    if delta = 1 then clockAdd v.sec v.ns64 (1 + Config.freeNat s.fresh % (14 * 256 - 1) : Nat) else (s.time.sec, s.time.ns64)
  | none => (s.time.sec, s.time.ns64)

/-- R110: the words a TSTAMP writes, the time triple and, with modifier bit [0], the entry record. -/
def stampWords (e : Nat) (x : Engine) (f : RegForm) (s : State) : List Word :=
  let c := clockSample x f.delta.toNat s
  triple c.1 c.2 ++ (if f.m.getLsbD 0 then [word (x.waitCnt * 2 ^ 18 + entryEstimate s e % 2 ^ 18)] else [])

/-- Consecutive registers from `d` receive the words. -/
def regEffects (d : Nat) (ws : List Word) : List Effect := ws.mapIdx fun i w => .reg (d + i) w

/-- TSTAMP (R110, R129): a trailing engine's result comes from the pair input buffer (R209). -/
def execTstamp (e : Fin 1028) (f : RegForm) (s : State) : Host.Outcome State Fault Refusal :=
  releaseR e (.tstamp e f) f
    { cls := 3, dur := 2, cap := true, lands := !trailsJoined s e.val, entry := (engine s e).entry.isSome && f.delta == 1,
      body := fun x s =>
        if trailsJoined s e.val then (s, []) else (bump (bump s), regEffects f.d.toNat (stampWords e.val x f s)) } s

/-! Waits (R106, R107, R127, R128). -/

/-- The instant of a day tick of today. -/
def dayInstant (s : State) (t : Nat) : Nat := s.now - dayTick s + t

/-- R107: whether an event word answers a wait of engine `e`: that of the source named or, with `any`, of any source bound to the
engine. -/
def answers (s : State) (e : Nat) (any : Bool) (src : Nat) (v : EvEntry) : Bool :=
  let n := slice v.word.toNat 35 20
  if any then s.bindings.contains (n, e) else n == src

/-- R107: the oldest queued entry that answers the wait, arrived no later than `latest`. -/
def findEvent (s : State) (e : Nat) (any : Bool) (src latest : Nat) : Option EvEntry :=
  (engine s e).evq.find? fun v => answers s e any src v && v.tick ≤ latest

/-- Engine `x`'s queue without the first such entry. -/
def dropEvent (s : State) (e : Nat) (any : Bool) (src latest : Nat) (x : Engine) : Engine :=
  { x with evq := x.evq.eraseP fun v => answers s e any src v && v.tick ≤ latest }

/-- R107: the wait's outcome in wd and p[m], written in tick `now` by the instruction at place `ord` of the release order (R72). -/
def waitResult (now ord : Nat) (event : Bool) (d m : Nat) (w : Word) (x : Engine) : Engine :=
  noteLanded now ord [.reg d 0, .pred m event] (pSet m event (wSet d (if event then w else 0) x))

/-- A wait is reached: its plan word. -/
def reachWait (e : Nat) (x : Engine) (s : State) : State := modEngine e (fun y => { y with waitWord := x.pos }) s

/-- R106, R127, R130: WAITT reached at its release tick with day tick target `t`. A supervisor engine, whose waits the contract does not
schedule, leaves no late record, and while the day sequencer is stopped it counts from day tick 0 (DESIGN CHOICE, log entry 130). -/
def beginWaitT (e t : Nat) (x : Engine) (s : State) : State :=
  let s := reachWait e x s
  if trailsJoined s e then
    let s := modEngine e (fun x => { x with rest := .waitT (dayInstant s t) }) s
    if t < dayTick s then lateEvent 0x103 e x.pos t (dayTick s) s else s
  else if dayTick s < t then
    traceRest e 1 0 x.pos (modEngine e (fun x => { x with rest := .waitT (dayInstant s t) }) s)
  else
    capture e 1 x.ord .waitT (if t < dayTick s ∧ e < 1024 then lateEvent 0x103 e x.pos t (dayTick s) s else s)

/-- R204: a day-tick operand as this engine reads it. -/
def tickOperand (s : State) (e : Nat) (w : Word) : Nat := w.toNat + (if trailsJoined s e then (pairOf s (e / 2)).d else 0)

/-- WAITT (R106, R127). -/
def execWaitt (e : Fin 1028) (f : RegForm) (s : State) : Host.Outcome State Fault Refusal :=
  release e (.waitt e f) 1 f.neg f.pred
    { wait := true, body := fun x s =>
        (beginWaitT e.val (tickOperand s e.val (word (Nat.min (opA x f).toNat (dayT s - 1)))) x
          (addTx e.val 4 x.pos [opA x f] s), []) } s

/-- R107, R128: WAITEV reached at its release tick. -/
def beginWaitEv (e : Nat) (any : Bool) (src deadline d m : Nat) (x : Engine) (s : State) : State :=
  let s := reachWait e x s
  let rest := modEngine e (fun x => { x with rest := .waitEv any src (dayInstant s deadline) d m }) s
  if trailsJoined s e then rest
  else match findEvent s e any src s.now with
    | some v =>
      capture e 2 x.ord (.waitEv true d m v.word) (modEngine e (fun x =>
        waitResult s.now x.ord true d m v.word { dropEvent s e any src s.now x with waitCnt := Nat.min (s.now + 1 - v.tick) 262143 }) s)
    | none =>
      if deadline < dayTick s then
        capture e 2 x.ord (.waitEv false d m 0) (modEngine e (fun x => waitResult s.now x.ord false d m 0 { x with waitCnt := 0 }) s)
      else traceRest e 1 1 x.pos rest

/-- WAITEV (R107, R128). -/
def execWaitev (e : Fin 1028) (f : RegForm) (s : State) : Host.Outcome State Fault Refusal :=
  release e (.waitev e f) 1 f.neg f.pred
    { wait := true, body := fun x s =>
        (beginWaitEv e.val (f.m.getLsbD 0) (slice (opA x f).toNat 15 0) (tickOperand s e.val (opB x f)) f.d.toNat
          (f.m.toNat / 2) x (addTx e.val 4 x.pos
            [opB x f, if f.m.getLsbD 0 then 0 else word (slice (opA x f).toNat 15 0), word (f.m.toNat % 2)] s), []) } s

/-- A wait of engine `e` ends at tick `t`: the next release delta counts from it. -/
def endWait (e t cause : Nat) (s : State) : State :=
  traceRest e 2 cause (engine s e).pos (modEngine e (fun x => { x with rest := .run, prev := t }) s)

/-- WAITT_TARGET_REACHED (R106, R127): a resting engine's target tick has come. A trailing engine's wait ends by replay. -/
def execWaittTargetReached (e : Fin 1028) (s : State) : Host.Outcome State Fault Refusal :=
  match (engine s e.val).rest with
  | .waitT t =>
    if t ≤ s.now ∧ !trailsJoined s e.val then .next (capture e.val 1 ((engine s e.val).ord - 1) .waitT (endWait e.val t 0 s)) else .next s
  | _ => .next s

/-- EVENT_WAKE (R107, R128, R326): 14 ticks after the tick in which a matching event arrived, the wait ends on it. -/
def execEventWake (e : Fin 1028) (s : State) : Host.Outcome State Fault Refusal :=
  match (engine s e.val).rest with
  | .waitEv any src dl d m =>
    match findEvent s e.val any src dl with
    | some v =>
      if v.tick + 14 ≤ s.now ∧ !trailsJoined s e.val then
        .next (capture e.val 2 ((engine s e.val).ord - 1) (.waitEv true d m v.word) (endWait e.val (v.tick + 14) 1 (modEngine e.val (fun x =>
          waitResult s.now (x.ord - 1) true d m v.word { dropEvent s e.val any src dl x with waitCnt := 0, entry := some v }) s)))
      else .next s
    | none => .next s
  | _ => .next s

/-- WAIT_DEADLINE (R107, R128): no matching event was queued by the deadline tick. -/
def execWaitDeadline (e : Fin 1028) (s : State) : Host.Outcome State Fault Refusal :=
  match (engine s e.val).rest with
  | .waitEv any src dl d m =>
    if dl ≤ s.now ∧ !trailsJoined s e.val ∧ findEvent s e.val any src dl = none then
      .next (capture e.val 2 ((engine s e.val).ord - 1) (.waitEv false d m 0) (endWait e.val dl 2 (modEngine e.val (fun x =>
        waitResult s.now (x.ord - 1) false d m 0 { x with waitCnt := 0 }) s)))
    else .next s
  | _ => .next s

/-! Landing (R71 to R73, R123, R158, R208). -/

/-- R158: the slack of an operation, and the least of the engine's and of the fabric's day. -/
def noteSlack (e cls slack : Nat) (s : State) : State :=
  let s := modEngine e (fun x => if slack < x.minSlack then { x with minSlack := slack, minClass := cls } else x) s
  if slack < s.dayMin then { s with dayMin := slack, dayMinEng := e } else s

/-- R208: what a landing result is to the pair input buffer. -/
def captureLanding (e : Nat) (l : Landing) (s : State) : State :=
  if !l.capture then s
  else match l.effs with
    | [.reg d v] => captureDue e 1 l.due l.word l.ord (.lds d v) s
    | .reg d v :: t =>
      let ws := v :: t.filterMap fun f => match f with | .reg _ w => some w | _ => none
      captureDue e ws.length l.due l.word l.ord (.tstamp d ws) s
    | _ => s

/-- R71, R123: the result lands, or completes `late` ticks after its landing tick began (fault 0x101). -/
def land (e late slack : Nat) (l : Landing) (s : State) : State :=
  let s := if late = 0 then s else lateEvent 0x101 e l.word (tickAt s l.land) (tickAt s l.land + late) s
  let s := if l.entry then s else noteSlack e l.cls (if late = 0 then Nat.min slack 255 else 0) s
  let fs := surviving s.now l.ord (engine s e) l.effs
  captureLanding e l (modEngine e (noteLanded s.now l.ord l.effs) (applyAll e s.now l.word fs s))

/-- R73, R90: an earlier-released result for the same accumulator or the local memory has not taken effect. -/
def heldBack (fly : List Landing) (l : Landing) : Bool :=
  fly.any fun k => k.ord < l.ord
    && k.effs.any fun f => orderedUnit f != 0 && l.effs.any fun g => orderedUnit g == orderedUnit f

/-- R130, R133: a shared access that lands now is remembered for as long as a delay D of R203 may last. -/
def notePort (now : Nat) (l : Landing) (log : List (Nat × Nat)) : List (Nat × Nat) :=
  (if l.shared then [(l.ord, now)] else []) ++ log.filter fun a => now < a.2 + 16

/-- RESULT_LANDING (R71, R123): the first result in flight whose landing tick came `late` ticks ago is written. -/
def execResultLanding (e : Fin 1028) (late slack : Nat) (s : State) : Host.Outcome State Fault Refusal :=
  let fly := (engine s e.val).fly
  match fly.find? fun l => l.land + late == s.now && !heldBack fly l with
  | some l => .next (land e.val late slack l (modEngine e.val (fun x =>
      { x with fly := fly.erase l, portAt := notePort s.now l x.portAt }) s))
  | none => .next s

/-! The pair input buffer (R208 to R210). -/

/-- R210: an input as the trailing engine receives it: as captured; poison words or a deadline for a lost one; and free
words for one whose check error is uncorrectable, as the spec states no value for it. -/
def replayInput (b : BufEnt) (uncor : Bool) (s : State) : Input :=
  match b.inp with
  | .lds d v => .lds d (if b.lost then poison else if uncor then Config.freeWord s.fresh else v)
  | .tstamp d ws =>
    .tstamp d (if b.lost then ws.map (fun _ => poison) else if uncor then freeWords ws.length s else ws)
  | .waitT => .waitT
  | .waitEv event d m v =>
    if b.lost then .waitEv false d m 0 else if uncor then .waitEv event d m (Config.freeWord s.fresh) else .waitEv event d m v

/-- R72: registers written in tick `t` by the instruction at place `ord`, but for those a later instruction has written in that tick. -/
def wPut (t ord : Nat) (ws : List (Nat × Word)) (x : Engine) : Engine :=
  let fs := ws.map fun p => Effect.reg p.1 p.2
  noteLanded t ord fs ((surviving t ord x fs).foldl (fun x f => match f with | .reg r v => wSet r v x | _ => x) x)

/-- R72, R208: the trailing engine receives an input of the instruction at place `ord` at tick `t`. -/
def deliver (t ord : Nat) (inp : Input) (x : Engine) : Engine :=
  match inp with
  | .lds d v => wPut t ord [(d, v)] x
  | .tstamp d ws => wPut t ord (ws.mapIdx fun i w => (d + i, w)) x
  | .waitT => { x with rest := .run, prev := t, lastLand := t + 1, landed := [] }
  | .waitEv event d m v => waitResult t ord event d m v { x with rest := .run, prev := t }

/-- PAIR_INPUT_REPLAY (R208 to R210): D ticks after its capture, the oldest input reaches the trailing engine. -/
def execPairInputReplay (k : Fin 512) (uncor : Bool) (s : State) : Host.Outcome State Fault Refusal :=
  let p := pairOf s k.val
  match p.buf with
  | b :: t =>
    if b.tick + p.d ≤ s.now then
      let inp := replayInput b uncor s
      let s := setPair s k.val { p with buf := t }
      let s := if uncor && !b.lost then
          mismatchResponse k.val (mismRecord 0x302 k.val 7 b.word 0 0
            (raise 0x302 k.val (setBit { s with fresh := s.fresh + 4 } cmpStatus 1)))
        else s
      .next (modEngine (2 * k.val + 1) (deliver (b.tick + p.d) b.ord inp) s)
    else .next s
  | [] => .next s

/-! The comparator (R211 to R218). -/

/-- R212: the words of an engine's state signature. -/
def stateWords (x : Engine) : List Word :=
  (List.range 64).map (wGet x) ++ (List.range 3).map (accWord x.ac0) ++ (List.range 3).map (accWord x.ac1)
    ++ [word ((predWord x).toNat + (if x.fV then 2 ^ 8 else 0) + (if x.fS then 2 ^ 9 else 0) + (if x.fD then 2 ^ 10 else 0))]

/-- R212: the state signature. -/
def signature (x : Engine) : Word := crcOf (stateWords x)

/-- R213: a mismatch of pair `k`, its record, its mark and its response. -/
def mismatch (k kind pos : Nat) (lead trail : Word) (s : State) : State :=
  mismatchResponse k (traceEngine (2 * k) 5 0 (0x301 + k * 4096) 0
    (mismRecord 0x301 k kind pos lead trail (raise 0x301 k (setBit s cmpStatus 0))))

/-- The first pair of fields that differ. -/
def firstDiff : List Word → List Word → Option (Word × Word)
  | a :: t, b :: u => if a = b then firstDiff t u else some (a, b)
  | a :: _, [] => some (a, 0)
  | [], b :: _ => some (0, b)
  | [], [] => none

/-- R211: two matched transactions; DONE compares the state signatures. -/
def compareTx (k : Nat) (a b : Tx) (s : State) : State :=
  if a.kind = 5 ∧ b.kind = 5 then
    let l := signature (engine s (2 * k))
    let t := signature (engine s (2 * k + 1))
    if l = t then s else mismatch k 5 a.word l t s
  else if a.kind ≠ b.kind then mismatch k 6 a.word (a.fields.headD 0) 0 s
  else match firstDiff a.fields b.fields with
    | none => s
    | some (x, y) => mismatch k a.kind a.word x y s

/-- R213: a trailing transaction without its leading one; the spec gives the leading field no value. -/
def missingLead (k : Nat) (b : Tx) (s : State) : State :=
  mismatch k 6 b.word (Config.freeWord s.fresh) 0 (bump s)

/-- R212: both engines have no result outstanding and no input to receive, so that their signatures are complete. -/
def settled (s : State) (k : Nat) : Bool :=
  (pendingResults s (2 * k)).isEmpty && (pendingResults s (2 * k + 1)).isEmpty && (pairOf s k).buf.isEmpty

/-- R207, R212: the tick after the 4 in which an engine that releases its DONE at tick `t` computes its signature. -/
def signedAt (x : Engine) (t : Nat) : Nat := Nat.max t (x.lastLand - 1) + 4

/-- R212: both engines of a pair have computed their signatures, their DONEs released at ticks `t` and `u`. -/
def signed (s : State) (k t u : Nat) : Bool :=
  settled s k && signedAt (engine s (2 * k)) t ≤ s.now && signedAt (engine s (2 * k + 1)) u ≤ s.now

/-- The next comparison that is due: the pair's transactions left after it, and what it finds, in the tick after the later
transaction or signature (R213). -/
def compareNext (k : Nat) (p : Pair) (s : State) : State :=
  match p.lead, p.trail with
  | a :: ls, b :: ts =>
    if b.tick < a.tick + p.d then (if b.tick < s.now then missingLead k b (setPair s k { p with trail := ts }) else s)
    else if s.now ≤ a.tick + p.d then s
    else if a.tick + p.d < b.tick then mismatch k 6 a.word (a.fields.headD 0) 0 (setPair s k { p with lead := ls })
    else if a.kind = 5 ∧ b.kind = 5 ∧ !signed s k a.tick b.tick then s
    else compareTx k a b (setPair s k { p with lead := ls, trail := ts })
  | a :: ls, [] =>
    if a.tick + p.d < s.now then mismatch k 6 a.word (a.fields.headD 0) 0 (setPair s k { p with lead := ls }) else s
  | [], b :: ts => if b.tick < s.now then missingLead k b (setPair s k { p with trail := ts }) else s
  | [], [] => s

/-- COMPARATOR_CHECK (R211 to R215): the comparator takes a leading transaction with the trailing one D ticks later. -/
def execComparatorCheck (k : Fin 512) (s : State) : Host.Outcome State Fault Refusal :=
  .next (if (pairOf s k.val).armed then compareNext k.val (pairOf s k.val) s else s)

/-- COMPARATOR_SELF_TEST (R218): with both engines resting, an injected difference that is not reported is fault 0x305,
handled as a mismatch; outside ACTIVE and BENCH only the result is recorded (R217). -/
def execComparatorSelfTest (k : Fin 512) (reported : Bool) (lead trail : Word) (s : State) :
    Host.Outcome State Fault Refusal :=
  if reported || !restsNow (engine s (2 * k.val)) || !restsNow (engine s (2 * k.val + 1)) then .next s
  else .next (mismatchResponse k.val (mismRecord 0x305 k.val 0 0 lead trail (raise 0x305 k.val (setBit s cmpStatus 2))))

/-- DETECTOR_SELF_TEST (R153): with every engine of the cluster resting, a forced late completion that is not reported is
fault 0x116, treated as a late event naming the cluster. -/
def execDetectorSelfTest (c : Fin 64) (reported : Bool) (s : State) : Host.Outcome State Fault Refusal :=
  if reported || !(List.range 16).all (fun i => restsNow (engine s (16 * c.val + i))) then .next s
  else .next (lateEvent 0x116 (16 * c.val) 0 (dayTick s) (dayTick s) (setBit s fabStatus 7))

/-- R220: word `i` of the 70 that the change loader copies to a trailing engine: w1 to w63, the accumulators in the form of R46, and the
predicates and flags. -/
def copyWord (i : Nat) (l x : Engine) : Engine :=
  if i ≤ 63 then wSet i (wGet l i) x
  else if i ≤ 66 then { x with ac0 := accSet x.ac0 (i - 64) (accWord l.ac0 (i - 64)) }
  else if i ≤ 69 then { x with ac1 := accSet x.ac1 (i - 67) (accWord l.ac1 (i - 67)) }
  else { x with p := l.p, fV := l.fV, fS := l.fS, fD := l.fD }

/-- R220: in ticks 1 to 70 of its join day, one word of a pair's registers a tick. -/
def copyRegs (k : Nat) (s : State) : State :=
  let i := dayTick s
  if (pairOf s k).joined && !(pairOf s k).armed && 1 ≤ i && i ≤ 70 then
    modEngine (2 * k + 1) (copyWord i (engine s (2 * k))) s
  else s

/-- COMPARATOR_ARM (R220): at tick 71 of the join day the register copy is complete and the comparator is armed. -/
def execComparatorArm (k : Fin 512) (s : State) : Host.Outcome State Fault Refusal :=
  let p := pairOf s k.val
  if p.joined && !p.armed && dayTick s == 71 then
    .next (modPair k.val (fun p => { p with armed := true, buf := [], lead := [], trail := [] }) s)
  else .next s

/-- TMARK (R100): a trace marker with wa and the marker kind. A trailing engine's is compared and suppressed (R215). -/
def execTmark (e : Fin 1028) (f : RegForm) (s : State) : Host.Outcome State Fault Refusal :=
  releaseR e (.tmark e f) f
    { body := fun x s =>
        (traceEngine e.val 0 f.m.toNat (opA x f).toNat x.pos (addTx e.val 3 x.pos [word f.m.toNat, opA x f] s), []) } s

end Sys2Proof.Machine
end

