-- ==== Sys2Proof/Machine/Mandate.lean ====
section
/-! DEFINITION. The mandate loops and presence, claims, notices, the decision of a takeover and the planned switchover (R372 to
R382, R394 to R401, R405, R406's entry). -/

namespace Sys2Proof.Machine

/-- A fault of the pair range with its mark and the day concerned (R582). -/
def linkFault (code bit : Nat) (s : State) : State := raise code (dayN s % 2 ^ 36) (setBit s pairStatus bit)

/-- READY (R392). -/
def pairReady (s : State) : Bool := bitOf s pairCkSt 8

/-- R391, R392: READY is lost, and the 64 checkpoints count anew. -/
def clearReady (s : State) : State :=
  linkFault 0x709 4 (modLink (fun l => { l with consec := 0 }) (setBit s pairCkSt 8 false))

/-! The decision of a takeover (R394, R395). -/

/-- R399: the partner's notices name today as the day of its planned switchover. -/
def partnerSwitches (s : State) : Bool :=
  match s.link.heard with
  | some n => n.swDay != 0 && n.swDay == word (s.day.n % 2 ^ 36)
  | none => false

/-- R394: the partner loop is released, or it is unknown with the link down and the partner removed. -/
def partnerGone (s : State) : Bool :=
  s.link.part == .released || (s.link.part == .unknown && !s.link.partner && !linkUp s)

/-- R395: an unknown partner loop that causes no decision. -/
def unknownFault (s : State) : State := linkFault 0x701 8 (modLink (fun l => { l with unknownAt := s.now + 1 }) s)

/-- R395: the partner loop is unknown and causes no decision. -/
def unknownLoop (s : State) : Bool := s.link.part == .unknown && !partnerGone s

/-- R394, R395: what a STANDBY module decides when the loop, the presence or the link has changed from `was`. -/
def decideTakeover (was s : State) : State :=
  if s.mst != .standby then s
  else if partnerGone s then
    if s.link.decided.isSome || partnerSwitches s then s
    else if pairReady s then modLink (fun l => { l with decided := some s.now }) s
    else linkFault 0x70B 11 s
  else if unknownLoop s && !unknownLoop was then unknownFault s
  else s

/-- A READY standby that meets a condition of R394 already. -/
def decideQuietly (s : State) : State := if pairReady s && partnerGone s then decideTakeover s s else s

/-- R394, R395: the decision at a midnight: a standby that has just entered STANDBY, or whose partner's switchover day is over, decides
READY or not. -/
def decideAtMidnight (anew : Bool) (s : State) : State :=
  if anew && partnerGone s then decideTakeover s s else decideQuietly s

/-! Frames (R379, R380, R405). -/

/-- The JOIN payload. -/
def joinWords (s : State) : List Word :=
  (List.range 4).map (fun i => reg s (fabPlan + i)) ++ (List.range 4).map (fun i => reg s (updCfgId + i)) ++ [reg s updPairVer]

/-- R465, R467: step 7 has been taken, and its outcome is not bench use. -/
def stepSeven (s : State) : Bool := s.mst == .daybreak && s.boot.step == 8 && !s.boot.benchDue

/-- R405, R465, R467: a JOIN is sent, when the partner is ACTIVE and no claim is being made; its acceptance is awaited from here. -/
def tryJoin (s : State) : State :=
  if stepSeven s && s.link.claimDay.isNone && !s.link.latch && !s.link.joinSent && partnerActive s then
    sendFrame (anyLane s) 7 0 (joinWords s)
      (modBoot (fun b => { b with stepAt := s.now }) (modLink (fun l => { l with joinSent := true }) s))
  else s

/-! Claims (R375 to R378). -/

/-- The claim latch is set for the next midnight, and the own loop driven claimed. -/
def setLatch (s : State) : State :=
  loadUpdate (modLink (fun l =>
    { l with latch := true, claimDay := some (s.day.n + 1), confirmed := false, yielded := none }) s)

/-- R376, R377: the latch is cleared, and with it an established claim. -/
def clearLatch (s : State) : State :=
  loadUpdate (modLink (fun l => { l with latch := false, estab := false, confirmed := false }) s)

/-- A claim ends without a transition. A Daybreak joins its partner once that is ACTIVE (R467). -/
def dropClaim (s : State) : State :=
  tryJoin (modLink (fun l => { l with claimDay := none, decided := none, yielded := none, claimLost := true }) (clearLatch s))

/-- R376, R378: the partner's claim is established: it is ACTIVE, and today is no day of its planned switchover, in which it has
cleared its latch and claims anew (R399, R400). -/
def partnerEstablished (s : State) : Bool :=
  (match s.link.heard with | some n => n.state == 3 | none => false) && !partnerSwitches s

/-- R378: a claim of today is under way and the partner claims too without holding an established claim. -/
def simultaneous (s : State) : Bool :=
  s.day.run && s.link.latch && !s.link.estab && s.link.claimDay == some (s.day.n + 1) && dayT s ≤ dayTick s + 2250
    && s.link.part == .claimed && !partnerEstablished s

/-- R378: slot B yields. -/
def yieldClaim (s : State) : State :=
  if slotB s && simultaneous s then
    modLink (fun l => { l with yielded := some s.now }) (clearLatch s)
  else s

/-- R373: the state of a loop current in 0.1 mA. -/
def loopBand (i : Nat) : LoopState :=
  if 140 ≤ i ∧ i ≤ 180 then .claimed else if 60 ≤ i ∧ i ≤ 100 then .released else .unknown

/-- What follows a new state of the partner loop. -/
def partnerLoopChanged (was s : State) : State :=
  let s := if s.mst == .active && s.link.swReleased && s.link.part == .claimed then
      modLink (fun l => { l with swSeen := true }) s else s
  decideTakeover was (yieldClaim s)

/-- MANDATE_LOOP_STATE_CHANGE (R373, R378, R394): a loop current has stayed 1 µs in a band. -/
def execMandateLoopStateChange (partner : Bool) (tenthMilliamp : BitVec 9) (s : State) :
    Host.Outcome State Fault Refusal :=
  let new := loopBand tenthMilliamp.toNat
  if partner then
    let t := modLink (fun l => { l with part := new, partI := tenthMilliamp }) s
    .next (if new = s.link.part then t else partnerLoopChanged s t)
  else .next (modLink (fun l => { l with own := new, ownI := tenthMilliamp }) s)

/-- PRESENCE_CHANGE (R377, R394, R402): the own contact's opening clears the claim latch. -/
def execPresenceChange (partner inserted : Bool) (s : State) : Host.Outcome State Fault Refusal :=
  if partner then
    if inserted = s.link.partner then .next s
    else .next (decideTakeover s (loadUpdate (modLink (fun l => { l with partner := inserted }) s)))
  else if inserted = s.link.inserted then .next s
  else
    let s := modLink (fun l => { l with inserted := inserted, spresAt := if inserted then some s.now else none }) s
    .next (if inserted then s else modLink (fun l => { l with yielded := none }) (clearLatch s))

/-- PARTNER_LOOP_UNKNOWN_REPEAT (R395): once per second while the loop stays unknown without a decision. -/
def execPartnerLoopUnknownRepeat (s : State) : Host.Outcome State Fault Refusal :=
  if s.mst == .standby && unknownLoop s && s.link.unknownAt + secTicks 1 ≤ s.now + 1 then
    .next (unknownFault s)
  else .next s

/-- R24, R396, R399, R467: this module claims for the midnight that ends today. -/
def claims (s : State) : Bool :=
  s.day.run && s.nwt.permit && s.link.inserted && !s.link.latch &&
    match s.mst with
    | .daybreak => stepSeven s && !s.link.joinSent && s.boot.stepAt + 250000 ≤ s.now
    | .standby => (s.link.decided.isSome && s.link.commit.isNone) || partnerSwitches s
    | _ => false

/-- CLAIM_LATCH_SET (R378, R396, R399, R467): at T − 2,500. A takeover takes its readback here (R449). -/
def execClaimLatchSet (s : State) : Host.Outcome State Fault Refusal :=
  if claims s && dayTick s + 2500 == dayT s then
    let s := if s.mst == .standby && !partnerSwitches s then modLink (fun l => { l with readback := readback s }) s else s
    .next (setLatch s)
  else .next s

/-- R25, R375, R377: this module may claim: its permit is present and it is inserted. -/
def mayClaim (s : State) : Bool := s.nwt.permit && s.link.inserted

/-- YIELD_RECHECK (R25, R378): 5 µs after the yield slot B sets its latch again or abandons the claim, with fault 0x702. Before a
yield it makes the check of T − 2,250 onward. -/
def execYieldRecheck (s : State) : Host.Outcome State Fault Refusal :=
  match s.link.yielded with
  | some t =>
    if s.now < t + 1250 then .next s
    else if mayClaim s && partnerClear s.link then .next (setLatch s)
    else .next (linkFault 0x702 9 (dropClaim s))
  | none => .next (yieldClaim s)

/-- CLAIM_CONFIRMATION (R376, R378, R400): at T − 1. A claim that a trip defeated raises no fault 0x703. -/
def execClaimConfirmation (s : State) : Host.Outcome State Fault Refusal :=
  if !s.day.run || dayTick s + 1 ≠ dayT s || s.link.claimDay ≠ some (s.day.n + 1) || s.link.confirmed then .next s
  else if s.link.latch && mayClaim s && partnerClear s.link then .next (modLink (fun l => { l with estab := true, confirmed := true }) s)
  else
    let permit := s.nwt.permit
    let s := dropClaim s
    .next (if permit then linkFault 0x703 10 s else s)

/-- R372: the levels of a mandate loop's drive. -/
inductive LoopDrive where
  | claimed | released | off
deriving DecidableEq, Repr

/-- R372: the module has power: from a feed, or from what its store holds. -/
def powered (s : State) : Bool := feedOk s 0 || feedOk s 1 || 0 < getF s pwrStore 9 0

/-- R372: the level this module drives its loop at: none while it is withdrawn or without power, or with neither its internal supply nor the
Nightwatch's rail present. -/
def drivenLoop (s : State) : LoopDrive :=
  if !s.link.inserted || !powered s || !(s.nwt.railOk || s.nwt.own) then .off else if s.link.latch && s.nwt.permit then .claimed else .released

/-- R373: the state that the current of a level reads as. -/
def LoopDrive.reads : LoopDrive → LoopState
  | .claimed => .claimed
  | .released => .released
  | .off => .unknown

/-- LOOP_ERROR (R374): a path below 25 % for 10 ms while the current is 6.0 mA or more, or a readback that differs from the
driven level for 10 µs. -/
def execLoopError (path : Bool) (s : State) : Host.Outcome State Fault Refusal :=
  if (if path then 60 ≤ s.link.ownI.toNat else s.link.own != (drivenLoop s).reads) then .next (linkFault 0x704 7 s) else .next s

/-! The planned switchover (R398 to R400). -/

/-- R398: the reason a switchover in day `w` is refused, the first of the table. -/
def switchReason (s : State) (w : Nat) : Option Nat :=
  if s.mst != .active then some 1
  else if !partnerReady s then some 2
  else if w < s.day.n + 2 then some 3
  else if reg s pairSwDay != 0 then some 4
  else if s.link.partVer != some (getF s updPairVer 7 0) then some 5
  else none

/-- R398: a refusal. PAIR_SWST.STATE of a switchover that is armed or in progress stays. -/
def refuseSwitch (reason : Nat) (s : State) : State :=
  let s := setF s pairSwSt 11 4 reason
  raise 0x712 (dayN s % 2 ^ 36) (if reg s pairSwDay = 0 then setF s pairSwSt 3 0 4 else s)

/-- R398: a switchover is armed for day `w`. -/
def armSwitch (w : Nat) (s : State) : State := setF (setReg s pairSwDay (word (w % 2 ^ 36))) pairSwSt 3 0 1

/-- R399: day W has begun. -/
def runSwitch (s : State) : State :=
  setF (modLink (fun l => { l with swRunning := true, swReleased := false, swSeen := false, swReclaimed := false }) s) pairSwSt 3 0 2

/-- R398, R399: no switchover is armed or in progress any more, STATE showing `st`. -/
def endSwitch (st : Nat) (s : State) : State :=
  setF (setReg (modLink (fun l =>
    { l with swRunning := false, swReleased := false, swSeen := false, swReclaimed := false, swOwner := none }) s) pairSwDay 0)
    pairSwSt 3 0 st

/-- SWITCHOVER_READBACK (R399, R449): at T − 3,250 of day W. -/
def execSwitchoverReadback (s : State) : Host.Outcome State Fault Refusal :=
  if s.mst == .standby && s.day.run && partnerSwitches s && dayTick s + 3250 == dayT s then
    .next (modLink (fun l => { l with readback := readback s }) s)
  else .next s

/-- SWITCHOVER_RELEASE (R399, R400): at T − 3,000 of day W. -/
def execSwitchoverRelease (s : State) : Host.Outcome State Fault Refusal :=
  if s.mst == .active && s.link.swRunning && !s.link.swReleased && s.day.run && dayTick s + 3000 == dayT s then
    .next (modLink (fun l => { l with swReleased := true, swSeen := l.part == .claimed }) (clearLatch s))
  else .next s

/-- SWITCHOVER_FALLBACK_CHECK (R25, R400): at T − 1,500 of day W. -/
def execSwitchoverFallbackCheck (s : State) : Host.Outcome State Fault Refusal :=
  if s.mst == .active && s.link.swReleased && !s.link.swReclaimed && !s.link.swSeen && s.day.run
      && mayClaim s && dayTick s + 1500 == dayT s then
    .next (modLink (fun l => { l with swReclaimed := true }) (setLatch s))
  else .next s

/-! Notices (R381, R382). -/

/-- R382: the words of a NOTICE, word 4 naming `code`. -/
def noticeWords (s : State) (code : Nat) : List Word :=
  [word (s.day.n % 2 ^ 36),
   word (mstCode s.mst + flagAt 3 (slotB s) + flagAt 4 (pairReady s) + timeCode s * 2 ^ 8 + timeSrc s * 2 ^ 12),
   reg s pairCk, reg s pairSwDay, word (code % 4096), 0, 0, 0]

/-- NOTICE_SEND (R380 to R382): on one lane; nothing leaves a module in reset. -/
def execNoticeSend (lane : Fin 2) (s : State) : Host.Outcome State Fault Refusal :=
  if s.nwt.inReset then .next s
  else .next (modLink (fun l => { l with noticeCnt := (l.noticeCnt + 1) % 2 ^ 24 })
    (sendFrame lane 1 s.link.noticeCnt (noticeWords s (reg s midLastF).toNat) s))

/-- A good frame on a lane (R381). -/
def laneHeard (lane : Nat) (s : State) : State := modLink (fun l => { l with laneAt := tabSet 0 l.laneAt lane (s.now + 1) }) s

/-- R61, R63, R379: a frame passes its check: whole pair-packed groups, as many payload words as its header says, and the check word. -/
def frameGood (f : PairFrame) : Bool :=
  f.octets && f.payload.length == slice f.header.toNat 31 24 + 1 && f.check == crcOf (f.header :: f.payload)

/-- R380: TYPE and sequence number of a header word. -/
def frameType (f : PairFrame) : Nat := slice f.header.toNat 35 32
def frameSeq (f : PairFrame) : Nat := slice f.header.toNat 23 0

/-- R379 to R381: a frame arrives on a lane: one that fails its check is discarded and counted; a good one keeps its lane up, and acts by
`act` if it is of type `ty`; one of another type, a reserved one among them, is discarded. -/
def acceptFrame (ty lane : Nat) (f : PairFrame) (act : State → State) (s : State) : State :=
  if !frameGood f then modLink (fun l => { l with discarded := l.discarded + 1 }) s
  else if frameType f = ty then act (laneHeard lane s) else laneHeard lane s

/-- R382: the words of a NOTICE or FINAL. -/
def noticeOf (ws : List Word) : Notice :=
  let w (i : Nat) : Word := ws.getD i 0
  { day := w 0, state := BitVec.ofNat 3 (w 1).toNat, slotB := (w 1).getLsbD 3, ready := (w 1).getLsbD 4
    timeState := BitVec.ofNat 4 (slice (w 1).toNat 11 8), src := BitVec.ofNat 4 (slice (w 1).toNat 15 12), ckDay := w 2, swDay := w 3
    fault := BitVec.ofNat 12 (w 4).toNat }

/-- R305, R308, R313: the offset from the partner's clock as the time unit measures it over the link. -/
def partnerOffset (ofs : Int) (s : State) : State :=
  let j := jumps s 5 ofs
  modTime (fun t => { t with pairOfs := some ofs, pairJump := j }) (jumpFault 5 s.time.pairJump j s)

/-- R317, R381, R467: a notice of the partner: a standby that leaves STANDBY has left the pair. A Daybreak whose claim was not confirmed
may find the partner ACTIVE. -/
def heardNotice (n : Notice) (ofs : Int) (s : State) : State :=
  let left := s.mst == .active && (match s.link.heard with | some h => h.state == 2 | none => false) && n.state != 2
  let s := modLink (fun l => { l with
    heard := some n, joinAccepted := l.joinAccepted && !left, cloneTx := if n.state = 1 then l.cloneTx else [] }) s
  let s := reselect (noteSeconds (partnerOffset ofs s))
  let s := if timeSrc s = 5 then servoRate ofs (trackLock ofs s) else s
  if s.link.claimLost then tryJoin s else s

/-- NOTICE_RECEIVE (R305, R308, R313, R317, R379 to R382, R467): with the offset from the partner's clock that the frame's arrival
shows, in 1/64 ns; how the link shows it the spec does not say. -/
def execNoticeReceive (lane : Fin 2) (f : PairFrame) (ofs : Int) (s : State) : Host.Outcome State Fault Refusal :=
  .next (acceptFrame 1 lane f (heardNotice (noticeOf f.payload) ofs) s)

/-- LANE_DOWN (R381): no good frame for 10 µs. -/
def execLaneDown (lane : Fin 2) (s : State) : Host.Outcome State Fault Refusal :=
  if !laneUp s lane || s.now + 1 < tabGet 0 s.link.laneAt lane + 2500 then .next s
  else
    let t := linkFault 0x705 1 (modLink (fun l => { l with laneAt := tabSet 0 l.laneAt lane 0 }) s)
    let t := if linkUp t then t else linkFault 0x706 0 t
    .next (decideTakeover s (reselect t))

/-- FINAL_RECEIVE (R379, R382, R395): it makes no decision of its own; the partner's code stands in its notice. -/
def execFinalReceive (lane : Fin 2) (f : PairFrame) (s : State) : Host.Outcome State Fault Refusal :=
  .next (acceptFrame 9 lane f (fun s => linkFault 0x714 12 (modLink (fun l => { l with heard := some (noticeOf f.payload) }) s)) s)

/-! Joining (R388, R405). -/

/-- R388: the words of one share, and how many the share at `pos` has. -/
def shareWords (s : State) : Nat := (mapTotal s.link.stateMap + 63) / 64
def shareAt (s : State) (pos : Nat) : Nat :=
  Nat.min (shareWords s) (mapTotal s.link.stateMap - pos * shareWords s)

/-- R405: the payload of a JOIN. -/
def joinOf (ws : List Word) : Join := { plan := ws.take 4, config := (ws.drop 4).take 4, version := BitVec.ofNat 8 (ws.getD 8 0).toNat }

/-- R384, R388, R405: a JOIN is accepted: the sweep starts over, in Dusk and Night with the share of this Night; what is dirty or frozen
stays so until it is acknowledged. -/
def acceptJoin (j : Join) (s : State) : State :=
  { modLink (fun l => { l with
      joinAccepted := true, sweepPos := 0, sweepLeft := if 4 ≤ phaseOf s (dayTick s) then shareAt s 0 else 0, sweepBlk := 0, partVer := some j.version.toNat
      partSerial := freeWords 4 s }) s with fresh := s.fresh + 4 }

/-- R405: the identities match, and the version is supported if it is the running one. -/
def joinMatches (j : Join) (s : State) : Bool := j.plan ++ j.config ++ [word j.version.toNat] == joinWords s

/-- JOIN_RECEIVE (R379, R401, R405): in ACTIVE. The payload holds no serial number, and the record of R401 wants one: free words. -/
def execJoinReceive (lane : Fin 2) (f : PairFrame) (s : State) : Host.Outcome State Fault Refusal :=
  .next (acceptFrame 7 lane f (fun s =>
    if s.mst != .active then s
    else if joinMatches (joinOf f.payload) s then acceptJoin (joinOf f.payload) s
    else linkFault 0x720 13 s) s)

end Sys2Proof.Machine
end

