-- ==== Sys2Proof/Machine/Checkpoint.lean ====
section
/-! DEFINITION. The checkpoint: cut, delta, sweep, acknowledgement and commit (R177, R383 to R392, R221), and the images of
engines. -/

namespace Sys2Proof.Machine

/-! Engine images (R326, R386). -/

/-- R386: the 96 words of an engine's image. -/
def engineImage (s : State) (e : Nat) : List Word :=
  let x := engine s e
  let cnt (i : Nat) : Nat := match x.evq[i]? with | some v => Nat.min (s.now + 1 - v.tick) 262143 | none => 0
  stateWords x ++ [word x.evq.length] ++ (List.range 16).map (fun i => ((x.evq[i]?).map (·.word)).getD 0)
    ++ (List.range 8).map (fun j => word (cnt (2 * j) * 2 ^ 18 + cnt (2 * j + 1)))

/-- R386: an engine's registers, flags and events from its image; its plan position, loops and brackets are as DONE leaves
them. -/
def imageInto (now : Nat) (ws : List Word) (x : Engine) : Engine :=
  let acc (i : Nat) : BitVec 80 := (List.range 3).foldl (fun a j => accSet a j (ws.getD (i + j) 0)) 0
  let fl := ws.getD 70 0
  let ev (i : Nat) : EvEntry :=
    let c := ws.getD (88 + i / 2) 0
    { word := ws.getD (72 + i) 0, tick := now + 1 - (if i % 2 = 0 then slice c.toNat 35 18 else slice c.toNat 17 0), sec := 0, ns64 := 0 }
  { (List.range 64).foldl (fun y r => wSet r (ws.getD r 0) y) x with
    ac0 := acc 64, ac1 := acc 67, p := BitVec.ofNat 8 (fl.toNat % 256), fV := fl.getLsbD 8, fS := fl.getLsbD 9,
    fD := fl.getLsbD 10, evq := (List.range (Nat.min (wordAt ws 71 % 32) 16)).map ev, pos := 0, loops := [], lockOpen := false,
    lockCnt := 0, rest := .done, fly := [], imgAt := now + 1 }

/-- R326: at a takeover the counts of restored entries go on from their images. -/
def restoreCounts (now : Nat) (x : Engine) : Engine :=
  if x.imgAt = 0 then x
  else { x with evq := x.evq.map (fun v => { v with tick := v.tick + (now + 1 - x.imgAt) }), imgAt := 0 }

/-- ENGINE_IMAGE_CAPTURE (R386, R221): at DONE + u, of a leading or split engine. -/
def execEngineImageCapture (e : Fin 1024) (s : State) : Host.Outcome State Fault Refusal :=
  let x := engine s e
  if s.mst == .active && !trailsJoined s e && x.ran && x.rest == .done && x.fly.isEmpty then
    .next (modLink (fun l => { l with images := tabSet [] l.images e.val (engineImage s e) }) s)
  else .next s

/-! Frames of records (R387). -/

/-- How many of the addresses follow one another from `a`, at most `n`. -/
def runLen : Nat → Nat → List Nat → Nat
  | n + 1, a, x :: t => if x = a then runLen n (a + 1) t + 1 else 0
  | _, _, _ => 0

/-- The runs, address and length, that fill a payload of `room` words, and the addresses left. -/
def fillRuns : Nat → Nat → List Nat → List (Nat × Nat) × List Nat
  | n + 1, room, a :: t =>
    if room < 3 then ([], a :: t)
    else
      let c := runLen (Nat.min 254 (room - 2)) a (a :: t)
      let r := fillRuns n (room - 2 - c) ((a :: t).drop c)
      ((a, c) :: r.1, r.2)
  | _, _, l => ([], l)

/-- The words that runs take in a payload. -/
def runWords (rs : List (Nat × Nat)) : Nat := (rs.map fun r => r.2 + 2).sum

/-- One DELTA frame: runs, images, and what is left of both. -/
structure Frame where
  runs : List (Nat × Nat)
  imgs : List (Nat × List Word)
  left : List Nat
  leftImgs : List (Nat × List Word)
deriving DecidableEq, Repr

/-- R387: the next DELTA frame: words in address order, then engine records. -/
def nextFrame (addrs : List Nat) (imgs : List (Nat × List Word)) : Frame :=
  let r := fillRuns 256 256 addrs
  let n := if r.2.isEmpty then (256 - runWords r.1) / 97 else 0
  { runs := r.1, imgs := imgs.take n, left := r.2, leftImgs := imgs.drop n }

/-- The payload words of a frame. -/
def frameSize (f : Frame) : Nat := runWords f.runs + 97 * f.imgs.length

/-- R387: the words on the link of a day's DELTA and END frames. -/
def deltaWords : Nat → List Nat → List (Nat × List Word) → Nat
  | n + 1, addrs, imgs =>
    if addrs.isEmpty && imgs.isEmpty then 5
    else let f := nextFrame addrs imgs; frameSize f + 2 + deltaWords n f.left f.leftImgs
  | 0, _, _ => 5

/-! The cut (R150, R177, R384, R386, R392, R399). -/

/-- The joined standby that a checkpoint goes to. -/
def streamsTo (s : State) : Bool := s.mst == .active && s.link.joinAccepted

/-- R386: a leading or split engine has begun its run of today and has not reached DONE + u. -/
def straddles (s : State) (e : Nat) : Bool :=
  let x := engine s e
  x.ran && !trailsJoined s e && (if x.rest == .done then !x.fly.isEmpty else x.pos != 0 && x.rest != .idle)

/-- Addresses of two sorted lists in one. -/
def addrMerge (a b : List Nat) : List Nat := a.foldl (fun t x => addrInsert x t) b

/-- Images of two cuts, the newer first. -/
def imgMerge (new old : List (Nat × List Word)) : List (Nat × List Word) := new.foldl (fun t x => tabSet [] t x.1 x.2) old

/-- R384: every word and image not yet acknowledged. -/
def allFrozen (l : Link) : List Nat := addrMerge l.streamed l.frozen
def allImages (l : Link) : List (Nat × List Word) := imgMerge l.streamedImg l.frozenImg

/-- R384: the dirty set is frozen, with what has not been acknowledged. In a switchover's day W the delta is empty and the sets
stay for a later day (R399). -/
def freeze (s : State) : State :=
  modLink (fun l =>
    let sets := (addrMerge (allFrozen l) l.dirty, imgMerge l.images (allImages l))
    { l with
      dirty := if l.swRunning then sets.1 else [], images := if l.swRunning then sets.2 else []
      frozen := if l.swRunning then [] else sets.1, frozenImg := if l.swRunning then [] else sets.2
      streamed := [], streamedImg := [], kept := [], stream := true, blocks := 0, sent := [], linkWords := 0,
      ckDay := s.day.n, acked := false, ended := false, endSent := false }) s

/-- R392: the day's delta exceeds C: the day is abandoned, the sweep starts over and the frozen words are given up. -/
def overC (s : State) : State :=
  let s := linkFault 0x709 4 (abandonCheckpoint 4 s)
  modLink (fun l => { l with frozen := [], frozenImg := [], sweepPos := 0 }) s

/-- R177, R386, R392: the cut of a day whose checkpoint goes to a joined standby. -/
def cutDelta (s : State) : State :=
  let s := freeze s
  let spans := (List.range 1024).any (straddles s)
  let tooLong := slice (wordAt s.day.table 14) 23 0 <
    deltaWords (s.link.frozen.length + s.link.frozenImg.length + 1) s.link.frozen s.link.frozenImg
  let s := if spans then linkFault 0x70C 6 s else s
  if tooLong then overC s else if spans then abandonCheckpoint 3 s else s

/-- CHECKPOINT_CUT (R150, R177, R384, R417, R433): at the first tick of Afternoon. Without a joined standby what is dirty stays so. -/
def execCheckpointCut (s : State) : Host.Outcome State Fault Refusal :=
  if !s.day.run || dayTick s ≠ phaseStart s 3 || s.day.cutDone then .next s
  else
    let s := safAfternoon (modDay (fun d => { d with cutDone := true }) s)
    if s.mst != .active || s.day.broken then .next s
    else .next (if streamsTo s then cutDelta s else s)

/-! Streaming (R385, R387, R388). -/

/-- R385: a frozen word: the value its capture buffer keeps, or a read as master 1030; none where the gate refuses it. -/
def readFrozen (a : Nat) (s : State) : Option Word × State :=
  match s.link.kept.find? (·.1 == a) with
  | some k => (some k.2, s)
  | none => gatedRead masterLink true none false (word a) s

/-- The words of a run, from `a` on. -/
def readRun (f : Nat → State → Option Word × State) : Nat → Nat → State → Option (List Word) × State
  | _, 0, s => (some [], s)
  | a, n + 1, s =>
    let h := f a s
    let t := readRun f (a + 1) n h.2
    (match h.1, t.1 with | some w, some ws => some (w :: ws) | _, _ => none, t.2)

/-- The run records of a payload. -/
def readRuns (f : Nat → State → Option Word × State) : List (Nat × Nat) → State → Option (List Word) × State
  | [], s => (some [], s)
  | r :: t, s =>
    let h := readRun f r.1 r.2 s
    let u := readRuns f t h.2
    (match h.1, u.1 with | some ws, some vs => some (word (2 ^ 32 + r.2) :: word r.1 :: ws ++ vs) | _, _ => none, u.2)

/-- R387: engine records. -/
def imageRecords (is : List (Nat × List Word)) : List Word := is.flatMap fun i => word (2 * 2 ^ 32 + i.1) :: i.2

/-- R385, R499: the day's checkpoint is abandoned with fault 0x70A. -/
def captureFault (s : State) : State := abandonCheckpoint 2 (linkFault 0x70A 5 s)

/-- R385, R387: the next frame of the day's delta. -/
def deltaFrame (lane : Nat) (s : State) : State :=
  let f := nextFrame s.link.frozen s.link.frozenImg
  let r := readRuns readFrozen f.runs s
  match r.1 with
  | none => captureFault r.2
  | some ws =>
    let ws := ws ++ imageRecords f.imgs
    modLink (fun l =>
      { l with
        frozen := f.left, frozenImg := f.leftImgs, blocks := l.blocks + 1, sent := l.sent ++ ws
        streamed := addrMerge (f.runs.flatMap fun r => (List.range r.2).map (r.1 + ·)) l.streamed
        streamedImg := imgMerge f.imgs l.streamedImg
        linkWords := l.linkWords + ws.length + 2 }) (sendFrame lane 2 s.link.blocks ws r.2)

/-- DELTA_FRAME_SEND (R31, R175, R380, R385, R387): in Afternoon, the next frame of the day's delta on a lane that is up. -/
def execDeltaFrameSend (lane : Fin 2) (s : State) : Host.Outcome State Fault Refusal :=
  let l := s.link
  if !(s.mst == .active && l.stream && laneUp s lane && phaseOf s (dayTick s) == 3)
      || (l.frozen.isEmpty && l.frozenImg.isEmpty) then .next s
  else .next (ifFree masterLink lane (deltaFrame lane) s)

/-- R196: what the checkpoint of today names: the change armed for tomorrow, or that of today as applied. -/
def namedChange (s : State) : Option Named :=
  let name (a : Nat) (applied : Bool) : Named :=
    { ident := (s.boot.staged.map (·.1.ident)).getD [], day := word (a % 2 ^ 36), applied := applied }
  match s.day.changeDay with
  | some a => if a = s.day.n + 1 then some (name a false) else if a = s.day.n && bitOf s dayStatus 7 then some (name a true) else none
  | none => none

/-- END_FRAME_SEND (R196, R380, R387, R570): the whole delta has been sent. R387's payload has no word for the change that R196 has the
checkpoint name: it leaves beside the frame. -/
def execEndFrameSend (lane : Fin 2) (s : State) : Host.Outcome State Fault Refusal :=
  let l := s.link
  if s.mst == .active && l.stream && laneUp s lane && l.frozen.isEmpty && l.frozenImg.isEmpty
      && phaseOf s (dayTick s) == 3 then
    let n := l.linkWords + 5
    let s := sendFrame lane 4 l.blocks [word (l.ckDay % 2 ^ 36), word l.sent.length, crcOf l.sent] s
    let s := match namedChange s with | some c => emit (.names c) s | none => s
    let s := modTelem (fun t => { t with maxCk := Nat.max t.maxCk n }) (setReg s pairCkLen (word (n % 2 ^ 24)))
    .next (modLink (fun l => { l with stream := false, ended := true, endSent := true, linkWords := n }) s)
  else .next s

/-- The state map's word of a rank in address order. -/
def mapWord : List (Nat × Nat) → Nat → Nat
  | [], _ => 0
  | r :: t, i => if i < r.2 then r.1 + i else mapWord t (i - r.2)

/-- The rank of a word of the state map. -/
def mapRank : List (Nat × Nat) → Nat → Nat
  | [], _ => 0
  | r :: t, a => if r.1 ≤ a ∧ a < r.1 + r.2 then a - r.1 else r.2 + mapRank t a

/-- R387, R388: the next frame of the share, its words read now. -/
def sweepFrame (lane : Nat) (s : State) : State :=
  let l := s.link
  let at' := l.sweepPos * shareWords s + (shareAt s l.sweepPos - l.sweepLeft)
  let addrs := (List.range (Nat.min 254 l.sweepLeft)).map fun i => mapWord l.stateMap (at' + i)
  let runs := (fillRuns 256 256 addrs).1
  let r := readRuns (fun a => gatedRead masterLink true none false (word a)) runs s
  match r.1 with
  | none => linkFault 0x70A 5 (modLink (fun l => { l with sweepLeft := 0, sweepBlk := 0 }) r.2)
  | some ws =>
    modLink (fun l => { l with sweepLeft := l.sweepLeft - (runs.map (·.2)).sum, sweepBlk := l.sweepBlk + 1 })
      (sendFrame lane 3 l.sweepBlk ws r.2)

/-- SWEEP_FRAME_SEND (R31, R387, R388): in Night, the next frame of the share on a lane that is up. -/
def execSweepFrameSend (lane : Fin 2) (s : State) : Host.Outcome State Fault Refusal :=
  if !(streamsTo s && laneUp s lane && phaseOf s (dayTick s) == 5 && 0 < s.link.sweepLeft) then .next s
  else .next (ifFree masterLink lane (sweepFrame lane) s)

/-- R384, R388: an ACK before Dusk for the day streamed: the frozen set is released, and the sweep moves on if its share was sent. -/
def takeAck (day : Word) (s : State) : State :=
  let l := s.link
  if s.mst == .active && l.endSent && !l.acked && l.ckDay == s.day.n && day == word (l.ckDay % 2 ^ 36) && l.frozen.isEmpty
      && phaseOf s (dayTick s) == 3 then
    let pos := if l.sweepLeft = 0 then (l.sweepPos + 1) % 64 else l.sweepPos
    setReg (modLink (fun l =>
      { l with acked := true, streamed := [], streamedImg := [], kept := [], lastOk := some l.ckDay, sweepPos := pos }) s) pairCk day
  else s

/-- ACK_RECEIVE (R379, R384, R388). -/
def execAckReceive (lane : Fin 2) (f : PairFrame) (s : State) : Host.Outcome State Fault Refusal :=
  .next (acceptFrame 6 lane f (takeAck (f.payload.headD 0)) s)

/-! Reception at the standby (R174, R387 to R392). -/

/-- A module that has joined, or waits for its JOIN to be accepted. -/
def receives (s : State) : Bool := s.mst == .standby || (s.mst == .daybreak && s.link.joinSent)

/-- A frame of the checkpoint stream acts by `act` on a module that receives one. The first after a JOIN shows that it was
accepted. -/
def streamed (act : State → State) (s : State) : State :=
  if receives s then act (modLink (fun l => { l with joinAccepted := l.joinAccepted || s.mst == .daybreak }) s) else s

/-- The run and engine records of a payload. -/
def readRecords : Nat → List Word → List (Nat × Word) × List (Nat × List Word)
  | n + 1, h :: t =>
    if slice h.toNat 35 32 = 1 then
      let c := h.toNat % 256
      let r := readRecords n (t.drop (c + 1))
      (((t.drop 1).take c).mapIdx (fun i w => ((t.headD 0).toNat + i, w)) ++ r.1, r.2)
    else if slice h.toNat 35 32 = 2 then
      let r := readRecords n (t.drop 96)
      (r.1, (h.toNat % 1024, t.take 96) :: r.2)
    else ([], [])
  | _, _ => ([], [])

/-- The records of a sequence of payloads. -/
def allRecords (ps : List (List Word)) : List (Nat × Word) × List (Nat × List Word) :=
  ps.foldl (fun a p => let r := readRecords p.length p; (a.1 ++ r.1, a.2 ++ r.2)) ([], [])

/-- R388, R389: the share of the night before arrived whole. -/
def sweepWhole (s : State) : Bool :=
  let bs := s.link.rxSweep
  let ws := (allRecords (bs.map (·.2))).1
  let pos := match ws.head? with
    | some w => mapRank s.link.stateMap w.1 / Nat.max 1 (shareWords s)
    | none => s.link.sweepPos
  (List.range bs.length).all (fun i => bs.any (·.1 == i)) && ws.length == shareAt s pos

/-- R389: the checkpoint of today is complete. -/
def isComplete (s : State) : Bool :=
  match s.link.rxEnd with
  | some (day, count, crc, blocks, _) =>
    let ps := (List.range blocks).map fun i => tabGet [] s.link.rx i
    !s.link.rxBad && s.link.complete.isNone && dayTick s < phaseStart s 4 && day == s.day.n % 2 ^ 36
      && ps.all (fun p => !p.isEmpty) && ps.flatten.length == count && crcOf ps.flatten == crc && sweepWhole s
  | none => false

/-- R389: a complete checkpoint is acknowledged. -/
def tryComplete (lane : Nat) (s : State) : State :=
  if s.mst == .standby && isComplete s then
    let n := (s.link.rx.map fun b => b.2.length + 2).sum + 5
    let s := sendFrame lane 6 0 [word (s.day.n % 2 ^ 36)] s
    let s := modTelem (fun t => { t with maxCk := Nat.max t.maxCk n }) (setReg s pairCkLen (word (n % 2 ^ 24)))
    modLink (fun l => { l with complete := some s.day.n, sweepPos := (l.sweepPos + 1) % 64 }) s
  else s

/-- DELTA_RECEIVE (R379, R387). -/
def execDeltaReceive (lane : Fin 2) (f : PairFrame) (s : State) : Host.Outcome State Fault Refusal :=
  .next (acceptFrame 2 lane f (streamed fun s =>
    tryComplete lane (modLink (fun l => { l with rx := tabSet [] l.rx (frameSeq f) f.payload }) s)) s)

/-- SWEEP_RECEIVE (R379, R388). -/
def execSweepReceive (lane : Fin 2) (f : PairFrame) (s : State) : Host.Outcome State Fault Refusal :=
  .next (acceptFrame 3 lane f (streamed fun s =>
    tryComplete lane (modLink (fun l => { l with rxSweep := tabSet [] l.rxSweep (frameSeq f) f.payload }) s)) s)

/-- R174: a checkpoint that names another day. -/
def compareDay (day : Word) (s : State) : State :=
  if s.mst == .standby && s.day.run && day != word (s.day.n % 2 ^ 36) then raise 0x220 0 (setBit s dayStatus 3) else s

/-- R391: the standby cannot follow the change: its sweep starts over and READY is lost. -/
def cannotFollow (s : State) : State :=
  let s := modLink (fun l => { l with sweepPos := 0 }) s
  if pairReady s then clearReady s else linkFault 0x709 4 (modLink (fun l => { l with consec := 0 }) s)

/-- R391: the standby holds the identical change. -/
def stagedAs (s : State) (c : Named) : Bool := match s.boot.staged with | some x => x.1.ident == c.ident | none => false

/-- R391: a checkpoint names an online change: the identical staged copy is armed for the day it names, or the standby cannot follow;
nor can it when the change is named as applied and no copy of it is being applied today. -/
def followChange (c : Named) (s : State) : State :=
  if s.mst != .standby then s
  else if c.applied then (if s.day.changeDay == some s.day.n || s.day.changeDone then s else cannotFollow s)
  else if !stagedAs s c then cannotFollow s
  else if s.day.changeDay.isNone then armChange (fullDay s c.day) s
  else s

/-- END_RECEIVE (R174, R379, R389, R391). -/
def execEndReceive (lane : Fin 2) (f : PairFrame) (change : Option Named) (s : State) : Host.Outcome State Fault Refusal :=
  let w (i : Nat) : Word := f.payload.getD i 0
  .next (acceptFrame 4 lane f (streamed fun s =>
    let s := modLink (fun l => { l with rxEnd := some ((w 0).toNat, (w 1).toNat, w 2, frameSeq f, change.isSome) }) (compareDay (w 0) s)
    tryComplete lane (match change with | some c => followChange c s | none => s)) s)

/-- ABANDON_RECEIVE (R379, R387, R389, R392). -/
def execAbandonReceive (lane : Fin 2) (f : PairFrame) (s : State) : Host.Outcome State Fault Refusal :=
  .next (acceptFrame 5 lane f (fun s =>
    if !receives s then s
    else
      let s := modLink (fun l => { l with rxBad := true }) (compareDay (f.payload.getD 0 0) s)
      if slice (f.payload.getD 1 0).toNat 7 0 = 4 then clearReady (modLink (fun l => { l with sweepPos := 0 }) s) else s) s)

/-! The commit (R221, R389 to R392). -/

/-- R205, R390: a word of a checkpoint, as master 1030; the local data of the leading engine of a pair that is joined, or being joined,
goes to both engines. -/
def commitWord (a : Nat) (v : Word) (s : State) : State :=
  match gate s masterLink true .write (word a) with
  | some r => violate masterLink true true r false (word a) s
  | none =>
    if isVoted a then tsWrite (a % 0x10000) v s
    else
      let e := (a - 0x01000000) / 0x2000
      let s := memSet s a v
      if isLocal a && (leadsJoined s e || (e % 2 == 0 && (pairOf s (e / 2)).mirror)) then memSet s (a + 0x2000) v else s

/-- R390: an engine image; to both engines of a joined pair. -/
def commitImage (i : Nat × List Word) (s : State) : State :=
  let s := modEngine i.1 (imageInto s.now i.2) s
  if leadsJoined s i.1 then modEngine (i.1 + 1) (imageInto s.now i.2) s else s

/-- R391: the words a commit of a day A leaves to the change. -/
def skipChange (s : State) (ws : List (Nat × Word)) : List (Nat × Word) :=
  if s.day.changeDay == some s.day.n then ws.filter fun w => !changeWrites s (changeImg s) w.1 else ws

/-- R392: the 64th checkpoint in a row makes the standby READY. -/
def countCommit (day : Nat) (s : State) : State :=
  let s := modLink (fun l => { l with consec := Nat.min (l.consec + 1) 64, commit := none }) (setReg s pairCk (word (day % 2 ^ 36)))
  if s.link.consec = 64 ∧ pairReady s = false then raise 0x721 (dayN s % 2 ^ 36) (setBit s pairCkSt 8) else s

/-- R385, R499: a checkpoint with a word that a gate refused to the commit is abandoned, with fault 0x70A; its other words stay written
(DESIGN CHOICE, log entry 170). -/
def abandonCommit (s : State) : State := linkFault 0x70A 5 (modLink (fun l => { l with consec := 0, commit := none }) s)

/-- R390: the commit in progress ends. -/
def finishCommit (s : State) : State :=
  match s.link.commit with
  | some (day, ws, is) =>
    let t := (skipChange s ws).foldl (fun t w => commitWord w.1 w.2 t) s
    if t.telem.refusals = s.telem.refusals then decideQuietly (countCommit day (is.foldl (fun t i => commitImage i t) t))
    else decideQuietly (abandonCommit t)
  | none => s

/-- R31: words of the commit have still to be served at their points. -/
def commitBusy (s : State) : Bool := s.owed.any (·.master == masterLink)

/-- COMMIT_COMPLETE (R31, R390): once its points have served every word. -/
def execCommitComplete (s : State) : Host.Outcome State Fault Refusal :=
  .next (if s.mst == .standby && !commitBusy s then finishCommit s else s)

/-- R31, R389: the commit of today's checkpoint begins: the sweep first, then the delta; its words are served one a tick at each point. -/
def startCommit (s : State) : State :=
  let a := allRecords (s.link.rxSweep.map (·.2))
  let b := allRecords (s.link.rx.map (·.2))
  let ws := skipChange s (a.1 ++ b.1)
  modLink (fun l => { l with commit := some (s.day.n, ws, b.2), lastOk := some s.day.n })
    { s with owed := s.owed ++ owe masterLink 0 0 (ws.map (·.1)) }

/-- R389, R392: today's checkpoint is discarded; the second in a row that was not acknowledged costs READY. -/
def discardCheckpoint (s : State) : State :=
  let lost := s.link.lastOk != some (s.day.n - 1)
  let s := linkFault 0x707 2 (modLink (fun l => { l with consec := 0 }) s)
  if lost && pairReady s then clearReady s else s

/-- R389: the standby at the first tick of its Dusk, while its partner is ACTIVE. -/
def standbyDusk (s : State) : State :=
  let s := finishCommit s
  let expects := match s.link.heard with | some n => n.state == 3 | none => false
  let s := if s.link.complete == some s.day.n then startCommit s else if expects then discardCheckpoint s else s
  modLink (fun l => { l with rx := [], rxSweep := [], rxEnd := none, rxBad := false, complete := none }) s

/-- R405: the partner has not yet taken its transition 3. -/
def partnerStarts (s : State) : Bool := match s.link.heard with | some n => n.state == 1 | none => false

/-- R177: today's checkpoint has been streamed completely. -/
def streamedToday (s : State) : Bool := s.link.endSent && s.link.ckDay == s.day.n

/-- R177, R389: the active module at the first tick of its Dusk. -/
def activeDusk (s : State) : State :=
  let s := if streamedToday s then s else raise 0x214 0 (setBit (modLink (fun l => { l with stream := false }) s) dayStatus 4)
  let s := if s.link.acked || partnerStarts s then s else linkFault 0x708 3 s
  modLink (fun l => { l with sweepLeft := shareAt s l.sweepPos, sweepBlk := 0 }) s

/-- DUSK_START (R177, R388 to R390): at the first tick of Dusk. -/
def execDuskStart (s : State) : Host.Outcome State Fault Refusal :=
  if !s.day.run || dayTick s ≠ phaseStart s 4 then .next s
  else if s.mst == .standby then .next (standbyDusk s)
  else if streamsTo s then .next (activeDusk s)
  else .next s

/-! Cloning (R406). -/

/-- R406, R469: a container as CLONE frames carry it: the 1,024 words of its header's octets, packed as R564 packs octets, then its
payload. -/
def containerWords (h : Header) (ws : List Word) : List Word := fourPacked (h.octets.map (·.toNat)) ++ ws

/-- Frames of 256 words that a container takes, four of them its header's. -/
def cloneFrames (h : Header) : Nat := 4 + (h.length / 9 * 2 + 255) / 256

/-- CLONE_FRAME_SEND (R380, R406): the next frame of the running bank's firmware (0) or configuration (1) container, to a partner in
DAYBREAK; firmware only to a receiver whose own, `theirs` by UPD_FWVER, is older. -/
def execCloneFrameSend (lane ty : Fin 2) (theirs : Word) (s : State) : Host.Outcome State Fault Refusal :=
  let x := slotOf s (getF s updBoot 1 1) ty
  let k := tabGet 0 s.link.cloneTx ty.val
  let asked := match s.link.heard with | some n => n.state == 1 | none => false
  let wanted := bitOf s pairCfg 0 && (ty == 1 || (bitOf s pairCfg 1 && theirs.toNat < (reg s updFwVer).toNat))
  match x.hdr with
  | some h =>
    if s.mst == .active && asked && laneUp s lane && wanted && x.st == .valid && k < cloneFrames h then
      .next (modLink (fun l => { l with cloneTx := tabSet 0 l.cloneTx ty.val (k + 1) })
        (sendFrame lane 8 k (((containerWords h x.words).drop (256 * k)).take 256) s))
    else .next s
  | none => .next s

/-- R406, R476: this module may be cloned: its firmware runs, and it holds no valid configuration. -/
def wantsClone (s : State) : Bool :=
  s.mst == .daybreak && 3 ≤ s.boot.step && (slotOf s 0 1).st != .valid && (slotOf s 1 1).st != .valid

/-- A clone's container as far as it has come. -/
def cloneOf (s : State) (ty : Nat) : Option (Header × List (Nat × List Word)) := (s.link.cloneRx.find? (·.1 == ty)).map (·.2)

/-- The header words of a container as far as its frames have come. -/
def cloneHeader (blocks : List (Nat × List Word)) : List Word := ((blocks.filter (·.1 < 4)).map (·.2)).flatten

/-- The payload of a container as far as its frames have come. -/
def clonePayload (blocks : List (Nat × List Word)) : List Word := ((blocks.filter (4 ≤ ·.1)).map (·.2)).flatten

/-- R406: a container's header and digest verify as at Daybreak, the configuration's COMPAT apart; its first frames hold that header. -/
def cloneOk (s : State) (ty : Nat) (h : Header) (blocks : List (Nat × List Word)) : Bool :=
  (headerCheck s (ty + 1) h).isNone && cloneHeader blocks == fourPacked (h.octets.map (·.toNat)) && digestOf (clonePayload blocks) == h.digest

/-- R406: a clone is refused; nothing is written. -/
def refuseClone (ty : Nat) (s : State) : State :=
  linkFault 0x723 14 (modLink (fun l => { l with cloneRx := l.cloneRx.filter (·.1 != ty) }) s)

/-- CLONE_RECEIVE (R379, R406): a frame of a firmware (0) or configuration (1) container, whose header `r` is; the whole container is
verified with its last frame. -/
def execCloneReceive (lane : Fin 2) (f : PairFrame) (ty : Fin 2) (r : RawHeader) (s : State) : Host.Outcome State Fault Refusal :=
  let h := headerOf r
  .next (acceptFrame 8 lane f (fun s =>
    if !wantsClone s then s
    else
      let had := match cloneOf s ty with | some c => if c.1 = h then c.2 else [] | none => []
      let blocks := tabSet [] had (frameSeq f) f.payload
      let t := modLink (fun l => { l with cloneRx := l.cloneRx.filter (·.1 != ty.val) ++ [(ty.val, h, blocks)] }) s
      if (headerCheck s (ty + 1) h).isSome || (blocks.length == cloneFrames h && !cloneOk s ty h blocks) then refuseClone ty t else t) s)

end Sys2Proof.Machine
end

