-- ==== Sys2Proof/Machine/Diag.lean ====
section
/-! DEFINITION. Telemetry, the event log in flash, trace memory and the memory scrubber (R568 to R574, R577). -/

namespace Sys2Proof.Machine

/-! The event log (R571 to R574). -/

/-- R571: the entries the ring holds, at least 1,000,000. -/
def logRing : Nat := 1000000 + Config.logExtra

/-- R571: an entry is written under the next SEQ; a full ring loses its oldest. -/
def logWrite (l : LogEnt) (s : State) : State :=
  let seq := (reg s midLogSeq).toNat
  let log := (if s.log.length < logRing then s.log else s.log.tail) ++ [{ l with seq := seq }]
  modTelem (fun t => { t with written := t.written + 1 })
    { setReg s midLogSeq (word (seq + 1)) with log := log }

/-- LOG_ENTRY_WRITE (R571, R573): the oldest queued entry, once its second is over. -/
def execLogEntryWrite (s : State) : Host.Outcome State Fault Refusal :=
  match s.logQ with
  | l :: t => if l.sec = s.time.sec then .next s else .next (logWrite l { s with logQ := t })
  | [] => .next s

/-- R572: the words of an entry, its CRC apart. -/
def logBody (l : LogEnt) : List Word :=
  [word l.seq, word (l.code * 2 ^ 24 + l.mst * 2 ^ 21 + flagAt 20 l.slotB + Nat.min l.rep 4095 * 2 ^ 8)]
    ++ triple l.sec l.ns64 ++ [word (l.day % 2 ^ 36), word l.detail]

/-- R572, R573: the eight words of an entry; of one whose write was cut, so that its CRC fails, word 1 is zero and the others are free. -/
def logWords (l : LogEnt) : List Word :=
  match l.torn with
  | none => logBody l ++ [crcOf (logBody l)]
  | some k => (List.range 8).map fun i => if i = 1 then 0 else Config.freeWord (k + i)

/-- R574: the entries from SEQ `first` on, at most `count`. -/
def logFrom (s : State) (first count : Nat) : List LogEnt := (s.log.filter fun l => first ≤ l.seq).take count

/-! Telemetry (R570). -/

/-- Word 4: the highest speed index with its cluster, and the highest junction temperature; the spec gives a second without a
measurement no value. -/
def telemSpeed (s : State) : Word :=
  if s.telem.maxTemp = -256 then word (Config.freeNat s.fresh % 2 ^ 27)
  else word ((s.telem.maxTemp % 512).toNat * 2 ^ 18 + s.telem.maxCluster * 2 ^ 12 + s.telem.maxSpeed)

/-- R570: the set of 16 words. -/
def telemSet (s : State) : List Word :=
  let t := s.telem
  [word (s.time.sec % 2 ^ 36), viewReg s 1024 pwrLoad, reg s pwrStore, viewReg s 1024 pwrTherm, telemSpeed s,
   word (t.minEngine * 2 ^ 8 + t.minSlack), word t.align, reg s timState, viewReg s 1024 pairCkSt, word t.maxCk,
   word (Nat.min t.valid (2 ^ 36 - 1)), word (Nat.min t.failed (2 ^ 36 - 1)), word t.refusals,
   word (t.lost % 2 ^ 18 * 2 ^ 18 + t.written % 2 ^ 18), word (t.corr % 2 ^ 18 * 2 ^ 18 + t.uncor % 2 ^ 18), 0]

/-- TELEMETRY_COLLECTION (R570): once at a whole TAI second; what is counted by the second starts over. -/
def execTelemetryCollection (s : State) : Host.Outcome State Fault Refusal :=
  if lastAdvance s ≤ s.time.ns64 || s.telem.setAt == s.now + 1 then .next s
  else .next (modTelem (fun t => { set := telemSet s, valid := t.valid, failed := t.failed, align := t.align, setAt := s.now + 1 }) (bump s))

/-! Trace (R577). -/

/-- The key that orders the records of one tick: master number, then TYPE. -/
def traceKey (r : List Word) : Nat := (r.getD 0 0).toNat % 2048 * 16 + (r.getD 0 0).toNat / 2 ^ 32

/-- R577: the records of a tick in order. -/
def traceInsert (r : List Word) : List (List Word) → List (List Word)
  | [] => [r]
  | x :: t => if x.getD 1 0 = r.getD 1 0 ∧ traceKey x < traceKey r then x :: traceInsert r t else r :: x :: t
def traceOrder (l : List (List Word)) : List (List Word) := l.foldr traceInsert []

/-- R577: trace memory takes a record, or has stopped and counts it as lost. -/
def traceStore (s : State) (r : List Word) : State :=
  if s.trace.mem.length < 16384 then noteBorn 0x04100018 s.trace.mem.isEmpty (modTrace (fun t => { t with mem := t.mem ++ [r] }) s)
  else if bitOf s dbgTrCtl 34 then addSat (modTrace (fun t => { t with dropped := t.dropped + 1 }) s) dbgTrStat 35 20 1
  else modTrace (fun t => { t with mem := t.mem.tail ++ [r], readPos := 0 }) s

/-- R577: the lost record, once there is room for it. -/
def traceLost (s : State) : State :=
  if s.trace.dropped = 0 || s.trace.intake.length == 1024 || (bitOf s dbgTrCtl 34 && 16384 ≤ s.trace.mem.length) then s
  else modTrace (fun t => { t.take s.now (traceWords s 7 0 0 t.dropped 0) with dropped := 0 }) s

/-- R577: how many records of the intake come from ticks that are over, whose order is settled. -/
def traceSettled (s : State) : Nat := s.trace.intake.length - if s.trace.came.1 = s.now + 1 then s.trace.came.2 else 0

/-- TRACE_WRITE (R577): once in a tick, up to 8 records of earlier ticks go to trace memory. -/
def execTraceWrite (s : State) : Host.Outcome State Fault Refusal :=
  if s.trace.wroteAt = s.now + 1 then .next s
  else
    let n := traceSettled s
    let rs := traceOrder (s.trace.intake.take n)
    .next (traceLost ((rs.take 8).foldl traceStore
      (modTrace (fun t => { t with intake := rs.drop 8 ++ t.intake.drop n, wroteAt := s.now + 1 }) s)))

/-! Scrubbing and recalibration (R568, R569). -/

/-- R145: engine local data and plan memory are scrubbed while the engine rests. -/
def scrubFree (s : State) (a : Nat) : Bool :=
  isShared a || ((isLocal a || isPlan a) && restsNow (engine s ((ownerOf a).getD 0)))

/-- MEMORY_SCRUB (R569): the visit finds the word's check bits as `found` says. A corrected word is rewritten; an uncorrectable
one stays until it is written. A visit is made only in a tick in which its point is free, and holds the point (R32). -/
def execMemoryScrub (a : BitVec 32) (found : Chk) (s : State) : Host.Outcome State Fault Refusal :=
  if !(scrubFree s a.toNat && backgroundFree s a.toNat) then .next s
  else
  let s := grantBackground a.toNat s
  if found = .uncor || chkOf s a.toNat == .uncor then
    let s := modTelem (fun t => { t with uncor := t.uncor + 1 }) (addSat s fabMemErr 17 0 1)
    .next (raise 0x131 a.toNat { s with chk := tabSet .ok s.chk a.toNat .uncor })
  else if found = .single || chkOf s a.toNat == .single then
    let s := modTelem (fun t => { t with corr := t.corr + 1 }) (addSat s fabMemErr 35 18 1)
    .next (raise 0x130 a.toNat { s with chk := tabSet .ok s.chk a.toNat .ok })
  else .next s

/-- ANALOGUE_RECALIBRATION (R568): the measurement falls between samples, and none is lost; the references and corrections are no
state the spec describes. -/
def execAnalogueRecalibration (_input : Fin 32) (s : State) : Host.Outcome State Fault Refusal := .next s

end Sys2Proof.Machine
end

