-- ==== Sys2Proof/Machine/Nightwatch.lean ====
section
/-! DEFINITION. The Nightwatch: what it watches, trips, Sundown and reset (R25 to R28, R402, R534, R541, R545, R581), the closing of
host sessions (R555), and what a reset of the module keeps (R464, R475). -/

namespace Sys2Proof.Machine

/-! Sessions that end (R555, R482, R513). -/

/-- Requests of a closed session report to nobody: no session has number 8. -/
def orphan (n : Nat) (o : Nat × BitVec 20) : Nat × BitVec 20 := if o.1 = n then (8, o.2) else o

/-- R513, R580: a debug grant ends: the level is 0, and every halted engine is released and counts from now. -/
def endGrant (s : State) : State :=
  let free (x : Engine) : Engine := if x.halted || x.haltReq || x.stepN != 0 then
      { x with halted := false, haltReq := false, stepN := 0, prev := if x.halted then s.now else x.prev } else x
  setF { s with grant := none, eng := s.eng.foldl (fun t p => tabSet {} t p.1 (free p.2)) [] } secDbg 1 0 0

/-- R555: what a closed session leaves of a waiting request: one in service that accesses words is made, and its response discarded. -/
def orphanWait (n : Nat) (w : HostWait) : Option HostWait :=
  if w.sess != n then some w
  else match w.req with
    | .held _ => some { w with sess := 8 }
    | _ => none

/-- R482, R555, R560: host session `n` is gone. Its accepted requests are served without notices, and an update session waits for an OPEN
repeated. -/
def dropSess (n : Nat) (s : State) : State :=
  let s := { s with
    sess := s.sess.filter (·.1 != n), hostQ := s.hostQ.filterMap (orphanWait n)
    armReq := s.armReq.map (orphan n), stopReq := s.stopReq.map fun r => (r.1, orphan n r.2) }
  let s := modLink (fun l => { l with swOwner := l.swOwner.map (orphan n) }) s
  let s := modBoot (fun b => { b with session := b.session.map fun u => if u.sess = n then { u with lostAt := some s.now } else u }) s
  match s.grant with
  | some g => if g.1 = n then endGrant s else s
  | none => s

/-- R555, R566: the session closes with the CLOSING notice of a reason. -/
def closeSess (reason n : Nat) (s : State) : State := dropSess n (emit (.notice n 2 0 0 [word reason]) s)

/-- Every session closes. -/
def closeAll (reason : Nat) (s : State) : State := s.sess.foldl (fun t x => closeSess reason x.1 t) s

/-! Reset (R17, R464, R474, R475). -/

/-- The registers a reset leaves: flash and fuse values, the Nightwatch's own, and measurements of the power stage. -/
def keptReg (a : Nat) : Bool :=
  [updFloor, midLogSeq, nwtStatus, nwtTripT, nwtTripT + 1, nwtTripT + 2, pwrFeed 1, pwrFeed 2, pwrStore, pwrTherm].contains a

/-- UPD_BOOT after a reset: LASTF, ATTEMPT and PREF. -/
def keptBoot (s : State) : Word := reg s updBoot &&& word (bits 35 8 + 1)

/-- R482: the detail word of an update fault, its bank and slot. -/
def sessDetail (s : State) : Nat := getF s updSess 11 11 * 2 ^ 4 + getF s updSess 10 10 * 2 ^ 5

/-- R443, R452: a channel after a reset: a voltage that stands in a transition range reads wire break anew, and the latch of the safe state
is the Nightwatch's. -/
def resetChan (now : Nat) (c : Chan) : Chan :=
  { mv := c.mv, raw := bandOf c.mv .wireBreak, rawAt := now, steady := bandOf c.mv .wireBreak == .on, onAt := now, latch := c.latch }

/-- A reset of everything but the Nightwatch, flash, the retained start record and what the world outside shows. -/
def resetCore (s : State) : State :=
  let s' : State :=
    { pending := s.pending, now := s.now, fresh := s.fresh, out := s.out, mst := s.mst, mlast := s.mlast
      regs := s.regs.filter (fun r => keptReg r.1), vault := s.vault, logQ := s.logQ, log := s.log, pwr := s.pwr
      boot := { slots := s.boot.slots, attempts := s.boot.attempts, lastBank := s.boot.lastBank, tried := s.boot.tried, slotB := s.boot.slotB
                sundownDone := s.boot.sundownDone, utcSaved := s.boot.utcSaved, netSaved := s.boot.netSaved }
      link := { own := s.link.own, part := s.link.part, ownI := s.link.ownI, partI := s.link.partI
                inserted := s.link.inserted, partner := s.link.partner, spresAt := s.link.spresAt }
      nwt := { s.nwt with dayFrom := none }
      fpd := { panel := s.fpd.panel, redo := s.fpd.redo }
      time := { pllLost := s.time.pllLost }
      lio := { chans := s.lio.chans.foldl (fun t c => tabSet {} t c.1
                 (resetChan s.now c.2)) []
               loops := s.lio.loops }
      ports := s.ports.foldl (fun t p => tabSet {} t p.1 { groupFail := p.2.groupFail }) [] }
  setReg (setReg s' updBoot (keptBoot s)) lioTsup (reg s lioTsup &&& word (bits 10 8))

/-- R474, R482: an internal reset; an update session that was open is lost. -/
def internalReset (s : State) : State :=
  if s.boot.session.isSome then
    setBit (setF (resetCore (raise 0xA23 (sessDetail s) s)) updSess 3 0 5) updStatus 4
  else resetCore s

/-- R21: transition 1 or 10, at once: the sessions close, and Daybreak begins; an update that an access put off is made before it (R9). -/
def restart (s : State) : State :=
  let s := closeAll 5 (applyHw s)
  { internalReset s with mst := .daybreak, mlast := mstCode s.mst }

/-! Release (R28, R402, R525, R534, R545). -/

/-- R525, R534: the power stage may start: the module has been inserted for 10 ms, and a feed has reached the start threshold. -/
def powerMet (s : State) : Bool := presentLong s && s.pwr.threshold

/-- The power stage may start for the first time, and the thermal face permits a start. -/
def startMet (s : State) : Bool := s.nwt.inReset && s.nwt.trip.isNone && powerMet s && s.pwr.warm

/-- R27, R28: the reset of a trip is over but for what the thermal face permits: 810 ms after detection, and after a trip on the feeds
once the power stage may start again. -/
def tripOver (s : State) : Bool :=
  match s.nwt.trip with
  | some t => s.nwt.inReset && t.tick + 202500000 ≤ s.now && (!s.nwt.feedTrip || powerMet s)
  | none => false

/-- Reset is released: the permit stands while the Nightwatch has its rail, and the supervisor's strobes count from now. -/
def releaseReset (s : State) : State :=
  modNwt (fun n =>
    { n with
      inReset := false, permit := n.own, relAt := s.now, strobe := s.now, dayFrom := none, railOk := true, fabOk := true }) s

/-- R402: the first start after power is applied. -/
def tryStart (s : State) : State := if startMet s then releaseReset s else s

/-- PRESENCE_DEBOUNCE_END (R402). -/
def execPresenceDebounceEnd (s : State) : Host.Outcome State Fault Refusal := .next (tryStart s)

/-- R534: feed `k` has stood between 3.0 V and 60 V for 100 ms. -/
def atThreshold (s : State) (k : Nat) : Bool :=
  match (if k = 0 then s.pwr.okAt1 else s.pwr.okAt2) with
  | some t => t + 25000000 ≤ s.now
  | none => false

/-- START_THRESHOLD_REACHED (R28, R534). -/
def execStartThresholdReached (s : State) : Host.Outcome State Fault Refusal :=
  if atThreshold s 0 || atThreshold s 1 then .next (tryStart (modPwr (fun p => { p with threshold := true }) s))
  else .next s

/-- COLD_START_RELEASE (R545): the thermal face has stood at or above the lowest start temperature for 60 s. A start that waited for this
alone was held. -/
def execColdStartRelease (s : State) : Host.Outcome State Fault Refusal :=
  match s.pwr.warmAt with
  | some t =>
    if s.pwr.warm || s.now < t + secTicks 60 then .next s
    else
      let s := modPwr (fun p => { p with warm := true }) s
      .next (tryStart (modPwr (fun p => { p with coldHeld := p.coldHeld || startMet s || tripOver s }) s))
  | none => .next s

/-! Trips (R25 to R27, R581). -/

/-- R25, R27: the permit falls: the mandate is released, and with it every field driver. A claim under way fails. -/
def permitFalls (s : State) : State :=
  modLink (fun l => { l with claimDay := none, yielded := none }) (clearLatch (modNwt (fun n => { n with permit := false }) s))

/-- R27, R581: a trip is detected, unless one is being acted on. -/
def trip (code : Nat) (s : State) : State :=
  if s.nwt.trip.isSome || s.nwt.inReset || !s.nwt.own then s
  else
    let s := modNwt (fun n => { n with trip := some (newEntry s code code), sundown := 0 }) s
    let s := addSat (setF (setLastF code s) nwtStatus 35 24 code) nwtStatus 23 16 1
    permitFalls (((triple s.time.sec s.time.ns64).mapIdx fun i w => (i, w)).foldl (fun t x => setReg t (nwtTripT + x.1) x.2) s)

/-- DAY_HEARTBEAT_TIMEOUT (R26): 1.5 L after the last pulse, or after the start of watching. -/
def execDayHeartbeatTimeout (s : State) : Host.Outcome State Fault Refusal :=
  match s.nwt.dayFrom with
  | some t =>
    if (s.mst == .standby || s.mst == .active) && 3 * dayT s ≤ 2 * (s.now - t) then .next (trip 0xD01 s) else .next s
  | none => .next s

/-- SUPERVISOR_HEARTBEAT_TIMEOUT (R26): 50 ms after the last strobe, from 2 s after reset was released. -/
def execSupervisorHeartbeatTimeout (s : State) : Host.Outcome State Fault Refusal :=
  if s.nwt.relAt + 500000000 ≤ s.now ∧ s.nwt.strobe + 12500000 ≤ s.now then .next (trip 0xD02 s) else .next s

/-- FABRIC_RAIL_FAULT (R26). -/
def execFabricRailFault (s : State) : Host.Outcome State Fault Refusal :=
  .next (trip 0xD03 (modNwt (fun n => { n with fabOk := false }) s))

/-- INTERNAL_RAIL_FAULT (R26). -/
def execInternalRailFault (s : State) : Host.Outcome State Fault Refusal :=
  .next (trip 0xD04 (modNwt (fun n => { n with railOk := false }) s))

/-- FEEDS_LOST (R26, R28, R533): both feeds below 2.7 V or disconnected, whose trip also holds the reset until a feed returns. -/
def execFeedsLost (s : State) : Host.Outcome State Fault Refusal :=
  if s.nwt.inReset || feedOk s 0 || feedOk s 1 then .next s
  else if s.nwt.trip.isSome then .next s
  else .next (modNwt (fun n => { n with feedTrip := true }) (trip 0xD05 s))

/-- NIGHTWATCH_RAIL_LOSS (R25, R581): the permit falls; no trip follows, and the next Daybreak logs it. -/
def execNightwatchRailLoss (s : State) : Host.Outcome State Fault Refusal :=
  if s.nwt.own then
    .next (setLastF 0xD06 (permitFalls (modNwt (fun n => { n with own := false, ownLost := true }) s)))
  else .next s

/-! Sundown and reset (R27, R28, R382, R462, R541). -/

/-- R481: a trip that fell into a header write lets it finish; where the energy runs out, whether it did is free, and a slot whose header
write did not finish is invalid. -/
def cutHeader (t : Nat) (s : State) : State :=
  match s.boot.hdrAt with
  | some (k, h) =>
    if t < h + 1250000 ∧ Config.freeNat s.fresh % 2 = 0 then
      bump (modBoot (fun b => { b with slots := tabSet {} b.slots k { tabGet {} b.slots k with st := .invalid } }) s)
    else bump s
  | none => s

/-- R481, R541, R573: a Sundown that ends with its log entry may leave it cut, and one that ends before it a header write. -/
def cutFlash (n trip : Nat) (t : LogEnt) (s : State) : State × LogEnt :=
  if n = 2 ∧ Config.freeNat s.fresh % 2 = 0 then ({ s with fresh := s.fresh + 9 }, { t with torn := some (s.fresh + 1) })
  else if n = 2 then (bump s, t)
  else (if n < 2 then cutHeader trip s else s, t)

/-- R541: what Sundown takes in their order, `n` steps of it: FINAL, the log entry, and each line of its page. -/
def sundownSteps (n : Nat) (t : LogEnt) (s : State) : State :=
  let ws := sundownLines t s
  let s := if 1 ≤ n then sendFrame (anyLane s) 9 0 (noticeWords s t.code) s else s
  let s := if 2 ≤ n then logWrite t s else s
  if n < 3 then s else if ws.length ≤ 8 * (n - 3) then sundownPage ws s else cutPage (n - 3) ws s

/-- SUNDOWN (R27, R462, R541, R571): FINAL, the log entry past the queue, and the faceplate. One that does not complete, with a store below
50 %, ends in a step that is free, at the latest before its completion mark. -/
def execSundown (complete : Bool) (s : State) : Host.Outcome State Fault Refusal :=
  match s.nwt.trip with
  | some t =>
    if s.nwt.sundown != 0 || s.nwt.inReset then .next s
    else
      let full := (sundownLines t s).length / 8 + 3
      let done := complete || 500 ≤ getF s pwrStore 9 0
      let n := if done then full else Config.freeNat s.fresh % (full + 1)
      let c := cutFlash n t.tick t (bump s)
      let s := sundownSteps n c.2 c.1
      .next (modBoot (fun b => { b with sundownDone := done || n < 2 || c.2.torn.isSome }) (modNwt (fun n => { n with sundown := 1 }) s))
  | none => .next s

/-- RESET_ASSERT (R27): 800 ms after detection, whatever Sundown has done. The sessions end with the module. -/
def execResetAssert (s : State) : Host.Outcome State Fault Refusal :=
  match s.nwt.trip with
  | some t =>
    if s.nwt.inReset || s.now < t.tick + 200000000 then .next s
    else .next (modNwt (fun n => { n with inReset := true }) (internalReset (closeAll 5 s)))
  | none => .next s

/-- RESET_RELEASE (R21, R27, R28, R525, R545): 810 ms after detection, after a trip on the feeds once the power stage may start again, and
not below the lowest start temperature: transition 1. -/
def execResetRelease (s : State) : Host.Outcome State Fault Refusal :=
  match s.nwt.trip with
  | some t =>
    if !tripOver s || !s.pwr.warm then .next s
    else
      .next (modNwt (fun n => { n with trip := none, feedTrip := false, sundown := 0, restartOf := some t.code })
        { releaseReset s with mst := .daybreak, mlast := mstCode s.mst })
  | none => .next s

end Sys2Proof.Machine
end

