-- ==== Sys2Proof/Machine/Start.lean ====
section
/-! DEFINITION. Daybreak: the start sequence, its failures and retries, and cloning at its end (R321, R406, R464 to R477, R527, R528,
R540, R541, R545). -/

namespace Sys2Proof.Machine

/-! Attempts (R465, R474, R475). -/

/-- R474: the bank of an attempt: the preferred one first, then the bank the attempt before it did not use. -/
def startBank (s : State) : Nat := if s.boot.tried then 1 - s.boot.lastBank else getF s updBoot 0 0

/-- The bank of the start in progress, or of the running start. -/
def runBank (s : State) : Nat := getF s updBoot 1 1

/-- A start that fails: its code, its step, the slot concerned, and a detail word that is not the boot range's. -/
structure StartFail where
  code : Nat
  step : Nat
  slot : Nat := 0
  detail : Option Nat := none
deriving DecidableEq, Repr

/-- R582: step, bank and slot. -/
def startDetail (s : State) (f : StartFail) : Nat := f.step + runBank s * 2 ^ 4 + f.slot * 2 ^ 5

/-- R474: the wait after failed attempt `n`, in seconds. -/
def backoff (n : Nat) : Nat := if n ≤ 6 then 2 ^ (n - 1) else 60

/-- R466, R474: the start ends with its fault, 0xA11 and the wait. Nothing of it runs on. -/
def failStart (f : StartFail) (s : State) : State :=
  let s := raise f.code (f.detail.getD (startDetail s f)) s
  let s := raise 0xA11 (startDetail s f + f.code * 2 ^ 6) s
  let s := addSat (setF s updBoot 35 24 f.code) updBoot 23 8 1
  let s := modLink (fun l => { l with claimDay := none, joinSent := false, joinAccepted := false }) (clearLatch s)
  let s := modDay (fun d => { d with run := false }) s
  modBoot (fun b => { b with
    attempts := b.attempts + 1, waitEnd := some (s.now + secTicks (backoff (b.attempts + 1))), benchDue := false
    step := if f.step ≤ 2 then 1 else 3 }) s

/-- An attempt may begin. -/
def startReady (s : State) : Bool := s.mst == .daybreak && !s.nwt.inReset && s.boot.step == 0 && s.boot.waitEnd.isNone

/-- R541, R545, R581: what a Daybreak reports of the time before it. -/
def startReports (s : State) : State :=
  let s := if s.boot.sundownDone then s
    else modBoot (fun b => { b with sundownDone := true }) (raise 0xC13 0 (setBit s pwrStatus 7))
  let s := match s.nwt.restartOf with
    | some c => modNwt (fun n => { n with restartOf := none }) (raise 0xD10 c s)
    | none => s
  let s := if s.nwt.ownLost then modNwt (fun n => { n with ownLost := false }) (raise 0xD06 0xD06 s) else s
  if s.pwr.coldHeld then
    modPwr (fun p => { p with coldHeld := false }) (raise 0xC20 (getF s pwrTherm 17 9) (setBit s pwrStatus 8))
  else s

/-- R474, R475, R477: the attempt's bank. -/
def startAttempt (s : State) : State :=
  let b := startBank s
  let s := setBit (setBit (startReports s) updBoot 1 (b == 1)) updStatus 0 (s.boot.attempts != 0)
  modBoot (fun x => { x with lastBank := b, tried := true, step := 1 }) s

/-! Step 1 and step 2 (R465, R470, R476, R527, R528). -/

/-- R465: the limit of a step in ticks. -/
def stepLimit (k : Nat) : Nat := secTicks ([0, 1, 1, 8, 6, 3, 3, 1].getD k 0)

/-- R466: step `k` takes longer than its limit. -/
def stepSlow (v : DayView) (k : Nat) : Option StartFail :=
  if stepLimit k < v.stepTicks.getD (k - 1) 0 then some { code := 0xA09, step := k, slot := if k = 3 ∨ k = 4 then 1 else 0 } else none

/-- R527, R528: the straps and the carrier's identity memory. -/
def readCarrier (v : DayView) (s : State) : State :=
  let s := setReg s pwrCarrier (word (flagAt 0 v.strapA + flagAt 1 v.strapB + flagAt 2 v.carid.isSome))
  let s := if v.strapA == v.strapB then s else modBoot (fun b => { b with slotB := some v.strapB }) s
  match v.carid with
  | some ws => forUpto 4 (fun i s => setReg s (pwrCarId + i) (ws.getD i 0)) s
  | none => raise 0xC31 0 (forUpto 4 (fun i s => setReg s (pwrCarId + i) 0) s)

/-- R468, R474: the header of a valid slot. -/
def validHeader (s : State) (bank slot : Nat) : Option Header :=
  let x := slotOf s bank slot
  if x.st = .valid then x.hdr else none

/-- The firmware container of the start bank. -/
def firmwareFail (s : State) : Option StartFail :=
  match validHeader s (runBank s) 0 with
  | none => some { code := 0xA01, step := 1 }
  | some h => (headerCheck s 1 h).map fun c => { code := c, step := 1 }

/-- The firmware payload. -/
def firmwareDigest (s : State) : Option StartFail :=
  match validHeader s (runBank s) 0 with
  | some h => if digestOf (slotOf s (runBank s) 0).words = h.digest then none else some { code := 0xA03, step := 2 }
  | none => none

/-- R471: a read of flash that `ok` says to be free of uncorrectable errors. -/
def flashFail (ok : Bool) (step slot : Nat) : Option StartFail := if ok then none else some { code := 0xA08, step := step, slot := slot }

/-- Steps 1 and 2. -/
def bootFail (v : DayView) (s : State) : Option StartFail :=
  [stepSlow v 1, if v.strapA == v.strapB then some { code := 0xC30, step := 1, detail := some 0 } else none, flashFail v.fwHeadOk 1 0,
   firmwareFail s, stepSlow v 2, flashFail v.fwReadOk 2 0, firmwareDigest s].findSome? id

/-- R476, R527: a page of the boot ROM on lines 0 to 3. -/
def bootPage (page cause : Nat) (s : State) : State :=
  let ws := (List.range 32).map fun i => (i, shownWord (bootWord page cause (i / 8) (i % 8)))
  emit (.faceplate ws) (writePanel ws (modFpd (fun x => { x with page := some (page, cause) }) s))

/-- What a failure of steps 1 and 2 writes to the faceplate. -/
def bootPages (f : StartFail) (s : State) : State :=
  if f.code = 0xC30 then bootPage 1 f.code s
  else if (slotOf s 0 0).st != .valid && (slotOf s 1 0).st != .valid then
    bootPage 0 f.code s
  else s

/-- R465: the firmware is loaded into the supervisor's private memory and entered. -/
def enterFirmware (s : State) : State :=
  let x := slotOf s (runBank s) 0
  let h := x.hdr
  let s := setReg s updFwVer (word ((h.map (·.version)).getD 0))
  let s := setReg s updPairVer (word ((h.map (·.compat)).getD 0 % 256))
  let s := (x.words.mapIdx fun i w => (0x1000 + i, w)).foldl (fun t w => privSet w.1 w.2 t) s
  let s := forUpto 4 (fun i s => modSup (1024 + i) (fun u => { u with pc := 0x1000 }) s) s
  modBoot (fun b => { b with step := 3 }) s

/-! Step 3 to step 5 (R465, R470 to R473, R584). -/

/-- R470: the configuration's header, with COMPAT against the running firmware. -/
def configHeader (s : State) : Option StartFail :=
  match validHeader s (runBank s) 1 with
  | none => some { code := 0xA01, step := 3, slot := 1 }
  | some h =>
    match headerCheck s 2 h with
    | some c => some { code := c, step := 3, slot := 1 }
    | none => if (reg s updFwVer).toNat < h.compat then some { code := 0xA06, step := 3, slot := 1 } else none

/-- R471, R584: the payload: a mismatch of the digest decides over every check of its content. -/
def configPayload (s : State) : Option StartFail :=
  let x := slotOf s (runBank s) 1
  if some (digestOf x.words) = x.hdr.map (·.digest) then
    (imageCheck x.words (loadImage x.words s)).map fun r =>
      { code := r.1, step := 3, slot := 1, detail := if r.1 / 256 = 10 then none else some r.2 }
  else some { code := 0xA03, step := 3, slot := 1 }

/-- Steps 3 and 4. -/
def configFail (v : DayView) (s : State) : Option StartFail :=
  [stepSlow v 3, flashFail v.cfgHeadOk 3 1, configHeader s, flashFail v.flashOk 3 1, configPayload s, stepSlow v 4].findSome? id

/-- R322: the offset of TAI from UTC, from flash or from the configuration image. -/
def startUtc (img : List Word) (s : State) : State :=
  if bitOf s timUtc 18 then s
  else match s.boot.utcSaved with
    | some w => setF (setBit (setF s timUtc 15 0 w.toNat) timUtc 18) timUtc 20 19 1
    | none => setF (setBit (setF s timUtc 15 0 (Config.imageUtc img % 2 ^ 16)) timUtc 18) timUtc 20 19 0

/-- Every target of the configuration. -/
def loadConfig (s : State) : State :=
  let x := slotOf s (runBank s) 1
  let s := startUtc x.words (loadImage x.words s)
  forUpto 4 (fun i s => setReg s (updCfgId + i) (((x.hdr.map (·.ident)).getD []).getD i 0)) s

/-- R218: a comparator that reports no mismatch in its self-test; what was injected is not stated. -/
def comparatorFailed (k : Nat) (s : State) : State :=
  mismatchResponse k (mismRecord 0x305 k 0 0 (Config.freeWord s.fresh) (Config.freeWord (s.fresh + 1))
    (raise 0x305 k (setBit { s with fresh := s.fresh + 2 } cmpStatus 2)))

/-- R153: a detector that reports no late event. -/
def detectorFailed (c : Nat) (s : State) : State := lateEvent 0x116 (16 * c) 0 (dayTick s) (dayTick s) (setBit s fabStatus 7)

/-- Step 5 (R153, R218, R436). -/
def selfTests (v : DayView) (s : State) : State :=
  let s := (v.comparatorFail.filter (· < 512)).foldl (fun t k => comparatorFailed k t) s
  let s := (v.detectorFail.filter (· < 64)).foldl (fun t c => detectorFailed c t) s
  if v.forcingOk then s else monitorFault 0x8F1 s

/-- Steps 3 to 5. -/
def loadModule (v : DayView) (s : State) : State :=
  match configFail v s with
  | some f => failStart f s
  | none =>
    let s := selfTests v (loadConfig s)
    match stepSlow v 5 with
    | some f => failStart f s
    | none => modBoot (fun b => { b with step := 6, stepAt := s.now }) s

/-- Steps 1 to 5. -/
def beginStart (v : DayView) (s : State) : State :=
  let s := readCarrier v (startAttempt s)
  match bootFail v s with
  | some f => failStart f (bootPages f s)
  | none => loadModule v (enterFirmware s)

/-- Step 7 (R467, R540): the outcome, and what follows a start with the store low. -/
def decideStart (s : State) : State :=
  let bench := ((slotOf s (runBank s) 1).hdr.map (·.flags)).getD 0 % 2 == 1
  let s := tryJoin (modBoot (fun b => { b with step := 8, stepAt := s.now, benchDue := bench }) s)
  if getF s pwrStore 29 28 = 0 then raise 0xC10 (getF s pwrStore 9 0) (setBit s pwrStatus 4) else s

/-- DAYBREAK (R464 to R467): the first command of an attempt takes steps 1 to 5; the next, once step 6 has set the clock, step 7. -/
def execDaybreak (v : DayView) (s : State) : Host.Outcome State Fault Refusal :=
  if startReady s then .next (beginStart v s)
  else if s.mst == .daybreak && s.boot.step == 6 && s.time.set then .next (decideStart s)
  else .next s

/-- R466: step `k` has passed its limit. Steps 1 to 5 end an attempt that had begun; a JOIN that is not accepted within step 7's
limit ends the start too (R405). -/
def stepOver (k : Nat) (s : State) : Bool :=
  if 1 ≤ k ∧ k ≤ 5 then startReady s
  else if k = 6 then s.mst == .daybreak && s.boot.step == 6 && !s.time.set && partnerActive s && s.boot.stepAt + stepLimit 6 ≤ s.now
  else if k = 7 then
    s.mst == .daybreak && ((s.boot.step == 6 && s.time.set)
      || (s.boot.step == 8 && s.link.joinSent && !s.link.joinAccepted && s.boot.stepAt + stepLimit 7 ≤ s.now))
  else false

/-- R527, R528: what an attempt that breaks the limit of a later step has read in step 1: the straps of the module's slot, and the identity
memory, whose content is free. -/
def timeoutCarrier (s : State) : State :=
  let read := Config.freeNat s.fresh % 2 == 0
  let v : DayView :=
    { strapA := !slotB s, strapB := slotB s, carid := if read then some (freeWords 4 (bump s)) else none, flashOk := true
      stepTicks := [], detectorFail := [], comparatorFail := [], forcingOk := true }
  readCarrier v { s with fresh := s.fresh + 5 }

/-- DAYBREAK_STEP_TIMEOUT (R405, R466). -/
def execDaybreakStepTimeout (step : Fin 8) (s : State) : Host.Outcome State Fault Refusal :=
  let k := step.val
  if !stepOver k s then .next s
  else
    let s := if k ≤ 5 then startAttempt s else s
    let s := if 2 ≤ k ∧ k ≤ 5 then timeoutCarrier s else s
    let s := if 3 ≤ k ∧ k ≤ 5 then enterFirmware s else s
    .next (failStart { code := 0xA09, step := k, slot := if k = 3 ∨ k = 4 then 1 else 0 } s)

/-- R21, R474, R561: transition 2, which the sessions learn before the internal reset of everything but the Nightwatch and the start
record ends them. -/
def retryStart (s : State) : State := internalReset (stateNotices { s with mst := .daybreak, mlast := 1 })

/-- RETRY_WAIT_EXPIRY (R474). -/
def execRetryWaitExpiry (s : State) : Host.Outcome State Fault Refusal :=
  match s.boot.waitEnd with
  | some t => if s.mst == .daybreak && t ≤ s.now then .next (retryStart s) else .next s
  | none => .next s

/-! The end of a clone (R406). -/

/-- A container written to both banks as valid. -/
def writeBoth (slot : Nat) (h : Header) (ws : List Word) (s : State) : State :=
  let x : Slot := { st := .valid, hdr := some h, words := ws }
  modBoot (fun b => { b with slots := tabSet {} (tabSet {} b.slots slot x) (2 + slot) x }) s

/-- A clone that has come whole: its header and payload. -/
def wholeClone (s : State) (ty : Nat) : Option (Header × List Word) :=
  match cloneOf s ty with
  | some c => if c.2.length = cloneFrames c.1 then some (c.1, clonePayload c.2) else none
  | none => none

/-- The firmware VERSION the module will run: the cloned one, or its own. -/
def cloneVersion (s : State) : Nat :=
  match wholeClone s 0 with
  | some f => f.1.version
  | none => (reg s updFwVer).toNat

/-- CLONE_COMPLETE (R406): the configuration, and the firmware if one was sent, have come whole and verify; the module writes them and
restarts. -/
def execCloneComplete (s : State) : Host.Outcome State Fault Refusal :=
  if !wantsClone s then .next s
  else match wholeClone s 1 with
    | none => .next s
    | some c =>
      if (cloneOf s 0).isSome && (wholeClone s 0).isNone then .next s
      else if cloneVersion s < c.1.compat then .next (refuseClone 1 s)
      else
        let s := match wholeClone s 0 with | some f => writeBoth 0 f.1 f.2 s | none => s
        .next (restart (raise 0x722 (dayN s % 2 ^ 36) (writeBoth 1 c.1 c.2 s)))

end Sys2Proof.Machine
end

