-- ==== Sys2Proof/Machine/DayEv.lean ====
section
/-! DEFINITION. The day: midnight with the transitions it takes, the starts of engines and the mandate record, the day watchdog, and the
fabric's speed and slack (R17, R21 to R23, R26, R155 to R160, R173, R182, R183, R190 to R194, R396 to R401, R452). -/

namespace Sys2Proof.Machine

/-! Speed (R155, R157). -/

/-- R159: a cluster's temperature of this day: above 110 °C counts it as hot, a failed sensor takes it out of HOT. -/
def noteHot (c : Nat) (tj : Option (BitVec 9)) (d : Day) : Day :=
  match tj with
  | some t => if 110 < t.toInt && !d.hot.contains c then { d with hot := c :: d.hot } else d
  | none => { d with hot := d.hot.filter (· != c) }

/-- SPEED_MEASUREMENT (R155, R157, R159): a speed index and a junction temperature; none where it fails its plausibility check. The
index reported is the mean of the last 8, truncated, and of those there are while there are fewer; a failed measurement begins them
anew, and a failed sensor leaves TJ as it stood (DESIGN CHOICE, log entry 125). -/
def execSpeedMeasurement (c : Fin 64) (idx : Option (BitVec 12)) (tj : Option (BitVec 9)) (s : State) :
    Host.Outcome State Fault Refusal :=
  let l := match idx with
    | some v => (v.toNat :: tabGet [] s.speeds c.val).take 8
    | none => []
  let shown := if idx.isSome && tj.isSome then l.sum / l.length else 0xFFF
  let s := setF { s with speeds := tabSet [] s.speeds c.val l } (fabSpeed c) 11 0 shown
  let s := match tj with
    | some t =>
      modTelem (fun x => { x with maxTemp := Max.max x.maxTemp t.toInt }) (setF s (fabSpeed c) 20 12 t.toNat)
    | none => s
  let s := modDay (noteHot c.val tj) s
  let s := if shown ≠ 0xFFF ∧ s.telem.maxSpeed ≤ shown then
      modTelem (fun x => { x with maxSpeed := shown, maxCluster := c.val }) s else s
  .next (if idx.isNone || tj.isNone then raise 0x115 (16 * c.val) (setBit s fabStatus 6) else s)

/-! The day watchdog (R190, R191). -/

/-- R131, R190: the scheduled release of the engine's next instruction lies beyond the day, `last` being tick T. -/
def releaseBeyond (s : State) (e last : Nat) : Bool :=
  let x := engine s e
  let w := memGet s (0x02000000 + e * 0x1000 + x.pos)
  let op := Word.field w 31 26
  x.rest == .run && last ≤ x.prev + (if op = 1 ∨ op = 2 then 1 else Word.field w 35 32)

/-- R191: in BENCH the engine rests as after DONE. -/
def abandonWork (e : Nat) (s : State) : State :=
  let x := engine s e
  let s := modEngine e (fun x => { x with rest := .done, loops := [], lockOpen := false, lockCnt := 0 }) s
  if x.rest == .run then traceRest e 1 2 x.pos s else s

/-- R190, R191, R580: one engine. -/
def watchEngine (e : Nat) (s : State) : State :=
  let x := engine s e
  if !x.ran || x.halted || x.rest == .done || x.rest == .idle then s
  else
    let beyond := releaseBeyond s e (s.now - dayTick s + dayT s)
    let s := overrun 0x210 e x.pos s
    let s := if beyond then overrun 0x211 e x.pos s else s
    match s.mst with
    | .active => breach s
    | .bench => abandonWork e s
    | _ => s

/-- R197: the change loader has not finished its day. -/
def watchLoader (s : State) : State :=
  if changeDayNow s && !s.day.changeDone then loaderOverrun s else s

/-- DAY_WATCHDOG_CHECK (R190 to R192): at the end of tick T − 1, in the states in which plans run. -/
def execDayWatchdogCheck (s : State) : Host.Outcome State Fault Refusal :=
  if !s.day.run || s.day.wdDone || dayTick s + 1 ≠ dayT s || !(s.mst == .active || s.mst == .bench) then .next s
  else .next (watchLoader (forUpto 1024 watchEngine (modDay (fun d => { d with wdDone := true }) s)))

/-! The end of the day before (R158 to R160, R173). -/

/-- R158: an engine's least slack of the day. -/
def slackOf (x : Engine) : Nat := if x.ran then 2 ^ 11 + x.minClass * 2 ^ 8 + x.minSlack else 255

/-- R158, R570: the slack registers, and the second's least. -/
def slackMidnight (s : State) : State :=
  let s := forUpto 1024 (fun e s => setReg s (fabSlack e) (word (slackOf (engine s e)))) s
  let s := setReg s fabMinSlack (word (s.dayMinEng * 2 ^ 8 + s.dayMin))
  let s := modTelem (fun t => if s.dayMin < t.minSlack then { t with minSlack := s.dayMin, minEngine := s.dayMinEng } else t) s
  { s with dayMin := 255, dayMinEng := 0 }

/-- R159: an indication and its fault, which a condition that lasts does not repeat. -/
def indicate (b code : Nat) (unit : Option Nat) (s : State) : State :=
  match unit with
  | some u => if bitOf s fabStatus b then s else raise code u (setBit s fabStatus b)
  | none => s

/-- R159: the first cluster whose speed index exceeds a threshold, by its lowest engine. -/
def fastest (s : State) (lim : Nat) : Option Nat :=
  ((List.range 64).find? fun c => getF s (fabSpeed c) 11 0 != 0xFFF && lim < getF s (fabSpeed c) 11 0).map (16 * ·)

/-- R159: the engine of the fabric's least slack, where that is below a threshold. -/
def leastSlack (s : State) (lim : Nat) : Option Nat :=
  if getF s fabMinSlack 7 0 < lim then some (getF s fabMinSlack 17 8) else none

/-- R159: the indications of the day just ended. -/
def indications (s : State) : State :=
  let s := indicate 1 0x110 (fastest s (getF s fabSpdTh 11 0)) s
  let s := indicate 2 0x111 (fastest s (getF s fabSpdTh 23 12)) s
  let s := indicate 3 0x112 (leastSlack s (getF s fabSlkTh 7 0)) s
  let s := indicate 4 0x113 (leastSlack s (getF s fabSlkTh 15 8)) s
  modDay (fun d => { d with hot := [] }) (indicate 5 0x114 (((List.range 64).find? s.day.hot.contains).map (16 * ·)) s)

/-- R160: SPDALM, SLKALM or HOT is newly set. -/
def newAlarm (before after : State) : Bool := [2, 4, 5].any fun b => bitOf after fabStatus b && !bitOf before fabStatus b

/-- R160: a switchover for the earliest day. -/
def autoSwitch (s : State) : State :=
  match switchReason s (s.day.n + 2) with
  | none => armSwitch (s.day.n + 2) s
  | some r => refuseSwitch r s

/-- R159, R160. -/
def alarms (s : State) : State :=
  let t := indications s
  if newAlarm s t && bitOf s fabCtrl 0 && s.mst == .active && partnerReady s then autoSwitch t else t

/-- R173: the midnight's offset from the grid of the clock, the nearer one. -/
def alignOffset (s : State) : Int :=
  let g := gridOffset s
  if dayL s * 64000 < 2 * g then (g : Int) - (dayL s * 64000 : Nat) else g

/-- R303, R320: the grid loop steers the oscillator; the spec gives its control value no formula. A holdover without a learned trend
holds it. -/
def steer (s : State) : State :=
  if 7 ≤ timeCode s && !bitOf s timOsc 25 then s
  else
    let v := Config.freeNat s.fresh % 2 ^ 24
    let lim := v == 0 || v == 2 ^ 24 - 1
    let was := bitOf s timOsc 24
    let s := setBit (setF (bump s) timOsc 23 0 v) timOsc 24 lim
    if lim && !was then timeFault 0x50E (timeSrc s) (setBit s timStatus 8) else s

/-- R173: DAY_ALIGN. -/
def alignMidnight (s : State) : State :=
  let s := steer s
  let o := alignOffset s
  let s := setF s dayAlign 17 0 ((clampInt 131071 o) % 2 ^ 18).toNat
  let s := modTelem (fun t => { t with align := getF s dayAlign 17 0 }) s
  if oneUs < o ∨ o < -oneUs then raise 0x220 0 (setBit s dayStatus 3) else s

/-- N advances and the new day begins at tick 0. -/
def newDay (s : State) : State :=
  { modDay (fun d => { d with n := (d.n + 1) % 2 ^ 48, tick := 0, cutDone := false, wdDone := false, noonDone := false }) s with violMasters := [] }

/-! Transitions (R21 to R23, R396, R399, R400). -/

/-- R317, R482, R512, R513, R566: what every transition does: the staged change goes, the time source is chosen by the new state's
order, a grant that the new state forbids ends. -/
def enterState (m : MState) (s : State) : State :=
  let s := reselect { discardStaged s with mst := m, mlast := mstCode s.mst }
  if getF s secDbg 1 0 = 3 ∧ (m = .active ∨ m = .standby) then endGrant s else s

/-- R26: watching of the day heartbeat begins. -/
def watchDay (s : State) : State := modNwt (fun n => { n with dayFrom := some s.now }) s

/-- R475, R552: a start has completed. -/
def startDone (s : State) : State :=
  raise 0xA10 (runBank s * 2 ^ 4) (modBoot (fun b => { b with attempts := 0, lastBank := 0, tried := false, benchDue := false, netSaved := b.net })
    (setF s updBoot 23 8 0))

/-- A stop that is not carried out. -/
def dropStop (status : Nat) (ws : List Word) (s : State) : State :=
  match s.stopReq with
  | some r => doneNotice r.2 status ws { s with stopReq := none, stopActivate := false }
  | none => { s with stopActivate := false }

/-- The owner of a planned switchover learns its outcome. -/
def switchDone (status : Nat) (ws : List Word) (s : State) : State :=
  match s.link.swOwner with
  | some r => doneNotice r status ws s
  | none => s

/-- R23: a switchover that another cause displaced. -/
def dropSwitch (s : State) : State :=
  if reg s pairSwDay = 0 then s else endSwitch 4 (switchDone 0x31 [] s)

/-- The checkpoint as a module that joins or leaves a pair finds it. -/
def clearCheckpoint (l : Link) : Link :=
  { l with
    dirty := [], frozen := [], kept := [], images := [], frozenImg := [], streamed := [], streamedImg := [], stream := false
    sweepPos := 0, sweepLeft := 0, sweepBlk := 0, acked := false, ended := false, rx := [], rxSweep := [], rxEnd := none
    rxBad := false, complete := none, commit := none, consec := 0, lastOk := none, claimDay := none, confirmed := false
    yielded := none, decided := none, joinSent := false, endSent := false }

/-- R355, R389, R405: entering STANDBY, by transition 3 or 7. The sweep share that a Daybreak has received in the Night before counts for
the first checkpoint. -/
def enterStandby (s : State) : State :=
  watchDay (modLink (fun l => { clearCheckpoint l with rxSweep := if s.mst == .daybreak then l.rxSweep else [] }) (setBit (stopChains (enterState .standby s)) pairCkSt 8 false))

/-- R355, R448: entering ACTIVE: the chains with AUTO start. -/
def enterActive (s : State) : State :=
  autoStart (watchDay (modLio (fun x => { x with heldAt := s.now }) (enterState .active s)))

/-- A fault of the pair range without a mark (R582). -/
def dayFault (code : Nat) (s : State) : State := raise code (dayN s % 2 ^ 36) s

/-- R401: a count of the mandate record rises, and its day is noted. -/
def recordEvent (day count : Nat) (s : State) : State :=
  tsWrite count (tsPeek s count + 1) (tsWrite day (word (s.day.n % 2 ^ 36)) s)

/-- R296, R326, R396, R434, R449, R453: what starts with transition 6. -/
def takeOver (s : State) : State :=
  let s := safTakeover (loadReadback s)
  let s := { s with eng := s.eng.foldl (fun t p => tabSet {} t p.1 (restoreCounts s.now p.2)) [] }
  let s := forUpto 256 portTakeover s
  modLio (fun x => { x with chans := x.chans.foldl (fun t c => tabSet {} t c.1 { c.2 with refresh := 0 }) [] }) s

/-- Transition 6: a takeover, or the partner's planned switchover of the day before, `planned`. -/
def transition6 (planned : Bool) (s : State) : State :=
  let s := enterActive (setBit s pairCkSt 8 false)
  let s := takeOver s
  let s := modLink (fun l =>
    { clearCheckpoint l with joinAccepted := planned, partVer := if planned then some (getF s updPairVer 7 0) else none }) s
  if planned then dayFault 0x711 (recordEvent 0x19 0x1B s) else dayFault 0x710 (recordEvent 0x18 0x1A s)

/-- R18, R22: transitions 8 and 9: STOPPED, the day sequencer with it. -/
def enterStopped (s : State) : State :=
  let s := stopChains (enterState .stopped (dropSwitch s))
  let s := modLink clearCheckpoint (clearLatch s)
  let s := { s with eng := s.eng.foldl (fun t p => tabSet {} t p.1
    { p.2 with rest := if p.2.rest == .idle then .idle else .done, loops := [], lockOpen := false, lockCnt := 0 }) [] }
  modNwt (fun n => { n with dayFrom := none }) (modDay (fun d => { d with run := false }) s)

/-- Transitions 8 and 9, the notices of them, and the activation that a stop may carry. -/
def stopModule (s : State) : State :=
  let act := s.stopActivate
  let r := s.stopReq
  let s := enterStopped { s with stopReq := none, stopActivate := false }
  let s := match r with | some r => doneNotice r.2 0 [] s | none => s
  let s := stateNotices s
  if act then restart s else s

/-- R400: the partner's claim was confirmed. A loop that no longer reads claimed shows that it was not; nothing tells the old active what
the partner confirmed at T − 1 of a loop that still does: a free value (log entry 126). -/
def partnerConfirmed (s : State) : Bool := s.link.part == .claimed && Config.freeNat s.fresh % 2 == 1

/-- R23, R399, R400: transition 7, or 9 where a stop is carried out as a switchover; a forced stop of the same midnight is not carried out.
Where the partner's claim was not confirmed, no switchover was made and the module claims nothing; a stop carried out so is still done,
by transition 9 (DESIGN CHOICE, log entry 153). -/
def switchOut (s : State) : State :=
  let made := partnerConfirmed s
  let s := bump s
  let s := if made then switchDone 0 [] s else switchDone 0x30 [word 0x713, 0] s
  let s := endSwitch (if made then 3 else 5) (clearLatch s)
  let s := if made then recordEvent 0x19 0x1B (dayFault 0x711 s) else s
  let s := if forcedStop s then dropStop 0x31 [] s else s
  match s.stopReq with
  | some _ => stopModule s
  | none => stateNotices (enterStandby s)

/-- R23, R400, R561: the fallback: the old active keeps the mandate. A stop that was carried out as the switchover has failed with it; a
forced stop of this midnight is cancelled. -/
def switchBack (s : State) : State :=
  let ws := [word 0x713, 0]
  let s := switchDone 0x30 ws s
  let s := if forcedStop s then dropStop 0x31 [] s else dropStop 0x30 ws s
  dayFault 0x713 (endSwitch 5 (modLink (fun l => { l with claimDay := none, confirmed := false }) s))

/-- R399: day W begins. A forced stop of the same midnight is not carried out. -/
def switchBegin (s : State) : State :=
  runSwitch (if forcedStop s then dropStop 0x31 [] s else s)

/-- R401, R405: a module joins. No frame carries the partner's serial number, which the record of R401 wants: free words. -/
def joined (s : State) : State := { modLink (fun l => { l with partSerial := freeWords 4 s }) s with fresh := s.fresh + 4 }

/-- R467: the outcomes of a start. -/
def leaveDaybreak (s : State) : State :=
  if s.boot.step ≠ 8 then s
  else if s.boot.benchDue then stateNotices (autoStart (startDone (enterState .bench s)))
  else if s.link.joinAccepted then stateNotices (startDone (enterStandby (joined s)))
  else if s.link.confirmed then
    stateNotices (enterActive (startDone (modLink (fun l => { l with claimDay := none, confirmed := false, joinSent := false }) s)))
  else s

/-- R396, R399: a confirmed claim of a standby: its partner's switchover of the day before, or a takeover. -/
def leaveStandby (old : Nat) (s : State) : State :=
  let planned := match s.link.heard with
    | some n => n.swDay != 0 && n.swDay == word (old % 2 ^ 36)
    | none => false
  stateNotices (transition6 planned (dropStop 0x31 [] s))

/-- R21, R23: the one transition of the midnight that follows day `old`, the highest cause first. -/
def transitions (old : Nat) (s : State) : State :=
  match s.mst with
  | .daybreak => leaveDaybreak s
  | .standby => if s.link.confirmed then leaveStandby old s else if s.stopReq.isSome then stopModule s else s
  | .active =>
    if s.link.swReleased then
      (if s.link.swReclaimed && s.link.confirmed then switchBack s else switchOut s)
    else if switchesOn s s.day.n then switchBegin s
    else if forcedStop s then stopModule s
    else s
  | .bench => if s.stopReq.isSome then stopModule s else s
  | .stopped => s

/-- R23, R195, R198: the activation day of a change begins, unless a higher cause took the midnight, be it to end a switchover, or a breach
ended the days. -/
def changeMidnight (before s : State) : State :=
  if s.day.changeDay ≠ some s.day.n ∨ s.day.halted then s
  else if s.mst != before.mst || s.link.swRunning || before.link.swRunning then cancelChange s
  else beginChange s

/-! The new day (R180, R182, R183, R193, R194). -/

/-- R26, R150, R193: the day heartbeat. -/
def heartbeat (s : State) : State :=
  if (s.mst == .standby || s.mst == .active) && !s.day.beatHeld then modNwt (fun n => { n with dayFrom := some s.now }) s else s

/-- R452: the Nightwatch's copy of channel `l`'s safe state; a split word leaves it as it stood. -/
def latchSafe (l : Nat) (s : State) : State :=
  let r := tsRead (0x100 + l) s
  if tsVoteOf r.2 (0x100 + l) == .split then r.2
  else modChan l (fun c => { c with latch := safeStateOf r.1 }) r.2

/-- R150, R183, R453: the captured outputs; after a breach none receives a new refresh. -/
def outputsMidnight (s : State) : State :=
  if s.day.halted then s else forUpto 24 (outputMidnight (holds s)) s

/-- R180: the engine's task is due today. -/
def dueToday (s : State) (e : Nat) : Bool :=
  let w := wordAt s.day.table (6 + (engine s e).rate)
  let m := slice w 11 0
  m != 0 && dayK s % m == slice w 23 12

/-- R18, R150, R196, R399, R580: engine `e` starts at plan word 0 today. -/
def startsToday (s : State) (e : Nat) : Bool :=
  let x := engine s e
  (s.mst == .active || s.mst == .bench) && !s.day.halted && !s.link.swRunning && !bitOf s dayStatus 7
    && x.role != 0 && x.len != 0 && !x.halted && (x.rest == .idle || x.rest == .done) && dueToday s e

/-- R126, R204: the first instruction counts from the start tick, D later on a trailing engine. A bracket that a false UNLOCK has left
open at DONE has stayed open, and is closed here without a fault (DESIGN CHOICE, log entry 155). -/
def startEngine (e : Nat) (s : State) : State :=
  let x := engine s e
  let d := if trailsJoined s e then (pairOf s (e / 2)).d else 0
  let s := if x.rest == .done then traceRest e 2 3 0 s else s
  modEngine e (fun x => { x with
    pos := 0, loops := [], lockOpen := false, lockCnt := 0, rest := .run, prev := s.now + x.start + d, ran := true
    base := s.now, ord := if trailsJoined s e then (engine s (e - 1)).ord else x.ord
    minSlack := 255, minClass := 0, entry := none }) s

/-- An engine at a midnight. -/
def engineMidnight (e : Nat) (s : State) : State :=
  if startsToday s e then startEngine e s
  else modEngine e (fun x => { x with
    ran := !(x.rest == .idle || x.rest == .done), minSlack := 255, minClass := 0, base := if x.halted then s.now else x.base }) s

/-- R401: a word of the mandate record is brought up to date; one that reads as split stays so (R226). -/
def mandateWord (off : Nat) (v : Word) (s : State) : State :=
  if tsVoteOf s off == .split || tsPeek s off == v then s else tsWrite off v s

/-- R401: the mandate record. -/
def mandateRecord (s : State) : State :=
  let ws := (List.range 4).map (fun i => (0x10 + i, Config.serial i)) ++ s.link.partSerial.mapIdx (fun i w => (0x14 + i, w))
    ++ [(0x1C, reg s pairCk)]
  ws.foldl (fun t x => mandateWord x.1 x.2 t) s

/-- R575: the midnight record. -/
def traceMidnight (s : State) : State :=
  if bitOf s dbgTrCtl 35 && bitOf s dbgTrCtl 32 then traceRec 3 0 0 (s.day.n % 2 ^ 36) 0 s else s

/-- Tick 0 of a day that runs; a standby decides where it has just entered STANDBY, or where the partner's switchover held that back,
`anew` (R394, R395). -/
def dayStart (anew : Bool) (s : State) : State :=
  let s := heartbeat s
  let s := outputsMidnight (forUpto 24 latchSafe (forUpto 24 sampleChan s))
  let s := safMidnight (forUpto 8 loopMidnight s)
  let s := syncMidnight (forUpto 256 portMidnight s)
  let s := postEvent 0x0B00 (dayK s) (traceMidnight s)
  let s := mandateRecord (forUpto 1024 engineMidnight s)
  decideAtMidnight anew (modLink (fun l => { l with acked := false, rx := [], rxEnd := none, rxBad := false, complete := none }) (loadUpdate s))

/-- R513: a grant whose last valid day is over ends. -/
def grantDay (s : State) : State :=
  match s.grant with
  | some g => if g.2.lastDay < s.day.n then endGrant s else s
  | none => s

/-- What a midnight does before it takes its transition. -/
def endDay (s : State) : State :=
  let s := alignMidnight (alarms (slackMidnight (newDay s)))
  let s := grantDay (applyLater (applyRegions s))
  if bitOf s dayStatus 7 then finishChange s else s

/-- MIDNIGHT (R193): tick T of the day is over. -/
def execMidnight (s : State) : Host.Outcome State Fault Refusal :=
  if !s.day.run || s.day.tick < dayT s || dayT s = 0 then .next s
  else
    let t := transitions s.day.n (endDay s)
    .next (if t.day.run then dayStart (s.mst != t.mst || partnerSwitches s) (changeMidnight s t) else t)

end Sys2Proof.Machine
end

