-- ==== Sys2Proof/Machine/HostSvc.lean ====
section
/-! DEFINITION. Host sessions and how a request is served (R551 to R562, R508 to R511), the network rules, the random number generator
(R504, R505), and what a session's end leaves behind (R482, R513). -/

namespace Sys2Proof.Machine

/-! Sessions as a table in rising order of their numbers. -/

def hostSess (s : State) (n : Nat) : Option HostSess := (s.sess.find? (·.1 == n)).map (·.2)

/-- The table with session `n` as `x`, which need not be open before. -/
def insertSess (n : Nat) (x : HostSess) : List (Nat × HostSess) → List (Nat × HostSess)
  | [] => [(n, x)]
  | y :: t => if n < y.1 then (n, x) :: y :: t else if n = y.1 then (n, x) :: t else y :: insertSess n x t

def putSess (n : Nat) (x : HostSess) (s : State) : State := { s with sess := insertSess n x s.sess }

/-- R566: a role set, bit 0 MONITOR to bit 4 SERVICE. -/
def roleBits (r : List Role) : Nat :=
  flagAt 0 (r.contains .monitor) + flagAt 1 (r.contains .operator) + flagAt 2 (r.contains .engineer)
    + flagAt 3 (r.contains .secadmin) + flagAt 4 (r.contains .service)

/-- SEC_RNGST.READY. -/
def rngReady (s : State) : Bool := bitOf s secRngSt 0

/-! Connections (R508 to R511, R551 to R555). -/

/-- R553: host connections are accepted from the end of Daybreak step 2 on. -/
def listening (s : State) : Bool := !s.nwt.inReset && (s.mst != .daybreak || 3 ≤ s.boot.step)

/-- R510, R552: the network and access settings in force. -/
def netSettings (s : State) : List Word :=
  if s.mst != .daybreak || 6 ≤ s.boot.step || !s.boot.net.isEmpty then s.boot.net else s.boot.netSaved

/-- R510: the role set of the first owner access anchor, and then of the first access entry, whose fingerprint is in the chain. -/
def rolesOf (s : State) (chain : List Nat) : Option (List Role) :=
  match s.vault.find? fun v => 20 ≤ v.1 && v.1 ≤ 23 && chain.contains v.2.finger with
  | some v => some v.2.roles
  | none => ((Config.accessRoles (netSettings s)).find? fun x => chain.contains x.1).map (·.2)

/-- Ticks within the last second. -/
def lastSecond (s : State) (l : List Nat) : List Nat := l.filter fun t => s.now < t + secTicks 1

/-- R510: a failed handshake, with fault 0xB30 at most once per second for each peer address. -/
def tlsFailed (peer : BitVec 32) (s : State) : State :=
  let t := tabGet 0 s.net.tlsAt peer.toNat
  let s := setBit s secStatus 1
  if t = 0 ∨ t + secTicks 1 ≤ s.now + 1 then
    raise 0xB30 peer.toNat { s with net := { s.net with tlsAt := tabSet 0 s.net.tlsAt peer.toNat (s.now + 1) } }
  else s

/-- R551, R552: the settings of the network of a port pair (0: N1 and N2): those of the configuration, or the defaults of a module that
never completed a start. -/
def netOf (s : State) (k : Nat) : NetAddr :=
  match netSettings s with
  | [] => ⟨BitVec.ofNat 32 (192 * 2 ^ 24 + 168 * 2 ^ 16 + (236 + k) * 2 ^ 8 + 10 + flagAt 0 (slotB s)), 24, none⟩
  | l => Config.network l k

/-- R551: the TCP port of the host service. -/
def hostPort (s : State) : Nat :=
  match netSettings s with
  | [] => 8936
  | l => Config.hostPort l

/-- R508: the vault slot whose certificate authenticates the module: the owner's if it is installed. -/
def serverSlot (s : State) : Nat := if s.vault.any fun v => v.1 == 1 && v.2.octets != 0 then 1 else 0

/-- R508: the trust anchors. -/
def anchors (s : State) : List (Nat × VaultItem) := s.vault.filter fun v => 10 ≤ v.1 && v.1 ≤ 17

/-- R508: each certificate of a chain is issued by the next one, and the last by a trust anchor, unless it is one. -/
def anchored (s : State) : List Cert → Bool
  | [] => false
  | [c] => (anchors s).any fun v => v.2.finger == c.issuer || v.2.finger == c.finger
  | c :: d :: t => c.issuer == d.finger && anchored s (d :: t)

/-- R506, R508: the revocation list of the trust anchor that issued a certificate names it. -/
def revokedBy (s : State) (c : Cert) : Bool :=
  (anchors s).any fun v => v.2.finger == c.issuer && s.vault.any fun l => l.1 == 22 + v.1 && l.2.revoked.contains c.number

/-- The lowest number no session has. -/
def freeSess (s : State) : Option Nat := (List.range 8).find? fun n => !sessOpen s n

/-- R560: the place of a session that opens now. -/
def nextRank (s : State) : Nat := (s.sess.map (·.2.rank)).foldl Nat.max 0 + 1

/-- R553, R555, R566: a session begins with its OPENED notice; a ninth is closed in its place. -/
def openSess (port : Nat) (roles : List Role) (s : State) : State :=
  match freeSess s with
  | some n =>
    emit (.notice n 1 0 0 [word (n + 1), word (roleBits roles), viewMid s 0x10])
      (putSess n { roles := roles, last := s.now, port := port, rank := nextRank s, server := serverSlot s, keyAt := s.now } s)
  | none => emit (.notice 8 2 0 0 [word 1]) s

/-- R509: the local clock in UTC lies within the certificate's validity period. -/
def certValid (s : State) (c : Cert) : Bool :=
  let utc : Int := (s.time.sec : Int) - utcOffset s
  c.notBefore ≤ utc && utc ≤ c.notAfter

/-- R507 to R509: the chain of a client's certificates is accepted: 1 to 4 of them, each valid now, none revoked, up to a trust anchor; in
delivery state any. -/
def chainOk (s : State) (chain : List Cert) : Bool :=
  !chain.isEmpty && chain.length ≤ 4 && chain.all (certValid s) && (delivery s || (anchored s chain && !chain.any (revokedBy s)))

/-- HOST_CONNECTION (R505, R507 to R511, R551, R553, R555). `chain` holds the client's certificate and the CA certificates in its chain. -/
def execHostConnection (port : Fin 4) (peer : BitVec 32) (dial : Dial) (chain : List Cert) (s : State) :
    Host.Outcome State Fault Refusal :=
  if !listening s then .next s
  else
    let recent := lastSecond s s.net.conns
    if dial.dest != (netOf s (port / 2)).addr || dial.tcp != hostPort s || 4 ≤ recent.length then .next (dropTraffic port peer s)
    else
      let s := { s with net := { s.net with conns := recent ++ [s.now] } }
      if !(dial.tlsOk && rngReady s && chainOk s chain) then .next (tlsFailed peer s)
      else
        let s := drawn s
        if delivery s then .next (openSess port [] s)
        else match rolesOf s (chain.map (·.finger)) with
          | some r => .next (openSess port r s)
          | none => .next (raise 0xB31 peer.toNat (setBit s secStatus 2))

/-- A session closes with a reason, if it is open. -/
def closeIf (reason n : Nat) (s : State) : State := if sessOpen s n then closeSess reason n s else s

/-- SESSION_IDLE_TIMEOUT (R555): 300 s without a request. -/
def execSessionIdleTimeout (sess : Fin 8) (s : State) : Host.Outcome State Fault Refusal :=
  match hostSess s sess with
  | some x => if x.last + secTicks 300 ≤ s.now then .next (closeSess 2 sess s) else .next s
  | none => .next s

/-- TLS_FAILURE (R555). -/
def execTlsFailure (sess : Fin 8) (s : State) : Host.Outcome State Fault Refusal := .next (closeIf 6 sess s)

/-- R508: what has been sent to a session under its present keys, a record for each frame (log entry 168). -/
def keyRecords (s : State) (n : Nat) : Nat :=
  ((s.out.reverse.takeWhile fun o => o != .keyUpdate n).filter fun o => match o with
    | .response m _ _ _ _ | .notice m _ _ _ _ => m == n
    | _ => false).length

/-- R508: KeyUpdate is due after 2^24 records or 1 h. -/
def keysDue (s : State) (n : Nat) (x : HostSess) : Bool := x.keyAt + secTicks 3600 ≤ s.now || 2 ^ 24 ≤ keyRecords s n

/-- KEY_UPDATE (R508): the session's keys change where that is due; it goes on. -/
def execKeyUpdate (sess : Fin 8) (s : State) : Host.Outcome State Fault Refusal :=
  match hostSess s sess with
  | some x => .next (if keysDue s sess x then emit (.keyUpdate sess) (putSess sess { x with keyAt := s.now } s) else s)
  | none => .next s

/-- NETWORK_FRAME_DROP (R511). -/
def execNetworkFrameDrop (port : Fin 4) (peer : BitVec 32) (s : State) : Host.Outcome State Fault Refusal :=
  .next (dropTraffic port peer s)

/-- ICMP_ECHO (R511): answered, at most 10 per second per port pair; one beyond that is dropped. -/
def execIcmpEcho (port : Fin 4) (ident : Nat) (s : State) : Host.Outcome State Fault Refusal :=
  let k := port.val / 2
  let recent := lastSecond s (tabGet [] s.net.echoes k)
  if recent.length < 10 then
    .next (emit (.icmp port ident) { s with net := { s.net with echoes := tabSet [] s.net.echoes k (recent ++ [s.now]) } })
  else .next (dropUnnamed port s)

/-! The random number generator (R504, R505). -/

/-- RNG_READY (R504). -/
def execRngReady (s : State) : Host.Outcome State Fault Refusal :=
  if rngReady s then .next s
  else .next (raise 0xB21 0 (setReg { s with rng := { draws := 0, seededAt := s.now } } secRngSt (word (512 * 2 + 1))))

/-- RNG_HEALTH_FAIL (R505): after READY. -/
def execRngHealthFail (s : State) : Host.Outcome State Fault Refusal :=
  if rngReady s then .next (raise 0xB20 0 (setBit (setReg s secRngSt 0) secStatus 0)) else .next s

/-- DRBG_RESEED (R504): 384 bits of full entropy more have passed, where a reseed is due. -/
def execDrbgReseed (s : State) : Host.Outcome State Fault Refusal :=
  .next (if rngReady s && reseedDue s then reseed s else s)

/-! What ends by itself (R482, R513). -/

/-- The day number, on a clock whose day sequencer is stopped too. -/
def presentDay (s : State) : Nat := if s.day.run then s.day.n else clockDay s

/-- GRANT_EXPIRY (R513): the grant's last valid day is over. -/
def execGrantExpiry (s : State) : Host.Outcome State Fault Refusal :=
  match s.grant with
  | some g => if g.2.lastDay < presentDay s then .next (endGrant s) else .next s
  | none => .next s

/-- UPDATE_SESSION_LOSS (R482): 60 s without an OPEN repeated. -/
def execUpdateSessionLoss (s : State) : Host.Outcome State Fault Refusal :=
  match s.boot.session with
  | some u =>
    match u.lostAt with
    | some t =>
      if t + secTicks 60 ≤ s.now then
        .next (raise 0xA23 (sessDetail s) (setBit (setF (modBoot (fun b => { b with session := none }) s) updSess 3 0 5) updStatus 4))
      else .next s
    | none => .next s
  | none => .next s

/-! Serving a request (R554, R557 to R563). -/

/-- R562: status codes. -/
def stOk : Nat := 0x000
def stAccepted : Nat := 0x001
def stRole : Nat := 0x010
def stState : Nat := 0x011
def stBusy : Nat := 0x012
def stConflict : Nat := 0x013
def stNoRandom : Nat := 0x014
def stDelivery : Nat := 0x015
def stFormat : Nat := 0x020
def stCode : Nat := 0x021
def stRange : Nat := 0x022
def stRefused : Nat := 0x030
def stCancelled : Nat := 0x031

/-! Frames (R556). -/

/-- R556: the first header word. -/
def reqHead (kind code : Nat) (tag : BitVec 20) : Word := word (kind * 2 ^ 32 + code % 4096 * 2 ^ 20 + tag.toNat)

/-- R556: a frame's words: its header and its payload. -/
def hostFrame (kind code status : Nat) (tag : BitVec 20) (ws : List Word) : List Word :=
  reqHead kind code tag :: word (status % 4096 * 2 ^ 24 + ws.length) :: ws

/-- R556, R557: what leaves the module for a host session, as the octets of its frame; nothing for any other output. -/
def sentFrame (o : Out) : List Nat :=
  match o with
  | .response _ tag code status ws => wordOctets (hostFrame 2 code status tag ws)
  | .notice _ code tag status ws => wordOctets (hostFrame 3 code status tag ws)
  | _ => []

/-- R556: KIND, CODE and TAG of a first header word, and LEN of a second one. -/
def kindOf (w : Word) : Nat := slice w.toNat 35 32
def codeOf (w : Word) : Nat := slice w.toNat 31 20
def tagOf (w : Word) : BitVec 20 := BitVec.ofNat 20 w.toNat
def lenOf (w : Word) : Nat := slice w.toNat 23 0

/-! Requests (R559 to R563). -/

/-- R563: the roles that permit a request (none listed: any). The checks of a DEBUG command's level are its own. -/
def HostReq.roles : HostReq → List Role
  | .status | .read _ _ | .log _ _ | .telem | .pmucfg _ => [.monitor]
  | .stop f => if f = 1 then [.secadmin] else [.operator]
  | .restart | .switch _ | .unlock _ | .fpline _ _ => [.operator]
  | .uopen c _ _ _ _ _ => if c = 3 then [.secadmin] else [.engineer]
  | .uclose => [.engineer, .secadmin]
  | .ublock _ _ | .ucopy _ | .activate _ _ | .arm _ => [.engineer]
  | .deviceKey | .deviceCert _ | .configKey _ _ | .trustAnchor _ _ | .debugKeys _ _ | .accessAnchor _ _ | .crl _ | .deleteSlot _
  | .listSlots | .zeroise _ => [.secadmin]
  | .dbgchal | .dbggrant _ | .peek _ _ | .take _ _ | .poke _ _ | .halt _ | .resume _ | .step _ _ | .regs _ | .resting _ _ => [.service]
  | .ident | .echo _ | .commission _ _ _ | .misformed _ | .clash _ | .held _ => []

/-- R563, R578: its command code. -/
def HostReq.code : HostReq → Nat
  | .ident => 0x001
  | .echo _ => 0x002
  | .status => 0x003
  | .read _ _ | .held (.read _ _) => 0x010
  | .log _ _ => 0x011
  | .telem => 0x012
  | .pmucfg _ => 0x013
  | .stop _ => 0x020
  | .restart => 0x021
  | .switch _ => 0x022
  | .unlock _ => 0x023
  | .fpline _ _ => 0x024
  | .uopen _ _ _ _ _ _ => 0x030
  | .ublock _ _ => 0x031
  | .uclose => 0x032
  | .ucopy _ => 0x033
  | .activate _ _ => 0x034
  | .arm _ => 0x035
  | .deviceKey | .deviceCert _ | .configKey _ _ | .trustAnchor _ _ | .debugKeys _ _ | .accessAnchor _ _ | .crl _ | .deleteSlot _
  | .listSlots => 0x040
  | .zeroise _ => 0x041
  | .commission _ _ _ => 0x042
  | .dbgchal => 0x050
  | .dbggrant _ => 0x051
  | .peek _ _ | .take _ _ | .poke _ _ | .halt _ | .resume _ | .step _ _ | .regs _ | .resting _ _ | .held _ => 0x052
  | .misformed c | .clash c => c

/-- R563: the command codes. -/
def commandCodes : List Nat :=
  [0x001, 0x002, 0x003, 0x010, 0x011, 0x012, 0x013, 0x020, 0x021, 0x022, 0x023, 0x024, 0x030, 0x031, 0x032, 0x033, 0x034, 0x035,
   0x040, 0x041, 0x042, 0x050, 0x051, 0x052]

/-- R563: the codes of the commands that are exclusive. -/
def exclusiveCodes : List Nat :=
  [0x020, 0x021, 0x022, 0x023, 0x024, 0x030, 0x032, 0x033, 0x034, 0x035, 0x040, 0x041, 0x042, 0x051]

/-- R560: a request is an exclusive command in progress until it is answered. -/
def HostReq.excl (h : HostReq) : Bool :=
  match h with
  | .clash _ => false
  | _ => exclusiveCodes.contains h.code

/-- R560: an exclusive command is in progress. -/
def exclBusy (s : State) : Bool := s.hostQ.any (·.req.excl)

/-- R562, R563: whether a request's format, the module state, its need of randomness and its parameters' ranges let it be served. -/
structure Service where
  inDelivery : Bool := false
  form : Bool := true
  inState : Bool := true
  random : Bool := false
  range : Bool := true
deriving DecidableEq, Repr

/-- R557: the response to a request. -/
def respond (q : Rq) (code status : Nat) (ws : List Word) (s : State) : State :=
  emit (.response q.sess q.tag code status ws) s

/-- The status that answers a request without serving it, in the order of the checks. -/
def turnedAway (h : HostReq) (v : Service) (x : HostSess) (s : State) : Option Nat :=
  if delivery s != v.inDelivery then some (if delivery s then stDelivery else stState)
  else if !v.form then some stFormat
  else if !(h.roles.isEmpty || x.roles.any (h.roles.contains ·)) then some stRole
  else if !v.inState then some stState
  else if v.random && !rngReady s then some stNoRandom
  else if !v.range then some stRange
  else none

/-- R553, R559: a request of an open session whose turn has come is answered, served by `body` unless it is turned away. -/
def serveRequest (q : Rq) (h : HostReq) (v : Service) (body : State → State) (s : State) : State :=
  match hostSess s q.sess with
  | none => s
  | some x =>
    match turnedAway h v x s with
    | some st => respond q h.code st [] s
    | none => body (if v.random then drawn s else s)

/-- R558, R562: a request whose payload is not in its command's format, or whose code is no command's. -/
def serveMisformed (q : Rq) (code : Nat) : State → State :=
  serveRequest q (.misformed code) { inDelivery := code == 0x042, form := !commandCodes.contains code } (respond q code stCode [])

/-- R560: an exclusive request that another one turns away. -/
def serveClash (q : Rq) (code : Nat) (s : State) : State :=
  respond q code (if delivery s && code != 0x042 then stDelivery else stConflict) [] s

/-- R560: no request of this tick stands before one of this session in the order of ports and openings. -/
def inTurn (x : HostSess) (s : State) : Bool :=
  s.net.turn.1 != s.now + 1 || s.net.turn.2.1 < x.port || (s.net.turn.2.1 == x.port && s.net.turn.2.2 ≤ x.rank)

/-- R559: a request waits behind those of its session that are not answered yet. -/
def queueReq (q : Rq) (h : HostReq) (s : State) : State := { s with hostQ := s.hostQ ++ [⟨q.sess, q, h⟩] }

/-- R559: the requests of a session that are not answered yet. -/
def outstanding (s : State) (n : Nat) : Nat := s.hostQ.countP (·.sess == n)

/-- R555, R560: a request is received. -/
def received (q : Rq) (x : HostSess) (s : State) : State :=
  putSess q.sess { x with last := s.now }
    (if inTurn x s then { s with net := { s.net with turn := (s.now + 1, x.port, x.rank) } } else s)

/-- R553, R559, R560: a request arrives: answered BUSY at once at the limit, CONFLICT while another exclusive command is in progress;
otherwise `serve` serves it, now, or once those before it are answered. One that comes before others taken in its tick is taken with the
next tick (DESIGN CHOICE, log entry 169). -/
def arrive (q : Rq) (h : HostReq) (serve : State → State) (s : State) : Host.Outcome State Fault Refusal :=
  match hostSess s q.sess with
  | none => .next s
  | some x =>
    let early := !inTurn x s
    let clash := h.excl && exclBusy s
    let s := received q x s
    if 16 ≤ outstanding s q.sess then .next (respond q h.code stBusy [] s)
    else if early || 0 < outstanding s q.sess then .next (queueReq q (if clash then .clash h.code else h) s)
    else .next (if clash then serveClash q h.code s else serve s)

/-- HOST_FRAMING_ERROR (R556, R558, R562): a KIND other than 0x1 or a LEN above 1,280 closes the session. A frame with a valid header is
then one of an unknown command, or one whose payload is not in its command's format. -/
def execHostFramingError (sess : Fin 8) (w0 w1 : Word) (s : State) : Host.Outcome State Fault Refusal :=
  if kindOf w0 ≠ 1 ∨ 1280 < lenOf w1 then .next (closeIf 3 sess s)
  else
    let q : Rq := ⟨sess, tagOf w0⟩
    arrive q (.misformed (codeOf w0)) (serveMisformed q (codeOf w0)) s

end Sys2Proof.Machine
end

