-- ==== Sys2Proof/Machine/HostCmd.lean ====
section
/-! DEFINITION. The host commands that read, stop, switch and arm (R22, R195, R398, R419, R475, R563, R564, R570, R574). -/

namespace Sys2Proof.Machine

/-- R562: a refusal by the target: the fault code and the reason. -/
def refused (q : Rq) (code fault reason : Nat) (s : State) : State := respond q code stRefused [word fault, word reason] s

/-! Reading. -/

/-- R563: the module's identity. -/
def runIdent (q : Rq) : State → State :=
  serveRequest q .ident {} fun s => respond q 0x001 stOk
    ([word 0x936, word (if Config.variantX then 0x58 else 0x53)] ++ serialWords
      ++ [word (flagAt 0 (slotB s)), reg s updFwVer, reg s updPairVer] ++ (List.range 4).map fun i => reg s (updCfgId + i)) s

/-- IDENT (R563). -/
def execIdent (q : Rq) : State → Host.Outcome State Fault Refusal := arrive q .ident (runIdent q)

/-- R563: a payload comes back. -/
def runEcho (q : Rq) (payload : List Word) : State → State :=
  serveRequest q (.echo payload) { form := payload.length ≤ 16 } (respond q 0x002 stOk payload)

/-- ECHO (R563). -/
def execEcho (q : Rq) (payload : List Word) : State → Host.Outcome State Fault Refusal := arrive q (.echo payload) (runEcho q payload)

/-- R563: the module's state. -/
def runStatus (q : Rq) : State → State :=
  serveRequest q .status {} fun s => respond q 0x003 stOk
    [viewMid s 0x10, mandWord s, linkWord s, reg s timState, word (s.day.n % 2 ^ 36), word (s.day.n / 2 ^ 36 % 4096),
     reg s fabStatus, reg s midLastF] s

/-- STATUS (R563). -/
def execStatus (q : Rq) : State → Host.Outcome State Fault Refusal := arrive q .status (runStatus q)

/-- R31: a request of a session whose words are accessed together, each once its point is free; until then it waits in its order. -/
def memRequest (w : HostWait) (m : Nat) (f : State → State) (s : State) : State :=
  let t := f (untouched s)
  if freeFor m 0 s t then settle m 0 s.tk.touched t else { waitFor m 0 t.tk.touched s with hostQ := s.hostQ ++ [w] }

/-- A request of this session in service. -/
def serving (q : Rq) (h : HostReq) : HostWait := ⟨q.sess, q, h⟩

/-- Words from `a` on as master `m` peeks or takes them through the gates: poison for a refused one. -/
def readWords (m : Nat) (secure peek : Bool) : Nat → Word → State → List (Option Word) × State
  | 0, _, s => ([], s)
  | n + 1, a, s =>
    let s := touch a.toNat s
    let h : Option Word × State :=
      match gate s m secure (if peek && m == masterDebug then .peek else .read) a with
      | some r => (none, violate m secure false r false a s)
      | none => let r := readMapped m none peek a.toNat s; (some r.1, r.2)
    let t := readWords m secure peek n (a + 1) h.2
    (h.1 :: t.1, t.2)

/-- R563: the 8 validity words, then the words, poison for those refused. -/
def validity (l : List (Option Word)) : List Word :=
  ((List.range 8).map fun j => word ((List.range 32).map fun i => flagAt i ((l.getD (32 * j + i) none).isSome)).sum)
    ++ l.map fun v => v.getD poison

/-- R564: the words of a READ. -/
def serveRead (q : Rq) (a : Word) (count : Nat) (s : State) : State :=
  let r := readWords 1024 false true count a s
  respond q 0x010 stOk (validity r.1) r.2

/-- R31, R564: peeks of a normal-world supervisor engine. -/
def runRead (q : Rq) (a : Word) (count : Nat) : State → State :=
  serveRequest q (.read a count) { range := 1 ≤ count && count ≤ 256 }
    (memRequest (serving q (.held (.read a count))) 1024 (serveRead q a count))

/-- READ (R31, R564). -/
def execRead (q : Rq) (a : Word) (count : Nat) : State → Host.Outcome State Fault Refusal := arrive q (.read a count) (runRead q a count)

/-- R574: entries of the event log. -/
def runLog (q : Rq) (first : Word) (count : Nat) : State → State :=
  serveRequest q (.log first count) { range := 1 ≤ count && count ≤ 64 } fun s =>
    respond q 0x011 stOk ((logFrom s first.toNat count).flatMap logWords) s

/-- LOG (R574). -/
def execLog (q : Rq) (first : Word) (count : Nat) : State → Host.Outcome State Fault Refusal :=
  arrive q (.log first count) (runLog q first count)

/-- R570: the latest complete telemetry set. -/
def runTelem (q : Rq) : State → State := serveRequest q .telem {} fun s => respond q 0x012 stOk s.telem.set s

/-- TELEM (R570). -/
def execTelem (q : Rq) : State → Host.Outcome State Fault Refusal := arrive q .telem (runTelem q)

/-- R563: a stream's CFG-3. -/
def runPmucfg (q : Rq) (stream : Nat) : State → State :=
  serveRequest q (.pmucfg stream) { range := stream < 8 } fun s => respond q 0x013 stOk (configFrame s stream 6) s

/-- PMUCFG (R563). -/
def execPmucfg (q : Rq) (stream : Nat) : State → Host.Outcome State Fault Refusal := arrive q (.pmucfg stream) (runPmucfg q stream)

/-! Transitions (R22, R23, R398, R475). -/

/-- R22, R23: a stop is accepted for the next midnight; one that was accepted before is cancelled. -/
def acceptStop (forced activate : Bool) (q : Rq) (s : State) : State :=
  { dropStop 0x31 [] s with stopReq := some (forced, q.sess.val, q.tag), stopActivate := activate }

/-- R22: a stop that an ACTIVE module carries out as a planned switchover for the earliest day, unless one is armed. -/
def stopBySwitch (activate : Bool) (q : Rq) (s : State) : State :=
  let s := if reg s pairSwDay = 0 then armSwitch (s.day.n + 2) s else s
  acceptStop false activate q s

/-- The midnight at which a stop of this state takes effect. -/
def stopDay (forced : Bool) (s : State) : Word :=
  if s.mst = .active ∧ !forced then reg s pairSwDay + 1 else word ((s.day.n + 1) % 2 ^ 36)

/-- R22: a stop command served in ACTIVE, STANDBY or BENCH, under the code of the command that asks for it. In ACTIVE it is refused only
if it is not forced and the partner is not STANDBY and ready. -/
def serveStop (code : Nat) (forced activate : Bool) (q : Rq) (s : State) : State :=
  if s.mst = .active ∧ !forced then
    if partnerReady s then
      let s := stopBySwitch activate q s
      respond q code stAccepted [stopDay false s] s
    else refused q code 0x712 2 (refuseSwitch 2 s)
  else
    let s := acceptStop forced activate q s
    respond q code stAccepted [stopDay forced s] s

/-- R563: the states in which plans may run. -/
def inService (s : State) : Bool := s.mst == .active || s.mst == .standby || s.mst == .bench

/-- R22, R563: a stop, forced by its flag. -/
def runStop (q : Rq) (flags : Word) (s : State) : State :=
  serveRequest q (.stop flags) { form := flags.toNat < 2, inState := inService s } (serveStop 0x020 (flags == 1) false q) s

/-- STOP (R22, R563). -/
def execStop (q : Rq) (flags : Word) : State → Host.Outcome State Fault Refusal := arrive q (.stop flags) (runStop q flags)

/-- R475, R563: from STOPPED transition 10; during a wait the next attempt. The response comes first. -/
def runRestart (q : Rq) (s : State) : State :=
  serveRequest q .restart { inState := s.mst == .stopped || (s.mst == .daybreak && s.boot.waitEnd.isSome) }
    (fun s =>
      let s := respond q 0x021 stOk [] s
      if s.mst = .stopped then restart s else retryStart s) s

/-- RESTART (R475, R563). -/
def execRestart (q : Rq) : State → Host.Outcome State Fault Refusal := arrive q .restart (runRestart q)

/-- R398, R563: a planned switchover. A module that is not ACTIVE answers STATE, and PAIR_SWST shows reason 1. -/
def runSwitchReq (q : Rq) (day : Word) : State → State :=
  serveRequest q (.switch day) {} fun s =>
    match switchReason s (fullDay s day) with
    | some 1 => respond q 0x022 stState [] (refuseSwitch 1 s)
    | some r => refused q 0x022 0x712 r (refuseSwitch r s)
    | none =>
      respond q 0x022 stAccepted [day + 1]
        (modLink (fun l => { l with swOwner := some (q.sess.val, q.tag) }) (armSwitch (fullDay s day) s))

/-- SWITCH (R398, R563). -/
def execSwitch (q : Rq) (day : Word) : State → Host.Outcome State Fault Refusal := arrive q (.switch day) (runSwitchReq q day)

/-- R419: the result of SAF_UNLOCK. The spec names no fault code for a refusal: a free value. -/
def runUnlock (q : Rq) (drive : Nat) (s : State) : State :=
  serveRequest q (.unlock drive) { inState := s.mst == .active || s.mst == .bench, range := drive < 64 }
    (fun s =>
      let s := unlock drive s
      if getF s safUnlock 7 6 = 1 then respond q 0x023 stOk [] s else refused q 0x023 (Config.freeNat s.fresh % 4096) (getF s safUnlock 7 6) (bump s)) s

/-- HOST_UNLOCK (R419). -/
def execHostUnlock (q : Rq) (drive : Nat) : State → Host.Outcome State Fault Refusal := arrive q (.unlock drive) (runUnlock q drive)

/-- R459: a faceplate line. -/
def runFpline (q : Rq) (line : Nat) (words : List Word) : State → State :=
  serveRequest q (.fpline line words)
    { form := words.length == 8 && words.all (fun w => w &&& ~~~(word fpdChars) == 0), range := 4 ≤ line && line ≤ 11 } fun s =>
    respond q 0x024 stOk [] ((words.mapIdx fun j w => (fpdLine line j, w)).foldl (fun t x => setReg t x.1 x.2) s)

/-- FPLINE (R459). -/
def execFpline (q : Rq) (line : Nat) (words : List Word) : State → Host.Outcome State Fault Refusal :=
  arrive q (.fpline line words) (runFpline q line words)

/-- R195: the change is armed for day `a`, or refused. -/
def serveArm (q : Rq) (day : Word) (s : State) : State :=
  let same := Config.freeNat s.fresh % 2 == 1
  let served := s.mst == .active || s.mst == .bench
  let s := bump s
  match if s.boot.staged.isNone then some (if served then 7 else 6) else armReason s (fullDay s day) same with
  | some r => if served then refused q 0x035 0x230 r (refuseChange r s) else respond q 0x035 stState [] (refuseChange r s)
  | none => respond q 0x035 stAccepted [day] { armChange (fullDay s day) s with armReq := some (q.sess.val, q.tag) }

/-- R195, R563: a module that is neither ACTIVE nor BENCH answers STATE, and DAY_CHG shows the reason. -/
def runArm (q : Rq) (day : Word) : State → State := serveRequest q (.arm day) {} (serveArm q day)

/-- ARM (R195, R563). -/
def execArm (q : Rq) (day : Word) : State → Host.Outcome State Fault Refusal := arrive q (.arm day) (runArm q day)

end Sys2Proof.Machine
end

