-- ==== Sys2Proof/Machine/Update.lean ====
section
/-! DEFINITION. Update sessions, copies, rollback floors and activation (R478 to R488). -/

namespace Sys2Proof.Machine

/-! The session and its slot. -/

def slotAt (s : State) (bank slot : Nat) (x : Slot) : State :=
  modBoot (fun b => { b with slots := tabSet {} b.slots (2 * bank + slot) x }) s

/-- R539: the hold-up store is at least 95 % charged. -/
def storeReady (s : State) : Bool := 950 ≤ getF s pwrStore 9 0

/-- R478: the class is open to the module state: 1 A, 2 B, 3 C. -/
def classState (s : State) (cls : Nat) : Bool :=
  if cls = 2 then inService s else s.mst != .daybreak

/-- R582: the detail word of fault 0xA20. -/
def refusalDetail (reason bank slot : Nat) : Nat := bank % 2 * 2 ^ 4 + slot % 2 * 2 ^ 5 + reason * 2 ^ 6

/-- R478: a refusal: its reason, its mark and fault 0xA20. -/
def noteRefusal (reason bank slot : Nat) (s : State) : State :=
  raise 0xA20 (refusalDetail reason bank slot) (setBit (setF s updSess 17 14 reason) updStatus 2)

/-- The fault of a check that fails, raised before 0xA20. -/
def checkFault (fault bank slot : Nat) (s : State) : State :=
  if fault = 0xA20 then s else raise fault (bank % 2 * 2 ^ 4 + slot % 2 * 2 ^ 5) s

/-- The answer to a refused update command, naming the fault of the check. -/
def refuseUpdate (q : Rq) (code reason fault bank slot : Nat) (s : State) : State :=
  refused q code fault reason (noteRefusal reason bank slot (checkFault fault bank slot s))

/-- UPD_SESS at a session's class, bank, slot and state. -/
def showSess (cls bank slot st : Nat) (s : State) : State :=
  setF (setF (setF (setF s updSess 13 12 cls) updSess 11 11 bank) updSess 10 10 slot) updSess 3 0 st

/-- The session ends in a state. -/
def endSess (st : Nat) (s : State) : State := setF (modBoot (fun b => { b with session := none }) s) updSess 3 0 st

/-! OPEN (R478, R479, R482, R488). -/

/-- R488: both banks hold valid containers of the type with SVN at least `f`, and `f` raises the floor. -/
def floorOk (s : State) (ty f : Nat) : Bool :=
  floorFor s ty < f && f ≤ 255 && (List.range 2).all fun b =>
    match validHeader s b (ty - 1) with
    | some h => f ≤ h.svn
    | none => false

/-- R478: whether an OPEN repeats that of a session whose host session ended. -/
def resumes (s : State) (cls bank slot : Nat) (h : Header) : Bool :=
  match s.boot.session with
  | some u => u.lostAt.isSome && u.cls == cls && (cls == 3 || u.hdr == some h) && (cls != 1 || (u.bank == bank && u.slot == slot))
  | none => false

/-- The TYPE a class writes. -/
def classType (cls slot : Nat) : Nat := if cls = 2 then 3 else slot + 1

/-- R478, R479: why an OPEN is refused: the reason and the fault that the response names. -/
def openRefusal (s : State) (cls bank slot : Nat) (h : Header) (ty f : Nat) : Option (Nat × Nat) :=
  if !classState s cls then some (1, 0xA20)
  else if s.boot.session.isSome && !resumes s cls bank slot h then some (4, 0xA20)
  else if cls = 1 ∧ !storeReady s then some (2, 0xA20)
  else if cls = 1 ∧ bank = runBank s then some (3, 0xA20)
  else if cls = 3 then (if floorOk s ty f then none else some (11, 0xA20))
  else match headerCheck s (classType cls slot) h with
    | some c => some (5, c)
    | none => if cls = 2 ∧ h.base ≠ (List.range 4).map (fun i => reg s (updCfgId + i)) then some (10, 0xA20) else none

/-- R482: the blocks kept of a slot in writing with the same header. -/
def keptBlocks (s : State) (cls bank slot : Nat) (h : Header) : List (Nat × List Word) :=
  if cls = 1 then
    let x := slotOf s bank slot
    if x.st = .writing ∧ x.hdr = some h then x.blocks else []
  else match s.boot.session with
    | some u => if u.cls = cls then u.blocks else []
    | none => []

/-- R479: an accepted OPEN. Clearing the staging area cancels a change that is armed; one being loaded today keeps its content. -/
def openUpdate (sess cls bank slot : Nat) (h : Header) (ty f : Nat) (s : State) : State :=
  let kept := keptBlocks s cls bank slot h
  let s := if cls = 1 then slotAt s bank slot { st := .writing, hdr := some h, blocks := kept } else s
  let s := if cls = 2 ∧ !bitOf s dayStatus 7 then discardStaged s else s
  let u : Session :=
    { cls := cls, bank := bank, slot := slot, hdr := if cls = 3 then none else some h, ty := ty, floor := f, sess := sess
      blocks := kept }
  modBoot (fun b => { b with session := some u }) (showSess cls bank slot 1 s)

/-- R479: class 1 A, 2 B or 3 C. -/
def runUopen (q : Rq) (cls bank slot : Nat) (r : RawHeader) (ty floor : Nat) : State → State :=
  let h := headerOf r
  let inRange := if cls = 1 then bank < 2 && slot < 2 else if cls = 3 then (ty == 1 || ty == 2) else cls == 2
  serveRequest q (.uopen cls bank slot r ty floor) { form := cls == 3 || r.octets.length == 4096, range := inRange } fun s =>
    let k := if cls = 1 then bank else 0
    let n := if cls = 1 then slot else 0
    match openRefusal s cls k n h ty floor with
    | some r =>
      let s := refuseUpdate q 0x030 r.1 r.2 k n s
      if s.boot.session.isSome then s else showSess cls k n 4 s
    | none => respond q 0x030 stOk [] (openUpdate q.sess.val cls k n h ty floor s)

/-- UOPEN (R479). -/
def execUopen (q : Rq) (cls bank slot : Nat) (r : RawHeader) (ty floor : Nat) : State → Host.Outcome State Fault Refusal :=
  arrive q (.uopen cls bank slot r ty floor) (runUopen q cls bank slot r ty floor)

/-! BLOCK (R479). -/

/-- The octets of the block at an offset of a payload. -/
def blockOctets (len off : Nat) : Nat := Nat.min 4608 (len - off)

/-- R479: why a block is refused. -/
def blockRefusal (u : Session) (off : Nat) (ws : List Word) : Option Nat :=
  match u.hdr with
  | none => some 6
  | some h =>
    if off % 4608 ≠ 0 ∨ h.length ≤ off ∨ ws.length * 9 ≠ blockOctets h.length off * 2 then some 6
    else match u.blocks.find? (·.1 == off / 4608) with
      | some b => if b.2 = ws then none else some 7
      | none => none

/-- The session with a block it has not had; a slot keeps it beyond the session. -/
def addBlock (u : Session) (k : Nat) (ws : List Word) (s : State) : State :=
  let bl := tabSet [] u.blocks k ws
  let s := modBoot (fun b => { b with session := some { u with blocks := bl } }) s
  if u.cls = 1 then slotAt s u.bank u.slot { slotOf s u.bank u.slot with blocks := bl } else s

/-- R563: the session that is open, whichever host session opened it. -/
def openSession (s : State) : Option Session :=
  match s.boot.session with
  | some u => if u.lostAt.isNone then some u else none
  | none => none

/-- R479, R564: a refused block leaves the session open. -/
def runUblock (q : Rq) (offset : Nat) (words : List Word) (s : State) : State :=
  serveRequest q (.ublock offset words) { form := 1 ≤ words.length && words.length ≤ 1024, inState := (openSession s).isSome }
    (fun s => match openSession s with
      | none => s
      | some u =>
        match blockRefusal u offset words with
        | some r => refuseUpdate q 0x031 r 0xA20 u.bank u.slot s
        | none => respond q 0x031 stOk [] (addBlock u (offset / 4608) words s)) s

/-- UBLOCK (R479, R564). -/
def execUblock (q : Rq) (offset : Nat) (words : List Word) : State → Host.Outcome State Fault Refusal :=
  arrive q (.ublock offset words) (runUblock q offset words)

/-! CLOSE and COPY (R480, R481, R483, R488). -/

/-- Every block of the payload is present. -/
def allBlocks (u : Session) : Bool :=
  match u.hdr with
  | some h => u.blocks.length == (h.length + 4607) / 4608
  | none => true

/-- R479: the COMPAT check of a configuration against the firmware slot of its bank. -/
def compatOk (s : State) (bank : Nat) (h : Header) : Bool :=
  match validHeader s bank 0 with
  | some f => h.compat ≤ f.version
  | none => false

/-- R478 to R480: why a CLOSE is refused: the reason and the fault named. -/
def closeRefusal (s : State) (u : Session) : Option (Nat × Nat) :=
  if !classState s u.cls then some (1, 0xA20)
  else if u.cls = 1 ∧ !storeReady s then some (2, 0xA20)
  else if u.cls = 3 then (if floorOk s u.ty u.floor then none else some (11, 0xA20))
  else if !allBlocks u then some (8, 0xA20)
  else match u.hdr with
    | none => none
    | some h =>
      if u.cls = 1 ∧ u.slot = 1 ∧ !compatOk s u.bank h then some (5, 0xA06)
      else if digestOf (u.blocks.map (·.2)).flatten ≠ h.digest then some (9, 0xA03)
      else if u.cls = 2 ∧ h.base ≠ (List.range 4).map (fun i => reg s (updCfgId + i)) then some (10, 0xA20)
      else none

/-- A session committed. -/
def committed (u : Session) (s : State) : State :=
  raise 0xA22 (u.bank * 2 ^ 4 + u.slot * 2 ^ 5) (setBit (endSess 3 s) updStatus 3)

/-- R480, R481, R488: what a successful CLOSE does. The slot is valid from the start of its header write, unless a trip in the 5 ms that the
write takes cuts it (`cutHeader`). -/
def commit (u : Session) (s : State) : State :=
  let ws := (u.blocks.map (·.2)).flatten
  match u.cls, u.hdr with
  | 1, _ =>
    committed u (modBoot (fun b => { b with hdrAt := some (2 * u.bank + u.slot, s.now) })
      (slotAt s u.bank u.slot { st := .valid, hdr := u.hdr, words := ws }))
  | 2, some h => committed u (setF (modBoot (fun b => { b with staged := some (h, ws) }) s) dayChg 3 0 1)
  | _, _ =>
    let s := if u.ty = 1 then setF s updFloor 7 0 u.floor else setF s updFloor 15 8 u.floor
    committed u (raise 0xA24 (flagAt 5 (u.ty == 2)) (setBit s updStatus 6))

/-- R478 to R480: a refused CLOSE. A digest that does not match makes the slot invalid and ends the session; otherwise it stays open. -/
def refuseClose (q : Rq) (u : Session) (r : Nat × Nat) (s : State) : State :=
  let s := refuseUpdate q 0x032 r.1 r.2 u.bank u.slot s
  if r.1 = 9 then
    endSess 4 (if u.cls = 1 then slotAt s u.bank u.slot { slotOf s u.bank u.slot with st := .invalid, blocks := [] } else s)
  else s

/-- R480, R488: the session is closed and committed. -/
def runUclose (q : Rq) (s : State) : State :=
  serveRequest q .uclose { inState := (openSession s).isSome } (fun s =>
    match openSession s with
    | none => s
    | some u =>
      match closeRefusal s u with
      | some r => refuseClose q u r s
      | none => respond q 0x032 stOk [] (commit u s)) s

/-- UCLOSE (R480, R488). -/
def execUclose (q : Rq) : State → Host.Outcome State Fault Refusal := arrive q .uclose (runUclose q)

/-- R483: why a COPY is refused. -/
def copyRefusal (s : State) (slot : Nat) : Option (Nat × Nat) :=
  if !classState s 1 then some (1, 0xA20)
  else if s.boot.session.isSome then some (4, 0xA20)
  else if !storeReady s then some (2, 0xA20)
  else match validHeader s (runBank s) slot with
    | none => some (5, 0xA01)
    | some h =>
      match headerCheck s (slot + 1) h with
      | some c => some (5, c)
      | none =>
        if slot = 1 ∧ !compatOk s (1 - runBank s) h then some (5, 0xA06)
        else if digestOf (slotOf s (runBank s) slot).words ≠ h.digest then some (9, 0xA03) else none

/-- The session that a COPY is. -/
def copySess (q : Rq) (s : State) (slot : Nat) : Session :=
  { cls := 1, bank := 1 - runBank s, slot := slot, hdr := validHeader s (runBank s) slot, ty := slot + 1, floor := 0, sess := q.sess.val
    blocks := [(0, (slotOf s (runBank s) slot).words)] }

/-- R483: a class A session without blocks, closed at once. A digest that does not match leaves the written slot invalid. -/
def runUcopy (q : Rq) (slot : Nat) : State → State :=
  serveRequest q (.ucopy slot) { range := slot < 2 } fun s =>
    let u := copySess q s slot
    match copyRefusal s slot with
    | some r =>
      let s := refuseUpdate q 0x033 r.1 r.2 u.bank slot s
      let s := if r.1 = 9 then slotAt s u.bank slot { st := .invalid } else s
      if s.boot.session.isSome then s else showSess 1 u.bank slot 4 s
    | none => respond q 0x033 stOk [] (commit u (showSess 1 u.bank slot 2 s))

/-- UCOPY (R483). -/
def execUcopy (q : Rq) (slot : Nat) : State → Host.Outcome State Fault Refusal := arrive q (.ucopy slot) (runUcopy q slot)

/-! Activation (R485). -/

/-- R485: why an activation is refused. -/
def activateRefusal (s : State) (bank : Nat) : Option (Nat × Nat) :=
  if s.boot.session.isSome then some (4, 0xA20)
  else match validHeader s bank 0, validHeader s bank 1 with
    | some _, some h => if compatOk s bank h then none else some (5, 0xA06)
    | _, _ => some (5, 0xA20)

/-- R485: the preferred bank and KEEP are set. -/
def activateBank (bank : Nat) (keep : Bool) (s : State) : State :=
  raise 0xA25 (bank * 2 ^ 4) (setBit (setBit (hwField s updBoot 0 0 (if bank == 1 then 1 else 0)) updBoot 2 keep) updStatus 5)

/-- R485: the restart that an activation without KEEP makes. -/
def activateNow (q : Rq) (s : State) : State :=
  match s.mst with
  | .active => serveStop 0x034 false true q s
  | .daybreak =>
    respond q 0x034 stOk [] (setF (modBoot (fun b => { b with attempts := 0, lastBank := 0, tried := false }) s) updBoot 23 8 0)
  | _ => restart (respond q 0x034 stOk [] s)

/-- R22, R485: in ACTIVE as a stop command, which is refused without a partner that is ready. -/
def runActivate (q : Rq) (bank : Nat) (keep : Bool) : State → State :=
  serveRequest q (.activate bank keep) { range := bank < 2 } fun s =>
    match activateRefusal s bank with
    | some r => refused q 0x034 0xA20 r.1 (noteRefusal r.1 bank 0 (checkFault r.2 bank 1 s))
    | none =>
      if keep then respond q 0x034 stOk [] (activateBank bank keep s)
      else if s.mst = .active ∧ !partnerReady s then serveStop 0x034 false true q s
      else activateNow q (activateBank bank keep s)

/-- ACTIVATE (R485). -/
def execActivate (q : Rq) (bank : Nat) (keep : Bool) : State → Host.Outcome State Fault Refusal :=
  arrive q (.activate bank keep) (runActivate q bank keep)

end Sys2Proof.Machine
end

