-- ==== Sys2Proof/Machine/Vault.lean ====
section
/-! DEFINITION. The key vault, zeroisation, commissioning and debug grants as host commands (R506, R507, R513, R563 to R565). -/

namespace Sys2Proof.Machine

/-- The vault with slot `n` holding an item, which it need not have held before. -/
def insertItem (n : Nat) (x : VaultItem) : List (Nat × VaultItem) → List (Nat × VaultItem)
  | [] => [(n, x)]
  | y :: t => if n < y.1 then (n, x) :: y :: t else if n = y.1 then (n, x) :: t else y :: insertItem n x t

def putItem (n : Nat) (x : VaultItem) (s : State) : State := { s with vault := insertItem n x s.vault }

def vaultHas (s : State) (n : Nat) : Bool := s.vault.any (·.1 == n)

/-- R563: a VAULT subfunction: in every state but DAYBREAK. -/
def vaultService (s : State) (form range : Bool) : Service :=
  { form := form, inState := s.mst != .daybreak, range := range }

/-- A subfunction that installs an item in a slot of a range. -/
def install (q : Rq) (h : HostReq) (lo hi slot : Nat) (x : VaultItem) (s : State) : State :=
  serveRequest q h (vaultService s true (lo ≤ slot && slot ≤ hi)) (fun s => respond q 0x040 stOk [] (putItem slot x s)) s

/-- R506, R565: the key pair replaces slot 1, without a certificate. -/
def runDeviceKey (q : Rq) (s : State) : State :=
  serveRequest q .deviceKey { vaultService s true true with random := true } (fun s =>
    let k := Config.vaultKey s.fresh
    respond q 0x040 stOk (Config.keyRequest k) (putItem 1 { keyid := 0, finger := k, roles := [], octets := 0 } (bump s))) s

/-- VAULT_GENERATE_DEVICE_KEY (R506, R565). -/
def execVaultGenerateDeviceKey (q : Rq) : State → Host.Outcome State Fault Refusal := arrive q .deviceKey (runDeviceKey q)

/-- R565: a certificate is for the key pair of slot 1; without one none is valid content. -/
def runDeviceCert (q : Rq) (item : VaultItem) (s : State) : State :=
  serveRequest q (.deviceCert item) (vaultService s (vaultHas s 1) true) (fun s => respond q 0x040 stOk [] (putItem 1 item s)) s

/-- VAULT_INSTALL_DEVICE_CERT (R565). -/
def execVaultInstallDeviceCert (q : Rq) (item : VaultItem) : State → Host.Outcome State Fault Refusal :=
  arrive q (.deviceCert item) (runDeviceCert q item)

/-- VAULT_INSTALL_CONFIG_KEY (R565). -/
def execVaultInstallConfigKey (q : Rq) (slot : Nat) (item : VaultItem) : State → Host.Outcome State Fault Refusal :=
  arrive q (.configKey slot item) (install q (.configKey slot item) 2 9 slot item)

/-- VAULT_INSTALL_TRUST_ANCHOR (R565). -/
def execVaultInstallTrustAnchor (q : Rq) (slot : Nat) (item : VaultItem) : State → Host.Outcome State Fault Refusal :=
  arrive q (.trustAnchor slot item) (install q (.trustAnchor slot item) 10 17 slot item)

/-- VAULT_INSTALL_DEBUG_KEYS (R565). -/
def execVaultInstallDebugKeys (q : Rq) (slot : Nat) (item : VaultItem) : State → Host.Outcome State Fault Refusal :=
  arrive q (.debugKeys slot item) (install q (.debugKeys slot item) 18 19 slot item)

/-- VAULT_INSTALL_ACCESS_ANCHOR (R565). -/
def execVaultInstallAccessAnchor (q : Rq) (slot : Nat) (item : VaultItem) : State → Host.Outcome State Fault Refusal :=
  arrive q (.accessAnchor slot item) (install q (.accessAnchor slot item) 20 23 slot item)

/-- R506, R565: slot 24 holds one list per trust anchor; `keyid` names the anchor's slot. -/
def runCrl (q : Rq) (item : VaultItem) (s : State) : State :=
  serveRequest q (.crl item) (vaultService s true (10 ≤ item.keyid && item.keyid ≤ 17)) (fun s =>
    respond q 0x040 stOk [] (putItem (22 + item.keyid) item s)) s

/-- VAULT_REPLACE_CRL (R506, R565). -/
def execVaultReplaceCrl (q : Rq) (item : VaultItem) : State → Host.Outcome State Fault Refusal := arrive q (.crl item) (runCrl q item)

/-- R565: the last access anchor holding SECADMIN. -/
def lastAdmin (s : State) (slot : Nat) : Bool :=
  let admins := s.vault.filter fun v => 20 ≤ v.1 && v.1 ≤ 23 && v.2.roles.contains .secadmin
  admins.map (·.1) == [slot]

/-- The entries of the vault's table that a slot stands for. -/
def slotKeys (slot k : Nat) : Bool := k == slot || (slot == 24 && 32 ≤ k)

/-- R565: a slot is emptied. -/
def runDeleteSlot (q : Rq) (slot : Nat) (s : State) : State :=
  serveRequest q (.deleteSlot slot) (vaultService s true (1 ≤ slot && slot ≤ 24 && !lastAdmin s slot)) (fun s =>
    respond q 0x040 stOk [] { s with vault := s.vault.filter fun v => !slotKeys slot v.1 }) s

/-- VAULT_DELETE_SLOT (R565). -/
def execVaultDeleteSlot (q : Rq) (slot : Nat) : State → Host.Outcome State Fault Refusal := arrive q (.deleteSlot slot) (runDeleteSlot q slot)

/-- R565: slot 0 always holds the device identity. -/
def runListSlots (q : Rq) (s : State) : State :=
  serveRequest q .listSlots (vaultService s true true) (fun s => respond q 0x040 stOk (Config.vaultList ((0, 0, Config.deviceId) ::
    s.vault.map fun v => (Nat.min v.1 24, v.2.keyid, v.2.finger))) s) s

/-- VAULT_LIST_SLOTS (R565). -/
def execVaultListSlots (q : Rq) : State → Host.Outcome State Fault Refusal := arrive q .listSlots (runListSlots q)

/-- R507, R555: the confirmation must be the serial number. Slots 1 to 24 and both configuration slots are erased. -/
def runZeroise (q : Rq) (serial : List Word) (s : State) : State :=
  serveRequest q (.zeroise serial)
    { form := serial.length == 4, inState := s.mst == .stopped, random := true, range := serial == serialWords }
    (fun s =>
      let s := modBoot (fun b => { b with slots := tabSet {} (tabSet {} b.slots 1 {}) 3 {} }) { s with vault := [] }
      closeAll 4 (respond q 0x041 stOk [] (raise 0xB51 0 (setBit s secStatus 4)))) s

/-- ZEROISE (R507, R555). -/
def execZeroise (q : Rq) (serial : List Word) : State → Host.Outcome State Fault Refusal := arrive q (.zeroise serial) (runZeroise q serial)

/-- R507, R554: in delivery state, a configuration key, a trust anchor and an access anchor holding SECADMIN. -/
def runCommission (q : Rq) (key anchor access : VaultItem) : State → State :=
  serveRequest q (.commission key anchor access) { inDelivery := true, form := access.roles.contains .secadmin, random := true } fun s =>
    closeAll 4 (respond q 0x042 stOk [] (putItem 20 access (putItem 10 anchor (putItem 2 key s))))

/-- COMMISSION (R507, R554). -/
def execCommission (q : Rq) (key anchor access : VaultItem) : State → Host.Outcome State Fault Refusal :=
  arrive q (.commission key anchor access) (runCommission q key anchor access)

/-! Debug grants (R512, R513). -/

/-- R564: a 64-bit value as two words of four octets. -/
def octetPair (v : BitVec 64) : List Word := [word (v.toNat / 2 ^ 32), word (v.toNat % 2 ^ 32)]

/-- R513: a fresh challenge for this session. -/
def runDbgchal (q : Rq) : State → State :=
  serveRequest q .dbgchal { random := true } fun s =>
    let c := Config.freeChallenge s.fresh
    let s := bump { s with sess := s.sess.map fun x => if x.1 = q.sess.val then (x.1, { x.2 with challenge := some c }) else x }
    respond q 0x050 stOk (octetPair c) s

/-- DBGCHAL (R513). -/
def execDbgchal (q : Rq) : State → Host.Outcome State Fault Refusal := arrive q .dbgchal (runDbgchal q)

/-- R512, R513, R564: every field of the grant holds, and both signatures verify. Level 2 needs owner debug keys. -/
def grantHolds (s : State) (n : Nat) (g : Grant) : Bool :=
  g.serial == serialWords && g.sigE && g.sigM && presentDay s ≤ g.lastDay
    && ((hostSess s n).bind (·.challenge)) == some g.challenge
    && ((g.level == 2 && s.vault.any fun v => 18 ≤ v.1 && v.1 ≤ 19)
      || (g.level == 3 && s.mst != .active && s.mst != .standby))

/-- R513: the spec names no reason for a refusal: a free value. -/
def runDbggrant (q : Rq) (g : Grant) : State → State :=
  serveRequest q (.dbggrant g) {} fun s =>
    if grantHolds s q.sess g then
      respond q 0x051 stOk [word g.level] (raise 0xB41 0 (setF { s with grant := some (q.sess.val, g) } secDbg 1 0 g.level))
    else
      respond q 0x051 stRefused [0xB40, word (Config.freeNat s.fresh % 256)]
        (bump (raise 0xB40 0 (setBit s secStatus 3)))

/-- DBGGRANT (R513). -/
def execDbggrant (q : Rq) (g : Grant) : State → Host.Outcome State Fault Refusal := arrive q (.dbggrant g) (runDbggrant q g)

end Sys2Proof.Machine
end

