-- ==== Sys2Proof/Machine/Debug.lean ====
section
/-! DEFINITION. Debug commands (R12, R206, R512, R578 to R580), the requests that wait (R555, R559), and the tick, in which they are served. -/

namespace Sys2Proof.Machine

/-- R512: the level of a SERVICE session: that of its grant, or 1. -/
def debugLevel (s : State) (n : Nat) : Nat :=
  match s.grant with
  | some g => if g.1 = n then g.2.level else 1
  | none => 1

/-- R578: the answer to a debug command: its debug status, for status 1 with the SEQ of the violation record. -/
def answer (q : Rq) (st seq : Nat) (ws : List Word) (s : State) : State :=
  respond q 0x052 stOk (word (seq % 4096 * 2 ^ 24 + st) :: ws) s

/-- A count of words (R578). -/
def countOk (n : Nat) : Bool := 1 ≤ n && n ≤ 256

/-- R579: the words named include local data or plan memory of the trailing engine of a joined pair. -/
def namesTrailing (s : State) (a : Word) (n : Nat) : Bool :=
  (List.range n).any fun i => match ownerOf (a.toNat + i) with
    | some e => trailsJoined s e
    | none => false

/-- R498, R578: the words read, and status 1 with the SEQ of the record if a gate refused one; of several, the record of the last
word refused (DESIGN CHOICE, log entry 165). -/
def answerRead (q : Rq) (r : List (Option Word) × State) : State :=
  answer q (if r.1.all (·.isSome) then 0 else 1) (if r.1.all (·.isSome) then 0 else r.2.tk.seq) (validity r.1) r.2

/-- R578: the words of a PEEK accepted at a level. -/
def servePeek (q : Rq) (a : Word) (count level : Nat) (s : State) : State :=
  answerRead q (readWords masterDebug (level == 3) true count a s)

/-- R555, R578: a debug request that accesses words keeps the level it is accepted at. -/
def debugAccess (q : Rq) (h : HostReq) (range : Bool) (m : Nat → MemReq) (f : Nat → State → State) : State → State :=
  serveRequest q h { range := range } fun s =>
    let l := debugLevel s q.sess
    memRequest (serving q (.held (m l))) masterDebug (f l) s

/-- R578: a PEEK. -/
def runPeek (q : Rq) (a : Word) (count : Nat) : State → State :=
  debugAccess q (.peek a count) (countOk count) (.peek a count) (servePeek q a count)

/-- PEEK (R12, R31, R113, R145, R206, R578, R579). -/
def execPeek (q : Rq) (a : Word) (count : Nat) : State → Host.Outcome State Fault Refusal := arrive q (.peek a count) (runPeek q a count)

/-- R578, R579: a TAKE accepted at a level. -/
def serveTake (q : Rq) (a : Word) (count level : Nat) (s : State) : State :=
  if level < 2 then answer q 2 0 [] s
  else if namesTrailing s a count then answer q 6 0 [] s
  else answerRead q (readWords masterDebug (level == 3) false count a s)

/-- R578, R579: a TAKE. -/
def runTake (q : Rq) (a : Word) (count : Nat) : State → State :=
  debugAccess q (.take a count) (countOk count) (.take a count) (serveTake q a count)

/-- TAKE (R9, R31, R113, R145, R578, R579). -/
def execTake (q : Rq) (a : Word) (count : Nat) : State → Host.Outcome State Fault Refusal := arrive q (.take a count) (runTake q a count)

/-- R580: the states in which debug neither writes nor halts a plant engine. -/
def debugBarred (s : State) : Bool := s.mst == .active || s.mst == .standby || s.mst == .daybreak

/-- The first of `n` addresses at which a write of the debug master is refused. -/
def writeRefused (s : State) (secure : Bool) : Nat → Word → Option (Word × (Nat × Nat))
  | 0, _ => none
  | n + 1, a =>
    match gate s masterDebug secure .write a with
    | some r => some (a, r)
    | none => writeRefused s secure n (a + 1)

/-- R562, R578, R579: a POKE accepted at a level: in ascending address order; nothing is written where a gate refuses a word. -/
def servePoke (q : Rq) (a : Word) (words : List Word) (level : Nat) (s : State) : State :=
  let secure := level == 3
  if level < 2 then answer q 2 0 [] s
  else if debugBarred s then answer q 3 0 [] s
  else if namesTrailing s a words.length then answer q 6 0 [] s
  else match writeRefused s secure words.length a with
    | some r =>
      let t := violate masterDebug secure true r.2 false r.1 (touch r.1.toNat s)
      answer q 1 t.tk.seq [] t
    | none =>
      answer q 0 0 [] ((words.mapIdx fun i w => (a.toNat + i, w)).foldl (fun t x => writeMapped masterDebug x.1 x.2 (touch x.1 t)) s)

/-- R578, R579: a POKE. -/
def runPoke (q : Rq) (a : Word) (words : List Word) : State → State :=
  debugAccess q (.poke a words) (countOk words.length) (.poke a words) (servePoke q a words)

/-- POKE (R31, R113, R145, R562, R578, R579). -/
def execPoke (q : Rq) (a : Word) (words : List Word) : State → Host.Outcome State Fault Refusal := arrive q (.poke a words) (runPoke q a words)

/-! Halts (R580). -/

/-- Why a command on engine `e` is not done: level too low (2), not permitted in the state (3), trailing engine (6). -/
def haltBarred (s : State) (n e : Nat) : Option Nat :=
  if debugLevel s n < (if e < 1024 then 2 else 3) then some 2
  else if e < 1024 && debugBarred s then some 3
  else if trailsJoined s e then some 6 else none

/-- A debug command on an engine. -/
def onEngine (q : Rq) (h : HostReq) (e : Nat) (range : Bool) (body : State → State) : State → State :=
  serveRequest q h { range := e < 1028 && range } fun s =>
    match haltBarred s q.sess e with
    | some st => answer q st 0 [] s
    | none => body s

/-- R113, R580: a HALT acts at the engine's next release; inside a bracket at its end, with status 4. -/
def runHalt (q : Rq) (e : Nat) : State → State :=
  onEngine q (.halt e) e true fun s =>
    let x := engine s e
    answer q (if x.lockOpen then 4 else 0) 0 []
      (modEngine e (fun x => if x.halted then x else { x with haltReq := true, stepN := 0 }) s)

/-- HALT (R113, R580). -/
def execHalt (q : Rq) (e : Nat) : State → Host.Outcome State Fault Refusal := arrive q (.halt e) (runHalt q e)

/-- R580: a halted engine goes on: its next instruction counts from tick `t`. -/
def goOn (t n : Nat) (x : Engine) : Engine :=
  { x with halted := false, haltReq := false, stepN := n, prev := if x.halted then t else x.prev }

/-- R580: an engine is released, and its trailing engine D ticks later. -/
def releaseHalted (e n : Nat) (s : State) : State :=
  let x := engine s e
  let s' := modEngine e (goOn s.now n) (if x.halted then traceRest e 2 4 x.pos s else s)
  if leadsJoined s e then modEngine (e + 1) (goOn (s.now + (pairOf s (e / 2)).d) 0) s' else s'

/-- R580: a halted engine goes on. -/
def runResume (q : Rq) (e : Nat) : State → State :=
  onEngine q (.resume e) e true fun s => answer q 0 0 [] (releaseHalted e 0 s)

/-- RESUME (R580). -/
def execResume (q : Rq) (e : Nat) : State → Host.Outcome State Fault Refusal := arrive q (.resume e) (runResume q e)

/-- R578: `n` instructions, then halted again. -/
def runStep (q : Rq) (e n : Nat) : State → State :=
  onEngine q (.step e n) e (1 ≤ n && n ≤ 64) fun s => answer q 0 0 [] (releaseHalted e n s)

/-- STEP (R578). -/
def execStep (q : Rq) (e n : Nat) : State → Host.Outcome State Fault Refusal := arrive q (.step e n) (runStep q e n)

/-! REGS (R578, R579). -/

/-- R578: the engine's image, its plan position and its loop stack. -/
def regsWords (s : State) (e : Nat) : List Word :=
  let x := engine s e
  engineImage s e ++ [word (x.pos % 4096)] ++ (List.range 4).map fun i => match x.loops[i]? with
    | some l => Config.loopWord l.start l.len l.left l.idx
    | none => Config.loopWord 0 0 0 0

/-- R579: a REGS asked for at a tick: answered once its engine rests, or with status 5 after 1 s. -/
def serveRegs (q : Rq) (e since : Nat) (s : State) : State :=
  if restsNow (engine s e) then answer q 0 0 (regsWords s e) s
  else if since + secTicks 1 ≤ s.now then answer q 5 0 [] s
  else { s with hostQ := s.hostQ ++ [serving q (.resting e since)] }

/-- R578, R579: an engine's image. -/
def runRegs (q : Rq) (e : Nat) : State → State :=
  serveRequest q (.regs e) { range := e < 1028 } fun s => serveRegs q e s.now s

/-- REGS (R578, R579). -/
def execRegs (q : Rq) (e : Nat) : State → Host.Outcome State Fault Refusal := arrive q (.regs e) (runRegs q e)

/-! Requests that wait (R31, R555, R559, R560). -/

/-- R31: a request in service tries its words again. -/
def serveMem (w : HostWait) (r : MemReq) : State → State :=
  match r with
  | .read a n => memRequest w 1024 (serveRead w.q a n)
  | .peek a n l => memRequest w masterDebug (servePeek w.q a n l)
  | .take a n l => memRequest w masterDebug (serveTake w.q a n l)
  | .poke a ws l => memRequest w masterDebug (servePoke w.q a ws l)

/-- R559: a request is served, now that those before it in its session are answered. -/
def serveWait (w : HostWait) : State → State :=
  match w.req with
  | .ident => runIdent w.q
  | .echo ws => runEcho w.q ws
  | .status => runStatus w.q
  | .read a n => runRead w.q a n
  | .log a n => runLog w.q a n
  | .telem => runTelem w.q
  | .pmucfg i => runPmucfg w.q i
  | .stop f => runStop w.q f
  | .restart => runRestart w.q
  | .switch d => runSwitchReq w.q d
  | .unlock d => runUnlock w.q d
  | .fpline n ws => runFpline w.q n ws
  | .uopen c b n h ty f => runUopen w.q c b n h ty f
  | .ublock n ws => runUblock w.q n ws
  | .uclose => runUclose w.q
  | .ucopy n => runUcopy w.q n
  | .activate b k => runActivate w.q b k
  | .arm d => runArm w.q d
  | .deviceKey => runDeviceKey w.q
  | .deviceCert x => runDeviceCert w.q x
  | .configKey n x => install w.q (.configKey n x) 2 9 n x
  | .trustAnchor n x => install w.q (.trustAnchor n x) 10 17 n x
  | .debugKeys n x => install w.q (.debugKeys n x) 18 19 n x
  | .accessAnchor n x => install w.q (.accessAnchor n x) 20 23 n x
  | .crl x => runCrl w.q x
  | .deleteSlot n => runDeleteSlot w.q n
  | .listSlots => runListSlots w.q
  | .zeroise ws => runZeroise w.q ws
  | .commission a b c => runCommission w.q a b c
  | .dbgchal => runDbgchal w.q
  | .dbggrant g => runDbggrant w.q g
  | .peek a n => runPeek w.q a n
  | .take a n => runTake w.q a n
  | .poke a ws => runPoke w.q a ws
  | .halt e => runHalt w.q e
  | .resume e => runResume w.q e
  | .step e n => runStep w.q e n
  | .regs e => runRegs w.q e
  | .misformed c => serveMisformed w.q c
  | .clash c => serveClash w.q c
  | .held r => serveMem w r
  | .resting e t => serveRegs w.q e t

/-- R555: that of a closed session is made, and its response discarded. -/
def serveOrphan (w : HostWait) (s : State) : State :=
  let t := serveWait w s
  if s.out.length < t.out.length then { t with out := t.out.dropLast } else t

/-- R559: it is served if no earlier one of its session still waits. -/
def inOrder (w : HostWait) (s : State) : State :=
  if s.hostQ.any (·.sess == w.sess) then { s with hostQ := s.hostQ ++ [w] } else serveWait w s

/-- R31, R559: the turn of a waiting request: it goes on waiting behind one of its session that is not answered in this tick. One whose
session an earlier one of the tick closed is gone (R555). -/
def takeTurn (s : State) (w : HostWait) : State :=
  if sessOpen s w.sess then inOrder w s
  else match w.req with
    | .held _ => serveOrphan { w with sess := 8 } s
    | _ => s

/-- CLOCK_TICK (R31, R220, R280 to R282, R360, R273, R275, R301, R559, R579). -/
def execClockTick (s : State) : Host.Outcome State Fault Refusal :=
  let s := retryEnds (passTick (endPorts s))
  let s := s.hostQ.foldl takeTurn { s with hostQ := [] }
  .next (noteResults (s.pairs.foldl (fun t p => copyRegs p.1 t) (s.ports.foldl (fun t p => portTick p.1 t) s)))

end Sys2Proof.Machine
end

