-- ==== Sys2Proof/Machine/MemAcc.lean ====
section
/-! DEFINITION. Loads, stores, software events and their service: local data (R97), shared accesses and their routes (R98, R99,
R134 to R146). -/

namespace Sys2Proof.Machine

/-! Routes (R15, R135). -/

/-- R15: cluster c stands at row c / 8, column c % 8; the mesh hops between two clusters. -/
def meshHops (c d : Nat) : Nat :=
  let dist (a b : Nat) : Nat := (a - b) + (b - a)
  dist (c / 8) (d / 8) + dist (c % 8) (d % 8)

/-- R135: the cluster of the router at which a mapped word is attached, and the further hops to it. -/
def attachedAt (n : Nat) : Option (Nat × Nat) :=
  if isShared n then some (n / 0x20000, 0)
  else if isLocal n then some ((n - 0x01000000) / 0x2000 / 16, 0)
  else if isPlan n then some ((n - 0x02000000) / 0x1000 / 16, 0)
  else if isVoted n || isRaw n || isReg n then some (27, 1)
  else none

/-- R135: the hop count h of engine `e`'s access to an address. -/
def hopsTo (e : Nat) (a : Word) : Nat :=
  match attachedAt a.toNat with
  | some (c, k) => meshHops (e / 16) c + k
  | none => 0

/-- R15, R166: the links of a mesh route from cluster c to cluster d, along c's row and then along d's column. -/
def meshLinks (c d : Nat) : List Nat :=
  let link (r k col : Nat) : Nat := 128 + 4 * (8 * r + col) + k
  let x := c % 8
  let y := d % 8
  let r := c / 8
  let q := d / 8
  (List.range (y - x)).map (fun i => link r 0 (x + i)) ++ (List.range (x - y)).map (fun i => link r 1 (x - i))
    ++ (List.range (q - r)).map (fun i => link (r + i) 2 y) ++ (List.range (r - q)).map (fun i => link (r - i) 3 y)

/-- R135, R136: the channels that engine `e`'s access to an address occupies, in order: injection, links and the hub link (64). -/
def routeTo (e : Nat) (a : Word) : List Nat :=
  e / 16 :: (match attachedAt a.toNat with
    | some (c, k) => meshLinks (e / 16) c ++ (if k = 1 then [64] else [])
    | none => [])

/-- R136: the channel that a request occupies now. -/
def channelNow (s : State) (r : Req) : Option Nat := if r.rel < s.now then r.route[s.now - r.rel - 1]? else none

/-! Local loads and stores (R97). -/

/-- R97, R211: a local load. -/
def loadLocal (e off d : Nat) : Body := fun x s =>
  (addTx e 0 x.pos [0, word (off % 8192)] s, [.load (off % 8192) d])

/-- R97, R211: a local store. -/
def storeLocal (e off : Nat) (v : Word) : Body := fun x s =>
  (addTx e 0 x.pos [1, word (off % 8192), v] s, [.store (off % 8192) v])

/-- The local offset of LD and ST. -/
def offsetAB (x : Engine) (f : RegForm) : Nat := ((opA x f).toNat + (opB x f).toNat) % 8192

/-- LD (R97). -/
def execLd (e : Fin 1028) (f : RegForm) (s : State) : Host.Outcome State Fault Refusal :=
  releaseR e (.ld e f) f
    { cls := 3, dur := 2, body := fun x s => loadLocal e.val (offsetAB x f) f.d.toNat x s } s

/-- ST (R97). -/
def execSt (e : Fin 1028) (f : RegForm) (s : State) : Host.Outcome State Fault Refusal :=
  releaseR e (.st e f) f
    { cls := 3, dur := 2, body := fun x s => storeLocal e.val (offsetAB x f) (opD x f) x s } s

/-- LDL (R97). -/
def execLdl (e : Fin 1028) (f : ImmForm) (s : State) : Host.Outcome State Fault Refusal :=
  releaseI e (.ldl e f) f
    { cls := 3, dur := 2, body := fun x s => loadLocal e.val f.imm.toNat f.d.toNat x s } s

/-- STL (R97). -/
def execStl (e : Fin 1028) (f : ImmForm) (s : State) : Host.Outcome State Fault Refusal :=
  releaseI e (.stl e f) f
    { cls := 3, dur := 2, body := fun x s => storeLocal e.val f.imm.toNat (immD x f) x s } s

/-! Shared accesses (R98, R99, R136). -/

/-- The address of LDS and STS. -/
def sharedAddr (x : Engine) (f : RegForm) : Word := opA x f + opB x f

/-- R136: a plant engine's request, released now. -/
def addReq (e : Nat) (a : Word) (op : ReqOp) (x : Engine) (s : State) : State :=
  let h := hopsTo e a
  { s with reqs := s.reqs ++ [{ master := e, secure := false, addr := a, op := op, rel := s.now, acc := s.now + 2 + h,
                                hops := h, ord := x.ord, word := x.pos, route := routeTo e a }] }

/-- R211, R215: a request of an engine: a trailing engine's is compared and suppressed. -/
def request (e kind : Nat) (fields : List Word) (a : Word) (op : ReqOp) (x : Engine) (s : State) : State :=
  let s := addTx e kind x.pos fields s
  if trailsJoined s e then s else addReq e a op x s

/-- LDS (R98): a plant engine's request, or a supervisor engine's access. -/
def execLds (e : Fin 1028) (f : RegForm) (s : State) : Host.Outcome State Fault Refusal :=
  releaseR e (.lds e f) f
    { unit := .shared, cls := 5,
      body := fun x s =>
        let a := sharedAddr x f
        if e.val < 1024 then (request e.val 1 [0, a] a (.load f.d.toNat) x s, [])
        else match supRead e.val a s with
          | (some v, s) => (s, [.reg f.d.toNat v])
          | (none, s) => (s, []) } s

/-- STS (R98). -/
def execSts (e : Fin 1028) (f : RegForm) (s : State) : Host.Outcome State Fault Refusal :=
  releaseR e (.sts e f) f
    { unit := .shared, cls := 5,
      body := fun x s =>
        let a := sharedAddr x f
        if e.val < 1024 then (request e.val 1 [1, a, opD x f] a (.store (opD x f)) x s, [])
        else (supWrite e.val a (opD x f) s, []) } s

/-- R99: the first word of a target engine's local data, at which an EVS is gated. -/
def evsAddr (target : Nat) : Word := word (0x01000000 + target * 0x2000)

/-- R99, R140: a software event reaches its engine, or is refused and discarded. -/
def postSoft (m : Nat) (secure : Bool) (target src payload : Nat) (s : State) : State :=
  let s := touch (evsAddr target).toNat s
  match gate s m secure .write (evsAddr target) with
  | some r => violate m secure true r false (evsAddr target) s
  | none => enqueue target (eventWord src payload) s

/-- R99, R115, R499: a supervisor engine's software event; a refusal is noticed as that of a write. -/
def supEvs (e target src payload : Nat) (s : State) : State :=
  let t := postSoft e (supOf s e).secure target src payload s
  match gate s e (supOf s e).secure .write (evsAddr target) with
  | some _ => noteWrite e t
  | none => t

/-- EVS (R99): to engine wb[9:0], with source 0x0A00 + wb[17:10] and payload wa[19:0]. -/
def execEvs (e : Fin 1028) (f : RegForm) (s : State) : Host.Outcome State Fault Refusal :=
  releaseR e (.evs e f) f
    { unit := .shared, cls := 5,
      body := fun x s =>
        let b := (opB x f).toNat
        let target := slice b 9 0
        let src := 0x0A00 + slice b 17 10
        let payload := slice (opA x f).toNat 19 0
        if e.val < 1024 then
          (request e.val 2 [word target, word src, word payload] (evsAddr target) (.evs target src payload) x s, [])
        else (supEvs e.val target src payload s, []) } s

/-! Service (R137 to R141, R145, R146). -/

/-- R31, R138: of two requests at a point, the one served first: the lower master, then the earlier access tick, then the
earlier release. -/
def servedBefore (a b : Req) : Bool :=
  a.master < b.master || (a.master == b.master && (a.acc < b.acc || (a.acc == b.acc && a.ord < b.ord)))

/-- The request a point serves now. -/
def pickReq (s : State) (point : Nat) : Option Req :=
  s.reqs.foldl (fun best r =>
    if r.acc ≤ s.now && pointOf r.addr == point then
      match best with
      | some b => if servedBefore r b then some r else some b
      | none => some r
    else best) none

/-- R136: the landing tick of a request served now. -/
def landingOf (s : State) (r : Req) : Nat := if s.now ≤ r.acc + 1 then dueOf r else s.now + 4 + voterTicks r.addr

/-- R123: a service after the allowance tick is late. -/
def lateService (r : Req) (s : State) : State :=
  if s.now ≤ r.acc + 1 then s else lateEvent 0x104 r.master r.word (tickAt s (r.acc + 1)) (dayTick s) s

/-- R136: the result or acknowledgement of a request joins those in flight. -/
def landReq (land : Nat) (r : Req) (fs : List Effect) (s : State) : State :=
  modEngine r.master (fun x =>
    { x with fly := flyInsert { land := land, ord := r.ord, cls := 5, word := r.word, effs := fs, shared := true,
                                capture := !fs.isEmpty, due := dueOf r } x.fly }) s

/-- R98, R99, R492: a request is served: the gate decides, the access is made, and its result or acknowledgement is in flight. -/
def serve (r : Req) (s : State) : State :=
  let land := landingOf s r
  let s := lateService r { s with reqs := s.reqs.erase r }
  match r.op with
  | .load d =>
    let x := gatedRead r.master r.secure (some (r.master, r.word)) false r.addr s
    landReq land r [.reg d (x.1.getD poison)] x.2
  | .store v => landReq land r [] (gatedWrite r.master r.secure r.addr v s).2
  | .evs target src payload => landReq land r [] (postSoft r.master r.secure target src payload s)

/-- SHARED_ACCESS_SERVICE (R31, R137): a point serves its lowest-numbered request present. -/
def execSharedAccessService (point : Nat) (s : State) : Host.Outcome State Fault Refusal :=
  if pointHeld s point then .next s
  else match pickReq s point with
    | some r => .next (untouched (serve r s))
    | none => .next s

end Sys2Proof.Machine
end

