-- ==== Sys2Proof/Machine/Mul.lean ====
section
/-! DEFINITION. Multiplication, accumulators, division and CORDIC (R78, R89 to R96): classes M, D and CORDIC of R132. -/

namespace Sys2Proof.Machine

/-- MUL (R53, R76). -/
def execMul (e : Fin 1028) (f : RegForm) (s : State) : Host.Outcome State Fault Refusal :=
  releaseR e (.mul e f) f { cls := 1, dur := 2, body := resultOf fun x => resEffects f.d (aluMul (opA x f) (opB x f)) } s

/-- MULS (R53, R76). -/
def execMuls (e : Fin 1028) (f : RegForm) (s : State) : Host.Outcome State Fault Refusal :=
  releaseR e (.muls e f) f { cls := 1, dur := 2, body := resultOf fun x => resEffects f.d (aluMuls (opA x f) (opB x f)) } s

/-- PMUL (R53, R76). -/
def execPmul (e : Fin 1028) (f : RegForm) (s : State) : Host.Outcome State Fault Refusal :=
  releaseR e (.pmul e f) f { cls := 1, dur := 2, body := resultOf fun x => resEffects f.d (aluPmul (floorOf f) (opA x f) (opB x f)) } s

/-- MULH (R78). -/
def execMulh (e : Fin 1028) (f : RegForm) (s : State) : Host.Outcome State Fault Refusal :=
  releaseR e (.mulh e f) f { cls := 1, dur := 2, body := resultOf fun x => [.reg f.d.toNat (aluMulh (opA x f) (opB x f))] } s

/-- TMUL (R43, R78). -/
def execTmul (e : Fin 1028) (f : RegForm) (s : State) : Host.Outcome State Fault Refusal :=
  releaseR e (.tmul e f) f { cls := 1, dur := 2, body := resultOf fun x => [.reg f.d.toNat (aluTmul (floorOf f) (opA x f) (opB x f))] } s

/-- MAC (R89, R90). -/
def execMac (e : Fin 1028) (f : RegForm) (s : State) : Host.Outcome State Fault Refusal :=
  releaseR e (.mac e f) f { cls := 1, dur := 2, body := resultOf fun x => [.mac (f.m.getLsbD 0) (f.m.getLsbD 2) (f.m.getLsbD 1) ((opA x f).toInt * (opB x f).toInt)] } s

/-- ACX (R91, R45). -/
def execAcx (e : Fin 1028) (f : RegForm) (s : State) : Host.Outcome State Fault Refusal :=
  releaseR e (.acx e f) f { cls := 1, dur := 2, body := resultOf fun x => resEffects f.d (accExtract (floorOf f) (f.m.getLsbD 1) (accOf x (f.m.getLsbD 0))) } s

/-- ACM (R92, R46). -/
def execAcm (e : Fin 1028) (f : RegForm) (s : State) : Host.Outcome State Fault Refusal :=
  releaseR e (.acm e f) f { cls := 1, dur := 2, body := resultOf fun x => if f.m.getLsbD 3 then [.acm (f.m.getLsbD 0) (f.m.toNat / 2 % 4) (opA x f)] else [.reg f.d.toNat (accWord (accOf x (f.m.getLsbD 0)) (f.m.toNat / 2 % 4))] } s

/-- DIV (R54, R93). -/
def execDiv (e : Fin 1028) (f : RegForm) (s : State) : Host.Outcome State Fault Refusal :=
  releaseR e (.div e f) f { unit := .divider, cls := 2, dur := 9, body := resultOf fun x => resEffects f.d (aluDiv (opA x f) (opB x f)) } s

/-- REM (R54, R93). -/
def execRem (e : Fin 1028) (f : RegForm) (s : State) : Host.Outcome State Fault Refusal :=
  releaseR e (.rem e f) f { unit := .divider, cls := 2, dur := 9, body := resultOf fun x => resEffects f.d (aluRem (opA x f) (opB x f)) } s

/-- PDIV (R54, R93). -/
def execPdiv (e : Fin 1028) (f : RegForm) (s : State) : Host.Outcome State Fault Refusal :=
  releaseR e (.pdiv e f) f { unit := .divider, cls := 2, dur := 9, body := resultOf fun x => resEffects f.d (aluPdiv (opA x f) (opB x f)) } s

/-- R94: VROT's operands, wa and w(a+1) rotated by wb. -/
def vrotOf (x : Engine) (f : RegForm) : Res × Res :=
  rotate (opA x f).toInt (wGet x (f.a.toNat + 1)).toInt (opB x f)

/-- R94: the two results of a rotation in wd and w(d+1), with S if either saturates (R96). -/
def pairEffects (d : BitVec 6) (r : Res × Res) : List Effect :=
  resEffects d r.1 ++ resEffects (d + 1) r.2

/-- SINCOS (R94, R95). -/
def execSincos (e : Fin 1028) (f : RegForm) (s : State) : Host.Outcome State Fault Refusal :=
  releaseR e (.sincos e f) f { unit := .cordic, cls := 4, dur := 12, body := resultOf fun x => pairEffects f.d ((rotate (2 ^ 30) 0 (opA x f)).2, (rotate (2 ^ 30) 0 (opA x f)).1) } s

/-- VROT (R94, R95). -/
def execVrot (e : Fin 1028) (f : RegForm) (s : State) : Host.Outcome State Fault Refusal :=
  releaseR e (.vrot e f) f { unit := .cordic, cls := 4, dur := 12, body := resultOf fun x => pairEffects f.d (vrotOf x f) } s

/-- ATAN2 (R94, R95). -/
def execAtan2 (e : Fin 1028) (f : RegForm) (s : State) : Host.Outcome State Fault Refusal :=
  releaseR e (.atan2 e f) f { unit := .cordic, cls := 4, dur := 12, body := resultOf fun x => [.reg f.d.toNat (vectoring (opA x f).toInt (opB x f).toInt).1] } s

/-- MAG (R94, R95). -/
def execMag (e : Fin 1028) (f : RegForm) (s : State) : Host.Outcome State Fault Refusal :=
  releaseR e (.mag e f) f { unit := .cordic, cls := 4, dur := 12, body := resultOf fun x => resEffects f.d (vectoring (opA x f).toInt (opB x f).toInt).2 } s

/-- SQRT (R96). -/
def execSqrt (e : Fin 1028) (f : RegForm) (s : State) : Host.Outcome State Fault Refusal :=
  releaseR e (.sqrt e f) f { unit := .cordic, cls := 4, dur := 12, body := resultOf fun x => resEffects f.d (cordSqrt (opA x f)) } s

end Sys2Proof.Machine
end

