-- ==== Sys2Proof/Machine/Super.lean ====
section
/-! DEFINITION. The SYS extensions of supervisor engines (R116, R117, R503). A plant engine meets them as reserved encodings
(R69, R119), which the release of an instruction handles. -/

namespace Sys2Proof.Machine

/-- An exception that concerns no address: EXC_VA takes a free value, as the spec states none (log entry 129). -/
def exceptFree (e cause seq : Nat) (s : State) : State := except e cause 0 seq (Config.freeWord s.fresh) (bump s)

/-- R117: a SYS function from a world the table does not name enters the handler with cause 7 and does nothing else. -/
def wrongWorld (e : Nat) (s : State) : State := exceptFree e 7 0 s

/-- A SYS function that needs the secure world, or the normal one. -/
def inWorld (secure : Bool) (e : Nat) (f : State → State × List Effect) (s : State) : State × List Effect :=
  if (supOf s e).secure = secure then f s else (wrongWorld e s, [])

/-- JMP (R116). -/
def execJmp (e : Fin 1028) (f : RegForm) (s : State) : Host.Outcome State Fault Refusal :=
  releaseR e (.jmp e f) f { body := fun x s => (modSup e (fun u => { u with pc := opA x f }) s, []) } s

/-- CALL (R116): wd takes the address of the next instruction. -/
def execCall (e : Fin 1028) (f : RegForm) (s : State) : Host.Outcome State Fault Refusal :=
  releaseR e (.call e f) f
    { body := fun x s => (modSup e (fun u => { u with pc := opA x f }) s, [.reg f.d.toNat (supOf s e).pc]) } s

/-- ERET (R116, R490): back to the saved address and world. -/
def execEret (e : Fin 1028) (f : RegForm) (s : State) : Host.Outcome State Fault Refusal :=
  releaseR e (.eret e f) f
    { body := fun _ s => (modSup e (fun u => { u with pc := u.excPc, secure := u.excSecure }) s, []) } s

/-- TRAP (R116, R503): cause 8, with the code wa[11:0] where other causes hold a record's SEQ. -/
def execTrap (e : Fin 1028) (f : RegForm) (s : State) : Host.Outcome State Fault Refusal :=
  releaseR e (.trap e f) f { body := fun x s => (exceptFree e 8 (slice (opA x f).toNat 11 0) s, []) } s

/-- R503: a system register's value; one the table does not list is the firmware's own. -/
def sysRead (s : State) (e n : Nat) : Word :=
  let u := supOf s e
  match n with
  | 0x001 => u.ttbS
  | 0x002 => u.ttbN
  | 0x010 => u.cause
  | 0x011 => u.excVa
  | 0x012 => u.excPc
  | _ => Config.sysReg e n

/-- MFSR (R116). -/
def execMfsr (e : Fin 1028) (f : RegForm) (s : State) : Host.Outcome State Fault Refusal :=
  releaseR e (.mfsr e f) f
    { body := fun x s => (s, [.reg f.d.toNat (sysRead s e (slice (opA x f).toNat 11 0))]) } s

/-- R503: a write of a system register. -/
def sysWrite (e n : Nat) (v : Word) (s : State) : State :=
  modSup e (fun u =>
    match n with
    | 0x001 => { u with ttbS := v }
    | 0x002 => { u with ttbN := v }
    | 0x010 => { u with cause := v }
    | 0x011 => { u with excVa := v }
    | 0x012 => { u with excPc := v }
    | _ => u) s

/-- MTSR (R116, R503): TTB_S is writable only from the secure world. -/
def execMtsr (e : Fin 1028) (f : RegForm) (s : State) : Host.Outcome State Fault Refusal :=
  releaseR e (.mtsr e f) f
    { body := fun x s =>
        let n := slice (opA x f).toNat 11 0
        if n = 0x001 then inWorld true e (fun s => (sysWrite e n (opB x f) s, [])) s
        else (sysWrite e n (opB x f) s, []) } s

/-- TLBI (R116, R503): the translations of wa, or all of them with wb[0] = 1. -/
def execTlbi (e : Fin 1028) (f : RegForm) (s : State) : Host.Outcome State Fault Refusal :=
  releaseR e (.tlbi e f) f
    { body := fun x s => inWorld true e (fun s =>
        (modSup e (fun u =>
          { u with tlb := if (opB x f).getLsbD 0 then [] else u.tlb.filter fun t => t.2.1 != slice (opA x f).toNat 31 12 }) s, [])) s }
    s

/-- FENCE (R116, R499): every earlier access of the engine is complete and its notices are delivered before it issues. -/
def execFence (e : Fin 1028) (f : RegForm) (s : State) : Host.Outcome State Fault Refusal :=
  releaseR e (.fence e f) f { body := nothing } s

/-- CAS (R116, R494). -/
def execCas (e : Fin 1028) (f : RegForm) (s : State) : Host.Outcome State Fault Refusal :=
  releaseR e (.cas e f) f
    { body := fun x s =>
        let a := opA x f
        match supCas e a (opB x f) (opD x f) s with
        | (some t, s) => (s, [.reg f.d.toNat t])
        | (none, s) => (s, []) } s

/-- IDLE (R116): the engine rests until an interrupt, which the next command of it stands for. -/
def execIdle (e : Fin 1028) (f : RegForm) (s : State) : Host.Outcome State Fault Refusal :=
  releaseR e (.idle e f) f { body := fun _ s => (modEngine e (fun x => { x with rest := .sleep }) s, []) } s

/-- BEAT (R26, R116): the supervisor heartbeat. -/
def execBeat (e : Fin 1028) (f : RegForm) (s : State) : Host.Outcome State Fault Refusal :=
  releaseR e (.beat e f) f { body := fun _ s => (modNwt (fun n => { n with strobe := s.now }) s, []) } s

/-- SWC (R116): the secure world at its fixed entry point; no return address is kept (DESIGN CHOICE, log entry 128). -/
def execSwc (e : Fin 1028) (f : RegForm) (s : State) : Host.Outcome State Fault Refusal :=
  releaseR e (.swc e f) f
    { body := fun _ s => inWorld false e (fun s =>
        (modSup e (fun u => { u with secure := true, pc := Config.secureEntry }) s, [])) s } s

/-- SWR (R116): back to the normal world, at the next address (DESIGN CHOICE, log entry 128). -/
def execSwr (e : Fin 1028) (f : RegForm) (s : State) : Host.Outcome State Fault Refusal :=
  releaseR e (.swr e f) f
    { body := fun _ s => inWorld true e (fun s => (modSup e (fun u => { u with secure := false }) s, [])) s } s

end Sys2Proof.Machine
end

