-- ==== Sys2Proof/Machine/Dispatch.lean ====
section
/-! DEFINITION. The dispatch: one direct call of a meaning per command. -/

namespace Sys2Proof.Machine

/-- What a command does to the state, but for the queue of commands waiting. -/
def exec (i : Instr) (s : State) : Host.Outcome State Fault Refusal :=
  match i with
  | .nop e f => Sys2Proof.Machine.execNop e f s
  | .waitt e f => Sys2Proof.Machine.execWaitt e f s
  | .waitev e f => Sys2Proof.Machine.execWaitev e f s
  | .loop e f => Sys2Proof.Machine.execLoop e f s
  | .lock e f => Sys2Proof.Machine.execLock e f s
  | .unlock e f => Sys2Proof.Machine.execUnlock e f s
  | .done e f => Sys2Proof.Machine.execDone e f s
  | .tstamp e f => Sys2Proof.Machine.execTstamp e f s
  | .add e f => Sys2Proof.Machine.execAdd e f s
  | .adds e f => Sys2Proof.Machine.execAdds e f s
  | .sub e f => Sys2Proof.Machine.execSub e f s
  | .subs e f => Sys2Proof.Machine.execSubs e f s
  | .and e f => Sys2Proof.Machine.execAnd e f s
  | .or e f => Sys2Proof.Machine.execOr e f s
  | .xor e f => Sys2Proof.Machine.execXor e f s
  | .andn e f => Sys2Proof.Machine.execAndn e f s
  | .neg e f => Sys2Proof.Machine.execNeg e f s
  | .negs e f => Sys2Proof.Machine.execNegs e f s
  | .abs e f => Sys2Proof.Machine.execAbs e f s
  | .abss e f => Sys2Proof.Machine.execAbss e f s
  | .min e f => Sys2Proof.Machine.execMin e f s
  | .max e f => Sys2Proof.Machine.execMax e f s
  | .sel e f => Sys2Proof.Machine.execSel e f s
  | .cls e f => Sys2Proof.Machine.execCls e f s
  | .shl e f => Sys2Proof.Machine.execShl e f s
  | .shls e f => Sys2Proof.Machine.execShls e f s
  | .shr e f => Sys2Proof.Machine.execShr e f s
  | .sar e f => Sys2Proof.Machine.execSar e f s
  | .rot e f => Sys2Proof.Machine.execRot e f s
  | .ext e f => Sys2Proof.Machine.execExt e f s
  | .ins e f => Sys2Proof.Machine.execIns e f s
  | .cvt e f => Sys2Proof.Machine.execCvt e f s
  | .ldi e f => Sys2Proof.Machine.execLdi e f s
  | .shi e f => Sys2Proof.Machine.execShi e f s
  | .addi e f => Sys2Proof.Machine.execAddi e f s
  | .cmp e f => Sys2Proof.Machine.execCmp e f s
  | .plog e f => Sys2Proof.Machine.execPlog e f s
  | .pmov e f => Sys2Proof.Machine.execPmov e f s
  | .rdf e f => Sys2Proof.Machine.execRdf e f s
  | .clrf e f => Sys2Proof.Machine.execClrf e f s
  | .mul e f => Sys2Proof.Machine.execMul e f s
  | .muls e f => Sys2Proof.Machine.execMuls e f s
  | .mulh e f => Sys2Proof.Machine.execMulh e f s
  | .pmul e f => Sys2Proof.Machine.execPmul e f s
  | .tmul e f => Sys2Proof.Machine.execTmul e f s
  | .mac e f => Sys2Proof.Machine.execMac e f s
  | .acx e f => Sys2Proof.Machine.execAcx e f s
  | .acm e f => Sys2Proof.Machine.execAcm e f s
  | .div e f => Sys2Proof.Machine.execDiv e f s
  | .rem e f => Sys2Proof.Machine.execRem e f s
  | .pdiv e f => Sys2Proof.Machine.execPdiv e f s
  | .sincos e f => Sys2Proof.Machine.execSincos e f s
  | .vrot e f => Sys2Proof.Machine.execVrot e f s
  | .atan2 e f => Sys2Proof.Machine.execAtan2 e f s
  | .mag e f => Sys2Proof.Machine.execMag e f s
  | .sqrt e f => Sys2Proof.Machine.execSqrt e f s
  | .ld e f => Sys2Proof.Machine.execLd e f s
  | .st e f => Sys2Proof.Machine.execSt e f s
  | .lds e f => Sys2Proof.Machine.execLds e f s
  | .sts e f => Sys2Proof.Machine.execSts e f s
  | .ldl e f => Sys2Proof.Machine.execLdl e f s
  | .stl e f => Sys2Proof.Machine.execStl e f s
  | .evs e f => Sys2Proof.Machine.execEvs e f s
  | .popc e f => Sys2Proof.Machine.execPopc e f s
  | .tmark e f => Sys2Proof.Machine.execTmark e f s
  | .lim e f => Sys2Proof.Machine.execLim e f s
  | .srr e f => Sys2Proof.Machine.execSrr e f s
  | .jmp e f => Sys2Proof.Machine.execJmp e f s
  | .call e f => Sys2Proof.Machine.execCall e f s
  | .eret e f => Sys2Proof.Machine.execEret e f s
  | .trap e f => Sys2Proof.Machine.execTrap e f s
  | .mfsr e f => Sys2Proof.Machine.execMfsr e f s
  | .mtsr e f => Sys2Proof.Machine.execMtsr e f s
  | .tlbi e f => Sys2Proof.Machine.execTlbi e f s
  | .fence e f => Sys2Proof.Machine.execFence e f s
  | .cas e f => Sys2Proof.Machine.execCas e f s
  | .idle e f => Sys2Proof.Machine.execIdle e f s
  | .beat e f => Sys2Proof.Machine.execBeat e f s
  | .swc e f => Sys2Proof.Machine.execSwc e f s
  | .swr e f => Sys2Proof.Machine.execSwr e f s
  | .resultLanding e late slack => Sys2Proof.Machine.execResultLanding e late slack s
  | .sharedAccessService point => Sys2Proof.Machine.execSharedAccessService point s
  | .waittTargetReached e => Sys2Proof.Machine.execWaittTargetReached e s
  | .eventWake e => Sys2Proof.Machine.execEventWake e s
  | .waitDeadline e => Sys2Proof.Machine.execWaitDeadline e s
  | .pairInputReplay k uncor => Sys2Proof.Machine.execPairInputReplay k uncor s
  | .comparatorCheck k => Sys2Proof.Machine.execComparatorCheck k s
  | .comparatorSelfTest k reported lead trail => Sys2Proof.Machine.execComparatorSelfTest k reported lead trail s
  | .detectorSelfTest c reported => Sys2Proof.Machine.execDetectorSelfTest c reported s
  | .comparatorArm k => Sys2Proof.Machine.execComparatorArm k s
  | .engineImageCapture e => Sys2Proof.Machine.execEngineImageCapture e s
  | .tripleStoreRepair => Sys2Proof.Machine.execTripleStoreRepair s
  | .tripleStoreScrub off found => Sys2Proof.Machine.execTripleStoreScrub off found s
  | .memoryScrub a found => Sys2Proof.Machine.execMemoryScrub a found s
  | .speedMeasurement c idx tj => Sys2Proof.Machine.execSpeedMeasurement c idx tj s
  | .analogueRecalibration input => Sys2Proof.Machine.execAnalogueRecalibration input s
  | .midnight => Sys2Proof.Machine.execMidnight s
  | .dayWatchdogCheck => Sys2Proof.Machine.execDayWatchdogCheck s
  | .checkpointCut => Sys2Proof.Machine.execCheckpointCut s
  | .deltaFrameSend lane => Sys2Proof.Machine.execDeltaFrameSend lane s
  | .endFrameSend lane => Sys2Proof.Machine.execEndFrameSend lane s
  | .duskStart => Sys2Proof.Machine.execDuskStart s
  | .commitComplete => Sys2Proof.Machine.execCommitComplete s
  | .sweepFrameSend lane => Sys2Proof.Machine.execSweepFrameSend lane s
  | .noonEvaluation => Sys2Proof.Machine.execNoonEvaluation s
  | .changeLoaderComplete => Sys2Proof.Machine.execChangeLoaderComplete s
  | .beaconSend p sub => Sys2Proof.Machine.execBeaconSend p sub s
  | .beaconMissed p => Sys2Proof.Machine.execBeaconMissed p s
  | .echoRequestSend p => Sys2Proof.Machine.execEchoRequestSend p s
  | .echoReplyReceive p k e r m => Sys2Proof.Machine.execEchoReplyReceive p k e r m s
  | .delayNoticeSend p => Sys2Proof.Machine.execDelayNoticeSend p s
  | .transmitAttempt p how => Sys2Proof.Machine.execTransmitAttempt p how s
  | .transmitSuccess p loopd => Sys2Proof.Machine.execTransmitSuccess p loopd s
  | .errorDetected p cls fast row loopd => Sys2Proof.Machine.execErrorDetected p cls fast row loopd s
  | .busOffRecoveryComplete p driverHolds => Sys2Proof.Machine.execBusOffRecoveryComplete p driverHolds s
  | .integrationComplete p => Sys2Proof.Machine.execIntegrationComplete p s
  | .protocolException p => Sys2Proof.Machine.execProtocolException p s
  | .dominantTimeout p => Sys2Proof.Machine.execDominantTimeout p s
  | .driverCurrentLimit p => Sys2Proof.Machine.execDriverCurrentLimit p s
  | .driverDisable p => Sys2Proof.Machine.execDriverDisable p s
  | .groupSupplyFail g => Sys2Proof.Machine.execGroupSupplyFail g s
  | .frameValid p f => Sys2Proof.Machine.execFrameValid p f s
  | .frameDeposit p d => Sys2Proof.Machine.execFrameDeposit p d s
  | .txptrWrite p put => Sys2Proof.Machine.execTxptrWrite p put s
  | .txcanCancel p index => Sys2Proof.Machine.execTxcanCancel p index s
  | .rxack p count => Sys2Proof.Machine.execRxack p count s
  | .cfgEnter p => Sys2Proof.Machine.execCfgEnter p s
  | .cfgLeave p => Sys2Proof.Machine.execCfgLeave p s
  | .loreqSet p => Sys2Proof.Machine.execLoreqSet p s
  | .loreqClear p => Sys2Proof.Machine.execLoreqClear p s
  | .borec p => Sys2Proof.Machine.execBorec p s
  | .unmute p k => Sys2Proof.Machine.execUnmute p k s
  | .clockTick => Sys2Proof.Machine.execClockTick s
  | .clockStep src sec ns64 => Sys2Proof.Machine.execClockStep src sec ns64 s
  | .daySequencerStart => Sys2Proof.Machine.execDaySequencerStart s
  | .pllUnlock => Sys2Proof.Machine.execPllUnlock s
  | .ptpSyncReceive k domain interval t1 t2 corr => Sys2Proof.Machine.execPtpSyncReceive k domain interval t1 t2 corr s
  | .ptpAnnounceReceive k lan a => Sys2Proof.Machine.execPtpAnnounceReceive k lan a s
  | .pdelayReqSend n => Sys2Proof.Machine.execPdelayReqSend n s
  | .pdelayReqReceive n => Sys2Proof.Machine.execPdelayReqReceive n s
  | .pdelayRespReceive n mpd => Sys2Proof.Machine.execPdelayRespReceive n mpd s
  | .announceTimeout k => Sys2Proof.Machine.execAnnounceTimeout k s
  | .gmChangeHoldEnd k => Sys2Proof.Machine.execGmChangeHoldEnd k s
  | .ppsEdge => Sys2Proof.Machine.execPpsEdge s
  | .irigFrame widths => Sys2Proof.Machine.execIrigFrame widths s
  | .sourceRevert => Sys2Proof.Machine.execSourceRevert s
  | .lockAcquired => Sys2Proof.Machine.execLockAcquired s
  | .holdLongEntry => Sys2Proof.Machine.execHoldLongEntry s
  | .trendLearned => Sys2Proof.Machine.execTrendLearned s
  | .leapApply => Sys2Proof.Machine.execLeapApply s
  | .farSourceReport src => Sys2Proof.Machine.execFarSourceReport src s
  | .timeWaitExpiry => Sys2Proof.Machine.execTimeWaitExpiry s
  | .ppsOutputEdge => Sys2Proof.Machine.execPpsOutputEdge s
  | .feedptrWrite put => Sys2Proof.Machine.execFeedptrWrite put s
  | .feedProcess => Sys2Proof.Machine.execFeedProcess s
  | .channelGo c => Sys2Proof.Machine.execChannelGo c s
  | .channelStop c => Sys2Proof.Machine.execChannelStop c s
  | .syncArmNextPps => Sys2Proof.Machine.execSyncArmNextPps s
  | .syncArmMidnight => Sys2Proof.Machine.execSyncArmMidnight s
  | .syncArmFail => Sys2Proof.Machine.execSyncArmFail s
  | .c37ConnectionAccept stream peer port => Sys2Proof.Machine.execC37ConnectionAccept stream peer port s
  | .c37DataOff stream peer => Sys2Proof.Machine.execC37DataOff stream peer s
  | .c37DataOn stream peer => Sys2Proof.Machine.execC37DataOn stream peer s
  | .c37SendHeader stream peer => Sys2Proof.Machine.execC37SendHeader stream peer s
  | .c37SendCfg2 stream peer => Sys2Proof.Machine.execC37SendCfg2 stream peer s
  | .c37SendCfg3 stream peer => Sys2Proof.Machine.execC37SendCfg3 stream peer s
  | .c37Cfg1Ignored stream peer => Sys2Proof.Machine.execC37Cfg1Ignored stream peer s
  | .c37ExtendedFrameIgnored stream peer => Sys2Proof.Machine.execC37ExtendedFrameIgnored stream peer s
  | .c37DataFrameSend stream sec j => Sys2Proof.Machine.execC37DataFrameSend stream sec j s
  | .c37FrameTimeout stream sec j => Sys2Proof.Machine.execC37FrameTimeout stream sec j s
  | .remoteCfg2Receive r cfgCnt fmt => Sys2Proof.Machine.execRemoteCfg2Receive r cfgCnt fmt s
  | .remoteDataFrameReceive r f => Sys2Proof.Machine.execRemoteDataFrameReceive r f s
  | .remoteStreamLost r => Sys2Proof.Machine.execRemoteStreamLost r s
  | .remoteCfg2Rerequest r => Sys2Proof.Machine.execRemoteCfg2Rerequest r s
  | .mandateLoopStateChange partner tenthMilliamp => Sys2Proof.Machine.execMandateLoopStateChange partner tenthMilliamp s
  | .presenceChange partner inserted => Sys2Proof.Machine.execPresenceChange partner inserted s
  | .presenceDebounceEnd => Sys2Proof.Machine.execPresenceDebounceEnd s
  | .claimLatchSet => Sys2Proof.Machine.execClaimLatchSet s
  | .yieldRecheck => Sys2Proof.Machine.execYieldRecheck s
  | .claimConfirmation => Sys2Proof.Machine.execClaimConfirmation s
  | .loopError path => Sys2Proof.Machine.execLoopError path s
  | .switchoverReadback => Sys2Proof.Machine.execSwitchoverReadback s
  | .switchoverRelease => Sys2Proof.Machine.execSwitchoverRelease s
  | .switchoverFallbackCheck => Sys2Proof.Machine.execSwitchoverFallbackCheck s
  | .noticeSend lane => Sys2Proof.Machine.execNoticeSend lane s
  | .noticeReceive lane f ofs => Sys2Proof.Machine.execNoticeReceive lane f ofs s
  | .laneDown lane => Sys2Proof.Machine.execLaneDown lane s
  | .deltaReceive lane f => Sys2Proof.Machine.execDeltaReceive lane f s
  | .sweepReceive lane f => Sys2Proof.Machine.execSweepReceive lane f s
  | .endReceive lane f change => Sys2Proof.Machine.execEndReceive lane f change s
  | .abandonReceive lane f => Sys2Proof.Machine.execAbandonReceive lane f s
  | .ackReceive lane f => Sys2Proof.Machine.execAckReceive lane f s
  | .joinReceive lane f => Sys2Proof.Machine.execJoinReceive lane f s
  | .cloneReceive lane f ty h => Sys2Proof.Machine.execCloneReceive lane f ty h s
  | .cloneComplete => Sys2Proof.Machine.execCloneComplete s
  | .finalReceive lane f => Sys2Proof.Machine.execFinalReceive lane f s
  | .dayHeartbeatTimeout => Sys2Proof.Machine.execDayHeartbeatTimeout s
  | .supervisorHeartbeatTimeout => Sys2Proof.Machine.execSupervisorHeartbeatTimeout s
  | .fabricRailFault => Sys2Proof.Machine.execFabricRailFault s
  | .internalRailFault => Sys2Proof.Machine.execInternalRailFault s
  | .feedsLost => Sys2Proof.Machine.execFeedsLost s
  | .nightwatchRailLoss => Sys2Proof.Machine.execNightwatchRailLoss s
  | .sundown complete => Sys2Proof.Machine.execSundown complete s
  | .resetAssert => Sys2Proof.Machine.execResetAssert s
  | .resetRelease => Sys2Proof.Machine.execResetRelease s
  | .startThresholdReached => Sys2Proof.Machine.execStartThresholdReached s
  | .daybreak v => Sys2Proof.Machine.execDaybreak v s
  | .daybreakStepTimeout step => Sys2Proof.Machine.execDaybreakStepTimeout step s
  | .retryWaitExpiry => Sys2Proof.Machine.execRetryWaitExpiry s
  | .coldStartRelease => Sys2Proof.Machine.execColdStartRelease s
  | .safDrvCmdWrite d cmd => Sys2Proof.Machine.execSafDrvCmdWrite d cmd s
  | .safConnRxWrite c j v => Sys2Proof.Machine.execSafConnRxWrite c j v s
  | .safResumeWrite d snap => Sys2Proof.Machine.execSafResumeWrite d snap s
  | .safUnlockGo d => Sys2Proof.Machine.execSafUnlockGo d s
  | .testPulseStart k => Sys2Proof.Machine.execTestPulseStart k s
  | .testPulseCheck k => Sys2Proof.Machine.execTestPulseCheck k s
  | .testPulseEnd k => Sys2Proof.Machine.execTestPulseEnd k s
  | .darkTest l pulse readsOn => Sys2Proof.Machine.execDarkTest l pulse readsOn s
  | .contactorFeedbackTimeout d => Sys2Proof.Machine.execContactorFeedbackTimeout d s
  | .monitorDiscrepancy => Sys2Proof.Machine.execMonitorDiscrepancy s
  | .forcingPathTest ok => Sys2Proof.Machine.execForcingPathTest ok s
  | .inputCrossing l millivolt => Sys2Proof.Machine.execInputCrossing l millivolt s
  | .filteredBandChange l => Sys2Proof.Machine.execFilteredBandChange l s
  | .freezeEnd l => Sys2Proof.Machine.execFreezeEnd l s
  | .loadingSettle => Sys2Proof.Machine.execLoadingSettle s
  | .lioOutWrite l v => Sys2Proof.Machine.execLioOutWrite l v s
  | .pwmReload l => Sys2Proof.Machine.execPwmReload l s
  | .outputOverload l => Sys2Proof.Machine.execOutputOverload l s
  | .outputReadbackFault l => Sys2Proof.Machine.execOutputReadbackFault l s
  | .openLoad l => Sys2Proof.Machine.execOpenLoad l s
  | .groupFieldSupplyChange g inRange => Sys2Proof.Machine.execGroupFieldSupplyChange g inRange s
  | .testSupplyOverload k => Sys2Proof.Machine.execTestSupplyOverload k s
  | .testSupplyRetry k => Sys2Proof.Machine.execTestSupplyRetry k s
  | .loopSample a microamp atLimit => Sys2Proof.Machine.execLoopSample a microamp atLimit s
  | .faceplatePassStart => Sys2Proof.Machine.execFaceplatePassStart s
  | .faceplatePassComplete => Sys2Proof.Machine.execFaceplatePassComplete s
  | .faceplatePassAbandon => Sys2Proof.Machine.execFaceplatePassAbandon s
  | .feedDrop k millivolt => Sys2Proof.Machine.execFeedDrop k millivolt s
  | .feedOvervoltage k millivolt => Sys2Proof.Machine.execFeedOvervoltage k millivolt s
  | .feedReconnect k millivolt => Sys2Proof.Machine.execFeedReconnect k millivolt s
  | .feedReverse k millivolt => Sys2Proof.Machine.execFeedReverse k millivolt s
  | .storeStateChange charge => Sys2Proof.Machine.execStoreStateChange charge s
  | .storeCapacityTest tenthJoule => Sys2Proof.Machine.execStoreCapacityTest tenthJoule s
  | .interfaceOvertemp celsius => Sys2Proof.Machine.execInterfaceOvertemp celsius s
  | .hostConnection port peer dial chain => Sys2Proof.Machine.execHostConnection port peer dial chain s
  | .sessionIdleTimeout sess => Sys2Proof.Machine.execSessionIdleTimeout sess s
  | .tlsFailure sess => Sys2Proof.Machine.execTlsFailure sess s
  | .keyUpdate sess => Sys2Proof.Machine.execKeyUpdate sess s
  | .hostFramingError sess w0 w1 => Sys2Proof.Machine.execHostFramingError sess w0 w1 s
  | .networkFrameDrop port peer => Sys2Proof.Machine.execNetworkFrameDrop port peer s
  | .icmpEcho port ident => Sys2Proof.Machine.execIcmpEcho port ident s
  | .rngReady => Sys2Proof.Machine.execRngReady s
  | .rngHealthFail => Sys2Proof.Machine.execRngHealthFail s
  | .drbgReseed => Sys2Proof.Machine.execDrbgReseed s
  | .secRngRead => Sys2Proof.Machine.execSecRngRead s
  | .grantExpiry => Sys2Proof.Machine.execGrantExpiry s
  | .updateSessionLoss => Sys2Proof.Machine.execUpdateSessionLoss s
  | .ident q => Sys2Proof.Machine.execIdent q s
  | .echo q payload => Sys2Proof.Machine.execEcho q payload s
  | .status q => Sys2Proof.Machine.execStatus q s
  | .read q a count => Sys2Proof.Machine.execRead q a count s
  | .log q first count => Sys2Proof.Machine.execLog q first count s
  | .telem q => Sys2Proof.Machine.execTelem q s
  | .pmucfg q stream => Sys2Proof.Machine.execPmucfg q stream s
  | .stop q flags => Sys2Proof.Machine.execStop q flags s
  | .restart q => Sys2Proof.Machine.execRestart q s
  | .switch q day => Sys2Proof.Machine.execSwitch q day s
  | .hostUnlock q drive => Sys2Proof.Machine.execHostUnlock q drive s
  | .fpline q line words => Sys2Proof.Machine.execFpline q line words s
  | .uopen q cls bank slot h ty floor => Sys2Proof.Machine.execUopen q cls bank slot h ty floor s
  | .ublock q offset words => Sys2Proof.Machine.execUblock q offset words s
  | .uclose q => Sys2Proof.Machine.execUclose q s
  | .ucopy q slot => Sys2Proof.Machine.execUcopy q slot s
  | .activate q bank keep => Sys2Proof.Machine.execActivate q bank keep s
  | .arm q day => Sys2Proof.Machine.execArm q day s
  | .vaultGenerateDeviceKey q => Sys2Proof.Machine.execVaultGenerateDeviceKey q s
  | .vaultInstallDeviceCert q item => Sys2Proof.Machine.execVaultInstallDeviceCert q item s
  | .vaultInstallConfigKey q slot item => Sys2Proof.Machine.execVaultInstallConfigKey q slot item s
  | .vaultInstallTrustAnchor q slot item => Sys2Proof.Machine.execVaultInstallTrustAnchor q slot item s
  | .vaultInstallDebugKeys q slot item => Sys2Proof.Machine.execVaultInstallDebugKeys q slot item s
  | .vaultInstallAccessAnchor q slot item => Sys2Proof.Machine.execVaultInstallAccessAnchor q slot item s
  | .vaultReplaceCrl q item => Sys2Proof.Machine.execVaultReplaceCrl q item s
  | .vaultDeleteSlot q slot => Sys2Proof.Machine.execVaultDeleteSlot q slot s
  | .vaultListSlots q => Sys2Proof.Machine.execVaultListSlots q s
  | .zeroise q serial => Sys2Proof.Machine.execZeroise q serial s
  | .commission q key anchor access => Sys2Proof.Machine.execCommission q key anchor access s
  | .dbgchal q => Sys2Proof.Machine.execDbgchal q s
  | .dbggrant q g => Sys2Proof.Machine.execDbggrant q g s
  | .peek q a count => Sys2Proof.Machine.execPeek q a count s
  | .take q a count => Sys2Proof.Machine.execTake q a count s
  | .poke q a words => Sys2Proof.Machine.execPoke q a words s
  | .halt q e => Sys2Proof.Machine.execHalt q e s
  | .resume q e => Sys2Proof.Machine.execResume q e s
  | .step q e n => Sys2Proof.Machine.execStep q e n s
  | .regs q e => Sys2Proof.Machine.execRegs q e s
  | .fabLateRead master secure => Sys2Proof.Machine.execFabLateRead master secure s
  | .dayOvrRead master secure => Sys2Proof.Machine.execDayOvrRead master secure s
  | .cmpMismRead master secure => Sys2Proof.Machine.execCmpMismRead master secure s
  | .gateViolRead master secure => Sys2Proof.Machine.execGateViolRead master secure s
  | .dbgTrrdRead master secure => Sys2Proof.Machine.execDbgTrrdRead master secure s
  | .dayNumlRead master secure => Sys2Proof.Machine.execDayNumlRead master secure s
  | .timClknsRead master secure => Sys2Proof.Machine.execTimClknsRead master secure s
  | .counterReadClear master secure a => Sys2Proof.Machine.execCounterReadClear master secure a s
  | .gateRegionWrite master secure n j v => Sys2Proof.Machine.execGateRegionWrite master secure n j v s
  | .registerWrite master secure a v => Sys2Proof.Machine.execRegisterWrite master secure a v s
  | .telemetryCollection => Sys2Proof.Machine.execTelemetryCollection s
  | .logEntryWrite => Sys2Proof.Machine.execLogEntryWrite s
  | .traceWrite => Sys2Proof.Machine.execTraceWrite s
  | .feedReturn k millivolt => Sys2Proof.Machine.execFeedReturn k millivolt s
  | .syncMissing k => Sys2Proof.Machine.execSyncMissing k s
  | .peerDelayTimeout n => Sys2Proof.Machine.execPeerDelayTimeout n s
  | .ppsEdgeMissing => Sys2Proof.Machine.execPpsEdgeMissing s
  | .irigSignalLoss => Sys2Proof.Machine.execIrigSignalLoss s
  | .partnerLoopUnknownRepeat => Sys2Proof.Machine.execPartnerLoopUnknownRepeat s
  | .cloneFrameSend lane ty theirs => Sys2Proof.Machine.execCloneFrameSend lane ty theirs s
  | .groupSupplyReturn g => Sys2Proof.Machine.execGroupSupplyReturn g s
  | .pllRelock => Sys2Proof.Machine.execPllRelock s

end Sys2Proof.Machine
end

