-- ==== Sys2Proof/Safety.lean ====
section
/-! DEFINITION. The terms the statements use: the canonical form every reachable state has, what a command leaves unchanged,
when an instruction is released, and what an instruction's result leaves. -/

namespace Sys2Proof.Machine

/-! The canonical form. -/

/-- Every table of the state, and every engine's register file, has its keys in rising order, memory lists no word at the zero an
unlisted one reads as, and the shadow region table names words of the region table alone (R497). -/
def State.wf (s : State) : Prop :=
  rising s.regs ∧ Memory.wf s.mem = true ∧ rising s.chk ∧ rising s.ts ∧ rising s.priv ∧ rising s.eng ∧ rising s.sup
    ∧ rising s.pairs ∧ rising s.ports ∧ rising s.latch ∧ rising s.sess ∧ rising s.speeds
    ∧ rising s.served ∧ rising s.link.images ∧ rising s.link.frozenImg ∧ rising s.link.rx
    ∧ rising s.link.rxSweep ∧ rising s.link.laneAt ∧ rising s.link.cloneTx ∧ rising s.time.mpd ∧ rising s.time.mpdAt
    ∧ rising s.time.far ∧ rising s.net.tlsAt ∧ rising s.net.echoes ∧ rising s.lio.tovlAt ∧ rising s.lio.loops
    ∧ rising s.saf.pulse ∧ rising s.fpd.panel ∧ rising s.lio.chans ∧ rising s.saf.drives ∧ rising s.saf.conns
    ∧ rising s.saf.inputs ∧ rising s.sig.chans ∧ rising s.c37.streams ∧ rising s.c37.remotes ∧ rising s.boot.slots
    ∧ rising s.c37.invalid ∧ rising s.time.pdelayAt ∧ rising s.tk.sets
    ∧ (∀ p ∈ s.eng, rising p.2.w) ∧ ∀ w ∈ s.day.midRegions, 0x040C1000 ≤ w.1 ∧ w.1 < 0x040D0000

/-- The bounds the spec gives its queues: late, overrun, mismatch and violation records, repairs, pending log entries, trace, and each
engine's event queue, loop stack and bracket (R102, R109, R114, R149, R190, R213, R225, R498, R573, R577). -/
def State.bounded (s : State) : Prop :=
  s.late.length ≤ 16 ∧ s.ovr.length ≤ 16 ∧ s.mism.length ≤ 16 ∧ s.viol.length ≤ 32 ∧ s.tsRepairs.length ≤ 8
    ∧ s.logQ.length ≤ 256 ∧ s.trace.intake.length ≤ 1024 ∧ s.trace.mem.length ≤ 16384
    ∧ (∀ e, (engine s e).evq.length ≤ 16 ∧ (engine s e).loops.length ≤ 4 ∧ (engine s e).lockCnt < 32)
    ∧ ∀ k, bufHeld (pairOf s k) ≤ 64

/-- R21: the transitions between two different module states. -/
def transitionAllowed : MState → MState → Bool
  | _, .daybreak => true
  | .daybreak, .standby | .daybreak, .active | .daybreak, .bench => true
  | .standby, .active | .active, .standby => true
  | .standby, .stopped | .bench, .stopped | .active, .stopped => true
  | a, b => a == b

/-! What a command leaves unchanged. -/

/-- The state before, with what raising faults writes taken from the state after: the registers and the tick log, the second of the
last fault, the log queue and telemetry's counters (R9, R571, R573). -/
def logged (s t : State) : State := { s with regs := t.regs, tk := t.tk, lastFSec := t.lastFSec, logQ := t.logQ, telem := t.telem }

/-- Every register outside the list reads as before. -/
def regsKept (l : List Nat) (s t : State) : Prop := ∀ a, a ∉ l → reg t a = reg s a

/-- Every register outside the list and the two that faults write reads as before. -/
def regsKeptF (l : List Nat) (s t : State) : Prop := ∀ a, a ∉ l → a ≠ midLastF → a ≠ midLog → reg t a = reg s a

/-- R571: fault `code` is the last raised, and while the queue has room an entry of this second waits with its detail. -/
def raised (code detail : Nat) (s t : State) : Prop :=
  reg t midLastF = word code ∧ t.lastFSec = s.time.sec
    ∧ (s.logQ.length < 256 → ∃ l ∈ t.logQ, l.code = code ∧ l.detail = detail ∧ l.sec = s.time.sec)

/-- R533 to R535: feed `k` stands at a voltage: both feeds show whether they are present and used, and with no feed left the start threshold
is to be reached anew. Faults apart nothing else changes. -/
def feedSet (k : Nat) (mv : Int) (s t : State) : Prop :=
  feedMv t k = mv ∧ feedMv t (1 - k) = feedMv s (1 - k) ∧ feedOff t (1 - k) = feedOff s (1 - k)
    ∧ (∀ j < 2, bitOf t (pwrFeed (j + 1)) 34 = feedOk t j ∧ bitOf t (pwrFeed (j + 1)) 35 = feedUsed t j
      ∧ getF t (pwrFeed (j + 1)) 15 0 = (min (feedMv t j) 65535).toNat)
    ∧ (feedOk t 0 = false → feedOk t 1 = false → t.pwr.threshold = false)
    ∧ t.pwr.warm = s.pwr.warm ∧ regsKeptF [pwrFeed 1, pwrFeed 2, pwrStatus] s t ∧ t = { logged s t with pwr := t.pwr }

/-- R511: traffic is dropped: counted for one port, with fault 0xB32 at most once per minute, and nothing else. -/
def dropped (s t : State) : Prop :=
  t = { logged s t with net := { s.net with dropAt := t.net.dropAt }, fresh := t.fresh }
    ∧ (∃ p < 4, getF t (netDrop (p + 1)) 35 0 = min (getF s (netDrop (p + 1)) 35 0 + 1) (2 ^ 36 - 1) ∧ regsKeptF [netDrop (p + 1)] s t)
    ∧ (s.net.dropAt = 0 ∨ s.net.dropAt + 15000000000 ≤ s.now + 1 → reg t midLastF = word 0xB32)

/-! Releases of instructions. -/

/-- R70, R119, R122, R569, R580: engine `e` is a plant engine, its instruction is no reserved encoding and fetches without
an error, it may be released now, and no halt takes effect. -/
def plantReady (s : State) (e : Fin 1028) (i : Instr) (delta : Nat) (u : UnitKind) : Prop :=
  e.val < 1024 ∧ wellFormed i = true ∧ mayRelease s e (sources i) delta u = true ∧ haltsNow s e = false ∧ fetchBad s e = false

/-- R31, R115, R499, R500: engine `e` is a supervisor engine that neither waits nor is halted, no notice of a refused write is
due, its instruction is no reserved encoding, and its fetch is permitted, finds its points free and leaves the state `u`. -/
def supReady (s : State) (e : Fin 1028) (i : Instr) (u : State) : Prop :=
  1024 ≤ e.val ∧ wellFormed i = true ∧ supWaits (engine s e) = false ∧ haltsNow s e = false ∧ (supOf s e).notices = []
    ∧ supFetch e (untouched s) = (true, u) ∧ freeFor e 0 s u = true

/-- A plant engine's architectural registers, predicates, flags and event queue are as before. -/
def archKept (x y : Engine) : Prop :=
  y.w = x.w ∧ y.ac0 = x.ac0 ∧ y.ac1 = x.ac1 ∧ y.p = x.p ∧ y.fV = x.fV ∧ y.fS = x.fS ∧ y.fD = x.fD ∧ y.evq = x.evq

/-- What a release leaves alone whether or not it was late (R149) or closed a bracket (R114). -/
def restKept (s t : State) : Prop :=
  t.mem = s.mem ∧ t.chk = s.chk ∧ t.ts = s.ts ∧ t.priv = s.priv ∧ t.sup = s.sup ∧ t.reqs = s.reqs ∧ t.ports = s.ports
    ∧ t.time = s.time ∧ t.lio = s.lio ∧ t.sig = s.sig ∧ t.saf = s.saf ∧ t.boot = s.boot ∧ t.mst = s.mst
    ∧ t.pending = s.pending ∧ regsKeptF [fabStatus, dbgTrStat] s t

/-- The release is on its scheduled tick, and the instruction is not the 32nd of a bracket. -/
def punctual (s : State) (e delta : Nat) : Prop :=
  s.now ≤ (engine s e).prev + delta ∧ ((engine s e).lockOpen = true → (engine s e).lockCnt < 31)

/-- What the release of an instruction of plant engine `e` leaves alone, the engine's own timing state apart. -/
def releaseFrame (s t : State) (e delta : Nat) : Prop :=
  (∀ j, j ≠ e → engine t j = engine s j) ∧ t.pairs = s.pairs ∧ restKept s t
    ∧ (punctual s e delta → t = { s with eng := t.eng })

/-- R71, R132: an instruction released now changes no register, predicate, flag or accumulator; its result `fs` of timing
class `cls` is in flight and lands `dur` ticks after the release. -/
def issued (s t : State) (e delta cls dur : Nat) (fs : List Effect) : Prop :=
  (∃ l ∈ (engine t e).fly, l.land = s.now + dur ∧ l.cls = cls ∧ l.word = (engine s e).pos ∧ l.effs = fs)
    ∧ archKept (engine s e) (engine t e) ∧ releaseFrame s t e delta

/-- What register `r` holds after the effects, in order. -/
def wAfter (fs : List Effect) (r : Nat) (old : Word) : Word :=
  fs.foldl (fun v f => match f with | .reg d w => if d % 64 = r % 64 then w else v | _ => v) old

/-- What predicate `n` holds after the effects. -/
def pAfter (fs : List Effect) (n : Nat) (old : Bool) : Bool :=
  fs.foldl (fun v f => match f with | .pred d w => if d % 8 = n % 8 then w else v | _ => v) old

/-- What flag `g` holds after the effects. -/
def fAfter (fs : List Effect) (g : Fin 3) (old : Bool) : Bool :=
  fs.foldl (fun v f => match f with
    | .flag k => v || k == g
    | .clear m => v && m / 2 ^ g.val % 2 == 0
    | .mac _ _ _ _ => v
    | _ => v) old

/-- R115: a supervisor instruction's result is in place at once: registers (but for w0, and an index that a loop writes
then), predicates and flags hold it, the counter moves on, at the end of a loop's body back (R101), and memory, requests and other
engines stay. -/
def applied (s t : State) (e : Nat) (fs : List Effect) : Prop :=
  (∀ r, r % 64 ≠ 0 → (∀ l ∈ (engine s e).loops, l.idx % 64 ≠ r % 64) →
      wGet (engine t e) r = wAfter fs r (wGet (engine s e) r))
    ∧ (∀ n, n % 8 ≠ 0 → pGet (engine t e) n = pAfter fs n (pGet (engine s e) n))
    ∧ (engine t e).fV = fAfter fs 0 (engine s e).fV ∧ (engine t e).fS = fAfter fs 1 (engine s e).fS
    ∧ (engine t e).fD = fAfter fs 2 (engine s e).fD
    ∧ (∀ j, j ≠ e → engine t j = engine s j) ∧ t.mem = s.mem ∧ t.reqs = s.reqs
    ∧ (supOf t e).pc = word (advanceSup (engine s e).loops ((supOf s e).pc + 1).toNat).1

/-- An instruction whose result is a function of its engine's state at release alone: for a plant engine it is in flight,
for a supervisor engine in place, and `P` says what it is. -/
def computes (s : State) (e : Fin 1028) (i : Instr) (delta : Nat) (neg : Bool) (pred : BitVec 3) (u : UnitKind)
    (cls dur : Nat) (P : Engine → List Effect → Prop) : Prop :=
  (s.wf → condHolds (engine s e) neg pred = true → plantReady s e i delta u →
      ∃ t fs, exec i s = .next t ∧ P (engine s e) fs ∧ issued s t e delta cls dur fs)
    ∧ (∀ s1, supReady s e i s1 → s1.wf → condHolds (engine s1 e) neg pred = true →
      ∃ t fs, exec i s = .next t ∧ P (engine s1 e) fs ∧ applied s1 t e fs)

/-- The same for a plant engine alone. -/
def computesPlant (s : State) (e : Fin 1028) (i : Instr) (delta : Nat) (neg : Bool) (pred : BitVec 3) (u : UnitKind)
    (cls dur : Nat) (P : Engine → List Effect → Prop) : Prop :=
  s.wf → condHolds (engine s e) neg pred = true → plantReady s e i delta u →
    ∃ t fs, exec i s = .next t ∧ P (engine s e) fs ∧ issued s t e delta cls dur fs

/-- R45, R89: engine `y` is engine `x` after a multiply-accumulate of `prod`: the sum, or the nearer bound with S set. -/
def accumulates (x y : Engine) (one zero neg : Bool) (prod : Int) : Prop :=
  let v : Int := (if zero then 0 else (accOf x one).toInt) + (if neg then -prod else prod)
  (accOf y one).toInt = max (-2 ^ 79) (min (2 ^ 79 - 1) v)
    ∧ y.fS = (x.fS || decide (v < -2 ^ 79) || decide (2 ^ 79 - 1 < v))
    ∧ accOf y (!one) = accOf x (!one) ∧ y.fV = x.fV ∧ y.fD = x.fD ∧ y.p = x.p

/-- R92: engine `y` is engine `x` with one part of an accumulator written from `v`: bits [35:0], [71:36], or [79:72] from
v[7:0]; every other bit is kept. -/
def writesPart (x y : Engine) (one : Bool) (part : Nat) (v : Word) : Prop :=
  (∀ k < 80, (accOf y one).getLsbD k = if k / 36 = part then v.getLsbD (k % 36) else (accOf x one).getLsbD k)
    ∧ accOf y (!one) = accOf x (!one) ∧ y.fV = x.fV ∧ y.fS = x.fS ∧ y.fD = x.fD ∧ y.p = x.p

/-- A register result and the flag its computation sets under a condition. -/
def setsIf (d : BitVec 6) (v : Word) (k : Fin 3) (c : Bool) : List Effect := .reg d.toNat v :: (if c then [.flag k] else [])

/-- The nearer of the two saturation limits, or the value itself (R40, R41). -/
def clamp (v : Int) : Int := max (-2 ^ 35) (min (2 ^ 35 - 1) v)

/-- Whether a value lies outside the saturation limits. -/
def outside (v : Int) : Bool := v < -2 ^ 35 || 2 ^ 35 - 1 < v

/-- The release of an instruction as its word gives it: its engine, the release delta (1 for the two waits), predicate sense and
number, and the unit it needs (R66, R106, R107, R133); none for a command that is no instruction. -/
def instrForm (i : Instr) : Option (Fin 1028 × Nat × Bool × BitVec 3 × UnitKind) :=
  match i with
  | .nop e f | .lock e f | .unlock e f | .done e f | .tstamp e f | .add e f | .adds e f | .sub e f | .subs e f
  | .and e f | .or e f | .xor e f | .andn e f | .neg e f | .negs e f | .abs e f | .abss e f | .min e f
  | .max e f | .sel e f | .cls e f | .shl e f | .shls e f | .shr e f | .sar e f | .rot e f | .ext e f
  | .ins e f | .cvt e f | .cmp e f | .plog e f | .pmov e f | .rdf e f | .clrf e f | .mul e f | .muls e f
  | .mulh e f | .pmul e f | .tmul e f | .mac e f | .acx e f | .acm e f | .popc e f | .tmark e f | .lim e f
  | .srr e f | .jmp e f | .call e f | .eret e f | .trap e f | .mfsr e f | .mtsr e f | .tlbi e f | .fence e f
  | .cas e f | .idle e f | .beat e f | .swc e f | .swr e f =>
    some (e, f.delta.toNat, f.neg, f.pred, .none)
  | .waitt e f | .waitev e f =>
    some (e, 1, f.neg, f.pred, .none)
  | .loop e f | .ldi e f | .shi e f | .addi e f =>
    some (e, f.delta.toNat, f.neg, f.pred, .none)
  | .div e f | .rem e f | .pdiv e f =>
    some (e, f.delta.toNat, f.neg, f.pred, .divider)
  | .sincos e f | .vrot e f | .atan2 e f | .mag e f | .sqrt e f =>
    some (e, f.delta.toNat, f.neg, f.pred, .cordic)
  | .ld e f | .st e f =>
    some (e, f.delta.toNat, f.neg, f.pred, .none)
  | .lds e f | .sts e f | .evs e f =>
    some (e, f.delta.toNat, f.neg, f.pred, .shared)
  | .ldl e f | .stl e f =>
    some (e, f.delta.toNat, f.neg, f.pred, .none)
  | _ => none

/-- R126: WAITT and WAITEV, after which the next instruction counts from the end of the wait. -/
def isWait (i : Instr) : Bool :=
  match i with
  | .waitt _ _ | .waitev _ _ => true
  | _ => false

/-- A release that changes nothing but the engine's own timing state: its registers, flags and queue stay, its position moves to the
next plan word (R101 to R103), its next release counts from tick `r`, and beside results in flight before there are at most those
that `mine` allows and the index a loop writes. -/
def quietlyWith (mine : Landing → Prop) (s t : State) (e delta r : Nat) : Prop :=
  archKept (engine s e) (engine t e) ∧ releaseFrame s t e delta
    ∧ (engine t e).pos = (advance (engine s e).loops ((engine s e).pos + 1)).1
    ∧ (engine t e).prev = r ∧ (engine t e).rest = (engine s e).rest
    ∧ (∀ l ∈ (engine s e).fly, l ∈ (engine t e).fly)
    ∧ (∀ l ∈ (engine t e).fly, l ∈ (engine s e).fly ∨ mine l
      ∨ (l.land = s.now + 1 ∧ l.effs = (advance (engine s e).loops ((engine s e).pos + 1)).2.2))

/-- The release of an instruction that does nothing and completes nothing (R68). -/
def quietly (s t : State) (e delta r : Nat) : Prop := quietlyWith (fun _ => False) s t e delta r

/-- The release of an operation without effect: it completes 1 tick later, where its slack is measured (R132, R158). -/
def completes (s t : State) (e delta r : Nat) : Prop :=
  quietlyWith (fun l => l.land = s.now + 1 ∧ l.effs = [] ∧ l.word = (engine s e).pos) s t e delta r
    ∧ ∃ l ∈ (engine t e).fly, l.land = s.now + 1 ∧ l.effs = [] ∧ l.word = (engine s e).pos

/-- `n` instructions released one after another from a plan position with its loop stack: where the position stands. -/
def positions : Nat → List LoopEnt → Nat → Nat × List LoopEnt
  | 0, ls, p => (p, ls)
  | n + 1, ls, p => positions n (advance ls (p + 1)).2.1 (advance ls (p + 1)).1

/-- R97, R134, R211: a local access issued now lands 2 ticks later, and where its engine leads a joined pair it is a transaction
for the comparator. -/
def issuesLocal (s t : State) (e : Nat) (eff : Effect) (fields : List Word) : Prop :=
  (∃ l ∈ (engine t e).fly, l.land = s.now + 2 ∧ l.cls = 3 ∧ l.word = (engine s e).pos ∧ l.effs = [eff])
    ∧ archKept (engine s e) (engine t e) ∧ (∀ j, j ≠ e → engine t j = engine s j) ∧ restKept s t
    ∧ (leadsJoined s e = false → trailsJoined s e = false → t.pairs = s.pairs)
    ∧ (leadsJoined s e = true →
      (pairOf t (e / 2)).lead = (pairOf s (e / 2)).lead ++ [⟨s.now, 0, fields, (engine s e).pos⟩])

/-- R98, R99, R136: a shared access issued now is a request that reaches its point 2 ticks and one more a hop later; that of the
trailing engine of a joined pair goes no further than the comparator (R215). -/
def requests (s t : State) (e : Nat) (a : Word) (op : ReqOp) : Prop :=
  archKept (engine s e) (engine t e) ∧ (∀ j, j ≠ e → engine t j = engine s j) ∧ t.mem = s.mem ∧ t.sup = s.sup
    ∧ (trailsJoined s e = false → ∃ r, t.reqs = s.reqs ++ [r] ∧ r.master = e ∧ r.secure = false ∧ r.addr = a ∧ r.op = op
      ∧ r.rel = s.now ∧ r.acc = s.now + 2 + hopsTo e a ∧ r.word = (engine s e).pos)
    ∧ (trailsJoined s e = true → t.reqs = s.reqs)

/-- Memory reads as before outside one address, where it reads `v`. -/
def memAfter (s t : State) (a : Nat) (v : Word) : Prop := memGet t a = v ∧ ∀ b, b ≠ a → memGet t b = memGet s b

/-- A SYS function of supervisor engine `e` outside any loop leaves the engine's supervisor registers at `x`, memory, private memory
and every other engine as they were, and its own registers, accumulators, predicates and flags too. -/
def sysLeaves (u t : State) (e : Nat) (x : Sup) : Prop :=
  supOf t e = x ∧ (∀ j, j ≠ e → supOf t j = supOf u j ∧ engine t j = engine u j)
    ∧ archKept (engine u e) (engine t e) ∧ t.mem = u.mem ∧ t.priv = u.priv ∧ t.reqs = u.reqs

/-- R115, R503: a supervisor engine enters its exception handler: cause, level, record number and virtual address are saved,
with the address of the instruction and the world it was in; the world stays. -/
def inHandler (x : Sup) (cause level seq : Nat) (va epc : Word) : Sup :=
  { x with cause := word (cause + level % 4 * 2 ^ 8 + seq % 4096 * 2 ^ 10), excVa := va, excPc := epc,
           excSecure := x.secure, pc := Config.excHandler }

/-! The checkpoint. -/

/-- The pair link reads word `a` as `v` without an error, and only takes its point (R31, R385, R492). -/
def linkReads (s : State) (a : Nat) (v : Word) : Prop :=
  gatedRead masterLink true none false (word a) s = (some v, touch (word a).toNat s)

/-- R385: what the stream sends for a frozen word: the value its capture buffer keeps, or the word itself. -/
def streamWord (s : State) (a : Nat) : Word :=
  match s.link.kept.find? (·.1 == a) with
  | some k => k.2
  | none => ((gatedRead masterLink true none false (word a) s).1).getD 0

/-- R387: the run records of a payload. -/
def runRecords (s : State) (runs : List (Nat × Nat)) : List Word :=
  runs.flatMap fun r => word (2 ^ 32 + r.2) :: word r.1 :: (List.range r.2).map fun i => streamWord s (r.1 + i)

/-! Host requests. -/

/-- R559, R560: a request that an open session sends now is taken at once: none of its session waits, and it comes in the order of the
tick's requests. -/
def atOnce (s : State) (q : Rq) (x : HostSess) : Prop :=
  hostSess s q.sess = some x ∧ outstanding s q.sess = 0 ∧ inTurn x s = true

/-- R553, R554, R559, R560, R563: a request of an open session is served at once: the module is not in delivery state, no exclusive command
is in progress where this one is exclusive, and a role of the session permits it. -/
def mayServe (s : State) (q : Rq) (roles : List Role) (excl : Bool) : Prop :=
  ∃ x, atOnce s q x ∧ delivery s = false ∧ (excl = true → exclBusy s = false) ∧ (roles = [] ∨ ∃ r ∈ x.roles, r ∈ roles)

/-- R557: one response to the request leaves the module. -/
def answered (s t : State) (q : Rq) (code status : Nat) (ws : List Word) : Prop :=
  t.out = s.out ++ [.response q.sess q.tag code status ws]

/-- Only the bookkeeping of sessions and what has left the module differ (R555, R559, R560). -/
def onlyAnswers (s t : State) : Prop := t = { s with sess := t.sess, net := t.net, out := t.out }

/-- The same for a request that accesses words, which also takes the points of those it reads (R31). -/
def onlyServes (s t : State) : Prop :=
  t = { s with sess := t.sess, net := t.net, out := t.out, served := t.served, owed := t.owed, tk := t.tk }

/-- R31: the points of `n` words from `a` are free for unit `sub` of master `m` in this tick. -/
def pointsFree (s : State) (m sub a n : Nat) : Prop := ∀ i < n, blockedAt s m sub (a + i) = false

/-- R31: a request whose words are not all free waits, unanswered and without effect. -/
def waits (s t : State) (q : Rq) (r : MemReq) : Prop :=
  t.out = s.out ∧ t.hostQ = s.hostQ ++ [serving q (.held r)] ∧ t.mem = s.mem ∧ t.regs = s.regs ∧ t.eng = s.eng ∧ t.viol = s.viol

/-- R31: the accesses that led from `s` to `t` have taken their points and changed nothing else. -/
def onlyTouches (s t : State) : Prop := t = { s with served := t.served, tk := t.tk }

/-- R578: the payload of a debug response: the debug status and, for status 1, the SEQ of the violation record, then the words. -/
def debugWords (st seq : Nat) (ws : List Word) : List Word := word (seq % 4096 * 2 ^ 24 + st) :: ws

/-! Events. -/

/-- R108, R109: an event of hardware source `src` reaches the engine it is bound to: the queue takes it while it has room, with the
tick and the clock, and otherwise it is discarded and counted; an unbound source's event changes no engine. -/
def delivers (src payload : Nat) (s t : State) : Prop :=
  match s.bindings.find? (·.1 == src) with
  | none => t.eng = s.eng
  | some b => (∀ j, j ≠ b.2 → engine t j = engine s j)
    ∧ ((engine s b.2).evq.length < 16 → (engine t b.2).evq = (engine s b.2).evq
        ++ [⟨word (src * 2 ^ 20 + payload % 2 ^ 20), s.now, s.time.sec, s.time.ns64⟩])
    ∧ (16 ≤ (engine s b.2).evq.length → (engine t b.2).evq = (engine s b.2).evq
        ∧ (engine t b.2).discards = (engine s b.2).discards + 1 ∧ reg t midLastF = word 0x182)

/-- R325: an event whose instant lies in this tick, at a place the spec does not show, arrives `delay`, in 1/64 ns, after it: in this tick,
or it is on its way. -/
def deliversLater (delay src payload : Nat) (s t : State) : Prop :=
  ∃ f < 256, if (delay + f) / 256 = 0 then delivers src payload s t ∧ t.arrivals = s.arrivals
    else t.eng = s.eng ∧ t.arrivals = s.arrivals ++ [(s.now + (delay + f) / 256, src, payload)]

/-! Trips and starts. -/

/-- R25, R27, R581: a trip of `code` is taken: the permit falls, the mandate with it, and the Nightwatch's registers show the code,
the count and the time. -/
def trips (code : Nat) (s t : State) : Prop :=
  (∃ x, t.nwt.trip = some x ∧ x.code = code ∧ x.tick = s.now ∧ x.sec = s.time.sec)
    ∧ t.nwt.permit = false ∧ t.nwt.sundown = 0 ∧ t.nwt.inReset = false
    ∧ t.link.latch = false ∧ t.link.estab = false ∧ t.link.claimDay = none ∧ holds t = false
    ∧ getF t nwtStatus 35 24 = code ∧ getF t nwtStatus 23 16 = min (getF s nwtStatus 23 16 + 1) 255
    ∧ reg t nwtTripT = word s.time.ns64 ∧ reg t (nwtTripT + 2) = word (s.time.sec % 2 ^ 36) ∧ reg t midLastF = word code
    ∧ regsKept [nwtStatus, nwtTripT, nwtTripT + 1, nwtTripT + 2, midLastF] s t
    ∧ t.mem = s.mem ∧ t.eng = s.eng ∧ t.mst = s.mst ∧ t.logQ = s.logQ

/-- R474: a start attempt fails with `code`: UPD_BOOT keeps it, 0xA11 is raised, and the next attempt waits 1 s, 2 s, 4 s, 8 s, 16 s,
32 s and then 60 s. -/
def startFails (code : Nat) (s t : State) : Prop :=
  getF t updBoot 35 24 = code ∧ reg t midLastF = word 0xA11 ∧ t.boot.attempts = s.boot.attempts + 1
    ∧ t.boot.waitEnd = some (s.now + 250000000 * if s.boot.attempts < 6 then 2 ^ s.boot.attempts else 60)
    ∧ t.link.latch = false ∧ t.day.run = false ∧ t.mst = s.mst ∧ t.boot.slots = s.boot.slots

/-- R31, R273: the end of a descriptor whose words begin at `a` waits: an end of the port waits already, or word 2 or 0 is held at its
point. -/
def endWaits (s : State) (p a : Nat) : Bool :=
  s.ends.any (·.port == p) || blockedAt s masterPort p (a + 2) || blockedAt s masterPort p a

/-! Time. -/

/-- Nothing but the clocks matures in the next tick: no request, event, update that an access put off, entry of a breach, copy of registers
to a joining engine, post, deposit or end of a port, word that an operation still owes, result, and no growth of a holdover's bound. -/
def quietTick (s : State) : Prop :=
  s.hostQ = [] ∧ s.tk.hw = [] ∧ s.arrivals = [] ∧ s.ends = [] ∧ s.owed = [] ∧ s.time.holdAt = none ∧ s.boot.phasors = []
    ∧ (s.day.broken = false ∨ s.day.brokenAt ≠ s.now + 1) ∧ (∀ p ∈ s.ports, (portOf s p.1).posts = [] ∧ (portOf s p.1).awaiting = [])
    ∧ ∀ p ∈ s.pairs, (pairOf s p.1).joined = false ∨ (pairOf s p.1).armed = true

/-- R305, R317, R318, R320: the source in force stays while it may be used; otherwise the first usable one of the order is selected, with the
mark of 0x504 where one was selected before or HOLD held, and with none the state is HOLD. -/
def selects (s t : State) : Prop :=
  (timeSrc s ≠ 0 → srcMay t (timeSrc s) = true → timeSrc t = timeSrc s)
    ∧ (timeSrc s = 0 ∨ srcMay t (timeSrc s) = false →
      (∀ h, firstSrc t = some h → timeSrc t = h ∧ (timeSrc s ≠ 0 ∨ 7 ≤ timeCode s → bitOf t timStatus 4 = true))
      ∧ (firstSrc t = none → timeSrc t = 0 ∧ (timeSrc s ≠ 0 → timeCode t = 7 ∧ bitOf t timStatus 5 = true)))

/-- Only the time unit and its registers differ, and what faults and free values write. -/
def timeOnly (s t : State) : Prop :=
  t = { s with regs := t.regs, tk := t.tk, time := t.time, fresh := t.fresh, lastFSec := t.lastFSec, logQ := t.logQ, telem := t.telem }
    ∧ ∀ a, a < 0x04050000 ∨ 0x04060000 ≤ a → a ≠ midLastF → a ≠ midLog → reg t a = reg s a

end Sys2Proof.Machine
end

