-- ==== Sys2Proof/Certificates/Slice0/Obligations.lean ====
section
/-! DEFINITION. The statements for the provers. -/

open Sys2Proof Sys2Proof.Machine

/-- A step of a state with a command at the front of its queue is that command's exec on the state with the queue's rest; on
an empty queue the module idles. The queue is the model's own (log entry 1). -/
def Obligations.StepRunsTheFrontCommand : Prop :=
  ∀ (s : State), (∀ (c : Instr) (rest : List Instr), s.pending = c :: rest → step s = exec c { s with pending := rest })
    ∧ (s.pending = [] → step s = .next s)

/-- After reset the module is in DAYBREAK without the mandate, no plan runs and no day sequencer, every table of engines,
ports and pairs is at its default, the drive permit is off and nothing waits. Registers that have a Reset column read it:
MID_STATE shows DAYBREAK, the speed and slack thresholds stand at their defaults. Memory reads zero, which is the model's
choice (log entry 2). The reset state is well-formed and bounded: the two invariants that every step keeps hold at the
start. -/
def Obligations.ResetState : Prop :=
  (State.reset.mst = .daybreak ∧ State.reset.pending = [] ∧ State.reset.day.run = false ∧ State.reset.link.latch = false
    ∧ holds State.reset = false ∧ State.reset.nwt.permit = false ∧ State.reset.sess = [] ∧ State.reset.reqs = []
    ∧ (∀ e, engine State.reset e = {}) ∧ (∀ p, portOf State.reset p = {}) ∧ (∀ a, memGet State.reset a = 0)
    ∧ slice (viewReg State.reset 1024 midState).toNat 2 0 = 1
    ∧ getF State.reset fabSlkTh 7 0 = 4 ∧ getF State.reset fabSlkTh 15 8 = 2 ∧ getF State.reset fabSpdTh 11 0 = 960
    ∧ getF State.reset fabSpdTh 23 12 = 1000 ∧ reg State.reset timRate = 0 ∧ reg State.reset fabStatus = 0)
  ∧ (State.reset.wf ∧ State.reset.bounded)

/-- From every state whose tables have their keys in rising order, whose memory lists no word at zero and whose shadow
region table names region words alone, any command that answers a next state leaves one with the same form. -/
def Obligations.EveryStepKeepsTheCanonicalForm : Prop :=
  ∀ (s t : State), s.wf → step s = .next t → t.wf

/-- From every well-formed state whose queues are within their bounds, every step leaves one whose queues are: 16 late,
overrun and mismatch records, 32 violation records, 8 repairs, 256 log entries, trace intake and memory, 16 events and 4
loops an engine, and 64 entries in a pair input buffer. -/
def Obligations.EveryStepKeepsItsQueuesBounded : Prop :=
  ∀ (s t : State), s.wf → s.bounded → step s = .next t → t.bounded

/-- Whatever the command, a state that follows is the same or one that R21 lets it reach; BENCH leads to DAYBREAK and
STOPPED alone, STOPPED to DAYBREAK alone. A module in BENCH or STOPPED whose claim latch is clear has it clear afterwards. -/
def Obligations.OnlyListedTransitionsHappen : Prop :=
  ∀ (i : Instr) (s t : State), exec i s = .next t →
    transitionAllowed s.mst t.mst = true
      ∧ ((s.mst = .bench ∨ s.mst = .stopped) → s.link.latch = false → t.link.latch = false)

/-- Whatever an engine releases, plant or supervisor, the module state, the claim latch and loop readings, the Nightwatch's
permit, the key vault, the debug grant, host sessions and flash slots are as before. -/
def Obligations.NoInstructionReachesMandateOrVault : Prop :=
  ∀ (i : Instr) (s t : State) (e : Fin 1028) (delta : Nat) (neg : Bool) (pred : BitVec 3) (u : UnitKind),
    instrForm i = some (e, delta, neg, pred, u) → exec i s = .next t →
      t.mst = s.mst ∧ t.link.latch = s.link.latch ∧ t.link.own = s.link.own ∧ t.link.part = s.link.part
        ∧ t.nwt.permit = s.nwt.permit ∧ t.vault = s.vault ∧ t.grant = s.grant ∧ t.sess = s.sess
        ∧ t.boot.slots = s.boot.slots ∧ t.pending = s.pending

/-- Every command answers a next state in every state, but for two: a reserved encoding released by a supervisor engine and
a feed event beyond the withstand, which end in the faults of those names. No command is refused as not modelled. LOOP, the
pair's inputs, comparisons and self-tests, the image capture, the speed measurement, the commands of the signal chains, of
the claim and of the time inputs each complete with their own effect under conditions on the state and the operands alone,
in short; the whole of each effect is said by the statement of its family. -/
def Obligations.OnlyNamedConditionsStop : Prop :=
  (∀ (i : Instr) (s : State), (∃ t, exec i s = .next t)
    ∨ (∃ e : Fin 1028, 1024 ≤ e.val ∧ wellFormed i = false ∧ exec i s = .fault (.reservedOnSupervisor e.val))
    ∨ (∃ (k : Fin 2) (v : Int), ((i = .feedOvervoltage k v ∧ 80000 < v) ∨ ((i = .feedReverse k v ∨ i = .feedDrop k v) ∧ v < -60000))
      ∧ exec i s = .fault (.feedBeyondWithstand (k.val + 1))))
  ∧ (∀ s : State, s.wf →
    (∀ (e : Fin 1028) (g : ImmForm), plantReady s e (.loop e g) g.delta.toNat .none → (engine s e).loops.length < 4 →
      ∃ t, exec (.loop e g) s = .next t ∧ (engine t e).loops.length = (engine s e).loops.length + 1)
    ∧ (∀ (k : Fin 512) (b : BufEnt) (bs : List BufEnt), (pairOf s k).buf = b :: bs → b.tick + (pairOf s k).d ≤ s.now →
      ∃ t, exec (.pairInputReplay k false) s = .next t ∧ (pairOf t k).buf = bs)
    ∧ (∀ (k : Fin 512) (a b : Tx) (ls ts : List Tx), (pairOf s k).armed = true → (pairOf s k).lead = a :: ls →
      (pairOf s k).trail = b :: ts → a.kind < 5 → b.kind = a.kind → b.fields = a.fields →
      b.tick = a.tick + (pairOf s k).d → b.tick < s.now →
      ∃ t, exec (.comparatorCheck k) s = .next t ∧ (pairOf t k).lead = ls ∧ (pairOf t k).trail = ts ∧ t.mism = s.mism)
    ∧ (∀ (k : Fin 512) (x y : Word), restsNow (engine s (2 * k.val)) = true → restsNow (engine s (2 * k.val + 1)) = true →
      ∃ t, exec (.comparatorSelfTest k false x y) s = .next t ∧ bitOf t cmpStatus 2 = true)
    ∧ (∀ (c : Fin 64), (∀ i < 16, restsNow (engine s (16 * c.val + i)) = true) →
      ∃ t, exec (.detectorSelfTest c false) s = .next t ∧ bitOf t fabStatus 7 = true)
    ∧ (∀ (k : Fin 512), (pairOf s k).joined = true → (pairOf s k).armed = false → dayTick s = 71 →
      ∃ t, exec (.comparatorArm k) s = .next t ∧ (pairOf t k).armed = true)
    ∧ (∀ (e : Fin 1024), s.mst = .active → trailsJoined s e = false → (engine s e).ran = true → (engine s e).rest = .done →
      (engine s e).fly = [] → ∃ t, exec (.engineImageCapture e) s = .next t ∧ tabGet [] t.link.images e = engineImage s e)
    ∧ (∀ (c : Fin 64) (i : BitVec 12) (j : BitVec 9), ∃ t, exec (.speedMeasurement c (some i) (some j)) s = .next t
      ∧ getF t (fabSpeed c) 20 12 = j.toNat)
    ∧ (∀ p : BitVec 8, ∃ t, exec (.feedptrWrite p) s = .next t ∧ getF t sigFeedPtr 7 0 = p.toNat)
    ∧ (∀ a e f ws u v, feedReady s = true → freeFor masterSig (headPipe s) s (processFeed (untouched s)) = true →
      a = getF s sigFeedBase 31 0 + 2 * feedGet s → isShared a = true → gate s masterSig false .write (word a) = none →
      fetchFeed (untouched s) = (some (e, f), u) → onlyTouches s u → feedReason s f = none →
      mReads masterSig (e + 6) (2 * f.len) u = (some ws, v) → onlyTouches s v → (∀ i < f.cnt, chActive s (f.first + i) = false) →
      ∃ t, exec .feedProcess s = .next t ∧ feedGet t = (feedGet s + 1) % feedSize s % 256)
    ∧ (∀ c : Fin 2048, chActive s c = false → s.mst ≠ .standby → contextOk s c = true → loadOk s c = true →
      ∃ t, exec (.channelGo c) s = .next t ∧ getF t (sigCh c 0) 35 34 = 1)
    ∧ (∀ c : Fin 2048, chActive s c = true → ∃ t, exec (.channelStop c) s = .next t ∧ getF t (sigCh c 0) 35 34 = 0)
    ∧ (∃ t, exec .syncArmNextPps s = .next t ∧ getF t sigSync 1 0 = 1)
    ∧ (s.day.run = true → s.day.n < syncDayFull s → ∃ t, exec .syncArmMidnight s = .next t ∧ getF t sigSync 1 0 = 2)
    ∧ (syncArm s = 1 → s.sig.armAt + 1000000000 ≤ s.now → bitOf s timState 6 = false →
      ∃ t, exec .syncArmFail s = .next t ∧ bitOf t sigSync 2 = true)
    ∧ (∀ (p : Bool) (x : BitVec 9), ∃ t, exec (.mandateLoopStateChange p x) s = .next t
      ∧ (if p then t.link.part else t.link.own) = loopBand x.toNat)
    ∧ (∀ (p b : Bool), ∃ t, exec (.presenceChange p b) s = .next t ∧ (if p then t.link.partner else t.link.inserted) = b)
    ∧ (claims s = true → dayTick s + 2500 = dayT s → ∃ t, exec .claimLatchSet s = .next t ∧ t.link.latch = true)
    ∧ (∀ n, s.link.yielded = some n → n + 1250 ≤ s.now → mayClaim s = true → partnerClear s.link = true →
      ∃ t, exec .yieldRecheck s = .next t ∧ t.link.latch = true)
    ∧ (s.day.run = true → dayTick s + 1 = dayT s → s.link.claimDay = some (s.day.n + 1) → s.link.confirmed = false →
      s.link.latch = true → mayClaim s = true → partnerClear s.link = true →
      ∃ t, exec .claimConfirmation s = .next t ∧ t.link.estab = true)
    ∧ (60 ≤ s.link.ownI.toNat → ∃ t, exec (.loopError true) s = .next t ∧ bitOf t pairStatus 7 = true)
    ∧ (s.mst = .standby → s.link.part = .unknown → partnerGone s = false → s.link.unknownAt + 250000000 ≤ s.now + 1 →
      ∃ t, exec .partnerLoopUnknownRepeat s = .next t ∧ bitOf t pairStatus 8 = true)
    ∧ (∃ t, exec .ppsEdge s = .next t ∧ t.time.ppsAt = some (s.time.sec, s.time.ns64))
    ∧ (∀ p, s.time.ppsAt = some p → 64000000000 + 64000 < clockDiff (s.time.sec, s.time.ns64) p →
      ∃ t, exec .ppsEdgeMissing s = .next t ∧ t.time.ppsAt = none)
    ∧ (∀ ws : List Nat, ∃ t, exec (.irigFrame ws) s = .next t ∧ t.time.irigAt = some (s.time.sec, s.time.ns64))
    ∧ (∃ t, exec .irigSignalLoss s = .next t ∧ t.time.irigCnt = 0)
    ∧ (∀ a, s.time.inBand = some a → timeCode s = 1 → 1 ≤ timeSrc s → timeSrc s ≤ 5 → a + 15000000000 ≤ s.now →
      ∃ t, exec .lockAcquired s = .next t ∧ timeCode t = timeSrc s + 1)
    ∧ (∀ h, (higherSrcs s (timeSrc s)).find? (revertDue s) = some h → disagrees s = false → s.time.ns64 < lastAdvance s →
      ∃ t, exec .sourceRevert s = .next t ∧ timeSrc t = h)
    ∧ (s.time.ns64 < lastAdvance s → bitOf s timPpsO 9 = true →
      exec .ppsOutputEdge s = .next (emit (.pps (getF s timPpsO 8 0)) s)))

/-- The rounding that PMUL, TMUL, ACX, CVT and SRR share: the result is at most half a unit from the exact quotient, and at
half a unit it is even; with floor it is the greatest integer not above the quotient. -/
def Obligations.RoundingIsHalfToEven : Prop :=
  ∀ (v : Int) (n : Nat),
    (2 * (v - roundShift false v n * 2 ^ n) ≤ 2 ^ n ∧ -(2 ^ n : Int) ≤ 2 * (v - roundShift false v n * 2 ^ n))
    ∧ (0 < n → (2 * (v - roundShift false v n * 2 ^ n) = 2 ^ n ∨ 2 * (v - roundShift false v n * 2 ^ n) = -(2 ^ n : Int)) →
      roundShift false v n % 2 = 0)
    ∧ (roundShift true v n * 2 ^ n ≤ v ∧ v < (roundShift true v n + 1) * 2 ^ n)

/-- A CLRF in flight clears V, S and D at its landing as its modifier bits 0, 1 and 2 say, but for a flag set in the same
tick, and leaves registers and predicates. A supervisor engine's clears them at once. A modifier with bit 3 set is a
reserved encoding. -/
def Obligations.ClrfClearsTheNamedFlags : Prop :=
  (∀ (e : Fin 1028) (f : RegForm) (s : State),
    computes s e (.clrf e f) f.delta.toNat f.neg f.pred .none 0 1 (fun _ fs => fs = [.clear f.m.toNat]))
  ∧ (∀ (m : BitVec 4) (land : Nat) (x : Engine), x.setV ≠ land + 1 → x.setS ≠ land + 1 → x.setD ≠ land + 1 →
    (clearFlags m.toNat land x).fV = (x.fV && !m.getLsbD 0) ∧ (clearFlags m.toNat land x).fS = (x.fS && !m.getLsbD 1)
      ∧ (clearFlags m.toNat land x).fD = (x.fD && !m.getLsbD 2) ∧ (clearFlags m.toNat land x).w = x.w
      ∧ (clearFlags m.toNat land x).p = x.p)
  ∧ ∀ (e : Fin 1028) (f : RegForm), f.m.getLsbD 3 = true → wellFormed (.clrf e f) = false

/-- NOP, and UNLOCK without an open bracket, only take their release tick and complete 1 tick later. LOCK opens a bracket
that counts it as its first instruction; UNLOCK closes an open one. DONE rests the engine with an empty loop stack, its
registers, accumulators, predicates, flags and event queue unchanged. TMARK of a traced engine puts a record of type 0 with
the modifier as kind, wa as value and its plan word into the trace intake; of an engine that is not traced, none. Registers,
predicates, flags and memory stay. A supervisor engine's has no effect beyond its counter. -/
def Obligations.BracketsDoneAndMarkers : Prop :=
  (∀ (e : Fin 1028) (f : RegForm) (s : State), s.wf → condHolds (engine s e) f.neg f.pred = true →
    (plantReady s e (.nop e f) f.delta.toNat .none → ∃ t, exec (.nop e f) s = .next t ∧ completes s t e f.delta.toNat ((engine s e).prev + f.delta.toNat))
    ∧ (plantReady s e (.lock e f) f.delta.toNat .none → (engine s e).lockOpen = false →
      ∃ t, exec (.lock e f) s = .next t ∧ archKept (engine s e) (engine t e) ∧ (engine t e).lockOpen = true
        ∧ (engine t e).lockCnt = 1 ∧ (∀ j, j ≠ e.val → engine t j = engine s j) ∧ restKept s t)
    ∧ (plantReady s e (.unlock e f) f.delta.toNat .none → (engine s e).lockOpen = true →
      ∃ t, exec (.unlock e f) s = .next t ∧ archKept (engine s e) (engine t e) ∧ (engine t e).lockOpen = false
        ∧ (∀ j, j ≠ e.val → engine t j = engine s j) ∧ restKept s t)
    ∧ (plantReady s e (.unlock e f) f.delta.toNat .none → (engine s e).lockOpen = false →
      ∃ t, exec (.unlock e f) s = .next t ∧ completes s t e f.delta.toNat ((engine s e).prev + f.delta.toNat))
    ∧ (plantReady s e (.done e f) f.delta.toNat .none →
      ∃ t, exec (.done e f) s = .next t ∧ archKept (engine s e) (engine t e) ∧ (engine t e).rest = .done
        ∧ (engine t e).loops = [] ∧ (∀ j, j ≠ e.val → engine t j = engine s j) ∧ restKept s t))
  ∧ (∀ (e : Fin 1028) (f : RegForm) (s : State),
    (s.wf → condHolds (engine s e) f.neg f.pred = true → plantReady s e (.tmark e f) f.delta.toNat .none → punctual s e f.delta.toNat →
      ∃ t, exec (.tmark e f) s = .next t ∧ archKept (engine s e) (engine t e) ∧ restKept s t
        ∧ (∀ j, j ≠ e.val → engine t j = engine s j)
        ∧ (traced s e = true → s.trace.intake.length < 1024 → t.trace.intake = s.trace.intake
          ++ [traceWords s 0 f.m.toNat e.val (opA (engine s e) f).toNat (engine s e).pos])
        ∧ (traced s e = false → t.trace = s.trace))
    ∧ (∀ u, supReady s e (.tmark e f) u → u.wf → condHolds (engine u e) f.neg f.pred = true → (engine u e).loops = [] →
      (engine u e).lockOpen = false → ∃ t, exec (.tmark e f) s = .next t
        ∧ sysLeaves u t e { supOf u e with pc := (supOf u e).pc + 1 } ∧ t.trace = u.trace))

/-- Raising a fault writes MID_LASTF and its second. A pending entry with the same code, detail and second counts the
repeat, to 4,095; otherwise an entry of 256 at most joins the queue, and at a full queue the raise is counted lost. Nothing
else changes. -/
def Obligations.RaisesAreLoggedAndFolded : Prop :=
  ∀ (code detail : Nat) (s : State), s.wf →
    reg (raise code detail s) midLastF = word code ∧ (raise code detail s).lastFSec = s.time.sec
      ∧ regsKept [midLastF, midLog] s (raise code detail s) ∧ raise code detail s = logged s (raise code detail s)
      ∧ (∀ l, l ∈ s.logQ → l.code = code → l.detail = detail → l.sec = s.time.sec →
        (raise code detail s).logQ.length = s.logQ.length
          ∧ { l with rep := Nat.min (l.rep + 1) 4095 } ∈ (raise code detail s).logQ)
      ∧ ((∀ l ∈ s.logQ, ¬(l.code = code ∧ l.detail = detail ∧ l.sec = s.time.sec)) → s.logQ.length < 256 →
        newEntry s code detail ∈ (raise code detail s).logQ ∧ (raise code detail s).logQ.length = s.logQ.length + 1)
      ∧ ((∀ l ∈ s.logQ, ¬(l.code = code ∧ l.detail = detail ∧ l.sec = s.time.sec)) → 256 ≤ s.logQ.length →
        (raise code detail s).logQ = s.logQ
          ∧ getF (raise code detail s) midLog 17 0 = Nat.min (getF s midLog 17 0 + 1) (2 ^ 18 - 1)
          ∧ (raise code detail s).telem.lost = s.telem.lost + 1)

/-- ADD, SUB, NEG, ABS and ADDI give the exact result modulo 2^36 and set V exactly when it lies outside the limits of R40
(NEG and ABS: for MAXN). On a plant engine the result is in flight for 1 tick and nothing else changes; on a supervisor
engine it is in place at once. ADDS, SUBS, NEGS and ABSS give the exact result where it lies within the limits of R40, and
otherwise the nearer limit with S set; no other flag is set. -/
def Obligations.SumsWrapOrSaturate : Prop :=
  (∀ (e : Fin 1028) (f : RegForm) (g : ImmForm) (s : State),
    computes s e (.add e f) f.delta.toNat f.neg f.pred .none 0 1 (fun x fs =>
        fs = setsIf f.d (opA x f + opB x f) 0 ((opA x f).saddOverflow (opB x f)))
      ∧ computes s e (.sub e f) f.delta.toNat f.neg f.pred .none 0 1 (fun x fs =>
        fs = setsIf f.d (opA x f - opB x f) 0 ((opA x f).ssubOverflow (opB x f)))
      ∧ computes s e (.neg e f) f.delta.toNat f.neg f.pred .none 0 1 (fun x fs =>
        fs = setsIf f.d (-opA x f) 0 (opA x f == 0x800000000#36))
      ∧ computes s e (.abs e f) f.delta.toNat f.neg f.pred .none 0 1 (fun x fs =>
        fs = setsIf f.d (if (opA x f).slt 0 then -opA x f else opA x f) 0 (opA x f == 0x800000000#36))
      ∧ computes s e (.addi e g) g.delta.toNat g.neg g.pred .none 0 1 (fun x fs =>
        fs = setsIf g.d (immD x g + g.imm.signExtend 36) 0 ((immD x g).saddOverflow (g.imm.signExtend 36))))
  ∧ (∀ (e : Fin 1028) (f : RegForm) (s : State),
    computes s e (.adds e f) f.delta.toNat f.neg f.pred .none 0 1 (fun x fs =>
        ∃ v : Word, v.toInt = clamp ((opA x f).toInt + (opB x f).toInt)
          ∧ fs = setsIf f.d v 1 (outside ((opA x f).toInt + (opB x f).toInt)))
      ∧ computes s e (.subs e f) f.delta.toNat f.neg f.pred .none 0 1 (fun x fs =>
        ∃ v : Word, v.toInt = clamp ((opA x f).toInt - (opB x f).toInt)
          ∧ fs = setsIf f.d v 1 (outside ((opA x f).toInt - (opB x f).toInt)))
      ∧ computes s e (.negs e f) f.delta.toNat f.neg f.pred .none 0 1 (fun x fs =>
        ∃ v : Word, v.toInt = clamp (-(opA x f).toInt) ∧ fs = setsIf f.d v 1 (outside (-(opA x f).toInt)))
      ∧ computes s e (.abss e f) f.delta.toNat f.neg f.pred .none 0 1 (fun x fs =>
        ∃ v : Word, v.toInt = clamp |(opA x f).toInt| ∧ fs = setsIf f.d v 1 (outside |(opA x f).toInt|)))

/-- AND, OR, XOR and ANDN are bitwise; MIN, MAX and LIM are signed; SEL chooses by predicate p[m] XOR s; LDI sign-extends
its immediate and SHI shifts wd left by 16 bits and adds its immediate unsigned. None of them sets a flag. The shift count
is wb[7:0]. SHL fills from the right and sets V when the result is not the exact product; SHLS saturates and sets S; SHR
fills with zeros and SAR with the sign; ROT rotates left by the count modulo 36; SRR divides by a power of two under the
rounding of R47. -/
def Obligations.LogicShiftsAndRotation : Prop :=
  (∀ (e : Fin 1028) (f : RegForm) (g : ImmForm) (s : State),
    computes s e (.and e f) f.delta.toNat f.neg f.pred .none 0 1 (fun x fs => ∃ v : Word,
        (∀ k, v.getLsbD k = ((opA x f).getLsbD k && (opB x f).getLsbD k)) ∧ fs = [.reg f.d.toNat v])
      ∧ computes s e (.or e f) f.delta.toNat f.neg f.pred .none 0 1 (fun x fs => ∃ v : Word,
        (∀ k, v.getLsbD k = ((opA x f).getLsbD k || (opB x f).getLsbD k)) ∧ fs = [.reg f.d.toNat v])
      ∧ computes s e (.xor e f) f.delta.toNat f.neg f.pred .none 0 1 (fun x fs => ∃ v : Word,
        (∀ k, v.getLsbD k = ((opA x f).getLsbD k ^^ (opB x f).getLsbD k)) ∧ fs = [.reg f.d.toNat v])
      ∧ computes s e (.andn e f) f.delta.toNat f.neg f.pred .none 0 1 (fun x fs => ∃ v : Word,
        (∀ k < 36, v.getLsbD k = ((opA x f).getLsbD k && !(opB x f).getLsbD k)) ∧ fs = [.reg f.d.toNat v])
      ∧ computes s e (.min e f) f.delta.toNat f.neg f.pred .none 0 1 (fun x fs => ∃ v : Word,
        v.toInt = min (opA x f).toInt (opB x f).toInt ∧ fs = [.reg f.d.toNat v])
      ∧ computes s e (.max e f) f.delta.toNat f.neg f.pred .none 0 1 (fun x fs => ∃ v : Word,
        v.toInt = max (opA x f).toInt (opB x f).toInt ∧ fs = [.reg f.d.toNat v])
      ∧ computes s e (.sel e f) f.delta.toNat f.neg f.pred .none 0 1 (fun x fs =>
        fs = [.reg f.d.toNat (if (pGet x (f.m.toNat % 8) ^^ f.m.getLsbD 3) = true then opA x f else opB x f)])
      ∧ computes s e (.lim e f) f.delta.toNat f.neg f.pred .none 0 1 (fun x fs => ∃ v : Word,
        v.toInt = max (opA x f).toInt (min (opD x f).toInt (opB x f).toInt) ∧ fs = [.reg f.d.toNat v])
      ∧ computes s e (.ldi e g) g.delta.toNat g.neg g.pred .none 0 1 (fun _ fs => ∃ v : Word,
        v.toInt = g.imm.toInt ∧ fs = [.reg g.d.toNat v])
      ∧ computes s e (.shi e g) g.delta.toNat g.neg g.pred .none 0 1 (fun x fs =>
        fs = [.reg g.d.toNat ((immD x g <<< 16) + g.imm.zeroExtend 36)]))
  ∧ (∀ (e : Fin 1028) (f : RegForm) (s : State),
    computes s e (.shl e f) f.delta.toNat f.neg f.pred .none 0 1 (fun x fs => ∃ v : Word,
        (∀ k < 36, v.getLsbD k = (decide ((opB x f).toNat % 256 ≤ k) && (opA x f).getLsbD (k - (opB x f).toNat % 256)))
          ∧ fs = setsIf f.d v 0 (decide (v.toInt ≠ (opA x f).toInt * 2 ^ ((opB x f).toNat % 256))))
      ∧ computes s e (.shls e f) f.delta.toNat f.neg f.pred .none 0 1 (fun x fs => ∃ v : Word,
        v.toInt = clamp ((opA x f).toInt * 2 ^ ((opB x f).toNat % 256))
          ∧ fs = setsIf f.d v 1 (outside ((opA x f).toInt * 2 ^ ((opB x f).toNat % 256))))
      ∧ computes s e (.shr e f) f.delta.toNat f.neg f.pred .none 0 1 (fun x fs => ∃ v : Word,
        v.toNat = (opA x f).toNat / 2 ^ ((opB x f).toNat % 256) ∧ fs = [.reg f.d.toNat v])
      ∧ computes s e (.sar e f) f.delta.toNat f.neg f.pred .none 0 1 (fun x fs => ∃ v : Word,
        v.toInt = (opA x f).toInt / 2 ^ ((opB x f).toNat % 256) ∧ fs = [.reg f.d.toNat v])
      ∧ computes s e (.rot e f) f.delta.toNat f.neg f.pred .none 0 1 (fun x fs => ∃ v : Word,
        (∀ k < 36, v.getLsbD ((k + (opB x f).toNat % 256) % 36) = (opA x f).getLsbD k) ∧ fs = [.reg f.d.toNat v])
      ∧ computes s e (.srr e f) f.delta.toNat f.neg f.pred .none 0 1 (fun x fs => ∃ v : Word,
        v.toInt = roundShift (f.m.getLsbD 3) (opA x f).toInt ((opB x f).toNat % 256) ∧ fs = [.reg f.d.toNat v]))

/-- CLS gives the number of bits below bit 35 that equal bit 35 before the first that differs, 0 to 35, and 35 for both
0x000000000 and 0xFFFFFFFFF; POPC gives the number of 1 bits, 0 to 36. Neither sets a flag. -/
def Obligations.SignBitAndOneBitCounts : Prop :=
  ∀ (e : Fin 1028) (f : RegForm) (s : State),
    computes s e (.cls e f) f.delta.toNat f.neg f.pred .none 0 1 (fun x fs => ∃ n : Nat, n ≤ 35
          ∧ (opA x f = 0 ∨ opA x f = 0xFFFFFFFFF#36 → n = 35)
          ∧ (∀ k < n, (opA x f).getLsbD (34 - k) = (opA x f).getLsbD 35)
          ∧ (n < 35 → (opA x f).getLsbD (34 - n) ≠ (opA x f).getLsbD 35) ∧ fs = [.reg f.d.toNat (BitVec.ofNat 36 n)])
      ∧ computes s e (.popc e f) f.delta.toNat f.neg f.pred .none 0 1 (fun x fs =>
        ∃ n : Nat, n ≤ 36 ∧ n = (Finset.univ.filter fun k : Fin 36 => (opA x f).getLsbD k = true).card
          ∧ fs = [.reg f.d.toNat (BitVec.ofNat 36 n)])

/-- EXT moves bits [p + e − 1 : p] of wa to the bottom of wd, sign-extended or not; INS puts the low e bits of wa at
position p of wd and leaves its other bits, with p = wb[5:0], length wb[11:6] and e the length that fits; CVT's five
conversions follow R56, the first saturating with S. CMP writes predicate d from the condition its modifier names, PLOG from
the logic of two predicates, PMOV moves the predicates to or from a word, RDF reads the sticky flags and CLRF clears those
its modifier selects. -/
def Obligations.BitFieldsAndPredicates : Prop :=
  (∀ (e : Fin 1028) (f : RegForm) (s : State),
    computes s e (.ext e f) f.delta.toNat f.neg f.pred .none 0 1 (fun x fs => ∃ v : Word,
        (∀ k < 36, v.getLsbD k =
          if k < fieldLen (opB x f) then (opA x f).getLsbD (fieldPos (opB x f) + k)
          else f.m.getLsbD 0 && decide (fieldLen (opB x f) ≠ 0)
            && (opA x f).getLsbD (fieldPos (opB x f) + fieldLen (opB x f) - 1))
          ∧ fs = [.reg f.d.toNat v])
      ∧ computes s e (.ins e f) f.delta.toNat f.neg f.pred .none 0 1 (fun x fs => ∃ v : Word,
        (∀ k < 36, v.getLsbD k =
          if fieldPos (opB x f) ≤ k ∧ k < fieldPos (opB x f) + fieldLen (opB x f)
          then (opA x f).getLsbD (k - fieldPos (opB x f)) else (opD x f).getLsbD k)
          ∧ fs = [.reg f.d.toNat v])
      ∧ computes s e (.cvt e f) f.delta.toNat f.neg f.pred .none 0 1 (fun x fs =>
        (f.m.toNat % 8 = 0 → ∃ v : Word, v.toInt = clamp ((opA x f).toInt * 2 ^ 30)
          ∧ fs = setsIf f.d v 1 (outside ((opA x f).toInt * 2 ^ 30)))
        ∧ (f.m.toNat % 8 = 1 → ∃ v : Word, v.toInt = roundShift (f.m.getLsbD 3) (opA x f).toInt 30
          ∧ fs = [.reg f.d.toNat v])
        ∧ (f.m.toNat % 8 = 2 → fs = [.reg f.d.toNat (opA x f <<< 6)])
        ∧ (f.m.toNat % 8 = 3 → ∃ v : Word, fs = [.reg f.d.toNat v]
          ∧ v.toInt = roundShift (f.m.getLsbD 3) (opA x f).toNat 6 % 2 ^ 30)
        ∧ (f.m.toNat % 8 = 4 → ∃ v : Word, v.toInt = ((opA x f).truncate 24).toInt * 2 ^ 7 ∧ fs = [.reg f.d.toNat v])))
  ∧ (∀ (e : Fin 1028) (f : RegForm) (s : State),
    computes s e (.cmp e f) f.delta.toNat f.neg f.pred .none 0 1 (fun x fs => ∃ c : Bool, fs = [.pred f.d.toNat c]
        ∧ (f.m = 0 → c = (opA x f == opB x f)) ∧ (f.m = 1 → c = (opA x f != opB x f))
        ∧ (f.m = 2 → c = (opA x f).slt (opB x f)) ∧ (f.m = 3 → c = !(opA x f).slt (opB x f))
        ∧ (f.m = 4 → c = (opA x f).sle (opB x f)) ∧ (f.m = 5 → c = !(opA x f).sle (opB x f))
        ∧ (f.m = 6 → c = (opA x f).ult (opB x f)) ∧ (f.m = 7 → c = !(opA x f).ult (opB x f))
        ∧ (f.m = 8 → c = (opA x f - opB x f).getLsbD 35) ∧ (f.m = 9 → c = !(opA x f - opB x f).getLsbD 35)
        ∧ (f.m = 10 → c = (opA x f &&& opB x f != 0)) ∧ (f.m = 11 → c = (opA x f &&& opB x f == 0)))
      ∧ computes s e (.plog e f) f.delta.toNat f.neg f.pred .none 0 1 (fun x fs => ∃ c : Bool, fs = [.pred f.d.toNat c]
        ∧ (f.m = 0 → c = ((pGet x (f.a.toNat % 8) ^^ f.a.getLsbD 3) && (pGet x (f.b.toNat % 8) ^^ f.b.getLsbD 3)))
        ∧ (f.m = 1 → c = ((pGet x (f.a.toNat % 8) ^^ f.a.getLsbD 3) || (pGet x (f.b.toNat % 8) ^^ f.b.getLsbD 3)))
        ∧ (f.m = 2 → c = ((pGet x (f.a.toNat % 8) ^^ f.a.getLsbD 3) ^^ (pGet x (f.b.toNat % 8) ^^ f.b.getLsbD 3)))
        ∧ (f.m = 3 → c = (pGet x (f.a.toNat % 8) ^^ f.a.getLsbD 3)))
      ∧ computes s e (.pmov e f) f.delta.toNat f.neg f.pred .none 0 1 (fun x fs =>
        (f.m = 0 → ∃ v : Word, fs = [.reg f.d.toNat v] ∧ ∀ k < 36, v.getLsbD k = (decide (k < 8) && pGet x k))
        ∧ (f.m = 1 → ∀ n, 0 < n → n < 8 → ∀ old, pAfter fs n old = (opA x f).getLsbD n))
      ∧ computes s e (.rdf e f) f.delta.toNat f.neg f.pred .none 0 1 (fun x fs => ∃ v : Word, fs = [.reg f.d.toNat v]
        ∧ v.getLsbD 0 = x.fV ∧ v.getLsbD 1 = x.fS ∧ v.getLsbD 2 = x.fD ∧ ∀ k, 3 ≤ k → v.getLsbD k = false)
      ∧ computes s e (.clrf e f) f.delta.toNat f.neg f.pred .none 0 1 (fun _ fs =>
        ∀ (g : Fin 3) (old : Bool), fAfter fs g old = (old && !f.m.getLsbD g.val)))

/-- MUL keeps the low 36 bits and sets V when the product is outside the limits; MULS saturates with S; MULH is the exact
product divided by 2^36 toward minus infinity; PMUL rounds the product at bit 30 and saturates with S; TMUL multiplies an
unsigned angle by a signed factor, rounds and wraps without a flag. Each lands 2 ticks after its release. MAC puts its exact
product in flight for the accumulator its modifier names, and on a supervisor engine adds it at once; ACX extracts with
saturation; ACM reads a word of an accumulator, the high word sign-extended, or writes one part of it. -/
def Obligations.ProductsAndAccumulators : Prop :=
  (∀ (e : Fin 1028) (f : RegForm) (s : State),
    computes s e (.mul e f) f.delta.toNat f.neg f.pred .none 1 2 (fun x fs =>
        fs = setsIf f.d (opA x f * opB x f) 0 ((opA x f).smulOverflow (opB x f)))
      ∧ computes s e (.muls e f) f.delta.toNat f.neg f.pred .none 1 2 (fun x fs => ∃ v : Word,
        v.toInt = clamp ((opA x f).toInt * (opB x f).toInt)
          ∧ fs = setsIf f.d v 1 (outside ((opA x f).toInt * (opB x f).toInt)))
      ∧ computes s e (.mulh e f) f.delta.toNat f.neg f.pred .none 1 2 (fun x fs => ∃ v : Word,
        v.toInt = (opA x f).toInt * (opB x f).toInt / 2 ^ 36 ∧ fs = [.reg f.d.toNat v])
      ∧ computes s e (.pmul e f) f.delta.toNat f.neg f.pred .none 1 2 (fun x fs => ∃ v : Word,
        v.toInt = clamp (roundShift (f.m.getLsbD 3) ((opA x f).toInt * (opB x f).toInt) 30)
          ∧ fs = setsIf f.d v 1 (outside (roundShift (f.m.getLsbD 3) ((opA x f).toInt * (opB x f).toInt) 30)))
      ∧ computes s e (.tmul e f) f.delta.toNat f.neg f.pred .none 1 2 (fun x fs => ∃ v : Word,
        (v.toNat : Int) = roundShift (f.m.getLsbD 3) ((opA x f).toNat * (opB x f).toInt) 30 % 2 ^ 36
          ∧ fs = [.reg f.d.toNat v]))
  ∧ (∀ (e : Fin 1028) (f : RegForm) (s : State),
    computesPlant s e (.mac e f) f.delta.toNat f.neg f.pred .none 1 2 (fun x fs =>
        fs = [.mac (f.m.getLsbD 0) (f.m.getLsbD 2) (f.m.getLsbD 1) ((opA x f).toInt * (opB x f).toInt)])
      ∧ (∀ u, supReady s e (.mac e f) u → u.wf → condHolds (engine u e) f.neg f.pred = true →
        ∃ t, exec (.mac e f) s = .next t
          ∧ accumulates (engine u e) (engine t e) (f.m.getLsbD 0) (f.m.getLsbD 2) (f.m.getLsbD 1)
            ((opA (engine u e) f).toInt * (opB (engine u e) f).toInt) ∧ t.mem = u.mem)
      ∧ computes s e (.acx e f) f.delta.toNat f.neg f.pred .none 1 2 (fun x fs =>
        (f.m.getLsbD 1 = false → ∃ v : Word, v.toInt = clamp (accOf x (f.m.getLsbD 0)).toInt
          ∧ fs = setsIf f.d v 1 (outside (accOf x (f.m.getLsbD 0)).toInt))
        ∧ (f.m.getLsbD 1 = true → ∃ v : Word,
          v.toInt = clamp (roundShift (f.m.getLsbD 3) (accOf x (f.m.getLsbD 0)).toInt 30)
          ∧ fs = setsIf f.d v 1 (outside (roundShift (f.m.getLsbD 3) (accOf x (f.m.getLsbD 0)).toInt 30))))
      ∧ (f.m.getLsbD 3 = false → computes s e (.acm e f) f.delta.toNat f.neg f.pred .none 1 2 (fun x fs => ∃ v : Word,
        fs = [.reg f.d.toNat v] ∧ ∀ k < 36, v.getLsbD k =
          (accOf x (f.m.getLsbD 0)).getLsbD (min (36 * (f.m.toNat / 2 % 4) + k) 79)))
      ∧ (f.m.getLsbD 3 = true → computesPlant s e (.acm e f) f.delta.toNat f.neg f.pred .none 1 2 (fun x fs =>
        fs = [.acm (f.m.getLsbD 0) (f.m.toNat / 2 % 4) (opA x f)]))
      ∧ (f.m.getLsbD 3 = true → ∀ u, supReady s e (.acm e f) u → u.wf → condHolds (engine u e) f.neg f.pred = true →
        ∃ t, exec (.acm e f) s = .next t
          ∧ writesPart (engine u e) (engine t e) (f.m.getLsbD 0) (f.m.toNat / 2 % 4) (opA (engine u e) f) ∧ t.mem = u.mem))

/-- DIV and PDIV truncate toward zero and saturate with D; a zero divisor gives 0, MAXP or MAXN by the dividend's sign with
D; REM gives the dividend less the quotient times the divisor, the dividend itself for a zero divisor, with D exactly where
DIV sets it; SQRT gives the integer nearest to the root of wa times 2^30, and 0 with S for a negative operand. SINCOS writes
the sine to wd and the cosine to w(d+1), VROT the rotated vector, ATAN2 the angle and MAG the magnitude of the vector (wa,
wb), as the procedures of R95 give them, with S where a result saturates. Each takes the CORDIC unit. -/
def Obligations.DivisionAndCordic : Prop :=
  (∀ (e : Fin 1028) (f : RegForm) (s : State),
    computes s e (.div e f) f.delta.toNat f.neg f.pred .divider 2 9 (fun x fs => ∃ v : Word,
        fs = setsIf f.d v 2 (opB x f == 0 || outside ((opA x f).toInt.tdiv (opB x f).toInt))
          ∧ (opB x f ≠ 0 → v.toInt = clamp ((opA x f).toInt.tdiv (opB x f).toInt))
          ∧ (opB x f = 0 → v.toInt = if opA x f = 0 then 0 else if (opA x f).toInt < 0 then -2 ^ 35 else 2 ^ 35 - 1))
      ∧ computes s e (.rem e f) f.delta.toNat f.neg f.pred .divider 2 9 (fun x fs => ∃ v : Word,
        fs = setsIf f.d v 2 (opB x f == 0 || outside ((opA x f).toInt.tdiv (opB x f).toInt))
          ∧ v.toInt = (opA x f).toInt - (opA x f).toInt.tdiv (opB x f).toInt * (opB x f).toInt)
      ∧ computes s e (.pdiv e f) f.delta.toNat f.neg f.pred .divider 2 9 (fun x fs => ∃ v : Word,
        fs = setsIf f.d v 2 (opB x f == 0 || outside (((opA x f).toInt * 2 ^ 30).tdiv (opB x f).toInt))
          ∧ (opB x f ≠ 0 → v.toInt = clamp (((opA x f).toInt * 2 ^ 30).tdiv (opB x f).toInt))
          ∧ (opB x f = 0 → v.toInt = if opA x f = 0 then 0 else if (opA x f).toInt < 0 then -2 ^ 35 else 2 ^ 35 - 1))
      ∧ computes s e (.sqrt e f) f.delta.toNat f.neg f.pred .cordic 4 12 (fun x fs => ∃ v : Word,
        fs = setsIf f.d v 1 (decide ((opA x f).toInt < 0)) ∧ 0 ≤ v.toInt
          ∧ ((opA x f).toInt < 0 → v = 0)
          ∧ (0 ≤ (opA x f).toInt → (v ≠ 0 → (2 * v.toInt - 1) ^ 2 ≤ 4 * ((opA x f).toInt * 2 ^ 30))
            ∧ 4 * ((opA x f).toInt * 2 ^ 30) < (2 * v.toInt + 1) ^ 2)))
  ∧ (∀ (e : Fin 1028) (f : RegForm) (s : State),
    computes s e (.sincos e f) f.delta.toNat f.neg f.pred .cordic 4 12 (fun x fs =>
        ∀ r old, r % 64 ≠ 0 → wAfter fs r old =
          if (f.d.toNat + 1) % 64 = r % 64 then (rotate (2 ^ 30) 0 (opA x f)).1.1
          else if f.d.toNat = r % 64 then (rotate (2 ^ 30) 0 (opA x f)).2.1 else old)
      ∧ computes s e (.vrot e f) f.delta.toNat f.neg f.pred .cordic 4 12 (fun x fs =>
        (∀ r old, r % 64 ≠ 0 → wAfter fs r old =
          if (f.d.toNat + 1) % 64 = r % 64
          then (rotate (opA x f).toInt (wGet x (f.a.toNat + 1)).toInt (opB x f)).2.1
          else if f.d.toNat = r % 64
          then (rotate (opA x f).toInt (wGet x (f.a.toNat + 1)).toInt (opB x f)).1.1 else old)
        ∧ ∀ g old, fAfter fs g old = (old
          || (rotate (opA x f).toInt (wGet x (f.a.toNat + 1)).toInt (opB x f)).1.2 == some g
          || (rotate (opA x f).toInt (wGet x (f.a.toNat + 1)).toInt (opB x f)).2.2 == some g))
      ∧ computes s e (.atan2 e f) f.delta.toNat f.neg f.pred .cordic 4 12 (fun x fs =>
        fs = [.reg f.d.toNat (vectoring (opA x f).toInt (opB x f).toInt).1])
      ∧ computes s e (.mag e f) f.delta.toNat f.neg f.pred .cordic 4 12 (fun x fs =>
        (∀ r old, wAfter fs r old =
          if f.d.toNat = r % 64 then (vectoring (opA x f).toInt (opB x f).toInt).2.1 else old)
        ∧ ∀ g old, fAfter fs g old = (old || (vectoring (opA x f).toInt (opB x f).toInt).2.2 == some g)))

/-- Every plant instruction but LOOP whose condition is false is released at its tick and reads nothing, writes nothing,
makes no access and sets no flag; WAITT and WAITEV then end 1 tick after the preceding release. A plant instruction that may
not be released yet leaves the state as it is. One that is a reserved encoding waits for no operand and no shared port, is
released with no effect and is a late event with fault 0x181. On a supervisor engine, for which the spec gives no effect, a
reserved encoding stops the machine under the fault of that name. A command whose condition does not hold leaves the state
as it was: the model's choice (log entry 8). -/
def Obligations.ReleasesWithoutEffect : Prop :=
  (∀ (i : Instr) (s : State) (e : Fin 1028) (delta : Nat) (neg : Bool) (pred : BitVec 3) (u : UnitKind),
    instrForm i = some (e, delta, neg, pred, u) → (∀ g, i ≠ .loop e g) → s.wf → plantReady s e i delta u →
      condHolds (engine s e) neg pred = false → ∃ t, exec i s = .next t
        ∧ quietly s t e delta (if isWait i then s.now else (engine s e).prev + delta))
  ∧ (∀ (i : Instr) (s : State) (e : Fin 1028) (delta : Nat) (neg : Bool) (pred : BitVec 3) (u : UnitKind),
    instrForm i = some (e, delta, neg, pred, u) → s.wf →
      (e.val < 1024 → wellFormed i = true → fetchBad s e = false → mayRelease s e (sources i) delta u = false → exec i s = .next s)
      ∧ (e.val < 1024 → wellFormed i = false ∨ fetchBad s e = true →
        mayRelease s e {} delta (if u = .shared then .none else u) = false → exec i s = .next s)
      ∧ (e.val < 1024 → wellFormed i = false → mayRelease s e {} delta (if u = .shared then .none else u) = true →
        haltsNow s e = false → fetchBad s e = false →
        s.now ≤ (engine s e).prev + delta → ∃ t, exec i s = .next t ∧ archKept (engine s e) (engine t e)
          ∧ (∀ j, j ≠ e.val → engine t j = engine s j) ∧ restKept s t ∧ bitOf t fabStatus 0 = true
          ∧ (s.late.length < 16 → ∃ n m, t.late = s.late
              ++ [(word (0x181 * 2 ^ 24 + e.val * 2 ^ 13 + (engine s e).pos % 4096), n, m)])
          ∧ (engine t e).prev = (engine s e).prev + delta)
      ∧ (1024 ≤ e.val → wellFormed i = false → exec i s = .fault (.reservedOnSupervisor e.val)))

/-- A LOOP that is due completes whatever the operands: under a true condition it puts its body on the loop stack and index
0 in flight for wd (on a supervisor engine, in place at once); under a false condition it opens the body with every
instruction in it disabled and writes nothing. From the body's first word, c times b releases bring the position past the
body with the stack as before. -/
def Obligations.LoopRunsItsBody : Prop :=
  (∀ (e : Fin 1028) (g : ImmForm) (s : State), s.wf → plantReady s e (.loop e g) g.delta.toNat .none →
    (engine s e).loops.length < 4 → ∃ t, exec (.loop e g) s = .next t ∧ archKept (engine s e) (engine t e)
      ∧ (engine t e).loops = ⟨(engine s e).pos + 1, g.imm.toNat % 64 + 1, g.imm.toNat / 64, g.d.toNat, 0,
          !condHolds (engine s e) g.neg g.pred, (engine s e).ord⟩ :: (engine s e).loops
      ∧ (engine t e).pos = ((engine s e).pos + 1) % 4096 ∧ releaseFrame s t e g.delta.toNat
      ∧ (g.d ≠ 0 → condHolds (engine s e) g.neg g.pred = true →
        ∃ l ∈ (engine t e).fly, l.land = s.now + 1 ∧ l.effs = [.reg g.d.toNat 0]))
  ∧ (∀ (e : Fin 1028) (g : ImmForm) (s u : State), u.wf → supReady s e (.loop e g) u → (engine u e).loops.length < 4 →
    (engine u e).lockOpen = false → ∃ t, exec (.loop e g) s = .next t
      ∧ (engine t e).loops = ⟨(supOf u e).pc.toNat + 1, g.imm.toNat % 64 + 1, g.imm.toNat / 64, g.d.toNat, 0,
          !condHolds (engine u e) g.neg g.pred, (engine u e).ord⟩ :: (engine u e).loops
      ∧ (supOf t e).pc = (supOf u e).pc + 1
      ∧ (∀ r, r % 64 ≠ 0 → wGet (engine t e) r =
        if g.d.toNat = r % 64 ∧ condHolds (engine u e) g.neg g.pred = true then 0 else wGet (engine u e) r)
      ∧ t.mem = u.mem ∧ t.reqs = u.reqs ∧ ∀ j, j ≠ e.val → engine t j = engine u j)
  ∧ (∀ (x : LoopEnt) (ls : List LoopEnt), x.start + x.len < 4096 → 0 < x.len →
      (∀ y ∈ ls, y.start + y.len ≠ x.start + x.len) →
      positions (x.len * (x.left + 1)) (x :: ls) x.start = (x.start + x.len, ls))

/-- WAITT rests the engine until its target, at most the last tick of the day, and continues at once where the target has
come, with late event 0x103 where it has passed. WAITEV takes the oldest queued entry that answers it at once, and otherwise
rests until its deadline, or ends on it where that has passed. TSTAMP puts the three words of the time triple in flight. A
wait for a day tick ends at that tick; a wait for an event ends 14 ticks after the tick in which a matching entry arrived by
the deadline, with the event word in wd and its predicate set; without one it ends at the deadline with 0 and the predicate
clear. The next release delta counts from the end of the wait. Before that nothing changes. A command whose condition does
not hold leaves the state as it was: the model's choice (log entry 8). -/
def Obligations.WaitsBeginAndEnd : Prop :=
  (∀ (e : Fin 1028) (f : RegForm) (s : State), s.wf → condHolds (engine s e) f.neg f.pred = true → trailsJoined s e = false →
    leadsJoined s e = false →
    (plantReady s e (.waitt e f) 1 .none → ∀ a, a = Nat.min (opA (engine s e) f).toNat (dayT s - 1) →
      ∃ t, exec (.waitt e f) s = .next t ∧ archKept (engine s e) (engine t e)
        ∧ (∀ j, j ≠ e.val → engine t j = engine s j) ∧ restKept s t
        ∧ (dayTick s < a → (engine t e).rest = .waitT (s.now - dayTick s + a))
        ∧ (a ≤ dayTick s → (engine t e).rest = .run)
        ∧ (a < dayTick s → punctual s e 1 → s.late.length < 16 →
          t.late = s.late ++ [(word (0x103 * 2 ^ 24 + e.val * 2 ^ 13 + (engine s e).pos % 4096), a % 2 ^ 28,
            dayTick s % 2 ^ 28)])
        ∧ (a = dayTick s → punctual s e 1 → t.late = s.late))
    ∧ (plantReady s e (.waitev e f) 1 .none →
      ∃ t, exec (.waitev e f) s = .next t ∧ (∀ j, j ≠ e.val → engine t j = engine s j) ∧ restKept s t
        ∧ (∀ v, findEvent s e (f.m.getLsbD 0) (slice (opA (engine s e) f).toNat 15 0) s.now = some v →
            (engine t e).rest = .run
            ∧ (∀ r, r % 64 ≠ 0 → wGet (engine t e) r = if f.d.toNat = r % 64 then v.word else wGet (engine s e) r)
            ∧ (∀ n, n % 8 ≠ 0 → pGet (engine t e) n = if f.m.toNat / 2 = n % 8 then true else pGet (engine s e) n))
        ∧ (findEvent s e (f.m.getLsbD 0) (slice (opA (engine s e) f).toNat 15 0) s.now = none →
            (dayTick s ≤ (opB (engine s e) f).toNat → archKept (engine s e) (engine t e)
              ∧ (engine t e).rest = .waitEv (f.m.getLsbD 0) (slice (opA (engine s e) f).toNat 15 0)
                (s.now - dayTick s + (opB (engine s e) f).toNat) f.d.toNat (f.m.toNat / 2))
            ∧ ((opB (engine s e) f).toNat < dayTick s → (engine t e).rest = .run
              ∧ (∀ r, r % 64 ≠ 0 → wGet (engine t e) r = if f.d.toNat = r % 64 then 0 else wGet (engine s e) r)
              ∧ (∀ n, n % 8 ≠ 0 → pGet (engine t e) n = if f.m.toNat / 2 = n % 8 then false else pGet (engine s e) n))))
    ∧ (plantReady s e (.tstamp e f) f.delta.toNat .none →
      ∃ t, exec (.tstamp e f) s = .next t ∧ archKept (engine s e) (engine t e)
        ∧ (∀ j, j ≠ e.val → engine t j = engine s j) ∧ restKept s t
        ∧ ((engine s e).entry = none → ∃ l ∈ (engine t e).fly, ∃ rest, l.land = s.now + 2 ∧ l.capture = true
          ∧ l.effs = .reg f.d.toNat (word s.time.ns64) :: .reg (f.d.toNat + 1) (word (s.time.sec / 2 ^ 36 % 4096))
              :: .reg (f.d.toNat + 2) (word (s.time.sec % 2 ^ 36)) :: rest
          ∧ (f.m.getLsbD 0 = false → rest = [])
          ∧ (f.m.getLsbD 0 = true → ∃ w, rest = [.reg (f.d.toNat + 3) w] ∧ w.toNat / 2 ^ 18 = (engine s e).waitCnt % 2 ^ 18))))
  ∧ (∀ (e : Fin 1028) (s : State), s.wf → trailsJoined s e = false → leadsJoined s e = false →
    (∀ n, (engine s e).rest = .waitT n →
      (n ≤ s.now → ∃ t, exec (.waittTargetReached e) s = .next t ∧ (engine t e).rest = .run ∧ (engine t e).prev = n
        ∧ archKept (engine s e) (engine t e) ∧ (∀ j, j ≠ e.val → engine t j = engine s j) ∧ restKept s t)
      ∧ (s.now < n → exec (.waittTargetReached e) s = .next s))
    ∧ (∀ any src dl d m, (engine s e).rest = .waitEv any src dl d m →
      (∀ v, findEvent s e any src dl = some v →
        (v.tick + 14 ≤ s.now → ∃ t, exec (.eventWake e) s = .next t ∧ (engine t e).rest = .run
          ∧ (engine t e).prev = v.tick + 14
          ∧ (∀ r, r % 64 ≠ 0 → wGet (engine t e) r = if d % 64 = r % 64 then v.word else wGet (engine s e) r)
          ∧ (∀ n, n % 8 ≠ 0 → pGet (engine t e) n = if m % 8 = n % 8 then true else pGet (engine s e) n)
          ∧ (engine t e).evq.length + 1 = (engine s e).evq.length
          ∧ (∀ j, j ≠ e.val → engine t j = engine s j) ∧ restKept s t)
        ∧ (s.now < v.tick + 14 → exec (.eventWake e) s = .next s)
        ∧ exec (.waitDeadline e) s = .next s)
      ∧ (findEvent s e any src dl = none →
        (dl ≤ s.now → ∃ t, exec (.waitDeadline e) s = .next t ∧ (engine t e).rest = .run ∧ (engine t e).prev = dl
          ∧ (∀ r, r % 64 ≠ 0 → wGet (engine t e) r = if d % 64 = r % 64 then 0 else wGet (engine s e) r)
          ∧ (∀ n, n % 8 ≠ 0 → pGet (engine t e) n = if m % 8 = n % 8 then false else pGet (engine s e) n)
          ∧ (engine t e).evq = (engine s e).evq
          ∧ (∀ j, j ≠ e.val → engine t j = engine s j) ∧ restKept s t)
        ∧ (s.now < dl → exec (.waitDeadline e) s = .next s)
        ∧ exec (.eventWake e) s = .next s)))

/-- LD and ST form the offset (wa + wb) mod 8,192 and LDL and STL take their immediate. On a plant engine the access is in
flight for 2 ticks; on a supervisor engine a load without a check error writes wd at once, and a store writes the one word
of the engine's own local data and nothing else. LDS and STS of a plant engine issue a request for the address (wa + wb) mod
2^36, and EVS one for the first word of the target engine's local data, with the source number and payload of R99. Registers
and memory stay as they are until it is served. -/
def Obligations.LocalAndSharedAccesses : Prop :=
  (∀ (e : Fin 1028) (f : RegForm) (g : ImmForm) (s : State),
    (s.wf → condHolds (engine s e) f.neg f.pred = true →
      (plantReady s e (.ld e f) f.delta.toNat .none → ∃ t, exec (.ld e f) s = .next t
        ∧ issuesLocal s t e (.load ((opA (engine s e) f + opB (engine s e) f).toNat % 8192) f.d.toNat)
          [0, word ((opA (engine s e) f + opB (engine s e) f).toNat % 8192)])
      ∧ (plantReady s e (.st e f) f.delta.toNat .none → ∃ t, exec (.st e f) s = .next t
        ∧ issuesLocal s t e (.store ((opA (engine s e) f + opB (engine s e) f).toNat % 8192) (opD (engine s e) f))
          [1, word ((opA (engine s e) f + opB (engine s e) f).toNat % 8192), opD (engine s e) f]))
    ∧ (s.wf → condHolds (engine s e) g.neg g.pred = true →
      (plantReady s e (.ldl e g) g.delta.toNat .none → ∃ t, exec (.ldl e g) s = .next t
        ∧ issuesLocal s t e (.load (g.imm.toNat % 8192) g.d.toNat) [0, word (g.imm.toNat % 8192)])
      ∧ (plantReady s e (.stl e g) g.delta.toNat .none → ∃ t, exec (.stl e g) s = .next t
        ∧ issuesLocal s t e (.store (g.imm.toNat % 8192) (immD (engine s e) g))
          [1, word (g.imm.toNat % 8192), immD (engine s e) g]))
    ∧ (∀ u, u.wf → condHolds (engine u e) f.neg f.pred = true → ∀ a,
        a = 0x01000000 + e.val * 0x2000 + (opA (engine u e) f + opB (engine u e) f).toNat % 8192 →
      (supReady s e (.ld e f) u → chkOf u a = .ok → (engine u e).loops = [] → ∃ t, exec (.ld e f) s = .next t
        ∧ (∀ r, r % 64 ≠ 0 → wGet (engine t e) r = if f.d.toNat = r % 64 then memGet u a else wGet (engine u e) r)
        ∧ t.mem = u.mem)
      ∧ (supReady s e (.st e f) u → ∃ t, exec (.st e f) s = .next t ∧ memAfter u t a (opD (engine u e) f)))
    ∧ (∀ u, u.wf → condHolds (engine u e) g.neg g.pred = true → ∀ a,
        a = 0x01000000 + e.val * 0x2000 + g.imm.toNat % 8192 →
      (supReady s e (.ldl e g) u → chkOf u a = .ok → (engine u e).loops = [] → ∃ t, exec (.ldl e g) s = .next t
        ∧ (∀ r, r % 64 ≠ 0 → wGet (engine t e) r = if g.d.toNat = r % 64 then memGet u a else wGet (engine u e) r)
        ∧ t.mem = u.mem)
      ∧ (supReady s e (.stl e g) u → ∃ t, exec (.stl e g) s = .next t ∧ memAfter u t a (immD (engine u e) g))))
  ∧ (∀ (e : Fin 1028) (f : RegForm) (s : State), s.wf → condHolds (engine s e) f.neg f.pred = true →
    (plantReady s e (.lds e f) f.delta.toNat .shared → ∃ t, exec (.lds e f) s = .next t
      ∧ requests s t e (opA (engine s e) f + opB (engine s e) f) (.load f.d.toNat))
    ∧ (plantReady s e (.sts e f) f.delta.toNat .shared → ∃ t, exec (.sts e f) s = .next t
      ∧ requests s t e (opA (engine s e) f + opB (engine s e) f) (.store (opD (engine s e) f)))
    ∧ (plantReady s e (.evs e f) f.delta.toNat .shared → ∃ t, exec (.evs e f) s = .next t
      ∧ requests s t e (word (0x01000000 + slice (opB (engine s e) f).toNat 9 0 * 0x2000))
        (.evs (slice (opB (engine s e) f).toNat 9 0) (0x0A00 + slice (opB (engine s e) f).toNat 17 10)
          (slice (opA (engine s e) f).toNat 19 0))))

/-- Where a point is free and requests wait there, the request served is one no other due request of the point precedes. A
granted read of shared memory without a check error returns the word, a refused one poison; a granted write to shared memory
writes that word alone and a refused one writes nothing. On time the result lands 7 ticks and one a hop after the release.
At its landing tick a result writes its registers (a write of w0 is discarded), predicates and flags; CLRF clears the flags
its modifier names unless one was set in the same tick; a MAC accumulates or saturates with S; ACM writes its part; a load
without a check error writes the word of the engine's local data; a store writes that word and no other. A late completion
is a late event that names the plan word and still lands. A write of a register that a later instruction has written in the
same tick has no effect. The least slack is kept, but not that of an entry sample (R158). Without a result due so, none held
back by an earlier one for the same accumulator or the local memory, nothing changes. A command whose condition does not
hold leaves the state as it was: the model's choice (log entry 8). -/
def Obligations.ServiceAndLanding : Prop :=
  (∀ (s : State) (r : Req), s.wf → r ∈ s.reqs → r.acc ≤ s.now → s.now ≤ r.acc + 1 → isShared r.addr.toNat = true →
    r.master < 1024 → tabGet 0 s.served (pointOf r.addr) ≠ s.now + 1 →
    (∀ q ∈ s.reqs, q.acc ≤ s.now → pointOf q.addr = pointOf r.addr → q ≠ r → servedBefore r q = true) →
    ∃ t, exec (.sharedAccessService (pointOf r.addr)) s = .next t ∧ t.reqs = s.reqs.erase r
      ∧ (∃ l ∈ (engine t r.master).fly, l.land = r.rel + 7 + r.hops ∧ l.cls = 5 ∧ l.word = r.word ∧ l.shared = true
        ∧ (∀ d, r.op = .load d → gate s r.master r.secure .read r.addr = none → chkOf s r.addr.toNat = .ok →
          l.effs = [.reg d (memGet s r.addr.toNat)])
        ∧ (∀ d, r.op = .load d → gate s r.master r.secure .read r.addr ≠ none → l.effs = [.reg d poison])
        ∧ (∀ v, r.op = .store v → l.effs = []))
      ∧ (∀ d, r.op = .load d → t.mem = s.mem)
      ∧ (∀ v, r.op = .store v → gate s r.master r.secure .write r.addr = none → memAfter s t r.addr.toNat v)
      ∧ (∀ v, r.op = .store v → gate s r.master r.secure .write r.addr ≠ none → t.mem = s.mem)
      ∧ (∀ j, j ≠ r.master → engine t j = engine s j))
  ∧ (∀ (e : Fin 1028) (s : State) (slack : Nat), s.wf → leadsJoined s e = false →
    (∀ late, ((engine s e).fly.find? fun l => l.land + late == s.now && !heldBack (engine s e).fly l) = none →
      exec (.resultLanding e late slack) s = .next s)
    ∧ (∀ l, ((engine s e).fly.find? fun l => l.land + 0 == s.now && !heldBack (engine s e).fly l) = some l →
      ∃ t, exec (.resultLanding e 0 slack) s = .next t
      ∧ (engine t e).fly = (engine s e).fly.erase l ∧ (∀ j, j ≠ e.val → engine t j = engine s j) ∧ (engine t e).evq = (engine s e).evq
      ∧ (engine t e).minSlack = (if l.entry then (engine s e).minSlack else min (engine s e).minSlack (min slack 255))
      ∧ (∀ d v, l.effs = [.reg d v] → superseded s.now l.ord (engine s e) (.reg d v) = true →
        t.mem = s.mem ∧ (engine t e).w = (engine s e).w ∧ (engine t e).p = (engine s e).p)
      ∧ ((∀ f ∈ l.effs, superseded s.now l.ord (engine s e) f = false) →
        (∀ d v, l.effs = [.reg d v] → t.mem = s.mem ∧ (engine t e).p = (engine s e).p
        ∧ (∀ r, r % 64 ≠ 0 → wGet (engine t e) r = if d % 64 = r % 64 then v else wGet (engine s e) r)
        ∧ (engine t e).fV = (engine s e).fV ∧ (engine t e).fS = (engine s e).fS ∧ (engine t e).fD = (engine s e).fD
        ∧ (engine t e).ac0 = (engine s e).ac0 ∧ (engine t e).ac1 = (engine s e).ac1)
      ∧ (∀ d v, l.effs = [.reg d v, .flag 0] → t.mem = s.mem ∧ (engine t e).fV = true
        ∧ (∀ r, r % 64 ≠ 0 → wGet (engine t e) r = if d % 64 = r % 64 then v else wGet (engine s e) r)
        ∧ (engine t e).fS = (engine s e).fS ∧ (engine t e).fD = (engine s e).fD)
      ∧ (∀ n v, l.effs = [.pred n v] → t.mem = s.mem ∧ (engine t e).w = (engine s e).w
        ∧ (∀ k, k % 8 ≠ 0 → pGet (engine t e) k = if n % 8 = k % 8 then v else pGet (engine s e) k))
      ∧ (∀ m, l.effs = [.clear m] → t.mem = s.mem ∧ (engine t e).w = (engine s e).w
        ∧ (engine t e).fV = ((engine s e).fV && !(m.testBit 0 && decide ((engine s e).setV ≠ l.land + 1)))
        ∧ (engine t e).fS = ((engine s e).fS && !(m.testBit 1 && decide ((engine s e).setS ≠ l.land + 1)))
        ∧ (engine t e).fD = ((engine s e).fD && !(m.testBit 2 && decide ((engine s e).setD ≠ l.land + 1))))
      ∧ (∀ one zero neg prod, l.effs = [.mac one zero neg prod] → t.mem = s.mem ∧ (engine t e).w = (engine s e).w
        ∧ accumulates (engine s e) (engine t e) one zero neg prod)
      ∧ (∀ one part v, part < 3 → l.effs = [.acm one part v] → t.mem = s.mem ∧ (engine t e).w = (engine s e).w
        ∧ writesPart (engine s e) (engine t e) one part v)
      ∧ (∀ off d, l.effs = [.load off d] → chkOf s (0x01000000 + e.val * 0x2000 + off % 8192) = .ok → t.mem = s.mem
        ∧ (∀ r, r % 64 ≠ 0 → wGet (engine t e) r =
          if d % 64 = r % 64 then memGet s (0x01000000 + e.val * 0x2000 + off % 8192) else wGet (engine s e) r))
      ∧ (∀ off v, l.effs = [.store off v] → (engine t e).w = (engine s e).w
        ∧ memAfter s t (0x01000000 + e.val * 0x2000 + off % 8192) v)))
    ∧ (∀ late l, 0 < late → ((engine s e).fly.find? fun l => l.land + late == s.now && !heldBack (engine s e).fly l) = some l →
      ∃ t, exec (.resultLanding e late slack) s = .next t
      ∧ (engine t e).fly = (engine s e).fly.erase l ∧ bitOf t fabStatus 0 = true ∧ (l.entry = false → (engine t e).minSlack = 0)
      ∧ (s.late.length < 16 → (∀ off d, .load off d ∉ l.effs) → ∃ n m, t.late = s.late
        ++ [(word (0x101 * 2 ^ 24 + e.val % 2048 * 2 ^ 13 + l.word % 4096), n, m)])
      ∧ (∀ d v, l.effs = [.reg d v] → superseded s.now l.ord (engine s e) (.reg d v) = false → ∀ r, r % 64 ≠ 0 →
        wGet (engine t e) r = if d % 64 = r % 64 then v else wGet (engine s e) r)))

/-- JMP continues at wa; CALL also writes the next address to wd; ERET returns to the saved address and world; TRAP enters
the handler with cause 8 and the code wa[11:0]; MFSR and MTSR reach the five translation and exception registers, TTB_S from
the secure world alone; TLBI drops translations; FENCE has no further effect once earlier accesses are complete; IDLE rests;
BEAT strobes the supervisor heartbeat; SWC enters the secure world and SWR leaves it. TLBI and SWR from the normal world and
SWC from the secure world enter the exception handler with cause 7 and have no other effect. CAS on a word of private memory
returns it and writes wd's value where it equals wb. A supervisor engine with a notice of a refused write pending enters its
handler with cause 3 and the record's number instead of issuing any SYS function. -/
def Obligations.SupervisorFunctions : Prop :=
  (∀ (e : Fin 1028) (f : RegForm) (s u : State) (x : Engine) (y z : Sup), u.wf → x = engine u e → y = supOf u e →
    z = { y with pc := y.pc + 1 } → x.loops = [] → condHolds x f.neg f.pred = true → x.lockOpen = false →
    (supReady s e (.jmp e f) u → ∃ t, exec (.jmp e f) s = .next t ∧ sysLeaves u t e { z with pc := opA x f })
    ∧ (supReady s e (.call e f) u → ∃ t, exec (.call e f) s = .next t ∧ supOf t e = { z with pc := opA x f }
      ∧ (∀ r, r % 64 ≠ 0 → wGet (engine t e) r = if f.d.toNat = r % 64 then y.pc + 1 else wGet x r) ∧ t.mem = u.mem)
    ∧ (supReady s e (.eret e f) u → ∃ t, exec (.eret e f) s = .next t
      ∧ sysLeaves u t e { z with pc := y.excPc, secure := y.excSecure })
    ∧ (supReady s e (.trap e f) u → ∃ t va, exec (.trap e f) s = .next t
      ∧ sysLeaves u t e (inHandler z 8 0 ((opA x f).toNat % 4096) va y.pc))
    ∧ (supReady s e (.mfsr e f) u → ∃ t v, exec (.mfsr e f) s = .next t ∧ supOf t e = z ∧ t.mem = u.mem
      ∧ (∀ r, r % 64 ≠ 0 → wGet (engine t e) r = if f.d.toNat = r % 64 then v else wGet x r)
      ∧ ((opA x f).toNat % 4096 = 1 → v = y.ttbS) ∧ ((opA x f).toNat % 4096 = 2 → v = y.ttbN)
      ∧ ((opA x f).toNat % 4096 = 16 → v = y.cause) ∧ ((opA x f).toNat % 4096 = 17 → v = y.excVa)
      ∧ ((opA x f).toNat % 4096 = 18 → v = y.excPc))
    ∧ (supReady s e (.mtsr e f) u → ∃ t va, exec (.mtsr e f) s = .next t
      ∧ ((opA x f).toNat % 4096 = 1 → y.secure = true → sysLeaves u t e { z with ttbS := opB x f })
      ∧ ((opA x f).toNat % 4096 = 1 → y.secure = false → sysLeaves u t e (inHandler z 7 0 0 va y.pc))
      ∧ ((opA x f).toNat % 4096 = 2 → sysLeaves u t e { z with ttbN := opB x f }))
    ∧ (supReady s e (.tlbi e f) u → y.secure = true → ∃ t, exec (.tlbi e f) s = .next t
      ∧ ((opB x f).getLsbD 0 = true → sysLeaves u t e { z with tlb := [] })
      ∧ ((opB x f).getLsbD 0 = false →
        sysLeaves u t e { z with tlb := y.tlb.filter fun k => k.2.1 != slice (opA x f).toNat 31 12 }))
    ∧ (supReady s e (.fence e f) u → ∃ t, exec (.fence e f) s = .next t ∧ sysLeaves u t e z)
    ∧ (supReady s e (.idle e f) u → ∃ t, exec (.idle e f) s = .next t ∧ sysLeaves u t e z ∧ (engine t e).rest = .sleep)
    ∧ (supReady s e (.beat e f) u → ∃ t, exec (.beat e f) s = .next t ∧ sysLeaves u t e z ∧ t.nwt.strobe = u.now)
    ∧ (supReady s e (.swc e f) u → y.secure = false → ∃ t, exec (.swc e f) s = .next t
      ∧ sysLeaves u t e { z with secure := true, pc := Config.secureEntry })
    ∧ (supReady s e (.swr e f) u → y.secure = true → ∃ t, exec (.swr e f) s = .next t
      ∧ sysLeaves u t e { z with secure := false }))
  ∧ ((∀ (e : Fin 1028) (f : RegForm) (s u : State) (x : Engine) (y : Sup), u.wf → x = engine u e → y = supOf u e →
    x.loops = [] → condHolds x f.neg f.pred = true → x.lockOpen = false →
    (supReady s e (.tlbi e f) u → y.secure = false → ∃ t va, exec (.tlbi e f) s = .next t
      ∧ sysLeaves u t e (inHandler { y with pc := y.pc + 1 } 7 0 0 va y.pc))
    ∧ (supReady s e (.swr e f) u → y.secure = false → ∃ t va, exec (.swr e f) s = .next t
      ∧ sysLeaves u t e (inHandler { y with pc := y.pc + 1 } 7 0 0 va y.pc))
    ∧ (supReady s e (.swc e f) u → y.secure = true → ∃ t va, exec (.swc e f) s = .next t
      ∧ sysLeaves u t e (inHandler { y with pc := y.pc + 1 } 7 0 0 va y.pc))
    ∧ (∀ a w, supReady s e (.cas e f) u → y.tlb.find? (fun t => t.1 == y.secure && t.2.1 == slice (opA x f).toNat 31 12) = some w →
      (opA x f).toNat < 2 ^ 32 → physical y { rd := true, wr := true } (opA x f).toNat w.2.2 = .to true a →
      ∃ t, exec (.cas e f) s = .next t
        ∧ (∀ r, r % 64 ≠ 0 → wGet (engine t e) r = if f.d.toNat = r % 64 then privGet u a else wGet x r)
        ∧ privGet t a = (if privGet u a = opB x f then opD x f else privGet u a)
        ∧ (∀ b, b ≠ a → privGet t b = privGet u b) ∧ t.mem = u.mem))
  ∧ (∀ (i : Instr) (e : Fin 1028) (delta : Nat) (neg : Bool) (pred : BitVec 3) (k : UnitKind) (s : State) (n : Nat)
      (ns : List Nat), instrForm i = some (e, delta, neg, pred, k) → s.wf → 1024 ≤ e.val → wellFormed i = true →
      supWaits (engine s e) = false → haltsNow s e = false → (supOf s e).notices = n :: ns →
      ∃ t, exec i s = .next t
        ∧ supOf t e = inHandler { supOf s e with notices := ns } 3 0 n 0 (supOf s e).pc
        ∧ t.eng = s.eng ∧ t.mem = s.mem ∧ t.priv = s.priv))

/-- The oldest entry of the pair input buffer is delivered D ticks after its capture and not before: an LDS word to its
register, a time stamp's words to consecutive registers, and the end of a wait with its outcome. A lost input delivers
poison, or a wait's deadline. An uncorrectable entry raises 0x302 and its mismatch record with the plan word of the input.
No other engine changes. With the comparator armed, a leading transaction and the trailing one D ticks later are taken
together in a later tick than the trailing one's. Where kind and fields agree, or at DONE the state signatures, nothing else
changes. Where a field differs, fault 0x301 is raised, MISM is set and a record with the pair, kind, plan word and both
values joins the queue; in ACTIVE the day is broken and its heartbeat withheld. A comparator that is not armed does nothing.
A command whose condition does not hold leaves the state as it was: the model's choice (log entry 8). -/
def Obligations.PairInputsAndComparator : Prop :=
  (∀ (k : Fin 512) (s : State) (b : BufEnt) (rest : List BufEnt), s.wf → (pairOf s k).buf = b :: rest →
    (∀ uncor, s.now < b.tick + (pairOf s k).d → exec (.pairInputReplay k uncor) s = .next s)
    ∧ (b.tick + (pairOf s k).d ≤ s.now → ∃ t, exec (.pairInputReplay k false) s = .next t
      ∧ pairOf t k = { pairOf s k with buf := rest } ∧ (∀ j, j ≠ 2 * k.val + 1 → engine t j = engine s j)
      ∧ t.mem = s.mem ∧ t.regs = s.regs
      ∧ (∀ d v, b.inp = .lds d v → ∀ r, r % 64 ≠ 0 → wGet (engine t (2 * k.val + 1)) r =
        if d % 64 = r % 64 then (if b.lost then poison else v) else wGet (engine s (2 * k.val + 1)) r)
      ∧ (∀ d x y z, d + 3 ≤ 64 → 0 < d → b.inp = .tstamp d [x, y, z] → b.lost = false →
        wGet (engine t (2 * k.val + 1)) d = x ∧ wGet (engine t (2 * k.val + 1)) (d + 1) = y
          ∧ wGet (engine t (2 * k.val + 1)) (d + 2) = z)
      ∧ (b.inp = .waitT → (engine t (2 * k.val + 1)).rest = .run
        ∧ (engine t (2 * k.val + 1)).prev = b.tick + (pairOf s k).d)
      ∧ (∀ ev d m v, b.inp = .waitEv ev d m v → (engine t (2 * k.val + 1)).rest = .run
        ∧ (engine t (2 * k.val + 1)).prev = b.tick + (pairOf s k).d
        ∧ (d % 64 ≠ 0 → wGet (engine t (2 * k.val + 1)) d = if ev = true ∧ b.lost = false then v else 0)
        ∧ (m % 8 ≠ 0 → pGet (engine t (2 * k.val + 1)) m = (ev && !b.lost))))
    ∧ (b.tick + (pairOf s k).d ≤ s.now → b.lost = false → ∃ t, exec (.pairInputReplay k true) s = .next t
      ∧ bitOf t cmpStatus 1 = true ∧ ((pairOf s k).safety = false → reg t midLastF = word 0x302)
      ∧ (s.mism.length < 16 → t.mism = s.mism
        ++ [(word (0x302 * 2 ^ 24 + k.val * 2 ^ 15 + 7 * 2 ^ 12 + b.word % 4096), 0, 0)])
      ∧ (∀ j, j ≠ 2 * k.val + 1 → engine t j = engine s j)))
  ∧ (∀ (k : Fin 512) (s : State) (a b : Tx) (ls ts : List Tx), s.wf → (pairOf s k).lead = a :: ls → (pairOf s k).trail = b :: ts →
    ((pairOf s k).armed = false → exec (.comparatorCheck k) s = .next s)
    ∧ ((pairOf s k).armed = true → b.tick = a.tick + (pairOf s k).d → s.now ≤ b.tick → exec (.comparatorCheck k) s = .next s)
    ∧ ((pairOf s k).armed = true → b.tick = a.tick + (pairOf s k).d → b.tick < s.now → a.kind = b.kind →
      (a.kind ≠ 5 → a.fields = b.fields → ∃ t, exec (.comparatorCheck k) s = .next t
        ∧ t = { s with pairs := t.pairs } ∧ pairOf t k = { pairOf s k with lead := ls, trail := ts }
        ∧ ∀ j, j ≠ k.val → pairOf t j = pairOf s j)
      ∧ (a.kind = 5 → pendingResults s (2 * k.val) = [] → pendingResults s (2 * k.val + 1) = [] → (pairOf s k).buf = [] →
        signedAt (engine s (2 * k.val)) a.tick ≤ s.now → signedAt (engine s (2 * k.val + 1)) b.tick ≤ s.now → signature (engine s (2 * k.val)) = signature (engine s (2 * k.val + 1)) → ∃ t, exec (.comparatorCheck k) s = .next t
        ∧ t = { s with pairs := t.pairs } ∧ pairOf t k = { pairOf s k with lead := ls, trail := ts })
      ∧ (∀ x y, a.kind ≠ 5 → a.kind < 5 → a.fields ≠ b.fields → firstDiff a.fields b.fields = some (x, y) →
        ∃ t, exec (.comparatorCheck k) s = .next t ∧ pairOf t k = { pairOf s k with lead := ls, trail := ts }
        ∧ bitOf t cmpStatus 0 = true ∧ t.eng = s.eng ∧ t.mem = s.mem ∧ t.reqs = s.reqs
        ∧ (s.mism.length < 16 → t.mism = s.mism
          ++ [(word (0x301 * 2 ^ 24 + k.val * 2 ^ 15 + a.kind * 2 ^ 12 + a.word % 4096), x, y)])
        ∧ (s.mst = .active → t.day.broken = true ∧ t.day.beatHeld = true ∧ t.day.halted = true
          ∧ bitOf t fabStatus 0 = true)
        ∧ (s.mst = .bench → t.day = s.day ∧ bitOf t fabStatus 0 = true)
        ∧ (s.mst ≠ .active → t.day = s.day))))

/-- A comparator self-test that reports leaves everything; one that does not raises 0x305, sets STFAIL and makes its record.
A detector self-test that reports no late completion is late event 0x116. The register copies of ticks 1 to 70 of a join day
give a trailing engine its leader's registers, accumulators, predicates and flags, and at tick 71 the comparator is armed,
and at no other. The image of an engine that ran and rests after DONE is captured in ACTIVE. A measurement shows the mean of
the last 8 and the junction temperature; one that fails shows 0xFFF with MONFAIL and fault 0x115. A command whose condition
does not hold leaves the state as it was: the model's choice (log entry 8). -/
def Obligations.SelfTestsArmingAndMonitors : Prop :=
  ∀ (s : State), s.wf →
    (∀ (k : Fin 512) (x y : Word), exec (.comparatorSelfTest k true x y) s = .next s)
    ∧ (∀ (k : Fin 512) (x y : Word), restsNow (engine s (2 * k.val)) = true → restsNow (engine s (2 * k.val + 1)) = true →
      ∃ t, exec (.comparatorSelfTest k false x y) s = .next t ∧ bitOf t cmpStatus 2 = true ∧ t.eng = s.eng ∧ t.mem = s.mem
        ∧ (s.mism.length < 16 → t.mism = s.mism ++ [(word (0x305 * 2 ^ 24 + k.val * 2 ^ 15), x, y)]))
    ∧ (∀ (c : Fin 64), exec (.detectorSelfTest c true) s = .next s)
    ∧ (∀ (c : Fin 64), (∀ i < 16, restsNow (engine s (16 * c.val + i)) = true) →
      ∃ t, exec (.detectorSelfTest c false) s = .next t ∧ bitOf t fabStatus 7 = true ∧ bitOf t fabStatus 0 = true
        ∧ t.eng = s.eng ∧ t.mem = s.mem)
    ∧ (∀ (k : Fin 512), (pairOf s k).joined = true → (pairOf s k).armed = false → dayTick s = 71 →
      ∃ t, exec (.comparatorArm k) s = .next t ∧ (pairOf t k).armed = true ∧ (pairOf t k).buf = [] ∧ (pairOf t k).joined = true
        ∧ (∀ j, j ≠ k.val → pairOf t j = pairOf s j) ∧ t = { s with pairs := t.pairs })
    ∧ (∀ (k : Fin 512), dayTick s ≠ 71 → exec (.comparatorArm k) s = .next s)
    ∧ (∀ (x y z : Engine), rising y.w → z = (List.range 70).foldl (fun y i => copyWord (i + 1) x y) y →
      (∀ r, wGet z r = wGet x r) ∧ z.ac0 = x.ac0 ∧ z.ac1 = x.ac1 ∧ z.p = x.p ∧ z.fV = x.fV ∧ z.fS = x.fS ∧ z.fD = x.fD)
    ∧ (∀ (e : Fin 1024), s.mst = .active → trailsJoined s e = false → (engine s e).ran = true → (engine s e).rest = .done →
      (engine s e).fly = [] → ∃ t, exec (.engineImageCapture e) s = .next t
        ∧ t = { s with link := t.link } ∧ tabGet [] t.link.images e = engineImage s e)
    ∧ (∀ (c : Fin 64) (i : BitVec 12) (j : BitVec 9), ∃ t l, exec (.speedMeasurement c (some i) (some j)) s = .next t
        ∧ l = (i.toNat :: tabGet [] s.speeds c).take 8 ∧ getF t (fabSpeed c) 11 0 = l.sum / l.length % 4096
        ∧ getF t (fabSpeed c) 20 12 = j.toNat ∧ regsKept [fabSpeed c] s t ∧ t.mem = s.mem ∧ t.eng = s.eng)
    ∧ (∀ (c : Fin 64) (i : Option (BitVec 12)) (j : Option (BitVec 9)), i = none ∨ j = none →
      ∃ t, exec (.speedMeasurement c i j) s = .next t ∧ getF t (fabSpeed c) 11 0 = 0xFFF ∧ bitOf t fabStatus 6 = true
        ∧ raised 0x115 (16 * c.val) s t ∧ regsKeptF [fabSpeed c, fabStatus] s t ∧ t.mem = s.mem ∧ t.eng = s.eng)

/-- A scrub of a word with three equal intact copies changes no copy; with one copy different it raises 0x310 and queues a
repair with the majority; with three different copies it raises 0x313, sets SPLIT and queues none. A queued repair is made
when no request stands at the store, and leaves three equal copies. A visit that is granted holds its point for the tick;
one whose point a numbered master's request holds is not made. A scrubbed memory word found with a single error is rewritten
with fault 0x130, and one found uncorrectable raises 0x131 and is kept. A command whose condition does not hold leaves the
state as it was: the model's choice (log entry 8). -/
def Obligations.TripleStoreAndScrubbing : Prop :=
  ∀ (s : State), s.wf → (backgroundFree s 0x03000000 = true →
    (∀ (off : Fin 65536) (v : Word), s.tsSplit.contains off.val = false → tsWord s off = { c1 := v, c2 := v, c3 := v } →
      ∃ t, exec (.tripleStoreScrub off none) s = .next t ∧ tsWord t off = tsWord s off
        ∧ t = { s with ts := t.ts, served := t.served, tk := t.tk } ∧ tabGet 0 t.served 1088 = s.now + 1
        ∧ ∀ o, o ≠ off.val → tsWord t o = tsWord s o)
    ∧ (∀ (off : Fin 65536) (v w : Word), s.tsSplit.contains off.val = false → tsWord s off = { c1 := v, c2 := v, c3 := v } → w ≠ v →
      s.tsRepairs.any (·.1 == off.val) = false → s.tsRepairs.length < 8 →
      ∃ t, exec (.tripleStoreScrub off (some (2, w, .ok))) s = .next t ∧ t.tsRepairs = s.tsRepairs ++ [(off.val, v)]
        ∧ bitOf t cmpTsStat 1 = true ∧ raised 0x310 off s t ∧ tsWord t off = { c1 := v, c2 := v, c3 := w }
        ∧ regsKeptF [cmpTsStat] s t)
    ∧ (∀ (off : Fin 65536) (x y z : Word), x ≠ y → x ≠ z → y ≠ z → 0x8400 ≤ off.val → s.tsSplit.contains off.val = false →
      tsWord s off = { c1 := x, c2 := y, c3 := z } → ∃ t, exec (.tripleStoreScrub off none) s = .next t
        ∧ bitOf t cmpTsStat 0 = true ∧ getF t cmpTsStat 19 4 = off.val ∧ t.tsSplit.contains off.val = true
        ∧ t.tsRepairs = s.tsRepairs ∧ raised 0x313 off s t ∧ tsPeek t off = poison)
    ∧ (∀ (off : Nat) (v : Word) (rs : List (Nat × Word)), s.tsRepairs = (off, v) :: rs →
      ∃ t, exec .tripleStoreRepair s = .next t ∧ tsWord t off = { c1 := v, c2 := v, c3 := v } ∧ t.tsRepairs = rs
        ∧ regsKept [cmpTsCnt] s t ∧ getF t cmpTsCnt 11 0 = Nat.min (getF s cmpTsCnt 11 0 + 1) 4095
        ∧ tabGet 0 t.served 1088 = s.now + 1 ∧ ∀ o, o ≠ off → tsWord t o = tsWord s o))
    ∧ (backgroundFree s 0x03000000 = false → exec .tripleStoreRepair s = .next s
      ∧ ∀ (off : Fin 65536), ∃ t, exec (.tripleStoreScrub off none) s = .next t ∧ t = { s with ts := t.ts }
        ∧ ∀ o, tsWord t o = tsWord s o)
    ∧ (∀ (a : BitVec 32) (found : Chk), backgroundFree s a.toNat = false → exec (.memoryScrub a found) s = .next s)
    ∧ (∀ (a : BitVec 32), isShared a.toNat = true → chkOf s a.toNat = .ok → backgroundFree s a.toNat = true →
      (∃ t, exec (.memoryScrub a .ok) s = .next t ∧ t = { s with served := t.served, tk := t.tk }
        ∧ tabGet 0 t.served (pointOf (word a.toNat)) = s.now + 1)
      ∧ (∃ t, exec (.memoryScrub a .single) s = .next t ∧ raised 0x130 a.toNat s t ∧ chkOf t a.toNat = .ok ∧ t.mem = s.mem
        ∧ regsKeptF [fabMemErr] s t)
      ∧ (∃ t, exec (.memoryScrub a .uncor) s = .next t ∧ raised 0x131 a.toNat s t ∧ chkOf t a.toNat = .uncor ∧ t.mem = s.mem
        ∧ regsKeptF [fabMemErr] s t))
    ∧ (∀ (i : Fin 32), exec (.analogueRecalibration i) s = .next s)

/-- A granted read of a record queue whose point is free answers the oldest record and removes it, with its companion words
latched in the registers that hold them; of a queue empty, or empty at the start of the tick, poison, and nothing is
removed. A trace read answers the head record's words in turn. A read of DAY_NUML or TIM_CLKNS latches the higher words for
its master. A refused read answers poison and leaves the queues. A read whose point is taken only waits, to retry in the
next tick. An access whose point is free: a granted write of a plain register keeps every field that is not RW, takes the RW
fields and clears the W1C bits written 1 that the module has not set in this tick. A granted read of a register with RC
fields answers and clears what they held before this tick, and keeps its events. A read of the random register draws a fresh
free word while the generator is ready, which reseeds first where 2^20 requests or 1 s have passed, and shows 0 before. A
region entry is written from the next tick on while the day sequencer is stopped, into the shadow table while it runs, and
not at all when locked, with fault 0xB04. A refused write changes no register but the gate's own. -/
def Obligations.RegisterAccess : Prop :=
  (∀ (m : Fin 1032) (sec : Bool) (s : State), s.wf →
    (gate s m (worldOf s m) .read 0x04010008#36 = none → blockedAt s m 0 0x04010008 = false →
      ∃ t, exec (.fabLateRead m sec) s = .next t ∧ tabGet 0 t.served (pointOf 0x04010008) = s.now + 1
      ∧ t.late = (if bornNow s 0x04010008 then s.late else s.late.tail) ∧ regsKept [fabLateSch, fabLateAct] s t ∧ t.mem = s.mem
      ∧ t.out = s.out ++ [.read 0x04010008 (if bornNow s 0x04010008 then poison else (s.late.head?.map (·.1)).getD poison)]
      ∧ (∀ r ∈ s.late.head?, bornNow s 0x04010008 = false → reg t fabLateSch = word r.2.1 ∧ reg t fabLateAct = word r.2.2))
    ∧ (gate s m (worldOf s m) .read 0x04020040#36 = none → blockedAt s m 0 0x04020040 = false →
      ∃ t, exec (.dayOvrRead m sec) s = .next t
      ∧ t = { s with
        ovr := if bornNow s 0x04020040 then s.ovr else s.ovr.tail, fresh := t.fresh, served := t.served, tk := t.tk
        out := s.out ++ [.read 0x04020040 (if bornNow s 0x04020040 then poison else s.ovr.headD poison)] })
    ∧ (gate s m (worldOf s m) .read 0x04030008#36 = none → blockedAt s m 0 0x04030008 = false →
      ∃ t, exec (.cmpMismRead m sec) s = .next t
      ∧ t.mism = (if bornNow s 0x04030008 then s.mism else s.mism.tail) ∧ regsKept [cmpLead, cmpTrail] s t ∧ t.mem = s.mem
      ∧ t.out = s.out ++ [.read 0x04030008 (if bornNow s 0x04030008 then poison else (s.mism.head?.map (·.1)).getD poison)]
      ∧ (∀ r ∈ s.mism.head?, bornNow s 0x04030008 = false → reg t cmpLead = r.2.1 ∧ reg t cmpTrail = r.2.2))
    ∧ (gate s m (worldOf s m) .read 0x040C0008#36 = none → blockedAt s m 0 0x040C0008 = false →
      ∃ t, exec (.gateViolRead m sec) s = .next t
      ∧ t.viol = (if bornNow s 0x040C0008 then s.viol else s.viol.tail) ∧ regsKept [gateViolAddr, gateViolTick] s t ∧ t.mem = s.mem
      ∧ t.out = s.out ++ [.read 0x040C0008 (if bornNow s 0x040C0008 then poison else (s.viol.head?.map (·.1)).getD poison)]
      ∧ (∀ r ∈ s.viol.head?, bornNow s 0x040C0008 = false → reg t gateViolAddr = word r.2.1 ∧ reg t gateViolTick = word r.2.2))
    ∧ (gate s m (worldOf s m) .read 0x04100018#36 = none → blockedAt s m 0 0x04100018 = false → bornNow s 0x04100018 = false →
      ∃ t, exec (.dbgTrrdRead m sec) s = .next t
      ∧ t.out = s.out ++ [.read 0x04100018 ((s.trace.mem.headD []).getD s.trace.readPos poison)]
      ∧ t.regs = s.regs ∧ t.mem = s.mem ∧ t.trace.intake = s.trace.intake
      ∧ (s.trace.mem = [] → t.trace = s.trace)
      ∧ (s.trace.mem ≠ [] → s.trace.readPos < 3 → t.trace.mem = s.trace.mem ∧ t.trace.readPos = s.trace.readPos + 1)
      ∧ (s.trace.mem ≠ [] → 3 ≤ s.trace.readPos → t.trace.mem = s.trace.mem.tail ∧ t.trace.readPos = 0))
    ∧ (gate s m (worldOf s m) .read 0x04020002#36 = none → blockedAt s m 0 0x04020002 = false →
      ∃ t, exec (.dayNumlRead m sec) s = .next t
      ∧ t = { s with
        latch := t.latch, fresh := t.fresh, served := t.served, tk := t.tk
        out := s.out ++ [.read 0x04020002 (word (s.day.n % 2 ^ 36))] }
      ∧ viewReg t m 0x04020003 = word (s.day.n / 2 ^ 36 % 4096)
      ∧ ∀ k, k ≠ 8 * m.val → tabGet 0 t.latch k = tabGet 0 s.latch k)
    ∧ (gate s m (worldOf s m) .read 0x04050002#36 = none → blockedAt s m 0 0x04050002 = false →
      ∃ t, exec (.timClknsRead m sec) s = .next t
      ∧ t = { s with
        latch := t.latch, fresh := t.fresh, served := t.served, tk := t.tk
        out := s.out ++ [.read 0x04050002 (word s.time.ns64)] }
      ∧ viewReg t m 0x04050003 = word (s.time.sec / 2 ^ 36 % 4096) ∧ viewReg t m 0x04050004 = word (s.time.sec % 2 ^ 36))
    ∧ (∀ r, gate s m (worldOf s m) .read 0x04010008#36 = some r → blockedAt s m 0 0x04010008 = false →
      ∃ t, exec (.fabLateRead m sec) s = .next t ∧ t.late = s.late ∧ t.out = s.out ++ [.read 0x04010008 poison])
    ∧ (blockedAt s m 0 0x04010008 = true → ∃ t, exec (.fabLateRead m sec) s = .next t
      ∧ t = { s with waiters := t.waiters } ∧ ⟨s.now + 1, pointOf 0x04010008, m, 0⟩ ∈ t.waiters ∧ ∀ w ∈ s.waiters, w ∈ t.waiters))
  ∧ (∀ (m : Fin 1032) (sec : Bool) (s : State), s.wf →
    (∀ (a v : Word) (d : RegDesc), gate s m (worldOf s m) .write a = none → regDesc a.toNat = some d →
      a.toNat / 0x10000 = 0x401 ∨ a.toNat / 0x10000 = 0x403 ∨ a.toNat / 0x10000 = 0x407 → blockedAt s m 0 a.toNat = false →
      ∃ t, exec (.registerWrite m sec a v) s = .next t ∧ t = { s with regs := t.regs, served := t.served, tk := t.tk }
        ∧ regsKept [a.toNat] s t
        ∧ ∀ k < 36, (reg t a.toNat).getLsbD k = (if d.rw.testBit k then v.getLsbD k
          else (reg s a.toNat).getLsbD k) && !(v.getLsbD k && d.w1c.testBit k && !(tabGet 0 s.tk.sets a.toNat).getLsbD k))
    ∧ (∀ (a v : Word) (r : Nat × Nat), gate s m (worldOf s m) .write a = some r → blockedAt s m 0 a.toNat = false →
      ∃ t, exec (.registerWrite m sec a v) s = .next t ∧ regsKeptF [gateStatus, gateCnt, cmpStatus] s t ∧ t.mem = s.mem ∧ t.ts = s.ts
        ∧ bitOf t gateStatus 0 = true ∧ t.violSeq = (s.violSeq + 1) % 4096
        ∧ (s.viol.length < 32 → t.viol.length = s.viol.length + 1)
        ∧ (s.viol.length < 32 → s.tk.viols = 0 →
          t.viol = s.viol ++ [(violWord s.violSeq m (worldOf s m) true r.1 r.2 false, a.toNat, dayTick s)]))
    ∧ (∀ (a : Word) (d : RegDesc), gate s m (worldOf s m) .read a = none → regDesc a.toNat = some d → d.rc ≠ 0 → isReg a.toNat = true →
      blockedAt s m 0 a.toNat = false →
      ∃ t v, exec (.counterReadClear m sec a) s = .next t ∧ t.out = s.out ++ [.read a.toNat v]
        ∧ (∀ k < 36, v.getLsbD k = match d.rc.testBit k, counted s a.toNat with
          | true, some c => c.1.getLsbD k
          | _, _ => (viewReg s m a.toNat).getLsbD k)
        ∧ regsKept [a.toNat] s t ∧ (∀ k < 36, (reg t a.toNat).getLsbD k = match d.rc.testBit k, counted s a.toNat with
          | true, some c => c.2.getLsbD k
          | true, none => false
          | false, _ => (reg s a.toNat).getLsbD k)
        ∧ t = { s with regs := t.regs, tk := t.tk, fresh := t.fresh, out := t.out, served := t.served })
    ∧ (∃ t, exec .secRngRead s = .next t ∧ t = { s with regs := t.regs, tk := t.tk, fresh := s.fresh + 1, rng := t.rng, out := t.out }
        ∧ t.out = s.out ++ [.read 0x040D0002 (if bitOf s secRngSt 0 = true then Config.freeWord s.fresh else 0)]
        ∧ regsKept [secRngSt] s t ∧ (bitOf s secRngSt 0 = false ∨ reseedDue s = false → t.regs = s.regs)
        ∧ t.rng = (if bitOf s secRngSt 0 = true then
            (if reseedDue s = true then { draws := 1, seededAt := s.now } else { s.rng with draws := s.rng.draws + 1 }) else s.rng))
    ∧ (∀ (n : Fin 256) (j : Fin 3) (v : Word), gate s m (worldOf s m) .write (word (gateR n j)) = none →
      blockedAt s m 0 (gateR n j) = false → ∃ t, exec (.gateRegionWrite m sec n j v) s = .next t ∧ t.mem = s.mem
        ∧ (regionLocked s n = true → raised 0xB04 m s t ∧ bitOf t gateStatus 2 = true ∧ regsKeptF [gateStatus] s t ∧ t.day = s.day)
        ∧ (regionLocked s n = false → s.day.run = false → t.regs = s.regs ∧ t.day = { s.day with midRegions := t.day.midRegions }
          ∧ (∀ x ∈ t.day.midRegions, x.1 ≠ gateR n j)
          ∧ reg (applyHw t) (gateR n j) = v &&& (if j.val = 2 then word (bits 35 30 + bits 21 0) else word (bits 31 0)))
        ∧ (regionLocked s n = false → s.day.run = true → t.regs = s.regs
          ∧ viewReg t m (gateR n j) = v &&& (if j.val = 2 then word (bits 35 30 + bits 21 0) else word (bits 31 0)))))

/-- A listed peer's connection at the stream's port joins the stream's peers, and at another port it is dropped traffic;
commands 1 and 2 turn its data off and on; commands 3, 5 and 6 send one header, CFG-2 or CFG-3 frame, with IDCODE first and
TIME_BASE, rate and CFG_CNT in the two configuration frames; command 8 changes nothing. Command 4 raises fault 0x620 whoever
sends it, and so does any command of an unlisted peer, which is dropped traffic too, with no other effect. A data frame
whose results are complete before t_r + 5/Fs is sent with IDCODE, SOC, FRACSEC and each block, over TCP after command 2 and
over UDP where configured, and fault 0x610 is raised once a day for a configuration with an invalid result; one incomplete
then raises fault 0x621. A first CFG-2 of a remote stream is answered by command 2, a changed one raises 0x622. A data frame
under the last CFG-2 and at the local rate is written to the stream's ring once its points are free, a marked value with
0x623; any other is ignored. Where the plan asks, it completes a location on a line of the stream: three words and the fault
of R370's table; the ends swapped, m from travelling waves becomes 1 − m. A stream silent for 3/Fs raises 0x622, and CFG-2
is asked for again once a second. A command whose condition does not hold leaves the state as it was: the model's choice
(log entry 8). -/
def Obligations.SynchrophasorStreams : Prop :=
  (∀ (i : Fin 8) (peer : BitVec 32) (port : BitVec 16) (s : State), s.wf →
    (peerListed s i peer = true →
      (tcpPort s i = port.toNat → ∃ t, exec (.c37ConnectionAccept i peer port) s = .next t ∧ t = { s with c37 := t.c37 }
        ∧ (∀ q, q ∈ (stream t i).peers ↔ q = peer ∨ q ∈ (stream s i).peers) ∧ (stream t i).on = (stream s i).on)
      ∧ (tcpPort s i ≠ port.toNat → ∃ t, exec (.c37ConnectionAccept i peer port) s = .next t ∧ dropped s t)
      ∧ (∃ t, exec (.c37DataOff i peer) s = .next t ∧ t = { s with c37 := t.c37 } ∧ stream t i = { stream s i with on := false })
      ∧ (∃ t, exec (.c37DataOn i peer) s = .next t ∧ t = { s with c37 := t.c37 } ∧ stream t i = { stream s i with on := true })
      ∧ exec (.c37SendHeader i peer) s = .next (emit (.c37 i 1 (tcpPort s i) (configFrame s i 3)) s)
      ∧ exec (.c37SendCfg2 i peer) s = .next (emit (.c37 i 2 (tcpPort s i) (configFrame s i 5)) s)
      ∧ exec (.c37SendCfg3 i peer) s = .next (emit (.c37 i 3 (tcpPort s i) (configFrame s i 6)) s)
      ∧ exec (.c37ExtendedFrameIgnored i peer) s = .next s)
    ∧ (∀ c, streamCfg s i = some c → (configFrame s i 3).head? = some (word c.idcode)
      ∧ ∀ cmd ∈ [5, 6], (configFrame s i cmd).take 4 = [word c.idcode, word (timeBase c.fs), word c.fs, word (stream s i).cfgCnt])
    ∧ (∃ t, exec (.c37Cfg1Ignored i peer) s = .next t ∧ t = logged s t ∧ raised 0x620 i s t)
    ∧ (peerListed s i peer = false → ∀ c ∈ [Instr.c37ConnectionAccept i peer port, .c37DataOff i peer, .c37DataOn i peer,
      .c37SendHeader i peer, .c37SendCfg2 i peer, .c37SendCfg3 i peer, .c37ExtendedFrameIgnored i peer],
      ∃ t, exec c s = .next t ∧ dropped s t ∧ (s.logQ.length < 256 → ∃ l ∈ t.logQ, l.code = 0x620 ∧ l.detail = i)
        ∧ (t.net = s.net → raised 0x620 i s t)))
  ∧ (∀ (s : State), s.wf →
    (∀ (i : Fin 8) (sec j : Nat) (c : StreamCfg) (rs : List BlockRes) (bs : List (Bool × Nat × List Word)),
      streamCfg s i = some c → blockResults s i sec j = some rs → frameData s i sec j = some bs → (stream s i).on = true ∨ c.udp = true →
      pastFrames s c.fs sec j 5 = false → ∃ t ws, exec (.c37DataFrameSend i sec j) s = .next t
        ∧ t.out = s.out ++ (if (stream s i).on then [.c37 i 0 c.tcpPort ws] else []) ++ (if c.udp then [.c37 i 0x20 c.udpPort ws] else [])
        ∧ ws.head? = some (word c.idcode) ∧ ws[1]? = some (wordI (socOf s sec))
        ∧ ws.drop 3 = bs.flatMap (fun b => statWord s i b.1 b.2.1 :: b.2.2)
        ∧ (invalidConfigs rs = [] → t = { s with out := t.out })
        ∧ (∀ k ∈ invalidConfigs rs, tabGet 0 t.c37.invalid k = s.day.n + 1)
        ∧ ((∃ k ∈ invalidConfigs rs, tabGet 0 s.c37.invalid k ≠ s.day.n + 1) → reg t midLastF = word 0x610))
    ∧ (∀ (i : Fin 8) (sec j : Nat), frameData s i sec j = none → streamSends s i = true →
      pastFrames s (streamFs s i) sec j 5 = true → exec (.c37DataFrameSend i sec j) s = .next s
        ∧ ∃ t, exec (.c37FrameTimeout i sec j) s = .next t ∧ t = logged s t ∧ raised 0x621 i s t)
    ∧ (∀ (r : Fin 16) (c : Nat) (fmt : BitVec 4) (k : RemoteCfg), remoteCfg s r = some k → k.fs ≠ 0 →
      ((remote s r).cfgCnt = none → ∃ t, exec (.remoteCfg2Receive r c fmt) s = .next t ∧ (remote t r).cfgCnt = some c
        ∧ (remote t r).fmt = fmt ∧ (remote t r).lost = false ∧ (remote t r).validAt = s.now
        ∧ t.out = s.out ++ [.c37 r 0x11 k.port []] ∧ t = { s with c37 := t.c37, out := t.out })
      ∧ (∀ b, (remote s r).cfgCnt = some b → b ≠ c → ∃ t, exec (.remoteCfg2Receive r c fmt) s = .next t
        ∧ (remote t r).cfgCnt = some c ∧ (remote t r).lost = true ∧ t.out = s.out ∧ t.mem = s.mem ∧ raised 0x622 r s t))
    ∧ (∀ (r : Fin 16) (f : RemoteData) (k : RemoteCfg), remoteCfg s r = some k → k.fs ≠ 0 → (remote s r).cfgCnt = some f.cfgCnt →
      f.rate = k.fs → (∀ l ∈ (phasorSec s).lines, l.remote ≠ r) → ∀ bad ws a,
      (bad = true ↔ f.dataError ≠ 0 ∨ 4 < f.quality.toNat) →
      ws = Config.remoteRecord s.boot.phasors r bad (remoteValues k (remote s r).fmt f s.fresh) →
      a = k.ring + (f.sec * k.fs + f.index) % Nat.max k.records 1 * ws.length →
      ((∃ n < ws.length, blockedAt s 1024 r (a + n) = true) →
        ∃ t, exec (.remoteDataFrameReceive r f) s = .next t ∧ t = { s with waiters := t.waiters })
      ∧ (pointsFree s 1024 r a ws.length → ∃ t, exec (.remoteDataFrameReceive r f) s = .next t ∧ (remote t r).validAt = s.now
        ∧ (bad = true → reg t midLastF = word 0x623)
        ∧ ((∀ n < ws.length, isShared (a + n) = true ∧ gate s 1024 false .write (word (a + n)) = none) →
          (∀ n, n < ws.length → memGet t (a + n) = ws.getD n 0)
          ∧ ∀ b, (∀ n < ws.length, b ≠ a + n) → memGet t b = memGet s b)))
    ∧ (∀ (r : Fin 16) (f : RemoteData) (k : RemoteCfg) (l : LineCfg) (rs : List BlockRes), remoteCfg s r = some k → k.fs ≠ 0 →
      (remote s r).cfgCnt = some f.cfgCnt → f.rate = k.fs → (phasorSec s).lines = [l] → l.remote = r →
      (∀ m, Config.flocAsked s.boot.phasors 0 m f.sec f.index = true
        ∧ Config.c37Results s.boot.phasors l.stream m f.sec f.index = some rs) →
      (∀ ws, (∃ bad, ws = Config.remoteRecord s.boot.phasors r bad (remoteValues k (remote s r).fmt f s.fresh)) →
        pointsFree s 1024 r (k.ring + (f.sec * k.fs + f.index) % Nat.max k.records 1 * ws.length) ws.length) →
      pointsFree s 1024 r l.record 3 →
      ∃ t q, exec (.remoteDataFrameReceive r f) s = .next t
        ∧ q = floc l (l.near.map ((((rs[l.block]?.map (·.phasors)).getD []).map fun p => (p.re, p.im)).getD · (0, 0)))
          (l.far.map ((farPhasors k (remote s r).fmt f s.fresh).getD · (0, 0)))
          (arrivalGap (s.c37.arrivals.find? (·.1 == l.wave)) (fun a => socOf s a.sec) l.farWave f.digitals)
        ∧ (∀ c, q.fault = some c → reg t midLastF = word c)
        ∧ ((∀ n < 3, isShared (l.record + n) = true ∧ gate s l.engine false .write (word (l.record + n)) = none) →
          ∀ n < 3, memGet t (l.record + n) = (flocRecord q l (s.fresh + 256 + f.others.length)).getD n 0))
    ∧ (∀ (l : LineCfg) (g n m : Int) (d e : Nat), waveRatio l (some g) = some (n, d) → waveRatio l (some (-g)) = some (m, e) →
      d = e ∧ n + m = d)
    ∧ (∀ (r : Fin 16) (f : RemoteData), (remote s r).cfgCnt ≠ some f.cfgCnt ∨ f.rate ≠ remoteFs s r →
      exec (.remoteDataFrameReceive r f) s = .next s)
    ∧ (∀ (r : Fin 16), remoteFs s r ≠ 0 → (remote s r).cfgCnt.isSome = true → (remote s r).lost = false →
      (remote s r).validAt + 750000000 / remoteFs s r ≤ s.now → ∃ t, exec (.remoteStreamLost r) s = .next t
        ∧ (remote t r).lost = true ∧ raised 0x622 r s t ∧ t.mem = s.mem ∧ regsKeptF [] s t)
    ∧ (∀ (r : Fin 16) (k : RemoteCfg), remoteCfg s r = some k → k.fs ≠ 0 → (remote s r).lost = true →
      (remote s r).askedAt + 250000000 ≤ s.now → ∃ t, exec (.remoteCfg2Rerequest r) s = .next t
        ∧ t.out = s.out ++ [.c37 r 0x10 k.port []] ∧ (remote t r).askedAt = s.now ∧ t = { s with c37 := t.c37, out := t.out }))

/-- At the cut the dirty words and captured images are frozen with what was not acknowledged, unless a run spans the cut or
the delta would exceed C; then it is abandoned with 0x70C or 0x709, and an ABANDON frame where a lane is up. Without a
joined standby what is dirty stays so. A DELTA frame carries the next run and engine records, a SWEEP frame words of the
share. The END frame closes the stream with N, the word count and the CRC, the change the day names beside it. An ACK of the
day releases the frozen set; without one Dusk raises 0x708, once the partner has left DAYBREAK. -/
def Obligations.CheckpointIsStreamed : Prop :=
  ∀ (s : State) (l : Link), s.wf → l = s.link → s.mst = .active →
    (s.day.run = true → dayTick s = phaseStart s 3 → s.day.cutDone = false → s.day.broken = false → l.joinAccepted = true →
      l.swRunning = false → ∃ t, exec .checkpointCut s = .next t ∧ t.day.cutDone = true ∧ t.mem = s.mem ∧ t.eng = s.eng
        ∧ t.link.dirty = [] ∧ t.link.images = []
        ∧ ((∀ e < 1024, straddles s e = false) →
          deltaWords ((addrMerge (allFrozen l) l.dirty).length + (imgMerge l.images (allImages l)).length + 1)
            (addrMerge (allFrozen l) l.dirty) (imgMerge l.images (allImages l)) ≤ slice (wordAt s.day.table 14) 23 0 →
          t.link.frozen = addrMerge (allFrozen l) l.dirty ∧ t.link.frozenImg = imgMerge l.images (allImages l)
            ∧ t.link.stream = true ∧ t.link.ckDay = s.day.n ∧ t.link.blocks = 0)
        ∧ ((∃ e < 1024, straddles s e = true) →
          deltaWords ((addrMerge (allFrozen l) l.dirty).length + (imgMerge l.images (allImages l)).length + 1)
            (addrMerge (allFrozen l) l.dirty) (imgMerge l.images (allImages l)) ≤ slice (wordAt s.day.table 14) 23 0 →
          t.link.stream = false ∧ reg t midLastF = word 0x70C ∧ t.out = s.out
            ++ (if linkUp s then [.pairFrame (anyLane s) (packFrame 5 0 [word (s.day.n % 2 ^ 36), word 3])] else []))
        ∧ (slice (wordAt s.day.table 14) 23 0 <
          deltaWords ((addrMerge (allFrozen l) l.dirty).length + (imgMerge l.images (allImages l)).length + 1)
            (addrMerge (allFrozen l) l.dirty) (imgMerge l.images (allImages l)) →
          t.link.stream = false ∧ t.link.frozen = [] ∧ t.link.sweepPos = 0 ∧ reg t midLastF = word 0x709
            ∧ t.out = s.out
              ++ (if linkUp s then [.pairFrame (anyLane s) (packFrame 5 0 [word (s.day.n % 2 ^ 36), word 4])] else [])))
    ∧ (s.day.run = true → dayTick s = phaseStart s 3 → s.day.cutDone = false → l.joinAccepted = false →
      ∃ t, exec .checkpointCut s = .next t ∧ t.day.cutDone = true ∧ t.link = l ∧ t.out = s.out ∧ t.mem = s.mem ∧ t.eng = s.eng)
    ∧ (∀ (k : Fin 2) (f : Frame), l.stream = true → laneUp s k = true → phaseOf s (dayTick s) = 3 → f = nextFrame l.frozen l.frozenImg →
      ¬(l.frozen = [] ∧ l.frozenImg = []) → (∀ r ∈ f.runs, ∀ i < r.2, (∃ x ∈ l.kept, x.1 = r.1 + i) ∨ ∃ v, linkReads s (r.1 + i) v) →
      (∀ r ∈ f.runs, ∀ i < r.2, blockedAt s masterLink k (r.1 + i) = false) →
      ∃ t, exec (.deltaFrameSend k) s = .next t ∧ t = { s with link := t.link, out := t.out, served := t.served, owed := t.owed, tk := t.tk }
        ∧ t.out = s.out ++ [.pairFrame k (packFrame 2 l.blocks (runRecords s f.runs ++ imageRecords f.imgs))]
        ∧ t.link.frozen = f.left ∧ t.link.frozenImg = f.leftImgs ∧ t.link.blocks = l.blocks + 1
        ∧ t.link.sent = l.sent ++ (runRecords s f.runs ++ imageRecords f.imgs))
    ∧ (∀ (k : Fin 2), l.stream = true → laneUp s k = true → phaseOf s (dayTick s) = 3 → l.frozen = [] → l.frozenImg = [] →
      ∃ t, exec (.endFrameSend k) s = .next t ∧ t.link.stream = false ∧ t.link.ended = true
        ∧ t.out = s.out ++ [.pairFrame k (packFrame 4 l.blocks [word (l.ckDay % 2 ^ 36), word l.sent.length, crcOf l.sent])]
          ++ (match namedChange s with | some c => [.names c] | none => [])
        ∧ reg t pairCkLen = word ((l.linkWords + 5) % 2 ^ 24) ∧ regsKept [pairCkLen] s t ∧ t.mem = s.mem ∧ t.eng = s.eng)
    ∧ (∀ (k : Fin 2), l.joinAccepted = true → laneUp s k = true → phaseOf s (dayTick s) = 5 → 0 < l.sweepLeft →
      l.sweepLeft ≤ shareAt s l.sweepPos → (∀ a, inStateMap s a = true → (∃ v, linkReads s a v) ∧ blockedAt s masterLink k a = false) →
      ∃ t ws, exec (.sweepFrameSend k) s = .next t
        ∧ t = { s with
          link := t.link, out := s.out ++ [.pairFrame k (packFrame 3 l.sweepBlk ws)], served := t.served, owed := t.owed, tk := t.tk }
        ∧ t.link = { l with sweepLeft := t.link.sweepLeft, sweepBlk := l.sweepBlk + 1 } ∧ t.link.sweepLeft < l.sweepLeft)
    ∧ (∀ (k : Fin 2) (f : PairFrame) (d : Word), frameGood f = true → frameType f = 6 → f.payload = [d] → l.endSent = true →
      l.acked = false → l.ckDay = s.day.n → d = word (l.ckDay % 2 ^ 36) → l.frozen = [] →
      phaseOf s (dayTick s) = 3 → ∃ t, exec (.ackReceive k f) s = .next t ∧ laneUp t k = true ∧ t.link.acked = true ∧ t.link.streamed = []
        ∧ t.link.streamedImg = [] ∧ t.link.lastOk = some l.ckDay ∧ reg t pairCk = d ∧ regsKept [pairCk] s t ∧ t.mem = s.mem
        ∧ t.link.sweepPos = if l.sweepLeft = 0 then (l.sweepPos + 1) % 64 else l.sweepPos)
    ∧ (s.day.run = true → dayTick s = phaseStart s 4 → l.joinAccepted = true → ∃ t, exec .duskStart s = .next t
      ∧ t.link.sweepLeft = shareAt s l.sweepPos ∧ t.mem = s.mem ∧ t.eng = s.eng
      ∧ (l.acked = true → streamedToday s = true → t.regs = s.regs)
      ∧ (l.acked = false → (∀ n, l.heard = some n → n.state ≠ 1) → bitOf t pairStatus 3 = true ∧ reg t midLastF = word 0x708)
      ∧ (∀ n, streamedToday s = true → l.heard = some n → n.state = 1 → t.regs = s.regs)
      ∧ (streamedToday s = false → t.link.stream = false ∧ bitOf t dayStatus 4 = true))

/-- A good DELTA or SWEEP frame is kept by its block number and keeps its lane up; a frame that fails its check is only
counted, and a good one of another type only keeps its lane up. An END frame notes what was sent; once the checkpoint is
complete, ACK is sent. An ABANDON makes it incomplete. A change that END names is armed for its day where the identical one
is staged, and otherwise READY is lost. At Dusk a complete checkpoint begins its commit, an expected one that is not
complete raises 0x707. A commit writes each word and image, those of a joined pair's leading engine to both, counts the
checkpoint, and the 64th in a row shows READY with 0x721; while its words have still to be served it does not end. A command
whose condition does not hold leaves the state as it was: the model's choice (log entry 8). -/
def Obligations.CheckpointIsCommitted : Prop :=
  ∀ (s : State), s.wf → s.mst = .standby →
    (∀ (k : Fin 2) (f : PairFrame), frameGood f = true →
      (frameType f = 2 → ∃ t, exec (.deltaReceive k f) s = .next t ∧ tabGet [] t.link.rx (frameSeq f) = f.payload ∧ laneUp t k = true
        ∧ (∀ n, n ≠ frameSeq f → tabGet [] t.link.rx n = tabGet [] s.link.rx n) ∧ t.mem = s.mem ∧ t.eng = s.eng)
      ∧ (frameType f = 3 → ∃ t, exec (.sweepReceive k f) s = .next t ∧ tabGet [] t.link.rxSweep (frameSeq f) = f.payload
        ∧ (∀ n, n ≠ frameSeq f → tabGet [] t.link.rxSweep n = tabGet [] s.link.rxSweep n) ∧ t.mem = s.mem ∧ t.eng = s.eng))
    ∧ (∀ (k : Fin 2) (f : PairFrame) (c : Option Named) (ofs : Int) (ty : Fin 2) (h : RawHeader) (x : Instr × Nat),
      x ∈ [(Instr.noticeReceive k f ofs, 1), (.deltaReceive k f, 2), (.sweepReceive k f, 3), (.endReceive k f c, 4),
        (.abandonReceive k f, 5), (.ackReceive k f, 6), (.joinReceive k f, 7), (.cloneReceive k f ty h, 8), (.finalReceive k f, 9)] →
      (frameGood f = false → exec x.1 s = .next { s with link := { s.link with discarded := s.link.discarded + 1 } })
      ∧ (frameGood f = true → frameType f ≠ x.2 → ∃ t, exec x.1 s = .next t ∧ laneUp t k = true
        ∧ t = { s with link := { s.link with laneAt := t.link.laneAt } }))
    ∧ (∀ (k : Fin 2) (f : PairFrame) (d c r : Word) (u : State), frameGood f = true → frameType f = 4 → f.payload = [d, c, r] →
      d = word (s.day.n % 2 ^ 36) → u = modLink (fun l => { l with rxEnd := some (d.toNat, c.toNat, r, frameSeq f, false) }) s →
      ∃ t, exec (.endReceive k f none) s = .next t ∧ t.mem = s.mem ∧ t.eng = s.eng
        ∧ t.link.rxEnd = some (d.toNat, c.toNat, r, frameSeq f, false)
        ∧ (isComplete u = true → t.out = s.out ++ [.pairFrame k (packFrame 6 0 [d])] ∧ t.link.complete = some s.day.n)
        ∧ (isComplete u = false → t.out = s.out ∧ t.regs = s.regs))
    ∧ (∀ (k : Fin 2) (f : PairFrame) (d c r : Word) (n : Named), frameGood f = true → frameType f = 4 → f.payload = [d, c, r] →
      d = word (s.day.n % 2 ^ 36) → n.applied = false → ∃ t, exec (.endReceive k f (some n)) s = .next t ∧ t.mem = s.mem
        ∧ (stagedAs s n = true → s.day.changeDay = none → t.day.changeDay = some (fullDay s n.day))
        ∧ (stagedAs s n = false → t.day.changeDay = s.day.changeDay ∧ bitOf t pairCkSt 8 = false ∧ t.link.consec = 0
          ∧ bitOf t pairStatus 4 = true))
    ∧ (∀ (k : Fin 2) (f : PairFrame) (d r : Word), frameGood f = true → frameType f = 5 → f.payload = [d, r] →
      d = word (s.day.n % 2 ^ 36) → ∃ t, exec (.abandonReceive k f) s = .next t ∧ t.link.rxBad = true
      ∧ t.mem = s.mem ∧ (slice r.toNat 7 0 ≠ 4 → t.regs = s.regs)
      ∧ (slice r.toNat 7 0 = 4 → t.link.sweepPos = 0 ∧ bitOf t pairCkSt 8 = false ∧ t.link.consec = 0
        ∧ raised 0x709 (dayN s % 2 ^ 36) s t))
    ∧ (s.day.run = true → dayTick s = phaseStart s 4 → s.link.commit = none → ∃ t, exec .duskStart s = .next t
      ∧ t.link.rx = [] ∧ t.link.rxSweep = [] ∧ t.link.rxEnd = none ∧ t.link.rxBad = false ∧ t.mem = s.mem ∧ t.eng = s.eng
      ∧ (s.link.complete = some s.day.n → t.regs = s.regs ∧ ∃ ws is, t.link.commit = some (s.day.n, ws, is)
        ∧ is = (allRecords (s.link.rx.map (·.2))).2
        ∧ (s.day.changeDay ≠ some s.day.n →
          ws = (allRecords (s.link.rxSweep.map (·.2))).1 ++ (allRecords (s.link.rx.map (·.2))).1))
      ∧ (∀ n, s.link.complete ≠ some s.day.n → s.link.heard = some n → n.state = 3 → t.link.commit = none ∧ t.link.consec = 0
        ∧ bitOf t pairStatus 2 = true))
    ∧ (∀ (day : Nat) (ws : List (Nat × Word)) (is : List (Nat × List Word)), s.link.commit = some (day, ws, is) →
      s.day.changeDay = none →
      ((∃ w ∈ s.owed, w.master = masterLink) → exec .commitComplete s = .next s) ∧
      ((∀ w ∈ s.owed, w.master ≠ masterLink) → (∀ w ∈ ws, (isShared w.1 = true ∨ isLocal w.1 = true) ∧ gate s masterLink true .write (word w.1) = none) →
      ∃ t, exec .commitComplete s = .next t ∧ t.link.commit = none ∧ t.link.consec = min (s.link.consec + 1) 64
        ∧ reg t pairCk = word (day % 2 ^ 36)
        ∧ (∀ a v xs, ws = xs ++ [(a, v)] → memGet t a = v ∧ (∀ e, e = (a - 0x01000000) / 0x2000 → isLocal a = true →
          leadsJoined s e = true ∨ e % 2 = 0 ∧ (pairOf s (e / 2)).mirror = true → memGet t (a + 0x2000) = v))
        ∧ (∀ a, (∀ w ∈ ws, w.1 ≠ a ∧ w.1 + 0x2000 ≠ a) → memGet t a = memGet s a)
        ∧ (∀ e, (∀ i ∈ is, i.1 ≠ e ∧ i.1 + 1 ≠ e) → engine t e = engine s e)
        ∧ (∀ e w js, is = js ++ [(e, w)] → (∀ j ∈ js, j.1 ≠ e ∧ j.1 + 1 ≠ e ∧ j.1 ≠ e + 1 ∧ j.1 + 1 ≠ e + 1) →
          engine t e = imageInto s.now w (engine s e)
            ∧ (leadsJoined s e = true → engine t (e + 1) = imageInto s.now w (engine s (e + 1))))
        ∧ (s.link.consec = 63 → pairReady s = false → bitOf t pairCkSt 8 = true)))

/-- The active module sends the next frame of its running bank's container to a partner in DAYBREAK that is allowed a clone
and whose firmware is older. A module in DAYBREAK without a valid configuration keeps a frame by its block; a container
whose header is refused, or that does not verify when whole, is dropped with 0x723. A change loader that has written its
words by T - 2,500 has the change loaded, with its identity running and 0x232; later the change does not take effect, and in
ACTIVE and BENCH it is an overrun in DAY_OVR. A command whose condition does not hold leaves the state as it was: the
model's choice (log entry 8). -/
def Obligations.ClonesAndChangeLoader : Prop :=
  ∀ (s : State), s.wf →
    (∀ (k ty : Fin 2) (n : Notice) (x : Slot) (h : Header) (c : Nat) (v : Word), s.mst = .active → s.link.heard = some n → n.state = 1 → laneUp s k = true →
      bitOf s pairCfg 0 = true → (ty = 0 → bitOf s pairCfg 1 = true ∧ v.toNat < (reg s updFwVer).toNat) →
      x = slotOf s (getF s updBoot 1 1) ty → x.st = .valid → x.hdr = some h →
      c = tabGet 0 s.link.cloneTx ty → c < cloneFrames h → ∃ t, exec (.cloneFrameSend k ty v) s = .next t
        ∧ t = { s with
          link := t.link, out := s.out ++ [.pairFrame k (packFrame 8 c (((containerWords h x.words).drop (256 * c)).take 256))] }
        ∧ tabGet 0 t.link.cloneTx ty = c + 1)
    ∧ (∀ (k ty : Fin 2) (f : PairFrame) (r : RawHeader) (h : Header), h = headerOf r → wantsClone s = true → frameGood f = true → frameType f = 8 →
      (headerCheck s (ty.val + 1) h = none → cloneOf s ty = none → ∃ t, exec (.cloneReceive k f ty r) s = .next t
        ∧ t = { s with link := t.link } ∧ cloneOf t ty = some (h, tabSet [] [] (frameSeq f) f.payload))
      ∧ (headerCheck s (ty.val + 1) h ≠ none → ∃ t, exec (.cloneReceive k f ty r) s = .next t ∧ cloneOf t ty = none
        ∧ raised 0x723 (dayN s % 2 ^ 36) s t ∧ bitOf t pairStatus 14 = true ∧ t.boot = s.boot ∧ t.mem = s.mem)
      ∧ (∀ bs cs, headerCheck s (ty.val + 1) h = none → cloneOf s ty = some (h, bs) → cs = tabSet [] bs (frameSeq f) f.payload →
        cs.length = cloneFrames h →
        digestOf (clonePayload cs) ≠ h.digest ∨ cloneHeader cs ≠ fourPacked (r.octets.map (·.toNat)) →
        ∃ t, exec (.cloneReceive k f ty r) s = .next t ∧ cloneOf t ty = none ∧ raised 0x723 (dayN s % 2 ^ 36) s t ∧ t.boot = s.boot))
    ∧ (changeDayNow s = true → s.day.changeDone = false →
      (dayTick s + 2500 ≤ dayT s → (∃ w ∈ s.owed, w.master = masterLoader) → exec .changeLoaderComplete s = .next s)
      ∧ (dayTick s + 2500 ≤ dayT s → (∀ w ∈ s.owed, w.master ≠ masterLoader) → ∃ t, exec .changeLoaderComplete s = .next t ∧ t.day.changeDone = true ∧ getF t dayChg 3 0 = 4
        ∧ reg t midLastF = word 0x232 ∧ t.mst = s.mst
        ∧ (∀ i < 4, reg t (updCfgId + i) = ((s.boot.staged.map (·.1.ident)).getD []).getD i 0))
      ∧ (dayT s < dayTick s + 2500 → ∃ t, exec .changeLoaderComplete s = .next t ∧ t.day.changeDay = none ∧ t.armReq = none ∧ t.mem = s.mem
        ∧ t.eng = s.eng
        ∧ (s.mst = .active ∨ s.mst = .bench → bitOf t dayStatus 1 = true ∧ raised 0x210 0 s t
          ∧ (s.ovr.length < 16 → t.ovr = s.ovr ++ [word (0x210 * 2 ^ 24)]))
        ∧ (s.mst = .standby → t.regs = s.regs ∧ t.ovr = s.ovr)
        ∧ (s.mst = .active → t.day.broken = true ∧ t.day.beatHeld = true)
        ∧ (s.mst ≠ .active → t.day.broken = s.day.broken)))

/-- A tick advances the clock by 256 units of 1/64 ns and RATE times 2^-32 of one, the fraction kept exactly (log entry 79),
carries whole seconds, and raises the day tick to T at most. An update that an access put off is made, an event that was on
its way reaches its engine, the checkpoint of a day broken in the tick before is abandoned, and a joining engine takes one
word of its pair's registers. The day sequencer starts at tick 0 of the first tick at or past a grid midnight of a clock
that has been set, with N = S Q + k, but not in STOPPED, nor in DAYBREAK before the end of step 6. A command whose condition
does not hold leaves the state as it was: the model's choice (log entry 8). -/
def Obligations.ClockTicksAndTheDayStarts : Prop :=
  ∀ (s : State), s.wf →
    (∃ t, exec .clockTick s = .next t ∧ t.now = s.now + 1
      ∧ (s.hostQ = [] → (s.time.ns64 < nsWrap → s.time.frac < 2 ^ 32 → s.time.sec < 2 ^ 48 → -2199023 ≤ rateOf s → rateOf s ≤ 2199023 →
        t.time.ns64 < nsWrap ∧ t.time.frac < 2 ^ 32 ∧ (s.time.sec < 2 ^ 48 - 1 →
          (((t.time.sec * nsWrap + t.time.ns64) * 2 ^ 32 + t.time.frac : Nat) : Int)
            = (((s.time.sec * nsWrap + s.time.ns64 + 256) * 2 ^ 32 + s.time.frac : Nat) : Int) + rateOf s))
        ∧ (s.day.run = true → t.day.tick = min (s.day.tick + 1) (dayT s)) ∧ (s.day.run = false → t.day.tick = s.day.tick)
        ∧ t.day.n = s.day.n ∧ t.day.run = s.day.run ∧ t.hostQ = [] ∧ t.sess = s.sess ∧ t.mst = s.mst
        ∧ t.ts = s.ts ∧ t.boot = s.boot ∧ t.vault = s.vault)
      ∧ (quietTick s → t.regs = s.regs ∧ t.eng = s.eng ∧ t.ports = s.ports ∧ t.out = s.out ∧ (s.mirrors = [] → t.mem = s.mem)
        ∧ (∀ a v m, s.mirrors = [(m, a, v)] → (m ≤ s.now + 1 → memGet t a = v ∧ t.mirrors = [])
          ∧ (s.now + 1 < m → t.mem = s.mem ∧ t.mirrors = s.mirrors)))
      ∧ (∀ a m v, s.tk.hw = [(a, m, v)] → quietTick { s with tk := {} } →
        regsKept [a] s t ∧ reg t a = if s.tk.wrote.contains a then (reg s a &&& ~~~m) ||| v else reg s a)
      ∧ (∀ m src pl, s.arrivals = [(m, src, pl)] → quietTick { s with arrivals := [] } →
        (m ≤ s.now + 1 → t.arrivals = [] ∧ delivers src pl { s with now := t.now, time := t.time } t)
        ∧ (s.now + 1 < m → t.arrivals = s.arrivals ∧ t.eng = s.eng))
      ∧ (s.day.broken = true → s.day.brokenAt = s.now + 1 → s.link.stream = true →
        quietTick { s with day := { s.day with broken := false } } → t.link.stream = false ∧ t.link.ended = true
          ∧ t.out = s.out ++ if linkUp s then [.pairFrame (anyLane s) (packFrame 5 0 [word (s.day.n % 2 ^ 36), 1])] else [])
      ∧ (∀ k p, s.pairs = [(k, p)] → p.joined = true → p.armed = false → quietTick { s with pairs := [] } →
        (1 ≤ dayTick t → dayTick t ≤ 70 → engine t (2 * k + 1) = copyWord (dayTick t) (engine s (2 * k)) (engine s (2 * k + 1)))
        ∧ (dayTick t = 0 ∨ 70 < dayTick t → t.eng = s.eng)))
    ∧ (s.mst = .stopped ∨ s.mst = .daybreak ∧ s.boot.step < 6 → exec .daySequencerStart s = .next s)
    ∧ (s.mst ≠ .stopped → ¬(s.mst = .daybreak ∧ s.boot.step < 6) → s.day.run = false → s.time.set = true → 0 < dayL s → s.time.pllLost = false →
      (lastAdvance s ≤ gridOffset s → exec .daySequencerStart s = .next s)
      ∧ (gridOffset s < lastAdvance s → exec .daySequencerStart s = .next { s with day := { s.day with
        run := true, tick := 0, n := (s.time.sec * dayQ s + s.time.ns64 / (dayL s * 64000)) % 2 ^ 48 } }))

/-- Before tick T a midnight does nothing. At T, N rises by 1 and the day begins at tick 0. In ACTIVE, with no transition,
change or end of a grant due, the heartbeat reaches the Nightwatch unless it is withheld, the midnight event waits at its
bound engine or found its queue full, each engine that rests, is loaded and whose task is due starts at plan word 0 with its
registers kept, counting from its start tick, D later on a trailing engine, and every other engine keeps its place. A
command whose condition does not hold leaves the state as it was: the model's choice (log entry 8). -/
def Obligations.MidnightStartsTheDueEngines : Prop :=
  ∀ (s : State), s.wf → s.day.run = true → 0 < dayT s →
    (s.day.tick < dayT s → exec .midnight s = .next s)
    ∧ (dayT s ≤ s.day.tick → ∃ t, exec .midnight s = .next t ∧ t.day.tick = 0 ∧ t.now = s.now
      ∧ (s.stopActivate = false → t.day.n = (s.day.n + 1) % 2 ^ 48)
      ∧ (s.mst = .active → s.link.swReleased = false → s.link.swRunning = false → reg s pairSwDay = 0 → s.stopReq = none →
        s.day.changeDay = none → bitOf s dayStatus 7 = false → s.day.halted = false →
        (∀ g, s.grant = some g → (s.day.n + 1) % 2 ^ 48 ≤ g.2.lastDay) → t.mst = .active ∧ t.day.run = true
          ∧ t.nwt.dayFrom = (if s.day.beatHeld = true then s.nwt.dayFrom else some s.now)
          ∧ (∀ p, s.bindings.find? (·.1 == 0x0B00) = some p → 16 ≤ (engine t p.2).evq.length
            ∨ ∃ v ∈ (engine t p.2).evq, v.word = eventWord 0x0B00 (if dayQ s = 0 then 0 else (s.day.n + 1) % 2 ^ 48 % dayQ s))
          ∧ ∀ e < 1024, ∀ x, x = engine s e → (engine t e).w = x.w ∧ (engine t e).ac0 = x.ac0 ∧ (engine t e).p = x.p
            ∧ (x.role ≠ 0 → x.len ≠ 0 → x.halted = false → (x.rest = .idle ∨ x.rest = .done) →
              0 < slice (wordAt s.day.table (6 + x.rate)) 11 0 →
              (if dayQ s = 0 then 0 else (s.day.n + 1) % 2 ^ 48 % dayQ s) % slice (wordAt s.day.table (6 + x.rate)) 11 0
                = slice (wordAt s.day.table (6 + x.rate)) 23 12 →
              (engine t e).rest = .run ∧ (engine t e).pos = 0 ∧ (engine t e).loops = [] ∧ (engine t e).ran = true
                ∧ (engine t e).prev = s.now + x.start + (if trailsJoined s e then (pairOf s (e / 2)).d else 0))
            ∧ ((x.role = 0 ∨ x.len = 0 ∨ x.halted = true ∨ (x.rest ≠ .idle ∧ x.rest ≠ .done)) →
              (engine t e).rest = x.rest ∧ (engine t e).pos = x.pos ∧ (engine t e).prev = x.prev)))

/-- A start that is complete goes to BENCH, STANDBY or ACTIVE as its outcome says. A standby with a confirmed claim becomes
ACTIVE and otherwise takes a stop. An ACTIVE module whose switchover day is over goes to STANDBY, or to STOPPED where a stop
asked for the switchover, with PAIR_SWST done, or not done where the partner claims no more (whether a partner that still
claims had its claim confirmed is a free value, log entry 126), or keeps the mandate where the fallback is confirmed; on the
day of the switchover a forced stop is dropped. Without one a forced stop takes it to STOPPED with its claim latch clear, as
a stop does one in BENCH. LAST shows the state before. -/
def Obligations.MidnightTakesOneTransition : Prop :=
  ∀ (s : State), s.wf → s.day.run = true → 0 < dayT s → dayT s ≤ s.day.tick → ∃ t, exec .midnight s = .next t
    ∧ (s.mst = .daybreak → s.boot.step ≠ 8 → t.mst = .daybreak)
    ∧ (s.mst = .daybreak → s.boot.step = 8 → s.boot.benchDue = true → t.mst = .bench ∧ t.mlast = 1 ∧ t.boot.attempts = 0)
    ∧ (s.mst = .daybreak → s.boot.step = 8 → s.boot.benchDue = false → s.link.joinAccepted = true → t.mst = .standby ∧ t.mlast = 1)
    ∧ (s.mst = .daybreak → s.boot.step = 8 → s.boot.benchDue = false → s.link.joinAccepted = false → s.link.confirmed = true →
      t.mst = .active ∧ t.mlast = 1)
    ∧ (s.mst = .standby → s.link.confirmed = true → t.mst = .active ∧ t.mlast = 2)
    ∧ (s.mst = .standby → s.link.confirmed = false → s.stopReq = none → t.mst = .standby)
    ∧ (s.mst = .standby ∨ s.mst = .bench → s.link.confirmed = false → s.stopReq ≠ none → s.stopActivate = false →
      t.mst = .stopped ∧ t.mlast = mstCode s.mst ∧ t.day.run = false ∧ t.link.latch = false)
    ∧ (s.mst = .active → s.link.swReleased = false → reg s pairSwDay = 0 → s.stopActivate = false →
      (∀ r, s.stopReq = some (true, r) → t.mst = .stopped ∧ t.mlast = 3 ∧ t.day.run = false ∧ t.link.latch = false ∧ t.stopReq = none)
      ∧ (s.stopReq = none → t.mst = .active))
    ∧ (s.mst = .active → s.link.swReleased = false → s.stopActivate = false → switchesOn s (s.day.n + 1) = true →
      t.mst = .active ∧ t.link.swRunning = true ∧ getF t pairSwSt 3 0 = 2 ∧ (∀ r, s.stopReq = some (true, r) → t.stopReq = none)
        ∧ (∀ r, s.stopReq = some (false, r) → t.stopReq = s.stopReq))
    ∧ (s.mst = .active → s.link.swReleased = true → s.link.swReclaimed = false ∨ s.link.confirmed = false → s.stopActivate = false →
      t.link.latch = false ∧ reg t pairSwDay = 0 ∧ t.stopReq = none ∧ t.mlast = 3
        ∧ (getF t pairSwSt 3 0 = 3 ∨ getF t pairSwSt 3 0 = 5) ∧ (s.link.part ≠ .claimed → getF t pairSwSt 3 0 = 5)
        ∧ ((∀ r, s.stopReq ≠ some (false, r)) → t.mst = .standby)
        ∧ (∀ r, s.stopReq = some (false, r) → t.mst = .stopped ∧ t.day.run = false))
    ∧ (s.mst = .active → s.link.swReleased = true → s.link.swReclaimed = true → s.link.confirmed = true →
      t.mst = .active ∧ getF t pairSwSt 3 0 = 5 ∧ reg t pairSwDay = 0 ∧ t.link.swReleased = false)
    ∧ (s.mst = .stopped → t.mst = .stopped)

/-- At the end of tick T - 1 in ACTIVE or BENCH, a day in which every engine that ran has reached DONE only marks the check
as made. An engine that has not is an overrun: its mark is set; in ACTIVE the day is broken and the heartbeat withheld, and
in BENCH the engine rests as after DONE. Registers and memory stay. Elsewhere, and before that tick, it does nothing. A
command whose condition does not hold leaves the state as it was: the model's choice (log entry 8). -/
def Obligations.DayWatchdogFindsOverruns : Prop :=
  ∀ (s : State), s.wf → changeDayNow s = false →
    (dayTick s + 1 ≠ dayT s ∨ s.day.run = false ∨ s.mst = .standby ∨ s.mst = .daybreak ∨ s.mst = .stopped →
      exec .dayWatchdogCheck s = .next s)
    ∧ (s.day.run = true → s.day.wdDone = false → dayTick s + 1 = dayT s → s.mst = .active ∨ s.mst = .bench →
      ((∀ e < 1024, (engine s e).ran = true → (engine s e).rest = .done ∨ (engine s e).rest = .idle ∨ (engine s e).halted = true) →
        exec .dayWatchdogCheck s = .next { s with day := { s.day with wdDone := true } })
      ∧ (∀ e < 1024, ∀ x, x = engine s e → x.ran = true → x.halted = false → (x.rest ≠ .done ∧ x.rest ≠ .idle) →
        ∃ t, exec .dayWatchdogCheck s = .next t ∧ bitOf t dayStatus 1 = true ∧ t.mem = s.mem
          ∧ (engine t e).w = x.w ∧ (engine t e).p = x.p ∧ (engine t e).ac0 = x.ac0 ∧ (engine t e).ac1 = x.ac1
          ∧ (s.mst = .active → t.day.broken = true ∧ t.day.beatHeld = true ∧ t.day.halted = true ∧ (engine t e).rest = x.rest)
          ∧ (s.mst = .bench → (engine t e).rest = .done ∧ (engine t e).loops = [] ∧ t.day.broken = s.day.broken)
          ∧ (s.ovr = [] → (∀ j < e, (engine s j).ran = false) →
            t.ovr.head? = some (word (0x210 * 2 ^ 24 + e * 2 ^ 13 + x.pos % 4096)))))

/-- PEEK of granted shared words answers them and changes no field; TAKE needs level 2, POKE also a state other than ACTIVE,
STANDBY and DAYBREAK and writes all its words in ascending order or, where a gate refuses one, none, with status 1 and the
record's SEQ. Both end with status 6 where they name a trailing engine. A request whose words are not all free waits in its
order without effect and is answered in the first tick in which they are. REGS of a resting engine answers image, position
and loop stack; of another it waits, and a tick a second later ends it with status 5. -/
def Obligations.DebugReadsAndWrites : Prop :=
  ∀ (q : Rq) (s : State), s.wf → (mayServe s q [.service] false →
    (∀ (a : Word) (n : Nat), 1 ≤ n → n ≤ 256 → (∀ i < n, isShared (a.toNat + i) = true
        ∧ gate s masterDebug (debugLevel s q.sess == 3) .peek (a + BitVec.ofNat 36 i) = none) →
      (pointsFree s masterDebug 0 a.toNat n → ∃ t, exec (.peek q a n) s = .next t ∧ onlyServes s t ∧ answered s t q 0x052 0
        (debugWords 0 0 (validity ((List.range n).map fun i => some (peekMem s (a.toNat + i))))))
      ∧ (¬ pointsFree s masterDebug 0 a.toNat n → ∃ t, exec (.peek q a n) s = .next t ∧ waits s t q (.peek a n (debugLevel s q.sess))))
    ∧ (∀ (a : Word) (n : Nat), n = 0 ∨ 256 < n → ∃ t, exec (.peek q a n) s = .next t ∧ onlyAnswers s t ∧ answered s t q 0x052 0x022 [])
    ∧ (∀ (a : Word) (n : Nat), 1 ≤ n → n ≤ 256 → ∃ t, exec (.take q a n) s = .next t
      ∧ (debugLevel s q.sess < 2 → onlyServes s t ∧ answered s t q 0x052 0 (debugWords 2 0 []))
      ∧ (2 ≤ debugLevel s q.sess → namesTrailing s a n = true → onlyServes s t ∧ answered s t q 0x052 0 (debugWords 6 0 []))
      ∧ (2 ≤ debugLevel s q.sess → namesTrailing s a n = false → pointsFree s masterDebug 0 a.toNat n → (∀ i < n, isShared (a.toNat + i) = true ∧ chkOf s (a.toNat + i) = .ok
          ∧ gate s masterDebug (debugLevel s q.sess == 3) .read (a + BitVec.ofNat 36 i) = none) →
        onlyServes s t ∧ answered s t q 0x052 0
          (debugWords 0 0 (validity ((List.range n).map fun i => some (memGet s (a.toNat + i)))))))
    ∧ (∀ (a : Word) (ws : List Word), 1 ≤ ws.length → ws.length ≤ 256 → ∃ t, exec (.poke q a ws) s = .next t
      ∧ (debugLevel s q.sess < 2 → onlyServes s t ∧ answered s t q 0x052 0 (debugWords 2 0 []))
      ∧ (2 ≤ debugLevel s q.sess → debugBarred s = true → onlyServes s t ∧ answered s t q 0x052 0 (debugWords 3 0 []))
      ∧ (2 ≤ debugLevel s q.sess → debugBarred s = false → namesTrailing s a ws.length = false →
        pointsFree s masterDebug 0 a.toNat ws.length →
        (∀ i < ws.length, isShared (a.toNat + i) = true
          ∧ gate s masterDebug (debugLevel s q.sess == 3) .write (a + BitVec.ofNat 36 i) = none) →
        answered s t q 0x052 0 (debugWords 0 0 []) ∧ (∀ i < ws.length, memGet t (a.toNat + i) = ws.getD i 0)
          ∧ (∀ b, (∀ i < ws.length, b ≠ a.toNat + i) → memGet t b = memGet s b) ∧ t.regs = s.regs ∧ t.eng = s.eng)
      ∧ (∀ r, 2 ≤ debugLevel s q.sess → debugBarred s = false → namesTrailing s a ws.length = false →
        blockedAt s masterDebug 0 a.toNat = false → gate s masterDebug (debugLevel s q.sess == 3) .write a = some r →
        answered s t q 0x052 0 (debugWords 1 t.tk.seq []) ∧ (s.tk.viols = 0 → t.tk.seq = s.violSeq % 4096) ∧ t.mem = s.mem ∧ t.ts = s.ts ∧ t.violSeq = (s.violSeq + 1) % 4096
          ∧ regsKeptF [gateStatus, gateCnt, cmpStatus] s t))
    ∧ (∀ (e : Nat), e < 1028 → (restsNow (engine s e) = true → ∃ t, exec (.regs q e) s = .next t ∧ onlyAnswers s t
          ∧ answered s t q 0x052 0 (debugWords 0 0 (regsWords s e)))
      ∧ (restsNow (engine s e) = false → ∃ t, exec (.regs q e) s = .next t ∧ t.out = s.out
          ∧ t.hostQ = s.hostQ ++ [serving q (.resting e s.now)] ∧ t.eng = s.eng ∧ t.mem = s.mem ∧ t.regs = s.regs)))
  ∧ (sessOpen s q.sess = true → quietTick { s with hostQ := [] } →
    (∀ (a : Word) (n l : Nat), s.hostQ = [serving q (.held (.peek a n l))] → s.mirrors = [] →
      (∀ i < n, isShared (a.toNat + i) = true ∧ gate s masterDebug (l == 3) .peek (a + BitVec.ofNat 36 i) = none) →
      pointsFree { s with now := s.now + 1 } masterDebug 0 a.toNat n → ∃ t, exec .clockTick s = .next t ∧ t.hostQ = []
        ∧ answered s t q 0x052 0 (debugWords 0 0 (validity ((List.range n).map fun i => some (peekMem s (a.toNat + i))))))
    ∧ (∀ (e n : Nat), s.hostQ = [serving q (.resting e n)] → ∃ t, exec .clockTick s = .next t
      ∧ (restsNow (engine s e) = true → t.hostQ = [] ∧ ∃ ws, answered s t q 0x052 0 (debugWords 0 0 ws) ∧ ws.length = 101)
      ∧ (restsNow (engine s e) = false → n + 250000000 ≤ s.now + 1 → t.hostQ = [] ∧ answered s t q 0x052 0 (debugWords 5 0 []))
      ∧ (restsNow (engine s e) = false → s.now + 1 < n + 250000000 → t.hostQ = s.hostQ ∧ t.out = s.out)))

/-- A command whose level is too low, whose state bars it or that names a trailing engine answers 2, 3 or 6 and halts
nothing. Otherwise HALT asks for a halt at the engine's next release, with status 4 inside a bracket; the release that meets
it does not happen and the engine is halted. RESUME and STEP let a halted engine go on from the tick of service, STEP for n
instructions; its trailing engine follows D ticks later. -/
def Obligations.HaltStepAndResume : Prop :=
  ∀ (q : Rq) (s : State), s.wf → mayServe s q [.service] false →
    (∀ (e n : Nat) (st : Nat), e < 1028 → 1 ≤ n → n ≤ 64 → haltBarred s q.sess e = some st →
      (st = 2 ∨ st = 3 ∨ st = 6) ∧ ∀ c ∈ [Instr.halt q e, .resume q e, .step q e n],
        ∃ t, exec c s = .next t ∧ onlyAnswers s t ∧ answered s t q 0x052 0 (debugWords st 0 []))
    ∧ (∀ (e n : Nat), e < 1028 → 1 ≤ n → n ≤ 64 → haltBarred s q.sess e = none →
      (∃ t, exec (.halt q e) s = .next t
        ∧ answered s t q 0x052 0 (debugWords (if (engine s e).lockOpen = true then 4 else 0) 0 [])
        ∧ ((engine s e).halted = false → engine t e = { engine s e with haltReq := true, stepN := 0 })
        ∧ ((engine s e).halted = true → engine t e = engine s e)
        ∧ (∀ j, j ≠ e → engine t j = engine s j) ∧ t.regs = s.regs ∧ t.mem = s.mem)
      ∧ (∃ t, exec (.resume q e) s = .next t ∧ answered s t q 0x052 0 (debugWords 0 0 [])
        ∧ (engine t e).halted = false ∧ (engine t e).haltReq = false ∧ (engine t e).stepN = 0 ∧ (engine t e).pos = (engine s e).pos
        ∧ (engine t e).w = (engine s e).w ∧ ((engine s e).halted = true → (engine t e).prev = s.now)
        ∧ ((engine s e).halted = false → (engine t e).prev = (engine s e).prev)
        ∧ (leadsJoined s e = true → (engine s (e + 1)).halted = true → (engine t (e + 1)).halted = false
          ∧ (engine t (e + 1)).prev = s.now + (pairOf s (e / 2)).d)
        ∧ (∀ j, j ≠ e → j ≠ e + 1 → engine t j = engine s j) ∧ t.mem = s.mem ∧ regsKept [dbgTrStat] s t)
      ∧ (∃ t, exec (.step q e n) s = .next t ∧ answered s t q 0x052 0 (debugWords 0 0 [])
        ∧ (engine t e).halted = false ∧ (engine t e).haltReq = false ∧ (engine t e).stepN = n ∧ (engine t e).w = (engine s e).w
        ∧ ((engine s e).halted = true → (engine t e).prev = s.now) ∧ t.mem = s.mem))
    ∧ (∀ (i : Instr) (e : Fin 1028) (delta : Nat) (neg : Bool) (pred : BitVec 3) (u : UnitKind),
      instrForm i = some (e, delta, neg, pred, u) → e.val < 1024 → mayRelease s e (sources i) delta u = true → haltsNow s e = true →
      ∃ t, exec i s = .next t ∧ (engine t e).halted = true ∧ archKept (engine s e) (engine t e) ∧ (engine t e).pos = (engine s e).pos
        ∧ t.mem = s.mem ∧ t.reqs = s.reqs ∧ (∀ j, j ≠ e.val → engine t j = engine s j))

/-- The oldest queued entry is written under the next SEQ once its second is over, and not before; a full ring loses its
oldest entry. At a whole second the telemetry set shows the time, the store, the time state and the second's counts, which
start over. Once in a tick up to 8 trace records of earlier ticks go to trace memory in order; a full one takes none with
STOP, counting them lost, and loses its oldest without. A lost record with the count follows once there is room. A command
whose condition does not hold leaves the state as it was: the model's choice (log entry 8). -/
def Obligations.LogTelemetryAndTraceMemory : Prop :=
  ∀ (s : State), s.wf →
    (∀ l ls, s.logQ = l :: ls → (l.sec = s.time.sec → exec .logEntryWrite s = .next s)
      ∧ (l.sec ≠ s.time.sec → ∃ t, exec .logEntryWrite s = .next t ∧ t.logQ = ls
        ∧ t.log = (if s.log.length < logRing then s.log else s.log.tail) ++ [{ l with seq := (reg s midLogSeq).toNat }]
        ∧ reg t midLogSeq = reg s midLogSeq + 1 ∧ regsKept [midLogSeq] s t ∧ t.mem = s.mem ∧ t.eng = s.eng))
    ∧ (s.logQ = [] → exec .logEntryWrite s = .next s)
    ∧ (lastAdvance s ≤ s.time.ns64 ∨ s.telem.setAt = s.now + 1 → exec .telemetryCollection s = .next s)
    ∧ (s.time.ns64 < lastAdvance s → s.telem.setAt ≠ s.now + 1 → ∃ t, exec .telemetryCollection s = .next t
      ∧ t = { s with telem := t.telem, fresh := s.fresh + 1 } ∧ t.telem.set.length = 16
      ∧ t.telem.set.getD 0 0 = word (s.time.sec % 2 ^ 36) ∧ t.telem.set.getD 2 0 = reg s pwrStore
      ∧ t.telem.set.getD 5 0 = word (s.telem.minEngine * 2 ^ 8 + s.telem.minSlack) ∧ t.telem.set.getD 6 0 = word s.telem.align
      ∧ t.telem.set.getD 7 0 = reg s timState ∧ t.telem.set.getD 9 0 = word s.telem.maxCk
      ∧ t.telem.set.getD 12 0 = word s.telem.refusals
      ∧ t.telem.set.getD 13 0 = word (s.telem.lost % 2 ^ 18 * 2 ^ 18 + s.telem.written % 2 ^ 18)
      ∧ t.telem.refusals = 0 ∧ t.telem.written = 0 ∧ t.telem.lost = 0 ∧ t.telem.corr = 0 ∧ t.telem.uncor = 0
      ∧ t.telem.setAt = s.now + 1 ∧ t.telem.valid = s.telem.valid ∧ t.telem.failed = s.telem.failed)
    ∧ (s.trace.wroteAt = s.now + 1 → exec .traceWrite s = .next s)
    ∧ (∀ n, n = traceSettled s → s.trace.wroteAt ≠ s.now + 1 → n ≤ 8 → s.trace.mem.length + n ≤ 16384 → s.trace.dropped = 0 →
      ∃ t, exec .traceWrite s = .next t ∧ t = { s with trace := t.trace, tk := t.tk } ∧ t.trace.intake = s.trace.intake.drop n
        ∧ t.trace.dropped = 0 ∧ t.trace.mem = s.trace.mem ++ traceOrder (s.trace.intake.take n) ∧ t.trace.readPos = s.trace.readPos)
    ∧ (s.trace.came.1 ≠ s.now + 1 → traceSettled s = s.trace.intake.length)
    ∧ (s.trace.came.1 = s.now + 1 → traceSettled s = s.trace.intake.length - s.trace.came.2)
    ∧ (∀ r, s.trace.intake = [r] → traceSettled s = 1 → s.trace.wroteAt ≠ s.now + 1 → s.trace.mem.length = 16384 →
      (bitOf s dbgTrCtl 34 = true → ∃ t, exec .traceWrite s = .next t ∧ t.trace.mem = s.trace.mem ∧ t.trace.intake = []
        ∧ t.trace.dropped = s.trace.dropped + 1 ∧ getF t dbgTrStat 35 20 = min (getF s dbgTrStat 35 20 + 1) 65535
        ∧ regsKept [dbgTrStat] s t)
      ∧ (bitOf s dbgTrCtl 34 = false → s.trace.dropped = 0 → ∃ t, exec .traceWrite s = .next t
        ∧ t.trace.mem = s.trace.mem.tail ++ [r] ∧ t = { s with trace := t.trace }))
    ∧ (s.trace.intake = [] → 0 < s.trace.dropped → s.trace.wroteAt ≠ s.now + 1 → s.trace.mem.length < 16384 → ∃ t, exec .traceWrite s = .next t
      ∧ t.trace.intake = [traceWords s 7 0 0 s.trace.dropped 0] ∧ t.trace.dropped = 0 ∧ t = { s with trace := t.trace })
    ∧ (∀ (l : List (List Word)), (traceOrder l).Perm l)

/-- A request of a session that is not open has no effect. One of an open session is answered under its tag: BUSY with 16
outstanding. Where one of its session waits, or one that comes after it in the order of ports and sessions was taken in this
tick, it waits behind them (log entry 169). Otherwise it is answered CONFLICT, being exclusive while another exclusive
command is in progress, or DELIVERY, FORMAT, ROLE, STATE, NORANDOM or RANGE in this order (the order is the model's choice,
log entry 30), with no effect beyond the session's bookkeeping; else the command is served, after a draw where it needs
randomness. A command whose condition does not hold leaves the state as it was: the model's choice (log entry 8). -/
def Obligations.RequestsAreCheckedBeforeService : Prop :=
  ∀ (q : Rq) (h : HostReq) (v : Service) (body : State → State) (s : State), s.wf →
    (hostSess s q.sess = none → arrive q h (serveRequest q h v body) s = .next s)
    ∧ ∀ x, hostSess s q.sess = some x → ∃ u, u = { s with sess := u.sess, net := { s.net with turn := u.net.turn } }
      ∧ hostSess u q.sess = some { x with last := s.now } ∧ (∀ n, n ≠ q.sess.val → hostSess u n = hostSess s n)
      ∧ (inTurn x s = true → u.net.turn = (s.now + 1, x.port, x.rank)) ∧ (inTurn x s = false → u.net = s.net)
      ∧ (16 ≤ outstanding s q.sess → arrive q h (serveRequest q h v body) s = .next (respond q h.code 0x012 [] u))
      ∧ (outstanding s q.sess < 16 → inTurn x s = false ∨ 0 < outstanding s q.sess →
        arrive q h (serveRequest q h v body) s = .next { u with
          hostQ := s.hostQ ++ [serving q (if h.excl && exclBusy s then .clash h.code else h)] })
      ∧ (outstanding s q.sess = 0 → inTurn x s = true →
        (h.excl = true → exclBusy s = true → arrive q h (serveRequest q h v body) s
          = .next (respond q h.code (if delivery s = true ∧ h.code ≠ 0x042 then 0x015 else 0x013) [] u))
        ∧ (h.excl = false ∨ exclBusy s = false → ∃ t, arrive q h (serveRequest q h v body) s = .next t
          ∧ (delivery s = true → v.inDelivery = false → t = respond q h.code 0x015 [] u)
          ∧ (delivery s = false → v.inDelivery = true → t = respond q h.code 0x011 [] u)
          ∧ (delivery s = v.inDelivery →
            (v.form = false → t = respond q h.code 0x020 [] u)
            ∧ (v.form = true → h.roles ≠ [] → (∀ r ∈ x.roles, r ∉ h.roles) → t = respond q h.code 0x010 [] u)
            ∧ (v.form = true → (h.roles = [] ∨ ∃ r ∈ x.roles, r ∈ h.roles) →
              (v.inState = false → t = respond q h.code 0x011 [] u)
              ∧ (v.inState = true → v.random = true → rngReady s = false → t = respond q h.code 0x014 [] u)
              ∧ (v.inState = true → (v.random = false ∨ rngReady s = true) →
                (v.range = false → t = respond q h.code 0x022 [] u)
                ∧ (v.range = true → t = body (if v.random = true then drawn u else u)))))))

/-- IDENT, ECHO, STATUS, TELEM, LOG and PMUCFG answer OK with the words the command table gives them, and READ the words its
peeks of a normal-world supervisor engine show behind their validity words. A parameter out of range is answered RANGE, an
ECHO of more than 16 words FORMAT. Nothing but the session's bookkeeping changes. -/
def Obligations.ReadingCommandsAnswer : Prop :=
  ∀ (q : Rq) (s : State), s.wf →
    (mayServe s q [] false →
      (∃ t ws, exec (.ident q) s = .next t ∧ onlyAnswers s t ∧ answered s t q 0x001 0 ws ∧ ws.getD 0 0 = 0x936
        ∧ ws.getD 1 0 = (if Config.variantX = true then 0x58 else 0x53) ∧ ws.getD 6 0 = (if slotB s = true then 1 else 0)
        ∧ ws.getD 7 0 = reg s updFwVer ∧ ws.getD 8 0 = reg s updPairVer ∧ (∀ i < 4, ws.getD (9 + i) 0 = reg s (updCfgId + i))
        ∧ (∀ i < 4, ws.getD (2 + i) 0 = Config.serial i) ∧ ws.length = 13)
      ∧ (∀ ws, ws.length ≤ 16 → ∃ t, exec (.echo q ws) s = .next t ∧ onlyAnswers s t ∧ answered s t q 0x002 0 ws)
      ∧ (∀ ws, 16 < ws.length → ∃ t, exec (.echo q ws) s = .next t ∧ onlyAnswers s t ∧ answered s t q 0x002 0x020 []))
    ∧ (mayServe s q [.monitor] false →
      (∃ t ws, exec (.status q) s = .next t ∧ onlyAnswers s t ∧ answered s t q 0x003 0 ws ∧ ws.length = 8
        ∧ ws.getD 0 0 = viewReg s 1024 0x04000010 ∧ ws.getD 1 0 = viewReg s 1024 0x04070001 ∧ ws.getD 2 0 = viewReg s 1024 0x04070002
        ∧ ws.getD 3 0 = reg s timState ∧ ws.getD 4 0 = word (s.day.n % 2 ^ 36) ∧ ws.getD 5 0 = word (s.day.n / 2 ^ 36 % 4096)
        ∧ ws.getD 6 0 = reg s fabStatus ∧ ws.getD 7 0 = reg s midLastF)
      ∧ (∀ (a : Word) (n : Nat), 1 ≤ n → n ≤ 256 → (∀ i < n, isShared (a.toNat + i) = true
          ∧ gate s 1024 false .read (a + BitVec.ofNat 36 i) = none) →
          (pointsFree s 1024 0 a.toNat n → ∃ t, exec (.read q a n) s = .next t ∧ onlyServes s t
            ∧ answered s t q 0x010 0 (validity ((List.range n).map fun i => some (peekMem s (a.toNat + i)))))
          ∧ (¬ pointsFree s 1024 0 a.toNat n → ∃ t, exec (.read q a n) s = .next t ∧ waits s t q (.read a n)))
      ∧ (∀ (a : Word) (r : Nat × Nat), blockedAt s 1024 0 a.toNat = false →
        gate s 1024 false .read a = some r → ∃ t, exec (.read q a 1) s = .next t
        ∧ answered s t q 0x010 0 (List.replicate 8 0 ++ [poison]) ∧ t.mem = s.mem ∧ regsKeptF [gateStatus, gateCnt, cmpStatus] s t)
      ∧ (∀ (a : Word) (n : Nat), n = 0 ∨ 256 < n → ∃ t, exec (.read q a n) s = .next t ∧ onlyAnswers s t ∧ answered s t q 0x010 0x022 [])
      ∧ (∀ (a : Word) (n : Nat), 1 ≤ n → n ≤ 64 → ∃ t, exec (.log q a n) s = .next t ∧ onlyAnswers s t
        ∧ answered s t q 0x011 0 (((s.log.filter fun l => a.toNat ≤ l.seq).take n).flatMap logWords))
      ∧ (∃ t, exec (.telem q) s = .next t ∧ onlyAnswers s t ∧ answered s t q 0x012 0 s.telem.set)
      ∧ (∀ n, n < 8 → ∃ t, exec (.pmucfg q n) s = .next t ∧ onlyAnswers s t
        ∧ answered s t q 0x013 0 (configFrame s n 6))
      ∧ (∀ n, 8 ≤ n → ∃ t, exec (.pmucfg q n) s = .next t ∧ onlyAnswers s t ∧ answered s t q 0x013 0x022 []))

/-- STOP of a standby, of a BENCH module and a forced stop are accepted for the next midnight, a plain one in ACTIVE as a
switchover or, without a ready partner, refused with 0x712. RESTART takes a STOPPED module, or one that waits for its next
attempt, to DAYBREAK after its response. SWITCH arms day W or is refused with its reason. UNLOCK answers the result of
SAF_UNLOCK. FPLINE writes a line. ARM arms the staged change or refuses it. SWITCH and ARM in another state answer STATE and
show the reason (the model's choice, log entry 158). -/
def Obligations.CommandingRequestsAct : Prop :=
  ∀ (q : Rq) (s : State), s.wf →
    (mayServe s q [.operator] true →
      (s.mst = .standby ∨ s.mst = .bench → s.stopReq = none → ∃ t, exec (.stop q 0) s = .next t
        ∧ answered s t q 0x020 1 [word ((s.day.n + 1) % 2 ^ 36)] ∧ t.stopReq = some (false, q.sess.val, q.tag)
        ∧ t.stopActivate = false ∧ t.regs = s.regs ∧ t.mst = s.mst)
      ∧ (s.mst = .active → partnerReady s = false → ∃ t, exec (.stop q 0) s = .next t ∧ answered s t q 0x020 0x030 [word 0x712, 2]
        ∧ t.stopReq = s.stopReq ∧ raised 0x712 (dayN s % 2 ^ 36) s t ∧ getF t pairSwSt 11 4 = 2)
      ∧ (s.mst = .active → partnerReady s = true → reg s pairSwDay = 0 → s.stopReq = none → ∃ t, exec (.stop q 0) s = .next t
        ∧ answered s t q 0x020 1 [word ((s.day.n + 2) % 2 ^ 36) + 1] ∧ reg t pairSwDay = word ((s.day.n + 2) % 2 ^ 36)
        ∧ getF t pairSwSt 3 0 = 1 ∧ t.stopReq = some (false, q.sess.val, q.tag) ∧ regsKept [pairSwDay, pairSwSt] s t)
      ∧ (s.mst = .stopped → ∃ t, exec (.restart q) s = .next t ∧ t.mst = .daybreak ∧ t.mlast = 5 ∧ t.sess = []
        ∧ (∃ o, t.out = s.out ++ .response q.sess q.tag 0x021 0 [] :: o) ∧ t.day.run = false ∧ t.mem = [] ∧ t.eng = [])
      ∧ (∀ w, s.mst = .active → switchReason s (fullDay s w) = none → ∃ t, exec (.switch q w) s = .next t
        ∧ answered s t q 0x022 1 [w + 1] ∧ reg t pairSwDay = w ∧ getF t pairSwSt 3 0 = 1
        ∧ t.link.swOwner = some (q.sess.val, q.tag) ∧ regsKept [pairSwDay, pairSwSt] s t)
      ∧ (∀ w r, s.mst = .active → switchReason s (fullDay s w) = some r → ∃ t, exec (.switch q w) s = .next t
        ∧ answered s t q 0x022 0x030 [word 0x712, word r] ∧ reg t pairSwDay = reg s pairSwDay
        ∧ raised 0x712 (dayN s % 2 ^ 36) s t ∧ t.link = s.link)
      ∧ (∀ w, s.mst ≠ .active → ∃ t, exec (.switch q w) s = .next t ∧ answered s t q 0x022 0x011 []
        ∧ raised 0x712 (dayN s % 2 ^ 36) s t ∧ getF t pairSwSt 11 4 = 1 ∧ reg t pairSwDay = reg s pairSwDay ∧ t.link = s.link)
      ∧ (s.mst = .daybreak → s.boot.waitEnd ≠ none → ∃ t, exec (.restart q) s = .next t ∧ t.mst = .daybreak ∧ t.mlast = 1
        ∧ t.sess = [] ∧ (∃ o, t.out = s.out ++ .response q.sess q.tag 0x021 0 [] :: o) ∧ t.day.run = false ∧ t.boot.waitEnd = none)
      ∧ (∀ d, d < 64 → s.mst = .active ∨ s.mst = .bench →
        (drvState s d = 4 → causePersists s d = false → ∃ t, exec (.hostUnlock q d) s = .next t ∧ answered s t q 0x023 0 []
          ∧ drvState t d = 3 ∧ getF t safUnlock 7 6 = 1)
        ∧ (drvState s d = 4 → causePersists s d = true → ∃ t f, exec (.hostUnlock q d) s = .next t
          ∧ answered s t q 0x023 0x030 [f, 2] ∧ drvState t d = 4 ∧ getF t safUnlock 7 6 = 2 ∧ regsKept [safUnlock] s t)
        ∧ (drvState s d ≠ 4 → ∃ t f, exec (.hostUnlock q d) s = .next t ∧ answered s t q 0x023 0x030 [f, 3]
          ∧ drvState t d = drvState s d ∧ getF t safUnlock 7 6 = 3 ∧ regsKept [safUnlock] s t)))
    ∧ (mayServe s q [.secadmin] true → s.mst = .active → s.stopReq = none → ∃ t, exec (.stop q 1) s = .next t
      ∧ answered s t q 0x020 1 [word ((s.day.n + 1) % 2 ^ 36)] ∧ t.stopReq = some (true, q.sess.val, q.tag) ∧ t.regs = s.regs)
    ∧ (mayServe s q [.operator] true → ∀ (n : Nat) (ws : List Word),
      (ws.length = 8 → (∀ w ∈ ws, w &&& ~~~(word fpdChars) = 0) →
        (4 ≤ n → n ≤ 11 → ∃ t, exec (.fpline q n ws) s = .next t
          ∧ answered s t q 0x024 0 [] ∧ (∀ j < 8, reg t (fpdLine n j) = ws.getD j 0)
          ∧ regsKept ((List.range 8).map (fpdLine n)) s t ∧ t.mem = s.mem)
        ∧ (n < 4 ∨ 11 < n → ∃ t, exec (.fpline q n ws) s = .next t ∧ onlyAnswers s t ∧ answered s t q 0x024 0x022 []))
      ∧ (ws.length ≠ 8 ∨ (∃ w ∈ ws, w &&& ~~~(word fpdChars) ≠ 0) →
        ∃ t, exec (.fpline q n ws) s = .next t ∧ onlyAnswers s t ∧ answered s t q 0x024 0x020 []))
    ∧ (mayServe s q [.engineer] true → s.mst ≠ .active → s.mst ≠ .bench → ∀ w, ∃ t, exec (.arm q w) s = .next t
      ∧ answered s t q 0x035 0x011 [] ∧ raised 0x230 0 s t ∧ getF t dayChg 3 0 = 5 ∧ t.day.changeDay = s.day.changeDay)
    ∧ (mayServe s q [.engineer] true → s.mst = .active ∨ s.mst = .bench → ∀ w,
      (∀ p, s.boot.staged = some p → (∀ b, armReason s (fullDay s w) b = none) →
        ∃ t, exec (.arm q w) s = .next t ∧ answered s t q 0x035 1 [w] ∧ t.day.changeDay = some (fullDay s w)
          ∧ getF t dayChg 3 0 = 2 ∧ reg t dayChgDay = word (fullDay s w % 2 ^ 36) ∧ t.armReq = some (q.sess.val, q.tag)
          ∧ regsKept [dayChg, dayChgDay] s t)
      ∧ (s.boot.staged = none → ∃ t, exec (.arm q w) s = .next t ∧ answered s t q 0x035 0x030 [word 0x230, 7]
        ∧ raised 0x230 0 s t ∧ getF t dayChg 3 0 = 5 ∧ getF t dayChg 11 4 = 7 ∧ t.day.changeDay = s.day.changeDay))

/-- A connection to the module's own address and port whose handshake succeeds opens the lowest free session with the role
set of its chain and its OPENED notice, or with none in delivery state; a chain without roles raises 0xB31; a failed
handshake, a certificate outside its validity period, revoked, or under no trust anchor raises 0xB30 once a second for a
peer; a fifth in a second, another address or port, a dropped frame and an eleventh echo are counted for their port, with
0xB32 once a minute. An idle, failed or misframed session closes with its reason, and a well framed request of no command,
or in no command's format, is answered so; a key update, due after 1 h or 2^24 records, leaves the session open. The
generator becomes ready with 512 bits and 0xB21; a health failure after that makes it not ready with 0xB20; a reseed, due
after 2^20 requests or 1 s, adds 384 bits to its count. A debug grant whose last day is over ends: the level is 0 and every
halted engine goes on from now. An update session whose host session has been gone for 60 s is lost with 0xA23, and before
that stays. A command whose condition does not hold leaves the state as it was: the model's choice (log entry 8). -/
def Obligations.HostSessionsAndRandomness : Prop :=
  (∀ (s : State), s.wf →
    (∀ (p : Fin 4) (peer : BitVec 32) (d : Dial) (chain : List Cert) (n : Nat), listening s = true →
      (lastSecond s s.net.conns).length < 4 → d.dest = (netOf s (p / 2)).addr → d.tcp = hostPort s → freeSess s = some n →
      (∀ x : HostSess, x = { last := s.now, port := p.val, rank := nextRank s, server := serverSlot s, keyAt := s.now } →
        rngReady s = true → d.tlsOk = true → chain ≠ [] → chain.length ≤ 4 → (∀ c ∈ chain, certValid s c = true) →
        (delivery s = true → ∃ t, exec (.hostConnection p peer d chain) s = .next t ∧ hostSess t n = some x
          ∧ t.out = s.out ++ [.notice n 1 0 0 [word (n + 1), 0, viewMid s 0x10]] ∧ regsKept [secRngSt] s t
          ∧ (∀ m, m ≠ n → hostSess t m = hostSess s m)
          ∧ t = { s with sess := t.sess, net := t.net, out := t.out, rng := t.rng, regs := t.regs, tk := t.tk })
        ∧ (delivery s = false → anchored s chain = true → (∀ c ∈ chain, revokedBy s c = false) →
          (∀ r, rolesOf s (chain.map (·.finger)) = some r → ∃ t, exec (.hostConnection p peer d chain) s = .next t
            ∧ hostSess t n = some { x with roles := r }
            ∧ t.out = s.out ++ [.notice n 1 0 0 [word (n + 1), word (roleBits r), viewMid s 0x10]] ∧ regsKept [secRngSt] s t
            ∧ (∀ m, m ≠ n → hostSess t m = hostSess s m)
            ∧ t = { s with sess := t.sess, net := t.net, out := t.out, rng := t.rng, regs := t.regs, tk := t.tk })
          ∧ (rolesOf s (chain.map (·.finger)) = none → ∃ t, exec (.hostConnection p peer d chain) s = .next t ∧ t.sess = s.sess
            ∧ raised 0xB31 peer.toNat s t ∧ bitOf t secStatus 2 = true ∧ regsKeptF [secStatus, secRngSt] s t)))
      ∧ (rngReady s = false ∨ d.tlsOk = false ∨ chain = [] ∨ 4 < chain.length ∨ (∃ c ∈ chain, certValid s c = false)
          ∨ (delivery s = false ∧ (anchored s chain = false ∨ ∃ c ∈ chain, revokedBy s c = true)) →
        ∃ t, exec (.hostConnection p peer d chain) s = .next t ∧ t.sess = s.sess ∧ bitOf t secStatus 1 = true
        ∧ (tabGet 0 s.net.tlsAt peer.toNat = 0 → raised 0xB30 peer.toNat s t)
        ∧ (tabGet 0 s.net.tlsAt peer.toNat ≠ 0 → s.now + 1 < tabGet 0 s.net.tlsAt peer.toNat + 250000000 →
          t.logQ = s.logQ ∧ regsKept [secStatus] s t)))
    ∧ (∀ (p : Fin 4) (peer : BitVec 32) (d : Dial) (chain : List Cert), listening s = true →
      4 ≤ (lastSecond s s.net.conns).length ∨ d.dest ≠ (netOf s (p / 2)).addr ∨ d.tcp ≠ hostPort s →
      ∃ t, exec (.hostConnection p peer d chain) s = .next t ∧ dropped s t
        ∧ getF t (netDrop (p.val + 1)) 35 0 = min (getF s (netDrop (p.val + 1)) 35 0 + 1) (2 ^ 36 - 1))
    ∧ (∀ (p : Fin 4) (peer : BitVec 32) (d : Dial) (chain : List Cert), listening s = false →
      exec (.hostConnection p peer d chain) s = .next s)
    ∧ (∀ (p : Fin 4) (peer : BitVec 32), ∃ t, exec (.networkFrameDrop p peer) s = .next t ∧ t.sess = s.sess ∧ t.mem = s.mem
      ∧ getF t (netDrop (p.val + 1)) 35 0 = min (getF s (netDrop (p.val + 1)) 35 0 + 1) (2 ^ 36 - 1)
      ∧ (s.net.dropAt = 0 → raised 0xB32 peer.toNat s t) ∧ regsKeptF [netDrop (p.val + 1)] s t)
    ∧ (∀ (p : Fin 4) (i : Nat), ((lastSecond s (tabGet [] s.net.echoes (p.val / 2))).length < 10 →
        ∃ t, exec (.icmpEcho p i) s = .next t ∧ t = { s with net := t.net, out := s.out ++ [.icmp p i] })
      ∧ (10 ≤ (lastSecond s (tabGet [] s.net.echoes (p.val / 2))).length → ∃ t, exec (.icmpEcho p i) s = .next t ∧ t.out = s.out
        ∧ getF t (netDrop (p.val + 1)) 35 0 = min (getF s (netDrop (p.val + 1)) 35 0 + 1) (2 ^ 36 - 1)))
    ∧ (∀ (n : Fin 8) (x : HostSess), hostSess s n = some x →
      (x.last + 75000000000 ≤ s.now → ∃ t, exec (.sessionIdleTimeout n) s = .next t ∧ hostSess t n = none
        ∧ t.out = s.out ++ [.notice n 2 0 0 [2]] ∧ (∀ m, m ≠ n.val → hostSess t m = hostSess s m) ∧ regsKept [secDbg] s t)
      ∧ (s.now < x.last + 75000000000 → exec (.sessionIdleTimeout n) s = .next s)
      ∧ (∃ t, exec (.tlsFailure n) s = .next t ∧ hostSess t n = none ∧ t.out = s.out ++ [.notice n 2 0 0 [6]])
      ∧ (x.keyAt + 900000000000 ≤ s.now ∨ 2 ^ 24 ≤ keyRecords s n → ∃ t, exec (.keyUpdate n) s = .next t
        ∧ t = { s with sess := t.sess, out := s.out ++ [.keyUpdate n] } ∧ hostSess t n = some { x with keyAt := s.now }
        ∧ ∀ m, m ≠ n.val → hostSess t m = hostSess s m)
      ∧ (s.now < x.keyAt + 900000000000 → keyRecords s n < 2 ^ 24 → exec (.keyUpdate n) s = .next s)
      ∧ (∀ v w, kindOf v ≠ 1 ∨ 1280 < lenOf w → ∃ t, exec (.hostFramingError n v w) s = .next t ∧ hostSess t n = none
        ∧ t.out = s.out ++ [.notice n 2 0 0 [3]])
      ∧ (∀ (v w : Word) (q : Rq), kindOf v = 1 → lenOf w ≤ 1280 → q = ⟨n, tagOf v⟩ → mayServe s q [] true → codeOf v ≠ 0x042 →
        ∃ t, exec (.hostFramingError n v w) s = .next t ∧ onlyAnswers s t
          ∧ answered s t q (codeOf v) (if codeOf v ∈ commandCodes then 0x020 else 0x021) [])))
  ∧ (∀ (s : State), s.wf →
    (rngReady s = false → ∃ t, exec .rngReady s = .next t ∧ rngReady t = true ∧ getF t secRngSt 11 1 = 512 ∧ raised 0xB21 0 s t
      ∧ regsKeptF [secRngSt] s t ∧ t.vault = s.vault)
    ∧ (rngReady s = true → exec .rngReady s = .next s
      ∧ (∃ t, exec .rngHealthFail s = .next t ∧ rngReady t = false ∧ bitOf t secStatus 0 = true ∧ raised 0xB20 0 s t
        ∧ regsKeptF [secRngSt, secStatus] s t ∧ t.vault = s.vault)
      ∧ (2 ^ 20 ≤ s.rng.draws ∨ s.rng.seededAt + 250000000 ≤ s.now → ∃ t, exec .drbgReseed s = .next t ∧ rngReady t = true
        ∧ regsKept [secRngSt] s t ∧ getF t secRngSt 11 1 = min (getF s secRngSt 11 1 + 384) 2047
        ∧ t.rng = { draws := 0, seededAt := s.now } ∧ t.mem = s.mem ∧ t.vault = s.vault)
      ∧ (s.rng.draws < 2 ^ 20 → s.now < s.rng.seededAt + 250000000 → exec .drbgReseed s = .next s))
    ∧ (∀ g, s.grant = some g → (g.2.lastDay < presentDay s → ∃ t, exec .grantExpiry s = .next t ∧ t.grant = none
        ∧ getF t secDbg 1 0 = 0 ∧ regsKept [secDbg] s t ∧ t.sess = s.sess ∧ t.mem = s.mem
        ∧ ∀ e, (engine t e).halted = false ∧ (engine t e).haltReq = false ∧ (engine t e).w = (engine s e).w
          ∧ ((engine s e).halted = true → (engine t e).prev = s.now)
          ∧ ((engine s e).halted = false → (engine s e).haltReq = false → (engine s e).stepN = 0 → engine t e = engine s e))
      ∧ (presentDay s ≤ g.2.lastDay → exec .grantExpiry s = .next s))
    ∧ (∀ u n, s.boot.session = some u → u.lostAt = some n →
      (n + 15000000000 ≤ s.now → ∃ t, exec .updateSessionLoss s = .next t ∧ t.boot.session = none ∧ getF t updSess 3 0 = 5
        ∧ bitOf t updStatus 4 = true ∧ reg t midLastF = word 0xA23 ∧ t.boot.slots = s.boot.slots ∧ t.mem = s.mem)
      ∧ (s.now < n + 15000000000 → exec .updateSessionLoss s = .next s)))

/-- Each VAULT subfunction in a state but DAYBREAK puts its item into the slot it names within its range, deletes a slot
other than the last administrator's anchor, or lists them; a slot out of range is answered RANGE. ZEROISE of a STOPPED
module under its own serial number empties the vault and both configuration slots with 0xB51; COMMISSION in delivery state
fills three slots; both then close every session with reason 4. DBGCHAL answers a fresh free challenge, and a grant that
holds raises its session's level with 0xB41. -/
def Obligations.VaultAndGrants : Prop :=
  ∀ (q : Rq) (s : State), s.wf →
    (mayServe s q [.secadmin] true → s.mst ≠ .daybreak →
      (∀ (c : Instr) (k : Nat) (x : VaultItem), (∃ n, k = n ∧ ((c = .vaultInstallConfigKey q n x ∧ 2 ≤ n ∧ n ≤ 9)
          ∨ (c = .vaultInstallTrustAnchor q n x ∧ 10 ≤ n ∧ n ≤ 17) ∨ (c = .vaultInstallDebugKeys q n x ∧ 18 ≤ n ∧ n ≤ 19)
          ∨ (c = .vaultInstallAccessAnchor q n x ∧ 20 ≤ n ∧ n ≤ 23)))
          ∨ (c = .vaultReplaceCrl q x ∧ 10 ≤ x.keyid ∧ x.keyid ≤ 17 ∧ k = 22 + x.keyid)
          ∨ (c = .vaultInstallDeviceCert q x ∧ vaultHas s 1 = true ∧ k = 1) →
        ∃ t, exec c s = .next t ∧ answered s t q 0x040 0 [] ∧ t.vault = insertItem k x s.vault ∧ t.regs = s.regs ∧ t.mem = s.mem)
      ∧ (∀ (n : Nat) (x : VaultItem), ¬(2 ≤ n ∧ n ≤ 9) → ∃ t, exec (.vaultInstallConfigKey q n x) s = .next t ∧ onlyAnswers s t
        ∧ answered s t q 0x040 0x022 [])
      ∧ (rngReady s = true → ∃ t, exec (.vaultGenerateDeviceKey q) s = .next t
        ∧ answered s t q 0x040 0 (Config.keyRequest (Config.vaultKey s.fresh))
        ∧ t.vault = insertItem 1 ⟨0, Config.vaultKey s.fresh, [], 0, []⟩ s.vault)
      ∧ (rngReady s = false → ∃ t, exec (.vaultGenerateDeviceKey q) s = .next t ∧ onlyAnswers s t ∧ answered s t q 0x040 0x014 [])
      ∧ (∀ n, 1 ≤ n → n ≤ 23 → lastAdmin s n = false → ∃ t, exec (.vaultDeleteSlot q n) s = .next t ∧ answered s t q 0x040 0 []
        ∧ t.vault = s.vault.filter fun v => v.1 != n)
      ∧ (∃ t, exec (.vaultDeleteSlot q 24) s = .next t ∧ answered s t q 0x040 0 []
        ∧ t.vault = s.vault.filter fun v => !(v.1 == 24 || 32 ≤ v.1))
      ∧ (∀ n, lastAdmin s n = true → ∃ t, exec (.vaultDeleteSlot q n) s = .next t ∧ onlyAnswers s t ∧ answered s t q 0x040 0x022 [])
      ∧ (∃ t, exec (.vaultListSlots q) s = .next t ∧ onlyAnswers s t ∧ answered s t q 0x040 0 (Config.vaultList
        ((0, 0, Config.deviceId) :: s.vault.map fun v => (Nat.min v.1 24, v.2.keyid, v.2.finger)))))
    ∧ (mayServe s q [.secadmin] true → s.mst = .stopped → rngReady s = true → ∃ t, exec (.zeroise q serialWords) s = .next t
      ∧ t.vault = [] ∧ slotOf t 0 1 = {} ∧ slotOf t 1 1 = {} ∧ slotOf t 0 0 = slotOf s 0 0 ∧ slotOf t 1 0 = slotOf s 1 0
      ∧ t.sess = [] ∧ bitOf t secStatus 4 = true ∧ reg t midLastF = word 0xB51
      ∧ (∃ o, t.out = s.out ++ .response q.sess q.tag 0x041 0 [] :: o))
    ∧ (∀ (x : HostSess) (a b c : VaultItem), atOnce s q x → delivery s = true → exclBusy s = false →
      c.roles.contains .secadmin = true → rngReady s = true → ∃ t, exec (.commission q a b c) s = .next t
        ∧ t.vault = insertItem 20 c (insertItem 10 b (insertItem 2 a s.vault)) ∧ t.sess = [] ∧ delivery t = false
        ∧ (∃ o, t.out = s.out ++ .response q.sess q.tag 0x042 0 [] :: o))
    ∧ (mayServe s q [.service] false → rngReady s = true → ∃ t, exec (.dbgchal q) s = .next t
      ∧ answered s t q 0x050 0 (octetPair (Config.freeChallenge s.fresh)) ∧ t.fresh = s.fresh + 1 ∧ t.grant = s.grant
      ∧ (∀ x, hostSess t q.sess = some x → x.challenge = some (Config.freeChallenge s.fresh)) ∧ regsKept [secRngSt] s t)
    ∧ (mayServe s q [.service] true → ∀ g, (grantHolds s q.sess g = true → ∃ t, exec (.dbggrant q g) s = .next t
        ∧ answered s t q 0x051 0 [word g.level] ∧ t.grant = some (q.sess.val, g) ∧ getF t secDbg 1 0 = g.level
        ∧ raised 0xB41 0 s t ∧ regsKeptF [secDbg] s t)
      ∧ (grantHolds s q.sess g = false → ∃ t f, exec (.dbggrant q g) s = .next t ∧ answered s t q 0x051 0x030 [0xB40, f]
        ∧ t.grant = s.grant ∧ bitOf t secStatus 3 = true ∧ raised 0xB40 0 s t ∧ regsKeptF [secStatus] s t))

/-- A crossing moves the terminal's voltage and raw band by the thresholds of R443, and at FILT 0 queues an edge event,
which arrives its edge delay later; the filtered band follows once the raw band has stood for the filter time, with an event
at FILT 1 to 3 where it enters or leaves On. A freeze that ends takes the raw band without an event; 250 ticks after loading
starts every filtered band is the raw band. A loop sample is kept with those of the last 100 ms. A command whose condition
does not hold leaves the state as it was: the model's choice (log entry 8). -/
def Obligations.InputBandsFollowTheTerminals : Prop :=
  ∀ (s : State) (l : Fin 24), s.wf →
    (∀ mv : Int, ∃ t, exec (.inputCrossing l mv) s = .next t ∧ (chan t l).mv = mv
      ∧ (11000 ≤ mv → (chan t l).raw = .on) ∧ (2000 ≤ mv → mv ≤ 8000 → (chan t l).raw = .openContact)
      ∧ (mv < 1500 → (chan t l).raw = .wireBreak)
      ∧ ((1500 ≤ mv ∧ mv < 2000) ∨ (8000 < mv ∧ mv < 11000) → (chan t l).raw = (chan s l).raw)
      ∧ (∀ m, m ≠ l.val → chan t m = chan s m) ∧ regsKeptF [lioIn (l.val + 1)] s t ∧ t.mem = s.mem
      ∧ getF t (lioIn (l.val + 1)) 6 0 = getF s (lioIn (l.val + 1)) 6 0
      ∧ (getF s (lioCfg (l.val + 1)) 25 24 = 0 → edgesOn s l = true →
        (((chan s l).mv < 11000 ∧ 11000 ≤ mv) → deliversLater (slice (reg s (lioEdly (l.val + 1))).toNat 17 0) (0x900 + l.val) 1 s t)
        ∧ ((8000 ≤ (chan s l).mv ∧ mv < 8000) → deliversLater (slice (reg s (lioEdly (l.val + 1))).toNat 35 18) (0x900 + l.val) 0 s t)
        ∧ (¬((chan s l).mv < 11000 ∧ 11000 ≤ mv) → ¬(8000 ≤ (chan s l).mv ∧ mv < 8000) → t.eng = s.eng))
      ∧ (getF s (lioCfg (l.val + 1)) 25 24 ≠ 0 ∨ edgesOn s l = false → t.eng = s.eng ∧ regsKept [lioIn (l.val + 1)] s t))
    ∧ (hasStood s l = true → (chan s l).frozen = false → nowBand s l ≠ bandCode (chan s l).raw →
      ∃ t, exec (.filteredBandChange l) s = .next t ∧ nowBand t l = bandCode (chan s l).raw ∧ t.lio = s.lio ∧ t.mem = s.mem
        ∧ regsKeptF [lioIn (l.val + 1)] s t
        ∧ (getF s (lioCfg (l.val + 1)) 25 24 ≠ 0 → edgesOn s l = true →
          ((chan s l).raw = .on → deliversLater (slice (reg s (lioEdly (l.val + 1))).toNat 17 0) (0x900 + l.val) 1 s t)
          ∧ (nowBand s l = 2 → deliversLater (slice (reg s (lioEdly (l.val + 1))).toNat 35 18) (0x900 + l.val) 0 s t)
          ∧ ((chan s l).raw ≠ .on → nowBand s l ≠ 2 → t.eng = s.eng))
        ∧ (getF s (lioCfg (l.val + 1)) 25 24 = 0 ∨ edgesOn s l = false → t = { s with regs := t.regs, tk := t.tk }))
    ∧ (hasStood s l = false ∨ (chan s l).frozen = true ∨ nowBand s l = bandCode (chan s l).raw →
      exec (.filteredBandChange l) s = .next s)
    ∧ (∀ n, (chan s l).frozen = true → (chan s l).freezeEnd = some n →
      (n ≤ s.now → ∃ t, exec (.freezeEnd l) s = .next t ∧ (chan t l).frozen = false ∧ (chan t l).freezeEnd = none
        ∧ (hasStood s l = true → nowBand t l = bandCode (chan s l).raw) ∧ (hasStood s l = false → t.regs = s.regs)
        ∧ (∀ m, m ≠ l.val → chan t m = chan s m) ∧ regsKept [lioIn (l.val + 1)] s t
        ∧ t = { s with regs := t.regs, tk := t.tk, lio := t.lio })
      ∧ (s.now < n → exec (.freezeEnd l) s = .next s))
    ∧ ((chan s l).freezeEnd = none → exec (.freezeEnd l) s = .next s)
    ∧ (∀ n, s.lio.loading = true → s.lio.settled = false → s.lio.loadAt = some n →
      (n + 250 ≤ s.now → ∃ t, exec .loadingSettle s = .next t ∧ t.lio.settled = true ∧ nowBand t l = bandCode (chan s l).raw
        ∧ (∀ a, (∀ m : Fin 24, a ≠ lioIn (m.val + 1)) → reg t a = reg s a) ∧ t.lio.chans = s.lio.chans
        ∧ t = { s with regs := t.regs, tk := t.tk, lio := t.lio })
      ∧ (s.now < n + 250 → exec .loadingSettle s = .next s))
    ∧ (∀ (a : Fin 8) (ua : Int) (lim : Bool), ∃ t, exec (.loopSample a ua lim) s = .next t
      ∧ tabGet [] t.lio.loops a = (tabGet [] s.lio.loops a).filter (fun x => s.now < x.1 + 25000000) ++ [(s.now, ua, lim)]
      ∧ (∀ b, b ≠ a.val → tabGet [] t.lio.loops b = tabGet [] s.lio.loops b) ∧ t.lio.chans = s.lio.chans
      ∧ t = { s with lio := t.lio })

/-- A plant write to a channel that the monitor does not own sets its output value and counts as a write of the day; to an
owned one it does nothing. A PWM channel takes the duty of 251 ticks before at a reload instant. An overload turns the
driver off with 0x920; a readback that disagrees when it is judged raises 0x921 or 0x922, an open load 0x923, a group supply
that leaves its range 0x924, and a test supply at its limit is off for 100 ms with 0x930. A command whose condition does not
hold leaves the state as it was: the model's choice (log entry 8). -/
def Obligations.OutputsAndSupplies : Prop :=
  ∀ (s : State) (l : Fin 24), s.wf →
    (∀ v : BitVec 10, (owned s l = true → exec (.lioOutWrite l v) s = .next (noteWrote (lioOut (l.val + 1)) s))
      ∧ (owned s l = false → ∃ t, exec (.lioOutWrite l v) s = .next t ∧ reg t (lioOut (l.val + 1)) = v.setWidth 36
        ∧ regsKept [lioOut (l.val + 1)] s t ∧ (chan t l).written = true ∧ (chan t l).driven = (chan s l).driven
        ∧ (∀ m, m ≠ l.val → chan t m = chan s m) ∧ t = { s with regs := t.regs, tk := t.tk, lio := t.lio }))
    ∧ (chanDir s l = 3 → reloadNow s (getF s (lioCfg (l.val + 1)) 20 10) = true → owned s l = false →
      bitOf s (lioIn (l.val + 1)) 11 = false → (chan s l).ovlAt = none ∨ (chan s l).retried = true → ∃ t, exec (.pwmReload l) s = .next t
        ∧ (chan t l).driven = min (outBefore s l) 1000 ∧ regsKept [lioIn (l.val + 1)] s t
        ∧ (∀ m, m ≠ l.val → chan t m = chan s m) ∧ t = { s with regs := t.regs, tk := t.tk, lio := t.lio })
    ∧ (chanDir s l ≠ 3 ∨ reloadNow s (getF s (lioCfg (l.val + 1)) 20 10) = false ∨ owned s l = true
        ∨ bitOf s (lioIn (l.val + 1)) 11 = true ∨ ((chan s l).ovlAt ≠ none ∧ (chan s l).retried = false) →
      exec (.pwmReload l) s = .next s)
    ∧ (drivenNow s l ≠ 0 →
      (∃ t, exec (.outputOverload l) s = .next t ∧ (chan t l).driven = 0 ∧ (chan t l).ovlAt = some s.now
        ∧ bitOf t (lioIn (l.val + 1)) 10 = true ∧ bitOf t lioStatus 1 = true ∧ raised 0x920 (l.val + 1) s t
        ∧ (∀ m, m ≠ l.val → chan t m = chan s m) ∧ regsKeptF [lioIn (l.val + 1), lioStatus] s t ∧ t.mem = s.mem)
      ∧ (bitOf s (lioCfg (l.val + 1)) 21 = true → ∃ t, exec (.openLoad l) s = .next t
        ∧ bitOf t (lioIn (l.val + 1)) 9 = true ∧ bitOf t lioStatus 4 = true ∧ raised 0x923 (l.val + 1) s t
        ∧ regsKeptF [lioIn (l.val + 1), lioStatus] s t ∧ t = logged s t))
    ∧ (drivenNow s l = 0 → exec (.outputOverload l) s = .next s ∧ exec (.openLoad l) s = .next s)
    ∧ (readbackJudged s l = false → exec (.outputReadbackFault l) s = .next s)
    ∧ (onNow s l = true → ((chan s l).raw ≠ .on → readbackJudged s l = true → ∃ t, exec (.outputReadbackFault l) s = .next t
        ∧ bitOf t (lioIn (l.val + 1)) 7 = true ∧ bitOf t lioStatus 3 = true ∧ raised 0x922 (l.val + 1) s t
        ∧ regsKeptF [lioIn (l.val + 1), lioStatus] s t ∧ t = logged s t)
      ∧ ((chan s l).raw = .on → exec (.outputReadbackFault l) s = .next s))
    ∧ (onNow s l = false → ((chan s l).raw ≠ .on → exec (.outputReadbackFault l) s = .next s)
      ∧ (holds s = true → isOutput s l = true → owned s l = false → (chan s l).raw = .on → readbackJudged s l = true →
        ∃ t, exec (.outputReadbackFault l) s = .next t ∧ bitOf t (lioIn (l.val + 1)) 8 = true ∧ bitOf t lioStatus 2 = true
          ∧ raised 0x921 (l.val + 1) s t ∧ regsKeptF [lioIn (l.val + 1), lioStatus] s t ∧ t = logged s t))
    ∧ (∀ (g : Fin 3) (ok : Bool), ∃ t, exec (.groupFieldSupplyChange g ok) s = .next t ∧ bitOf t lioTsup (8 + g.val) = ok
      ∧ t = logged s t ∧ regsKeptF [lioTsup, lioStatus] s t
      ∧ (bitOf s lioTsup (8 + g.val) = true → ok = false → raised 0x924 (g.val + 97) s t ∧ bitOf t lioStatus 5 = true)
      ∧ (bitOf s lioTsup (8 + g.val) = false ∨ ok = true → regsKept [lioTsup] s t ∧ t.logQ = s.logQ))
    ∧ (∀ k : Fin 4, (holds s = true → bitOf s lioTsup (4 + k.val) = false → ∃ t, exec (.testSupplyOverload k) s = .next t
        ∧ bitOf t lioTsup (4 + k.val) = true ∧ bitOf t lioStatus 7 = true ∧ raised 0x930 (k.val + 33) s t
        ∧ tabGet 0 t.lio.tovlAt k = s.now + 1 ∧ t.lio.chans = s.lio.chans ∧ regsKeptF [lioTsup, lioStatus] s t)
      ∧ (holds s = false ∨ bitOf s lioTsup (4 + k.val) = true → exec (.testSupplyOverload k) s = .next s)
      ∧ (tabGet 0 s.lio.tovlAt k ≠ 0 →
        (tabGet 0 s.lio.tovlAt k + 25000000 ≤ s.now + 1 → ∃ t, exec (.testSupplyRetry k) s = .next t
          ∧ bitOf t lioTsup (4 + k.val) = false ∧ tabGet 0 t.lio.tovlAt k = 0 ∧ t.lio.chans = s.lio.chans
          ∧ regsKept [lioTsup] s t ∧ t = { s with regs := t.regs, tk := t.tk, lio := t.lio })
        ∧ (s.now + 1 < tabGet 0 s.lio.tovlAt k + 25000000 → exec (.testSupplyRetry k) s = .next s)))

/-- A write of a drive's command takes effect at once: SS1 begins in RUN where the drive permits it; STO, and SS1 where it
does not, remove torque with 0x840; RUN waits for a restart. A frozen monitor takes no write. A drive is resumed on the
first day after a takeover alone. An unlock leaves LOCKOUT for STO with 0x841 once the cause is gone. A stuck torque or
contactor output, and a mirror contact that reads wrongly for longer than TCF, force LOCKOUT with the contactor open. A
command whose condition does not hold leaves the state as it was: the model's choice (log entry 8). -/
def Obligations.DriveCommandsAndLockout : Prop :=
  ∀ (s : State) (d : Fin 64), s.wf →
    (s.saf.frozen = true → (∀ cmd, exec (.safDrvCmdWrite d cmd) s = .next s)
      ∧ (∀ c j v, exec (.safConnRxWrite c j v) s = .next s) ∧ ∀ v, exec (.safResumeWrite d v) s = .next s)
    ∧ (s.saf.frozen = false →
      (∀ cmd : BitVec 2, ∃ t, exec (.safDrvCmdWrite d cmd) s = .next t ∧ reg t (safCmd d) = cmd.setWidth 36
        ∧ (drive t d).cmdToday = true ∧ (∀ e, e ≠ d.val → drive t e = drive s e) ∧ t.saf.conns = s.saf.conns ∧ t.mem = s.mem
        ∧ (drvState s d = 0 ∨ cmd = 2 → drvState t d = drvState s d ∧ regsKept [safCmd d] s t ∧ t.lio = s.lio)
        ∧ (drvState s d = 1 → cmd = 1 → slice (drvPar s d 0) 34 34 = 1 → drvState t d = 2 ∧ getF t (safState d) 23 12 = 0
          ∧ (drive t d).n0 = s.day.n ∧ (drive t d).v0 = (drive s d).speed.map magOf
          ∧ regsKept [safCmd d, safState d] s t ∧ t.lio = s.lio)
        ∧ ((drvState s d = 1 ∧ cmd = 1 ∧ slice (drvPar s d 0) 34 34 = 0)
            ∨ ((drvState s d = 1 ∨ drvState s d = 2) ∧ (cmd = 0 ∨ cmd = 3)) →
          drvState t d = 3 ∧ bitOf t (safState d) 5 = false ∧ (drive t d).edge = false ∧ (drive t d).phase = 0
          ∧ raised 0x840 d s t ∧ (localTorque s d = true → (chan t (tloc s d - 1)).driven = 0)
          ∧ regsKeptF [safCmd d, safState d, lioIn (tloc s d)] s t)
        ∧ ((3 ≤ drvState s d ∧ cmd ≠ 2) ∨ (drvState s d = 2 ∧ cmd = 1) → drvState t d = drvState s d
          ∧ (drive t d).runNext = false ∧ regsKept [safCmd d] s t ∧ t.lio = s.lio))
      ∧ (∀ (c : Fin 128) (j : Fin 6) (v : Word), ∃ t, exec (.safConnRxWrite c j v) s = .next t ∧ reg t (safRx c j) = v
        ∧ (conn t c).mask = (conn s c).mask ||| 2 ^ j.val ∧ (∀ b, b ≠ c.val → conn t b = conn s b)
        ∧ regsKept [safRx c j] s t ∧ t.saf.drives = s.saf.drives ∧ t = { s with regs := t.regs, tk := t.tk, saf := t.saf })
      ∧ (∀ v : Word, (s.saf.resumeDay = some s.day.n → supervised s d = true →
          ∃ t, exec (.safResumeWrite d v) s = .next t ∧ (drive t d).resumed = true
            ∧ (drvState s d = 4 → drvState t d = 4)
            ∧ (drvState s d ≠ 4 → v.toNat % 8 = 1 → causeActive s d = false → dayTick s < phaseStart s 3 → drvState t d = 1)
            ∧ (drvState s d ≠ 4 → v.toNat % 8 = 1 → causeActive s d = true ∨ phaseStart s 3 ≤ dayTick s → drvState t d = 3)
            ∧ (drvState s d ≠ 4 → v.toNat % 8 = 2 ∨ v.toNat % 8 = 3 → drvState t d = 3)
            ∧ (drvState s d ≠ 4 → v.toNat % 8 = 4 → drvState t d = 4 ∧ (kloc s d ≠ 0 → (chan t (kloc s d - 1)).driven = 0))
            ∧ (∀ e, e ≠ d.val → drive t e = drive s e) ∧ regsKept [safState d, lioIn (kloc s d)] s t
            ∧ t = { s with regs := t.regs, tk := t.tk, saf := t.saf, lio := t.lio })
        ∧ (s.saf.resumeDay ≠ some s.day.n ∨ supervised s d = false → exec (.safResumeWrite d v) s = .next s)))
    ∧ (drvState s d ≠ 4 → ∃ t, exec (.safUnlockGo d) s = .next t ∧ getF t safUnlock 7 6 = 3 ∧ regsKept [safUnlock] s t
      ∧ t = { s with regs := t.regs, tk := t.tk })
    ∧ (drvState s d = 4 →
      (causePersists s d = true → ∃ t, exec (.safUnlockGo d) s = .next t ∧ getF t safUnlock 7 6 = 2
        ∧ regsKept [safUnlock] s t ∧ t = { s with regs := t.regs, tk := t.tk })
      ∧ (causePersists s d = false → ∃ t, exec (.safUnlockGo d) s = .next t ∧ getF t safUnlock 7 6 = 1 ∧ drvState t d = 3
        ∧ getF t (safState d) 4 3 = 0 ∧ raised 0x841 d s t ∧ (∀ e, e ≠ d.val → drive t e = drive s e)
        ∧ regsKeptF [safUnlock, safState d, lioIn (tloc s d)] s t ∧ t.mem = s.mem))
    ∧ (∀ (l : Fin 24) (pulse : Bool), exec (.darkTest l pulse false) s = .next s
      ∧ (pulse = true → darkCheckNow s = false ∨ darkNow s l = false → exec (.darkTest l pulse true) s = .next s)
      ∧ (holds s = true → owned s l = true → isOutput s l = true →
        (pulse = true ∧ darkCheckNow s = true ∧ darkNow s l = true ∧ (chan s l).driven ≠ 0)
          ∨ (pulse = false ∧ drivenNow s l = 0 ∧ (chan s l).driven = 0 ∧ (chan s l).raw = .on ∧ readbackStood s l = true) →
        (torqueOf s l = some d.val → ∃ t, exec (.darkTest l pulse true) s = .next t ∧ drvState t d = 4
          ∧ bitOf t (safState d) 3 = true ∧ bitOf t safStatus 2 = true ∧ raised 0x814 (d.val + (l.val + 1) * 64) s t
          ∧ (kloc s d ≠ 0 → (chan t (kloc s d - 1)).driven = 0) ∧ (∀ e, e ≠ d.val → drive t e = drive s e)
          ∧ regsKeptF [safState d, safStatus, lioIn (tloc s d), lioIn (kloc s d)] s t ∧ t.mem = s.mem)
        ∧ (torqueOf s l = none → contactorOf s l = some d.val → ∃ t, exec (.darkTest l pulse true) s = .next t ∧ drvState t d = 4
          ∧ bitOf t (safState d) 4 = true ∧ bitOf t safStatus 3 = true ∧ raised 0x816 (d.val + (l.val + 1) * 64) s t
          ∧ (∀ e, e ≠ d.val → drive t e = drive s e)
          ∧ regsKeptF [safState d, safStatus, lioIn (tloc s d), lioIn (kloc s d)] s t ∧ t.mem = s.mem)))
    ∧ (supervised s d = true → holds s = true → feedbackWrong s d = true → bitOf s (safState d) 4 = false →
      (max (if kloc s d = 0 then 0 else (chan s (kloc s d - 1)).drvAt) (chan s (kfb s d - 1)).onAt + tcfTicks s d < s.now →
        ∃ t, exec (.contactorFeedbackTimeout d) s = .next t ∧ drvState t d = 4 ∧ bitOf t (safState d) 4 = true
          ∧ bitOf t safStatus 3 = true ∧ raised 0x816 (d.val + kfb s d * 64) s t
          ∧ (kloc s d ≠ 0 → (chan t (kloc s d - 1)).driven = 0) ∧ (∀ e, e ≠ d.val → drive t e = drive s e)
          ∧ regsKeptF [safState d, safStatus, lioIn (tloc s d), lioIn (kloc s d)] s t ∧ t.mem = s.mem)
      ∧ (s.now ≤ max (if kloc s d = 0 then 0 else (chan s (kloc s d - 1)).drvAt) (chan s (kfb s d - 1)).onAt + tcfTicks s d →
        exec (.contactorFeedbackTimeout d) s = .next s))
    ∧ (supervised s d = false ∨ holds s = false ∨ feedbackWrong s d = false → exec (.contactorFeedbackTimeout d) s = .next s)

/-- At the first tick of Noon each telegram written today is checked, a drive in SS1 ends it by the first row of R421 that
applies or stays, and a drive in STO is to run at the next midnight when every condition of R424 is met. A test pulse begins
at its place in the period, keeps the readings before it and freezes its inputs; its check, 50 µs before its end, fails an
input that stays on, or that another's pulse turns off, and forces its drives to STO. A fault of the monitor is handled as a
mismatch. A command whose condition does not hold leaves the state as it was: the model's choice (log entry 8). -/
def Obligations.NoonEvaluationAndInputTests : Prop :=
  ∀ (s : State), s.wf →
    (safRuns s = false ∨ s.day.run = false ∨ dayTick s ≠ phaseStart s 2 ∨ s.day.noonDone = true → exec .noonEvaluation s = .next s)
    ∧ (safRuns s = true → s.day.run = true → dayTick s = phaseStart s 2 → s.day.noonDone = false → ∃ t, exec .noonEvaluation s = .next t
      ∧ t.mem = s.mem ∧ t.eng = s.eng ∧ t.day = { s.day with noonDone := true } ∧ t.mst = s.mst ∧ t.time = s.time ∧ t.link = s.link ∧ t.ts = s.ts
      ∧ (∀ c : Fin 128, connUsed s c 0 = true → (conn s c).mask ≠ 0 →
        (kindOk s c = true → checkOk s c = true → seqOk s c = true → (conn t c).good = true ∧ (conn t c).missing = 0)
        ∧ (kindOk s c = false ∨ checkOk s c = false ∨ seqOk s c = false → conn t c = conn s c ∧ bitOf t safStatus 6 = true))
      ∧ ((∀ off, ∃ v, tsVoteOf s off = .same v false) → ∀ d : Fin 64, spd2 s d = false →
        (drvState s d = 0 ∨ drvState s d = 1 ∨ drvState s d = 4 → drvState t d = drvState s d)
        ∧ (∀ v0, drvState s d = 2 → (drive s d).n0 < s.day.n → (drive s d).v0 = some v0 →
          (speedOf t (incC s d) = none → drvState t d = 3 ∧ getF t (safState d) 35 24 =
            if daysOf s (slice (drvPar s d 6) 19 0) ≤ s.day.n - (drive s d).n0 then 0x833 else 0x831)
          ∧ (∀ v, speedOf t (incC s d) = some v →
            ((magOf v).toInt ≤ (word (drvPar s d 4)).toInt
                ∨ daysOf s (slice (drvPar s d 6) 19 0) ≤ s.day.n - (drive s d).n0 →
              drvState t d = 3 ∧ getF t (safState d) 35 24 = 0x833)
            ∧ ((word (drvPar s d 4)).toInt < (magOf v).toInt →
              s.day.n - (drive s d).n0 < daysOf s (slice (drvPar s d 6) 19 0) →
              (daysOf s (slice (drvPar s d 5) 19 0) < s.day.n - (drive s d).n0 →
                (rampLimit s d (s.day.n - (drive s d).n0) v0).toInt < (magOf v).toInt →
                drvState t d = 3 ∧ getF t (safState d) 35 24 = 0x830)
              ∧ (s.day.n - (drive s d).n0 ≤ daysOf s (slice (drvPar s d 5) 19 0) → drvState t d = 2)
              ∧ ((magOf v).toInt ≤ (rampLimit s d (s.day.n - (drive s d).n0) v0).toInt → drvState t d = 2))))
        ∧ (drvState s d = 3 → drvState t d = 3 ∧ (drive t d).runNext = (restartMet t d && !causeActive t d
            && (reg s (safCmd d)).toNat == 2 && (conn t (incC s d)).good && (rxWord s (incC s d) 3).getLsbD 0
            && !bitOf s (safState d) 4 && !(kfb s d != 0 && (chan s (kfb s d - 1)).steady)))))
    ∧ (∀ k : Fin 4, (tabGet 0 s.saf.pulse k = 0 → pulseBegins s k = true →
        ∃ t, exec (.testPulseStart k) s = .next t ∧ tabGet 0 t.saf.pulse k = s.now + 1 ∧ t.saf.drives = s.saf.drives
          ∧ (∀ l : Fin 24, (inTest t l).before = (chan s l).raw
            ∧ (supplyOf s l = k.val + 1 → (chan t l).frozen = true ∧ (chan t l).freezeEnd = none)
            ∧ (supplyOf s l ≠ k.val + 1 → chan t l = chan s l))
          ∧ t = { s with saf := t.saf, lio := t.lio })
      ∧ (pulseBegins s k = false ∨ tabGet 0 s.saf.pulse k ≠ 0 → exec (.testPulseStart k) s = .next s)
      ∧ (tabGet 0 s.saf.pulse k ≠ 0 → holds s = true → tabGet 0 s.saf.pulse k + pulseWidth s = s.now + 1 + 12500 →
        tabGet 0 s.saf.checked k ≠ s.now + 1 →
        ∃ t, exec (.testPulseCheck k) s = .next t ∧ t.mem = s.mem ∧ t.saf.pulse = s.saf.pulse
          ∧ tabGet 0 t.saf.checked k = s.now + 1
          ∧ ∀ l : Fin 24, (chanDir s l ≠ 1 ∨ supplyOf s l = 0 → inTest t l = inTest s l ∧ bitOf t safInst l = bitOf s safInst l)
            ∧ (chanDir s l = 1 → supplyOf s l ≠ 0 →
              (pulseFails s k l = true → bitOf t safInst l = true
                ∧ (bitOf s safInst l = false → bitOf t safStatus 0 = true ∧ ∀ d : Fin 64, drvState s d = 1 ∨ drvState s d = 2 →
                  ginCh s d = l.val + 1 ∨ rstCh s d = l.val + 1 → drvState t d = 3 ∧ getF t (safState d) 35 24 = 0x810))
              ∧ (pulseFails s k l = false → supplyOf s l = k.val + 1 → (inTest s l).bad = false →
                (inTest t l).passes = min ((inTest s l).passes + 1) 8
                ∧ bitOf t safInst l = (bitOf s safInst l && decide ((inTest s l).passes < 7)))))
      ∧ (holds s = false ∨ tabGet 0 s.saf.pulse k + pulseWidth s ≠ s.now + 1 + 12500 ∨ tabGet 0 s.saf.checked k = s.now + 1 → exec (.testPulseCheck k) s = .next s)
      ∧ (tabGet 0 s.saf.pulse k ≠ 0 → tabGet 0 s.saf.pulse k + pulseWidth s ≤ s.now + 1 →
        ∃ t, exec (.testPulseEnd k) s = .next t ∧ tabGet 0 t.saf.pulse k = 0
          ∧ (∀ l : Fin 24, (supplyOf s l = k.val + 1 → (chan t l).freezeEnd = some (tabGet 0 s.saf.pulse k + pulseWidth s + 24999))
            ∧ (supplyOf s l ≠ k.val + 1 → chan t l = chan s l))
          ∧ t.saf.drives = s.saf.drives ∧ t = { s with saf := t.saf, lio := t.lio })
      ∧ (s.now + 1 < tabGet 0 s.saf.pulse k + pulseWidth s → exec (.testPulseEnd k) s = .next s))
    ∧ exec (.forcingPathTest true) s = .next s
    ∧ (∀ c n, (c = .monitorDiscrepancy ∧ n = 0x8F0) ∨ (c = .forcingPathTest false ∧ n = 0x8F1) →
      ∃ t, exec c s = .next t ∧ bitOf t safStatus 9 = true ∧ t.mem = s.mem ∧ t.eng = s.eng ∧ t.mst = s.mst
        ∧ regsKeptF [safStatus, fabStatus] s t
        ∧ (s.mst ≠ .active → raised n 0 s t ∧ t = logged s t) ∧ (s.mst = .active ∨ s.mst = .bench → bitOf t fabStatus 0 = true)
        ∧ (s.mst = .active → t.saf.frozen = true ∧ bitOf t safStatus 8 = true ∧ reg t midLastF = word 0x850
          ∧ t.day.broken = true ∧ t.day.beatHeld = true ∧ t.day.halted = true))

/-- A loop current gives its loop's state by the bands of R373. In STANDBY a partner loop that is released, or unknown with
link and partner gone, decides a takeover if READY and raises 0x70B if not; otherwise an unknown one raises 0x701, once a
second. An opened own contact clears the claim. A claim sets the latch at T - 2,500 and is confirmed at T - 1 with a clear
partner, or ends with 0x703; slot B yields to a simultaneous claim and 5 us later claims again or gives up with 0x702. A
command whose condition does not hold leaves the state as it was: the model's choice (log entry 8). -/
def Obligations.ClaimsAndDecisions : Prop :=
  ∀ (s : State) (l : Link), s.wf → l = s.link →
    (∀ x : BitVec 9, exec (.mandateLoopStateChange false x) s = .next (modLink (fun l => { l with own := loopBand x.toNat, ownI := x }) s)
      ∧ ((140 ≤ x.toNat ∧ x.toNat ≤ 180 → loopBand x.toNat = .claimed) ∧ (60 ≤ x.toNat ∧ x.toNat ≤ 100 → loopBand x.toNat = .released)
        ∧ (x.toNat < 60 ∨ (100 < x.toNat ∧ x.toNat < 140) ∨ 180 < x.toNat → loopBand x.toNat = .unknown))
      ∧ ∃ t, exec (.mandateLoopStateChange true x) s = .next t ∧ t.link.part = loopBand x.toNat ∧ t.link.partI = x ∧ t.mem = s.mem
        ∧ t.eng = s.eng ∧ t.mst = s.mst ∧ t.time = s.time ∧ regsKeptF [pairStatus] s t
        ∧ (loopBand x.toNat = l.part → t.link = { l with partI := x } ∧ t.regs = s.regs)
        ∧ (s.mst = .standby → l.part ≠ .released → loopBand x.toNat = .released → l.decided = none → partnerSwitches s = false →
          (pairReady s = true → t.link.decided = some s.now ∧ t.regs = s.regs)
          ∧ (pairReady s = false → t.link.decided = none ∧ raised 0x70B (dayN s % 2 ^ 36) s t ∧ bitOf t pairStatus 11 = true))
        ∧ (s.mst = .standby → l.part ≠ .unknown → loopBand x.toNat = .unknown → l.partner = true ∨ linkUp s = true →
          t.link.decided = l.decided ∧ raised 0x701 (dayN s % 2 ^ 36) s t ∧ bitOf t pairStatus 8 = true)
        ∧ (s.mst = .active → l.part ≠ .claimed → loopBand x.toNat = .claimed → l.swReleased = true → t.link.swSeen = true))
    ∧ (∀ b : Bool, exec (.presenceChange true l.partner) s = .next s ∧ exec (.presenceChange false l.inserted) s = .next s
      ∧ (b ≠ l.partner → ∃ t, exec (.presenceChange true b) s = .next t ∧ t.link.partner = b ∧ t.link.latch = l.latch
        ∧ t.link.part = l.part ∧ t.mem = s.mem ∧ t.eng = s.eng ∧ t.mst = s.mst ∧ regsKeptF [pairStatus] s t)
      ∧ (l.inserted = false → exec (.presenceChange false true) s
        = .next (modLink (fun l => { l with inserted := true, spresAt := some s.now }) s))
      ∧ (l.inserted = true → ∃ t, exec (.presenceChange false false) s = .next t ∧ t.link.inserted = false ∧ t.link.spresAt = none
        ∧ t.link.latch = false ∧ t.link.estab = false ∧ t.link.claimDay = l.claimDay ∧ holds t = false
        ∧ t = { s with link := t.link, lio := t.lio }))
    ∧ (claims s = true → dayTick s + 2500 = dayT s → ∃ t, exec .claimLatchSet s = .next t ∧ t.link.latch = true
      ∧ t.link.claimDay = some (s.day.n + 1) ∧ t.link.confirmed = false ∧ t.link.estab = l.estab ∧ t.link.decided = l.decided
      ∧ (s.mst = .standby → partnerSwitches s = false → t.link.readback = readback s) ∧ t = { s with link := t.link, lio := t.lio })
    ∧ (claims s = false ∨ dayTick s + 2500 ≠ dayT s → exec .claimLatchSet s = .next s)
    ∧ (l.yielded = none → (slotB s = true → simultaneous s = true → ∃ t, exec .yieldRecheck s = .next t ∧ t.link.latch = false
        ∧ t.link.yielded = some s.now ∧ t.link.claimDay = l.claimDay ∧ t = { s with link := t.link, lio := t.lio })
      ∧ (slotB s = false ∨ simultaneous s = false → exec .yieldRecheck s = .next s))
    ∧ (∀ n, l.yielded = some n → (s.now < n + 1250 → exec .yieldRecheck s = .next s)
      ∧ (n + 1250 ≤ s.now → mayClaim s = true → partnerClear l = true → ∃ t, exec .yieldRecheck s = .next t ∧ t.link.latch = true
        ∧ t.link.claimDay = some (s.day.n + 1) ∧ t.link.yielded = none ∧ t = { s with link := t.link, lio := t.lio })
      ∧ (n + 1250 ≤ s.now → mayClaim s = false ∨ partnerClear l = false → ∃ t, exec .yieldRecheck s = .next t ∧ t.link.latch = false
        ∧ t.link.claimDay = none ∧ t.link.decided = none ∧ t.link.claimLost = true ∧ raised 0x702 (dayN s % 2 ^ 36) s t ∧ bitOf t pairStatus 9 = true
        ∧ regsKeptF [pairStatus] s t ∧ t.mem = s.mem ∧ t.mst = s.mst))
    ∧ (s.day.run = true → dayTick s + 1 = dayT s → l.claimDay = some (s.day.n + 1) → l.confirmed = false →
      (l.latch = true → mayClaim s = true → partnerClear l = true → exec .claimConfirmation s
        = .next (modLink (fun l => { l with estab := true, confirmed := true }) s))
      ∧ (l.latch = false ∨ mayClaim s = false ∨ partnerClear l = false → ∃ t, exec .claimConfirmation s = .next t ∧ t.link.latch = false
        ∧ t.link.estab = false ∧ t.link.claimDay = none ∧ t.link.claimLost = true ∧ t.mem = s.mem ∧ t.mst = s.mst
        ∧ regsKeptF [pairStatus] s t
        ∧ (stepSeven s = true → l.joinSent = false → partnerActive s = true → t.link.joinSent = true ∧ t.boot.stepAt = s.now)
        ∧ (stepSeven s = false → t.link.joinSent = l.joinSent ∧ t.boot = s.boot)
        ∧ (s.nwt.permit = true → raised 0x703 (dayN s % 2 ^ 36) s t ∧ bitOf t pairStatus 10 = true)
        ∧ (s.nwt.permit = false → t.regs = s.regs)))
    ∧ (s.day.run = false ∨ dayTick s + 1 ≠ dayT s ∨ l.claimDay ≠ some (s.day.n + 1) ∨ l.confirmed = true →
      exec .claimConfirmation s = .next s)
    ∧ (∀ p : Bool, (p = true ∧ 60 ≤ l.ownI.toNat) ∨ (p = false ∧ l.own ≠ (drivenLoop s).reads) → ∃ t, exec (.loopError p) s = .next t
      ∧ raised 0x704 (dayN s % 2 ^ 36) s t ∧ bitOf t pairStatus 7 = true ∧ regsKeptF [pairStatus] s t ∧ t = logged s t)
    ∧ (l.ownI.toNat < 60 → exec (.loopError true) s = .next s) ∧ (l.own = (drivenLoop s).reads → exec (.loopError false) s = .next s)
    ∧ (s.mst = .standby → l.part = .unknown → partnerGone s = false → l.unknownAt + 250000000 ≤ s.now + 1 →
      ∃ t, exec .partnerLoopUnknownRepeat s = .next t ∧ raised 0x701 (dayN s % 2 ^ 36) s t ∧ bitOf t pairStatus 8 = true
        ∧ t.link = { l with unknownAt := s.now + 1 } ∧ regsKeptF [pairStatus] s t ∧ t.mem = s.mem)
    ∧ (s.mst ≠ .standby ∨ l.part ≠ .unknown ∨ s.now + 1 < l.unknownAt + 250000000 → exec .partnerLoopUnknownRepeat s = .next s)

/-- On day W the standby reads its outputs back at T - 3,250, the active module releases its loop at T - 3,000 and claims
again at T - 1,500 if it has not seen the standby claim. A notice of eight words leaves on each lane unless the module is in
reset; one received shows the partner, and lets a DAYBREAK module whose claim failed join. A lane without a good frame for
10 us goes down with 0x705, the link with 0x706. A JOIN that matches is accepted and starts the sweep; another is refused
with 0x720; FINAL raises 0x714. A command whose condition does not hold leaves the state as it was: the model's choice (log
entry 8). -/
def Obligations.SwitchoverAndNotices : Prop :=
  ∀ (s : State) (l : Link), s.wf → l = s.link →
    (s.mst = .standby → s.day.run = true → partnerSwitches s = true → dayTick s + 3250 = dayT s →
      exec .switchoverReadback s = .next (modLink (fun l => { l with readback := readback s }) s))
    ∧ (s.mst ≠ .standby ∨ s.day.run = false ∨ partnerSwitches s = false ∨ dayTick s + 3250 ≠ dayT s →
      exec .switchoverReadback s = .next s)
    ∧ (s.mst = .active → s.day.run = true → l.swRunning = true → l.swReleased = false → dayTick s + 3000 = dayT s →
      ∃ t, exec .switchoverRelease s = .next t ∧ t.link.latch = false ∧ t.link.estab = false ∧ t.link.swReleased = true
        ∧ (t.link.swSeen = true ↔ l.part = .claimed) ∧ t.link.claimDay = l.claimDay ∧ t = { s with link := t.link, lio := t.lio })
    ∧ (s.mst ≠ .active ∨ l.swRunning = false ∨ l.swReleased = true ∨ dayTick s + 3000 ≠ dayT s →
      exec .switchoverRelease s = .next s)
    ∧ (s.mst = .active → s.day.run = true → l.swReleased = true → l.swReclaimed = false → dayTick s + 1500 = dayT s →
      (l.swSeen = false → mayClaim s = true → ∃ t, exec .switchoverFallbackCheck s = .next t ∧ t.link.latch = true ∧ t.link.swReclaimed = true
        ∧ t.link.claimDay = some (s.day.n + 1) ∧ t.link.confirmed = false ∧ t = { s with link := t.link, lio := t.lio })
      ∧ (l.swSeen = true ∨ mayClaim s = false → exec .switchoverFallbackCheck s = .next s))
    ∧ (∀ k : Fin 2, (s.nwt.inReset = true → exec (.noticeSend k) s = .next s)
      ∧ (s.nwt.inReset = false → ∃ t ws, exec (.noticeSend k) s = .next t
        ∧ t = { s with link := { l with noticeCnt := (l.noticeCnt + 1) % 2 ^ 24 }, out := s.out ++ [.pairFrame k (packFrame 1 l.noticeCnt ws)] }
        ∧ ws.length = 8 ∧ ws.getD 0 0 = word (s.day.n % 2 ^ 36) ∧ slice (ws.getD 1 0).toNat 2 0 = mstCode s.mst
        ∧ slice (ws.getD 1 0).toNat 3 3 = (if slotB s then 1 else 0) ∧ slice (ws.getD 1 0).toNat 4 4 = (if pairReady s then 1 else 0)
        ∧ slice (ws.getD 1 0).toNat 11 8 = getF s timState 3 0 ∧ slice (ws.getD 1 0).toNat 15 12 = getF s timState 15 12
        ∧ ws.getD 2 0 = reg s pairCk ∧ ws.getD 3 0 = reg s pairSwDay ∧ (ws.getD 4 0).toNat = getF s midLastF 11 0))
    ∧ (∀ (k : Fin 2) (f : PairFrame) (ofs : Int) (n : Notice), frameGood f = true → frameType f = 1 → n = noticeOf f.payload →
      ∃ t, exec (.noticeReceive k f ofs) s = .next t ∧ t.link.heard = some n ∧ laneUp t k = true ∧ t.time.pairOfs = some ofs
      ∧ t.mem = s.mem ∧ t.eng = s.eng ∧ t.mst = s.mst ∧ t.link.latch = l.latch ∧ t.link.decided = l.decided
      ∧ (n.state ≠ 1 → t.link.cloneTx = []) ∧ (n.state = 1 → t.link.cloneTx = l.cloneTx)
      ∧ (n.state = 2 ∨ s.mst ≠ .active → t.link.joinAccepted = l.joinAccepted)
      ∧ (∀ h, s.mst = .active → l.heard = some h → h.state = 2 → n.state ≠ 2 → t.link.joinAccepted = false)
      ∧ (stepSeven s = true → l.claimLost = true → l.claimDay = none → l.latch = false → l.joinSent = false → n.state = 3 →
        t.link.joinSent = true ∧ t.boot.stepAt = s.now ∧ ∃ j, t.out = s.out ++ [.pairFrame j (packFrame 7 0 (joinWords s))])
      ∧ (stepSeven s = false ∨ l.claimLost = false ∨ l.joinSent = true ∨ n.state ≠ 3 → t.link.joinSent = l.joinSent ∧ t.out = s.out))
    ∧ (∀ k : Fin 2, laneUp s k = true → tabGet 0 l.laneAt k + 2500 ≤ s.now + 1 → ∃ t, exec (.laneDown k) s = .next t
      ∧ laneUp t k = false ∧ (∀ j, j ≠ k.val → laneUp t j = laneUp s j) ∧ bitOf t pairStatus 1 = true ∧ t.mem = s.mem
      ∧ t.eng = s.eng ∧ t.mst = s.mst
      ∧ (laneUp s (1 - k.val) = false → bitOf t pairStatus 0 = true)
      ∧ (laneUp s (1 - k.val) = false → s.mst = .standby → l.part = .unknown → l.partner = false → l.decided = none →
        partnerSwitches s = false → (pairReady s = true → t.link.decided = some s.now)
          ∧ (pairReady s = false → t.link.decided = none ∧ reg t midLastF = word 0x70B)))
    ∧ (∀ k : Fin 2, laneUp s k = false ∨ s.now + 1 < tabGet 0 l.laneAt k + 2500 → exec (.laneDown k) s = .next s)
    ∧ (∀ (k : Fin 2) (f : PairFrame), frameGood f = true → frameType f = 9 → ∃ t, exec (.finalReceive k f) s = .next t
      ∧ t.link = { (laneHeard k s).link with heard := some (noticeOf f.payload) } ∧ bitOf t pairStatus 12 = true
      ∧ raised 0x714 (dayN s % 2 ^ 36) s t ∧ regsKeptF [pairStatus] s t ∧ t.mem = s.mem ∧ t.mst = s.mst)
    ∧ (∀ (k : Fin 2) (f : PairFrame) (j : Join), frameGood f = true → frameType f = 7 → j = joinOf f.payload →
      (s.mst ≠ .active → exec (.joinReceive k f) s = .next (laneHeard k s))
      ∧ (s.mst = .active → j.plan ++ j.config ++ [word j.version.toNat] = joinWords s → ∃ t, exec (.joinReceive k f) s = .next t
        ∧ t = { s with link := t.link, fresh := s.fresh + 4 } ∧ t.link.joinAccepted = true ∧ t.link.partVer = some j.version.toNat
        ∧ t.link.dirty = l.dirty ∧ t.link.frozen = l.frozen ∧ t.link.sweepPos = 0 ∧ t.link.latch = l.latch)
      ∧ (s.mst = .active → j.plan ++ j.config ++ [word j.version.toNat] ≠ joinWords s → ∃ t, exec (.joinReceive k f) s = .next t
        ∧ t.link = (laneHeard k s).link ∧ raised 0x720 (dayN s % 2 ^ 36) s t ∧ bitOf t pairStatus 13 = true
        ∧ regsKeptF [pairStatus] s t ∧ t = { logged s t with link := t.link }))

/-- Each condition of R26 trips a module out of reset with its code, unless a trip is being acted on; loss of the
Nightwatch's own rail drops the permit without a trip. Sundown sends FINAL, writes the log entry past the queue and shows
the page, the first `n` of these steps; from a store of 50 % or more it takes all. 800 ms after detection reset is asserted
with every session closed and flash, vault and log kept; 810 ms after it, once the power stage may start and the face is
warm enough, reset is released into DAYBREAK. The first start waits for presence, a feed that has stood 100 ms, and 60 s of
a warm enough face. A command whose condition does not hold leaves the state as it was: the model's choice (log entry 8). -/
def Obligations.NightwatchTripsAndResets : Prop :=
  ∀ (s : State) (w : Watch), s.wf → w = s.nwt →
    (∀ (c : Instr) (code : Nat), w.trip = none → w.inReset = false → w.own = true →
      (c = .dayHeartbeatTimeout ∧ code = 0xD01 ∧ (s.mst = .standby ∨ s.mst = .active) ∧ ∃ n, w.dayFrom = some n ∧ 3 * dayT s ≤ 2 * (s.now - n))
        ∨ (c = .supervisorHeartbeatTimeout ∧ code = 0xD02 ∧ w.relAt + 500000000 ≤ s.now ∧ w.strobe + 12500000 ≤ s.now)
        ∨ (c = .fabricRailFault ∧ code = 0xD03) ∨ (c = .internalRailFault ∧ code = 0xD04)
        ∨ (c = .feedsLost ∧ code = 0xD05 ∧ feedOk s 0 = false ∧ feedOk s 1 = false) →
      ∃ t, exec c s = .next t ∧ trips code s t ∧ t.nwt.feedTrip = (w.feedTrip || code == 0xD05)
        ∧ t.nwt.fabOk = (w.fabOk && code != 0xD03) ∧ t.nwt.railOk = (w.railOk && code != 0xD04))
    ∧ (w.trip.isSome = true ∨ w.inReset = true → exec .dayHeartbeatTimeout s = .next s ∧ exec .supervisorHeartbeatTimeout s = .next s
      ∧ exec .feedsLost s = .next s ∧ ∀ c, c = .fabricRailFault ∨ c = .internalRailFault → ∃ t, exec c s = .next t ∧ t.regs = s.regs
        ∧ t.nwt.trip = w.trip ∧ t.link = s.link ∧ t.nwt.permit = w.permit)
    ∧ (w.dayFrom = none ∨ (s.mst ≠ .standby ∧ s.mst ≠ .active) → exec .dayHeartbeatTimeout s = .next s)
    ∧ (s.now < w.relAt + 500000000 ∨ s.now < w.strobe + 12500000 → exec .supervisorHeartbeatTimeout s = .next s)
    ∧ (feedOk s 0 = true ∨ feedOk s 1 = true → exec .feedsLost s = .next s)
    ∧ (w.own = true → ∃ t, exec .nightwatchRailLoss s = .next t ∧ t.nwt.own = false ∧ t.nwt.ownLost = true ∧ t.nwt.permit = false
      ∧ t.nwt.trip = w.trip ∧ t.link.latch = false ∧ holds t = false ∧ reg t midLastF = word 0xD06 ∧ regsKept [midLastF] s t
      ∧ t.mem = s.mem ∧ t.eng = s.eng ∧ t.mst = s.mst ∧ t.logQ = s.logQ)
    ∧ (w.own = false → exec .nightwatchRailLoss s = .next s)
    ∧ (w.trip = none → (∀ b, exec (.sundown b) s = .next s) ∧ exec .resetAssert s = .next s ∧ exec .resetRelease s = .next s)
    ∧ (∀ x, w.trip = some x →
      (w.sundown = 0 → w.inReset = false → ∀ b, ∃ t n, exec (.sundown b) s = .next t ∧ t.nwt.sundown = 1
        ∧ n ≤ (sundownLines x s).length / 8 + 3
        ∧ (b = true ∨ 500 ≤ getF s pwrStore 9 0 → n = (sundownLines x s).length / 8 + 3 ∧ t.boot.sundownDone = true)
        ∧ (b = false → getF s pwrStore 9 0 < 500 → (n < 2 → t.boot.sundownDone = true) ∧ (2 < n → t.boot.sundownDone = false))
        ∧ (n = 0 → t.out = s.out)
        ∧ (1 ≤ n → ∃ o, t.out = s.out ++ .pairFrame (anyLane s) (packFrame 9 0 (noticeWords s x.code)) :: o)
        ∧ (n < 2 → t.log = s.log ∧ t.regs = s.regs)
        ∧ (2 ≤ n → reg t midLogSeq = reg s midLogSeq + 1 ∧ ∃ y, (2 < n → y = x.torn)
          ∧ t.log = (if s.log.length < logRing then s.log else s.log.tail) ++ [{ x with seq := (reg s midLogSeq).toNat, torn := y }])
        ∧ regsKept [midLogSeq, fpdStatus] s t ∧ t.logQ = s.logQ ∧ t.mem = s.mem
        ∧ (n < 3 → t.fpd = s.fpd)
        ∧ (n = (sundownLines x s).length / 8 + 3 → t.fpd.pass = none
          ∧ ∀ (i : Fin 4) (j : Fin 8), panelWord t i j = shownWord (sundownWord (tripData x) i j)))
      ∧ (w.sundown ≠ 0 ∨ w.inReset = true → ∀ b, exec (.sundown b) s = .next s)
      ∧ (w.inReset = false → x.tick + 200000000 ≤ s.now → ∃ t, exec .resetAssert s = .next t ∧ t.nwt.inReset = true
        ∧ t.nwt.trip = some x ∧ t.sess = [] ∧ t.eng = [] ∧ t.mem = [] ∧ t.day = {} ∧ t.link.latch = false ∧ t.mst = s.mst
        ∧ t.boot.slots = s.boot.slots ∧ t.vault = s.vault ∧ t.log = s.log
        ∧ t.out = s.out ++ s.sess.map (fun y => .notice y.1 2 0 0 [word 5])
        ∧ (∀ a, keptReg a = true → s.boot.session = none → reg t a = reg s a)
        ∧ (∀ a, keptReg a = false → a ≠ updBoot → a ≠ lioTsup → s.boot.session = none → reg t a = regReset a)
        ∧ (s.boot.session = none → t.logQ = s.logQ))
      ∧ (w.inReset = true ∨ s.now < x.tick + 200000000 → exec .resetAssert s = .next s)
      ∧ (w.inReset = true → x.tick + 202500000 ≤ s.now → w.feedTrip = false ∨ (presentLong s = true ∧ s.pwr.threshold = true) →
        s.pwr.warm = true → ∃ t, exec .resetRelease s = .next t
        ∧ t = { s with mst := .daybreak, mlast := mstCode s.mst, nwt := t.nwt } ∧ t.nwt.inReset = false ∧ t.nwt.trip = none
        ∧ t.nwt.permit = w.own ∧ t.nwt.restartOf = some x.code ∧ t.nwt.strobe = s.now ∧ t.nwt.relAt = s.now)
      ∧ (w.inReset = false ∨ s.now < x.tick + 202500000 ∨ s.pwr.warm = false
        ∨ (w.feedTrip = true ∧ (presentLong s = false ∨ s.pwr.threshold = false)) → exec .resetRelease s = .next s))
    ∧ (∀ t0, w.inReset = true → w.trip = none → s.link.inserted = true → s.link.spresAt = some t0 → t0 + 2500000 ≤ s.now →
      (s.pwr.threshold = true → s.pwr.warm = true → ∃ t, exec .presenceDebounceEnd s = .next t ∧ t.nwt.inReset = false
        ∧ t.nwt.permit = w.own ∧ t.nwt.relAt = s.now ∧ t = { s with nwt := t.nwt })
      ∧ (atThreshold s 0 = true ∨ atThreshold s 1 = true → s.pwr.warm = true → ∃ t, exec .startThresholdReached s = .next t
        ∧ t.nwt.inReset = false ∧ t.nwt.permit = w.own ∧ t = { s with nwt := t.nwt, pwr := { s.pwr with threshold := true } })
      ∧ (∀ n, s.pwr.threshold = true → s.pwr.warm = false → s.pwr.warmAt = some n → n + 15000000000 ≤ s.now →
        ∃ t, exec .coldStartRelease s = .next t ∧ t.nwt.inReset = false ∧ t.nwt.permit = w.own
        ∧ t.pwr = { s.pwr with warm := true, coldHeld := true } ∧ t = { s with nwt := t.nwt, pwr := t.pwr }))
    ∧ (s.pwr.warm = true ∨ s.pwr.warmAt = none → exec .coldStartRelease s = .next s)
    ∧ (∀ n, s.pwr.warmAt = some n → s.now < n + 15000000000 → exec .coldStartRelease s = .next s)
    ∧ (s.link.inserted = false → exec .presenceDebounceEnd s = .next s
      ∧ (∀ n, s.pwr.warm = false → s.pwr.warmAt = some n → n + 15000000000 ≤ s.now → exec .coldStartRelease s
        = .next (modPwr (fun p => { p with warm := true, coldHeld := p.coldHeld || tripOver s }) s))
      ∧ (atThreshold s 0 = true ∨ atThreshold s 1 = true → exec .startThresholdReached s
        = .next (modPwr (fun p => { p with threshold := true }) s)))
    ∧ (atThreshold s 0 = false → atThreshold s 1 = false → exec .startThresholdReached s = .next s)

/-- An attempt begins in the preferred bank, then in the one the attempt before it did not use. Straps that agree fail it
with 0xC30, a bank without valid firmware with 0xA01, an uncorrectable read with 0xA08, a header or digest with its own
code, and a step beyond its limit with 0xA09; each waits its backoff, after which the next attempt begins from a reset.
Steps 1 to 5 that pass leave step 6, and the clock then set step 7. A clone that has come whole is written to both banks and
the module restarts. A command whose condition does not hold leaves the state as it was: the model's choice (log entry 8). -/
def Obligations.DaybreakAttempts : Prop :=
  ∀ (s : State) (v : DayView), s.wf →
    (startReady s = true → ∃ t, exec (.daybreak v) s = .next t ∧ t.mst = .daybreak
      ∧ t.boot.lastBank = startBank s ∧ t.boot.tried = true ∧ t.boot.slots = s.boot.slots ∧ t.vault = s.vault
      ∧ (250000000 < v.stepTicks.getD 0 0 → startFails 0xA09 s t)
      ∧ (v.stepTicks.getD 0 0 ≤ 250000000 →
        (v.strapA = v.strapB → startFails 0xC30 s t ∧ t.mem = s.mem ∧ t.eng = s.eng)
        ∧ (v.strapA ≠ v.strapB → t.boot.slotB = some v.strapB
          ∧ (v.fwHeadOk = false → startFails 0xA08 s t)
          ∧ ((slotOf s (startBank s) 0).st ≠ .valid → v.fwHeadOk = true → startFails 0xA01 s t ∧ t.mem = s.mem ∧ t.eng = s.eng)
          ∧ ∀ h, v.fwHeadOk = true → (slotOf s (startBank s) 0).st = .valid → (slotOf s (startBank s) 0).hdr = some h →
            (∀ c, headerCheck s 1 h = some c → startFails c s t)
            ∧ (headerCheck s 1 h = none → 250000000 < v.stepTicks.getD 1 0 → startFails 0xA09 s t)
            ∧ (headerCheck s 1 h = none → v.stepTicks.getD 1 0 ≤ 250000000 → v.fwReadOk = false → startFails 0xA08 s t)
            ∧ (headerCheck s 1 h = none → v.stepTicks.getD 1 0 ≤ 250000000 → v.fwReadOk = true →
              (digestOf (slotOf s (startBank s) 0).words ≠ h.digest → startFails 0xA03 s t)
              ∧ (digestOf (slotOf s (startBank s) 0).words = h.digest →
                ((slotOf s (startBank s) 1).st ≠ .valid → v.stepTicks.getD 2 0 ≤ 2000000000 → v.cfgHeadOk = true →
                  startFails 0xA01 s t)
                ∧ (v.stepTicks.getD 2 0 ≤ 2000000000 → v.cfgHeadOk = false → startFails 0xA08 s t)
                ∧ (2000000000 < v.stepTicks.getD 2 0 → startFails 0xA09 s t)
                ∧ ((∀ f, configFail v (enterFirmware (readCarrier v (startAttempt s))) = some f → startFails (f.code % 4096) s t)
                  ∧ (configFail v (enterFirmware (readCarrier v (startAttempt s))) = none → v.stepTicks.getD 4 0 ≤ 750000000 →
                    t.boot.step = 6 ∧ t.boot.stepAt = s.now ∧ t.boot.attempts = s.boot.attempts
                    ∧ ∀ i < 4, reg t (updCfgId + i) = (((slotOf s (startBank s) 1).hdr.map (·.ident)).getD []).getD i 0))))))
      ∧ (v.strapA = v.strapB → v.stepTicks.getD 0 0 ≤ 250000000 → ∃ p, t.out = s.out ++ [.faceplate p]))
    ∧ (startReady s = false → s.mst = .daybreak → s.boot.step = 6 → s.time.set = true → ∃ t, exec (.daybreak v) s = .next t
      ∧ t.boot.step = 8 ∧ t.boot.stepAt = s.now ∧ t.mst = .daybreak ∧ t.mem = s.mem ∧ t.eng = s.eng
      ∧ t.boot.benchDue = (((slotOf s (runBank s) 1).hdr.map (·.flags)).getD 0 % 2 == 1)
      ∧ (getF s pwrStore 29 28 = 0 → raised 0xC10 (getF s pwrStore 9 0) s t ∧ bitOf t pwrStatus 4 = true)
      ∧ (getF s pwrStore 29 28 ≠ 0 → t.regs = s.regs))
    ∧ (startReady s = false → s.mst ≠ .daybreak ∨ s.boot.step ≠ 6 ∨ s.time.set = false → exec (.daybreak v) s = .next s)
    ∧ (∀ k : Fin 8, (stepOver k s = true → ∃ t, exec (.daybreakStepTimeout k) s = .next t ∧ startFails 0xA09 s t ∧ t.mem = s.mem)
      ∧ (stepOver k s = false → exec (.daybreakStepTimeout k) s = .next s)
      ∧ (1 ≤ k.val → k.val ≤ 5 → stepOver k s = startReady s))
    ∧ (∀ n, s.boot.waitEnd = some n → s.mst = .daybreak → (n ≤ s.now → ∃ t, exec .retryWaitExpiry s = .next t ∧ t.mst = .daybreak
        ∧ t.boot.waitEnd = none ∧ t.boot.step = 0 ∧ t.sess = [] ∧ t.boot.attempts = s.boot.attempts ∧ t.boot.tried = s.boot.tried ∧ t.boot.lastBank = s.boot.lastBank
        ∧ t.boot.slots = s.boot.slots ∧ t.vault = s.vault ∧ t.log = s.log ∧ t.eng = [] ∧ t.mem = []
        ∧ t.nwt.permit = s.nwt.permit ∧ t.nwt.inReset = s.nwt.inReset)
      ∧ (s.now < n → exec .retryWaitExpiry s = .next s))
    ∧ (s.boot.waitEnd = none ∨ s.mst ≠ .daybreak → exec .retryWaitExpiry s = .next s)
    ∧ (wantsClone s = false ∨ wholeClone s 1 = none → exec .cloneComplete s = .next s)
    ∧ (∀ h ws, wantsClone s = true → wholeClone s 1 = some (h, ws) → (cloneOf s 0).isSome = (wholeClone s 0).isSome →
      (cloneVersion s < h.compat → ∃ t, exec .cloneComplete s = .next t ∧ cloneOf t 1 = none ∧ t.boot = s.boot
        ∧ raised 0x723 (dayN s % 2 ^ 36) s t ∧ t.mem = s.mem)
      ∧ (h.compat ≤ cloneVersion s → ∃ t, exec .cloneComplete s = .next t ∧ t.mst = .daybreak ∧ t.boot.step = 0 ∧ t.sess = []
        ∧ (∀ b : Fin 2, slotOf t b 1 = { st := .valid, hdr := some h, words := ws })
        ∧ (∀ (b : Fin 2) f, wholeClone s 0 = some f → slotOf t b 0 = { st := .valid, hdr := some f.1, words := f.2 })
        ∧ (∀ b : Fin 2, wholeClone s 0 = none → slotOf t b 0 = slotOf s b 0) ∧ t.vault = s.vault ∧ t.log = s.log
        ∧ (s.logQ.length < 256 → ∃ l ∈ t.logQ, l.code = 0x722)))

/-- A pass starts at a whole second with every differing line, unless one runs, the passes have stopped or a trip is acted
on, and lasts 150 ms to 650 ms; complete, it is what the panel shows; abandoned, it raises 0x960 and the third in a row
0x961, which stops them. A feed that falls below 2.7 V raises 0xC01 or 0xC02, one above 63 V is disconnected with 0xC03, one
below -1 V blocked with 0xC04, and each comes back by its rule; a move within the range hands over by R535. The store
charges only in an inserted module and within its measured capacity: entering DISCHARGED raises 0xC10, entering FULL 0xC11;
below 48 J raises 0xC12. A face above 85 degrees raises 0xC21, one below the lowest start temperature holds a start. A
command whose condition does not hold leaves the state as it was: the model's choice (log entry 8). -/
def Obligations.FaceplateFeedsAndStore : Prop :=
  ∀ (s : State), s.wf →
    (s.time.ns64 < lastAdvance s → s.fpd.pass = none → bitOf s fpdStatus 3 = false → s.nwt.trip = none → differing s ≠ [] →
      ∃ t n, exec .faceplatePassStart s = .next t ∧ t.fpd = { s.fpd with pass := some (differing s), passEnd := s.now + n }
        ∧ 37500000 ≤ n ∧ n ≤ 162500000 ∧ bitOf t fpdStatus 1 = true
        ∧ regsKept [fpdStatus] s t ∧ t = { s with regs := t.regs, tk := t.tk, fpd := t.fpd, fresh := s.fresh + 1 })
    ∧ (lastAdvance s ≤ s.time.ns64 ∨ s.fpd.pass ≠ none ∨ bitOf s fpdStatus 3 = true ∨ s.nwt.trip.isSome = true ∨ differing s = [] →
      exec .faceplatePassStart s = .next s)
    ∧ (s.fpd.pass = none → exec .faceplatePassComplete s = .next s ∧ exec .faceplatePassAbandon s = .next s)
    ∧ (∀ ws, s.fpd.pass = some ws →
      (s.now < s.fpd.passEnd → exec .faceplatePassComplete s = .next s)
      ∧ (s.fpd.passEnd ≤ s.now → ∃ t, exec .faceplatePassComplete s = .next t ∧ t.out = s.out ++ [.faceplate ws] ∧ t.fpd.pass = none ∧ t.fpd.abandoned = 0
        ∧ (∀ n j, (∀ w ∈ ws, w.1 ≠ 8 * n + j) → panelWord t n j = panelWord s n j)
        ∧ (∀ n j v, (8 * n + j, v) ∈ ws → (ws.map (·.1)).Nodup → panelWord t n j = v)
        ∧ bitOf t fpdStatus 1 = false ∧ getF t fpdPasses 35 0 = min (getF s fpdPasses 35 0 + 1) (2 ^ 36 - 1)
        ∧ regsKept [fpdStatus, fpdPasses] s t ∧ t.mem = s.mem)
      ∧ (∃ t, exec .faceplatePassAbandon s = .next t ∧ t.fpd = { s.fpd with pass := none, abandoned := s.fpd.abandoned + 1, redo := passLines ws }
        ∧ bitOf t fpdStatus 1 = false ∧ bitOf t fpdStatus 2 = true ∧ regsKeptF [fpdStatus] s t ∧ t.out = s.out ∧ t.mem = s.mem
        ∧ (s.fpd.abandoned < 2 → raised 0x960 128 s t ∧ bitOf t fpdStatus 3 = bitOf s fpdStatus 3)
        ∧ (2 ≤ s.fpd.abandoned → reg t midLastF = word 0x961 ∧ bitOf t fpdStatus 3 = true)))
    ∧ (∀ (k : Fin 2) (mv : Int),
      (-60000 ≤ mv → mv < feedMv s k → 2700 ≤ feedMv s k → ∃ t, exec (.feedDrop k mv) s = .next t ∧ feedSet k mv s t
        ∧ feedOff t k = (feedOff s k || decide (mv < 0))
        ∧ (mv < 2700 → bitOf t pwrStatus k = true ∧ feedOk t k = false ∧ (-1000 ≤ mv → raised (0xC01 + k.val) (k.val + 1) s t))
        ∧ (mv < -1000 → reg t midLastF = word 0xC04 ∧ bitOf t pwrStatus 3 = true)
        ∧ (2700 ≤ mv → regsKept [pwrFeed 1, pwrFeed 2] s t ∧ t.logQ = s.logQ))
      ∧ (-60000 ≤ mv → feedMv s k ≤ mv ∨ feedMv s k < 2700 → exec (.feedDrop k mv) s = .next s)
      ∧ (mv < -60000 → exec (.feedDrop k mv) s = .fault (.feedBeyondWithstand (k.val + 1)))
      ∧ (2700 ≤ mv → mv ≤ 63000 → feedMv s k < mv → ∃ t, exec (.feedReturn k mv) s = .next t ∧ feedSet k mv s t
        ∧ feedOff t k = (feedOff s k && decide (0 ≤ feedMv s k)) ∧ regsKept [pwrFeed 1, pwrFeed 2] s t ∧ t.logQ = s.logQ)
      ∧ (mv < 2700 ∨ 63000 < mv ∨ mv ≤ feedMv s k → exec (.feedReturn k mv) s = .next s)
      ∧ (63000 < mv → mv ≤ 80000 → ∃ t, exec (.feedOvervoltage k mv) s = .next t ∧ feedSet k mv s t ∧ feedOff t k = true
        ∧ raised 0xC03 (k.val + 1) s t ∧ bitOf t pwrStatus 2 = true)
      ∧ (mv ≤ 63000 → exec (.feedOvervoltage k mv) s = .next s)
      ∧ (80000 < mv → exec (.feedOvervoltage k mv) s = .fault (.feedBeyondWithstand (k.val + 1)))
      ∧ (feedOff s k = true → 0 ≤ mv → mv < 61000 → ∃ t, exec (.feedReconnect k mv) s = .next t ∧ feedSet k mv s t ∧ feedOff t k = false
        ∧ (mv < 2700 → 2700 ≤ feedMv s k → raised (0xC01 + k.val) (k.val + 1) s t ∧ bitOf t pwrStatus k = true)
        ∧ (2700 ≤ mv ∨ feedMv s k < 2700 → regsKept [pwrFeed 1, pwrFeed 2] s t ∧ t.logQ = s.logQ))
      ∧ (feedOff s k = false ∨ mv < 0 ∨ 61000 ≤ mv → exec (.feedReconnect k mv) s = .next s)
      ∧ (-60000 ≤ mv → mv < -1000 → ∃ t, exec (.feedReverse k mv) s = .next t ∧ feedSet k mv s t ∧ feedOff t k = true
        ∧ getF t (pwrFeed (k.val + 1)) 15 0 = 0 ∧ reg t midLastF = word 0xC04 ∧ bitOf t pwrStatus 3 = true
        ∧ (feedMv s k < 2700 → raised 0xC04 (k.val + 1) s t) ∧ (2700 ≤ feedMv s k → bitOf t pwrStatus k = true))
      ∧ (-1000 ≤ mv → exec (.feedReverse k mv) s = .next s)
      ∧ (mv < -60000 → exec (.feedReverse k mv) s = .fault (.feedBeyondWithstand (k.val + 1))))
    ∧ (∀ (c : Fin 1001) (n : Nat), n = min c.val (if getF s pwrStore 27 16 = 0 then 1000 else getF s pwrStore 27 16 * 1000 / 480) →
      (getF s pwrStore 9 0 < c.val → presentLong s = false → exec (.storeStateChange c) s = .next s)
      ∧ (c.val ≤ getF s pwrStore 9 0 ∨ presentLong s = true → ∃ t, exec (.storeStateChange c) s = .next t ∧ getF t pwrStore 9 0 = n
        ∧ t = logged s t ∧ getF t pwrStore 29 28 = (if n < 500 then 0 else if n < 950 then 1 else 2)
        ∧ regsKeptF [pwrStore, pwrStatus] s t
        ∧ (n < 500 → getF s pwrStore 29 28 ≠ 0 → raised 0xC10 n s t ∧ bitOf t pwrStatus 4 = true)
        ∧ (950 ≤ n → getF s pwrStore 29 28 ≠ 2 → raised 0xC11 n s t)
        ∧ (500 ≤ n → n < 950 → regsKept [pwrStore] s t ∧ t.logQ = s.logQ)))
    ∧ (∀ (x : BitVec 12) (n : Nat), n = min (getF s pwrStore 9 0) (if x.toNat = 0 then 1000 else x.toNat * 1000 / 480) →
      ∃ t, exec (.storeCapacityTest x) s = .next t ∧ getF t pwrStore 27 16 = x.toNat ∧ getF t pwrStore 9 0 = n ∧ t = logged s t
      ∧ getF t pwrStore 29 28 = storeState n ∧ regsKeptF [pwrStore, pwrStatus] s t ∧ (x.toNat < 480 → bitOf t pwrStatus 6 = true)
      ∧ (storeState n = getF s pwrStore 29 28 → (x.toNat < 480 → raised 0xC12 x.toNat s t)
        ∧ (480 ≤ x.toNat → regsKept [pwrStore] s t ∧ t.logQ = s.logQ))
      ∧ (n < 500 → getF s pwrStore 29 28 ≠ 0 → reg t midLastF = word 0xC10 ∧ bitOf t pwrStatus 4 = true))
    ∧ (∀ x : BitVec 9, ∃ t, exec (.interfaceOvertemp x) s = .next t ∧ getF t pwrTherm 17 9 = x.toNat
      ∧ t = { logged s t with pwr := t.pwr, nwt := t.nwt }
      ∧ (x.toInt < lowestStart → t.pwr = { s.pwr with warm := false, warmAt := none }
        ∧ t.nwt = { s.nwt with fabOk := s.nwt.fabOk && !s.nwt.inReset })
      ∧ (lowestStart ≤ x.toInt → t.nwt = s.nwt ∧ t.pwr.warm = s.pwr.warm
        ∧ (s.pwr.warm = false → s.pwr.warmAt = none → t.pwr.warmAt = some s.now)
        ∧ (s.pwr.warm = true ∨ s.pwr.warmAt ≠ none → t.pwr = s.pwr))
      ∧ regsKeptF [pwrTherm, pwrStatus] s t ∧ (85 < x.toInt → raised 0xC21 x.toNat s t ∧ bitOf t pwrStatus 5 = true)
      ∧ (x.toInt ≤ 85 → regsKept [pwrTherm] s t ∧ t.logQ = s.logQ))

/-- Posting moves PUT and keeps the tick of each feed. A feed is read in a tick after its post in which the words it
accesses are free. One that R340 refuses changes no channel, and its descriptor shows the reason with 0x604; one that is
taken ends with status 2. A sample at its expected instant enters the chain, and at an output index the record is written to
the ring. A GO of a stopped channel, but in STANDBY, starts it settling, or fails it with 0x601 or 0x602; a STOP stops it.
Arming waits for a PPS edge or a midnight, and fails with 0x60B. A command whose condition does not hold leaves the state as
it was: the model's choice (log entry 8). -/
def Obligations.SignalChains : Prop :=
  ∀ (s : State), s.wf →
    (∀ p : BitVec 8, ∃ t, exec (.feedptrWrite p) s = .next t ∧ getF t sigFeedPtr 7 0 = p.toNat ∧ feedGet t = feedGet s
      ∧ (s.sig.posts.length = feedsPosted s → feedsPosted s ≤ feedsPosted t →
        t.sig.posts = s.sig.posts ++ List.replicate (feedsPosted t - feedsPosted s) s.now) ∧ t.sig.chans = s.sig.chans
      ∧ regsKept [sigFeedPtr] s t ∧ t = { s with regs := t.regs, tk := t.tk, sig := t.sig })
    ∧ (feedReady s = false → exec .feedProcess s = .next s)
    ∧ (feedReady s = true → freeFor masterSig (headPipe s) s (processFeed (untouched s)) = false →
      ∃ t, exec .feedProcess s = .next t ∧ t = { s with waiters := t.waiters })
    ∧ (∀ a, feedReady s = true → freeFor masterSig (headPipe s) s (processFeed (untouched s)) = true → a = getF s sigFeedBase 31 0 + 2 * feedGet s → isShared a = true →
      gate s masterSig false .write (word a) = none →
      (∀ e f n u, fetchFeed (untouched s) = (some (e, f), u) → onlyTouches s u → feedReason s f = some n → ∃ t, exec .feedProcess s = .next t
        ∧ t.sig.chans = s.sig.chans ∧ bitOf t sigStatus 3 = true ∧ feedGet t = (feedGet s + 1) % feedSize s % 256
        ∧ memAfter s t a (word (splice (splice (memGet s a).toNat 35 34 3) 33 30 n)) ∧ t.eng = s.eng ∧ t.sig.doneAt = s.now)
      ∧ (∀ e f ws u v, fetchFeed (untouched s) = (some (e, f), u) → onlyTouches s u → feedReason s f = none →
        mReads masterSig (e + 6) (2 * f.len) u = (some ws, v) → onlyTouches s v →
        ((∀ i < f.cnt, chActive s (f.first + i) = false) → ∃ t, exec .feedProcess s = .next t ∧ t.sig.chans = s.sig.chans
          ∧ feedGet t = (feedGet s + 1) % feedSize s % 256 ∧ t.eng = s.eng
          ∧ memAfter s t a (word (splice (splice (memGet s a).toNat 35 34 2) 33 30 0)))
        ∧ (∀ (i : Nat × Nat) (x : SigCh) (w : Word), f.cnt = 1 → f.per = 1 → chActive s f.first = true → x = sigChan s f.first →
          x.sync = none → i = sampleAdd (chRin s f.first) (fullSecond s.time.sec f.secLow) f.idx 0 →
          x.e = none ∨ x.e = some i → w = sampleOf ws 0 →
          (i.2 % chM1 s f.first ≠ 0 → ∃ t, exec .feedProcess s = .next t ∧ t.eng = s.eng
            ∧ sigChan t f.first = { x with xs := (w :: x.xs).take (chN1 s f.first), q := x.q + 1, last := w,
                                           e := some (sampleAdd (chRin s f.first) i.1 i.2 1) }
            ∧ (∀ c, c ≠ f.first → sigChan t c = sigChan s c)
            ∧ memAfter s t a (word (splice (splice (memGet s a).toNat 35 34 2) 33 30 0)))
          ∧ (∀ (o : Nat) (ys : List (Word × Bool)) (r y : Res) (z : Word × Bool),
            i.2 % chM1 s f.first = 0 → i.2 % (chM1 s f.first * chM2 s f.first) = 0 →
            o = getF s (sigCh f.first 10) 31 0
              + 2 * (getF s (sigCh f.first 11) 19 0 % 2 ^ (4 + getF s (sigCh f.first 10) 35 32)) →
            isShared o = true → isShared (o + 1) = true → gate s masterSig false .write (word o) = none →
            gate s masterSig false .write (word (o + 1)) = none → a ≠ o → a ≠ o + 1 →
            r = chainSum s (sigCoef (chSet s f.first)) (chN1 s f.first) ((w :: x.xs).take (chN1 s f.first)) →
            ys = ((r.1, r.2.isSome) :: x.ys).take (chN2 s f.first) →
            y = chainSum s (sigCoef (chSet s f.first) + 128) (chN2 s f.first) (ys.map (·.1)) → z = characterise s f.first y.1 →
            ∃ t, exec .feedProcess s = .next t ∧ memGet t o = z.1
              ∧ memGet t (o + 1) = recordWord (x.filled != 0 && decide (x.q + 1 < x.filled + chWindow s f.first))
                  (decide (x.q + 1 < chWindow s f.first)) (z.2 || y.2.isSome || ys.any (·.2)) i.1
                  (i.2 / (chM1 s f.first * chM2 s f.first))
              ∧ (∀ b, b ≠ o → b ≠ o + 1 → b ≠ a → memGet t b = memGet s b)
              ∧ getF t (sigCh f.first 11) 19 0 = (getF s (sigCh f.first 11) 19 0 + 1) % 2 ^ 20
              ∧ (chWindow s f.first ≤ x.q + 1 → getF t (sigCh f.first 0) 35 34 = 2)
              ∧ (sigChan t f.first).ys = ys ∧ (∀ c, c ≠ f.first → sigChan t c = sigChan s c)))))
    ∧ (∀ c : Fin 2048,
      (chActive s c = true → exec (.channelGo c) s = .next s
        ∧ ∃ t, exec (.channelStop c) s = .next t ∧ getF t (sigCh c 0) 35 34 = 0 ∧ getF t (sigCh c 0) 33 0 = getF s (sigCh c 0) 33 0
          ∧ regsKept [sigCh c 0] s t ∧ t = { s with regs := t.regs, tk := t.tk })
      ∧ (chActive s c = false → exec (.channelStop c) s = .next s ∧ (s.mst = .standby → exec (.channelGo c) s = .next s)
        ∧ (s.mst ≠ .standby → contextOk s c = false → ∃ t, exec (.channelGo c) s = .next t ∧ getF t (sigCh c 0) 35 34 = 3 ∧ raised 0x601 c s t
          ∧ bitOf t sigStatus 0 = true ∧ regsKeptF [sigCh c 0, sigStatus] s t ∧ t = logged s t)
        ∧ (s.mst ≠ .standby → contextOk s c = true → loadOk s c = false → ∃ t, exec (.channelGo c) s = .next t ∧ getF t (sigCh c 0) 35 34 = 3
          ∧ raised 0x602 c s t ∧ bitOf t sigStatus 1 = true ∧ regsKeptF [sigCh c 0, sigStatus] s t ∧ t = logged s t)
        ∧ (s.mst ≠ .standby → contextOk s c = true → loadOk s c = true → ∃ t, exec (.channelGo c) s = .next t ∧ getF t (sigCh c 0) 35 34 = 1
          ∧ reg t (sigCh c 11) = 0 ∧ sigChan t c = { satDay := (sigChan s c).satDay, limAt := (sigChan s c).limAt, lims := (sigChan s c).lims } ∧ (∀ b, b ≠ c.val → sigChan t b = sigChan s b)
          ∧ regsKept [sigCh c 0, sigCh c 11] s t ∧ t = { s with regs := t.regs, tk := t.tk, sig := t.sig })))
    ∧ (∃ t, exec .syncArmNextPps s = .next t ∧ getF t sigSync 1 0 = 1 ∧ t.sig = { s.sig with armAt := s.now }
      ∧ regsKept [sigSync] s t ∧ t = { s with regs := t.regs, tk := t.tk, sig := t.sig })
    ∧ (∃ t, exec .syncArmMidnight s = .next t ∧ t.sig = { s.sig with armAt := s.now } ∧ regsKeptF [sigSync] s t ∧ t.mem = s.mem
      ∧ (s.day.run = true → s.day.n < syncDayFull s → getF t sigSync 1 0 = 2 ∧ regsKept [sigSync] s t ∧ t.logQ = s.logQ)
      ∧ (s.day.run = true → syncDayFull s ≤ s.day.n → getF (applyHw t) sigSync 1 0 = 0 ∧ bitOf t sigSync 2 = true ∧ raised 0x60B 0 s t))
    ∧ ((syncArm s = 1 ∧ s.sig.armAt + 1000000000 ≤ s.now ∧ bitOf s timState 6 = false)
        ∨ (syncArm s = 2 ∧ s.day.run = true ∧ syncDayFull s ≤ s.day.n) →
      ∃ t, exec .syncArmFail s = .next t ∧ (s.tk.wrote.contains sigSync = false → getF t sigSync 1 0 = 0) ∧ getF (applyHw t) sigSync 1 0 = 0
        ∧ bitOf t sigSync 2 = true ∧ raised 0x60B 0 s t
        ∧ regsKeptF [sigSync] s t ∧ t = logged s t)
    ∧ (syncArm s = 0 ∨ (syncArm s = 1 ∧ (s.now < s.sig.armAt + 1000000000 ∨ bitOf s timState 6 = true))
        ∨ (syncArm s = 2 ∧ s.day.run = true ∧ s.day.n < syncDayFull s) → exec .syncArmFail s = .next s)

/-- An OPEN whose header has not 4,096 octets is answered FORMAT. One that passes opens the session, a class A one with its
slot in writing; a BLOCK not had yet joins its blocks; a CLOSE whose checks pass commits a slot as valid, a change as staged
or a floor, with 0xA22; a COPY makes the other bank's slot valid with the same words; ACTIVATE sets the preferred bank, a
tick later where an access has written it in this one (R9), with 0xA25 and, without KEEP, restarts the module or in ACTIVE
becomes a stop. A refusal names its fault and reason, with 0xA20, and changes no slot but one whose digest fails, which is
invalid. -/
def Obligations.UpdateSessionsAndActivation : Prop :=
  ∀ (q : Rq) (s : State), s.wf →
    (∀ (cls b n : Nat) (x : RawHeader) (h : Header) (ty f : Nat), h = headerOf x →
      mayServe s q (HostReq.uopen cls b n x ty f).roles true →
      (cls ≠ 3 → x.octets.length ≠ 4096 → ∃ t, exec (.uopen q cls b n x ty f) s = .next t ∧ onlyAnswers s t
        ∧ answered s t q 0x030 0x020 [])
      ∧ (cls = 3 ∨ x.octets.length = 4096 →
      ((cls = 1 ∧ (2 ≤ b ∨ 2 ≤ n)) ∨ (cls = 3 ∧ ty ≠ 1 ∧ ty ≠ 2) ∨ cls = 0 ∨ 4 ≤ cls → ∃ t, exec (.uopen q cls b n x ty f) s = .next t
        ∧ onlyAnswers s t ∧ answered s t q 0x030 0x022 [])
      ∧ (cls = 1 → b < 2 → n < 2 → s.mst ≠ .daybreak → s.boot.session = none → 950 ≤ getF s pwrStore 9 0 → b ≠ runBank s →
        (headerCheck s (n + 1) h = none → ∃ t u, exec (.uopen q cls b n x ty f) s = .next t ∧ answered s t q 0x030 0 []
          ∧ t.boot.session = some u ∧ u.cls = 1 ∧ u.bank = b ∧ u.slot = n ∧ u.hdr = some h ∧ u.sess = q.sess.val ∧ u.lostAt = none
          ∧ slotOf t b n = { st := .writing, hdr := some h, blocks := u.blocks } ∧ getF t updSess 3 0 = 1
          ∧ ((slotOf s b n).st ≠ .writing → u.blocks = []) ∧ regsKept [updSess] s t ∧ t.mem = s.mem
          ∧ (∀ b' n', b' < 2 → n' < 2 → (b' ≠ b ∨ n' ≠ n) → slotOf t b' n' = slotOf s b' n'))
        ∧ (∀ c, headerCheck s (n + 1) h = some c → ∃ t, exec (.uopen q cls b n x ty f) s = .next t ∧ t.boot = s.boot
          ∧ answered s t q 0x030 0x030 [word c, 5] ∧ getF t updSess 17 14 = 5 ∧ bitOf t updStatus 2 = true
          ∧ reg t midLastF = word 0xA20 ∧ getF t updSess 3 0 = 4 ∧ t.mem = s.mem))
      ∧ (cls = 2 ∨ (cls = 3 ∧ (ty = 1 ∨ ty = 2)) → ∀ r, openRefusal s cls 0 0 h ty f = some r → ∃ t, exec (.uopen q cls b n x ty f) s = .next t
        ∧ t.boot = s.boot ∧ answered s t q 0x030 0x030 [word r.2, word r.1] ∧ getF t updSess 17 14 = r.1 ∧ bitOf t updStatus 2 = true
        ∧ reg t midLastF = word 0xA20)
      ∧ (cls = 2 → bitOf s dayStatus 7 = true → openRefusal s cls 0 0 h ty f = none → ∃ t u, exec (.uopen q cls b n x ty f) s = .next t
        ∧ answered s t q 0x030 0 [] ∧ t.boot.session = some u ∧ u.cls = 2 ∧ u.hdr = some h ∧ u.sess = q.sess.val
        ∧ t.boot.slots = s.boot.slots ∧ getF t updSess 3 0 = 1)
      ∧ (cls = 2 → bitOf s dayStatus 7 = false → openRefusal s cls 0 0 h ty f = none → ∃ t u, exec (.uopen q cls b n x ty f) s = .next t
        ∧ t.boot.session = some u ∧ u.cls = 2 ∧ u.hdr = some h ∧ t.boot.staged = none ∧ t.boot.slots = s.boot.slots)
      ∧ (cls = 3 → ty = 1 ∨ ty = 2 → openRefusal s cls 0 0 h ty f = none → ∃ t u, exec (.uopen q cls b n x ty f) s = .next t
        ∧ answered s t q 0x030 0 [] ∧ t.boot.session = some u ∧ u.cls = 3 ∧ u.ty = ty ∧ u.floor = f ∧ u.hdr = none
        ∧ t.boot.slots = s.boot.slots ∧ regsKept [updSess] s t)))
    ∧ (∀ (off : Nat) (ws : List Word), mayServe s q [.engineer] false → 1 ≤ ws.length → ws.length ≤ 1024 →
      (openSession s = none → ∃ t, exec (.ublock q off ws) s = .next t ∧ onlyAnswers s t ∧ answered s t q 0x031 0x011 [])
      ∧ (∀ u, openSession s = some u →
        (blockRefusal u off ws = none → ∃ t, exec (.ublock q off ws) s = .next t ∧ answered s t q 0x031 0 []
          ∧ t.boot.session = some { u with blocks := tabSet [] u.blocks (off / 4608) ws } ∧ t.regs = s.regs ∧ t.mem = s.mem
          ∧ (u.cls = 1 → (slotOf t u.bank u.slot).blocks = tabSet [] u.blocks (off / 4608) ws
            ∧ (slotOf t u.bank u.slot).st = (slotOf s u.bank u.slot).st)
          ∧ (u.cls ≠ 1 → t.boot.slots = s.boot.slots))
        ∧ (∀ r, blockRefusal u off ws = some r → ∃ t, exec (.ublock q off ws) s = .next t ∧ t.boot = s.boot
          ∧ answered s t q 0x031 0x030 [0xA20, word r] ∧ getF t updSess 17 14 = r ∧ raised 0xA20 (refusalDetail r u.bank u.slot) s t)))
    ∧ (mayServe s q [.engineer, .secadmin] true →
      (openSession s = none → ∃ t, exec (.uclose q) s = .next t ∧ onlyAnswers s t ∧ answered s t q 0x032 0x011 [])
      ∧ (∀ u, openSession s = some u →
        (closeRefusal s u = none → ∃ t, exec (.uclose q) s = .next t ∧ answered s t q 0x032 0 [] ∧ t.boot.session = none
          ∧ getF t updSess 3 0 = 3 ∧ bitOf t updStatus 3 = true ∧ reg t midLastF = word 0xA22 ∧ t.mem = s.mem
          ∧ (u.cls = 1 → slotOf t u.bank u.slot = { st := .valid, hdr := u.hdr, words := (u.blocks.map (·.2)).flatten }
            ∧ t.boot.hdrAt = some (2 * u.bank + u.slot, s.now))
          ∧ (u.cls = 2 → ∀ h, u.hdr = some h → t.boot.staged = some (h, (u.blocks.map (·.2)).flatten) ∧ getF t dayChg 3 0 = 1
            ∧ t.boot.slots = s.boot.slots)
          ∧ (u.cls = 3 → t.boot.slots = s.boot.slots ∧ bitOf t updStatus 6 = true
            ∧ (u.ty = 1 → getF t updFloor 7 0 = u.floor ∧ getF t updFloor 15 8 = getF s updFloor 15 8)
            ∧ (u.ty ≠ 1 → getF t updFloor 15 8 = u.floor ∧ getF t updFloor 7 0 = getF s updFloor 7 0)))
        ∧ (∀ r, closeRefusal s u = some r → ∃ t, exec (.uclose q) s = .next t ∧ answered s t q 0x032 0x030 [word r.2, word r.1]
          ∧ reg t midLastF = word 0xA20 ∧ t.mem = s.mem ∧ (r.1 ≠ 9 → t.boot = s.boot)
          ∧ (r.1 = 9 → t.boot.session = none ∧ getF t updSess 3 0 = 4 ∧ (u.cls = 1 → (slotOf t u.bank u.slot).st = .invalid)))))
    ∧ (mayServe s q [.engineer] true →
      (∀ n, 2 ≤ n → ∃ t, exec (.ucopy q n) s = .next t ∧ onlyAnswers s t ∧ answered s t q 0x033 0x022 [])
      ∧ (∀ n, n < 2 →
        (copyRefusal s n = none → ∃ t, exec (.ucopy q n) s = .next t ∧ answered s t q 0x033 0 [] ∧ t.boot.session = none
          ∧ (slotOf t (1 - runBank s) n).st = .valid ∧ (slotOf t (1 - runBank s) n).hdr = (slotOf s (runBank s) n).hdr
          ∧ (slotOf t (1 - runBank s) n).words = (slotOf s (runBank s) n).words ∧ slotOf t (runBank s) n = slotOf s (runBank s) n
          ∧ reg t midLastF = word 0xA22 ∧ t.mem = s.mem)
        ∧ (∀ r, copyRefusal s n = some r → ∃ t, exec (.ucopy q n) s = .next t ∧ answered s t q 0x033 0x030 [word r.2, word r.1]
          ∧ reg t midLastF = word 0xA20 ∧ (r.1 ≠ 9 → t.boot = s.boot) ∧ slotOf t (runBank s) n = slotOf s (runBank s) n
          ∧ (r.1 = 9 → (slotOf t (1 - runBank s) n).st = .invalid)))
      ∧ (∀ b k, 2 ≤ b → ∃ t, exec (.activate q b k) s = .next t ∧ onlyAnswers s t ∧ answered s t q 0x034 0x022 [])
      ∧ (∀ b, b < 2 →
        (∀ r k, activateRefusal s b = some r → ∃ t, exec (.activate q b k) s = .next t ∧ answered s t q 0x034 0x030 [0xA20, word r.1]
          ∧ reg t midLastF = word 0xA20 ∧ t.boot = s.boot ∧ reg t updBoot = reg s updBoot ∧ t.mst = s.mst)
        ∧ (activateRefusal s b = none →
          (∃ t, exec (.activate q b true) s = .next t ∧ answered s t q 0x034 0 []
            ∧ (s.tk.wrote.contains updBoot = false → getF t updBoot 0 0 = b) ∧ bitOf t updBoot 2 = true
            ∧ raised 0xA25 (b * 16) s t ∧ bitOf t updStatus 5 = true ∧ regsKeptF [updBoot, updStatus] s t ∧ t.mst = s.mst ∧ t.boot = s.boot)
          ∧ (s.mst = .standby ∨ s.mst = .bench ∨ s.mst = .stopped → ∃ t, exec (.activate q b false) s = .next t ∧ t.mst = .daybreak
            ∧ getF t updBoot 0 0 = b ∧ t.sess = [] ∧ t.boot.slots = s.boot.slots ∧ t.boot.step = 0 ∧ t.eng = []
            ∧ ∃ o, t.out = s.out ++ .response q.sess q.tag 0x034 0 [] :: o)
          ∧ (s.mst = .daybreak → ∃ t, exec (.activate q b false) s = .next t ∧ answered s t q 0x034 0 [] ∧ t.boot.attempts = 0 ∧ t.boot.tried = false
            ∧ (s.tk.wrote.contains updBoot = false → getF t updBoot 0 0 = b) ∧ t.mst = .daybreak)
          ∧ (s.mst = .active → partnerReady s = false → ∃ t, exec (.activate q b false) s = .next t
            ∧ answered s t q 0x034 0x030 [0x712, 2] ∧ reg t updBoot = reg s updBoot ∧ t.mst = .active)
          ∧ (s.mst = .active → partnerReady s = true → s.stopReq = none → ∃ t, exec (.activate q b false) s = .next t
            ∧ answered s t q 0x034 0x001 [reg t pairSwDay + 1] ∧ t.stopReq = some (false, q.sess.val, q.tag) ∧ t.stopActivate = true
            ∧ (s.tk.wrote.contains updBoot = false → getF t updBoot 0 0 = b)
            ∧ reg t pairSwDay = (if reg s pairSwDay = 0 then word ((s.day.n + 2) % 2 ^ 36) else reg s pairSwDay) ∧ t.mst = .active))))

/-- The clock steps only while the day sequencer is stopped, to the selected source more than 1 us away, with 0x509. A PLL
unlock stops the day in the same tick. A Sync message of the domain gives it an offset unless it is an outlier, an Announce
its grandmaster and leap marks, a peer delay response its delay; each leaves the domain usable as R311 says and the
selection as R317 to R320 say, and RATE within its limit and, after a switch, within 100 ns/s of where it was. Messages
missing for their intervals make it unusable. A command whose condition does not hold leaves the state as it was: the
model's choice (log entry 8). -/
def Obligations.ClockAndPtpMessages : Prop :=
  ∀ (s : State), s.wf →
    (∀ (c : Fin 6) (sec ns : Nat) (d : Int), d = (sec * 64000000000 + ns : Nat) - (s.time.sec * 64000000000 + s.time.ns64 : Nat) →
      (s.day.run = false → c.val ≠ 0 → timeSrc s = c.val → d < -64000 ∨ 64000 < d → ∃ t, exec (.clockStep c sec ns) s = .next t
        ∧ t.time.sec = sec % 2 ^ 48 ∧ t.time.ns64 = ns % 64000000000 ∧ t.time.frac = 0 ∧ t.time.set = true ∧ reg t midLastF = word 0x509
        ∧ (s.logQ.length < 256 → ∃ x ∈ t.logQ, x.code = 0x509 ∧ x.detail = c.val ∧ x.sec = t.time.sec) ∧ regsKeptF [] s t ∧ timeOnly s t)
      ∧ (s.day.run = true ∨ c.val = 0 ∨ timeSrc s ≠ c.val ∨ (-64000 ≤ d ∧ d ≤ 64000) → exec (.clockStep c sec ns) s = .next s))
    ∧ (∃ t, exec .pllUnlock s = .next t ∧ t.day = { s.day with run := false } ∧ t.time = { s.time with pllLost := true }
      ∧ raised 0x50F (timeSrc s) s t ∧ regsKeptF [] s t ∧ t.mem = s.mem ∧ t.eng = s.eng ∧ t.mst = s.mst)
    ∧ exec .pllRelock s = .next { s with time := { s.time with pllLost := false } }
    ∧ (∀ n : Fin 4, (portDomOn s n = true →
          tabGet 0 s.time.pdelayAt n = 0 ∨ tabGet 0 s.time.pdelayAt n + 250000000 ≤ s.now + 1 → ∃ t, exec (.pdelayReqSend n) s = .next t
            ∧ t.out = s.out ++ [.ptp n 2] ∧ tabGet 0 t.time.pdelayAt n = s.now + 1 ∧ t = { s with time := t.time, out := t.out })
      ∧ (tabGet 0 s.time.pdelayAt n ≠ 0 → s.now + 1 < tabGet 0 s.time.pdelayAt n + 250000000 → exec (.pdelayReqSend n) s = .next s)
      ∧ (portDomOn s n = true → exec (.pdelayReqReceive n) s = .next (emit (.ptp n 3) s)
        ∧ ∀ (x : PeerDelay) (d : Int),
          d = (x.t4 + Config.ptpLatency n - x.t1 - Config.ptpTxLatency n) - (x.t3 - x.t2) - x.corr →
          ∃ t m, exec (.pdelayRespReceive n x) s = .next t ∧ tabGet 0 t.time.mpd n = m ∧ tabGet 0 t.time.mpdAt n = s.now + 1
          ∧ (d % 2 = 0 → m = (d / 2).toNat) ∧ (d % 2 = 1 → m = (d / 2).toNat ∨ m = (d / 2).toNat + 1)
          ∧ (∀ j, j ≠ n.val → tabGet 0 t.time.mpd j = tabGet 0 s.time.mpd j) ∧ timeOnly s t ∧ selects s t
          ∧ ((slaveLan s (n.val / 2)).getD 0 = n.val % 2 → reg t (timDom (n.val / 2) 3) = word m)
          ∧ srcUsable t (n.val / 2 + 1) = domUsable t (n.val / 2))
      ∧ (portDomOn s n = false → exec (.pdelayReqSend n) s = .next s
        ∧ (∃ t, exec (.pdelayReqReceive n) s = .next t ∧ dropped s t
          ∧ getF t (netDrop (n.val + 1)) 35 0 = min (getF s (netDrop (n.val + 1)) 35 0 + 1) (2 ^ 36 - 1))
        ∧ ∀ d, exec (.pdelayRespReceive n d) s = .next s)
      ∧ ∃ t, exec (.peerDelayTimeout n) s = .next t ∧ timeOnly s t ∧ selects s t
        ∧ srcUsable t (n.val / 2 + 1) = domUsable t (n.val / 2))
    ∧ (∀ k : Fin 2, (bitOf s (timDom k 0) 35 = false → exec (.syncMissing k) s = .next s)
      ∧ (∀ dom : BitVec 8, domainHeard s k dom = true ↔ bitOf s (timDom k 0) 35 = true ∧ getF s (timDom k 0) 7 0 = dom.toNat
        ∧ (dom.toNat ≤ 127 ∨ (dom.toNat = 254 ∧ bitOf s (timDom k 0) 34 = true)))
      ∧ (∀ dom i a b c, domainHeard s k dom = false ∨ i < -4 ∨ 0 < i → exec (.ptpSyncReceive k dom i a b c) s = .next s)
      ∧ (∀ l (a : Announce), domainHeard s k a.domain = false ∨ a.interval < 0 ∨ 1 < a.interval ∨ a.ptpTimescale = false →
        exec (.ptpAnnounceReceive k l a) s = .next s)
      ∧ (∀ (dom : BitVec 8) (i t1 t2 c o : Int), domainHeard s k dom = true → -4 ≤ i → i ≤ 0 →
        o = t2 + Config.ptpLatency (domPort k ((slaveLan s k).getD 0)) - t1 - (slaveDelay s k : Nat) - c →
        ∃ t, exec (.ptpSyncReceive k dom i t1 t2 c) s = .next t ∧ (domOf t.time k).miss = 0
          ∧ (domOf t.time k).offs = (o :: (domOf s.time k).offs).take 8 ∧ timeOnly s t ∧ selects s t
          ∧ srcUsable t (k.val + 1) = domUsable t k ∧ domOf t.time (1 - k.val) = domOf s.time (1 - k.val)
          ∧ (outlier (domOf s.time k).offs o = true → (domOf t.time k).ofs = (domOf s.time k).ofs)
          ∧ (outlier (domOf s.time k).offs o = false → (domOf t.time k).ofs = some o ∧ reg t (timDom k 2) = satOf o
            ∧ (timeSrc t = k.val + 1 → s.tk.wrote.contains timRate = false → -2199023 ≤ rateOf t ∧ rateOf t ≤ 2199023
              ∧ ∀ r, t.time.slew = some r → -2199023 ≤ r → r ≤ 2199023 → -109951 ≤ rateOf t - r ∧ rateOf t - r ≤ 109951)
            ∧ (timeSrc s = k.val + 1 → srcMay t (k.val + 1) = true →
              (isLock (timeCode s) = true → o < -12800 ∨ 12800 < o → timeCode t = 1)
              ∧ (timeCode s = 1 → -3200 ≤ o → o ≤ 3200 → t.time.inBand = some (s.time.inBand.getD s.now))
              ∧ (timeCode s = 1 → o < -3200 ∨ 3200 < o → t.time.inBand = none))))
      ∧ (bitOf s (timDom k 0) 35 = true → ∃ t, exec (.syncMissing k) s = .next t ∧ (domOf t.time k).miss = max ((domOf s.time k).miss + 1) 4
        ∧ srcUsable t (k.val + 1) = false ∧ timeOnly s t ∧ selects s t)
      ∧ (∀ (l : Fin 2) (a : Announce), domainHeard s k a.domain = true → 0 ≤ a.interval → a.interval ≤ 1 → a.ptpTimescale = true →
        ((slaveLan s k).getD l.val ≠ l.val → ∃ t, exec (.ptpAnnounceReceive k l a) s = .next t
          ∧ t = { s with time := t.time } ∧ (domOf t.time k).annOther = some s.now
          ∧ (domOf t.time k).annWaitOther = (if a.interval = 1 then 6 else 3) ∧ (domOf t.time k).gm = (domOf s.time k).gm)
        ∧ ((slaveLan s k).getD l.val = l.val → ∃ t, exec (.ptpAnnounceReceive k l a) s = .next t ∧ slaveLan t k = some l.val
          ∧ (domOf t.time k).annTick = some s.now ∧ (domOf t.time k).annWait = (if a.interval = 1 then 6 else 3)
          ∧ (domOf t.time k).gm = some a.gm ∧ (domOf t.time k).cls = a.clockClass
          ∧ srcUsable t (k.val + 1) = domUsable t k ∧ selects s t ∧ t.mem = s.mem ∧ t.eng = s.eng ∧ t.mst = s.mst ∧ t.day = s.day
          ∧ (∀ g, (domOf s.time k).gm = some g → g ≠ a.gm → (domOf t.time k).holdUntil = s.now + 4000000000
            ∧ bitOf t (timDom k 1) 34 = true ∧ srcUsable t (k.val + 1) = false)
          ∧ (timeSrc t ≠ k.val + 1 → getF t timUtc 15 0 = getF s timUtc 15 0
            ∧ (s.time.leapFrom ≠ k.val + 1 ∨ a.leap61 = true ∨ a.leap59 = true → reg t timUtc = reg s timUtc))
          ∧ (s.time.leapFrom = k.val + 1 → a.leap61 = false → a.leap59 = false → getF t timUtc 17 16 = 0)
          ∧ (timeSrc t = k.val + 1 → (a.utcValid = true → getF t timUtc 15 0 = (a.utcOffset % 65536).toNat ∧ bitOf t timUtc 18 = true)
            ∧ (a.leap61 = true → getF s timUtc 17 16 = 0 → getF t timUtc 17 16 = 1)
            ∧ (a.leap61 = false → a.leap59 = true → getF s timUtc 17 16 = 0 → getF t timUtc 17 16 = 2))))
      ∧ ((domOf s.time k).annTick = none → exec (.announceTimeout k) s = .next s)
      ∧ (∀ n, (domOf s.time k).annTick = some n → (s.now < n + 250000000 * (domOf s.time k).annWait → exec (.announceTimeout k) s = .next s)
        ∧ (n + 250000000 * (domOf s.time k).annWait ≤ s.now → ∃ t, exec (.announceTimeout k) s = .next t ∧ timeOnly s t ∧ selects s t
          ∧ srcUsable t (k.val + 1) = domUsable t k
          ∧ (∀ b, (domOf s.time k).annOther = some b → s.now < b + 250000000 * (domOf s.time k).annWaitOther → (domOf t.time k).annTick = some b
            ∧ getF t (timDom k 1) 33 32 = (3 - getF s (timDom k 1) 33 32))
          ∧ (((domOf s.time k).annOther = none ∨ ∃ b, (domOf s.time k).annOther = some b
              ∧ b + 250000000 * (domOf s.time k).annWaitOther ≤ s.now) →
            (domOf t.time k).annTick = none ∧ slaveLan t k = none ∧ srcUsable t (k.val + 1) = false)))
      ∧ ((domOf s.time k).holdUntil ≤ s.now → ∃ t, exec (.gmChangeHoldEnd k) s = .next t ∧ timeOnly s t ∧ selects s t
        ∧ srcUsable t (k.val + 1) = domUsable t k)
      ∧ (s.now < (domOf s.time k).holdUntil → exec (.gmChangeHoldEnd k) s = .next s))

/-- A PPS edge gives the offset from the nearest second, is usable when it follows the one before by 1 s and the seconds are
known, and is queued as event 0x0920 once its arrival delay is over; a missing one makes the input unusable. An IRIG-B
frame, decoded from its pulses as log entry 127 says, is queued as 0x0921 and its input usable from the third good frame in
a row (R315's run by TAI seconds). 60 s within 50 ns reach the LOCK state of the source; a better source usable for the set
time is taken at a whole second with 0x504, unless the domains disagree; the PPS output drives in LOCK and HOLD. A command
whose condition does not hold leaves the state as it was: the model's choice (log entry 8). -/
def Obligations.PulsesFramesAndLock : Prop :=
  ∀ (s : State), s.wf →
    (∃ t, exec .ppsEdge s = .next t ∧ t.time.ppsAt = some (s.time.sec, s.time.ns64) ∧ t.time.ppsOfs = nearestSecond s.time.ns64
      ∧ reg t timPpsOfs = satOf (nearestSecond s.time.ns64) ∧ t.mem = s.mem ∧ t.mst = s.mst ∧ t.day = s.day ∧ selects s t
      ∧ (∀ p, s.time.ppsAt = some p →
        srcUsable t 3 = (secondApart (s.time.sec, s.time.ns64) p && secondsKnown s && !jumps s 3 (nearestSecond s.time.ns64))
        ∧ getF t timPpsSt 11 0 = if secondApart (s.time.sec, s.time.ns64) p then getF s timPpsSt 11 0
          else min (getF s timPpsSt 11 0 + 1) 4095)
      ∧ (s.time.ppsAt = none → srcUsable t 3 = false ∧ getF t timPpsSt 11 0 = getF s timPpsSt 11 0)
      ∧ (syncArm s ≠ 1 → deliversLater (getF s timPpsDly 17 0) 0x920 0 s t ∧ t.sig = s.sig)
      ∧ (syncArm s = 1 → srcUsable t 3 = true → s.sig.armAt + 250000000 ≤ s.now →
        (s.tk.wrote.contains sigSync = false → syncArm t = 0) ∧ bitOf t sigSync 3 = true
        ∧ reg t midLastF = word 0x60A ∧ ∀ c : Fin 2048, chActive s c = true → (sigChan t c).sync =
          some (if 2 * s.time.ns64 < 64000000000 then s.time.sec else s.time.sec + 1, 0)))
    ∧ (s.time.ppsAt = none → exec .ppsEdgeMissing s = .next s)
    ∧ (∀ p, s.time.ppsAt = some p →
      (clockDiff (s.time.sec, s.time.ns64) p ≤ 64000000000 + 64000 → exec .ppsEdgeMissing s = .next s)
      ∧ (64000000000 + 64000 < clockDiff (s.time.sec, s.time.ns64) p → ∃ t, exec .ppsEdgeMissing s = .next t ∧ t.time.ppsAt = none
        ∧ srcUsable t 3 = false ∧ getF t timPpsSt 11 0 = min (getF s timPpsSt 11 0 + 1) 4095 ∧ selects s t ∧ timeOnly s t))
    ∧ (∀ ws : List Nat, ∃ t, exec (.irigFrame ws) s = .next t ∧ t.time.irigAt = some (s.time.sec, s.time.ns64)
      ∧ deliversLater (getF s timPpsDly 17 0) 0x921 0 s t ∧ t.mem = s.mem ∧ t.mst = s.mst ∧ t.day = s.day ∧ t.sig = s.sig ∧ selects s t
      ∧ (s.time.irigAt = none → t.time.irigCnt = s.time.irigCnt ∧ srcUsable t 4 = srcUsable s 4)
      ∧ (∀ p, s.time.irigAt = some p →
        (irigDecode ws = none → t.time.irigCnt = 0 ∧ t.time.irigLast = none ∧ srcUsable t 4 = false
          ∧ getF t timPpsSt 23 12 = min (getF s timPpsSt 23 12 + 1) 4095)
        ∧ (∀ f, irigDecode ws = some f → secondApart (s.time.sec, s.time.ns64) p = false → t.time.irigCnt = 0
          ∧ t.time.irigLast = none ∧ srcUsable t 4 = false ∧ getF t timPpsSt 23 12 = getF s timPpsSt 23 12)
        ∧ (∀ f n o, irigDecode ws = some f → secondApart (s.time.sec, s.time.ns64) p = true →
          ((∀ u, s.time.irigLast = some u → irigTai s p f = u + 1) → n = s.time.irigCnt + 1) →
          ((∃ u, s.time.irigLast = some u ∧ irigTai s p f ≠ u + 1) → n = 1) →
          o = ((p.1 : Int) - irigTai s p f) * 64000000000 + (p.2 : Nat) →
          t.time.irigCnt = n ∧ t.time.irigOfs = o ∧ t.time.irigLast = some (irigTai s p f) ∧ t.time.irigQual = f.quality
          ∧ srcUsable t 4 = (decide (3 ≤ n) && !jumps s 4 o) ∧ getF t timPpsSt 23 12 = getF s timPpsSt 23 12)))
    ∧ (∀ p f, irigTai s p f = f.utcSec - (if bitOf s timCfg 17 then f.localOffset else 0)
      + offsetAt s (p.1 + if 64000000000 ≤ 2 * p.2 then 1 else 0))
    ∧ (∀ ws f, irigDecode ws = some f → ws.length = 100
      ∧ ∀ i < 100, (pulseOf (ws.getD i 0) = some .mark ↔ i = 0 ∨ i % 10 = 9) ∧ pulseOf (ws.getD i 0) ≠ none)
    ∧ (∃ t, exec .irigSignalLoss s = .next t ∧ t.time.irigCnt = 0 ∧ t.time.irigAt = none ∧ t.time.irigLast = none ∧ srcUsable t 4 = false ∧ selects s t
      ∧ timeOnly s t)
    ∧ (∀ a, s.time.inBand = some a → timeCode s = 1 → 1 ≤ timeSrc s → timeSrc s ≤ 5 →
      (a + 15000000000 ≤ s.now → ∃ t, exec .lockAcquired s = .next t ∧ timeCode t = timeSrc s + 1 ∧ timeSrc t = timeSrc s
        ∧ t.time.lockedAt = some s.now ∧ regsKept [timState] s t ∧ timeOnly s t)
      ∧ (s.now < a + 15000000000 → exec .lockAcquired s = .next s))
    ∧ (s.time.inBand = none ∨ timeCode s ≠ 1 ∨ timeSrc s = 0 → exec .lockAcquired s = .next s)
    ∧ (∀ h, revertDue s h = true ↔ srcMay s h = true ∧ ∃ a, (h, a) ∈ s.time.revert ∧ a + 250000000 * getF s timCfg 25 18 ≤ s.now)
    ∧ (∀ h, (higherSrcs s (timeSrc s)).find? (revertDue s) = some h → s.time.ns64 < lastAdvance s → disagrees s = false →
      ∃ t, exec .sourceRevert s = .next t
      ∧ timeSrc t = h ∧ timeCode t = 1 ∧ t.time.slew = some (rateOf s)
      ∧ raised 0x504 h s t ∧ bitOf t timStatus 4 = true ∧ regsKeptF [timState, timStatus] s t ∧ timeOnly s t)
    ∧ ((higherSrcs s (timeSrc s)).find? (revertDue s) = none ∨ lastAdvance s ≤ s.time.ns64 ∨ disagrees s = true →
      exec .sourceRevert s = .next s)
    ∧ (s.time.ns64 < lastAdvance s → bitOf s timPpsO 9 = true ∨ (bitOf s timPpsO 10 = true ∧ 2 ≤ timeCode s ∧ timeCode s ≤ 7) →
      exec .ppsOutputEdge s = .next (emit (.pps (getF s timPpsO 8 0)) s))
    ∧ (lastAdvance s ≤ s.time.ns64 ∨ (bitOf s timPpsO 9 = false ∧ (bitOf s timPpsO 10 = false ∨ timeCode s < 2 ∨ 7 < timeCode s)) →
      exec .ppsOutputEdge s = .next s)

/-- HOLD becomes HOLD-LONG with 0x508 once its bound passes 1,000 ns; 12 h in LOCK set the trend bit. At its second a
pending leap changes TAI - UTC by one with 0x50B and is pending no more. In FREE a usable source beyond 1 ms is reported
with 0x50D once an hour. A Daybreak in step 6 without a set clock after the wait takes the time of the last log entry, in
FREE with 0x510. A command whose condition does not hold leaves the state as it was: the model's choice (log entry 8). -/
def Obligations.HoldoverLeapAndFreeStart : Prop :=
  ∀ (s : State), s.wf →
    (∀ a, s.time.holdAt = some a → timeCode s = 7 →
      (250000000000000 < 6250000000000 + (if bitOf s timOsc 25 then 135 else 1350) * (s.now - a) →
        ∃ t, exec .holdLongEntry s = .next t ∧ timeCode t = 8 ∧ raised 0x508 0 s t ∧ bitOf t timStatus 6 = true
          ∧ timeSrc t = timeSrc s ∧ regsKeptF [timState, timStatus] s t ∧ timeOnly s t
          ∧ getF t timState 35 24 = min 4094 (s.time.bound
            + (6250000000000 + (if bitOf s timOsc 25 then 135 else 1350) * (s.now - a) + 249999999999) / 250000000000))
      ∧ (6250000000000 + (if bitOf s timOsc 25 then 135 else 1350) * (s.now - a) ≤ 250000000000000 →
        exec .holdLongEntry s = .next s))
    ∧ (s.time.holdAt = none ∨ timeCode s ≠ 7 → exec .holdLongEntry s = .next s)
    ∧ (∀ n, n = s.time.lockTicks + (match s.time.lockedAt with | some a => s.now - a | none => 0) →
      (10800000000000 ≤ n → ∃ t, exec .trendLearned s = .next t ∧ bitOf t timOsc 25 = true
        ∧ (∀ b, b ≠ 25 → b < 36 → bitOf t timOsc b = bitOf s timOsc b) ∧ regsKept [timOsc] s t ∧ t = { s with regs := t.regs, tk := t.tk })
      ∧ (n < 10800000000000 → exec .trendLearned s = .next s))
    ∧ (getF s timUtc 17 16 = 0 ∨ s.time.sec < (reg s timLeapL).toNat + getF s timLeapH 11 0 * 2 ^ 36 → exec .leapApply s = .next s)
    ∧ (getF s timUtc 17 16 ≠ 0 → (reg s timLeapL).toNat + getF s timLeapH 11 0 * 2 ^ 36 ≤ s.time.sec →
      ∃ t, exec .leapApply s = .next t ∧ getF t timUtc 17 16 = 0 ∧ reg t timLeapL = 0 ∧ reg t timLeapH = 0
        ∧ getF t timUtc 15 0 = (getF s timUtc 15 0 + (if getF s timUtc 17 16 = 1 then 1 else 65535)) % 65536
        ∧ t.boot.utcSaved = some (word (getF t timUtc 15 0)) ∧ raised 0x50B s.time.leapFrom s t ∧ bitOf t timStatus 9 = true
        ∧ t.time.sec = s.time.sec ∧ t.time.ns64 = s.time.ns64 ∧ regsKeptF [timUtc, timLeapL, timLeapH, timStatus] s t
        ∧ t.mem = s.mem ∧ t.day = s.day)
    ∧ (∀ c : Fin 6, timeCode s = 0 → srcUsable s c = true → srcFar s c = true →
      (tabGet 0 s.time.far c = 0 ∨ tabGet 0 s.time.far c + 900000000000 ≤ s.now + 1 → ∃ t, exec (.farSourceReport c) s = .next t
        ∧ raised 0x50D c s t ∧ bitOf t timStatus 7 = true ∧ tabGet 0 t.time.far c = s.now + 1 ∧ regsKeptF [timStatus] s t
        ∧ timeOnly s t)
      ∧ (tabGet 0 s.time.far c ≠ 0 → s.now + 1 < tabGet 0 s.time.far c + 900000000000 → exec (.farSourceReport c) s = .next s))
    ∧ (∀ c : Fin 6, timeCode s ≠ 0 ∨ srcUsable s c = false ∨ srcFar s c = false → exec (.farSourceReport c) s = .next s)
    ∧ (s.mst = .daybreak → s.time.set = false → firstSrc s = none → s.boot.step = 6 → s.boot.stepAt + 250000000 * getF s timCfg 35 26 ≤ s.now →
      ∃ t, exec .timeWaitExpiry s = .next t ∧ t.time.set = true ∧ timeCode t = 0 ∧ reg t midLastF = word 0x510
        ∧ (s.logQ.length < 256 → ∃ x ∈ t.logQ, x.code = 0x510 ∧ x.detail = 0 ∧ x.sec = t.time.sec) ∧ regsKeptF [timState] s t
        ∧ (∀ l, (s.log.filter (·.torn.isNone)).getLast? = some l → t.time.sec = l.sec % 2 ^ 48 ∧ t.time.ns64 = l.ns64 % 64000000000)
        ∧ ((∀ l ∈ s.log, l.torn.isSome = true) → t.time.sec = s.time.sec ∧ t.time.ns64 = s.time.ns64) ∧ timeOnly s t)
    ∧ (s.mst ≠ .daybreak ∨ s.time.set = true ∨ (firstSrc s).isSome = true ∨ s.boot.step ≠ 6 ∨ s.now < s.boot.stepAt + 250000000 * getF s timCfg 35 26 →
      exec .timeWaitExpiry s = .next s)

/-- At a bus idle, which ends what a request waited for (R264, R265), a valid head that is due and was posted in an earlier
tick contends once its words are free: lost, it is counted; won, its frame goes on. An invalid one ends with 0x414. A frame
that is sent leaves the module, its descriptor ends, at once or when its point is free, with status 2, ATT, ERRC and its
tick, and TEC falls by one; one whose secondary sample point lay out of range had a bit error. TXPTR posts; what a port
cannot send fails in the next tick. A cancel ends a descriptor that has not started. The beacon goes out with its eight
words in Dawn, an echo request once a day, its reply gives the delay or 0x423, and the delay notice follows. A command whose
condition does not hold leaves the state as it was: the model's choice (log entry 8). -/
def Obligations.PortsTransmit : Prop :=
  ∀ (s u : State) (p : Fin 256) (x y : Port), s.wf → u = busIdle p s → x = portOf u p → y = portOf s p →
    (y.sending ≠ .none → u = s)
    ∧ (y.sending = .none → x.sending = .none ∧ x.cfgPend = false ∧ x.loPend = false ∧ x.inError = false
      ∧ (y.cfgPend = false → u = { s with ports := u.ports } ∧ x = { y with loPend := false, inError := false })
      ∧ (y.cfgPend = true → cfgAct u p = true))
    ∧ (∀ how, mayStart u p = false ∨ ownDue u p = true ∨ headReadable u p = false → exec (.transmitAttempt p how) s = .next u)
    ∧ (∀ how, mayStart u p = true → ownDue u p = false → headReadable u p = true →
      freeFor masterPort p u (attempt p how (untouched u)) = false →
      ∃ t, exec (.transmitAttempt p how) s = .next t ∧ t = { u with waiters := t.waiters })
    ∧ (∀ how d v, mayStart u p = true → ownDue u p = false → headReadable u p = true →
      freeFor masterPort p u (attempt p how (untouched u)) = true → x.cancelled.contains (txGet u p) = false →
      fetchDesc p (untouched u) = (some d, v) → onlyTouches u v →
      (d.valid (isZilco u p) = true → isDue u p d = false → ∃ t, exec (.transmitAttempt p how) s = .next t
        ∧ t = { u with served := t.served, owed := t.owed, tk := t.tk })
      ∧ (∀ ws v', d.valid (isZilco u p) = true → isDue u p d = true →
        mReads masterPort d.buf (d.words (isZilco u p)) v = (some ws, v') → onlyTouches u v' →
        ∃ t, exec (.transmitAttempt p how) s = .next t ∧ (portOf t p).sofDriven = true ∧ (portOf t p).headDue = true
          ∧ (portOf t p).att = x.att ∧ (∀ j, j ≠ p.val → portOf t j = portOf u j) ∧ t.mem = u.mem ∧ t.out = u.out
          ∧ regsKept [zp p 0x23] u t
          ∧ (how = .lost → (portOf t p).sending = .none
            ∧ getF t (zp p 0x23) 35 0 = min (getF u (zp p 0x23) 35 0 + 1) (2 ^ 36 - 1))
          ∧ (how = .won → (portOf t p).sending = .ring (txGet u p) ∧ (portOf t p).sof = dayTick u ∧ (portOf t p).sofAt = u.now
            ∧ (portOf t p).tx = { d.frame (isZilco u p) ws with esi := confState u p == 1 } ∧ t.regs = u.regs))
      ∧ (d.valid (isZilco u p) = false → (∀ i < 4, isShared (descAddr u p (txGet u p) + i) = true
          ∧ gate u masterPort false .write (word (descAddr u p (txGet u p) + i)) = none) →
        ∃ t, exec (.transmitAttempt p how) s = .next t ∧ reg t midLastF = word 0x414
          ∧ txGet t p = (txGet u p + 1) % txSize u p % 256
          ∧ memGet t (descAddr u p (txGet u p)) = word (splice (splice (memGet u (descAddr u p (txGet u p))).toNat 35 34 3) 27 24 0)
          ∧ (∀ b, b < descAddr u p (txGet u p) ∨ descAddr u p (txGet u p) + 3 < b → memGet t b = memGet u b) ∧ t.out = u.out))
    ∧ (∀ n : BitVec 9, (y.sending = .none ∨ driverOn s p = false → exec (.transmitSuccess p n) s = .next s)
      ∧ (y.sending ≠ .none → driverOn s p = true → compensated s p = true → sspBad s p n.toNat = true →
        ∃ t, exec (.transmitSuccess p n) s = .next t ∧ getF t (zp p 5) 15 12 = 4 ∧ bitOf t (zp p 5) 6 = true
          ∧ getF t (zp p 3) 26 18 = n.toNat ∧ (portOf t p).sending = .none ∧ t.out = s.out)
      ∧ (driverOn s p = true → y.cfgPend = false → getF s (zp p 4) 16 8 ≤ 256 → compensated s p = false ∨ sspBad s p n.toNat = false →
        (∀ k, y.sending = .beacon ∨ y.sending = .echo k ∨ y.sending = .delay k → ∃ t, exec (.transmitSuccess p n) s = .next t
          ∧ t.out = s.out ++ [if y.sending = .beacon then .beacon p y.tx.words else .segFrame p y.tx] ∧ t.mem = s.mem
          ∧ (portOf t p).sending = .none ∧ getF t (zp p 3) 26 18 = (if compensated s p = true then n.toNat else getF s (zp p 3) 26 18)
          ∧ (∀ j, j ≠ p.val → portOf t j = portOf s j)
          ∧ (listenOnly s p = false → confState s p < 2 → getF t (zp p 4) 16 8 = getF s (zp p 4) 16 8 - 1))
        ∧ (∀ i a w0 w1 w2 w3 v, y.sending = .ring i → a = descAddr s p (txGet s p) →
          mReads masterPort a 4 s = (some [w0, w1, w2, w3], v) → onlyTouches s v →
          (∀ j < 4, isShared (a + j) = true ∧ gate s masterPort false .write (word (a + j)) = none) →
          ∃ t, exec (.transmitSuccess p n) s = .next t ∧ t.out = s.out ++ [.segFrame p y.tx] ∧ (portOf t p).sending = .none
            ∧ getF t (zp p 0x21) 35 0 = min (getF s (zp p 0x21) 35 0 + 1) (2 ^ 36 - 1)
            ∧ (2 ≤ txSize s p → txGet t p = (txGet s p + 1) % txSize s p % 256)
            ∧ (endWaits s p a = true → t.mem = s.mem ∧ t.ends = s.ends ++ [⟨p, txGet s p, 2, y.att, y.lastErr, y.sof⟩])
            ∧ ((∀ e ∈ s.ends, e.port ≠ p.val) → (∀ j < 4, blockedAt s masterPort p (a + j) = false) → t.ends = s.ends
            ∧ memGet t a = word (splice (splice w0.toNat 35 34 2) 27 24 y.att) ∧ memGet t (a + 1) = w1
            ∧ memGet t (a + 2) = word (splice w2.toNat 31 28 y.lastErr)
            ∧ memGet t (a + 3) = (if isZilco s p then word (y.sof % 2 ^ 28) else w3)
            ∧ (∀ b, b < a ∨ a + 3 < b → memGet t b = memGet s b)))))
    ∧ (∀ n : BitVec 8, ∃ t, exec (.txptrWrite p n) s = .next t ∧ txPut t p = n.toNat ∧ (∀ j, j ≠ p.val → portOf t j = portOf s j)
      ∧ regsKept [zp p 0x12] s t ∧ txGet t p = txGet s p ∧ t = { s with regs := t.regs, tk := t.tk, ports := t.ports }
      ∧ (y.posts.length = posted s p → posted s p ≤ posted t p →
        (portOf t p).posts = y.posts ++ List.replicate (posted t p - posted s p) s.now))
    ∧ (s.ports = [(p.val, y)] → y.posts ≠ [] → cannotSend s p = true → 2 ≤ txSize s p → txSize s p ≤ 256 → txGet s p < txSize s p →
      txPut s p < txSize s p → quietTick { s with ports := [] } → ∃ t, exec .clockTick s = .next t ∧ posted t p = 0)
    ∧ (∀ i : BitVec 8, (isPosted s p i.toNat = false → ∃ t, exec (.txcanCancel p i) s = .next t ∧ getF t (zp p 0x13) 17 16 = 3
        ∧ regsKept [zp p 0x13] s t ∧ t = { s with regs := t.regs, tk := t.tk })
      ∧ (isPosted s p i.toNat = true → y.cancelled.contains i.toNat = true ∨ (i.toNat = txGet s p ∧ y.sofDriven = true) →
        ∃ t, exec (.txcanCancel p i) s = .next t ∧ getF t (zp p 0x13) 17 16 = 2 ∧ regsKept [zp p 0x13] s t ∧ t = { s with regs := t.regs, tk := t.tk })
      ∧ (∀ a w0 w1 w2 w3 v, isPosted s p i.toNat = true → y.cancelled.contains i.toNat = false →
        (i.toNat = txGet s p → y.sofDriven = false) → a = descAddr s p i.toNat →
        mReads masterPort a 4 s = (some [w0, w1, w2, w3], v) → onlyTouches s v →
        (∀ j < 4, isShared (a + j) = true ∧ gate s masterPort false .write (word (a + j)) = none) →
        ∃ t, exec (.txcanCancel p i) s = .next t ∧ getF t (zp p 0x13) 17 16 = 1
          ∧ (endWaits s p a = true → t.mem = s.mem ∧ ∃ e, t.ends = s.ends ++ [e] ∧ e.port = p.val ∧ e.index = i.toNat ∧ e.st = 1)
          ∧ ((∀ e ∈ s.ends, e.port ≠ p.val) → (∀ j < 4, blockedAt s masterPort p (a + j) = false) → t.ends = s.ends
            ∧ slice (memGet t a).toNat 35 34 = 1 ∧ ∀ b, b < a ∨ a + 3 < b → memGet t b = memGet s b)
          ∧ (i.toNat = txGet s p → txGet t p = (txGet s p + 1) % txSize s p % 256)
          ∧ (i.toNat ≠ txGet s p → txGet t p = txGet s p ∧ (portOf t p).cancelled = y.cancelled ++ [i.toNat])))
    ∧ (∀ sub : Fin 256, (mayStart u p = true → beaconDue u p = true → ∃ t ws, exec (.beaconSend p sub) s = .next t
        ∧ (portOf t p).sending = .beacon ∧ (portOf t p).tx = { words := ws, esi := confState u p == 1 } ∧ (portOf t p).bcnToday = true
        ∧ ws.length = 8 ∧ ws.getD 0 0 = word (u.day.n % 2 ^ 36) ∧ ws.getD 2 0 = word (launchOffset u p sub)
        ∧ ws.getD 5 0 = word (phaseStart u 1) ∧ ws.getD 6 0 = word (phaseStart u 4) ∧ ws.getD 7 0 = word (phaseStart u 5)
        ∧ reg t (zp p 0x31) = ws.getD 2 0 ∧ regsKept [zp p 0x31] u t ∧ t = { u with regs := t.regs, tk := t.tk, ports := t.ports })
      ∧ (mayStart u p = false ∨ beaconDue u p = false → exec (.beaconSend p sub) s = .next u))
    ∧ (isZilco s p = true → driverOn s p = true → listenOnly s p = false → cfgAct s p = false → bitOf s (zp p 0x30) 35 = true →
      s.day.run = true → 0 < phaseOf s (dayTick s) → y.bcnToday = false → ∃ t, exec (.beaconMissed p) s = .next t
        ∧ raised 0x424 p s t ∧ (portOf t p).bcnToday = true ∧ regsKeptF [] s t ∧ t.mem = s.mem)
    ∧ (y.bcnToday = true ∨ listenOnly s p = true ∨ cfgAct s p = true ∨ phaseOf s (dayTick s) = 0 → exec (.beaconMissed p) s = .next s)
    ∧ (echoNext s p = none → exec (.echoRequestSend p) s = .next s)
    ∧ (∀ k, echoNext s p = some k →
      (mayStart u p = true → echoDue u p = true → beaconDue u p = false → ∃ t, exec (.echoRequestSend p) s = .next t
        ∧ (portOf t p).sending = .echo k ∧ (portOf t p).echoToday = true ∧ (portOf t p).echo = some (k, Config.freeWord u.fresh)
        ∧ (portOf t p).tx = { id := k * 64 + 1, words := [Config.freeWord u.fresh, 0], esi := confState u p == 1 }
        ∧ t = { u with ports := t.ports, fresh := u.fresh + 1 })
      ∧ (mayStart u p = false ∨ echoDue u p = false ∨ beaconDue u p = true → exec (.echoRequestSend p) s = .next u))
    ∧ (y.echo = none → ∀ k e r m, exec (.echoReplyReceive p k e r m) s = .next s)
    ∧ (∀ j e' (k : Fin 32) e r m, y.echo = some (j, e') →
      (isZilco s p = true → silent s p = false → j = k.val → e = e' → r.toNat ≤ m * 64 → m * 64 ≤ r.toNat + 128000 →
        ∃ t, exec (.echoReplyReceive p k e r m) s = .next t
        ∧ (portOf t p).echo = none ∧ (portOf t p).delay = some (k.val, s.day.n) ∧ bitOf t (zp p (0x80 + k.val)) 35 = true
        ∧ getF t (zp p (0x80 + k.val)) 34 24 = 0 ∧ ((m * 64 - r.toNat) % 2 = 0 → getF t (zp p (0x80 + k.val)) 23 0 = (m * 64 - r.toNat) / 2)
        ∧ regsKept [zp p (0x80 + k.val)] s t ∧ t.mem = s.mem)
      ∧ (isZilco s p = false ∨ silent s p = true ∨ j ≠ k.val ∨ e ≠ e' ∨ m * 64 < r.toNat ∨ r.toNat + 128000 < m * 64 →
        ∃ t, exec (.echoReplyReceive p k e r m) s = .next t
        ∧ (portOf t p).echo = none ∧ (portOf t p).delay = y.delay ∧ raised 0x423 (p.val + j % 32 * 256) s t ∧ regsKeptF [] s t))
    ∧ (∀ k n, y.delay = some (k, n) →
      (mayStart u p = true → isZilco u p = true → beaconDue u p = false → echoDue u p = false → ∃ t ws,
        exec (.delayNoticeSend p) s = .next t ∧ (portOf t p).sending = .delay k
          ∧ (portOf t p).tx = { id := k * 64 + 2, words := ws, esi := confState u p == 1 } ∧ ws.length = 4
          ∧ ws.getD 0 0 = word (getF u (zp p (0x80 + k)) 23 0) ∧ ws.getD 1 0 = word (n % 2 ^ 36) ∧ (portOf t p).delay = none
          ∧ t = { u with ports := t.ports })
      ∧ (mayStart u p = false ∨ isZilco u p = false ∨ beaconDue u p = true ∨ echoDue u p = true →
        exec (.delayNoticeSend p) s = .next u))
    ∧ (y.delay = none → exec (.delayNoticeSend p) s = .next s)

/-- An error shows its class and moves TEC and REC by the row of R258; the counts give error-active, error-passive from 128
and bus-off at 256, unless the port is listen-only or in bus-off. Recovery clears the counts with 0x405. A dominant time-out
and a driver at its limit lead to bus-off, from which a recovery tries that driver again; a lost group supply takes its
eight ports out of service until it returns, and configuration is entered at the end of a frame or error sequence, which for
a frame being received is a free value, and left only with valid bit timing. A command whose condition does not hold leaves
the state as it was: the model's choice (log entry 8). -/
def Obligations.ErrorsConfinementAndConfiguration : Prop :=
  ∀ (s : State) (p : Fin 256) (x : Port), s.wf → x = portOf s p →
    (∀ c fast row dly, (onBus s p = false ∨ (c = 4 ∧ compensated s p = false) → exec (.errorDetected p c fast row dly) s = .next s)
      ∧ (onBus s p = true → c ≠ 4 ∨ compensated s p = true → ∃ t, exec (.errorDetected p c fast row dly) s = .next t
        ∧ (portOf t p).inError = true ∧ (∀ d, dly = some d → compensated s p = true → rowFails row = true ∨ getF s (zp p 4) 16 8 + 8 < 256 → getF t (zp p 3) 26 18 = d.toNat)
        ∧ (∀ j, j ≠ p.val → portOf t j = portOf s j)
        ∧ t.mst = s.mst ∧ t.time = s.time ∧ t.day = s.day
        ∧ (c ≠ 0 → getF t (zp p 5) 15 12 = c.val ∧ bitOf t (zp p 5) 11 = fast)
        ∧ (c = 0 → getF t (zp p 5) 15 12 = getF s (zp p 5) 15 12)
        ∧ (listenOnly s p = true ∨ 2 ≤ confState s p → reg t (zp p 4) = reg s (zp p 4))
        ∧ (∀ a b, listenOnly s p = false → confState s p < 2 →
          a = (if row = .transmitterFlag ∨ row = .bitInActiveFlagTx ∨ row = .longDominantTx then min (getF s (zp p 4) 16 8 + 8) 256
            else min (getF s (zp p 4) 16 8) 256) →
          b = min (getF s (zp p 4) 7 0 + if row = .receiverDetects then 1
            else if row = .dominantAfterFlag ∨ row = .bitInActiveFlagRx ∨ row = .longDominantRx then 8 else 0) 255 →
          row ≠ .ackPassiveQuiet → getF t (zp p 4) 16 8 = a ∧ getF t (zp p 4) 7 0 = b
            ∧ confState t p = if 256 ≤ a then (if bitOf s (zp p 0) 3 then 2 else 3) else if 128 ≤ a ∨ 128 ≤ b then 1 else 0)
        ∧ (∀ i, x.sending = .ring i → row = .transmitterFlag → getF s (zp p 4) 16 8 + 8 < 256 →
          x.att + 1 < slice x.w0 33 30 →
          (portOf t p).sending = .none ∧ (portOf t p).att = x.att + 1 ∧ (portOf t p).lastErr = c.val ∧ txGet t p = txGet s p
            ∧ t.mem = s.mem)))
    ∧ (∀ h, (confState s p = 3 → x.shortOff = false → x.trial = false ∨ h = true → ∃ t, exec (.busOffRecoveryComplete p h) s = .next t
        ∧ reg t (zp p 4) = 0 ∧ (portOf t p).trial = false ∧ (portOf t p).integrating = false
        ∧ (x.cfgPend = true → x.sending = .none → cfgAct t p = true)
        ∧ (x.cfgPend = false ∨ x.sending ≠ .none → raised 0x405 p s t ∧ regsKeptF [zp p 4] s t ∧ t.mem = s.mem))
      ∧ (confState s p ≠ 3 ∨ x.shortOff = true ∨ (x.trial = true ∧ h = false) → exec (.busOffRecoveryComplete p h) s = .next s))
    ∧ (cfgAct s p = true → exec (.integrationComplete p) s = .next s)
    ∧ (cfgAct s p = false → ∃ t, exec (.integrationComplete p) s = .next t ∧ (portOf t p).integrating = false
      ∧ (∀ j, j ≠ p.val → portOf t j = portOf s j) ∧ (x.cfgPend = true → x.sending = .none → cfgAct t p = true)
      ∧ (x.cfgPend = false ∨ x.sending ≠ .none → t = { s with ports := t.ports } ∧ portOf t p = { x with
          integrating := false, loPend := x.loPend && x.sending != .none, inError := x.inError && x.sending != .none }))
    ∧ (onBus s p = true → isCanFd s p = true → ∃ t, exec (.protocolException p) s = .next t ∧ (portOf t p).integrating = true
      ∧ raised 0x408 p s t ∧ bitOf t (zp p 5) 10 = true ∧ regsKeptF [zp p 5] s t ∧ t.mem = s.mem)
    ∧ (onBus s p = false ∨ isCanFd s p = false → exec (.protocolException p) s = .next s)
    ∧ (driverOn s p = false → exec (.dominantTimeout p) s = .next s ∧ exec (.driverCurrentLimit p) s = .next s)
    ∧ (driverOn s p = true → (∃ t, exec (.dominantTimeout p) s = .next t ∧ getF t (zp p 4) 16 8 = 256 ∧ bitOf t (zp p 5) 7 = true
        ∧ (∀ j, j ≠ p.val → portOf t j = portOf s j) ∧ t.mst = s.mst
        ∧ (2 ≤ confState s p → raised 0x407 p s t ∧ confState t p = confState s p ∧ t.mem = s.mem)
        ∧ (confState s p < 2 → confState t p = (if bitOf s (zp p 0) 3 then 2 else 3) ∧ bitOf t (zp p 5) 4 = true
          ∧ (portOf t p).sending = .none ∧ (posted s p = 0 → reg t midLastF = word 0x404 ∧ t.mem = s.mem)))
      ∧ ∃ t, exec (.driverCurrentLimit p) s = .next t ∧ bitOf t (zp p 5) 9 = true ∧ (portOf t p).sending = .none
        ∧ (∀ j, j ≠ p.val → portOf t j = portOf s j) ∧ t.mst = s.mst
        ∧ (bitOf s (zp p 0) 3 = true → confState t p = 2 ∧ (portOf t p).shortOff = true ∧ driverOn t p = false)
        ∧ (bitOf s (zp p 0) 3 = false → confState t p = 3 ∧ (portOf t p).shortOff = false ∧ (portOf t p).trial = true))
    ∧ (driverOn s p = true → exec (.driverDisable p) s = .next s)
    ∧ (driverOn s p = false → ∃ t, exec (.driverDisable p) s = .next t ∧ (portOf t p).sending = .none
      ∧ (∀ j, j ≠ p.val → portOf t j = portOf s j) ∧ t.mst = s.mst
      ∧ (x.sending ≠ .none → bitOf t (zp p 5) 5 = true ∧ (posted s p = 0 → raised 0x409 p s t ∧ t.mem = s.mem))
      ∧ (x.sending = .none → posted s p = 0 → portOf t p = { x with delay := none } ∧ t = { s with ports := t.ports }))
    ∧ (∀ g : Fin 32, (∃ t, exec (.groupSupplyFail g) s = .next t ∧ t.mst = s.mst
        ∧ (∀ j, j / 8 = g.val → (portOf t j).groupFail = true ∧ onBus t j = false
          ∧ ((portOf s j).groupFail = false → (portOf t j).sending = .none ∧ bitOf t (zp j 5) 8 = true))
        ∧ (∀ j, j / 8 ≠ g.val → portOf t j = portOf s j))
      ∧ ∃ t, exec (.groupSupplyReturn g) s = .next t ∧ t = { s with ports := t.ports }
        ∧ (∀ j, j / 8 = g.val → (portOf t j).groupFail = false
          ∧ ((portOf s j).groupFail = true → portOf t j = { portOf s j with groupFail := false, integrating := true }))
        ∧ (∀ j, j / 8 ≠ g.val ∨ (portOf s j).groupFail = false → portOf t j = portOf s j))
    ∧ (∃ t, exec (.cfgEnter p) s = .next t ∧ bitOf t (zp p 0) 5 = true ∧ (∀ j, j ≠ p.val → portOf t j = portOf s j)
      ∧ (cfgAct s p = true → regsKept [zp p 0] s t ∧ t = { s with regs := t.regs, tk := t.tk })
      ∧ (cfgAct s p = false → segmentBusy s p = false → cfgAct t p = true)
      ∧ (cfgAct s p = false → segmentBusy s p = true → cfgAct t p = false ∧ (portOf t p).cfgPend = true ∧ regsKept [zp p 0] s t
        ∧ t = { s with regs := t.regs, tk := t.tk, ports := t.ports, fresh := s.fresh + 1 }))
    ∧ (x.sending ≠ .none ∨ x.inError = true → segmentBusy s p = true)
    ∧ (x.sending = .none → x.inError = false → onBus s p = false → segmentBusy s p = false)
    ∧ (cfgAct s p = false → ∃ t, exec (.cfgLeave p) s = .next t ∧ bitOf t (zp p 0) 5 = false ∧ (portOf t p).cfgPend = false
      ∧ regsKept [zp p 0] s t ∧ t = { s with regs := t.regs, tk := t.tk, ports := t.ports })
    ∧ (cfgAct s p = true →
      (leaveOk (protoOf s p) (reg s (zp p 1)).toNat (reg s (zp p 2)).toNat = true → ∃ t, exec (.cfgLeave p) s = .next t
        ∧ bitOf t (zp p 0) 5 = false ∧ cfgAct t p = false ∧ (portOf t p).integrating = true ∧ regsKept [zp p 0] s t
        ∧ t = { s with regs := t.regs, tk := t.tk, ports := t.ports })
      ∧ (leaveOk (protoOf s p) (reg s (zp p 1)).toNat (reg s (zp p 2)).toNat = false → ∃ t, exec (.cfgLeave p) s = .next t
        ∧ bitOf t (zp p 0) 5 = true ∧ cfgAct t p = true ∧ raised 0x401 p s t ∧ regsKeptF [zp p 0] s t ∧ t = logged s t))
    ∧ (bitOf s (zp p 0) 0 = true → exec (.loreqSet p) s = .next s)
    ∧ (bitOf s (zp p 0) 0 = false → ∃ t, exec (.loreqSet p) s = .next t ∧ bitOf t (zp p 0) 0 = true ∧ (portOf t p).loPend = segmentBusy s p
      ∧ (segmentBusy s p = false → listenOnly t p = true) ∧ regsKept [zp p 0] s t
      ∧ t = { s with regs := t.regs, tk := t.tk, ports := t.ports, fresh := s.fresh + 1 })
    ∧ (∃ t, exec (.loreqClear p) s = .next t ∧ bitOf t (zp p 0) 0 = false ∧ listenOnly t p = !driverOn s p
      ∧ regsKept [zp p 0] s t ∧ t = { s with regs := t.regs, tk := t.tk, ports := t.ports })
    ∧ (confState s p = 2 → bitOf s (zp p 0) 3 = true → ∃ t, exec (.borec p) s = .next t ∧ confState t p = 3 ∧ regsKept [zp p 4] s t
      ∧ (portOf t p).shortOff = false ∧ (portOf t p).trial = (x.trial || x.shortOff) ∧ t = { s with regs := t.regs, tk := t.tk, ports := t.ports })
    ∧ (confState s p ≠ 2 ∨ bitOf s (zp p 0) 3 = false → exec (.borec p) s = .next s)

/-- A valid frame is counted and lowers REC; one of a station outside its slot counts as an intrusion with 0x420; the frame
joins the two places that await deposit or is lost with 0x411. A deposit that finds the queue full, when the tick's
acknowledgements are counted, drops the frame with 0x410; another writes the entry's four words and payload in later ticks,
word 0 last once its point is free, moves the pointer and queues the receive event with the ticks it waited. RXACK gives
entries back, with 0x415 beyond those held, and UNMUTE clears MUTED and INTR. A command whose condition does not hold leaves
the state as it was: the model's choice (log entry 8). -/
def Obligations.PortsReceive : Prop :=
  ∀ (s : State) (p : Fin 256) (x : Port), s.wf → x = portOf s p →
    (∀ f : RxFrame, (x.inError = true → x.sending = .none → exec (.frameValid p f) s = exec (.frameValid p f) (busIdle p s))
      ∧ (x.inError = false ∨ x.sending ≠ .none → onBus s p = false → exec (.frameValid p f) s = .next s)
      ∧ (x.inError = false ∨ x.sending ≠ .none → onBus s p = true → getF s (zp p 4) 16 8 < 256 → ∃ t, exec (.frameValid p f) s = .next t ∧ t.mst = s.mst ∧ t.day = s.day
          ∧ (∀ j, j ≠ p.val → portOf t j = portOf s j)
          ∧ (x.cfgPend = true → x.sending = .none → cfgAct t p = true)
          ∧ (x.cfgPend = false → t.mem = s.mem
          ∧ getF t (zp p 0x20) 35 0 = min (getF s (zp p 0x20) 35 0 + 1) (2 ^ 36 - 1)
          ∧ (f.self = false → listenOnly s p = false → confState s p < 2 → getF t (zp p 4) 7 0 =
            if getF s (zp p 4) 7 0 = 0 then 0 else if getF s (zp p 4) 7 0 ≤ 127 then getF s (zp p 4) 7 0 - 1 else 120)
          ∧ (f.self = true ∨ silent s p = true → reg t (zp p 4) = reg s (zp p 4))
          ∧ (intrudes s p f = true → bitOf t (zp p (0x60 + idStation f.id.toNat)) 8 = true
            ∧ getF t (zp p 0x29) 35 0 = min (getF s (zp p 0x29) 35 0 + 1) (2 ^ 36 - 1))
          ∧ (f.self = true → bitOf s (zp p 0x15) 18 = false → (portOf t p).awaiting = x.awaiting)
          ∧ (f.self = false ∨ bitOf s (zp p 0x15) 18 = true →
            (x.awaiting.length < 2 → (portOf t p).awaiting = x.awaiting ++ [
              { f := f, intr := intrudes s p f, tick := dayTickOfNs s f.refNs
                muted := isZilco s p && stationClass (idClass f.id.toNat) && bitOf s (zp p (0x60 + idStation f.id.toNat)) 11 }])
            ∧ (2 ≤ x.awaiting.length → (portOf t p).awaiting = x.awaiting ∧ reg t midLastF = word 0x411
              ∧ getF t (zp p 0x27) 35 0 = min (getF s (zp p 0x27) 35 0 + 1) (2 ^ 36 - 1)))
          ∧ (isZilco s p = true → silent s p = true → f.id = 0 → ∀ k : Fin 32,
            bitOf t (zp p (0x60 + k.val)) 11 = (f.words.getD 4 0).getLsbD k))))
    ∧ (x.awaiting = [] → ∀ d, exec (.frameDeposit p d) s = .next s)
    ∧ (∀ w ws, x.awaiting = w :: ws →
      (w.began.isSome = true → exec (.frameDeposit p .begin) s = .next s)
      ∧ (w.began = none → queueFull s p = true → exec (.frameDeposit p .begin) s
        = .next (modPort p (fun y => { y with awaiting := { w with full := true } :: ws }) s))
      ∧ (w.began = none → queueFull s p = false → ∃ t, exec (.frameDeposit p .begin) s = .next t
        ∧ (portOf t p).awaiting = { w with began := some s.now } :: ws ∧ (∀ j, j ≠ p.val → portOf t j = portOf s j)
        ∧ t = { s with ports := t.ports, owed := s.owed ++ owe masterPort p 0 (entryAddrs s p w.f) })
      ∧ (w.began = none ∨ (∃ b, w.began = some b ∧ s.now ≤ b) ∨ (∃ o ∈ s.owed, o.master = masterPort ∧ o.sub = p.val) →
        exec (.frameDeposit p .finish) s = .next s)
      ∧ (∀ a b n, w.began = some b → b < s.now → (∀ o ∈ s.owed, o.master = masterPort → o.sub ≠ p.val) → n = getF s (zp p 0x15) 17 9 →
          a = getF s (zp p 0x14) 31 0 + getF s (zp p 0x16) 7 0 * (4 + n) →
        (blockedAt s masterPort p a = true → ∃ t, exec (.frameDeposit p .finish) s = .next t ∧ t = { s with waiters := t.waiters })
        ∧ (blockedAt s masterPort p a = false →
          (∀ i < 4 + n, isShared (a + i) = true ∧ gate s masterPort false .write (word (a + i)) = none) →
          ∃ t, exec (.frameDeposit p .finish) s = .next t ∧ (portOf t p).awaiting = ws ∧ (portOf t p).seq = (x.seq + 1) % 4096
            ∧ memGet t a = rxWord0 x.seq w.f ∧ memGet t (a + 2) = rxWord2 (decide (n < (rxPayload w.f).length)) w
            ∧ memGet t (a + 1) = rxAge s w.d w.f ∧ memGet t (a + 3) = rxWord3 w.f
            ∧ (∀ i, i < n → i < (rxPayload w.f).length → memGet t (a + 4 + i) = (rxPayload w.f).getD i 0)
            ∧ (∀ b, b < a ∨ a + 4 + n ≤ b → memGet t b = memGet s b)
            ∧ (getF s (zp p 0x16) 16 8 < 511 → getF t (zp p 0x16) 16 8 = getF s (zp p 0x16) 16 8 + 1)
            ∧ getF t (zp p 0x16) 7 0 = (getF s (zp p 0x16) 7 0 + 1) % max (getF s (zp p 0x15) 8 0) 1 % 256
            ∧ delivers p (getF s (zp p 0x16) 7 0 + min w.d 4095 * 256) s t))
      ∧ (s.ports = [(p.val, x)] → x.posts = [] → quietTick { s with ports := [] } → ∃ t, exec .clockTick s = .next t
        ∧ (w.began = none → w.full = true → queueFull s p = true → (portOf t p).awaiting = ws ∧ t.mem = s.mem
          ∧ raised 0x410 (p.val + idStation w.f.id.toNat * 256) s t
          ∧ getF t (zp p 0x26) 35 0 = min (getF s (zp p 0x26) 35 0 + 1) (2 ^ 36 - 1))
        ∧ (w.began = none → w.full = true → queueFull s p = false → (portOf t p).awaiting = { w with began := some s.now } :: ws)
        ∧ (∀ b, w.began = some b → b < s.now → blockedAt s masterPort p (entryAddr s p) = true →
          (portOf t p).awaiting = { w with d := w.d + 1 } :: ws)
        ∧ (∀ b, w.began = some b → b < s.now → blockedAt s masterPort p (entryAddr s p) = false → (portOf t p).awaiting = ws))
      ∧ (queueFull s p = true ↔ getF s (zp p 0x15) 8 0 ≤ getF s (zp p 0x16) 16 8))
    ∧ (∀ c : BitVec 9, ∃ t, exec (.rxack p c) s = .next t
      ∧ getF t (zp p 0x16) 16 8 = getF s (zp p 0x16) 16 8 - c.toNat ∧ regsKeptF [zp p 0x16] s t ∧ t = logged s t
      ∧ (getF s (zp p 0x16) 16 8 < c.toNat → raised 0x415 p s t)
      ∧ (c.toNat ≤ getF s (zp p 0x16) 16 8 → regsKept [zp p 0x16] s t ∧ t.logQ = s.logQ))
    ∧ (∀ k : Fin 32, ∃ t, exec (.unmute p k) s = .next t ∧ getF t (zp p (0x60 + k.val)) 15 10 = 0
      ∧ getF t (zp p (0x60 + k.val)) 9 0 = getF s (zp p (0x60 + k.val)) 9 0
      ∧ getF t (zp p (0x60 + k.val)) 35 16 = getF s (zp p (0x60 + k.val)) 35 16
      ∧ regsKept [zp p (0x60 + k.val)] s t ∧ t = { s with regs := t.regs, tk := t.tk })
end

