-- ==== Sys2Proof/Laws/State.lean ====
section
/-! SUPPORT. One lemma per field of State and update: what each named update leaves and what it writes. -/

namespace Sys2Proof.Machine

section
variable (s : State) (a : Nat) (v : Word)
@[simp] theorem setReg_pending : (setReg s a v).pending = s.pending := rfl
@[simp] theorem setReg_now : (setReg s a v).now = s.now := rfl
@[simp] theorem setReg_fresh : (setReg s a v).fresh = s.fresh := rfl
@[simp] theorem setReg_out : (setReg s a v).out = s.out := rfl
@[simp] theorem setReg_mst : (setReg s a v).mst = s.mst := rfl
@[simp] theorem setReg_mlast : (setReg s a v).mlast = s.mlast := rfl
@[simp] theorem setReg_stopReq : (setReg s a v).stopReq = s.stopReq := rfl
@[simp] theorem setReg_stopActivate : (setReg s a v).stopActivate = s.stopActivate := rfl
@[simp] theorem setReg_armReq : (setReg s a v).armReq = s.armReq := rfl
@[simp] theorem setReg_regs : (setReg s a v).regs = tabSet (regReset a) s.regs a v := rfl
@[simp] theorem setReg_tk : (setReg s a v).tk = s.tk := rfl
@[simp] theorem setReg_waiters : (setReg s a v).waiters = s.waiters := rfl
@[simp] theorem setReg_owed : (setReg s a v).owed = s.owed := rfl
@[simp] theorem setReg_ends : (setReg s a v).ends = s.ends := rfl
@[simp] theorem setReg_latch : (setReg s a v).latch = s.latch := rfl
@[simp] theorem setReg_mem : (setReg s a v).mem = s.mem := rfl
@[simp] theorem setReg_chk : (setReg s a v).chk = s.chk := rfl
@[simp] theorem setReg_ts : (setReg s a v).ts = s.ts := rfl
@[simp] theorem setReg_tsRepairs : (setReg s a v).tsRepairs = s.tsRepairs := rfl
@[simp] theorem setReg_tsSplit : (setReg s a v).tsSplit = s.tsSplit := rfl
@[simp] theorem setReg_priv : (setReg s a v).priv = s.priv := rfl
@[simp] theorem setReg_eng : (setReg s a v).eng = s.eng := rfl
@[simp] theorem setReg_sup : (setReg s a v).sup = s.sup := rfl
@[simp] theorem setReg_pairs : (setReg s a v).pairs = s.pairs := rfl
@[simp] theorem setReg_reqs : (setReg s a v).reqs = s.reqs := rfl
@[simp] theorem setReg_served : (setReg s a v).served = s.served := rfl
@[simp] theorem setReg_mirrors : (setReg s a v).mirrors = s.mirrors := rfl
@[simp] theorem setReg_bindings : (setReg s a v).bindings = s.bindings := rfl
@[simp] theorem setReg_arrivals : (setReg s a v).arrivals = s.arrivals := rfl
@[simp] theorem setReg_late : (setReg s a v).late = s.late := rfl
@[simp] theorem setReg_ovr : (setReg s a v).ovr = s.ovr := rfl
@[simp] theorem setReg_mism : (setReg s a v).mism = s.mism := rfl
@[simp] theorem setReg_viol : (setReg s a v).viol = s.viol := rfl
@[simp] theorem setReg_violSeq : (setReg s a v).violSeq = s.violSeq := rfl
@[simp] theorem setReg_violMasters : (setReg s a v).violMasters = s.violMasters := rfl
@[simp] theorem setReg_speeds : (setReg s a v).speeds = s.speeds := rfl
@[simp] theorem setReg_dayMin : (setReg s a v).dayMin = s.dayMin := rfl
@[simp] theorem setReg_dayMinEng : (setReg s a v).dayMinEng = s.dayMinEng := rfl
@[simp] theorem setReg_day : (setReg s a v).day = s.day := rfl
@[simp] theorem setReg_ports : (setReg s a v).ports = s.ports := rfl
@[simp] theorem setReg_time : (setReg s a v).time = s.time := rfl
@[simp] theorem setReg_link : (setReg s a v).link = s.link := rfl
@[simp] theorem setReg_nwt : (setReg s a v).nwt = s.nwt := rfl
@[simp] theorem setReg_saf : (setReg s a v).saf = s.saf := rfl
@[simp] theorem setReg_lio : (setReg s a v).lio = s.lio := rfl
@[simp] theorem setReg_fpd : (setReg s a v).fpd = s.fpd := rfl
@[simp] theorem setReg_pwr : (setReg s a v).pwr = s.pwr := rfl
@[simp] theorem setReg_sig : (setReg s a v).sig = s.sig := rfl
@[simp] theorem setReg_c37 : (setReg s a v).c37 = s.c37 := rfl
@[simp] theorem setReg_boot : (setReg s a v).boot = s.boot := rfl
@[simp] theorem setReg_net : (setReg s a v).net = s.net := rfl
@[simp] theorem setReg_sess : (setReg s a v).sess = s.sess := rfl
@[simp] theorem setReg_hostQ : (setReg s a v).hostQ = s.hostQ := rfl
@[simp] theorem setReg_vault : (setReg s a v).vault = s.vault := rfl
@[simp] theorem setReg_rng : (setReg s a v).rng = s.rng := rfl
@[simp] theorem setReg_grant : (setReg s a v).grant = s.grant := rfl
@[simp] theorem setReg_lastFSec : (setReg s a v).lastFSec = s.lastFSec := rfl
@[simp] theorem setReg_logQ : (setReg s a v).logQ = s.logQ := rfl
@[simp] theorem setReg_log : (setReg s a v).log = s.log := rfl
@[simp] theorem setReg_telem : (setReg s a v).telem = s.telem := rfl
@[simp] theorem setReg_trace : (setReg s a v).trace = s.trace := rfl
end

section
variable (s : State) (a hi lo v : Nat)
@[simp] theorem setF_pending : (setF s a hi lo v).pending = s.pending := rfl
@[simp] theorem setF_now : (setF s a hi lo v).now = s.now := rfl
@[simp] theorem setF_fresh : (setF s a hi lo v).fresh = s.fresh := rfl
@[simp] theorem setF_out : (setF s a hi lo v).out = s.out := rfl
@[simp] theorem setF_mst : (setF s a hi lo v).mst = s.mst := rfl
@[simp] theorem setF_mlast : (setF s a hi lo v).mlast = s.mlast := rfl
@[simp] theorem setF_stopReq : (setF s a hi lo v).stopReq = s.stopReq := rfl
@[simp] theorem setF_stopActivate : (setF s a hi lo v).stopActivate = s.stopActivate := rfl
@[simp] theorem setF_armReq : (setF s a hi lo v).armReq = s.armReq := rfl
@[simp] theorem setF_tk : (setF s a hi lo v).tk = s.tk := rfl
@[simp] theorem setF_waiters : (setF s a hi lo v).waiters = s.waiters := rfl
@[simp] theorem setF_owed : (setF s a hi lo v).owed = s.owed := rfl
@[simp] theorem setF_ends : (setF s a hi lo v).ends = s.ends := rfl
@[simp] theorem setF_latch : (setF s a hi lo v).latch = s.latch := rfl
@[simp] theorem setF_mem : (setF s a hi lo v).mem = s.mem := rfl
@[simp] theorem setF_chk : (setF s a hi lo v).chk = s.chk := rfl
@[simp] theorem setF_ts : (setF s a hi lo v).ts = s.ts := rfl
@[simp] theorem setF_tsRepairs : (setF s a hi lo v).tsRepairs = s.tsRepairs := rfl
@[simp] theorem setF_tsSplit : (setF s a hi lo v).tsSplit = s.tsSplit := rfl
@[simp] theorem setF_priv : (setF s a hi lo v).priv = s.priv := rfl
@[simp] theorem setF_eng : (setF s a hi lo v).eng = s.eng := rfl
@[simp] theorem setF_sup : (setF s a hi lo v).sup = s.sup := rfl
@[simp] theorem setF_pairs : (setF s a hi lo v).pairs = s.pairs := rfl
@[simp] theorem setF_reqs : (setF s a hi lo v).reqs = s.reqs := rfl
@[simp] theorem setF_served : (setF s a hi lo v).served = s.served := rfl
@[simp] theorem setF_mirrors : (setF s a hi lo v).mirrors = s.mirrors := rfl
@[simp] theorem setF_bindings : (setF s a hi lo v).bindings = s.bindings := rfl
@[simp] theorem setF_arrivals : (setF s a hi lo v).arrivals = s.arrivals := rfl
@[simp] theorem setF_late : (setF s a hi lo v).late = s.late := rfl
@[simp] theorem setF_ovr : (setF s a hi lo v).ovr = s.ovr := rfl
@[simp] theorem setF_mism : (setF s a hi lo v).mism = s.mism := rfl
@[simp] theorem setF_viol : (setF s a hi lo v).viol = s.viol := rfl
@[simp] theorem setF_violSeq : (setF s a hi lo v).violSeq = s.violSeq := rfl
@[simp] theorem setF_violMasters : (setF s a hi lo v).violMasters = s.violMasters := rfl
@[simp] theorem setF_speeds : (setF s a hi lo v).speeds = s.speeds := rfl
@[simp] theorem setF_dayMin : (setF s a hi lo v).dayMin = s.dayMin := rfl
@[simp] theorem setF_dayMinEng : (setF s a hi lo v).dayMinEng = s.dayMinEng := rfl
@[simp] theorem setF_day : (setF s a hi lo v).day = s.day := rfl
@[simp] theorem setF_ports : (setF s a hi lo v).ports = s.ports := rfl
@[simp] theorem setF_time : (setF s a hi lo v).time = s.time := rfl
@[simp] theorem setF_link : (setF s a hi lo v).link = s.link := rfl
@[simp] theorem setF_nwt : (setF s a hi lo v).nwt = s.nwt := rfl
@[simp] theorem setF_saf : (setF s a hi lo v).saf = s.saf := rfl
@[simp] theorem setF_lio : (setF s a hi lo v).lio = s.lio := rfl
@[simp] theorem setF_fpd : (setF s a hi lo v).fpd = s.fpd := rfl
@[simp] theorem setF_pwr : (setF s a hi lo v).pwr = s.pwr := rfl
@[simp] theorem setF_sig : (setF s a hi lo v).sig = s.sig := rfl
@[simp] theorem setF_c37 : (setF s a hi lo v).c37 = s.c37 := rfl
@[simp] theorem setF_boot : (setF s a hi lo v).boot = s.boot := rfl
@[simp] theorem setF_net : (setF s a hi lo v).net = s.net := rfl
@[simp] theorem setF_sess : (setF s a hi lo v).sess = s.sess := rfl
@[simp] theorem setF_hostQ : (setF s a hi lo v).hostQ = s.hostQ := rfl
@[simp] theorem setF_vault : (setF s a hi lo v).vault = s.vault := rfl
@[simp] theorem setF_rng : (setF s a hi lo v).rng = s.rng := rfl
@[simp] theorem setF_grant : (setF s a hi lo v).grant = s.grant := rfl
@[simp] theorem setF_lastFSec : (setF s a hi lo v).lastFSec = s.lastFSec := rfl
@[simp] theorem setF_logQ : (setF s a hi lo v).logQ = s.logQ := rfl
@[simp] theorem setF_log : (setF s a hi lo v).log = s.log := rfl
@[simp] theorem setF_telem : (setF s a hi lo v).telem = s.telem := rfl
@[simp] theorem setF_trace : (setF s a hi lo v).trace = s.trace := rfl
end

section
variable (s : State) (a b : Nat) (v : Bool)
@[simp] theorem setBit_pending : (setBit s a b v).pending = s.pending := rfl
@[simp] theorem setBit_now : (setBit s a b v).now = s.now := rfl
@[simp] theorem setBit_fresh : (setBit s a b v).fresh = s.fresh := rfl
@[simp] theorem setBit_out : (setBit s a b v).out = s.out := rfl
@[simp] theorem setBit_mst : (setBit s a b v).mst = s.mst := rfl
@[simp] theorem setBit_mlast : (setBit s a b v).mlast = s.mlast := rfl
@[simp] theorem setBit_stopReq : (setBit s a b v).stopReq = s.stopReq := rfl
@[simp] theorem setBit_stopActivate : (setBit s a b v).stopActivate = s.stopActivate := rfl
@[simp] theorem setBit_armReq : (setBit s a b v).armReq = s.armReq := rfl
@[simp] theorem setBit_waiters : (setBit s a b v).waiters = s.waiters := rfl
@[simp] theorem setBit_owed : (setBit s a b v).owed = s.owed := rfl
@[simp] theorem setBit_ends : (setBit s a b v).ends = s.ends := rfl
@[simp] theorem setBit_latch : (setBit s a b v).latch = s.latch := rfl
@[simp] theorem setBit_mem : (setBit s a b v).mem = s.mem := rfl
@[simp] theorem setBit_chk : (setBit s a b v).chk = s.chk := rfl
@[simp] theorem setBit_ts : (setBit s a b v).ts = s.ts := rfl
@[simp] theorem setBit_tsRepairs : (setBit s a b v).tsRepairs = s.tsRepairs := rfl
@[simp] theorem setBit_tsSplit : (setBit s a b v).tsSplit = s.tsSplit := rfl
@[simp] theorem setBit_priv : (setBit s a b v).priv = s.priv := rfl
@[simp] theorem setBit_eng : (setBit s a b v).eng = s.eng := rfl
@[simp] theorem setBit_sup : (setBit s a b v).sup = s.sup := rfl
@[simp] theorem setBit_pairs : (setBit s a b v).pairs = s.pairs := rfl
@[simp] theorem setBit_reqs : (setBit s a b v).reqs = s.reqs := rfl
@[simp] theorem setBit_served : (setBit s a b v).served = s.served := rfl
@[simp] theorem setBit_mirrors : (setBit s a b v).mirrors = s.mirrors := rfl
@[simp] theorem setBit_bindings : (setBit s a b v).bindings = s.bindings := rfl
@[simp] theorem setBit_arrivals : (setBit s a b v).arrivals = s.arrivals := rfl
@[simp] theorem setBit_late : (setBit s a b v).late = s.late := rfl
@[simp] theorem setBit_ovr : (setBit s a b v).ovr = s.ovr := rfl
@[simp] theorem setBit_mism : (setBit s a b v).mism = s.mism := rfl
@[simp] theorem setBit_viol : (setBit s a b v).viol = s.viol := rfl
@[simp] theorem setBit_violSeq : (setBit s a b v).violSeq = s.violSeq := rfl
@[simp] theorem setBit_violMasters : (setBit s a b v).violMasters = s.violMasters := rfl
@[simp] theorem setBit_speeds : (setBit s a b v).speeds = s.speeds := rfl
@[simp] theorem setBit_dayMin : (setBit s a b v).dayMin = s.dayMin := rfl
@[simp] theorem setBit_dayMinEng : (setBit s a b v).dayMinEng = s.dayMinEng := rfl
@[simp] theorem setBit_day : (setBit s a b v).day = s.day := rfl
@[simp] theorem setBit_ports : (setBit s a b v).ports = s.ports := rfl
@[simp] theorem setBit_time : (setBit s a b v).time = s.time := rfl
@[simp] theorem setBit_link : (setBit s a b v).link = s.link := rfl
@[simp] theorem setBit_nwt : (setBit s a b v).nwt = s.nwt := rfl
@[simp] theorem setBit_saf : (setBit s a b v).saf = s.saf := rfl
@[simp] theorem setBit_lio : (setBit s a b v).lio = s.lio := rfl
@[simp] theorem setBit_fpd : (setBit s a b v).fpd = s.fpd := rfl
@[simp] theorem setBit_pwr : (setBit s a b v).pwr = s.pwr := rfl
@[simp] theorem setBit_sig : (setBit s a b v).sig = s.sig := rfl
@[simp] theorem setBit_c37 : (setBit s a b v).c37 = s.c37 := rfl
@[simp] theorem setBit_boot : (setBit s a b v).boot = s.boot := rfl
@[simp] theorem setBit_net : (setBit s a b v).net = s.net := rfl
@[simp] theorem setBit_sess : (setBit s a b v).sess = s.sess := rfl
@[simp] theorem setBit_hostQ : (setBit s a b v).hostQ = s.hostQ := rfl
@[simp] theorem setBit_vault : (setBit s a b v).vault = s.vault := rfl
@[simp] theorem setBit_rng : (setBit s a b v).rng = s.rng := rfl
@[simp] theorem setBit_grant : (setBit s a b v).grant = s.grant := rfl
@[simp] theorem setBit_lastFSec : (setBit s a b v).lastFSec = s.lastFSec := rfl
@[simp] theorem setBit_logQ : (setBit s a b v).logQ = s.logQ := rfl
@[simp] theorem setBit_log : (setBit s a b v).log = s.log := rfl
@[simp] theorem setBit_telem : (setBit s a b v).telem = s.telem := rfl
@[simp] theorem setBit_trace : (setBit s a b v).trace = s.trace := rfl
end

section
variable (s : State) (a hi lo n : Nat)
@[simp] theorem addSat_pending : (addSat s a hi lo n).pending = s.pending := rfl
@[simp] theorem addSat_now : (addSat s a hi lo n).now = s.now := rfl
@[simp] theorem addSat_fresh : (addSat s a hi lo n).fresh = s.fresh := rfl
@[simp] theorem addSat_out : (addSat s a hi lo n).out = s.out := rfl
@[simp] theorem addSat_mst : (addSat s a hi lo n).mst = s.mst := rfl
@[simp] theorem addSat_mlast : (addSat s a hi lo n).mlast = s.mlast := rfl
@[simp] theorem addSat_stopReq : (addSat s a hi lo n).stopReq = s.stopReq := rfl
@[simp] theorem addSat_stopActivate : (addSat s a hi lo n).stopActivate = s.stopActivate := rfl
@[simp] theorem addSat_armReq : (addSat s a hi lo n).armReq = s.armReq := rfl
@[simp] theorem addSat_waiters : (addSat s a hi lo n).waiters = s.waiters := rfl
@[simp] theorem addSat_owed : (addSat s a hi lo n).owed = s.owed := rfl
@[simp] theorem addSat_ends : (addSat s a hi lo n).ends = s.ends := rfl
@[simp] theorem addSat_latch : (addSat s a hi lo n).latch = s.latch := rfl
@[simp] theorem addSat_mem : (addSat s a hi lo n).mem = s.mem := rfl
@[simp] theorem addSat_chk : (addSat s a hi lo n).chk = s.chk := rfl
@[simp] theorem addSat_ts : (addSat s a hi lo n).ts = s.ts := rfl
@[simp] theorem addSat_tsRepairs : (addSat s a hi lo n).tsRepairs = s.tsRepairs := rfl
@[simp] theorem addSat_tsSplit : (addSat s a hi lo n).tsSplit = s.tsSplit := rfl
@[simp] theorem addSat_priv : (addSat s a hi lo n).priv = s.priv := rfl
@[simp] theorem addSat_eng : (addSat s a hi lo n).eng = s.eng := rfl
@[simp] theorem addSat_sup : (addSat s a hi lo n).sup = s.sup := rfl
@[simp] theorem addSat_pairs : (addSat s a hi lo n).pairs = s.pairs := rfl
@[simp] theorem addSat_reqs : (addSat s a hi lo n).reqs = s.reqs := rfl
@[simp] theorem addSat_served : (addSat s a hi lo n).served = s.served := rfl
@[simp] theorem addSat_mirrors : (addSat s a hi lo n).mirrors = s.mirrors := rfl
@[simp] theorem addSat_bindings : (addSat s a hi lo n).bindings = s.bindings := rfl
@[simp] theorem addSat_arrivals : (addSat s a hi lo n).arrivals = s.arrivals := rfl
@[simp] theorem addSat_late : (addSat s a hi lo n).late = s.late := rfl
@[simp] theorem addSat_ovr : (addSat s a hi lo n).ovr = s.ovr := rfl
@[simp] theorem addSat_mism : (addSat s a hi lo n).mism = s.mism := rfl
@[simp] theorem addSat_viol : (addSat s a hi lo n).viol = s.viol := rfl
@[simp] theorem addSat_violSeq : (addSat s a hi lo n).violSeq = s.violSeq := rfl
@[simp] theorem addSat_violMasters : (addSat s a hi lo n).violMasters = s.violMasters := rfl
@[simp] theorem addSat_speeds : (addSat s a hi lo n).speeds = s.speeds := rfl
@[simp] theorem addSat_dayMin : (addSat s a hi lo n).dayMin = s.dayMin := rfl
@[simp] theorem addSat_dayMinEng : (addSat s a hi lo n).dayMinEng = s.dayMinEng := rfl
@[simp] theorem addSat_day : (addSat s a hi lo n).day = s.day := rfl
@[simp] theorem addSat_ports : (addSat s a hi lo n).ports = s.ports := rfl
@[simp] theorem addSat_time : (addSat s a hi lo n).time = s.time := rfl
@[simp] theorem addSat_link : (addSat s a hi lo n).link = s.link := rfl
@[simp] theorem addSat_nwt : (addSat s a hi lo n).nwt = s.nwt := rfl
@[simp] theorem addSat_saf : (addSat s a hi lo n).saf = s.saf := rfl
@[simp] theorem addSat_lio : (addSat s a hi lo n).lio = s.lio := rfl
@[simp] theorem addSat_fpd : (addSat s a hi lo n).fpd = s.fpd := rfl
@[simp] theorem addSat_pwr : (addSat s a hi lo n).pwr = s.pwr := rfl
@[simp] theorem addSat_sig : (addSat s a hi lo n).sig = s.sig := rfl
@[simp] theorem addSat_c37 : (addSat s a hi lo n).c37 = s.c37 := rfl
@[simp] theorem addSat_boot : (addSat s a hi lo n).boot = s.boot := rfl
@[simp] theorem addSat_net : (addSat s a hi lo n).net = s.net := rfl
@[simp] theorem addSat_sess : (addSat s a hi lo n).sess = s.sess := rfl
@[simp] theorem addSat_hostQ : (addSat s a hi lo n).hostQ = s.hostQ := rfl
@[simp] theorem addSat_vault : (addSat s a hi lo n).vault = s.vault := rfl
@[simp] theorem addSat_rng : (addSat s a hi lo n).rng = s.rng := rfl
@[simp] theorem addSat_grant : (addSat s a hi lo n).grant = s.grant := rfl
@[simp] theorem addSat_lastFSec : (addSat s a hi lo n).lastFSec = s.lastFSec := rfl
@[simp] theorem addSat_logQ : (addSat s a hi lo n).logQ = s.logQ := rfl
@[simp] theorem addSat_log : (addSat s a hi lo n).log = s.log := rfl
@[simp] theorem addSat_telem : (addSat s a hi lo n).telem = s.telem := rfl
@[simp] theorem addSat_trace : (addSat s a hi lo n).trace = s.trace := rfl
end

section
variable (s : State)
@[simp] theorem bump_pending : (bump s).pending = s.pending := rfl
@[simp] theorem bump_now : (bump s).now = s.now := rfl
@[simp] theorem bump_fresh : (bump s).fresh = s.fresh + 1 := rfl
@[simp] theorem bump_out : (bump s).out = s.out := rfl
@[simp] theorem bump_mst : (bump s).mst = s.mst := rfl
@[simp] theorem bump_mlast : (bump s).mlast = s.mlast := rfl
@[simp] theorem bump_stopReq : (bump s).stopReq = s.stopReq := rfl
@[simp] theorem bump_stopActivate : (bump s).stopActivate = s.stopActivate := rfl
@[simp] theorem bump_armReq : (bump s).armReq = s.armReq := rfl
@[simp] theorem bump_regs : (bump s).regs = s.regs := rfl
@[simp] theorem bump_tk : (bump s).tk = s.tk := rfl
@[simp] theorem bump_waiters : (bump s).waiters = s.waiters := rfl
@[simp] theorem bump_owed : (bump s).owed = s.owed := rfl
@[simp] theorem bump_ends : (bump s).ends = s.ends := rfl
@[simp] theorem bump_latch : (bump s).latch = s.latch := rfl
@[simp] theorem bump_mem : (bump s).mem = s.mem := rfl
@[simp] theorem bump_chk : (bump s).chk = s.chk := rfl
@[simp] theorem bump_ts : (bump s).ts = s.ts := rfl
@[simp] theorem bump_tsRepairs : (bump s).tsRepairs = s.tsRepairs := rfl
@[simp] theorem bump_tsSplit : (bump s).tsSplit = s.tsSplit := rfl
@[simp] theorem bump_priv : (bump s).priv = s.priv := rfl
@[simp] theorem bump_eng : (bump s).eng = s.eng := rfl
@[simp] theorem bump_sup : (bump s).sup = s.sup := rfl
@[simp] theorem bump_pairs : (bump s).pairs = s.pairs := rfl
@[simp] theorem bump_reqs : (bump s).reqs = s.reqs := rfl
@[simp] theorem bump_served : (bump s).served = s.served := rfl
@[simp] theorem bump_mirrors : (bump s).mirrors = s.mirrors := rfl
@[simp] theorem bump_bindings : (bump s).bindings = s.bindings := rfl
@[simp] theorem bump_arrivals : (bump s).arrivals = s.arrivals := rfl
@[simp] theorem bump_late : (bump s).late = s.late := rfl
@[simp] theorem bump_ovr : (bump s).ovr = s.ovr := rfl
@[simp] theorem bump_mism : (bump s).mism = s.mism := rfl
@[simp] theorem bump_viol : (bump s).viol = s.viol := rfl
@[simp] theorem bump_violSeq : (bump s).violSeq = s.violSeq := rfl
@[simp] theorem bump_violMasters : (bump s).violMasters = s.violMasters := rfl
@[simp] theorem bump_speeds : (bump s).speeds = s.speeds := rfl
@[simp] theorem bump_dayMin : (bump s).dayMin = s.dayMin := rfl
@[simp] theorem bump_dayMinEng : (bump s).dayMinEng = s.dayMinEng := rfl
@[simp] theorem bump_day : (bump s).day = s.day := rfl
@[simp] theorem bump_ports : (bump s).ports = s.ports := rfl
@[simp] theorem bump_time : (bump s).time = s.time := rfl
@[simp] theorem bump_link : (bump s).link = s.link := rfl
@[simp] theorem bump_nwt : (bump s).nwt = s.nwt := rfl
@[simp] theorem bump_saf : (bump s).saf = s.saf := rfl
@[simp] theorem bump_lio : (bump s).lio = s.lio := rfl
@[simp] theorem bump_fpd : (bump s).fpd = s.fpd := rfl
@[simp] theorem bump_pwr : (bump s).pwr = s.pwr := rfl
@[simp] theorem bump_sig : (bump s).sig = s.sig := rfl
@[simp] theorem bump_c37 : (bump s).c37 = s.c37 := rfl
@[simp] theorem bump_boot : (bump s).boot = s.boot := rfl
@[simp] theorem bump_net : (bump s).net = s.net := rfl
@[simp] theorem bump_sess : (bump s).sess = s.sess := rfl
@[simp] theorem bump_hostQ : (bump s).hostQ = s.hostQ := rfl
@[simp] theorem bump_vault : (bump s).vault = s.vault := rfl
@[simp] theorem bump_rng : (bump s).rng = s.rng := rfl
@[simp] theorem bump_grant : (bump s).grant = s.grant := rfl
@[simp] theorem bump_lastFSec : (bump s).lastFSec = s.lastFSec := rfl
@[simp] theorem bump_logQ : (bump s).logQ = s.logQ := rfl
@[simp] theorem bump_log : (bump s).log = s.log := rfl
@[simp] theorem bump_telem : (bump s).telem = s.telem := rfl
@[simp] theorem bump_trace : (bump s).trace = s.trace := rfl
end

section
variable (o : Out) (s : State)
@[simp] theorem emit_pending : (emit o s).pending = s.pending := rfl
@[simp] theorem emit_now : (emit o s).now = s.now := rfl
@[simp] theorem emit_fresh : (emit o s).fresh = s.fresh := rfl
@[simp] theorem emit_out : (emit o s).out = s.out ++ [o] := rfl
@[simp] theorem emit_mst : (emit o s).mst = s.mst := rfl
@[simp] theorem emit_mlast : (emit o s).mlast = s.mlast := rfl
@[simp] theorem emit_stopReq : (emit o s).stopReq = s.stopReq := rfl
@[simp] theorem emit_stopActivate : (emit o s).stopActivate = s.stopActivate := rfl
@[simp] theorem emit_armReq : (emit o s).armReq = s.armReq := rfl
@[simp] theorem emit_regs : (emit o s).regs = s.regs := rfl
@[simp] theorem emit_tk : (emit o s).tk = s.tk := rfl
@[simp] theorem emit_waiters : (emit o s).waiters = s.waiters := rfl
@[simp] theorem emit_owed : (emit o s).owed = s.owed := rfl
@[simp] theorem emit_ends : (emit o s).ends = s.ends := rfl
@[simp] theorem emit_latch : (emit o s).latch = s.latch := rfl
@[simp] theorem emit_mem : (emit o s).mem = s.mem := rfl
@[simp] theorem emit_chk : (emit o s).chk = s.chk := rfl
@[simp] theorem emit_ts : (emit o s).ts = s.ts := rfl
@[simp] theorem emit_tsRepairs : (emit o s).tsRepairs = s.tsRepairs := rfl
@[simp] theorem emit_tsSplit : (emit o s).tsSplit = s.tsSplit := rfl
@[simp] theorem emit_priv : (emit o s).priv = s.priv := rfl
@[simp] theorem emit_eng : (emit o s).eng = s.eng := rfl
@[simp] theorem emit_sup : (emit o s).sup = s.sup := rfl
@[simp] theorem emit_pairs : (emit o s).pairs = s.pairs := rfl
@[simp] theorem emit_reqs : (emit o s).reqs = s.reqs := rfl
@[simp] theorem emit_served : (emit o s).served = s.served := rfl
@[simp] theorem emit_mirrors : (emit o s).mirrors = s.mirrors := rfl
@[simp] theorem emit_bindings : (emit o s).bindings = s.bindings := rfl
@[simp] theorem emit_arrivals : (emit o s).arrivals = s.arrivals := rfl
@[simp] theorem emit_late : (emit o s).late = s.late := rfl
@[simp] theorem emit_ovr : (emit o s).ovr = s.ovr := rfl
@[simp] theorem emit_mism : (emit o s).mism = s.mism := rfl
@[simp] theorem emit_viol : (emit o s).viol = s.viol := rfl
@[simp] theorem emit_violSeq : (emit o s).violSeq = s.violSeq := rfl
@[simp] theorem emit_violMasters : (emit o s).violMasters = s.violMasters := rfl
@[simp] theorem emit_speeds : (emit o s).speeds = s.speeds := rfl
@[simp] theorem emit_dayMin : (emit o s).dayMin = s.dayMin := rfl
@[simp] theorem emit_dayMinEng : (emit o s).dayMinEng = s.dayMinEng := rfl
@[simp] theorem emit_day : (emit o s).day = s.day := rfl
@[simp] theorem emit_ports : (emit o s).ports = s.ports := rfl
@[simp] theorem emit_time : (emit o s).time = s.time := rfl
@[simp] theorem emit_link : (emit o s).link = s.link := rfl
@[simp] theorem emit_nwt : (emit o s).nwt = s.nwt := rfl
@[simp] theorem emit_saf : (emit o s).saf = s.saf := rfl
@[simp] theorem emit_lio : (emit o s).lio = s.lio := rfl
@[simp] theorem emit_fpd : (emit o s).fpd = s.fpd := rfl
@[simp] theorem emit_pwr : (emit o s).pwr = s.pwr := rfl
@[simp] theorem emit_sig : (emit o s).sig = s.sig := rfl
@[simp] theorem emit_c37 : (emit o s).c37 = s.c37 := rfl
@[simp] theorem emit_boot : (emit o s).boot = s.boot := rfl
@[simp] theorem emit_net : (emit o s).net = s.net := rfl
@[simp] theorem emit_sess : (emit o s).sess = s.sess := rfl
@[simp] theorem emit_hostQ : (emit o s).hostQ = s.hostQ := rfl
@[simp] theorem emit_vault : (emit o s).vault = s.vault := rfl
@[simp] theorem emit_rng : (emit o s).rng = s.rng := rfl
@[simp] theorem emit_grant : (emit o s).grant = s.grant := rfl
@[simp] theorem emit_lastFSec : (emit o s).lastFSec = s.lastFSec := rfl
@[simp] theorem emit_logQ : (emit o s).logQ = s.logQ := rfl
@[simp] theorem emit_log : (emit o s).log = s.log := rfl
@[simp] theorem emit_telem : (emit o s).telem = s.telem := rfl
@[simp] theorem emit_trace : (emit o s).trace = s.trace := rfl
end

section
variable (s : State) (e : Nat) (x : Engine)
@[simp] theorem setEngine_pending : (setEngine s e x).pending = s.pending := rfl
@[simp] theorem setEngine_now : (setEngine s e x).now = s.now := rfl
@[simp] theorem setEngine_fresh : (setEngine s e x).fresh = s.fresh := rfl
@[simp] theorem setEngine_out : (setEngine s e x).out = s.out := rfl
@[simp] theorem setEngine_mst : (setEngine s e x).mst = s.mst := rfl
@[simp] theorem setEngine_mlast : (setEngine s e x).mlast = s.mlast := rfl
@[simp] theorem setEngine_stopReq : (setEngine s e x).stopReq = s.stopReq := rfl
@[simp] theorem setEngine_stopActivate : (setEngine s e x).stopActivate = s.stopActivate := rfl
@[simp] theorem setEngine_armReq : (setEngine s e x).armReq = s.armReq := rfl
@[simp] theorem setEngine_regs : (setEngine s e x).regs = s.regs := rfl
@[simp] theorem setEngine_tk : (setEngine s e x).tk = s.tk := rfl
@[simp] theorem setEngine_waiters : (setEngine s e x).waiters = s.waiters := rfl
@[simp] theorem setEngine_owed : (setEngine s e x).owed = s.owed := rfl
@[simp] theorem setEngine_ends : (setEngine s e x).ends = s.ends := rfl
@[simp] theorem setEngine_latch : (setEngine s e x).latch = s.latch := rfl
@[simp] theorem setEngine_mem : (setEngine s e x).mem = s.mem := rfl
@[simp] theorem setEngine_chk : (setEngine s e x).chk = s.chk := rfl
@[simp] theorem setEngine_ts : (setEngine s e x).ts = s.ts := rfl
@[simp] theorem setEngine_tsRepairs : (setEngine s e x).tsRepairs = s.tsRepairs := rfl
@[simp] theorem setEngine_tsSplit : (setEngine s e x).tsSplit = s.tsSplit := rfl
@[simp] theorem setEngine_priv : (setEngine s e x).priv = s.priv := rfl
@[simp] theorem setEngine_eng : (setEngine s e x).eng = tabSet {} s.eng e x := rfl
@[simp] theorem setEngine_sup : (setEngine s e x).sup = s.sup := rfl
@[simp] theorem setEngine_pairs : (setEngine s e x).pairs = s.pairs := rfl
@[simp] theorem setEngine_reqs : (setEngine s e x).reqs = s.reqs := rfl
@[simp] theorem setEngine_served : (setEngine s e x).served = s.served := rfl
@[simp] theorem setEngine_mirrors : (setEngine s e x).mirrors = s.mirrors := rfl
@[simp] theorem setEngine_bindings : (setEngine s e x).bindings = s.bindings := rfl
@[simp] theorem setEngine_arrivals : (setEngine s e x).arrivals = s.arrivals := rfl
@[simp] theorem setEngine_late : (setEngine s e x).late = s.late := rfl
@[simp] theorem setEngine_ovr : (setEngine s e x).ovr = s.ovr := rfl
@[simp] theorem setEngine_mism : (setEngine s e x).mism = s.mism := rfl
@[simp] theorem setEngine_viol : (setEngine s e x).viol = s.viol := rfl
@[simp] theorem setEngine_violSeq : (setEngine s e x).violSeq = s.violSeq := rfl
@[simp] theorem setEngine_violMasters : (setEngine s e x).violMasters = s.violMasters := rfl
@[simp] theorem setEngine_speeds : (setEngine s e x).speeds = s.speeds := rfl
@[simp] theorem setEngine_dayMin : (setEngine s e x).dayMin = s.dayMin := rfl
@[simp] theorem setEngine_dayMinEng : (setEngine s e x).dayMinEng = s.dayMinEng := rfl
@[simp] theorem setEngine_day : (setEngine s e x).day = s.day := rfl
@[simp] theorem setEngine_ports : (setEngine s e x).ports = s.ports := rfl
@[simp] theorem setEngine_time : (setEngine s e x).time = s.time := rfl
@[simp] theorem setEngine_link : (setEngine s e x).link = s.link := rfl
@[simp] theorem setEngine_nwt : (setEngine s e x).nwt = s.nwt := rfl
@[simp] theorem setEngine_saf : (setEngine s e x).saf = s.saf := rfl
@[simp] theorem setEngine_lio : (setEngine s e x).lio = s.lio := rfl
@[simp] theorem setEngine_fpd : (setEngine s e x).fpd = s.fpd := rfl
@[simp] theorem setEngine_pwr : (setEngine s e x).pwr = s.pwr := rfl
@[simp] theorem setEngine_sig : (setEngine s e x).sig = s.sig := rfl
@[simp] theorem setEngine_c37 : (setEngine s e x).c37 = s.c37 := rfl
@[simp] theorem setEngine_boot : (setEngine s e x).boot = s.boot := rfl
@[simp] theorem setEngine_net : (setEngine s e x).net = s.net := rfl
@[simp] theorem setEngine_sess : (setEngine s e x).sess = s.sess := rfl
@[simp] theorem setEngine_hostQ : (setEngine s e x).hostQ = s.hostQ := rfl
@[simp] theorem setEngine_vault : (setEngine s e x).vault = s.vault := rfl
@[simp] theorem setEngine_rng : (setEngine s e x).rng = s.rng := rfl
@[simp] theorem setEngine_grant : (setEngine s e x).grant = s.grant := rfl
@[simp] theorem setEngine_lastFSec : (setEngine s e x).lastFSec = s.lastFSec := rfl
@[simp] theorem setEngine_logQ : (setEngine s e x).logQ = s.logQ := rfl
@[simp] theorem setEngine_log : (setEngine s e x).log = s.log := rfl
@[simp] theorem setEngine_telem : (setEngine s e x).telem = s.telem := rfl
@[simp] theorem setEngine_trace : (setEngine s e x).trace = s.trace := rfl
end

section
variable (e : Nat) (f : Engine → Engine) (s : State)
@[simp] theorem modEngine_pending : (modEngine e f s).pending = s.pending := rfl
@[simp] theorem modEngine_now : (modEngine e f s).now = s.now := rfl
@[simp] theorem modEngine_fresh : (modEngine e f s).fresh = s.fresh := rfl
@[simp] theorem modEngine_out : (modEngine e f s).out = s.out := rfl
@[simp] theorem modEngine_mst : (modEngine e f s).mst = s.mst := rfl
@[simp] theorem modEngine_mlast : (modEngine e f s).mlast = s.mlast := rfl
@[simp] theorem modEngine_stopReq : (modEngine e f s).stopReq = s.stopReq := rfl
@[simp] theorem modEngine_stopActivate : (modEngine e f s).stopActivate = s.stopActivate := rfl
@[simp] theorem modEngine_armReq : (modEngine e f s).armReq = s.armReq := rfl
@[simp] theorem modEngine_regs : (modEngine e f s).regs = s.regs := rfl
@[simp] theorem modEngine_tk : (modEngine e f s).tk = s.tk := rfl
@[simp] theorem modEngine_waiters : (modEngine e f s).waiters = s.waiters := rfl
@[simp] theorem modEngine_owed : (modEngine e f s).owed = s.owed := rfl
@[simp] theorem modEngine_ends : (modEngine e f s).ends = s.ends := rfl
@[simp] theorem modEngine_latch : (modEngine e f s).latch = s.latch := rfl
@[simp] theorem modEngine_mem : (modEngine e f s).mem = s.mem := rfl
@[simp] theorem modEngine_chk : (modEngine e f s).chk = s.chk := rfl
@[simp] theorem modEngine_ts : (modEngine e f s).ts = s.ts := rfl
@[simp] theorem modEngine_tsRepairs : (modEngine e f s).tsRepairs = s.tsRepairs := rfl
@[simp] theorem modEngine_tsSplit : (modEngine e f s).tsSplit = s.tsSplit := rfl
@[simp] theorem modEngine_priv : (modEngine e f s).priv = s.priv := rfl
@[simp] theorem modEngine_eng : (modEngine e f s).eng = tabSet {} s.eng e (f (engine s e)) := rfl
@[simp] theorem modEngine_sup : (modEngine e f s).sup = s.sup := rfl
@[simp] theorem modEngine_pairs : (modEngine e f s).pairs = s.pairs := rfl
@[simp] theorem modEngine_reqs : (modEngine e f s).reqs = s.reqs := rfl
@[simp] theorem modEngine_served : (modEngine e f s).served = s.served := rfl
@[simp] theorem modEngine_mirrors : (modEngine e f s).mirrors = s.mirrors := rfl
@[simp] theorem modEngine_bindings : (modEngine e f s).bindings = s.bindings := rfl
@[simp] theorem modEngine_arrivals : (modEngine e f s).arrivals = s.arrivals := rfl
@[simp] theorem modEngine_late : (modEngine e f s).late = s.late := rfl
@[simp] theorem modEngine_ovr : (modEngine e f s).ovr = s.ovr := rfl
@[simp] theorem modEngine_mism : (modEngine e f s).mism = s.mism := rfl
@[simp] theorem modEngine_viol : (modEngine e f s).viol = s.viol := rfl
@[simp] theorem modEngine_violSeq : (modEngine e f s).violSeq = s.violSeq := rfl
@[simp] theorem modEngine_violMasters : (modEngine e f s).violMasters = s.violMasters := rfl
@[simp] theorem modEngine_speeds : (modEngine e f s).speeds = s.speeds := rfl
@[simp] theorem modEngine_dayMin : (modEngine e f s).dayMin = s.dayMin := rfl
@[simp] theorem modEngine_dayMinEng : (modEngine e f s).dayMinEng = s.dayMinEng := rfl
@[simp] theorem modEngine_day : (modEngine e f s).day = s.day := rfl
@[simp] theorem modEngine_ports : (modEngine e f s).ports = s.ports := rfl
@[simp] theorem modEngine_time : (modEngine e f s).time = s.time := rfl
@[simp] theorem modEngine_link : (modEngine e f s).link = s.link := rfl
@[simp] theorem modEngine_nwt : (modEngine e f s).nwt = s.nwt := rfl
@[simp] theorem modEngine_saf : (modEngine e f s).saf = s.saf := rfl
@[simp] theorem modEngine_lio : (modEngine e f s).lio = s.lio := rfl
@[simp] theorem modEngine_fpd : (modEngine e f s).fpd = s.fpd := rfl
@[simp] theorem modEngine_pwr : (modEngine e f s).pwr = s.pwr := rfl
@[simp] theorem modEngine_sig : (modEngine e f s).sig = s.sig := rfl
@[simp] theorem modEngine_c37 : (modEngine e f s).c37 = s.c37 := rfl
@[simp] theorem modEngine_boot : (modEngine e f s).boot = s.boot := rfl
@[simp] theorem modEngine_net : (modEngine e f s).net = s.net := rfl
@[simp] theorem modEngine_sess : (modEngine e f s).sess = s.sess := rfl
@[simp] theorem modEngine_hostQ : (modEngine e f s).hostQ = s.hostQ := rfl
@[simp] theorem modEngine_vault : (modEngine e f s).vault = s.vault := rfl
@[simp] theorem modEngine_rng : (modEngine e f s).rng = s.rng := rfl
@[simp] theorem modEngine_grant : (modEngine e f s).grant = s.grant := rfl
@[simp] theorem modEngine_lastFSec : (modEngine e f s).lastFSec = s.lastFSec := rfl
@[simp] theorem modEngine_logQ : (modEngine e f s).logQ = s.logQ := rfl
@[simp] theorem modEngine_log : (modEngine e f s).log = s.log := rfl
@[simp] theorem modEngine_telem : (modEngine e f s).telem = s.telem := rfl
@[simp] theorem modEngine_trace : (modEngine e f s).trace = s.trace := rfl
end

section
variable (e : Nat) (f : Sup → Sup) (s : State)
@[simp] theorem modSup_pending : (modSup e f s).pending = s.pending := rfl
@[simp] theorem modSup_now : (modSup e f s).now = s.now := rfl
@[simp] theorem modSup_fresh : (modSup e f s).fresh = s.fresh := rfl
@[simp] theorem modSup_out : (modSup e f s).out = s.out := rfl
@[simp] theorem modSup_mst : (modSup e f s).mst = s.mst := rfl
@[simp] theorem modSup_mlast : (modSup e f s).mlast = s.mlast := rfl
@[simp] theorem modSup_stopReq : (modSup e f s).stopReq = s.stopReq := rfl
@[simp] theorem modSup_stopActivate : (modSup e f s).stopActivate = s.stopActivate := rfl
@[simp] theorem modSup_armReq : (modSup e f s).armReq = s.armReq := rfl
@[simp] theorem modSup_regs : (modSup e f s).regs = s.regs := rfl
@[simp] theorem modSup_tk : (modSup e f s).tk = s.tk := rfl
@[simp] theorem modSup_waiters : (modSup e f s).waiters = s.waiters := rfl
@[simp] theorem modSup_owed : (modSup e f s).owed = s.owed := rfl
@[simp] theorem modSup_ends : (modSup e f s).ends = s.ends := rfl
@[simp] theorem modSup_latch : (modSup e f s).latch = s.latch := rfl
@[simp] theorem modSup_mem : (modSup e f s).mem = s.mem := rfl
@[simp] theorem modSup_chk : (modSup e f s).chk = s.chk := rfl
@[simp] theorem modSup_ts : (modSup e f s).ts = s.ts := rfl
@[simp] theorem modSup_tsRepairs : (modSup e f s).tsRepairs = s.tsRepairs := rfl
@[simp] theorem modSup_tsSplit : (modSup e f s).tsSplit = s.tsSplit := rfl
@[simp] theorem modSup_priv : (modSup e f s).priv = s.priv := rfl
@[simp] theorem modSup_eng : (modSup e f s).eng = s.eng := rfl
@[simp] theorem modSup_sup : (modSup e f s).sup = tabSet {} s.sup e (f (supOf s e)) := rfl
@[simp] theorem modSup_pairs : (modSup e f s).pairs = s.pairs := rfl
@[simp] theorem modSup_reqs : (modSup e f s).reqs = s.reqs := rfl
@[simp] theorem modSup_served : (modSup e f s).served = s.served := rfl
@[simp] theorem modSup_mirrors : (modSup e f s).mirrors = s.mirrors := rfl
@[simp] theorem modSup_bindings : (modSup e f s).bindings = s.bindings := rfl
@[simp] theorem modSup_arrivals : (modSup e f s).arrivals = s.arrivals := rfl
@[simp] theorem modSup_late : (modSup e f s).late = s.late := rfl
@[simp] theorem modSup_ovr : (modSup e f s).ovr = s.ovr := rfl
@[simp] theorem modSup_mism : (modSup e f s).mism = s.mism := rfl
@[simp] theorem modSup_viol : (modSup e f s).viol = s.viol := rfl
@[simp] theorem modSup_violSeq : (modSup e f s).violSeq = s.violSeq := rfl
@[simp] theorem modSup_violMasters : (modSup e f s).violMasters = s.violMasters := rfl
@[simp] theorem modSup_speeds : (modSup e f s).speeds = s.speeds := rfl
@[simp] theorem modSup_dayMin : (modSup e f s).dayMin = s.dayMin := rfl
@[simp] theorem modSup_dayMinEng : (modSup e f s).dayMinEng = s.dayMinEng := rfl
@[simp] theorem modSup_day : (modSup e f s).day = s.day := rfl
@[simp] theorem modSup_ports : (modSup e f s).ports = s.ports := rfl
@[simp] theorem modSup_time : (modSup e f s).time = s.time := rfl
@[simp] theorem modSup_link : (modSup e f s).link = s.link := rfl
@[simp] theorem modSup_nwt : (modSup e f s).nwt = s.nwt := rfl
@[simp] theorem modSup_saf : (modSup e f s).saf = s.saf := rfl
@[simp] theorem modSup_lio : (modSup e f s).lio = s.lio := rfl
@[simp] theorem modSup_fpd : (modSup e f s).fpd = s.fpd := rfl
@[simp] theorem modSup_pwr : (modSup e f s).pwr = s.pwr := rfl
@[simp] theorem modSup_sig : (modSup e f s).sig = s.sig := rfl
@[simp] theorem modSup_c37 : (modSup e f s).c37 = s.c37 := rfl
@[simp] theorem modSup_boot : (modSup e f s).boot = s.boot := rfl
@[simp] theorem modSup_net : (modSup e f s).net = s.net := rfl
@[simp] theorem modSup_sess : (modSup e f s).sess = s.sess := rfl
@[simp] theorem modSup_hostQ : (modSup e f s).hostQ = s.hostQ := rfl
@[simp] theorem modSup_vault : (modSup e f s).vault = s.vault := rfl
@[simp] theorem modSup_rng : (modSup e f s).rng = s.rng := rfl
@[simp] theorem modSup_grant : (modSup e f s).grant = s.grant := rfl
@[simp] theorem modSup_lastFSec : (modSup e f s).lastFSec = s.lastFSec := rfl
@[simp] theorem modSup_logQ : (modSup e f s).logQ = s.logQ := rfl
@[simp] theorem modSup_log : (modSup e f s).log = s.log := rfl
@[simp] theorem modSup_telem : (modSup e f s).telem = s.telem := rfl
@[simp] theorem modSup_trace : (modSup e f s).trace = s.trace := rfl
end

section
variable (s : State) (k : Nat) (x : Pair)
@[simp] theorem setPair_pending : (setPair s k x).pending = s.pending := rfl
@[simp] theorem setPair_now : (setPair s k x).now = s.now := rfl
@[simp] theorem setPair_fresh : (setPair s k x).fresh = s.fresh := rfl
@[simp] theorem setPair_out : (setPair s k x).out = s.out := rfl
@[simp] theorem setPair_mst : (setPair s k x).mst = s.mst := rfl
@[simp] theorem setPair_mlast : (setPair s k x).mlast = s.mlast := rfl
@[simp] theorem setPair_stopReq : (setPair s k x).stopReq = s.stopReq := rfl
@[simp] theorem setPair_stopActivate : (setPair s k x).stopActivate = s.stopActivate := rfl
@[simp] theorem setPair_armReq : (setPair s k x).armReq = s.armReq := rfl
@[simp] theorem setPair_regs : (setPair s k x).regs = s.regs := rfl
@[simp] theorem setPair_tk : (setPair s k x).tk = s.tk := rfl
@[simp] theorem setPair_waiters : (setPair s k x).waiters = s.waiters := rfl
@[simp] theorem setPair_owed : (setPair s k x).owed = s.owed := rfl
@[simp] theorem setPair_ends : (setPair s k x).ends = s.ends := rfl
@[simp] theorem setPair_latch : (setPair s k x).latch = s.latch := rfl
@[simp] theorem setPair_mem : (setPair s k x).mem = s.mem := rfl
@[simp] theorem setPair_chk : (setPair s k x).chk = s.chk := rfl
@[simp] theorem setPair_ts : (setPair s k x).ts = s.ts := rfl
@[simp] theorem setPair_tsRepairs : (setPair s k x).tsRepairs = s.tsRepairs := rfl
@[simp] theorem setPair_tsSplit : (setPair s k x).tsSplit = s.tsSplit := rfl
@[simp] theorem setPair_priv : (setPair s k x).priv = s.priv := rfl
@[simp] theorem setPair_eng : (setPair s k x).eng = s.eng := rfl
@[simp] theorem setPair_sup : (setPair s k x).sup = s.sup := rfl
@[simp] theorem setPair_pairs : (setPair s k x).pairs = tabSet {} s.pairs k x := rfl
@[simp] theorem setPair_reqs : (setPair s k x).reqs = s.reqs := rfl
@[simp] theorem setPair_served : (setPair s k x).served = s.served := rfl
@[simp] theorem setPair_mirrors : (setPair s k x).mirrors = s.mirrors := rfl
@[simp] theorem setPair_bindings : (setPair s k x).bindings = s.bindings := rfl
@[simp] theorem setPair_arrivals : (setPair s k x).arrivals = s.arrivals := rfl
@[simp] theorem setPair_late : (setPair s k x).late = s.late := rfl
@[simp] theorem setPair_ovr : (setPair s k x).ovr = s.ovr := rfl
@[simp] theorem setPair_mism : (setPair s k x).mism = s.mism := rfl
@[simp] theorem setPair_viol : (setPair s k x).viol = s.viol := rfl
@[simp] theorem setPair_violSeq : (setPair s k x).violSeq = s.violSeq := rfl
@[simp] theorem setPair_violMasters : (setPair s k x).violMasters = s.violMasters := rfl
@[simp] theorem setPair_speeds : (setPair s k x).speeds = s.speeds := rfl
@[simp] theorem setPair_dayMin : (setPair s k x).dayMin = s.dayMin := rfl
@[simp] theorem setPair_dayMinEng : (setPair s k x).dayMinEng = s.dayMinEng := rfl
@[simp] theorem setPair_day : (setPair s k x).day = s.day := rfl
@[simp] theorem setPair_ports : (setPair s k x).ports = s.ports := rfl
@[simp] theorem setPair_time : (setPair s k x).time = s.time := rfl
@[simp] theorem setPair_link : (setPair s k x).link = s.link := rfl
@[simp] theorem setPair_nwt : (setPair s k x).nwt = s.nwt := rfl
@[simp] theorem setPair_saf : (setPair s k x).saf = s.saf := rfl
@[simp] theorem setPair_lio : (setPair s k x).lio = s.lio := rfl
@[simp] theorem setPair_fpd : (setPair s k x).fpd = s.fpd := rfl
@[simp] theorem setPair_pwr : (setPair s k x).pwr = s.pwr := rfl
@[simp] theorem setPair_sig : (setPair s k x).sig = s.sig := rfl
@[simp] theorem setPair_c37 : (setPair s k x).c37 = s.c37 := rfl
@[simp] theorem setPair_boot : (setPair s k x).boot = s.boot := rfl
@[simp] theorem setPair_net : (setPair s k x).net = s.net := rfl
@[simp] theorem setPair_sess : (setPair s k x).sess = s.sess := rfl
@[simp] theorem setPair_hostQ : (setPair s k x).hostQ = s.hostQ := rfl
@[simp] theorem setPair_vault : (setPair s k x).vault = s.vault := rfl
@[simp] theorem setPair_rng : (setPair s k x).rng = s.rng := rfl
@[simp] theorem setPair_grant : (setPair s k x).grant = s.grant := rfl
@[simp] theorem setPair_lastFSec : (setPair s k x).lastFSec = s.lastFSec := rfl
@[simp] theorem setPair_logQ : (setPair s k x).logQ = s.logQ := rfl
@[simp] theorem setPair_log : (setPair s k x).log = s.log := rfl
@[simp] theorem setPair_telem : (setPair s k x).telem = s.telem := rfl
@[simp] theorem setPair_trace : (setPair s k x).trace = s.trace := rfl
end

section
variable (k : Nat) (f : Pair → Pair) (s : State)
@[simp] theorem modPair_pending : (modPair k f s).pending = s.pending := rfl
@[simp] theorem modPair_now : (modPair k f s).now = s.now := rfl
@[simp] theorem modPair_fresh : (modPair k f s).fresh = s.fresh := rfl
@[simp] theorem modPair_out : (modPair k f s).out = s.out := rfl
@[simp] theorem modPair_mst : (modPair k f s).mst = s.mst := rfl
@[simp] theorem modPair_mlast : (modPair k f s).mlast = s.mlast := rfl
@[simp] theorem modPair_stopReq : (modPair k f s).stopReq = s.stopReq := rfl
@[simp] theorem modPair_stopActivate : (modPair k f s).stopActivate = s.stopActivate := rfl
@[simp] theorem modPair_armReq : (modPair k f s).armReq = s.armReq := rfl
@[simp] theorem modPair_regs : (modPair k f s).regs = s.regs := rfl
@[simp] theorem modPair_tk : (modPair k f s).tk = s.tk := rfl
@[simp] theorem modPair_waiters : (modPair k f s).waiters = s.waiters := rfl
@[simp] theorem modPair_owed : (modPair k f s).owed = s.owed := rfl
@[simp] theorem modPair_ends : (modPair k f s).ends = s.ends := rfl
@[simp] theorem modPair_latch : (modPair k f s).latch = s.latch := rfl
@[simp] theorem modPair_mem : (modPair k f s).mem = s.mem := rfl
@[simp] theorem modPair_chk : (modPair k f s).chk = s.chk := rfl
@[simp] theorem modPair_ts : (modPair k f s).ts = s.ts := rfl
@[simp] theorem modPair_tsRepairs : (modPair k f s).tsRepairs = s.tsRepairs := rfl
@[simp] theorem modPair_tsSplit : (modPair k f s).tsSplit = s.tsSplit := rfl
@[simp] theorem modPair_priv : (modPair k f s).priv = s.priv := rfl
@[simp] theorem modPair_eng : (modPair k f s).eng = s.eng := rfl
@[simp] theorem modPair_sup : (modPair k f s).sup = s.sup := rfl
@[simp] theorem modPair_pairs : (modPair k f s).pairs = tabSet {} s.pairs k (f (pairOf s k)) := rfl
@[simp] theorem modPair_reqs : (modPair k f s).reqs = s.reqs := rfl
@[simp] theorem modPair_served : (modPair k f s).served = s.served := rfl
@[simp] theorem modPair_mirrors : (modPair k f s).mirrors = s.mirrors := rfl
@[simp] theorem modPair_bindings : (modPair k f s).bindings = s.bindings := rfl
@[simp] theorem modPair_arrivals : (modPair k f s).arrivals = s.arrivals := rfl
@[simp] theorem modPair_late : (modPair k f s).late = s.late := rfl
@[simp] theorem modPair_ovr : (modPair k f s).ovr = s.ovr := rfl
@[simp] theorem modPair_mism : (modPair k f s).mism = s.mism := rfl
@[simp] theorem modPair_viol : (modPair k f s).viol = s.viol := rfl
@[simp] theorem modPair_violSeq : (modPair k f s).violSeq = s.violSeq := rfl
@[simp] theorem modPair_violMasters : (modPair k f s).violMasters = s.violMasters := rfl
@[simp] theorem modPair_speeds : (modPair k f s).speeds = s.speeds := rfl
@[simp] theorem modPair_dayMin : (modPair k f s).dayMin = s.dayMin := rfl
@[simp] theorem modPair_dayMinEng : (modPair k f s).dayMinEng = s.dayMinEng := rfl
@[simp] theorem modPair_day : (modPair k f s).day = s.day := rfl
@[simp] theorem modPair_ports : (modPair k f s).ports = s.ports := rfl
@[simp] theorem modPair_time : (modPair k f s).time = s.time := rfl
@[simp] theorem modPair_link : (modPair k f s).link = s.link := rfl
@[simp] theorem modPair_nwt : (modPair k f s).nwt = s.nwt := rfl
@[simp] theorem modPair_saf : (modPair k f s).saf = s.saf := rfl
@[simp] theorem modPair_lio : (modPair k f s).lio = s.lio := rfl
@[simp] theorem modPair_fpd : (modPair k f s).fpd = s.fpd := rfl
@[simp] theorem modPair_pwr : (modPair k f s).pwr = s.pwr := rfl
@[simp] theorem modPair_sig : (modPair k f s).sig = s.sig := rfl
@[simp] theorem modPair_c37 : (modPair k f s).c37 = s.c37 := rfl
@[simp] theorem modPair_boot : (modPair k f s).boot = s.boot := rfl
@[simp] theorem modPair_net : (modPair k f s).net = s.net := rfl
@[simp] theorem modPair_sess : (modPair k f s).sess = s.sess := rfl
@[simp] theorem modPair_hostQ : (modPair k f s).hostQ = s.hostQ := rfl
@[simp] theorem modPair_vault : (modPair k f s).vault = s.vault := rfl
@[simp] theorem modPair_rng : (modPair k f s).rng = s.rng := rfl
@[simp] theorem modPair_grant : (modPair k f s).grant = s.grant := rfl
@[simp] theorem modPair_lastFSec : (modPair k f s).lastFSec = s.lastFSec := rfl
@[simp] theorem modPair_logQ : (modPair k f s).logQ = s.logQ := rfl
@[simp] theorem modPair_log : (modPair k f s).log = s.log := rfl
@[simp] theorem modPair_telem : (modPair k f s).telem = s.telem := rfl
@[simp] theorem modPair_trace : (modPair k f s).trace = s.trace := rfl
end

section
variable (s : State) (p : Nat) (x : Port)
@[simp] theorem setPort_pending : (setPort s p x).pending = s.pending := rfl
@[simp] theorem setPort_now : (setPort s p x).now = s.now := rfl
@[simp] theorem setPort_fresh : (setPort s p x).fresh = s.fresh := rfl
@[simp] theorem setPort_out : (setPort s p x).out = s.out := rfl
@[simp] theorem setPort_mst : (setPort s p x).mst = s.mst := rfl
@[simp] theorem setPort_mlast : (setPort s p x).mlast = s.mlast := rfl
@[simp] theorem setPort_stopReq : (setPort s p x).stopReq = s.stopReq := rfl
@[simp] theorem setPort_stopActivate : (setPort s p x).stopActivate = s.stopActivate := rfl
@[simp] theorem setPort_armReq : (setPort s p x).armReq = s.armReq := rfl
@[simp] theorem setPort_regs : (setPort s p x).regs = s.regs := rfl
@[simp] theorem setPort_tk : (setPort s p x).tk = s.tk := rfl
@[simp] theorem setPort_waiters : (setPort s p x).waiters = s.waiters := rfl
@[simp] theorem setPort_owed : (setPort s p x).owed = s.owed := rfl
@[simp] theorem setPort_ends : (setPort s p x).ends = s.ends := rfl
@[simp] theorem setPort_latch : (setPort s p x).latch = s.latch := rfl
@[simp] theorem setPort_mem : (setPort s p x).mem = s.mem := rfl
@[simp] theorem setPort_chk : (setPort s p x).chk = s.chk := rfl
@[simp] theorem setPort_ts : (setPort s p x).ts = s.ts := rfl
@[simp] theorem setPort_tsRepairs : (setPort s p x).tsRepairs = s.tsRepairs := rfl
@[simp] theorem setPort_tsSplit : (setPort s p x).tsSplit = s.tsSplit := rfl
@[simp] theorem setPort_priv : (setPort s p x).priv = s.priv := rfl
@[simp] theorem setPort_eng : (setPort s p x).eng = s.eng := rfl
@[simp] theorem setPort_sup : (setPort s p x).sup = s.sup := rfl
@[simp] theorem setPort_pairs : (setPort s p x).pairs = s.pairs := rfl
@[simp] theorem setPort_reqs : (setPort s p x).reqs = s.reqs := rfl
@[simp] theorem setPort_served : (setPort s p x).served = s.served := rfl
@[simp] theorem setPort_mirrors : (setPort s p x).mirrors = s.mirrors := rfl
@[simp] theorem setPort_bindings : (setPort s p x).bindings = s.bindings := rfl
@[simp] theorem setPort_arrivals : (setPort s p x).arrivals = s.arrivals := rfl
@[simp] theorem setPort_late : (setPort s p x).late = s.late := rfl
@[simp] theorem setPort_ovr : (setPort s p x).ovr = s.ovr := rfl
@[simp] theorem setPort_mism : (setPort s p x).mism = s.mism := rfl
@[simp] theorem setPort_viol : (setPort s p x).viol = s.viol := rfl
@[simp] theorem setPort_violSeq : (setPort s p x).violSeq = s.violSeq := rfl
@[simp] theorem setPort_violMasters : (setPort s p x).violMasters = s.violMasters := rfl
@[simp] theorem setPort_speeds : (setPort s p x).speeds = s.speeds := rfl
@[simp] theorem setPort_dayMin : (setPort s p x).dayMin = s.dayMin := rfl
@[simp] theorem setPort_dayMinEng : (setPort s p x).dayMinEng = s.dayMinEng := rfl
@[simp] theorem setPort_day : (setPort s p x).day = s.day := rfl
@[simp] theorem setPort_ports : (setPort s p x).ports = tabSet {} s.ports p x := rfl
@[simp] theorem setPort_time : (setPort s p x).time = s.time := rfl
@[simp] theorem setPort_link : (setPort s p x).link = s.link := rfl
@[simp] theorem setPort_nwt : (setPort s p x).nwt = s.nwt := rfl
@[simp] theorem setPort_saf : (setPort s p x).saf = s.saf := rfl
@[simp] theorem setPort_lio : (setPort s p x).lio = s.lio := rfl
@[simp] theorem setPort_fpd : (setPort s p x).fpd = s.fpd := rfl
@[simp] theorem setPort_pwr : (setPort s p x).pwr = s.pwr := rfl
@[simp] theorem setPort_sig : (setPort s p x).sig = s.sig := rfl
@[simp] theorem setPort_c37 : (setPort s p x).c37 = s.c37 := rfl
@[simp] theorem setPort_boot : (setPort s p x).boot = s.boot := rfl
@[simp] theorem setPort_net : (setPort s p x).net = s.net := rfl
@[simp] theorem setPort_sess : (setPort s p x).sess = s.sess := rfl
@[simp] theorem setPort_hostQ : (setPort s p x).hostQ = s.hostQ := rfl
@[simp] theorem setPort_vault : (setPort s p x).vault = s.vault := rfl
@[simp] theorem setPort_rng : (setPort s p x).rng = s.rng := rfl
@[simp] theorem setPort_grant : (setPort s p x).grant = s.grant := rfl
@[simp] theorem setPort_lastFSec : (setPort s p x).lastFSec = s.lastFSec := rfl
@[simp] theorem setPort_logQ : (setPort s p x).logQ = s.logQ := rfl
@[simp] theorem setPort_log : (setPort s p x).log = s.log := rfl
@[simp] theorem setPort_telem : (setPort s p x).telem = s.telem := rfl
@[simp] theorem setPort_trace : (setPort s p x).trace = s.trace := rfl
end

section
variable (p : Nat) (f : Port → Port) (s : State)
@[simp] theorem modPort_pending : (modPort p f s).pending = s.pending := rfl
@[simp] theorem modPort_now : (modPort p f s).now = s.now := rfl
@[simp] theorem modPort_fresh : (modPort p f s).fresh = s.fresh := rfl
@[simp] theorem modPort_out : (modPort p f s).out = s.out := rfl
@[simp] theorem modPort_mst : (modPort p f s).mst = s.mst := rfl
@[simp] theorem modPort_mlast : (modPort p f s).mlast = s.mlast := rfl
@[simp] theorem modPort_stopReq : (modPort p f s).stopReq = s.stopReq := rfl
@[simp] theorem modPort_stopActivate : (modPort p f s).stopActivate = s.stopActivate := rfl
@[simp] theorem modPort_armReq : (modPort p f s).armReq = s.armReq := rfl
@[simp] theorem modPort_regs : (modPort p f s).regs = s.regs := rfl
@[simp] theorem modPort_tk : (modPort p f s).tk = s.tk := rfl
@[simp] theorem modPort_waiters : (modPort p f s).waiters = s.waiters := rfl
@[simp] theorem modPort_owed : (modPort p f s).owed = s.owed := rfl
@[simp] theorem modPort_ends : (modPort p f s).ends = s.ends := rfl
@[simp] theorem modPort_latch : (modPort p f s).latch = s.latch := rfl
@[simp] theorem modPort_mem : (modPort p f s).mem = s.mem := rfl
@[simp] theorem modPort_chk : (modPort p f s).chk = s.chk := rfl
@[simp] theorem modPort_ts : (modPort p f s).ts = s.ts := rfl
@[simp] theorem modPort_tsRepairs : (modPort p f s).tsRepairs = s.tsRepairs := rfl
@[simp] theorem modPort_tsSplit : (modPort p f s).tsSplit = s.tsSplit := rfl
@[simp] theorem modPort_priv : (modPort p f s).priv = s.priv := rfl
@[simp] theorem modPort_eng : (modPort p f s).eng = s.eng := rfl
@[simp] theorem modPort_sup : (modPort p f s).sup = s.sup := rfl
@[simp] theorem modPort_pairs : (modPort p f s).pairs = s.pairs := rfl
@[simp] theorem modPort_reqs : (modPort p f s).reqs = s.reqs := rfl
@[simp] theorem modPort_served : (modPort p f s).served = s.served := rfl
@[simp] theorem modPort_mirrors : (modPort p f s).mirrors = s.mirrors := rfl
@[simp] theorem modPort_bindings : (modPort p f s).bindings = s.bindings := rfl
@[simp] theorem modPort_arrivals : (modPort p f s).arrivals = s.arrivals := rfl
@[simp] theorem modPort_late : (modPort p f s).late = s.late := rfl
@[simp] theorem modPort_ovr : (modPort p f s).ovr = s.ovr := rfl
@[simp] theorem modPort_mism : (modPort p f s).mism = s.mism := rfl
@[simp] theorem modPort_viol : (modPort p f s).viol = s.viol := rfl
@[simp] theorem modPort_violSeq : (modPort p f s).violSeq = s.violSeq := rfl
@[simp] theorem modPort_violMasters : (modPort p f s).violMasters = s.violMasters := rfl
@[simp] theorem modPort_speeds : (modPort p f s).speeds = s.speeds := rfl
@[simp] theorem modPort_dayMin : (modPort p f s).dayMin = s.dayMin := rfl
@[simp] theorem modPort_dayMinEng : (modPort p f s).dayMinEng = s.dayMinEng := rfl
@[simp] theorem modPort_day : (modPort p f s).day = s.day := rfl
@[simp] theorem modPort_ports : (modPort p f s).ports = tabSet {} s.ports p (f (portOf s p)) := rfl
@[simp] theorem modPort_time : (modPort p f s).time = s.time := rfl
@[simp] theorem modPort_link : (modPort p f s).link = s.link := rfl
@[simp] theorem modPort_nwt : (modPort p f s).nwt = s.nwt := rfl
@[simp] theorem modPort_saf : (modPort p f s).saf = s.saf := rfl
@[simp] theorem modPort_lio : (modPort p f s).lio = s.lio := rfl
@[simp] theorem modPort_fpd : (modPort p f s).fpd = s.fpd := rfl
@[simp] theorem modPort_pwr : (modPort p f s).pwr = s.pwr := rfl
@[simp] theorem modPort_sig : (modPort p f s).sig = s.sig := rfl
@[simp] theorem modPort_c37 : (modPort p f s).c37 = s.c37 := rfl
@[simp] theorem modPort_boot : (modPort p f s).boot = s.boot := rfl
@[simp] theorem modPort_net : (modPort p f s).net = s.net := rfl
@[simp] theorem modPort_sess : (modPort p f s).sess = s.sess := rfl
@[simp] theorem modPort_hostQ : (modPort p f s).hostQ = s.hostQ := rfl
@[simp] theorem modPort_vault : (modPort p f s).vault = s.vault := rfl
@[simp] theorem modPort_rng : (modPort p f s).rng = s.rng := rfl
@[simp] theorem modPort_grant : (modPort p f s).grant = s.grant := rfl
@[simp] theorem modPort_lastFSec : (modPort p f s).lastFSec = s.lastFSec := rfl
@[simp] theorem modPort_logQ : (modPort p f s).logQ = s.logQ := rfl
@[simp] theorem modPort_log : (modPort p f s).log = s.log := rfl
@[simp] theorem modPort_telem : (modPort p f s).telem = s.telem := rfl
@[simp] theorem modPort_trace : (modPort p f s).trace = s.trace := rfl
end

section
variable (f : Day → Day) (s : State)
@[simp] theorem modDay_pending : (modDay f s).pending = s.pending := rfl
@[simp] theorem modDay_now : (modDay f s).now = s.now := rfl
@[simp] theorem modDay_fresh : (modDay f s).fresh = s.fresh := rfl
@[simp] theorem modDay_out : (modDay f s).out = s.out := rfl
@[simp] theorem modDay_mst : (modDay f s).mst = s.mst := rfl
@[simp] theorem modDay_mlast : (modDay f s).mlast = s.mlast := rfl
@[simp] theorem modDay_stopReq : (modDay f s).stopReq = s.stopReq := rfl
@[simp] theorem modDay_stopActivate : (modDay f s).stopActivate = s.stopActivate := rfl
@[simp] theorem modDay_armReq : (modDay f s).armReq = s.armReq := rfl
@[simp] theorem modDay_regs : (modDay f s).regs = s.regs := rfl
@[simp] theorem modDay_tk : (modDay f s).tk = s.tk := rfl
@[simp] theorem modDay_waiters : (modDay f s).waiters = s.waiters := rfl
@[simp] theorem modDay_owed : (modDay f s).owed = s.owed := rfl
@[simp] theorem modDay_ends : (modDay f s).ends = s.ends := rfl
@[simp] theorem modDay_latch : (modDay f s).latch = s.latch := rfl
@[simp] theorem modDay_mem : (modDay f s).mem = s.mem := rfl
@[simp] theorem modDay_chk : (modDay f s).chk = s.chk := rfl
@[simp] theorem modDay_ts : (modDay f s).ts = s.ts := rfl
@[simp] theorem modDay_tsRepairs : (modDay f s).tsRepairs = s.tsRepairs := rfl
@[simp] theorem modDay_tsSplit : (modDay f s).tsSplit = s.tsSplit := rfl
@[simp] theorem modDay_priv : (modDay f s).priv = s.priv := rfl
@[simp] theorem modDay_eng : (modDay f s).eng = s.eng := rfl
@[simp] theorem modDay_sup : (modDay f s).sup = s.sup := rfl
@[simp] theorem modDay_pairs : (modDay f s).pairs = s.pairs := rfl
@[simp] theorem modDay_reqs : (modDay f s).reqs = s.reqs := rfl
@[simp] theorem modDay_served : (modDay f s).served = s.served := rfl
@[simp] theorem modDay_mirrors : (modDay f s).mirrors = s.mirrors := rfl
@[simp] theorem modDay_bindings : (modDay f s).bindings = s.bindings := rfl
@[simp] theorem modDay_arrivals : (modDay f s).arrivals = s.arrivals := rfl
@[simp] theorem modDay_late : (modDay f s).late = s.late := rfl
@[simp] theorem modDay_ovr : (modDay f s).ovr = s.ovr := rfl
@[simp] theorem modDay_mism : (modDay f s).mism = s.mism := rfl
@[simp] theorem modDay_viol : (modDay f s).viol = s.viol := rfl
@[simp] theorem modDay_violSeq : (modDay f s).violSeq = s.violSeq := rfl
@[simp] theorem modDay_violMasters : (modDay f s).violMasters = s.violMasters := rfl
@[simp] theorem modDay_speeds : (modDay f s).speeds = s.speeds := rfl
@[simp] theorem modDay_dayMin : (modDay f s).dayMin = s.dayMin := rfl
@[simp] theorem modDay_dayMinEng : (modDay f s).dayMinEng = s.dayMinEng := rfl
@[simp] theorem modDay_day : (modDay f s).day = f s.day := rfl
@[simp] theorem modDay_ports : (modDay f s).ports = s.ports := rfl
@[simp] theorem modDay_time : (modDay f s).time = s.time := rfl
@[simp] theorem modDay_link : (modDay f s).link = s.link := rfl
@[simp] theorem modDay_nwt : (modDay f s).nwt = s.nwt := rfl
@[simp] theorem modDay_saf : (modDay f s).saf = s.saf := rfl
@[simp] theorem modDay_lio : (modDay f s).lio = s.lio := rfl
@[simp] theorem modDay_fpd : (modDay f s).fpd = s.fpd := rfl
@[simp] theorem modDay_pwr : (modDay f s).pwr = s.pwr := rfl
@[simp] theorem modDay_sig : (modDay f s).sig = s.sig := rfl
@[simp] theorem modDay_c37 : (modDay f s).c37 = s.c37 := rfl
@[simp] theorem modDay_boot : (modDay f s).boot = s.boot := rfl
@[simp] theorem modDay_net : (modDay f s).net = s.net := rfl
@[simp] theorem modDay_sess : (modDay f s).sess = s.sess := rfl
@[simp] theorem modDay_hostQ : (modDay f s).hostQ = s.hostQ := rfl
@[simp] theorem modDay_vault : (modDay f s).vault = s.vault := rfl
@[simp] theorem modDay_rng : (modDay f s).rng = s.rng := rfl
@[simp] theorem modDay_grant : (modDay f s).grant = s.grant := rfl
@[simp] theorem modDay_lastFSec : (modDay f s).lastFSec = s.lastFSec := rfl
@[simp] theorem modDay_logQ : (modDay f s).logQ = s.logQ := rfl
@[simp] theorem modDay_log : (modDay f s).log = s.log := rfl
@[simp] theorem modDay_telem : (modDay f s).telem = s.telem := rfl
@[simp] theorem modDay_trace : (modDay f s).trace = s.trace := rfl
end

section
variable (f : Time → Time) (s : State)
@[simp] theorem modTime_pending : (modTime f s).pending = s.pending := rfl
@[simp] theorem modTime_now : (modTime f s).now = s.now := rfl
@[simp] theorem modTime_fresh : (modTime f s).fresh = s.fresh := rfl
@[simp] theorem modTime_out : (modTime f s).out = s.out := rfl
@[simp] theorem modTime_mst : (modTime f s).mst = s.mst := rfl
@[simp] theorem modTime_mlast : (modTime f s).mlast = s.mlast := rfl
@[simp] theorem modTime_stopReq : (modTime f s).stopReq = s.stopReq := rfl
@[simp] theorem modTime_stopActivate : (modTime f s).stopActivate = s.stopActivate := rfl
@[simp] theorem modTime_armReq : (modTime f s).armReq = s.armReq := rfl
@[simp] theorem modTime_regs : (modTime f s).regs = s.regs := rfl
@[simp] theorem modTime_tk : (modTime f s).tk = s.tk := rfl
@[simp] theorem modTime_waiters : (modTime f s).waiters = s.waiters := rfl
@[simp] theorem modTime_owed : (modTime f s).owed = s.owed := rfl
@[simp] theorem modTime_ends : (modTime f s).ends = s.ends := rfl
@[simp] theorem modTime_latch : (modTime f s).latch = s.latch := rfl
@[simp] theorem modTime_mem : (modTime f s).mem = s.mem := rfl
@[simp] theorem modTime_chk : (modTime f s).chk = s.chk := rfl
@[simp] theorem modTime_ts : (modTime f s).ts = s.ts := rfl
@[simp] theorem modTime_tsRepairs : (modTime f s).tsRepairs = s.tsRepairs := rfl
@[simp] theorem modTime_tsSplit : (modTime f s).tsSplit = s.tsSplit := rfl
@[simp] theorem modTime_priv : (modTime f s).priv = s.priv := rfl
@[simp] theorem modTime_eng : (modTime f s).eng = s.eng := rfl
@[simp] theorem modTime_sup : (modTime f s).sup = s.sup := rfl
@[simp] theorem modTime_pairs : (modTime f s).pairs = s.pairs := rfl
@[simp] theorem modTime_reqs : (modTime f s).reqs = s.reqs := rfl
@[simp] theorem modTime_served : (modTime f s).served = s.served := rfl
@[simp] theorem modTime_mirrors : (modTime f s).mirrors = s.mirrors := rfl
@[simp] theorem modTime_bindings : (modTime f s).bindings = s.bindings := rfl
@[simp] theorem modTime_arrivals : (modTime f s).arrivals = s.arrivals := rfl
@[simp] theorem modTime_late : (modTime f s).late = s.late := rfl
@[simp] theorem modTime_ovr : (modTime f s).ovr = s.ovr := rfl
@[simp] theorem modTime_mism : (modTime f s).mism = s.mism := rfl
@[simp] theorem modTime_viol : (modTime f s).viol = s.viol := rfl
@[simp] theorem modTime_violSeq : (modTime f s).violSeq = s.violSeq := rfl
@[simp] theorem modTime_violMasters : (modTime f s).violMasters = s.violMasters := rfl
@[simp] theorem modTime_speeds : (modTime f s).speeds = s.speeds := rfl
@[simp] theorem modTime_dayMin : (modTime f s).dayMin = s.dayMin := rfl
@[simp] theorem modTime_dayMinEng : (modTime f s).dayMinEng = s.dayMinEng := rfl
@[simp] theorem modTime_day : (modTime f s).day = s.day := rfl
@[simp] theorem modTime_ports : (modTime f s).ports = s.ports := rfl
@[simp] theorem modTime_time : (modTime f s).time = f s.time := rfl
@[simp] theorem modTime_link : (modTime f s).link = s.link := rfl
@[simp] theorem modTime_nwt : (modTime f s).nwt = s.nwt := rfl
@[simp] theorem modTime_saf : (modTime f s).saf = s.saf := rfl
@[simp] theorem modTime_lio : (modTime f s).lio = s.lio := rfl
@[simp] theorem modTime_fpd : (modTime f s).fpd = s.fpd := rfl
@[simp] theorem modTime_pwr : (modTime f s).pwr = s.pwr := rfl
@[simp] theorem modTime_sig : (modTime f s).sig = s.sig := rfl
@[simp] theorem modTime_c37 : (modTime f s).c37 = s.c37 := rfl
@[simp] theorem modTime_boot : (modTime f s).boot = s.boot := rfl
@[simp] theorem modTime_net : (modTime f s).net = s.net := rfl
@[simp] theorem modTime_sess : (modTime f s).sess = s.sess := rfl
@[simp] theorem modTime_hostQ : (modTime f s).hostQ = s.hostQ := rfl
@[simp] theorem modTime_vault : (modTime f s).vault = s.vault := rfl
@[simp] theorem modTime_rng : (modTime f s).rng = s.rng := rfl
@[simp] theorem modTime_grant : (modTime f s).grant = s.grant := rfl
@[simp] theorem modTime_lastFSec : (modTime f s).lastFSec = s.lastFSec := rfl
@[simp] theorem modTime_logQ : (modTime f s).logQ = s.logQ := rfl
@[simp] theorem modTime_log : (modTime f s).log = s.log := rfl
@[simp] theorem modTime_telem : (modTime f s).telem = s.telem := rfl
@[simp] theorem modTime_trace : (modTime f s).trace = s.trace := rfl
end

section
variable (f : Link → Link) (s : State)
@[simp] theorem modLink_pending : (modLink f s).pending = s.pending := rfl
@[simp] theorem modLink_now : (modLink f s).now = s.now := rfl
@[simp] theorem modLink_fresh : (modLink f s).fresh = s.fresh := rfl
@[simp] theorem modLink_out : (modLink f s).out = s.out := rfl
@[simp] theorem modLink_mst : (modLink f s).mst = s.mst := rfl
@[simp] theorem modLink_mlast : (modLink f s).mlast = s.mlast := rfl
@[simp] theorem modLink_stopReq : (modLink f s).stopReq = s.stopReq := rfl
@[simp] theorem modLink_stopActivate : (modLink f s).stopActivate = s.stopActivate := rfl
@[simp] theorem modLink_armReq : (modLink f s).armReq = s.armReq := rfl
@[simp] theorem modLink_regs : (modLink f s).regs = s.regs := rfl
@[simp] theorem modLink_tk : (modLink f s).tk = s.tk := rfl
@[simp] theorem modLink_waiters : (modLink f s).waiters = s.waiters := rfl
@[simp] theorem modLink_owed : (modLink f s).owed = s.owed := rfl
@[simp] theorem modLink_ends : (modLink f s).ends = s.ends := rfl
@[simp] theorem modLink_latch : (modLink f s).latch = s.latch := rfl
@[simp] theorem modLink_mem : (modLink f s).mem = s.mem := rfl
@[simp] theorem modLink_chk : (modLink f s).chk = s.chk := rfl
@[simp] theorem modLink_ts : (modLink f s).ts = s.ts := rfl
@[simp] theorem modLink_tsRepairs : (modLink f s).tsRepairs = s.tsRepairs := rfl
@[simp] theorem modLink_tsSplit : (modLink f s).tsSplit = s.tsSplit := rfl
@[simp] theorem modLink_priv : (modLink f s).priv = s.priv := rfl
@[simp] theorem modLink_eng : (modLink f s).eng = s.eng := rfl
@[simp] theorem modLink_sup : (modLink f s).sup = s.sup := rfl
@[simp] theorem modLink_pairs : (modLink f s).pairs = s.pairs := rfl
@[simp] theorem modLink_reqs : (modLink f s).reqs = s.reqs := rfl
@[simp] theorem modLink_served : (modLink f s).served = s.served := rfl
@[simp] theorem modLink_mirrors : (modLink f s).mirrors = s.mirrors := rfl
@[simp] theorem modLink_bindings : (modLink f s).bindings = s.bindings := rfl
@[simp] theorem modLink_arrivals : (modLink f s).arrivals = s.arrivals := rfl
@[simp] theorem modLink_late : (modLink f s).late = s.late := rfl
@[simp] theorem modLink_ovr : (modLink f s).ovr = s.ovr := rfl
@[simp] theorem modLink_mism : (modLink f s).mism = s.mism := rfl
@[simp] theorem modLink_viol : (modLink f s).viol = s.viol := rfl
@[simp] theorem modLink_violSeq : (modLink f s).violSeq = s.violSeq := rfl
@[simp] theorem modLink_violMasters : (modLink f s).violMasters = s.violMasters := rfl
@[simp] theorem modLink_speeds : (modLink f s).speeds = s.speeds := rfl
@[simp] theorem modLink_dayMin : (modLink f s).dayMin = s.dayMin := rfl
@[simp] theorem modLink_dayMinEng : (modLink f s).dayMinEng = s.dayMinEng := rfl
@[simp] theorem modLink_day : (modLink f s).day = s.day := rfl
@[simp] theorem modLink_ports : (modLink f s).ports = s.ports := rfl
@[simp] theorem modLink_time : (modLink f s).time = s.time := rfl
@[simp] theorem modLink_link : (modLink f s).link = f s.link := rfl
@[simp] theorem modLink_nwt : (modLink f s).nwt = s.nwt := rfl
@[simp] theorem modLink_saf : (modLink f s).saf = s.saf := rfl
@[simp] theorem modLink_lio : (modLink f s).lio = s.lio := rfl
@[simp] theorem modLink_fpd : (modLink f s).fpd = s.fpd := rfl
@[simp] theorem modLink_pwr : (modLink f s).pwr = s.pwr := rfl
@[simp] theorem modLink_sig : (modLink f s).sig = s.sig := rfl
@[simp] theorem modLink_c37 : (modLink f s).c37 = s.c37 := rfl
@[simp] theorem modLink_boot : (modLink f s).boot = s.boot := rfl
@[simp] theorem modLink_net : (modLink f s).net = s.net := rfl
@[simp] theorem modLink_sess : (modLink f s).sess = s.sess := rfl
@[simp] theorem modLink_hostQ : (modLink f s).hostQ = s.hostQ := rfl
@[simp] theorem modLink_vault : (modLink f s).vault = s.vault := rfl
@[simp] theorem modLink_rng : (modLink f s).rng = s.rng := rfl
@[simp] theorem modLink_grant : (modLink f s).grant = s.grant := rfl
@[simp] theorem modLink_lastFSec : (modLink f s).lastFSec = s.lastFSec := rfl
@[simp] theorem modLink_logQ : (modLink f s).logQ = s.logQ := rfl
@[simp] theorem modLink_log : (modLink f s).log = s.log := rfl
@[simp] theorem modLink_telem : (modLink f s).telem = s.telem := rfl
@[simp] theorem modLink_trace : (modLink f s).trace = s.trace := rfl
end

section
variable (f : Watch → Watch) (s : State)
@[simp] theorem modNwt_pending : (modNwt f s).pending = s.pending := rfl
@[simp] theorem modNwt_now : (modNwt f s).now = s.now := rfl
@[simp] theorem modNwt_fresh : (modNwt f s).fresh = s.fresh := rfl
@[simp] theorem modNwt_out : (modNwt f s).out = s.out := rfl
@[simp] theorem modNwt_mst : (modNwt f s).mst = s.mst := rfl
@[simp] theorem modNwt_mlast : (modNwt f s).mlast = s.mlast := rfl
@[simp] theorem modNwt_stopReq : (modNwt f s).stopReq = s.stopReq := rfl
@[simp] theorem modNwt_stopActivate : (modNwt f s).stopActivate = s.stopActivate := rfl
@[simp] theorem modNwt_armReq : (modNwt f s).armReq = s.armReq := rfl
@[simp] theorem modNwt_regs : (modNwt f s).regs = s.regs := rfl
@[simp] theorem modNwt_tk : (modNwt f s).tk = s.tk := rfl
@[simp] theorem modNwt_waiters : (modNwt f s).waiters = s.waiters := rfl
@[simp] theorem modNwt_owed : (modNwt f s).owed = s.owed := rfl
@[simp] theorem modNwt_ends : (modNwt f s).ends = s.ends := rfl
@[simp] theorem modNwt_latch : (modNwt f s).latch = s.latch := rfl
@[simp] theorem modNwt_mem : (modNwt f s).mem = s.mem := rfl
@[simp] theorem modNwt_chk : (modNwt f s).chk = s.chk := rfl
@[simp] theorem modNwt_ts : (modNwt f s).ts = s.ts := rfl
@[simp] theorem modNwt_tsRepairs : (modNwt f s).tsRepairs = s.tsRepairs := rfl
@[simp] theorem modNwt_tsSplit : (modNwt f s).tsSplit = s.tsSplit := rfl
@[simp] theorem modNwt_priv : (modNwt f s).priv = s.priv := rfl
@[simp] theorem modNwt_eng : (modNwt f s).eng = s.eng := rfl
@[simp] theorem modNwt_sup : (modNwt f s).sup = s.sup := rfl
@[simp] theorem modNwt_pairs : (modNwt f s).pairs = s.pairs := rfl
@[simp] theorem modNwt_reqs : (modNwt f s).reqs = s.reqs := rfl
@[simp] theorem modNwt_served : (modNwt f s).served = s.served := rfl
@[simp] theorem modNwt_mirrors : (modNwt f s).mirrors = s.mirrors := rfl
@[simp] theorem modNwt_bindings : (modNwt f s).bindings = s.bindings := rfl
@[simp] theorem modNwt_arrivals : (modNwt f s).arrivals = s.arrivals := rfl
@[simp] theorem modNwt_late : (modNwt f s).late = s.late := rfl
@[simp] theorem modNwt_ovr : (modNwt f s).ovr = s.ovr := rfl
@[simp] theorem modNwt_mism : (modNwt f s).mism = s.mism := rfl
@[simp] theorem modNwt_viol : (modNwt f s).viol = s.viol := rfl
@[simp] theorem modNwt_violSeq : (modNwt f s).violSeq = s.violSeq := rfl
@[simp] theorem modNwt_violMasters : (modNwt f s).violMasters = s.violMasters := rfl
@[simp] theorem modNwt_speeds : (modNwt f s).speeds = s.speeds := rfl
@[simp] theorem modNwt_dayMin : (modNwt f s).dayMin = s.dayMin := rfl
@[simp] theorem modNwt_dayMinEng : (modNwt f s).dayMinEng = s.dayMinEng := rfl
@[simp] theorem modNwt_day : (modNwt f s).day = s.day := rfl
@[simp] theorem modNwt_ports : (modNwt f s).ports = s.ports := rfl
@[simp] theorem modNwt_time : (modNwt f s).time = s.time := rfl
@[simp] theorem modNwt_link : (modNwt f s).link = s.link := rfl
@[simp] theorem modNwt_nwt : (modNwt f s).nwt = f s.nwt := rfl
@[simp] theorem modNwt_saf : (modNwt f s).saf = s.saf := rfl
@[simp] theorem modNwt_lio : (modNwt f s).lio = s.lio := rfl
@[simp] theorem modNwt_fpd : (modNwt f s).fpd = s.fpd := rfl
@[simp] theorem modNwt_pwr : (modNwt f s).pwr = s.pwr := rfl
@[simp] theorem modNwt_sig : (modNwt f s).sig = s.sig := rfl
@[simp] theorem modNwt_c37 : (modNwt f s).c37 = s.c37 := rfl
@[simp] theorem modNwt_boot : (modNwt f s).boot = s.boot := rfl
@[simp] theorem modNwt_net : (modNwt f s).net = s.net := rfl
@[simp] theorem modNwt_sess : (modNwt f s).sess = s.sess := rfl
@[simp] theorem modNwt_hostQ : (modNwt f s).hostQ = s.hostQ := rfl
@[simp] theorem modNwt_vault : (modNwt f s).vault = s.vault := rfl
@[simp] theorem modNwt_rng : (modNwt f s).rng = s.rng := rfl
@[simp] theorem modNwt_grant : (modNwt f s).grant = s.grant := rfl
@[simp] theorem modNwt_lastFSec : (modNwt f s).lastFSec = s.lastFSec := rfl
@[simp] theorem modNwt_logQ : (modNwt f s).logQ = s.logQ := rfl
@[simp] theorem modNwt_log : (modNwt f s).log = s.log := rfl
@[simp] theorem modNwt_telem : (modNwt f s).telem = s.telem := rfl
@[simp] theorem modNwt_trace : (modNwt f s).trace = s.trace := rfl
end

section
variable (f : Saf → Saf) (s : State)
@[simp] theorem modSaf_pending : (modSaf f s).pending = s.pending := rfl
@[simp] theorem modSaf_now : (modSaf f s).now = s.now := rfl
@[simp] theorem modSaf_fresh : (modSaf f s).fresh = s.fresh := rfl
@[simp] theorem modSaf_out : (modSaf f s).out = s.out := rfl
@[simp] theorem modSaf_mst : (modSaf f s).mst = s.mst := rfl
@[simp] theorem modSaf_mlast : (modSaf f s).mlast = s.mlast := rfl
@[simp] theorem modSaf_stopReq : (modSaf f s).stopReq = s.stopReq := rfl
@[simp] theorem modSaf_stopActivate : (modSaf f s).stopActivate = s.stopActivate := rfl
@[simp] theorem modSaf_armReq : (modSaf f s).armReq = s.armReq := rfl
@[simp] theorem modSaf_regs : (modSaf f s).regs = s.regs := rfl
@[simp] theorem modSaf_tk : (modSaf f s).tk = s.tk := rfl
@[simp] theorem modSaf_waiters : (modSaf f s).waiters = s.waiters := rfl
@[simp] theorem modSaf_owed : (modSaf f s).owed = s.owed := rfl
@[simp] theorem modSaf_ends : (modSaf f s).ends = s.ends := rfl
@[simp] theorem modSaf_latch : (modSaf f s).latch = s.latch := rfl
@[simp] theorem modSaf_mem : (modSaf f s).mem = s.mem := rfl
@[simp] theorem modSaf_chk : (modSaf f s).chk = s.chk := rfl
@[simp] theorem modSaf_ts : (modSaf f s).ts = s.ts := rfl
@[simp] theorem modSaf_tsRepairs : (modSaf f s).tsRepairs = s.tsRepairs := rfl
@[simp] theorem modSaf_tsSplit : (modSaf f s).tsSplit = s.tsSplit := rfl
@[simp] theorem modSaf_priv : (modSaf f s).priv = s.priv := rfl
@[simp] theorem modSaf_eng : (modSaf f s).eng = s.eng := rfl
@[simp] theorem modSaf_sup : (modSaf f s).sup = s.sup := rfl
@[simp] theorem modSaf_pairs : (modSaf f s).pairs = s.pairs := rfl
@[simp] theorem modSaf_reqs : (modSaf f s).reqs = s.reqs := rfl
@[simp] theorem modSaf_served : (modSaf f s).served = s.served := rfl
@[simp] theorem modSaf_mirrors : (modSaf f s).mirrors = s.mirrors := rfl
@[simp] theorem modSaf_bindings : (modSaf f s).bindings = s.bindings := rfl
@[simp] theorem modSaf_arrivals : (modSaf f s).arrivals = s.arrivals := rfl
@[simp] theorem modSaf_late : (modSaf f s).late = s.late := rfl
@[simp] theorem modSaf_ovr : (modSaf f s).ovr = s.ovr := rfl
@[simp] theorem modSaf_mism : (modSaf f s).mism = s.mism := rfl
@[simp] theorem modSaf_viol : (modSaf f s).viol = s.viol := rfl
@[simp] theorem modSaf_violSeq : (modSaf f s).violSeq = s.violSeq := rfl
@[simp] theorem modSaf_violMasters : (modSaf f s).violMasters = s.violMasters := rfl
@[simp] theorem modSaf_speeds : (modSaf f s).speeds = s.speeds := rfl
@[simp] theorem modSaf_dayMin : (modSaf f s).dayMin = s.dayMin := rfl
@[simp] theorem modSaf_dayMinEng : (modSaf f s).dayMinEng = s.dayMinEng := rfl
@[simp] theorem modSaf_day : (modSaf f s).day = s.day := rfl
@[simp] theorem modSaf_ports : (modSaf f s).ports = s.ports := rfl
@[simp] theorem modSaf_time : (modSaf f s).time = s.time := rfl
@[simp] theorem modSaf_link : (modSaf f s).link = s.link := rfl
@[simp] theorem modSaf_nwt : (modSaf f s).nwt = s.nwt := rfl
@[simp] theorem modSaf_saf : (modSaf f s).saf = f s.saf := rfl
@[simp] theorem modSaf_lio : (modSaf f s).lio = s.lio := rfl
@[simp] theorem modSaf_fpd : (modSaf f s).fpd = s.fpd := rfl
@[simp] theorem modSaf_pwr : (modSaf f s).pwr = s.pwr := rfl
@[simp] theorem modSaf_sig : (modSaf f s).sig = s.sig := rfl
@[simp] theorem modSaf_c37 : (modSaf f s).c37 = s.c37 := rfl
@[simp] theorem modSaf_boot : (modSaf f s).boot = s.boot := rfl
@[simp] theorem modSaf_net : (modSaf f s).net = s.net := rfl
@[simp] theorem modSaf_sess : (modSaf f s).sess = s.sess := rfl
@[simp] theorem modSaf_hostQ : (modSaf f s).hostQ = s.hostQ := rfl
@[simp] theorem modSaf_vault : (modSaf f s).vault = s.vault := rfl
@[simp] theorem modSaf_rng : (modSaf f s).rng = s.rng := rfl
@[simp] theorem modSaf_grant : (modSaf f s).grant = s.grant := rfl
@[simp] theorem modSaf_lastFSec : (modSaf f s).lastFSec = s.lastFSec := rfl
@[simp] theorem modSaf_logQ : (modSaf f s).logQ = s.logQ := rfl
@[simp] theorem modSaf_log : (modSaf f s).log = s.log := rfl
@[simp] theorem modSaf_telem : (modSaf f s).telem = s.telem := rfl
@[simp] theorem modSaf_trace : (modSaf f s).trace = s.trace := rfl
end

section
variable (f : Lio → Lio) (s : State)
@[simp] theorem modLio_pending : (modLio f s).pending = s.pending := rfl
@[simp] theorem modLio_now : (modLio f s).now = s.now := rfl
@[simp] theorem modLio_fresh : (modLio f s).fresh = s.fresh := rfl
@[simp] theorem modLio_out : (modLio f s).out = s.out := rfl
@[simp] theorem modLio_mst : (modLio f s).mst = s.mst := rfl
@[simp] theorem modLio_mlast : (modLio f s).mlast = s.mlast := rfl
@[simp] theorem modLio_stopReq : (modLio f s).stopReq = s.stopReq := rfl
@[simp] theorem modLio_stopActivate : (modLio f s).stopActivate = s.stopActivate := rfl
@[simp] theorem modLio_armReq : (modLio f s).armReq = s.armReq := rfl
@[simp] theorem modLio_regs : (modLio f s).regs = s.regs := rfl
@[simp] theorem modLio_tk : (modLio f s).tk = s.tk := rfl
@[simp] theorem modLio_waiters : (modLio f s).waiters = s.waiters := rfl
@[simp] theorem modLio_owed : (modLio f s).owed = s.owed := rfl
@[simp] theorem modLio_ends : (modLio f s).ends = s.ends := rfl
@[simp] theorem modLio_latch : (modLio f s).latch = s.latch := rfl
@[simp] theorem modLio_mem : (modLio f s).mem = s.mem := rfl
@[simp] theorem modLio_chk : (modLio f s).chk = s.chk := rfl
@[simp] theorem modLio_ts : (modLio f s).ts = s.ts := rfl
@[simp] theorem modLio_tsRepairs : (modLio f s).tsRepairs = s.tsRepairs := rfl
@[simp] theorem modLio_tsSplit : (modLio f s).tsSplit = s.tsSplit := rfl
@[simp] theorem modLio_priv : (modLio f s).priv = s.priv := rfl
@[simp] theorem modLio_eng : (modLio f s).eng = s.eng := rfl
@[simp] theorem modLio_sup : (modLio f s).sup = s.sup := rfl
@[simp] theorem modLio_pairs : (modLio f s).pairs = s.pairs := rfl
@[simp] theorem modLio_reqs : (modLio f s).reqs = s.reqs := rfl
@[simp] theorem modLio_served : (modLio f s).served = s.served := rfl
@[simp] theorem modLio_mirrors : (modLio f s).mirrors = s.mirrors := rfl
@[simp] theorem modLio_bindings : (modLio f s).bindings = s.bindings := rfl
@[simp] theorem modLio_arrivals : (modLio f s).arrivals = s.arrivals := rfl
@[simp] theorem modLio_late : (modLio f s).late = s.late := rfl
@[simp] theorem modLio_ovr : (modLio f s).ovr = s.ovr := rfl
@[simp] theorem modLio_mism : (modLio f s).mism = s.mism := rfl
@[simp] theorem modLio_viol : (modLio f s).viol = s.viol := rfl
@[simp] theorem modLio_violSeq : (modLio f s).violSeq = s.violSeq := rfl
@[simp] theorem modLio_violMasters : (modLio f s).violMasters = s.violMasters := rfl
@[simp] theorem modLio_speeds : (modLio f s).speeds = s.speeds := rfl
@[simp] theorem modLio_dayMin : (modLio f s).dayMin = s.dayMin := rfl
@[simp] theorem modLio_dayMinEng : (modLio f s).dayMinEng = s.dayMinEng := rfl
@[simp] theorem modLio_day : (modLio f s).day = s.day := rfl
@[simp] theorem modLio_ports : (modLio f s).ports = s.ports := rfl
@[simp] theorem modLio_time : (modLio f s).time = s.time := rfl
@[simp] theorem modLio_link : (modLio f s).link = s.link := rfl
@[simp] theorem modLio_nwt : (modLio f s).nwt = s.nwt := rfl
@[simp] theorem modLio_saf : (modLio f s).saf = s.saf := rfl
@[simp] theorem modLio_lio : (modLio f s).lio = f s.lio := rfl
@[simp] theorem modLio_fpd : (modLio f s).fpd = s.fpd := rfl
@[simp] theorem modLio_pwr : (modLio f s).pwr = s.pwr := rfl
@[simp] theorem modLio_sig : (modLio f s).sig = s.sig := rfl
@[simp] theorem modLio_c37 : (modLio f s).c37 = s.c37 := rfl
@[simp] theorem modLio_boot : (modLio f s).boot = s.boot := rfl
@[simp] theorem modLio_net : (modLio f s).net = s.net := rfl
@[simp] theorem modLio_sess : (modLio f s).sess = s.sess := rfl
@[simp] theorem modLio_hostQ : (modLio f s).hostQ = s.hostQ := rfl
@[simp] theorem modLio_vault : (modLio f s).vault = s.vault := rfl
@[simp] theorem modLio_rng : (modLio f s).rng = s.rng := rfl
@[simp] theorem modLio_grant : (modLio f s).grant = s.grant := rfl
@[simp] theorem modLio_lastFSec : (modLio f s).lastFSec = s.lastFSec := rfl
@[simp] theorem modLio_logQ : (modLio f s).logQ = s.logQ := rfl
@[simp] theorem modLio_log : (modLio f s).log = s.log := rfl
@[simp] theorem modLio_telem : (modLio f s).telem = s.telem := rfl
@[simp] theorem modLio_trace : (modLio f s).trace = s.trace := rfl
end

section
variable (f : Fpd → Fpd) (s : State)
@[simp] theorem modFpd_pending : (modFpd f s).pending = s.pending := rfl
@[simp] theorem modFpd_now : (modFpd f s).now = s.now := rfl
@[simp] theorem modFpd_fresh : (modFpd f s).fresh = s.fresh := rfl
@[simp] theorem modFpd_out : (modFpd f s).out = s.out := rfl
@[simp] theorem modFpd_mst : (modFpd f s).mst = s.mst := rfl
@[simp] theorem modFpd_mlast : (modFpd f s).mlast = s.mlast := rfl
@[simp] theorem modFpd_stopReq : (modFpd f s).stopReq = s.stopReq := rfl
@[simp] theorem modFpd_stopActivate : (modFpd f s).stopActivate = s.stopActivate := rfl
@[simp] theorem modFpd_armReq : (modFpd f s).armReq = s.armReq := rfl
@[simp] theorem modFpd_regs : (modFpd f s).regs = s.regs := rfl
@[simp] theorem modFpd_tk : (modFpd f s).tk = s.tk := rfl
@[simp] theorem modFpd_waiters : (modFpd f s).waiters = s.waiters := rfl
@[simp] theorem modFpd_owed : (modFpd f s).owed = s.owed := rfl
@[simp] theorem modFpd_ends : (modFpd f s).ends = s.ends := rfl
@[simp] theorem modFpd_latch : (modFpd f s).latch = s.latch := rfl
@[simp] theorem modFpd_mem : (modFpd f s).mem = s.mem := rfl
@[simp] theorem modFpd_chk : (modFpd f s).chk = s.chk := rfl
@[simp] theorem modFpd_ts : (modFpd f s).ts = s.ts := rfl
@[simp] theorem modFpd_tsRepairs : (modFpd f s).tsRepairs = s.tsRepairs := rfl
@[simp] theorem modFpd_tsSplit : (modFpd f s).tsSplit = s.tsSplit := rfl
@[simp] theorem modFpd_priv : (modFpd f s).priv = s.priv := rfl
@[simp] theorem modFpd_eng : (modFpd f s).eng = s.eng := rfl
@[simp] theorem modFpd_sup : (modFpd f s).sup = s.sup := rfl
@[simp] theorem modFpd_pairs : (modFpd f s).pairs = s.pairs := rfl
@[simp] theorem modFpd_reqs : (modFpd f s).reqs = s.reqs := rfl
@[simp] theorem modFpd_served : (modFpd f s).served = s.served := rfl
@[simp] theorem modFpd_mirrors : (modFpd f s).mirrors = s.mirrors := rfl
@[simp] theorem modFpd_bindings : (modFpd f s).bindings = s.bindings := rfl
@[simp] theorem modFpd_arrivals : (modFpd f s).arrivals = s.arrivals := rfl
@[simp] theorem modFpd_late : (modFpd f s).late = s.late := rfl
@[simp] theorem modFpd_ovr : (modFpd f s).ovr = s.ovr := rfl
@[simp] theorem modFpd_mism : (modFpd f s).mism = s.mism := rfl
@[simp] theorem modFpd_viol : (modFpd f s).viol = s.viol := rfl
@[simp] theorem modFpd_violSeq : (modFpd f s).violSeq = s.violSeq := rfl
@[simp] theorem modFpd_violMasters : (modFpd f s).violMasters = s.violMasters := rfl
@[simp] theorem modFpd_speeds : (modFpd f s).speeds = s.speeds := rfl
@[simp] theorem modFpd_dayMin : (modFpd f s).dayMin = s.dayMin := rfl
@[simp] theorem modFpd_dayMinEng : (modFpd f s).dayMinEng = s.dayMinEng := rfl
@[simp] theorem modFpd_day : (modFpd f s).day = s.day := rfl
@[simp] theorem modFpd_ports : (modFpd f s).ports = s.ports := rfl
@[simp] theorem modFpd_time : (modFpd f s).time = s.time := rfl
@[simp] theorem modFpd_link : (modFpd f s).link = s.link := rfl
@[simp] theorem modFpd_nwt : (modFpd f s).nwt = s.nwt := rfl
@[simp] theorem modFpd_saf : (modFpd f s).saf = s.saf := rfl
@[simp] theorem modFpd_lio : (modFpd f s).lio = s.lio := rfl
@[simp] theorem modFpd_fpd : (modFpd f s).fpd = f s.fpd := rfl
@[simp] theorem modFpd_pwr : (modFpd f s).pwr = s.pwr := rfl
@[simp] theorem modFpd_sig : (modFpd f s).sig = s.sig := rfl
@[simp] theorem modFpd_c37 : (modFpd f s).c37 = s.c37 := rfl
@[simp] theorem modFpd_boot : (modFpd f s).boot = s.boot := rfl
@[simp] theorem modFpd_net : (modFpd f s).net = s.net := rfl
@[simp] theorem modFpd_sess : (modFpd f s).sess = s.sess := rfl
@[simp] theorem modFpd_hostQ : (modFpd f s).hostQ = s.hostQ := rfl
@[simp] theorem modFpd_vault : (modFpd f s).vault = s.vault := rfl
@[simp] theorem modFpd_rng : (modFpd f s).rng = s.rng := rfl
@[simp] theorem modFpd_grant : (modFpd f s).grant = s.grant := rfl
@[simp] theorem modFpd_lastFSec : (modFpd f s).lastFSec = s.lastFSec := rfl
@[simp] theorem modFpd_logQ : (modFpd f s).logQ = s.logQ := rfl
@[simp] theorem modFpd_log : (modFpd f s).log = s.log := rfl
@[simp] theorem modFpd_telem : (modFpd f s).telem = s.telem := rfl
@[simp] theorem modFpd_trace : (modFpd f s).trace = s.trace := rfl
end

section
variable (f : Sig → Sig) (s : State)
@[simp] theorem modSig_pending : (modSig f s).pending = s.pending := rfl
@[simp] theorem modSig_now : (modSig f s).now = s.now := rfl
@[simp] theorem modSig_fresh : (modSig f s).fresh = s.fresh := rfl
@[simp] theorem modSig_out : (modSig f s).out = s.out := rfl
@[simp] theorem modSig_mst : (modSig f s).mst = s.mst := rfl
@[simp] theorem modSig_mlast : (modSig f s).mlast = s.mlast := rfl
@[simp] theorem modSig_stopReq : (modSig f s).stopReq = s.stopReq := rfl
@[simp] theorem modSig_stopActivate : (modSig f s).stopActivate = s.stopActivate := rfl
@[simp] theorem modSig_armReq : (modSig f s).armReq = s.armReq := rfl
@[simp] theorem modSig_regs : (modSig f s).regs = s.regs := rfl
@[simp] theorem modSig_tk : (modSig f s).tk = s.tk := rfl
@[simp] theorem modSig_waiters : (modSig f s).waiters = s.waiters := rfl
@[simp] theorem modSig_owed : (modSig f s).owed = s.owed := rfl
@[simp] theorem modSig_ends : (modSig f s).ends = s.ends := rfl
@[simp] theorem modSig_latch : (modSig f s).latch = s.latch := rfl
@[simp] theorem modSig_mem : (modSig f s).mem = s.mem := rfl
@[simp] theorem modSig_chk : (modSig f s).chk = s.chk := rfl
@[simp] theorem modSig_ts : (modSig f s).ts = s.ts := rfl
@[simp] theorem modSig_tsRepairs : (modSig f s).tsRepairs = s.tsRepairs := rfl
@[simp] theorem modSig_tsSplit : (modSig f s).tsSplit = s.tsSplit := rfl
@[simp] theorem modSig_priv : (modSig f s).priv = s.priv := rfl
@[simp] theorem modSig_eng : (modSig f s).eng = s.eng := rfl
@[simp] theorem modSig_sup : (modSig f s).sup = s.sup := rfl
@[simp] theorem modSig_pairs : (modSig f s).pairs = s.pairs := rfl
@[simp] theorem modSig_reqs : (modSig f s).reqs = s.reqs := rfl
@[simp] theorem modSig_served : (modSig f s).served = s.served := rfl
@[simp] theorem modSig_mirrors : (modSig f s).mirrors = s.mirrors := rfl
@[simp] theorem modSig_bindings : (modSig f s).bindings = s.bindings := rfl
@[simp] theorem modSig_arrivals : (modSig f s).arrivals = s.arrivals := rfl
@[simp] theorem modSig_late : (modSig f s).late = s.late := rfl
@[simp] theorem modSig_ovr : (modSig f s).ovr = s.ovr := rfl
@[simp] theorem modSig_mism : (modSig f s).mism = s.mism := rfl
@[simp] theorem modSig_viol : (modSig f s).viol = s.viol := rfl
@[simp] theorem modSig_violSeq : (modSig f s).violSeq = s.violSeq := rfl
@[simp] theorem modSig_violMasters : (modSig f s).violMasters = s.violMasters := rfl
@[simp] theorem modSig_speeds : (modSig f s).speeds = s.speeds := rfl
@[simp] theorem modSig_dayMin : (modSig f s).dayMin = s.dayMin := rfl
@[simp] theorem modSig_dayMinEng : (modSig f s).dayMinEng = s.dayMinEng := rfl
@[simp] theorem modSig_day : (modSig f s).day = s.day := rfl
@[simp] theorem modSig_ports : (modSig f s).ports = s.ports := rfl
@[simp] theorem modSig_time : (modSig f s).time = s.time := rfl
@[simp] theorem modSig_link : (modSig f s).link = s.link := rfl
@[simp] theorem modSig_nwt : (modSig f s).nwt = s.nwt := rfl
@[simp] theorem modSig_saf : (modSig f s).saf = s.saf := rfl
@[simp] theorem modSig_lio : (modSig f s).lio = s.lio := rfl
@[simp] theorem modSig_fpd : (modSig f s).fpd = s.fpd := rfl
@[simp] theorem modSig_pwr : (modSig f s).pwr = s.pwr := rfl
@[simp] theorem modSig_sig : (modSig f s).sig = f s.sig := rfl
@[simp] theorem modSig_c37 : (modSig f s).c37 = s.c37 := rfl
@[simp] theorem modSig_boot : (modSig f s).boot = s.boot := rfl
@[simp] theorem modSig_net : (modSig f s).net = s.net := rfl
@[simp] theorem modSig_sess : (modSig f s).sess = s.sess := rfl
@[simp] theorem modSig_hostQ : (modSig f s).hostQ = s.hostQ := rfl
@[simp] theorem modSig_vault : (modSig f s).vault = s.vault := rfl
@[simp] theorem modSig_rng : (modSig f s).rng = s.rng := rfl
@[simp] theorem modSig_grant : (modSig f s).grant = s.grant := rfl
@[simp] theorem modSig_lastFSec : (modSig f s).lastFSec = s.lastFSec := rfl
@[simp] theorem modSig_logQ : (modSig f s).logQ = s.logQ := rfl
@[simp] theorem modSig_log : (modSig f s).log = s.log := rfl
@[simp] theorem modSig_telem : (modSig f s).telem = s.telem := rfl
@[simp] theorem modSig_trace : (modSig f s).trace = s.trace := rfl
end

section
variable (f : Pwr → Pwr) (s : State)
@[simp] theorem modPwr_pending : (modPwr f s).pending = s.pending := rfl
@[simp] theorem modPwr_now : (modPwr f s).now = s.now := rfl
@[simp] theorem modPwr_fresh : (modPwr f s).fresh = s.fresh := rfl
@[simp] theorem modPwr_out : (modPwr f s).out = s.out := rfl
@[simp] theorem modPwr_mst : (modPwr f s).mst = s.mst := rfl
@[simp] theorem modPwr_mlast : (modPwr f s).mlast = s.mlast := rfl
@[simp] theorem modPwr_stopReq : (modPwr f s).stopReq = s.stopReq := rfl
@[simp] theorem modPwr_stopActivate : (modPwr f s).stopActivate = s.stopActivate := rfl
@[simp] theorem modPwr_armReq : (modPwr f s).armReq = s.armReq := rfl
@[simp] theorem modPwr_regs : (modPwr f s).regs = s.regs := rfl
@[simp] theorem modPwr_tk : (modPwr f s).tk = s.tk := rfl
@[simp] theorem modPwr_waiters : (modPwr f s).waiters = s.waiters := rfl
@[simp] theorem modPwr_owed : (modPwr f s).owed = s.owed := rfl
@[simp] theorem modPwr_ends : (modPwr f s).ends = s.ends := rfl
@[simp] theorem modPwr_latch : (modPwr f s).latch = s.latch := rfl
@[simp] theorem modPwr_mem : (modPwr f s).mem = s.mem := rfl
@[simp] theorem modPwr_chk : (modPwr f s).chk = s.chk := rfl
@[simp] theorem modPwr_ts : (modPwr f s).ts = s.ts := rfl
@[simp] theorem modPwr_tsRepairs : (modPwr f s).tsRepairs = s.tsRepairs := rfl
@[simp] theorem modPwr_tsSplit : (modPwr f s).tsSplit = s.tsSplit := rfl
@[simp] theorem modPwr_priv : (modPwr f s).priv = s.priv := rfl
@[simp] theorem modPwr_eng : (modPwr f s).eng = s.eng := rfl
@[simp] theorem modPwr_sup : (modPwr f s).sup = s.sup := rfl
@[simp] theorem modPwr_pairs : (modPwr f s).pairs = s.pairs := rfl
@[simp] theorem modPwr_reqs : (modPwr f s).reqs = s.reqs := rfl
@[simp] theorem modPwr_served : (modPwr f s).served = s.served := rfl
@[simp] theorem modPwr_mirrors : (modPwr f s).mirrors = s.mirrors := rfl
@[simp] theorem modPwr_bindings : (modPwr f s).bindings = s.bindings := rfl
@[simp] theorem modPwr_arrivals : (modPwr f s).arrivals = s.arrivals := rfl
@[simp] theorem modPwr_late : (modPwr f s).late = s.late := rfl
@[simp] theorem modPwr_ovr : (modPwr f s).ovr = s.ovr := rfl
@[simp] theorem modPwr_mism : (modPwr f s).mism = s.mism := rfl
@[simp] theorem modPwr_viol : (modPwr f s).viol = s.viol := rfl
@[simp] theorem modPwr_violSeq : (modPwr f s).violSeq = s.violSeq := rfl
@[simp] theorem modPwr_violMasters : (modPwr f s).violMasters = s.violMasters := rfl
@[simp] theorem modPwr_speeds : (modPwr f s).speeds = s.speeds := rfl
@[simp] theorem modPwr_dayMin : (modPwr f s).dayMin = s.dayMin := rfl
@[simp] theorem modPwr_dayMinEng : (modPwr f s).dayMinEng = s.dayMinEng := rfl
@[simp] theorem modPwr_day : (modPwr f s).day = s.day := rfl
@[simp] theorem modPwr_ports : (modPwr f s).ports = s.ports := rfl
@[simp] theorem modPwr_time : (modPwr f s).time = s.time := rfl
@[simp] theorem modPwr_link : (modPwr f s).link = s.link := rfl
@[simp] theorem modPwr_nwt : (modPwr f s).nwt = s.nwt := rfl
@[simp] theorem modPwr_saf : (modPwr f s).saf = s.saf := rfl
@[simp] theorem modPwr_lio : (modPwr f s).lio = s.lio := rfl
@[simp] theorem modPwr_fpd : (modPwr f s).fpd = s.fpd := rfl
@[simp] theorem modPwr_pwr : (modPwr f s).pwr = f s.pwr := rfl
@[simp] theorem modPwr_sig : (modPwr f s).sig = s.sig := rfl
@[simp] theorem modPwr_c37 : (modPwr f s).c37 = s.c37 := rfl
@[simp] theorem modPwr_boot : (modPwr f s).boot = s.boot := rfl
@[simp] theorem modPwr_net : (modPwr f s).net = s.net := rfl
@[simp] theorem modPwr_sess : (modPwr f s).sess = s.sess := rfl
@[simp] theorem modPwr_hostQ : (modPwr f s).hostQ = s.hostQ := rfl
@[simp] theorem modPwr_vault : (modPwr f s).vault = s.vault := rfl
@[simp] theorem modPwr_rng : (modPwr f s).rng = s.rng := rfl
@[simp] theorem modPwr_grant : (modPwr f s).grant = s.grant := rfl
@[simp] theorem modPwr_lastFSec : (modPwr f s).lastFSec = s.lastFSec := rfl
@[simp] theorem modPwr_logQ : (modPwr f s).logQ = s.logQ := rfl
@[simp] theorem modPwr_log : (modPwr f s).log = s.log := rfl
@[simp] theorem modPwr_telem : (modPwr f s).telem = s.telem := rfl
@[simp] theorem modPwr_trace : (modPwr f s).trace = s.trace := rfl
end

section
variable (f : Boot → Boot) (s : State)
@[simp] theorem modBoot_pending : (modBoot f s).pending = s.pending := rfl
@[simp] theorem modBoot_now : (modBoot f s).now = s.now := rfl
@[simp] theorem modBoot_fresh : (modBoot f s).fresh = s.fresh := rfl
@[simp] theorem modBoot_out : (modBoot f s).out = s.out := rfl
@[simp] theorem modBoot_mst : (modBoot f s).mst = s.mst := rfl
@[simp] theorem modBoot_mlast : (modBoot f s).mlast = s.mlast := rfl
@[simp] theorem modBoot_stopReq : (modBoot f s).stopReq = s.stopReq := rfl
@[simp] theorem modBoot_stopActivate : (modBoot f s).stopActivate = s.stopActivate := rfl
@[simp] theorem modBoot_armReq : (modBoot f s).armReq = s.armReq := rfl
@[simp] theorem modBoot_regs : (modBoot f s).regs = s.regs := rfl
@[simp] theorem modBoot_tk : (modBoot f s).tk = s.tk := rfl
@[simp] theorem modBoot_waiters : (modBoot f s).waiters = s.waiters := rfl
@[simp] theorem modBoot_owed : (modBoot f s).owed = s.owed := rfl
@[simp] theorem modBoot_ends : (modBoot f s).ends = s.ends := rfl
@[simp] theorem modBoot_latch : (modBoot f s).latch = s.latch := rfl
@[simp] theorem modBoot_mem : (modBoot f s).mem = s.mem := rfl
@[simp] theorem modBoot_chk : (modBoot f s).chk = s.chk := rfl
@[simp] theorem modBoot_ts : (modBoot f s).ts = s.ts := rfl
@[simp] theorem modBoot_tsRepairs : (modBoot f s).tsRepairs = s.tsRepairs := rfl
@[simp] theorem modBoot_tsSplit : (modBoot f s).tsSplit = s.tsSplit := rfl
@[simp] theorem modBoot_priv : (modBoot f s).priv = s.priv := rfl
@[simp] theorem modBoot_eng : (modBoot f s).eng = s.eng := rfl
@[simp] theorem modBoot_sup : (modBoot f s).sup = s.sup := rfl
@[simp] theorem modBoot_pairs : (modBoot f s).pairs = s.pairs := rfl
@[simp] theorem modBoot_reqs : (modBoot f s).reqs = s.reqs := rfl
@[simp] theorem modBoot_served : (modBoot f s).served = s.served := rfl
@[simp] theorem modBoot_mirrors : (modBoot f s).mirrors = s.mirrors := rfl
@[simp] theorem modBoot_bindings : (modBoot f s).bindings = s.bindings := rfl
@[simp] theorem modBoot_arrivals : (modBoot f s).arrivals = s.arrivals := rfl
@[simp] theorem modBoot_late : (modBoot f s).late = s.late := rfl
@[simp] theorem modBoot_ovr : (modBoot f s).ovr = s.ovr := rfl
@[simp] theorem modBoot_mism : (modBoot f s).mism = s.mism := rfl
@[simp] theorem modBoot_viol : (modBoot f s).viol = s.viol := rfl
@[simp] theorem modBoot_violSeq : (modBoot f s).violSeq = s.violSeq := rfl
@[simp] theorem modBoot_violMasters : (modBoot f s).violMasters = s.violMasters := rfl
@[simp] theorem modBoot_speeds : (modBoot f s).speeds = s.speeds := rfl
@[simp] theorem modBoot_dayMin : (modBoot f s).dayMin = s.dayMin := rfl
@[simp] theorem modBoot_dayMinEng : (modBoot f s).dayMinEng = s.dayMinEng := rfl
@[simp] theorem modBoot_day : (modBoot f s).day = s.day := rfl
@[simp] theorem modBoot_ports : (modBoot f s).ports = s.ports := rfl
@[simp] theorem modBoot_time : (modBoot f s).time = s.time := rfl
@[simp] theorem modBoot_link : (modBoot f s).link = s.link := rfl
@[simp] theorem modBoot_nwt : (modBoot f s).nwt = s.nwt := rfl
@[simp] theorem modBoot_saf : (modBoot f s).saf = s.saf := rfl
@[simp] theorem modBoot_lio : (modBoot f s).lio = s.lio := rfl
@[simp] theorem modBoot_fpd : (modBoot f s).fpd = s.fpd := rfl
@[simp] theorem modBoot_pwr : (modBoot f s).pwr = s.pwr := rfl
@[simp] theorem modBoot_sig : (modBoot f s).sig = s.sig := rfl
@[simp] theorem modBoot_c37 : (modBoot f s).c37 = s.c37 := rfl
@[simp] theorem modBoot_boot : (modBoot f s).boot = f s.boot := rfl
@[simp] theorem modBoot_net : (modBoot f s).net = s.net := rfl
@[simp] theorem modBoot_sess : (modBoot f s).sess = s.sess := rfl
@[simp] theorem modBoot_hostQ : (modBoot f s).hostQ = s.hostQ := rfl
@[simp] theorem modBoot_vault : (modBoot f s).vault = s.vault := rfl
@[simp] theorem modBoot_rng : (modBoot f s).rng = s.rng := rfl
@[simp] theorem modBoot_grant : (modBoot f s).grant = s.grant := rfl
@[simp] theorem modBoot_lastFSec : (modBoot f s).lastFSec = s.lastFSec := rfl
@[simp] theorem modBoot_logQ : (modBoot f s).logQ = s.logQ := rfl
@[simp] theorem modBoot_log : (modBoot f s).log = s.log := rfl
@[simp] theorem modBoot_telem : (modBoot f s).telem = s.telem := rfl
@[simp] theorem modBoot_trace : (modBoot f s).trace = s.trace := rfl
end

section
variable (f : Telem → Telem) (s : State)
@[simp] theorem modTelem_pending : (modTelem f s).pending = s.pending := rfl
@[simp] theorem modTelem_now : (modTelem f s).now = s.now := rfl
@[simp] theorem modTelem_fresh : (modTelem f s).fresh = s.fresh := rfl
@[simp] theorem modTelem_out : (modTelem f s).out = s.out := rfl
@[simp] theorem modTelem_mst : (modTelem f s).mst = s.mst := rfl
@[simp] theorem modTelem_mlast : (modTelem f s).mlast = s.mlast := rfl
@[simp] theorem modTelem_stopReq : (modTelem f s).stopReq = s.stopReq := rfl
@[simp] theorem modTelem_stopActivate : (modTelem f s).stopActivate = s.stopActivate := rfl
@[simp] theorem modTelem_armReq : (modTelem f s).armReq = s.armReq := rfl
@[simp] theorem modTelem_regs : (modTelem f s).regs = s.regs := rfl
@[simp] theorem modTelem_tk : (modTelem f s).tk = s.tk := rfl
@[simp] theorem modTelem_waiters : (modTelem f s).waiters = s.waiters := rfl
@[simp] theorem modTelem_owed : (modTelem f s).owed = s.owed := rfl
@[simp] theorem modTelem_ends : (modTelem f s).ends = s.ends := rfl
@[simp] theorem modTelem_latch : (modTelem f s).latch = s.latch := rfl
@[simp] theorem modTelem_mem : (modTelem f s).mem = s.mem := rfl
@[simp] theorem modTelem_chk : (modTelem f s).chk = s.chk := rfl
@[simp] theorem modTelem_ts : (modTelem f s).ts = s.ts := rfl
@[simp] theorem modTelem_tsRepairs : (modTelem f s).tsRepairs = s.tsRepairs := rfl
@[simp] theorem modTelem_tsSplit : (modTelem f s).tsSplit = s.tsSplit := rfl
@[simp] theorem modTelem_priv : (modTelem f s).priv = s.priv := rfl
@[simp] theorem modTelem_eng : (modTelem f s).eng = s.eng := rfl
@[simp] theorem modTelem_sup : (modTelem f s).sup = s.sup := rfl
@[simp] theorem modTelem_pairs : (modTelem f s).pairs = s.pairs := rfl
@[simp] theorem modTelem_reqs : (modTelem f s).reqs = s.reqs := rfl
@[simp] theorem modTelem_served : (modTelem f s).served = s.served := rfl
@[simp] theorem modTelem_mirrors : (modTelem f s).mirrors = s.mirrors := rfl
@[simp] theorem modTelem_bindings : (modTelem f s).bindings = s.bindings := rfl
@[simp] theorem modTelem_arrivals : (modTelem f s).arrivals = s.arrivals := rfl
@[simp] theorem modTelem_late : (modTelem f s).late = s.late := rfl
@[simp] theorem modTelem_ovr : (modTelem f s).ovr = s.ovr := rfl
@[simp] theorem modTelem_mism : (modTelem f s).mism = s.mism := rfl
@[simp] theorem modTelem_viol : (modTelem f s).viol = s.viol := rfl
@[simp] theorem modTelem_violSeq : (modTelem f s).violSeq = s.violSeq := rfl
@[simp] theorem modTelem_violMasters : (modTelem f s).violMasters = s.violMasters := rfl
@[simp] theorem modTelem_speeds : (modTelem f s).speeds = s.speeds := rfl
@[simp] theorem modTelem_dayMin : (modTelem f s).dayMin = s.dayMin := rfl
@[simp] theorem modTelem_dayMinEng : (modTelem f s).dayMinEng = s.dayMinEng := rfl
@[simp] theorem modTelem_day : (modTelem f s).day = s.day := rfl
@[simp] theorem modTelem_ports : (modTelem f s).ports = s.ports := rfl
@[simp] theorem modTelem_time : (modTelem f s).time = s.time := rfl
@[simp] theorem modTelem_link : (modTelem f s).link = s.link := rfl
@[simp] theorem modTelem_nwt : (modTelem f s).nwt = s.nwt := rfl
@[simp] theorem modTelem_saf : (modTelem f s).saf = s.saf := rfl
@[simp] theorem modTelem_lio : (modTelem f s).lio = s.lio := rfl
@[simp] theorem modTelem_fpd : (modTelem f s).fpd = s.fpd := rfl
@[simp] theorem modTelem_pwr : (modTelem f s).pwr = s.pwr := rfl
@[simp] theorem modTelem_sig : (modTelem f s).sig = s.sig := rfl
@[simp] theorem modTelem_c37 : (modTelem f s).c37 = s.c37 := rfl
@[simp] theorem modTelem_boot : (modTelem f s).boot = s.boot := rfl
@[simp] theorem modTelem_net : (modTelem f s).net = s.net := rfl
@[simp] theorem modTelem_sess : (modTelem f s).sess = s.sess := rfl
@[simp] theorem modTelem_hostQ : (modTelem f s).hostQ = s.hostQ := rfl
@[simp] theorem modTelem_vault : (modTelem f s).vault = s.vault := rfl
@[simp] theorem modTelem_rng : (modTelem f s).rng = s.rng := rfl
@[simp] theorem modTelem_grant : (modTelem f s).grant = s.grant := rfl
@[simp] theorem modTelem_lastFSec : (modTelem f s).lastFSec = s.lastFSec := rfl
@[simp] theorem modTelem_logQ : (modTelem f s).logQ = s.logQ := rfl
@[simp] theorem modTelem_log : (modTelem f s).log = s.log := rfl
@[simp] theorem modTelem_telem : (modTelem f s).telem = f s.telem := rfl
@[simp] theorem modTelem_trace : (modTelem f s).trace = s.trace := rfl
end

section
variable (f : Trace → Trace) (s : State)
@[simp] theorem modTrace_pending : (modTrace f s).pending = s.pending := rfl
@[simp] theorem modTrace_now : (modTrace f s).now = s.now := rfl
@[simp] theorem modTrace_fresh : (modTrace f s).fresh = s.fresh := rfl
@[simp] theorem modTrace_out : (modTrace f s).out = s.out := rfl
@[simp] theorem modTrace_mst : (modTrace f s).mst = s.mst := rfl
@[simp] theorem modTrace_mlast : (modTrace f s).mlast = s.mlast := rfl
@[simp] theorem modTrace_stopReq : (modTrace f s).stopReq = s.stopReq := rfl
@[simp] theorem modTrace_stopActivate : (modTrace f s).stopActivate = s.stopActivate := rfl
@[simp] theorem modTrace_armReq : (modTrace f s).armReq = s.armReq := rfl
@[simp] theorem modTrace_regs : (modTrace f s).regs = s.regs := rfl
@[simp] theorem modTrace_tk : (modTrace f s).tk = s.tk := rfl
@[simp] theorem modTrace_waiters : (modTrace f s).waiters = s.waiters := rfl
@[simp] theorem modTrace_owed : (modTrace f s).owed = s.owed := rfl
@[simp] theorem modTrace_ends : (modTrace f s).ends = s.ends := rfl
@[simp] theorem modTrace_latch : (modTrace f s).latch = s.latch := rfl
@[simp] theorem modTrace_mem : (modTrace f s).mem = s.mem := rfl
@[simp] theorem modTrace_chk : (modTrace f s).chk = s.chk := rfl
@[simp] theorem modTrace_ts : (modTrace f s).ts = s.ts := rfl
@[simp] theorem modTrace_tsRepairs : (modTrace f s).tsRepairs = s.tsRepairs := rfl
@[simp] theorem modTrace_tsSplit : (modTrace f s).tsSplit = s.tsSplit := rfl
@[simp] theorem modTrace_priv : (modTrace f s).priv = s.priv := rfl
@[simp] theorem modTrace_eng : (modTrace f s).eng = s.eng := rfl
@[simp] theorem modTrace_sup : (modTrace f s).sup = s.sup := rfl
@[simp] theorem modTrace_pairs : (modTrace f s).pairs = s.pairs := rfl
@[simp] theorem modTrace_reqs : (modTrace f s).reqs = s.reqs := rfl
@[simp] theorem modTrace_served : (modTrace f s).served = s.served := rfl
@[simp] theorem modTrace_mirrors : (modTrace f s).mirrors = s.mirrors := rfl
@[simp] theorem modTrace_bindings : (modTrace f s).bindings = s.bindings := rfl
@[simp] theorem modTrace_arrivals : (modTrace f s).arrivals = s.arrivals := rfl
@[simp] theorem modTrace_late : (modTrace f s).late = s.late := rfl
@[simp] theorem modTrace_ovr : (modTrace f s).ovr = s.ovr := rfl
@[simp] theorem modTrace_mism : (modTrace f s).mism = s.mism := rfl
@[simp] theorem modTrace_viol : (modTrace f s).viol = s.viol := rfl
@[simp] theorem modTrace_violSeq : (modTrace f s).violSeq = s.violSeq := rfl
@[simp] theorem modTrace_violMasters : (modTrace f s).violMasters = s.violMasters := rfl
@[simp] theorem modTrace_speeds : (modTrace f s).speeds = s.speeds := rfl
@[simp] theorem modTrace_dayMin : (modTrace f s).dayMin = s.dayMin := rfl
@[simp] theorem modTrace_dayMinEng : (modTrace f s).dayMinEng = s.dayMinEng := rfl
@[simp] theorem modTrace_day : (modTrace f s).day = s.day := rfl
@[simp] theorem modTrace_ports : (modTrace f s).ports = s.ports := rfl
@[simp] theorem modTrace_time : (modTrace f s).time = s.time := rfl
@[simp] theorem modTrace_link : (modTrace f s).link = s.link := rfl
@[simp] theorem modTrace_nwt : (modTrace f s).nwt = s.nwt := rfl
@[simp] theorem modTrace_saf : (modTrace f s).saf = s.saf := rfl
@[simp] theorem modTrace_lio : (modTrace f s).lio = s.lio := rfl
@[simp] theorem modTrace_fpd : (modTrace f s).fpd = s.fpd := rfl
@[simp] theorem modTrace_pwr : (modTrace f s).pwr = s.pwr := rfl
@[simp] theorem modTrace_sig : (modTrace f s).sig = s.sig := rfl
@[simp] theorem modTrace_c37 : (modTrace f s).c37 = s.c37 := rfl
@[simp] theorem modTrace_boot : (modTrace f s).boot = s.boot := rfl
@[simp] theorem modTrace_net : (modTrace f s).net = s.net := rfl
@[simp] theorem modTrace_sess : (modTrace f s).sess = s.sess := rfl
@[simp] theorem modTrace_hostQ : (modTrace f s).hostQ = s.hostQ := rfl
@[simp] theorem modTrace_vault : (modTrace f s).vault = s.vault := rfl
@[simp] theorem modTrace_rng : (modTrace f s).rng = s.rng := rfl
@[simp] theorem modTrace_grant : (modTrace f s).grant = s.grant := rfl
@[simp] theorem modTrace_lastFSec : (modTrace f s).lastFSec = s.lastFSec := rfl
@[simp] theorem modTrace_logQ : (modTrace f s).logQ = s.logQ := rfl
@[simp] theorem modTrace_log : (modTrace f s).log = s.log := rfl
@[simp] theorem modTrace_telem : (modTrace f s).telem = s.telem := rfl
@[simp] theorem modTrace_trace : (modTrace f s).trace = f s.trace := rfl
end

section
variable (s : State) (a : Nat) (v : Word)
@[simp] theorem memSet_pending : (memSet s a v).pending = s.pending := rfl
@[simp] theorem memSet_now : (memSet s a v).now = s.now := rfl
@[simp] theorem memSet_fresh : (memSet s a v).fresh = s.fresh := rfl
@[simp] theorem memSet_out : (memSet s a v).out = s.out := rfl
@[simp] theorem memSet_mst : (memSet s a v).mst = s.mst := rfl
@[simp] theorem memSet_mlast : (memSet s a v).mlast = s.mlast := rfl
@[simp] theorem memSet_stopReq : (memSet s a v).stopReq = s.stopReq := rfl
@[simp] theorem memSet_stopActivate : (memSet s a v).stopActivate = s.stopActivate := rfl
@[simp] theorem memSet_armReq : (memSet s a v).armReq = s.armReq := rfl
@[simp] theorem memSet_regs : (memSet s a v).regs = s.regs := rfl
@[simp] theorem memSet_tk : (memSet s a v).tk = s.tk := rfl
@[simp] theorem memSet_waiters : (memSet s a v).waiters = s.waiters := rfl
@[simp] theorem memSet_owed : (memSet s a v).owed = s.owed := rfl
@[simp] theorem memSet_ends : (memSet s a v).ends = s.ends := rfl
@[simp] theorem memSet_latch : (memSet s a v).latch = s.latch := rfl
@[simp] theorem memSet_mem : (memSet s a v).mem = tabSet 0 s.mem a v := rfl
@[simp] theorem memSet_chk : (memSet s a v).chk = tabSet .ok s.chk a .ok := rfl
@[simp] theorem memSet_ts : (memSet s a v).ts = s.ts := rfl
@[simp] theorem memSet_tsRepairs : (memSet s a v).tsRepairs = s.tsRepairs := rfl
@[simp] theorem memSet_tsSplit : (memSet s a v).tsSplit = s.tsSplit := rfl
@[simp] theorem memSet_priv : (memSet s a v).priv = s.priv := rfl
@[simp] theorem memSet_eng : (memSet s a v).eng = s.eng := rfl
@[simp] theorem memSet_sup : (memSet s a v).sup = s.sup := rfl
@[simp] theorem memSet_pairs : (memSet s a v).pairs = s.pairs := rfl
@[simp] theorem memSet_reqs : (memSet s a v).reqs = s.reqs := rfl
@[simp] theorem memSet_served : (memSet s a v).served = s.served := rfl
@[simp] theorem memSet_mirrors : (memSet s a v).mirrors = s.mirrors := rfl
@[simp] theorem memSet_bindings : (memSet s a v).bindings = s.bindings := rfl
@[simp] theorem memSet_arrivals : (memSet s a v).arrivals = s.arrivals := rfl
@[simp] theorem memSet_late : (memSet s a v).late = s.late := rfl
@[simp] theorem memSet_ovr : (memSet s a v).ovr = s.ovr := rfl
@[simp] theorem memSet_mism : (memSet s a v).mism = s.mism := rfl
@[simp] theorem memSet_viol : (memSet s a v).viol = s.viol := rfl
@[simp] theorem memSet_violSeq : (memSet s a v).violSeq = s.violSeq := rfl
@[simp] theorem memSet_violMasters : (memSet s a v).violMasters = s.violMasters := rfl
@[simp] theorem memSet_speeds : (memSet s a v).speeds = s.speeds := rfl
@[simp] theorem memSet_dayMin : (memSet s a v).dayMin = s.dayMin := rfl
@[simp] theorem memSet_dayMinEng : (memSet s a v).dayMinEng = s.dayMinEng := rfl
@[simp] theorem memSet_day : (memSet s a v).day = s.day := rfl
@[simp] theorem memSet_ports : (memSet s a v).ports = s.ports := rfl
@[simp] theorem memSet_time : (memSet s a v).time = s.time := rfl
@[simp] theorem memSet_link : (memSet s a v).link = s.link := rfl
@[simp] theorem memSet_nwt : (memSet s a v).nwt = s.nwt := rfl
@[simp] theorem memSet_saf : (memSet s a v).saf = s.saf := rfl
@[simp] theorem memSet_lio : (memSet s a v).lio = s.lio := rfl
@[simp] theorem memSet_fpd : (memSet s a v).fpd = s.fpd := rfl
@[simp] theorem memSet_pwr : (memSet s a v).pwr = s.pwr := rfl
@[simp] theorem memSet_sig : (memSet s a v).sig = s.sig := rfl
@[simp] theorem memSet_c37 : (memSet s a v).c37 = s.c37 := rfl
@[simp] theorem memSet_boot : (memSet s a v).boot = s.boot := rfl
@[simp] theorem memSet_net : (memSet s a v).net = s.net := rfl
@[simp] theorem memSet_sess : (memSet s a v).sess = s.sess := rfl
@[simp] theorem memSet_hostQ : (memSet s a v).hostQ = s.hostQ := rfl
@[simp] theorem memSet_vault : (memSet s a v).vault = s.vault := rfl
@[simp] theorem memSet_rng : (memSet s a v).rng = s.rng := rfl
@[simp] theorem memSet_grant : (memSet s a v).grant = s.grant := rfl
@[simp] theorem memSet_lastFSec : (memSet s a v).lastFSec = s.lastFSec := rfl
@[simp] theorem memSet_logQ : (memSet s a v).logQ = s.logQ := rfl
@[simp] theorem memSet_log : (memSet s a v).log = s.log := rfl
@[simp] theorem memSet_telem : (memSet s a v).telem = s.telem := rfl
@[simp] theorem memSet_trace : (memSet s a v).trace = s.trace := rfl
end

end Sys2Proof.Machine
end

