-- ==== Sys2Proof/Laws/Tables.lean ====
section
/-! SUPPORT. Sparse tables: a read after a write, writes that keep the canonical form, and the same for registers and memory. -/

namespace Sys2Proof.Machine

variable {α : Type}

/-- Below the first key of a rising table every read is the default. -/
theorem tabGet_below (d : α) (l : List (Nat × α)) (k : Nat) (h : ∀ p ∈ l, k < p.1) : tabGet d l k = d := by
  cases l with
  | nil => rfl
  | cons p t =>
    have := h p (by simp)
    obtain ⟨a, b⟩ := p
    simp [tabGet, Nat.ne_of_lt this, this]

theorem tabSet_keys [DecidableEq α] (d : α) (l : List (Nat × α)) (k : Nat) (v : α) :
    ∀ p ∈ tabSet d l k v, p.1 = k ∨ p ∈ l := by
  induction l with
  | nil => intro p hp; simp only [tabSet] at hp; split at hp <;> simp_all
  | cons q t ih =>
    obtain ⟨a, b⟩ := q
    intro p hp
    simp only [tabSet] at hp
    split at hp
    · split at hp
      · exact .inr hp
      · rcases List.mem_cons.1 hp with rfl | hp
        · exact .inl rfl
        · exact .inr hp
    · split at hp
      · split at hp
        · exact .inr (List.mem_cons_of_mem _ hp)
        · rcases List.mem_cons.1 hp with rfl | hp
          · exact .inl rfl
          · exact .inr (List.mem_cons_of_mem _ hp)
      · simp only [List.mem_cons] at hp
        rcases hp with rfl | hp
        · simp
        · rcases ih p hp with h | h <;> simp [h]

theorem rising_cons (a : Nat) (b : α) (t : List (Nat × α)) :
    rising ((a, b) :: t) ↔ (∀ p ∈ t, a < p.1) ∧ rising t := by
  simp [rising]

/-- A write keeps the keys rising. -/
theorem tabSet_rising [DecidableEq α] (d : α) (l : List (Nat × α)) (k : Nat) (v : α) (h : rising l) : rising (tabSet d l k v) := by
  induction l with
  | nil => simp only [tabSet]; split <;> simp [rising]
  | cons q t ih =>
    obtain ⟨a, b⟩ := q
    rw [rising_cons] at h
    simp only [tabSet]
    split
    · rename_i hk
      split
      · exact (rising_cons a b t).2 h
      · refine (rising_cons k v _).2 ⟨?_, (rising_cons a b t).2 h⟩
        intro p hp
        rcases List.mem_cons.1 hp with rfl | hp
        · exact hk
        · exact lt_trans hk (h.1 p hp)
    · split
      · rename_i hk; subst hk
        split
        · exact h.2
        · exact (rising_cons k v t).2 h
      · rename_i h1 h2
        refine (rising_cons a b _).2 ⟨fun p hp => ?_, ih h.2⟩
        rcases tabSet_keys d t k v p hp with hp | hp
        · omega
        · exact h.1 p hp

/-- What was written is read. -/
theorem tabGet_tabSet_same [DecidableEq α] (d : α) (l : List (Nat × α)) (k : Nat) (v : α) (h : rising l) :
    tabGet d (tabSet d l k v) k = v := by
  induction l with
  | nil => simp only [tabSet]; split <;> simp_all [tabGet]
  | cons q t ih =>
    obtain ⟨a, b⟩ := q
    rw [rising_cons] at h
    simp only [tabSet]
    split
    · rename_i hk
      split
      · rename_i hv; simp [tabGet, hk, Nat.ne_of_lt hk, hv]
      · simp [tabGet]
    · split
      · rename_i hk; subst hk
        split
        · rename_i hv; rw [tabGet_below d t k h.1, hv]
        · simp [tabGet]
      · rename_i h1 h2
        simp [tabGet, h1, h2, ih h.2]

/-- Every other key reads as before, whatever its default. -/
theorem tabGet_tabSet_other [DecidableEq α] (d d' : α) (l : List (Nat × α)) (k j : Nat) (v : α) (h : rising l) (hj : j ≠ k) :
    tabGet d (tabSet d' l k v) j = tabGet d l j := by
  induction l with
  | nil => simp only [tabSet]; split <;> simp [tabGet, hj]
  | cons q t ih =>
    obtain ⟨a, b⟩ := q
    rw [rising_cons] at h
    simp only [tabSet]
    split
    · rename_i hk
      split
      · rfl
      · simp only [tabGet, hj, if_false]
        by_cases hjk : j < k
        · have h2 : j < a := lt_trans hjk hk
          simp [hjk, h2, Nat.ne_of_lt h2]
        · simp [hjk]
    · split
      · rename_i hk; subst hk
        split
        · simp only [tabGet, hj, if_false]
          by_cases hjk : j < k
          · simp only [hjk, if_true]; exact tabGet_below d t j fun p hp => lt_trans hjk (h.1 p hp)
          · simp [hjk]
        · simp [tabGet, hj]
      · simp only [tabGet]; rw [ih h.2]

/-- The canonical form of a table with one default is its rising keys and no entry at the default. -/
theorem tabWf_iff [DecidableEq α] (d : α) (lo : Option Nat) (l : List (Nat × α)) :
    tabWf d lo l = true ↔ rising l ∧ (∀ p ∈ l, p.2 ≠ d) ∧ (∀ b, lo = some b → ∀ p ∈ l, b < p.1) := by
  induction l generalizing lo with
  | nil => simp [tabWf, rising]
  | cons q t ih =>
    obtain ⟨a, b⟩ := q
    simp only [tabWf, Bool.and_eq_true, decide_eq_true_eq, ih, rising_cons]
    constructor
    · rintro ⟨⟨h1, h2⟩, h3, h4, h5⟩
      have h6 : ∀ p ∈ t, a < p.1 := h5 a rfl
      refine ⟨⟨h6, h3⟩, ?_, ?_⟩
      · intro p hp
        rcases List.mem_cons.1 hp with rfl | hp
        · exact h2
        · exact h4 p hp
      · intro c hc p hp
        subst hc
        have : c < a := by simpa using h1
        rcases List.mem_cons.1 hp with rfl | hp
        · exact this
        · exact lt_trans this (h6 p hp)
    · rintro ⟨⟨h1, h2⟩, h3, h4⟩
      refine ⟨⟨?_, h3 (a, b) (by simp)⟩, h2, fun p hp => h3 p (by simp [hp]), ?_⟩
      · cases lo with
        | none => rfl
        | some c => simpa using h4 c rfl (a, b) (by simp)
      · intro c hc p hp
        injection hc with hc
        subst hc
        exact h1 p hp

theorem tabSet_default_free [DecidableEq α] (d : α) (l : List (Nat × α)) (k : Nat) (v : α) (h : ∀ p ∈ l, p.2 ≠ d) :
    ∀ p ∈ tabSet d l k v, p.2 ≠ d := by
  induction l with
  | nil => intro p hp; simp only [tabSet] at hp; split at hp <;> simp_all
  | cons q t ih =>
    obtain ⟨a, b⟩ := q
    have ht : ∀ p ∈ t, p.2 ≠ d := fun p hp => h p (by simp [hp])
    intro p hp
    simp only [tabSet] at hp
    split at hp
    · split at hp
      · exact h p hp
      · rcases List.mem_cons.1 hp with rfl | hp
        · assumption
        · exact h p hp
    · split at hp
      · split at hp
        · exact ht p hp
        · rcases List.mem_cons.1 hp with rfl | hp
          · assumption
          · exact ht p hp
      · rcases List.mem_cons.1 hp with rfl | hp
        · exact h _ (by simp)
        · exact ih ht p hp

/-- A write keeps the canonical form of memory. -/
theorem tabSet_wf [DecidableEq α] (d : α) (l : List (Nat × α)) (k : Nat) (v : α) (h : tabWf d none l = true) :
    tabWf d none (tabSet d l k v) = true := by
  rw [tabWf_iff] at h ⊢
  exact ⟨tabSet_rising d l k v h.1, tabSet_default_free d l k v h.2.1, by simp⟩

theorem Memory.wf_rising {m : List (Nat × Word)} (h : Memory.wf m = true) : rising m := ((tabWf_iff 0 none m).1 h).1

/-! Registers. -/

theorem reg_setReg_same (s : State) (a : Nat) (v : Word) (h : rising s.regs) : reg (setReg s a v) a = v :=
  tabGet_tabSet_same _ _ _ _ h

theorem reg_setReg_ne (s : State) (a b : Nat) (v : Word) (h : rising s.regs) (hb : b ≠ a) : reg (setReg s a v) b = reg s b :=
  tabGet_tabSet_other _ _ _ _ _ _ h hb

theorem setReg_rising (s : State) (a : Nat) (v : Word) (h : rising s.regs) : rising (setReg s a v).regs :=
  tabSet_rising _ _ _ _ h

/-! Memory. -/

theorem memGet_memSet_same (s : State) (a : Nat) (v : Word) (h : Memory.wf s.mem = true) : memGet (memSet s a v) a = v :=
  tabGet_tabSet_same _ _ _ _ (Memory.wf_rising h)

theorem memGet_memSet_ne (s : State) (a b : Nat) (v : Word) (h : Memory.wf s.mem = true) (hb : b ≠ a) :
    memGet (memSet s a v) b = memGet s b := tabGet_tabSet_other _ _ _ _ _ _ (Memory.wf_rising h) hb

/-- A memory write keeps the canonical form. -/
theorem memSet_wf (s : State) (a : Nat) (v : Word) (h : Memory.wf s.mem = true) : Memory.wf (memSet s a v).mem = true :=
  tabSet_wf _ _ _ _ h

/-! Engines. -/

theorem engine_setEngine_same (s : State) (e : Nat) (x : Engine) (h : rising s.eng) : engine (setEngine s e x) e = x :=
  tabGet_tabSet_same _ _ _ _ h

theorem engine_setEngine_ne (s : State) (e f : Nat) (x : Engine) (h : rising s.eng) (hf : f ≠ e) :
    engine (setEngine s e x) f = engine s f := tabGet_tabSet_other _ _ _ _ _ _ h hf

end Sys2Proof.Machine
end

