-- ==== Sys2Proof/Laws/Regs.lean ====
section
/-! SUPPORT. Register fields: what reads back after a field, a bit or a counter was written, and what a raised fault writes. -/

namespace Sys2Proof.Machine

/-! Slices of numbers. -/

theorem splice_low (v hi lo x : Nat) (h : lo ≤ hi) : splice v hi lo x % 2 ^ lo = v % 2 ^ lo := by
  obtain ⟨w, hw⟩ : ∃ w, hi + 1 = lo + w := ⟨hi + 1 - lo, by omega⟩
  have h1 : v / 2 ^ (hi + 1) * 2 ^ (hi + 1) + x % 2 ^ (hi + 1 - lo) * 2 ^ lo
      = 2 ^ lo * (v / 2 ^ (hi + 1) * 2 ^ w + x % 2 ^ (hi + 1 - lo)) := by
    rw [hw, pow_add]; ring
  rw [splice, h1, Nat.mul_add_mod, Nat.mod_mod]

theorem splice_div_low (v hi lo x : Nat) (h : lo ≤ hi) :
    splice v hi lo x / 2 ^ lo = v / 2 ^ (hi + 1) * 2 ^ (hi + 1 - lo) + x % 2 ^ (hi + 1 - lo) := by
  obtain ⟨w, hw⟩ : ∃ w, hi + 1 = lo + w := ⟨hi + 1 - lo, by omega⟩
  have hw' : hi + 1 - lo = w := by omega
  have h1 : v / 2 ^ (hi + 1) * 2 ^ (hi + 1) + x % 2 ^ (hi + 1 - lo) * 2 ^ lo
      = 2 ^ lo * (v / 2 ^ (hi + 1) * 2 ^ w + x % 2 ^ (hi + 1 - lo)) := by
    rw [hw, pow_add]; ring
  rw [splice, h1, Nat.mul_add_div (Nat.two_pow_pos lo), Nat.div_eq_of_lt (Nat.mod_lt _ (Nat.two_pow_pos lo)), Nat.add_zero, hw']

/-- The field reads back what was spliced in, modulo its width. -/
theorem slice_splice_same (v hi lo x : Nat) (h : lo ≤ hi) : slice (splice v hi lo x) hi lo = x % 2 ^ (hi + 1 - lo) := by
  rw [slice, splice_div_low v hi lo x h, Nat.mul_comm, Nat.mul_add_mod, Nat.mod_mod]

theorem splice_high (v hi lo x : Nat) (h : lo ≤ hi) : splice v hi lo x / 2 ^ (hi + 1) = v / 2 ^ (hi + 1) := by
  have e : (2 : Nat) ^ (hi + 1) = 2 ^ lo * 2 ^ (hi + 1 - lo) := by rw [← pow_add]; congr 1; omega
  rw [e, ← Nat.div_div_eq_div_mul, splice_div_low v hi lo x h, Nat.mul_comm, Nat.mul_add_div (Nat.two_pow_pos _),
    Nat.div_eq_of_lt (Nat.mod_lt _ (Nat.two_pow_pos _)), Nat.add_zero, e]

/-- Another field, above or below, reads as before. -/
theorem slice_splice_other (v hi lo x hi' lo' : Nat) (h : lo ≤ hi) (h' : lo' ≤ hi') (d : hi < lo' ∨ hi' < lo) :
    slice (splice v hi lo x) hi' lo' = slice v hi' lo' := by
  rcases d with d | d
  · have e : (2 : Nat) ^ lo' = 2 ^ (hi + 1) * 2 ^ (lo' - (hi + 1)) := by rw [← pow_add]; congr 1; omega
    rw [slice, slice, e, ← Nat.div_div_eq_div_mul, ← Nat.div_div_eq_div_mul, splice_high v hi lo x h]
  · have key (y : Nat) : slice y hi' lo' = y % 2 ^ lo / 2 ^ lo' % 2 ^ (hi' + 1 - lo') := by
      rw [slice, ← Nat.mod_mul_right_div_self, ← Nat.mod_mul_right_div_self, ← pow_add]
      have e : lo' + (hi' + 1 - lo') = hi' + 1 := by omega
      rw [e, Nat.mod_mod_of_dvd _ (Nat.pow_dvd_pow 2 (by omega))]
    rw [key, key, splice_low v hi lo x h]

theorem splice_lt (v hi lo x n : Nat) (h : lo ≤ hi) (hn : hi < n) (hv : v < 2 ^ n) : splice v hi lo x < 2 ^ n := by
  have e : (2 : Nat) ^ n = 2 ^ (hi + 1) * 2 ^ (n - (hi + 1)) := by rw [← pow_add]; congr 1; omega
  have h1 : splice v hi lo x / 2 ^ (hi + 1) < 2 ^ (n - (hi + 1)) := by
    rw [splice_high v hi lo x h]; exact Nat.div_lt_of_lt_mul (by rw [← e]; exact hv)
  rw [e]
  exact (Nat.div_lt_iff_lt_mul (Nat.two_pow_pos _)).1 h1 |>.trans_eq (Nat.mul_comm _ _)

/-! Fields of registers. -/

theorem word_toNat (n : Nat) (h : n < 2 ^ 36) : (word n).toNat = n := by
  simp only [word, BitVec.toNat_ofNat]; exact Nat.mod_eq_of_lt h

theorem setF_rising (s : State) (a hi lo v : Nat) (h : rising s.regs) : rising (setF s a hi lo v).regs := setReg_rising _ _ _ h

theorem reg_setF_ne (s : State) (a hi lo v b : Nat) (h : rising s.regs) (hb : b ≠ a) : reg (setF s a hi lo v) b = reg s b :=
  reg_setReg_ne _ _ _ _ h hb

theorem getF_setF_same (s : State) (a hi lo v : Nat) (h : rising s.regs) (hl : lo ≤ hi) (hh : hi < 36) :
    getF (setF s a hi lo v) a hi lo = v % 2 ^ (hi + 1 - lo) := by
  rw [getF, setF, reg_setReg_same _ _ _ h, word_toNat _ (splice_lt _ _ _ _ _ hl hh (reg s a).isLt), slice_splice_same _ _ _ _ hl]

theorem getF_setF_other (s : State) (a hi lo v hi' lo' : Nat) (h : rising s.regs) (hl : lo ≤ hi) (hh : hi < 36) (hl' : lo' ≤ hi')
    (d : hi < lo' ∨ hi' < lo) : getF (setF s a hi lo v) a hi' lo' = getF s a hi' lo' := by
  rw [getF, setF, reg_setReg_same _ _ _ h, word_toNat _ (splice_lt _ _ _ _ _ hl hh (reg s a).isLt),
    slice_splice_other _ _ _ _ _ _ hl hl' d, getF]

theorem getF_setF_ne (s : State) (a hi lo v b hi' lo' : Nat) (h : rising s.regs) (hb : b ≠ a) :
    getF (setF s a hi lo v) b hi' lo' = getF s b hi' lo' := by rw [getF, reg_setF_ne _ _ _ _ _ _ h hb, getF]

/-- A module's bit and counter writes differ from a plain field write in the tick log alone (R9). -/
theorem reg_setBit (s : State) (a b c : Nat) (v : Bool) : reg (setBit s a b v) c = reg (setF s a b b (if v then 1 else 0)) c := rfl

theorem reg_addSat (s : State) (a hi lo n c : Nat) :
    reg (addSat s a hi lo n) c = reg (setF s a hi lo (Nat.min (getF s a hi lo + n) (2 ^ (hi + 1 - lo) - 1))) c := rfl

theorem getF_setBit (s : State) (a b c hi lo : Nat) (v : Bool) :
    getF (setBit s a b v) c hi lo = getF (setF s a b b (if v then 1 else 0)) c hi lo := rfl

theorem bitOf_setBit_same (s : State) (a b : Nat) (v : Bool) (h : rising s.regs) (hb : b < 36) : bitOf (setBit s a b v) a b = v := by
  rw [bitOf, getF_setBit, getF_setF_same _ _ _ _ _ h (le_refl b) hb]
  cases v <;> simp

theorem bitOf_setBit_other (s : State) (a b c : Nat) (v : Bool) (h : rising s.regs) (hb : b < 36) (hc : c ≠ b) :
    bitOf (setBit s a b v) a c = bitOf s a c := by
  rw [bitOf, getF_setBit, getF_setF_other _ _ _ _ _ _ _ h (le_refl b) hb (le_refl c) (by omega), bitOf]

theorem reg_setBit_ne (s : State) (a b c : Nat) (v : Bool) (h : rising s.regs) (hc : c ≠ a) : reg (setBit s a b v) c = reg s c :=
  reg_setF_ne _ _ _ _ _ _ h hc

theorem reg_addSat_ne (s : State) (a hi lo n c : Nat) (h : rising s.regs) (hc : c ≠ a) : reg (addSat s a hi lo n) c = reg s c :=
  reg_setF_ne _ _ _ _ _ _ h hc

theorem setBit_rising (s : State) (a b : Nat) (v : Bool) (h : rising s.regs) : rising (setBit s a b v).regs := setReg_rising _ _ _ h

theorem addSat_rising (s : State) (a hi lo n : Nat) (h : rising s.regs) : rising (addSat s a hi lo n).regs := setReg_rising _ _ _ h

/-- A counter rises by its increment, to its highest value at most. -/
theorem getF_addSat (s : State) (a hi lo n : Nat) (h : rising s.regs) (hl : lo ≤ hi) (hh : hi < 36) :
    getF (addSat s a hi lo n) a hi lo = Nat.min (getF s a hi lo + n) (2 ^ (hi + 1 - lo) - 1) := by
  rw [getF, reg_addSat, ← getF, getF_setF_same _ _ _ _ _ h hl hh]
  exact Nat.mod_eq_of_lt (lt_of_le_of_lt (Nat.min_le_right _ _) (Nat.sub_lt (Nat.two_pow_pos _) Nat.one_pos))

/-! Raised faults (R571, R573). -/

section
variable (code detail : Nat) (s : State)

/-- What the log queue's part of a raise may write. -/
theorem logPush_frame : logPush code detail s =
    { s with
      regs := (logPush code detail s).regs, tk := (logPush code detail s).tk, logQ := (logPush code detail s).logQ, telem := (logPush code detail s).telem } := by
  unfold logPush
  split
  · rfl
  · split <;> rfl

theorem logPush_rising (h : rising s.regs) : rising (logPush code detail s).regs := by
  unfold logPush
  split
  · exact h
  · split
    · exact h
    · exact addSat_rising _ _ _ _ _ h

theorem logPush_reg (h : rising s.regs) (a : Nat) (ha : a ≠ midLog) : reg (logPush code detail s) a = reg s a := by
  unfold logPush
  split
  · rfl
  · split
    · rfl
    · exact reg_setF_ne _ _ _ _ _ _ h ha

theorem setLastF_rising (h : rising s.regs) : rising (setLastF code s).regs := setReg_rising _ _ _ h

/-- What a raise may write: the registers and the tick log, the second of the last fault, the log queue and telemetry's counters. -/
theorem raise_frame : raise code detail s =
    { s with
      regs := (raise code detail s).regs, tk := (raise code detail s).tk, lastFSec := s.time.sec, logQ := (raise code detail s).logQ
      telem := (raise code detail s).telem } := logPush_frame code detail (setLastF code s)

theorem raise_rising (h : rising s.regs) : rising (raise code detail s).regs :=
  logPush_rising _ _ _ (setLastF_rising _ _ h)

/-- A raise is no access. -/
theorem raise_touched : (raise code detail s).tk.touched = s.tk.touched := by
  unfold raise logPush
  split
  · rfl
  · split <;> rfl

/-- MID_LASTF holds the code. -/
theorem raise_lastF (h : rising s.regs) : reg (raise code detail s) midLastF = word code :=
  (logPush_reg _ _ _ (setLastF_rising _ _ h) _ (by decide)).trans (reg_setReg_same s midLastF (word code) h)

/-- Every register beside MID_LASTF and MID_LOG reads as before. -/
theorem raise_reg (h : rising s.regs) (a : Nat) (h1 : a ≠ midLastF) (h2 : a ≠ midLog) : reg (raise code detail s) a = reg s a :=
  (logPush_reg _ _ _ (setLastF_rising _ _ h) _ h2).trans (reg_setReg_ne s _ _ (word code) h h1)

end

end Sys2Proof.Machine
end

