-- ==== Sys2Proof/Laws/Faults.lean ====
section
/-! SUPPORT. Raised faults, trace records, breaches and late records, field by field: every field they leave alone (R149 to
R151, R387, R571 to R577). -/

namespace Sys2Proof.Machine

section
variable (code detail : Nat) (s : State)
@[simp] theorem raise_pending : (raise code detail s).pending = s.pending := (congrArg State.pending (raise_frame code detail s)).trans rfl
@[simp] theorem raise_now : (raise code detail s).now = s.now := (congrArg State.now (raise_frame code detail s)).trans rfl
@[simp] theorem raise_fresh : (raise code detail s).fresh = s.fresh := (congrArg State.fresh (raise_frame code detail s)).trans rfl
@[simp] theorem raise_out : (raise code detail s).out = s.out := (congrArg State.out (raise_frame code detail s)).trans rfl
@[simp] theorem raise_mst : (raise code detail s).mst = s.mst := (congrArg State.mst (raise_frame code detail s)).trans rfl
@[simp] theorem raise_mlast : (raise code detail s).mlast = s.mlast := (congrArg State.mlast (raise_frame code detail s)).trans rfl
@[simp] theorem raise_stopReq : (raise code detail s).stopReq = s.stopReq := (congrArg State.stopReq (raise_frame code detail s)).trans rfl
@[simp] theorem raise_stopActivate : (raise code detail s).stopActivate = s.stopActivate := (congrArg State.stopActivate (raise_frame code detail s)).trans rfl
@[simp] theorem raise_armReq : (raise code detail s).armReq = s.armReq := (congrArg State.armReq (raise_frame code detail s)).trans rfl
@[simp] theorem raise_waiters : (raise code detail s).waiters = s.waiters := (congrArg State.waiters (raise_frame code detail s)).trans rfl
@[simp] theorem raise_owed : (raise code detail s).owed = s.owed := (congrArg State.owed (raise_frame code detail s)).trans rfl
@[simp] theorem raise_ends : (raise code detail s).ends = s.ends := (congrArg State.ends (raise_frame code detail s)).trans rfl
@[simp] theorem raise_latch : (raise code detail s).latch = s.latch := (congrArg State.latch (raise_frame code detail s)).trans rfl
@[simp] theorem raise_mem : (raise code detail s).mem = s.mem := (congrArg State.mem (raise_frame code detail s)).trans rfl
@[simp] theorem raise_chk : (raise code detail s).chk = s.chk := (congrArg State.chk (raise_frame code detail s)).trans rfl
@[simp] theorem raise_ts : (raise code detail s).ts = s.ts := (congrArg State.ts (raise_frame code detail s)).trans rfl
@[simp] theorem raise_tsRepairs : (raise code detail s).tsRepairs = s.tsRepairs := (congrArg State.tsRepairs (raise_frame code detail s)).trans rfl
@[simp] theorem raise_tsSplit : (raise code detail s).tsSplit = s.tsSplit := (congrArg State.tsSplit (raise_frame code detail s)).trans rfl
@[simp] theorem raise_priv : (raise code detail s).priv = s.priv := (congrArg State.priv (raise_frame code detail s)).trans rfl
@[simp] theorem raise_eng : (raise code detail s).eng = s.eng := (congrArg State.eng (raise_frame code detail s)).trans rfl
@[simp] theorem raise_sup : (raise code detail s).sup = s.sup := (congrArg State.sup (raise_frame code detail s)).trans rfl
@[simp] theorem raise_pairs : (raise code detail s).pairs = s.pairs := (congrArg State.pairs (raise_frame code detail s)).trans rfl
@[simp] theorem raise_reqs : (raise code detail s).reqs = s.reqs := (congrArg State.reqs (raise_frame code detail s)).trans rfl
@[simp] theorem raise_served : (raise code detail s).served = s.served := (congrArg State.served (raise_frame code detail s)).trans rfl
@[simp] theorem raise_mirrors : (raise code detail s).mirrors = s.mirrors := (congrArg State.mirrors (raise_frame code detail s)).trans rfl
@[simp] theorem raise_bindings : (raise code detail s).bindings = s.bindings := (congrArg State.bindings (raise_frame code detail s)).trans rfl
@[simp] theorem raise_arrivals : (raise code detail s).arrivals = s.arrivals := (congrArg State.arrivals (raise_frame code detail s)).trans rfl
@[simp] theorem raise_late : (raise code detail s).late = s.late := (congrArg State.late (raise_frame code detail s)).trans rfl
@[simp] theorem raise_ovr : (raise code detail s).ovr = s.ovr := (congrArg State.ovr (raise_frame code detail s)).trans rfl
@[simp] theorem raise_mism : (raise code detail s).mism = s.mism := (congrArg State.mism (raise_frame code detail s)).trans rfl
@[simp] theorem raise_viol : (raise code detail s).viol = s.viol := (congrArg State.viol (raise_frame code detail s)).trans rfl
@[simp] theorem raise_violSeq : (raise code detail s).violSeq = s.violSeq := (congrArg State.violSeq (raise_frame code detail s)).trans rfl
@[simp] theorem raise_violMasters : (raise code detail s).violMasters = s.violMasters := (congrArg State.violMasters (raise_frame code detail s)).trans rfl
@[simp] theorem raise_speeds : (raise code detail s).speeds = s.speeds := (congrArg State.speeds (raise_frame code detail s)).trans rfl
@[simp] theorem raise_dayMin : (raise code detail s).dayMin = s.dayMin := (congrArg State.dayMin (raise_frame code detail s)).trans rfl
@[simp] theorem raise_dayMinEng : (raise code detail s).dayMinEng = s.dayMinEng := (congrArg State.dayMinEng (raise_frame code detail s)).trans rfl
@[simp] theorem raise_day : (raise code detail s).day = s.day := (congrArg State.day (raise_frame code detail s)).trans rfl
@[simp] theorem raise_ports : (raise code detail s).ports = s.ports := (congrArg State.ports (raise_frame code detail s)).trans rfl
@[simp] theorem raise_time : (raise code detail s).time = s.time := (congrArg State.time (raise_frame code detail s)).trans rfl
@[simp] theorem raise_link : (raise code detail s).link = s.link := (congrArg State.link (raise_frame code detail s)).trans rfl
@[simp] theorem raise_nwt : (raise code detail s).nwt = s.nwt := (congrArg State.nwt (raise_frame code detail s)).trans rfl
@[simp] theorem raise_saf : (raise code detail s).saf = s.saf := (congrArg State.saf (raise_frame code detail s)).trans rfl
@[simp] theorem raise_lio : (raise code detail s).lio = s.lio := (congrArg State.lio (raise_frame code detail s)).trans rfl
@[simp] theorem raise_fpd : (raise code detail s).fpd = s.fpd := (congrArg State.fpd (raise_frame code detail s)).trans rfl
@[simp] theorem raise_pwr : (raise code detail s).pwr = s.pwr := (congrArg State.pwr (raise_frame code detail s)).trans rfl
@[simp] theorem raise_sig : (raise code detail s).sig = s.sig := (congrArg State.sig (raise_frame code detail s)).trans rfl
@[simp] theorem raise_c37 : (raise code detail s).c37 = s.c37 := (congrArg State.c37 (raise_frame code detail s)).trans rfl
@[simp] theorem raise_boot : (raise code detail s).boot = s.boot := (congrArg State.boot (raise_frame code detail s)).trans rfl
@[simp] theorem raise_net : (raise code detail s).net = s.net := (congrArg State.net (raise_frame code detail s)).trans rfl
@[simp] theorem raise_sess : (raise code detail s).sess = s.sess := (congrArg State.sess (raise_frame code detail s)).trans rfl
@[simp] theorem raise_hostQ : (raise code detail s).hostQ = s.hostQ := (congrArg State.hostQ (raise_frame code detail s)).trans rfl
@[simp] theorem raise_vault : (raise code detail s).vault = s.vault := (congrArg State.vault (raise_frame code detail s)).trans rfl
@[simp] theorem raise_rng : (raise code detail s).rng = s.rng := (congrArg State.rng (raise_frame code detail s)).trans rfl
@[simp] theorem raise_grant : (raise code detail s).grant = s.grant := (congrArg State.grant (raise_frame code detail s)).trans rfl
@[simp] theorem raise_log : (raise code detail s).log = s.log := (congrArg State.log (raise_frame code detail s)).trans rfl
@[simp] theorem raise_trace : (raise code detail s).trace = s.trace := (congrArg State.trace (raise_frame code detail s)).trans rfl
@[simp] theorem raise_lastFSec : (raise code detail s).lastFSec = s.time.sec := (congrArg State.lastFSec (raise_frame code detail s)).trans rfl
end

section
variable (reason : Nat) (s : State)
/-- What it may write. -/
theorem abandonCheckpoint_frame : abandonCheckpoint reason s =
    { s with
      out := (abandonCheckpoint reason s).out
      link := (abandonCheckpoint reason s).link } := by
  unfold abandonCheckpoint
  split
  · simp only; split <;> rfl
  · rfl
@[simp] theorem abandonCheckpoint_pending : (abandonCheckpoint reason s).pending = s.pending := (congrArg State.pending (abandonCheckpoint_frame reason s)).trans rfl
@[simp] theorem abandonCheckpoint_now : (abandonCheckpoint reason s).now = s.now := (congrArg State.now (abandonCheckpoint_frame reason s)).trans rfl
@[simp] theorem abandonCheckpoint_fresh : (abandonCheckpoint reason s).fresh = s.fresh := (congrArg State.fresh (abandonCheckpoint_frame reason s)).trans rfl
@[simp] theorem abandonCheckpoint_mst : (abandonCheckpoint reason s).mst = s.mst := (congrArg State.mst (abandonCheckpoint_frame reason s)).trans rfl
@[simp] theorem abandonCheckpoint_mlast : (abandonCheckpoint reason s).mlast = s.mlast := (congrArg State.mlast (abandonCheckpoint_frame reason s)).trans rfl
@[simp] theorem abandonCheckpoint_stopReq : (abandonCheckpoint reason s).stopReq = s.stopReq := (congrArg State.stopReq (abandonCheckpoint_frame reason s)).trans rfl
@[simp] theorem abandonCheckpoint_stopActivate : (abandonCheckpoint reason s).stopActivate = s.stopActivate := (congrArg State.stopActivate (abandonCheckpoint_frame reason s)).trans rfl
@[simp] theorem abandonCheckpoint_armReq : (abandonCheckpoint reason s).armReq = s.armReq := (congrArg State.armReq (abandonCheckpoint_frame reason s)).trans rfl
@[simp] theorem abandonCheckpoint_regs : (abandonCheckpoint reason s).regs = s.regs := (congrArg State.regs (abandonCheckpoint_frame reason s)).trans rfl
@[simp] theorem abandonCheckpoint_tk : (abandonCheckpoint reason s).tk = s.tk := (congrArg State.tk (abandonCheckpoint_frame reason s)).trans rfl
@[simp] theorem abandonCheckpoint_waiters : (abandonCheckpoint reason s).waiters = s.waiters := (congrArg State.waiters (abandonCheckpoint_frame reason s)).trans rfl
@[simp] theorem abandonCheckpoint_owed : (abandonCheckpoint reason s).owed = s.owed := (congrArg State.owed (abandonCheckpoint_frame reason s)).trans rfl
@[simp] theorem abandonCheckpoint_ends : (abandonCheckpoint reason s).ends = s.ends := (congrArg State.ends (abandonCheckpoint_frame reason s)).trans rfl
@[simp] theorem abandonCheckpoint_latch : (abandonCheckpoint reason s).latch = s.latch := (congrArg State.latch (abandonCheckpoint_frame reason s)).trans rfl
@[simp] theorem abandonCheckpoint_mem : (abandonCheckpoint reason s).mem = s.mem := (congrArg State.mem (abandonCheckpoint_frame reason s)).trans rfl
@[simp] theorem abandonCheckpoint_chk : (abandonCheckpoint reason s).chk = s.chk := (congrArg State.chk (abandonCheckpoint_frame reason s)).trans rfl
@[simp] theorem abandonCheckpoint_ts : (abandonCheckpoint reason s).ts = s.ts := (congrArg State.ts (abandonCheckpoint_frame reason s)).trans rfl
@[simp] theorem abandonCheckpoint_tsRepairs : (abandonCheckpoint reason s).tsRepairs = s.tsRepairs := (congrArg State.tsRepairs (abandonCheckpoint_frame reason s)).trans rfl
@[simp] theorem abandonCheckpoint_tsSplit : (abandonCheckpoint reason s).tsSplit = s.tsSplit := (congrArg State.tsSplit (abandonCheckpoint_frame reason s)).trans rfl
@[simp] theorem abandonCheckpoint_priv : (abandonCheckpoint reason s).priv = s.priv := (congrArg State.priv (abandonCheckpoint_frame reason s)).trans rfl
@[simp] theorem abandonCheckpoint_eng : (abandonCheckpoint reason s).eng = s.eng := (congrArg State.eng (abandonCheckpoint_frame reason s)).trans rfl
@[simp] theorem abandonCheckpoint_sup : (abandonCheckpoint reason s).sup = s.sup := (congrArg State.sup (abandonCheckpoint_frame reason s)).trans rfl
@[simp] theorem abandonCheckpoint_pairs : (abandonCheckpoint reason s).pairs = s.pairs := (congrArg State.pairs (abandonCheckpoint_frame reason s)).trans rfl
@[simp] theorem abandonCheckpoint_reqs : (abandonCheckpoint reason s).reqs = s.reqs := (congrArg State.reqs (abandonCheckpoint_frame reason s)).trans rfl
@[simp] theorem abandonCheckpoint_served : (abandonCheckpoint reason s).served = s.served := (congrArg State.served (abandonCheckpoint_frame reason s)).trans rfl
@[simp] theorem abandonCheckpoint_mirrors : (abandonCheckpoint reason s).mirrors = s.mirrors := (congrArg State.mirrors (abandonCheckpoint_frame reason s)).trans rfl
@[simp] theorem abandonCheckpoint_bindings : (abandonCheckpoint reason s).bindings = s.bindings := (congrArg State.bindings (abandonCheckpoint_frame reason s)).trans rfl
@[simp] theorem abandonCheckpoint_arrivals : (abandonCheckpoint reason s).arrivals = s.arrivals := (congrArg State.arrivals (abandonCheckpoint_frame reason s)).trans rfl
@[simp] theorem abandonCheckpoint_late : (abandonCheckpoint reason s).late = s.late := (congrArg State.late (abandonCheckpoint_frame reason s)).trans rfl
@[simp] theorem abandonCheckpoint_ovr : (abandonCheckpoint reason s).ovr = s.ovr := (congrArg State.ovr (abandonCheckpoint_frame reason s)).trans rfl
@[simp] theorem abandonCheckpoint_mism : (abandonCheckpoint reason s).mism = s.mism := (congrArg State.mism (abandonCheckpoint_frame reason s)).trans rfl
@[simp] theorem abandonCheckpoint_viol : (abandonCheckpoint reason s).viol = s.viol := (congrArg State.viol (abandonCheckpoint_frame reason s)).trans rfl
@[simp] theorem abandonCheckpoint_violSeq : (abandonCheckpoint reason s).violSeq = s.violSeq := (congrArg State.violSeq (abandonCheckpoint_frame reason s)).trans rfl
@[simp] theorem abandonCheckpoint_violMasters : (abandonCheckpoint reason s).violMasters = s.violMasters := (congrArg State.violMasters (abandonCheckpoint_frame reason s)).trans rfl
@[simp] theorem abandonCheckpoint_speeds : (abandonCheckpoint reason s).speeds = s.speeds := (congrArg State.speeds (abandonCheckpoint_frame reason s)).trans rfl
@[simp] theorem abandonCheckpoint_dayMin : (abandonCheckpoint reason s).dayMin = s.dayMin := (congrArg State.dayMin (abandonCheckpoint_frame reason s)).trans rfl
@[simp] theorem abandonCheckpoint_dayMinEng : (abandonCheckpoint reason s).dayMinEng = s.dayMinEng := (congrArg State.dayMinEng (abandonCheckpoint_frame reason s)).trans rfl
@[simp] theorem abandonCheckpoint_day : (abandonCheckpoint reason s).day = s.day := (congrArg State.day (abandonCheckpoint_frame reason s)).trans rfl
@[simp] theorem abandonCheckpoint_ports : (abandonCheckpoint reason s).ports = s.ports := (congrArg State.ports (abandonCheckpoint_frame reason s)).trans rfl
@[simp] theorem abandonCheckpoint_time : (abandonCheckpoint reason s).time = s.time := (congrArg State.time (abandonCheckpoint_frame reason s)).trans rfl
@[simp] theorem abandonCheckpoint_nwt : (abandonCheckpoint reason s).nwt = s.nwt := (congrArg State.nwt (abandonCheckpoint_frame reason s)).trans rfl
@[simp] theorem abandonCheckpoint_saf : (abandonCheckpoint reason s).saf = s.saf := (congrArg State.saf (abandonCheckpoint_frame reason s)).trans rfl
@[simp] theorem abandonCheckpoint_lio : (abandonCheckpoint reason s).lio = s.lio := (congrArg State.lio (abandonCheckpoint_frame reason s)).trans rfl
@[simp] theorem abandonCheckpoint_fpd : (abandonCheckpoint reason s).fpd = s.fpd := (congrArg State.fpd (abandonCheckpoint_frame reason s)).trans rfl
@[simp] theorem abandonCheckpoint_pwr : (abandonCheckpoint reason s).pwr = s.pwr := (congrArg State.pwr (abandonCheckpoint_frame reason s)).trans rfl
@[simp] theorem abandonCheckpoint_sig : (abandonCheckpoint reason s).sig = s.sig := (congrArg State.sig (abandonCheckpoint_frame reason s)).trans rfl
@[simp] theorem abandonCheckpoint_c37 : (abandonCheckpoint reason s).c37 = s.c37 := (congrArg State.c37 (abandonCheckpoint_frame reason s)).trans rfl
@[simp] theorem abandonCheckpoint_boot : (abandonCheckpoint reason s).boot = s.boot := (congrArg State.boot (abandonCheckpoint_frame reason s)).trans rfl
@[simp] theorem abandonCheckpoint_net : (abandonCheckpoint reason s).net = s.net := (congrArg State.net (abandonCheckpoint_frame reason s)).trans rfl
@[simp] theorem abandonCheckpoint_sess : (abandonCheckpoint reason s).sess = s.sess := (congrArg State.sess (abandonCheckpoint_frame reason s)).trans rfl
@[simp] theorem abandonCheckpoint_hostQ : (abandonCheckpoint reason s).hostQ = s.hostQ := (congrArg State.hostQ (abandonCheckpoint_frame reason s)).trans rfl
@[simp] theorem abandonCheckpoint_vault : (abandonCheckpoint reason s).vault = s.vault := (congrArg State.vault (abandonCheckpoint_frame reason s)).trans rfl
@[simp] theorem abandonCheckpoint_rng : (abandonCheckpoint reason s).rng = s.rng := (congrArg State.rng (abandonCheckpoint_frame reason s)).trans rfl
@[simp] theorem abandonCheckpoint_grant : (abandonCheckpoint reason s).grant = s.grant := (congrArg State.grant (abandonCheckpoint_frame reason s)).trans rfl
@[simp] theorem abandonCheckpoint_lastFSec : (abandonCheckpoint reason s).lastFSec = s.lastFSec := (congrArg State.lastFSec (abandonCheckpoint_frame reason s)).trans rfl
@[simp] theorem abandonCheckpoint_logQ : (abandonCheckpoint reason s).logQ = s.logQ := (congrArg State.logQ (abandonCheckpoint_frame reason s)).trans rfl
@[simp] theorem abandonCheckpoint_log : (abandonCheckpoint reason s).log = s.log := (congrArg State.log (abandonCheckpoint_frame reason s)).trans rfl
@[simp] theorem abandonCheckpoint_telem : (abandonCheckpoint reason s).telem = s.telem := (congrArg State.telem (abandonCheckpoint_frame reason s)).trans rfl
@[simp] theorem abandonCheckpoint_trace : (abandonCheckpoint reason s).trace = s.trace := (congrArg State.trace (abandonCheckpoint_frame reason s)).trans rfl
end

section
variable  (s : State)
/-- What it may write. -/
theorem breach_frame : breach s =
    { s with
      day := (breach s).day } := by
  unfold breach; split <;> rfl
@[simp] theorem breach_pending : (breach s).pending = s.pending := (congrArg State.pending (breach_frame  s)).trans rfl
@[simp] theorem breach_now : (breach s).now = s.now := (congrArg State.now (breach_frame  s)).trans rfl
@[simp] theorem breach_fresh : (breach s).fresh = s.fresh := (congrArg State.fresh (breach_frame  s)).trans rfl
@[simp] theorem breach_out : (breach s).out = s.out := (congrArg State.out (breach_frame  s)).trans rfl
@[simp] theorem breach_mst : (breach s).mst = s.mst := (congrArg State.mst (breach_frame  s)).trans rfl
@[simp] theorem breach_mlast : (breach s).mlast = s.mlast := (congrArg State.mlast (breach_frame  s)).trans rfl
@[simp] theorem breach_stopReq : (breach s).stopReq = s.stopReq := (congrArg State.stopReq (breach_frame  s)).trans rfl
@[simp] theorem breach_stopActivate : (breach s).stopActivate = s.stopActivate := (congrArg State.stopActivate (breach_frame  s)).trans rfl
@[simp] theorem breach_armReq : (breach s).armReq = s.armReq := (congrArg State.armReq (breach_frame  s)).trans rfl
@[simp] theorem breach_regs : (breach s).regs = s.regs := (congrArg State.regs (breach_frame  s)).trans rfl
@[simp] theorem breach_tk : (breach s).tk = s.tk := (congrArg State.tk (breach_frame  s)).trans rfl
@[simp] theorem breach_waiters : (breach s).waiters = s.waiters := (congrArg State.waiters (breach_frame  s)).trans rfl
@[simp] theorem breach_owed : (breach s).owed = s.owed := (congrArg State.owed (breach_frame  s)).trans rfl
@[simp] theorem breach_ends : (breach s).ends = s.ends := (congrArg State.ends (breach_frame  s)).trans rfl
@[simp] theorem breach_latch : (breach s).latch = s.latch := (congrArg State.latch (breach_frame  s)).trans rfl
@[simp] theorem breach_mem : (breach s).mem = s.mem := (congrArg State.mem (breach_frame  s)).trans rfl
@[simp] theorem breach_chk : (breach s).chk = s.chk := (congrArg State.chk (breach_frame  s)).trans rfl
@[simp] theorem breach_ts : (breach s).ts = s.ts := (congrArg State.ts (breach_frame  s)).trans rfl
@[simp] theorem breach_tsRepairs : (breach s).tsRepairs = s.tsRepairs := (congrArg State.tsRepairs (breach_frame  s)).trans rfl
@[simp] theorem breach_tsSplit : (breach s).tsSplit = s.tsSplit := (congrArg State.tsSplit (breach_frame  s)).trans rfl
@[simp] theorem breach_priv : (breach s).priv = s.priv := (congrArg State.priv (breach_frame  s)).trans rfl
@[simp] theorem breach_eng : (breach s).eng = s.eng := (congrArg State.eng (breach_frame  s)).trans rfl
@[simp] theorem breach_sup : (breach s).sup = s.sup := (congrArg State.sup (breach_frame  s)).trans rfl
@[simp] theorem breach_pairs : (breach s).pairs = s.pairs := (congrArg State.pairs (breach_frame  s)).trans rfl
@[simp] theorem breach_reqs : (breach s).reqs = s.reqs := (congrArg State.reqs (breach_frame  s)).trans rfl
@[simp] theorem breach_served : (breach s).served = s.served := (congrArg State.served (breach_frame  s)).trans rfl
@[simp] theorem breach_mirrors : (breach s).mirrors = s.mirrors := (congrArg State.mirrors (breach_frame  s)).trans rfl
@[simp] theorem breach_bindings : (breach s).bindings = s.bindings := (congrArg State.bindings (breach_frame  s)).trans rfl
@[simp] theorem breach_arrivals : (breach s).arrivals = s.arrivals := (congrArg State.arrivals (breach_frame  s)).trans rfl
@[simp] theorem breach_late : (breach s).late = s.late := (congrArg State.late (breach_frame  s)).trans rfl
@[simp] theorem breach_ovr : (breach s).ovr = s.ovr := (congrArg State.ovr (breach_frame  s)).trans rfl
@[simp] theorem breach_mism : (breach s).mism = s.mism := (congrArg State.mism (breach_frame  s)).trans rfl
@[simp] theorem breach_viol : (breach s).viol = s.viol := (congrArg State.viol (breach_frame  s)).trans rfl
@[simp] theorem breach_violSeq : (breach s).violSeq = s.violSeq := (congrArg State.violSeq (breach_frame  s)).trans rfl
@[simp] theorem breach_violMasters : (breach s).violMasters = s.violMasters := (congrArg State.violMasters (breach_frame  s)).trans rfl
@[simp] theorem breach_speeds : (breach s).speeds = s.speeds := (congrArg State.speeds (breach_frame  s)).trans rfl
@[simp] theorem breach_dayMin : (breach s).dayMin = s.dayMin := (congrArg State.dayMin (breach_frame  s)).trans rfl
@[simp] theorem breach_dayMinEng : (breach s).dayMinEng = s.dayMinEng := (congrArg State.dayMinEng (breach_frame  s)).trans rfl
@[simp] theorem breach_ports : (breach s).ports = s.ports := (congrArg State.ports (breach_frame  s)).trans rfl
@[simp] theorem breach_time : (breach s).time = s.time := (congrArg State.time (breach_frame  s)).trans rfl
@[simp] theorem breach_link : (breach s).link = s.link := (congrArg State.link (breach_frame  s)).trans rfl
@[simp] theorem breach_nwt : (breach s).nwt = s.nwt := (congrArg State.nwt (breach_frame  s)).trans rfl
@[simp] theorem breach_saf : (breach s).saf = s.saf := (congrArg State.saf (breach_frame  s)).trans rfl
@[simp] theorem breach_lio : (breach s).lio = s.lio := (congrArg State.lio (breach_frame  s)).trans rfl
@[simp] theorem breach_fpd : (breach s).fpd = s.fpd := (congrArg State.fpd (breach_frame  s)).trans rfl
@[simp] theorem breach_pwr : (breach s).pwr = s.pwr := (congrArg State.pwr (breach_frame  s)).trans rfl
@[simp] theorem breach_sig : (breach s).sig = s.sig := (congrArg State.sig (breach_frame  s)).trans rfl
@[simp] theorem breach_c37 : (breach s).c37 = s.c37 := (congrArg State.c37 (breach_frame  s)).trans rfl
@[simp] theorem breach_boot : (breach s).boot = s.boot := (congrArg State.boot (breach_frame  s)).trans rfl
@[simp] theorem breach_net : (breach s).net = s.net := (congrArg State.net (breach_frame  s)).trans rfl
@[simp] theorem breach_sess : (breach s).sess = s.sess := (congrArg State.sess (breach_frame  s)).trans rfl
@[simp] theorem breach_hostQ : (breach s).hostQ = s.hostQ := (congrArg State.hostQ (breach_frame  s)).trans rfl
@[simp] theorem breach_vault : (breach s).vault = s.vault := (congrArg State.vault (breach_frame  s)).trans rfl
@[simp] theorem breach_rng : (breach s).rng = s.rng := (congrArg State.rng (breach_frame  s)).trans rfl
@[simp] theorem breach_grant : (breach s).grant = s.grant := (congrArg State.grant (breach_frame  s)).trans rfl
@[simp] theorem breach_lastFSec : (breach s).lastFSec = s.lastFSec := (congrArg State.lastFSec (breach_frame  s)).trans rfl
@[simp] theorem breach_logQ : (breach s).logQ = s.logQ := (congrArg State.logQ (breach_frame  s)).trans rfl
@[simp] theorem breach_log : (breach s).log = s.log := (congrArg State.log (breach_frame  s)).trans rfl
@[simp] theorem breach_telem : (breach s).telem = s.telem := (congrArg State.telem (breach_frame  s)).trans rfl
@[simp] theorem breach_trace : (breach s).trace = s.trace := (congrArg State.trace (breach_frame  s)).trans rfl
end

section
variable (ty kind master value pos : Nat) (s : State)
/-- What it may write. -/
theorem traceRec_frame : traceRec ty kind master value pos s =
    { s with
      trace := (traceRec ty kind master value pos s).trace
      regs := (traceRec ty kind master value pos s).regs
      tk := (traceRec ty kind master value pos s).tk } := by
  unfold traceRec; split <;> rfl
@[simp] theorem traceRec_pending : (traceRec ty kind master value pos s).pending = s.pending := (congrArg State.pending (traceRec_frame ty kind master value pos s)).trans rfl
@[simp] theorem traceRec_now : (traceRec ty kind master value pos s).now = s.now := (congrArg State.now (traceRec_frame ty kind master value pos s)).trans rfl
@[simp] theorem traceRec_fresh : (traceRec ty kind master value pos s).fresh = s.fresh := (congrArg State.fresh (traceRec_frame ty kind master value pos s)).trans rfl
@[simp] theorem traceRec_out : (traceRec ty kind master value pos s).out = s.out := (congrArg State.out (traceRec_frame ty kind master value pos s)).trans rfl
@[simp] theorem traceRec_mst : (traceRec ty kind master value pos s).mst = s.mst := (congrArg State.mst (traceRec_frame ty kind master value pos s)).trans rfl
@[simp] theorem traceRec_mlast : (traceRec ty kind master value pos s).mlast = s.mlast := (congrArg State.mlast (traceRec_frame ty kind master value pos s)).trans rfl
@[simp] theorem traceRec_stopReq : (traceRec ty kind master value pos s).stopReq = s.stopReq := (congrArg State.stopReq (traceRec_frame ty kind master value pos s)).trans rfl
@[simp] theorem traceRec_stopActivate : (traceRec ty kind master value pos s).stopActivate = s.stopActivate := (congrArg State.stopActivate (traceRec_frame ty kind master value pos s)).trans rfl
@[simp] theorem traceRec_armReq : (traceRec ty kind master value pos s).armReq = s.armReq := (congrArg State.armReq (traceRec_frame ty kind master value pos s)).trans rfl
@[simp] theorem traceRec_waiters : (traceRec ty kind master value pos s).waiters = s.waiters := (congrArg State.waiters (traceRec_frame ty kind master value pos s)).trans rfl
@[simp] theorem traceRec_owed : (traceRec ty kind master value pos s).owed = s.owed := (congrArg State.owed (traceRec_frame ty kind master value pos s)).trans rfl
@[simp] theorem traceRec_ends : (traceRec ty kind master value pos s).ends = s.ends := (congrArg State.ends (traceRec_frame ty kind master value pos s)).trans rfl
@[simp] theorem traceRec_latch : (traceRec ty kind master value pos s).latch = s.latch := (congrArg State.latch (traceRec_frame ty kind master value pos s)).trans rfl
@[simp] theorem traceRec_mem : (traceRec ty kind master value pos s).mem = s.mem := (congrArg State.mem (traceRec_frame ty kind master value pos s)).trans rfl
@[simp] theorem traceRec_chk : (traceRec ty kind master value pos s).chk = s.chk := (congrArg State.chk (traceRec_frame ty kind master value pos s)).trans rfl
@[simp] theorem traceRec_ts : (traceRec ty kind master value pos s).ts = s.ts := (congrArg State.ts (traceRec_frame ty kind master value pos s)).trans rfl
@[simp] theorem traceRec_tsRepairs : (traceRec ty kind master value pos s).tsRepairs = s.tsRepairs := (congrArg State.tsRepairs (traceRec_frame ty kind master value pos s)).trans rfl
@[simp] theorem traceRec_tsSplit : (traceRec ty kind master value pos s).tsSplit = s.tsSplit := (congrArg State.tsSplit (traceRec_frame ty kind master value pos s)).trans rfl
@[simp] theorem traceRec_priv : (traceRec ty kind master value pos s).priv = s.priv := (congrArg State.priv (traceRec_frame ty kind master value pos s)).trans rfl
@[simp] theorem traceRec_eng : (traceRec ty kind master value pos s).eng = s.eng := (congrArg State.eng (traceRec_frame ty kind master value pos s)).trans rfl
@[simp] theorem traceRec_sup : (traceRec ty kind master value pos s).sup = s.sup := (congrArg State.sup (traceRec_frame ty kind master value pos s)).trans rfl
@[simp] theorem traceRec_pairs : (traceRec ty kind master value pos s).pairs = s.pairs := (congrArg State.pairs (traceRec_frame ty kind master value pos s)).trans rfl
@[simp] theorem traceRec_reqs : (traceRec ty kind master value pos s).reqs = s.reqs := (congrArg State.reqs (traceRec_frame ty kind master value pos s)).trans rfl
@[simp] theorem traceRec_served : (traceRec ty kind master value pos s).served = s.served := (congrArg State.served (traceRec_frame ty kind master value pos s)).trans rfl
@[simp] theorem traceRec_mirrors : (traceRec ty kind master value pos s).mirrors = s.mirrors := (congrArg State.mirrors (traceRec_frame ty kind master value pos s)).trans rfl
@[simp] theorem traceRec_bindings : (traceRec ty kind master value pos s).bindings = s.bindings := (congrArg State.bindings (traceRec_frame ty kind master value pos s)).trans rfl
@[simp] theorem traceRec_arrivals : (traceRec ty kind master value pos s).arrivals = s.arrivals := (congrArg State.arrivals (traceRec_frame ty kind master value pos s)).trans rfl
@[simp] theorem traceRec_late : (traceRec ty kind master value pos s).late = s.late := (congrArg State.late (traceRec_frame ty kind master value pos s)).trans rfl
@[simp] theorem traceRec_ovr : (traceRec ty kind master value pos s).ovr = s.ovr := (congrArg State.ovr (traceRec_frame ty kind master value pos s)).trans rfl
@[simp] theorem traceRec_mism : (traceRec ty kind master value pos s).mism = s.mism := (congrArg State.mism (traceRec_frame ty kind master value pos s)).trans rfl
@[simp] theorem traceRec_viol : (traceRec ty kind master value pos s).viol = s.viol := (congrArg State.viol (traceRec_frame ty kind master value pos s)).trans rfl
@[simp] theorem traceRec_violSeq : (traceRec ty kind master value pos s).violSeq = s.violSeq := (congrArg State.violSeq (traceRec_frame ty kind master value pos s)).trans rfl
@[simp] theorem traceRec_violMasters : (traceRec ty kind master value pos s).violMasters = s.violMasters := (congrArg State.violMasters (traceRec_frame ty kind master value pos s)).trans rfl
@[simp] theorem traceRec_speeds : (traceRec ty kind master value pos s).speeds = s.speeds := (congrArg State.speeds (traceRec_frame ty kind master value pos s)).trans rfl
@[simp] theorem traceRec_dayMin : (traceRec ty kind master value pos s).dayMin = s.dayMin := (congrArg State.dayMin (traceRec_frame ty kind master value pos s)).trans rfl
@[simp] theorem traceRec_dayMinEng : (traceRec ty kind master value pos s).dayMinEng = s.dayMinEng := (congrArg State.dayMinEng (traceRec_frame ty kind master value pos s)).trans rfl
@[simp] theorem traceRec_day : (traceRec ty kind master value pos s).day = s.day := (congrArg State.day (traceRec_frame ty kind master value pos s)).trans rfl
@[simp] theorem traceRec_ports : (traceRec ty kind master value pos s).ports = s.ports := (congrArg State.ports (traceRec_frame ty kind master value pos s)).trans rfl
@[simp] theorem traceRec_time : (traceRec ty kind master value pos s).time = s.time := (congrArg State.time (traceRec_frame ty kind master value pos s)).trans rfl
@[simp] theorem traceRec_link : (traceRec ty kind master value pos s).link = s.link := (congrArg State.link (traceRec_frame ty kind master value pos s)).trans rfl
@[simp] theorem traceRec_nwt : (traceRec ty kind master value pos s).nwt = s.nwt := (congrArg State.nwt (traceRec_frame ty kind master value pos s)).trans rfl
@[simp] theorem traceRec_saf : (traceRec ty kind master value pos s).saf = s.saf := (congrArg State.saf (traceRec_frame ty kind master value pos s)).trans rfl
@[simp] theorem traceRec_lio : (traceRec ty kind master value pos s).lio = s.lio := (congrArg State.lio (traceRec_frame ty kind master value pos s)).trans rfl
@[simp] theorem traceRec_fpd : (traceRec ty kind master value pos s).fpd = s.fpd := (congrArg State.fpd (traceRec_frame ty kind master value pos s)).trans rfl
@[simp] theorem traceRec_pwr : (traceRec ty kind master value pos s).pwr = s.pwr := (congrArg State.pwr (traceRec_frame ty kind master value pos s)).trans rfl
@[simp] theorem traceRec_sig : (traceRec ty kind master value pos s).sig = s.sig := (congrArg State.sig (traceRec_frame ty kind master value pos s)).trans rfl
@[simp] theorem traceRec_c37 : (traceRec ty kind master value pos s).c37 = s.c37 := (congrArg State.c37 (traceRec_frame ty kind master value pos s)).trans rfl
@[simp] theorem traceRec_boot : (traceRec ty kind master value pos s).boot = s.boot := (congrArg State.boot (traceRec_frame ty kind master value pos s)).trans rfl
@[simp] theorem traceRec_net : (traceRec ty kind master value pos s).net = s.net := (congrArg State.net (traceRec_frame ty kind master value pos s)).trans rfl
@[simp] theorem traceRec_sess : (traceRec ty kind master value pos s).sess = s.sess := (congrArg State.sess (traceRec_frame ty kind master value pos s)).trans rfl
@[simp] theorem traceRec_hostQ : (traceRec ty kind master value pos s).hostQ = s.hostQ := (congrArg State.hostQ (traceRec_frame ty kind master value pos s)).trans rfl
@[simp] theorem traceRec_vault : (traceRec ty kind master value pos s).vault = s.vault := (congrArg State.vault (traceRec_frame ty kind master value pos s)).trans rfl
@[simp] theorem traceRec_rng : (traceRec ty kind master value pos s).rng = s.rng := (congrArg State.rng (traceRec_frame ty kind master value pos s)).trans rfl
@[simp] theorem traceRec_grant : (traceRec ty kind master value pos s).grant = s.grant := (congrArg State.grant (traceRec_frame ty kind master value pos s)).trans rfl
@[simp] theorem traceRec_lastFSec : (traceRec ty kind master value pos s).lastFSec = s.lastFSec := (congrArg State.lastFSec (traceRec_frame ty kind master value pos s)).trans rfl
@[simp] theorem traceRec_logQ : (traceRec ty kind master value pos s).logQ = s.logQ := (congrArg State.logQ (traceRec_frame ty kind master value pos s)).trans rfl
@[simp] theorem traceRec_log : (traceRec ty kind master value pos s).log = s.log := (congrArg State.log (traceRec_frame ty kind master value pos s)).trans rfl
@[simp] theorem traceRec_telem : (traceRec ty kind master value pos s).telem = s.telem := (congrArg State.telem (traceRec_frame ty kind master value pos s)).trans rfl
end

section
variable (e ty kind value pos : Nat) (s : State)
/-- What it may write. -/
theorem traceEngine_frame : traceEngine e ty kind value pos s =
    { s with
      trace := (traceEngine e ty kind value pos s).trace
      regs := (traceEngine e ty kind value pos s).regs
      tk := (traceEngine e ty kind value pos s).tk } := by
  unfold traceEngine
  split
  · rw [traceRec_frame]
  · rfl
@[simp] theorem traceEngine_pending : (traceEngine e ty kind value pos s).pending = s.pending := (congrArg State.pending (traceEngine_frame e ty kind value pos s)).trans rfl
@[simp] theorem traceEngine_now : (traceEngine e ty kind value pos s).now = s.now := (congrArg State.now (traceEngine_frame e ty kind value pos s)).trans rfl
@[simp] theorem traceEngine_fresh : (traceEngine e ty kind value pos s).fresh = s.fresh := (congrArg State.fresh (traceEngine_frame e ty kind value pos s)).trans rfl
@[simp] theorem traceEngine_out : (traceEngine e ty kind value pos s).out = s.out := (congrArg State.out (traceEngine_frame e ty kind value pos s)).trans rfl
@[simp] theorem traceEngine_mst : (traceEngine e ty kind value pos s).mst = s.mst := (congrArg State.mst (traceEngine_frame e ty kind value pos s)).trans rfl
@[simp] theorem traceEngine_mlast : (traceEngine e ty kind value pos s).mlast = s.mlast := (congrArg State.mlast (traceEngine_frame e ty kind value pos s)).trans rfl
@[simp] theorem traceEngine_stopReq : (traceEngine e ty kind value pos s).stopReq = s.stopReq := (congrArg State.stopReq (traceEngine_frame e ty kind value pos s)).trans rfl
@[simp] theorem traceEngine_stopActivate : (traceEngine e ty kind value pos s).stopActivate = s.stopActivate := (congrArg State.stopActivate (traceEngine_frame e ty kind value pos s)).trans rfl
@[simp] theorem traceEngine_armReq : (traceEngine e ty kind value pos s).armReq = s.armReq := (congrArg State.armReq (traceEngine_frame e ty kind value pos s)).trans rfl
@[simp] theorem traceEngine_waiters : (traceEngine e ty kind value pos s).waiters = s.waiters := (congrArg State.waiters (traceEngine_frame e ty kind value pos s)).trans rfl
@[simp] theorem traceEngine_owed : (traceEngine e ty kind value pos s).owed = s.owed := (congrArg State.owed (traceEngine_frame e ty kind value pos s)).trans rfl
@[simp] theorem traceEngine_ends : (traceEngine e ty kind value pos s).ends = s.ends := (congrArg State.ends (traceEngine_frame e ty kind value pos s)).trans rfl
@[simp] theorem traceEngine_latch : (traceEngine e ty kind value pos s).latch = s.latch := (congrArg State.latch (traceEngine_frame e ty kind value pos s)).trans rfl
@[simp] theorem traceEngine_mem : (traceEngine e ty kind value pos s).mem = s.mem := (congrArg State.mem (traceEngine_frame e ty kind value pos s)).trans rfl
@[simp] theorem traceEngine_chk : (traceEngine e ty kind value pos s).chk = s.chk := (congrArg State.chk (traceEngine_frame e ty kind value pos s)).trans rfl
@[simp] theorem traceEngine_ts : (traceEngine e ty kind value pos s).ts = s.ts := (congrArg State.ts (traceEngine_frame e ty kind value pos s)).trans rfl
@[simp] theorem traceEngine_tsRepairs : (traceEngine e ty kind value pos s).tsRepairs = s.tsRepairs := (congrArg State.tsRepairs (traceEngine_frame e ty kind value pos s)).trans rfl
@[simp] theorem traceEngine_tsSplit : (traceEngine e ty kind value pos s).tsSplit = s.tsSplit := (congrArg State.tsSplit (traceEngine_frame e ty kind value pos s)).trans rfl
@[simp] theorem traceEngine_priv : (traceEngine e ty kind value pos s).priv = s.priv := (congrArg State.priv (traceEngine_frame e ty kind value pos s)).trans rfl
@[simp] theorem traceEngine_eng : (traceEngine e ty kind value pos s).eng = s.eng := (congrArg State.eng (traceEngine_frame e ty kind value pos s)).trans rfl
@[simp] theorem traceEngine_sup : (traceEngine e ty kind value pos s).sup = s.sup := (congrArg State.sup (traceEngine_frame e ty kind value pos s)).trans rfl
@[simp] theorem traceEngine_pairs : (traceEngine e ty kind value pos s).pairs = s.pairs := (congrArg State.pairs (traceEngine_frame e ty kind value pos s)).trans rfl
@[simp] theorem traceEngine_reqs : (traceEngine e ty kind value pos s).reqs = s.reqs := (congrArg State.reqs (traceEngine_frame e ty kind value pos s)).trans rfl
@[simp] theorem traceEngine_served : (traceEngine e ty kind value pos s).served = s.served := (congrArg State.served (traceEngine_frame e ty kind value pos s)).trans rfl
@[simp] theorem traceEngine_mirrors : (traceEngine e ty kind value pos s).mirrors = s.mirrors := (congrArg State.mirrors (traceEngine_frame e ty kind value pos s)).trans rfl
@[simp] theorem traceEngine_bindings : (traceEngine e ty kind value pos s).bindings = s.bindings := (congrArg State.bindings (traceEngine_frame e ty kind value pos s)).trans rfl
@[simp] theorem traceEngine_arrivals : (traceEngine e ty kind value pos s).arrivals = s.arrivals := (congrArg State.arrivals (traceEngine_frame e ty kind value pos s)).trans rfl
@[simp] theorem traceEngine_late : (traceEngine e ty kind value pos s).late = s.late := (congrArg State.late (traceEngine_frame e ty kind value pos s)).trans rfl
@[simp] theorem traceEngine_ovr : (traceEngine e ty kind value pos s).ovr = s.ovr := (congrArg State.ovr (traceEngine_frame e ty kind value pos s)).trans rfl
@[simp] theorem traceEngine_mism : (traceEngine e ty kind value pos s).mism = s.mism := (congrArg State.mism (traceEngine_frame e ty kind value pos s)).trans rfl
@[simp] theorem traceEngine_viol : (traceEngine e ty kind value pos s).viol = s.viol := (congrArg State.viol (traceEngine_frame e ty kind value pos s)).trans rfl
@[simp] theorem traceEngine_violSeq : (traceEngine e ty kind value pos s).violSeq = s.violSeq := (congrArg State.violSeq (traceEngine_frame e ty kind value pos s)).trans rfl
@[simp] theorem traceEngine_violMasters : (traceEngine e ty kind value pos s).violMasters = s.violMasters := (congrArg State.violMasters (traceEngine_frame e ty kind value pos s)).trans rfl
@[simp] theorem traceEngine_speeds : (traceEngine e ty kind value pos s).speeds = s.speeds := (congrArg State.speeds (traceEngine_frame e ty kind value pos s)).trans rfl
@[simp] theorem traceEngine_dayMin : (traceEngine e ty kind value pos s).dayMin = s.dayMin := (congrArg State.dayMin (traceEngine_frame e ty kind value pos s)).trans rfl
@[simp] theorem traceEngine_dayMinEng : (traceEngine e ty kind value pos s).dayMinEng = s.dayMinEng := (congrArg State.dayMinEng (traceEngine_frame e ty kind value pos s)).trans rfl
@[simp] theorem traceEngine_day : (traceEngine e ty kind value pos s).day = s.day := (congrArg State.day (traceEngine_frame e ty kind value pos s)).trans rfl
@[simp] theorem traceEngine_ports : (traceEngine e ty kind value pos s).ports = s.ports := (congrArg State.ports (traceEngine_frame e ty kind value pos s)).trans rfl
@[simp] theorem traceEngine_time : (traceEngine e ty kind value pos s).time = s.time := (congrArg State.time (traceEngine_frame e ty kind value pos s)).trans rfl
@[simp] theorem traceEngine_link : (traceEngine e ty kind value pos s).link = s.link := (congrArg State.link (traceEngine_frame e ty kind value pos s)).trans rfl
@[simp] theorem traceEngine_nwt : (traceEngine e ty kind value pos s).nwt = s.nwt := (congrArg State.nwt (traceEngine_frame e ty kind value pos s)).trans rfl
@[simp] theorem traceEngine_saf : (traceEngine e ty kind value pos s).saf = s.saf := (congrArg State.saf (traceEngine_frame e ty kind value pos s)).trans rfl
@[simp] theorem traceEngine_lio : (traceEngine e ty kind value pos s).lio = s.lio := (congrArg State.lio (traceEngine_frame e ty kind value pos s)).trans rfl
@[simp] theorem traceEngine_fpd : (traceEngine e ty kind value pos s).fpd = s.fpd := (congrArg State.fpd (traceEngine_frame e ty kind value pos s)).trans rfl
@[simp] theorem traceEngine_pwr : (traceEngine e ty kind value pos s).pwr = s.pwr := (congrArg State.pwr (traceEngine_frame e ty kind value pos s)).trans rfl
@[simp] theorem traceEngine_sig : (traceEngine e ty kind value pos s).sig = s.sig := (congrArg State.sig (traceEngine_frame e ty kind value pos s)).trans rfl
@[simp] theorem traceEngine_c37 : (traceEngine e ty kind value pos s).c37 = s.c37 := (congrArg State.c37 (traceEngine_frame e ty kind value pos s)).trans rfl
@[simp] theorem traceEngine_boot : (traceEngine e ty kind value pos s).boot = s.boot := (congrArg State.boot (traceEngine_frame e ty kind value pos s)).trans rfl
@[simp] theorem traceEngine_net : (traceEngine e ty kind value pos s).net = s.net := (congrArg State.net (traceEngine_frame e ty kind value pos s)).trans rfl
@[simp] theorem traceEngine_sess : (traceEngine e ty kind value pos s).sess = s.sess := (congrArg State.sess (traceEngine_frame e ty kind value pos s)).trans rfl
@[simp] theorem traceEngine_hostQ : (traceEngine e ty kind value pos s).hostQ = s.hostQ := (congrArg State.hostQ (traceEngine_frame e ty kind value pos s)).trans rfl
@[simp] theorem traceEngine_vault : (traceEngine e ty kind value pos s).vault = s.vault := (congrArg State.vault (traceEngine_frame e ty kind value pos s)).trans rfl
@[simp] theorem traceEngine_rng : (traceEngine e ty kind value pos s).rng = s.rng := (congrArg State.rng (traceEngine_frame e ty kind value pos s)).trans rfl
@[simp] theorem traceEngine_grant : (traceEngine e ty kind value pos s).grant = s.grant := (congrArg State.grant (traceEngine_frame e ty kind value pos s)).trans rfl
@[simp] theorem traceEngine_lastFSec : (traceEngine e ty kind value pos s).lastFSec = s.lastFSec := (congrArg State.lastFSec (traceEngine_frame e ty kind value pos s)).trans rfl
@[simp] theorem traceEngine_logQ : (traceEngine e ty kind value pos s).logQ = s.logQ := (congrArg State.logQ (traceEngine_frame e ty kind value pos s)).trans rfl
@[simp] theorem traceEngine_log : (traceEngine e ty kind value pos s).log = s.log := (congrArg State.log (traceEngine_frame e ty kind value pos s)).trans rfl
@[simp] theorem traceEngine_telem : (traceEngine e ty kind value pos s).telem = s.telem := (congrArg State.telem (traceEngine_frame e ty kind value pos s)).trans rfl
end

section
variable (e ty value pos : Nat) (s : State)
/-- What it may write. -/
theorem traceRest_frame : traceRest e ty value pos s =
    { s with
      trace := (traceRest e ty value pos s).trace
      regs := (traceRest e ty value pos s).regs
      tk := (traceRest e ty value pos s).tk } := by
  unfold traceRest
  split
  · rw [traceEngine_frame]
  · rfl
@[simp] theorem traceRest_pending : (traceRest e ty value pos s).pending = s.pending := (congrArg State.pending (traceRest_frame e ty value pos s)).trans rfl
@[simp] theorem traceRest_now : (traceRest e ty value pos s).now = s.now := (congrArg State.now (traceRest_frame e ty value pos s)).trans rfl
@[simp] theorem traceRest_fresh : (traceRest e ty value pos s).fresh = s.fresh := (congrArg State.fresh (traceRest_frame e ty value pos s)).trans rfl
@[simp] theorem traceRest_out : (traceRest e ty value pos s).out = s.out := (congrArg State.out (traceRest_frame e ty value pos s)).trans rfl
@[simp] theorem traceRest_mst : (traceRest e ty value pos s).mst = s.mst := (congrArg State.mst (traceRest_frame e ty value pos s)).trans rfl
@[simp] theorem traceRest_mlast : (traceRest e ty value pos s).mlast = s.mlast := (congrArg State.mlast (traceRest_frame e ty value pos s)).trans rfl
@[simp] theorem traceRest_stopReq : (traceRest e ty value pos s).stopReq = s.stopReq := (congrArg State.stopReq (traceRest_frame e ty value pos s)).trans rfl
@[simp] theorem traceRest_stopActivate : (traceRest e ty value pos s).stopActivate = s.stopActivate := (congrArg State.stopActivate (traceRest_frame e ty value pos s)).trans rfl
@[simp] theorem traceRest_armReq : (traceRest e ty value pos s).armReq = s.armReq := (congrArg State.armReq (traceRest_frame e ty value pos s)).trans rfl
@[simp] theorem traceRest_waiters : (traceRest e ty value pos s).waiters = s.waiters := (congrArg State.waiters (traceRest_frame e ty value pos s)).trans rfl
@[simp] theorem traceRest_owed : (traceRest e ty value pos s).owed = s.owed := (congrArg State.owed (traceRest_frame e ty value pos s)).trans rfl
@[simp] theorem traceRest_ends : (traceRest e ty value pos s).ends = s.ends := (congrArg State.ends (traceRest_frame e ty value pos s)).trans rfl
@[simp] theorem traceRest_latch : (traceRest e ty value pos s).latch = s.latch := (congrArg State.latch (traceRest_frame e ty value pos s)).trans rfl
@[simp] theorem traceRest_mem : (traceRest e ty value pos s).mem = s.mem := (congrArg State.mem (traceRest_frame e ty value pos s)).trans rfl
@[simp] theorem traceRest_chk : (traceRest e ty value pos s).chk = s.chk := (congrArg State.chk (traceRest_frame e ty value pos s)).trans rfl
@[simp] theorem traceRest_ts : (traceRest e ty value pos s).ts = s.ts := (congrArg State.ts (traceRest_frame e ty value pos s)).trans rfl
@[simp] theorem traceRest_tsRepairs : (traceRest e ty value pos s).tsRepairs = s.tsRepairs := (congrArg State.tsRepairs (traceRest_frame e ty value pos s)).trans rfl
@[simp] theorem traceRest_tsSplit : (traceRest e ty value pos s).tsSplit = s.tsSplit := (congrArg State.tsSplit (traceRest_frame e ty value pos s)).trans rfl
@[simp] theorem traceRest_priv : (traceRest e ty value pos s).priv = s.priv := (congrArg State.priv (traceRest_frame e ty value pos s)).trans rfl
@[simp] theorem traceRest_eng : (traceRest e ty value pos s).eng = s.eng := (congrArg State.eng (traceRest_frame e ty value pos s)).trans rfl
@[simp] theorem traceRest_sup : (traceRest e ty value pos s).sup = s.sup := (congrArg State.sup (traceRest_frame e ty value pos s)).trans rfl
@[simp] theorem traceRest_pairs : (traceRest e ty value pos s).pairs = s.pairs := (congrArg State.pairs (traceRest_frame e ty value pos s)).trans rfl
@[simp] theorem traceRest_reqs : (traceRest e ty value pos s).reqs = s.reqs := (congrArg State.reqs (traceRest_frame e ty value pos s)).trans rfl
@[simp] theorem traceRest_served : (traceRest e ty value pos s).served = s.served := (congrArg State.served (traceRest_frame e ty value pos s)).trans rfl
@[simp] theorem traceRest_mirrors : (traceRest e ty value pos s).mirrors = s.mirrors := (congrArg State.mirrors (traceRest_frame e ty value pos s)).trans rfl
@[simp] theorem traceRest_bindings : (traceRest e ty value pos s).bindings = s.bindings := (congrArg State.bindings (traceRest_frame e ty value pos s)).trans rfl
@[simp] theorem traceRest_arrivals : (traceRest e ty value pos s).arrivals = s.arrivals := (congrArg State.arrivals (traceRest_frame e ty value pos s)).trans rfl
@[simp] theorem traceRest_late : (traceRest e ty value pos s).late = s.late := (congrArg State.late (traceRest_frame e ty value pos s)).trans rfl
@[simp] theorem traceRest_ovr : (traceRest e ty value pos s).ovr = s.ovr := (congrArg State.ovr (traceRest_frame e ty value pos s)).trans rfl
@[simp] theorem traceRest_mism : (traceRest e ty value pos s).mism = s.mism := (congrArg State.mism (traceRest_frame e ty value pos s)).trans rfl
@[simp] theorem traceRest_viol : (traceRest e ty value pos s).viol = s.viol := (congrArg State.viol (traceRest_frame e ty value pos s)).trans rfl
@[simp] theorem traceRest_violSeq : (traceRest e ty value pos s).violSeq = s.violSeq := (congrArg State.violSeq (traceRest_frame e ty value pos s)).trans rfl
@[simp] theorem traceRest_violMasters : (traceRest e ty value pos s).violMasters = s.violMasters := (congrArg State.violMasters (traceRest_frame e ty value pos s)).trans rfl
@[simp] theorem traceRest_speeds : (traceRest e ty value pos s).speeds = s.speeds := (congrArg State.speeds (traceRest_frame e ty value pos s)).trans rfl
@[simp] theorem traceRest_dayMin : (traceRest e ty value pos s).dayMin = s.dayMin := (congrArg State.dayMin (traceRest_frame e ty value pos s)).trans rfl
@[simp] theorem traceRest_dayMinEng : (traceRest e ty value pos s).dayMinEng = s.dayMinEng := (congrArg State.dayMinEng (traceRest_frame e ty value pos s)).trans rfl
@[simp] theorem traceRest_day : (traceRest e ty value pos s).day = s.day := (congrArg State.day (traceRest_frame e ty value pos s)).trans rfl
@[simp] theorem traceRest_ports : (traceRest e ty value pos s).ports = s.ports := (congrArg State.ports (traceRest_frame e ty value pos s)).trans rfl
@[simp] theorem traceRest_time : (traceRest e ty value pos s).time = s.time := (congrArg State.time (traceRest_frame e ty value pos s)).trans rfl
@[simp] theorem traceRest_link : (traceRest e ty value pos s).link = s.link := (congrArg State.link (traceRest_frame e ty value pos s)).trans rfl
@[simp] theorem traceRest_nwt : (traceRest e ty value pos s).nwt = s.nwt := (congrArg State.nwt (traceRest_frame e ty value pos s)).trans rfl
@[simp] theorem traceRest_saf : (traceRest e ty value pos s).saf = s.saf := (congrArg State.saf (traceRest_frame e ty value pos s)).trans rfl
@[simp] theorem traceRest_lio : (traceRest e ty value pos s).lio = s.lio := (congrArg State.lio (traceRest_frame e ty value pos s)).trans rfl
@[simp] theorem traceRest_fpd : (traceRest e ty value pos s).fpd = s.fpd := (congrArg State.fpd (traceRest_frame e ty value pos s)).trans rfl
@[simp] theorem traceRest_pwr : (traceRest e ty value pos s).pwr = s.pwr := (congrArg State.pwr (traceRest_frame e ty value pos s)).trans rfl
@[simp] theorem traceRest_sig : (traceRest e ty value pos s).sig = s.sig := (congrArg State.sig (traceRest_frame e ty value pos s)).trans rfl
@[simp] theorem traceRest_c37 : (traceRest e ty value pos s).c37 = s.c37 := (congrArg State.c37 (traceRest_frame e ty value pos s)).trans rfl
@[simp] theorem traceRest_boot : (traceRest e ty value pos s).boot = s.boot := (congrArg State.boot (traceRest_frame e ty value pos s)).trans rfl
@[simp] theorem traceRest_net : (traceRest e ty value pos s).net = s.net := (congrArg State.net (traceRest_frame e ty value pos s)).trans rfl
@[simp] theorem traceRest_sess : (traceRest e ty value pos s).sess = s.sess := (congrArg State.sess (traceRest_frame e ty value pos s)).trans rfl
@[simp] theorem traceRest_hostQ : (traceRest e ty value pos s).hostQ = s.hostQ := (congrArg State.hostQ (traceRest_frame e ty value pos s)).trans rfl
@[simp] theorem traceRest_vault : (traceRest e ty value pos s).vault = s.vault := (congrArg State.vault (traceRest_frame e ty value pos s)).trans rfl
@[simp] theorem traceRest_rng : (traceRest e ty value pos s).rng = s.rng := (congrArg State.rng (traceRest_frame e ty value pos s)).trans rfl
@[simp] theorem traceRest_grant : (traceRest e ty value pos s).grant = s.grant := (congrArg State.grant (traceRest_frame e ty value pos s)).trans rfl
@[simp] theorem traceRest_lastFSec : (traceRest e ty value pos s).lastFSec = s.lastFSec := (congrArg State.lastFSec (traceRest_frame e ty value pos s)).trans rfl
@[simp] theorem traceRest_logQ : (traceRest e ty value pos s).logQ = s.logQ := (congrArg State.logQ (traceRest_frame e ty value pos s)).trans rfl
@[simp] theorem traceRest_log : (traceRest e ty value pos s).log = s.log := (congrArg State.log (traceRest_frame e ty value pos s)).trans rfl
@[simp] theorem traceRest_telem : (traceRest e ty value pos s).telem = s.telem := (congrArg State.telem (traceRest_frame e ty value pos s)).trans rfl
end

section
variable (code master pos sch act : Nat) (s : State)
/-- What it may write. -/
theorem lateRecord_frame : lateRecord code master pos sch act s =
    { s with
      late := (lateRecord code master pos sch act s).late
      regs := (lateRecord code master pos sch act s).regs
      tk := (lateRecord code master pos sch act s).tk } := by
  unfold lateRecord; simp only; split <;> rfl
@[simp] theorem lateRecord_pending : (lateRecord code master pos sch act s).pending = s.pending := (congrArg State.pending (lateRecord_frame code master pos sch act s)).trans rfl
@[simp] theorem lateRecord_now : (lateRecord code master pos sch act s).now = s.now := (congrArg State.now (lateRecord_frame code master pos sch act s)).trans rfl
@[simp] theorem lateRecord_fresh : (lateRecord code master pos sch act s).fresh = s.fresh := (congrArg State.fresh (lateRecord_frame code master pos sch act s)).trans rfl
@[simp] theorem lateRecord_out : (lateRecord code master pos sch act s).out = s.out := (congrArg State.out (lateRecord_frame code master pos sch act s)).trans rfl
@[simp] theorem lateRecord_mst : (lateRecord code master pos sch act s).mst = s.mst := (congrArg State.mst (lateRecord_frame code master pos sch act s)).trans rfl
@[simp] theorem lateRecord_mlast : (lateRecord code master pos sch act s).mlast = s.mlast := (congrArg State.mlast (lateRecord_frame code master pos sch act s)).trans rfl
@[simp] theorem lateRecord_stopReq : (lateRecord code master pos sch act s).stopReq = s.stopReq := (congrArg State.stopReq (lateRecord_frame code master pos sch act s)).trans rfl
@[simp] theorem lateRecord_stopActivate : (lateRecord code master pos sch act s).stopActivate = s.stopActivate := (congrArg State.stopActivate (lateRecord_frame code master pos sch act s)).trans rfl
@[simp] theorem lateRecord_armReq : (lateRecord code master pos sch act s).armReq = s.armReq := (congrArg State.armReq (lateRecord_frame code master pos sch act s)).trans rfl
@[simp] theorem lateRecord_waiters : (lateRecord code master pos sch act s).waiters = s.waiters := (congrArg State.waiters (lateRecord_frame code master pos sch act s)).trans rfl
@[simp] theorem lateRecord_owed : (lateRecord code master pos sch act s).owed = s.owed := (congrArg State.owed (lateRecord_frame code master pos sch act s)).trans rfl
@[simp] theorem lateRecord_ends : (lateRecord code master pos sch act s).ends = s.ends := (congrArg State.ends (lateRecord_frame code master pos sch act s)).trans rfl
@[simp] theorem lateRecord_latch : (lateRecord code master pos sch act s).latch = s.latch := (congrArg State.latch (lateRecord_frame code master pos sch act s)).trans rfl
@[simp] theorem lateRecord_mem : (lateRecord code master pos sch act s).mem = s.mem := (congrArg State.mem (lateRecord_frame code master pos sch act s)).trans rfl
@[simp] theorem lateRecord_chk : (lateRecord code master pos sch act s).chk = s.chk := (congrArg State.chk (lateRecord_frame code master pos sch act s)).trans rfl
@[simp] theorem lateRecord_ts : (lateRecord code master pos sch act s).ts = s.ts := (congrArg State.ts (lateRecord_frame code master pos sch act s)).trans rfl
@[simp] theorem lateRecord_tsRepairs : (lateRecord code master pos sch act s).tsRepairs = s.tsRepairs := (congrArg State.tsRepairs (lateRecord_frame code master pos sch act s)).trans rfl
@[simp] theorem lateRecord_tsSplit : (lateRecord code master pos sch act s).tsSplit = s.tsSplit := (congrArg State.tsSplit (lateRecord_frame code master pos sch act s)).trans rfl
@[simp] theorem lateRecord_priv : (lateRecord code master pos sch act s).priv = s.priv := (congrArg State.priv (lateRecord_frame code master pos sch act s)).trans rfl
@[simp] theorem lateRecord_eng : (lateRecord code master pos sch act s).eng = s.eng := (congrArg State.eng (lateRecord_frame code master pos sch act s)).trans rfl
@[simp] theorem lateRecord_sup : (lateRecord code master pos sch act s).sup = s.sup := (congrArg State.sup (lateRecord_frame code master pos sch act s)).trans rfl
@[simp] theorem lateRecord_pairs : (lateRecord code master pos sch act s).pairs = s.pairs := (congrArg State.pairs (lateRecord_frame code master pos sch act s)).trans rfl
@[simp] theorem lateRecord_reqs : (lateRecord code master pos sch act s).reqs = s.reqs := (congrArg State.reqs (lateRecord_frame code master pos sch act s)).trans rfl
@[simp] theorem lateRecord_served : (lateRecord code master pos sch act s).served = s.served := (congrArg State.served (lateRecord_frame code master pos sch act s)).trans rfl
@[simp] theorem lateRecord_mirrors : (lateRecord code master pos sch act s).mirrors = s.mirrors := (congrArg State.mirrors (lateRecord_frame code master pos sch act s)).trans rfl
@[simp] theorem lateRecord_bindings : (lateRecord code master pos sch act s).bindings = s.bindings := (congrArg State.bindings (lateRecord_frame code master pos sch act s)).trans rfl
@[simp] theorem lateRecord_arrivals : (lateRecord code master pos sch act s).arrivals = s.arrivals := (congrArg State.arrivals (lateRecord_frame code master pos sch act s)).trans rfl
@[simp] theorem lateRecord_ovr : (lateRecord code master pos sch act s).ovr = s.ovr := (congrArg State.ovr (lateRecord_frame code master pos sch act s)).trans rfl
@[simp] theorem lateRecord_mism : (lateRecord code master pos sch act s).mism = s.mism := (congrArg State.mism (lateRecord_frame code master pos sch act s)).trans rfl
@[simp] theorem lateRecord_viol : (lateRecord code master pos sch act s).viol = s.viol := (congrArg State.viol (lateRecord_frame code master pos sch act s)).trans rfl
@[simp] theorem lateRecord_violSeq : (lateRecord code master pos sch act s).violSeq = s.violSeq := (congrArg State.violSeq (lateRecord_frame code master pos sch act s)).trans rfl
@[simp] theorem lateRecord_violMasters : (lateRecord code master pos sch act s).violMasters = s.violMasters := (congrArg State.violMasters (lateRecord_frame code master pos sch act s)).trans rfl
@[simp] theorem lateRecord_speeds : (lateRecord code master pos sch act s).speeds = s.speeds := (congrArg State.speeds (lateRecord_frame code master pos sch act s)).trans rfl
@[simp] theorem lateRecord_dayMin : (lateRecord code master pos sch act s).dayMin = s.dayMin := (congrArg State.dayMin (lateRecord_frame code master pos sch act s)).trans rfl
@[simp] theorem lateRecord_dayMinEng : (lateRecord code master pos sch act s).dayMinEng = s.dayMinEng := (congrArg State.dayMinEng (lateRecord_frame code master pos sch act s)).trans rfl
@[simp] theorem lateRecord_day : (lateRecord code master pos sch act s).day = s.day := (congrArg State.day (lateRecord_frame code master pos sch act s)).trans rfl
@[simp] theorem lateRecord_ports : (lateRecord code master pos sch act s).ports = s.ports := (congrArg State.ports (lateRecord_frame code master pos sch act s)).trans rfl
@[simp] theorem lateRecord_time : (lateRecord code master pos sch act s).time = s.time := (congrArg State.time (lateRecord_frame code master pos sch act s)).trans rfl
@[simp] theorem lateRecord_link : (lateRecord code master pos sch act s).link = s.link := (congrArg State.link (lateRecord_frame code master pos sch act s)).trans rfl
@[simp] theorem lateRecord_nwt : (lateRecord code master pos sch act s).nwt = s.nwt := (congrArg State.nwt (lateRecord_frame code master pos sch act s)).trans rfl
@[simp] theorem lateRecord_saf : (lateRecord code master pos sch act s).saf = s.saf := (congrArg State.saf (lateRecord_frame code master pos sch act s)).trans rfl
@[simp] theorem lateRecord_lio : (lateRecord code master pos sch act s).lio = s.lio := (congrArg State.lio (lateRecord_frame code master pos sch act s)).trans rfl
@[simp] theorem lateRecord_fpd : (lateRecord code master pos sch act s).fpd = s.fpd := (congrArg State.fpd (lateRecord_frame code master pos sch act s)).trans rfl
@[simp] theorem lateRecord_pwr : (lateRecord code master pos sch act s).pwr = s.pwr := (congrArg State.pwr (lateRecord_frame code master pos sch act s)).trans rfl
@[simp] theorem lateRecord_sig : (lateRecord code master pos sch act s).sig = s.sig := (congrArg State.sig (lateRecord_frame code master pos sch act s)).trans rfl
@[simp] theorem lateRecord_c37 : (lateRecord code master pos sch act s).c37 = s.c37 := (congrArg State.c37 (lateRecord_frame code master pos sch act s)).trans rfl
@[simp] theorem lateRecord_boot : (lateRecord code master pos sch act s).boot = s.boot := (congrArg State.boot (lateRecord_frame code master pos sch act s)).trans rfl
@[simp] theorem lateRecord_net : (lateRecord code master pos sch act s).net = s.net := (congrArg State.net (lateRecord_frame code master pos sch act s)).trans rfl
@[simp] theorem lateRecord_sess : (lateRecord code master pos sch act s).sess = s.sess := (congrArg State.sess (lateRecord_frame code master pos sch act s)).trans rfl
@[simp] theorem lateRecord_hostQ : (lateRecord code master pos sch act s).hostQ = s.hostQ := (congrArg State.hostQ (lateRecord_frame code master pos sch act s)).trans rfl
@[simp] theorem lateRecord_vault : (lateRecord code master pos sch act s).vault = s.vault := (congrArg State.vault (lateRecord_frame code master pos sch act s)).trans rfl
@[simp] theorem lateRecord_rng : (lateRecord code master pos sch act s).rng = s.rng := (congrArg State.rng (lateRecord_frame code master pos sch act s)).trans rfl
@[simp] theorem lateRecord_grant : (lateRecord code master pos sch act s).grant = s.grant := (congrArg State.grant (lateRecord_frame code master pos sch act s)).trans rfl
@[simp] theorem lateRecord_lastFSec : (lateRecord code master pos sch act s).lastFSec = s.lastFSec := (congrArg State.lastFSec (lateRecord_frame code master pos sch act s)).trans rfl
@[simp] theorem lateRecord_logQ : (lateRecord code master pos sch act s).logQ = s.logQ := (congrArg State.logQ (lateRecord_frame code master pos sch act s)).trans rfl
@[simp] theorem lateRecord_log : (lateRecord code master pos sch act s).log = s.log := (congrArg State.log (lateRecord_frame code master pos sch act s)).trans rfl
@[simp] theorem lateRecord_telem : (lateRecord code master pos sch act s).telem = s.telem := (congrArg State.telem (lateRecord_frame code master pos sch act s)).trans rfl
@[simp] theorem lateRecord_trace : (lateRecord code master pos sch act s).trace = s.trace := (congrArg State.trace (lateRecord_frame code master pos sch act s)).trans rfl
end

section
variable (code master pos sch act detail : Nat) (s : State)
@[simp] theorem lateWith_pending : (lateWith code master pos sch act detail s).pending = s.pending := by simp only [lateWith, breach_pending, traceEngine_pending, raise_pending, lateRecord_pending]
@[simp] theorem lateWith_now : (lateWith code master pos sch act detail s).now = s.now := by simp only [lateWith, breach_now, traceEngine_now, raise_now, lateRecord_now]
@[simp] theorem lateWith_fresh : (lateWith code master pos sch act detail s).fresh = s.fresh := by simp only [lateWith, breach_fresh, traceEngine_fresh, raise_fresh, lateRecord_fresh]
@[simp] theorem lateWith_out : (lateWith code master pos sch act detail s).out = s.out := by simp only [lateWith, breach_out, traceEngine_out, raise_out, lateRecord_out]
@[simp] theorem lateWith_mst : (lateWith code master pos sch act detail s).mst = s.mst := by simp only [lateWith, breach_mst, traceEngine_mst, raise_mst, lateRecord_mst]
@[simp] theorem lateWith_mlast : (lateWith code master pos sch act detail s).mlast = s.mlast := by simp only [lateWith, breach_mlast, traceEngine_mlast, raise_mlast, lateRecord_mlast]
@[simp] theorem lateWith_stopReq : (lateWith code master pos sch act detail s).stopReq = s.stopReq := by simp only [lateWith, breach_stopReq, traceEngine_stopReq, raise_stopReq, lateRecord_stopReq]
@[simp] theorem lateWith_stopActivate : (lateWith code master pos sch act detail s).stopActivate = s.stopActivate := by simp only [lateWith, breach_stopActivate, traceEngine_stopActivate, raise_stopActivate, lateRecord_stopActivate]
@[simp] theorem lateWith_armReq : (lateWith code master pos sch act detail s).armReq = s.armReq := by simp only [lateWith, breach_armReq, traceEngine_armReq, raise_armReq, lateRecord_armReq]
@[simp] theorem lateWith_waiters : (lateWith code master pos sch act detail s).waiters = s.waiters := by simp only [lateWith, breach_waiters, traceEngine_waiters, raise_waiters, lateRecord_waiters]
@[simp] theorem lateWith_owed : (lateWith code master pos sch act detail s).owed = s.owed := by simp only [lateWith, breach_owed, traceEngine_owed, raise_owed, lateRecord_owed]
@[simp] theorem lateWith_ends : (lateWith code master pos sch act detail s).ends = s.ends := by simp only [lateWith, breach_ends, traceEngine_ends, raise_ends, lateRecord_ends]
@[simp] theorem lateWith_latch : (lateWith code master pos sch act detail s).latch = s.latch := by simp only [lateWith, breach_latch, traceEngine_latch, raise_latch, lateRecord_latch]
@[simp] theorem lateWith_mem : (lateWith code master pos sch act detail s).mem = s.mem := by simp only [lateWith, breach_mem, traceEngine_mem, raise_mem, lateRecord_mem]
@[simp] theorem lateWith_chk : (lateWith code master pos sch act detail s).chk = s.chk := by simp only [lateWith, breach_chk, traceEngine_chk, raise_chk, lateRecord_chk]
@[simp] theorem lateWith_ts : (lateWith code master pos sch act detail s).ts = s.ts := by simp only [lateWith, breach_ts, traceEngine_ts, raise_ts, lateRecord_ts]
@[simp] theorem lateWith_tsRepairs : (lateWith code master pos sch act detail s).tsRepairs = s.tsRepairs := by simp only [lateWith, breach_tsRepairs, traceEngine_tsRepairs, raise_tsRepairs, lateRecord_tsRepairs]
@[simp] theorem lateWith_tsSplit : (lateWith code master pos sch act detail s).tsSplit = s.tsSplit := by simp only [lateWith, breach_tsSplit, traceEngine_tsSplit, raise_tsSplit, lateRecord_tsSplit]
@[simp] theorem lateWith_priv : (lateWith code master pos sch act detail s).priv = s.priv := by simp only [lateWith, breach_priv, traceEngine_priv, raise_priv, lateRecord_priv]
@[simp] theorem lateWith_eng : (lateWith code master pos sch act detail s).eng = s.eng := by simp only [lateWith, breach_eng, traceEngine_eng, raise_eng, lateRecord_eng]
@[simp] theorem lateWith_sup : (lateWith code master pos sch act detail s).sup = s.sup := by simp only [lateWith, breach_sup, traceEngine_sup, raise_sup, lateRecord_sup]
@[simp] theorem lateWith_pairs : (lateWith code master pos sch act detail s).pairs = s.pairs := by simp only [lateWith, breach_pairs, traceEngine_pairs, raise_pairs, lateRecord_pairs]
@[simp] theorem lateWith_reqs : (lateWith code master pos sch act detail s).reqs = s.reqs := by simp only [lateWith, breach_reqs, traceEngine_reqs, raise_reqs, lateRecord_reqs]
@[simp] theorem lateWith_served : (lateWith code master pos sch act detail s).served = s.served := by simp only [lateWith, breach_served, traceEngine_served, raise_served, lateRecord_served]
@[simp] theorem lateWith_mirrors : (lateWith code master pos sch act detail s).mirrors = s.mirrors := by simp only [lateWith, breach_mirrors, traceEngine_mirrors, raise_mirrors, lateRecord_mirrors]
@[simp] theorem lateWith_bindings : (lateWith code master pos sch act detail s).bindings = s.bindings := by simp only [lateWith, breach_bindings, traceEngine_bindings, raise_bindings, lateRecord_bindings]
@[simp] theorem lateWith_arrivals : (lateWith code master pos sch act detail s).arrivals = s.arrivals := by simp only [lateWith, breach_arrivals, traceEngine_arrivals, raise_arrivals, lateRecord_arrivals]
@[simp] theorem lateWith_ovr : (lateWith code master pos sch act detail s).ovr = s.ovr := by simp only [lateWith, breach_ovr, traceEngine_ovr, raise_ovr, lateRecord_ovr]
@[simp] theorem lateWith_mism : (lateWith code master pos sch act detail s).mism = s.mism := by simp only [lateWith, breach_mism, traceEngine_mism, raise_mism, lateRecord_mism]
@[simp] theorem lateWith_viol : (lateWith code master pos sch act detail s).viol = s.viol := by simp only [lateWith, breach_viol, traceEngine_viol, raise_viol, lateRecord_viol]
@[simp] theorem lateWith_violSeq : (lateWith code master pos sch act detail s).violSeq = s.violSeq := by simp only [lateWith, breach_violSeq, traceEngine_violSeq, raise_violSeq, lateRecord_violSeq]
@[simp] theorem lateWith_violMasters : (lateWith code master pos sch act detail s).violMasters = s.violMasters := by simp only [lateWith, breach_violMasters, traceEngine_violMasters, raise_violMasters, lateRecord_violMasters]
@[simp] theorem lateWith_speeds : (lateWith code master pos sch act detail s).speeds = s.speeds := by simp only [lateWith, breach_speeds, traceEngine_speeds, raise_speeds, lateRecord_speeds]
@[simp] theorem lateWith_dayMin : (lateWith code master pos sch act detail s).dayMin = s.dayMin := by simp only [lateWith, breach_dayMin, traceEngine_dayMin, raise_dayMin, lateRecord_dayMin]
@[simp] theorem lateWith_dayMinEng : (lateWith code master pos sch act detail s).dayMinEng = s.dayMinEng := by simp only [lateWith, breach_dayMinEng, traceEngine_dayMinEng, raise_dayMinEng, lateRecord_dayMinEng]
@[simp] theorem lateWith_ports : (lateWith code master pos sch act detail s).ports = s.ports := by simp only [lateWith, breach_ports, traceEngine_ports, raise_ports, lateRecord_ports]
@[simp] theorem lateWith_time : (lateWith code master pos sch act detail s).time = s.time := by simp only [lateWith, breach_time, traceEngine_time, raise_time, lateRecord_time]
@[simp] theorem lateWith_link : (lateWith code master pos sch act detail s).link = s.link := by simp only [lateWith, breach_link, traceEngine_link, raise_link, lateRecord_link]
@[simp] theorem lateWith_nwt : (lateWith code master pos sch act detail s).nwt = s.nwt := by simp only [lateWith, breach_nwt, traceEngine_nwt, raise_nwt, lateRecord_nwt]
@[simp] theorem lateWith_saf : (lateWith code master pos sch act detail s).saf = s.saf := by simp only [lateWith, breach_saf, traceEngine_saf, raise_saf, lateRecord_saf]
@[simp] theorem lateWith_lio : (lateWith code master pos sch act detail s).lio = s.lio := by simp only [lateWith, breach_lio, traceEngine_lio, raise_lio, lateRecord_lio]
@[simp] theorem lateWith_fpd : (lateWith code master pos sch act detail s).fpd = s.fpd := by simp only [lateWith, breach_fpd, traceEngine_fpd, raise_fpd, lateRecord_fpd]
@[simp] theorem lateWith_pwr : (lateWith code master pos sch act detail s).pwr = s.pwr := by simp only [lateWith, breach_pwr, traceEngine_pwr, raise_pwr, lateRecord_pwr]
@[simp] theorem lateWith_sig : (lateWith code master pos sch act detail s).sig = s.sig := by simp only [lateWith, breach_sig, traceEngine_sig, raise_sig, lateRecord_sig]
@[simp] theorem lateWith_c37 : (lateWith code master pos sch act detail s).c37 = s.c37 := by simp only [lateWith, breach_c37, traceEngine_c37, raise_c37, lateRecord_c37]
@[simp] theorem lateWith_boot : (lateWith code master pos sch act detail s).boot = s.boot := by simp only [lateWith, breach_boot, traceEngine_boot, raise_boot, lateRecord_boot]
@[simp] theorem lateWith_net : (lateWith code master pos sch act detail s).net = s.net := by simp only [lateWith, breach_net, traceEngine_net, raise_net, lateRecord_net]
@[simp] theorem lateWith_sess : (lateWith code master pos sch act detail s).sess = s.sess := by simp only [lateWith, breach_sess, traceEngine_sess, raise_sess, lateRecord_sess]
@[simp] theorem lateWith_hostQ : (lateWith code master pos sch act detail s).hostQ = s.hostQ := by simp only [lateWith, breach_hostQ, traceEngine_hostQ, raise_hostQ, lateRecord_hostQ]
@[simp] theorem lateWith_vault : (lateWith code master pos sch act detail s).vault = s.vault := by simp only [lateWith, breach_vault, traceEngine_vault, raise_vault, lateRecord_vault]
@[simp] theorem lateWith_rng : (lateWith code master pos sch act detail s).rng = s.rng := by simp only [lateWith, breach_rng, traceEngine_rng, raise_rng, lateRecord_rng]
@[simp] theorem lateWith_grant : (lateWith code master pos sch act detail s).grant = s.grant := by simp only [lateWith, breach_grant, traceEngine_grant, raise_grant, lateRecord_grant]
@[simp] theorem lateWith_log : (lateWith code master pos sch act detail s).log = s.log := by simp only [lateWith, breach_log, traceEngine_log, raise_log, lateRecord_log]
/-- What it may write. -/
theorem lateWith_frame : lateWith code master pos sch act detail s =
    { s with
      regs := (lateWith code master pos sch act detail s).regs
      tk := (lateWith code master pos sch act detail s).tk
      late := (lateWith code master pos sch act detail s).late
      lastFSec := (lateWith code master pos sch act detail s).lastFSec
      logQ := (lateWith code master pos sch act detail s).logQ
      telem := (lateWith code master pos sch act detail s).telem
      trace := (lateWith code master pos sch act detail s).trace
      day := (lateWith code master pos sch act detail s).day } := by
  rw [← lateWith_pending code master pos sch act detail s,
    ← lateWith_now code master pos sch act detail s,
    ← lateWith_fresh code master pos sch act detail s,
    ← lateWith_out code master pos sch act detail s,
    ← lateWith_mst code master pos sch act detail s,
    ← lateWith_mlast code master pos sch act detail s,
    ← lateWith_stopReq code master pos sch act detail s,
    ← lateWith_stopActivate code master pos sch act detail s,
    ← lateWith_armReq code master pos sch act detail s,
    ← lateWith_waiters code master pos sch act detail s,
    ← lateWith_owed code master pos sch act detail s,
    ← lateWith_ends code master pos sch act detail s,
    ← lateWith_latch code master pos sch act detail s,
    ← lateWith_mem code master pos sch act detail s,
    ← lateWith_chk code master pos sch act detail s,
    ← lateWith_ts code master pos sch act detail s,
    ← lateWith_tsRepairs code master pos sch act detail s,
    ← lateWith_tsSplit code master pos sch act detail s,
    ← lateWith_priv code master pos sch act detail s,
    ← lateWith_eng code master pos sch act detail s,
    ← lateWith_sup code master pos sch act detail s,
    ← lateWith_pairs code master pos sch act detail s,
    ← lateWith_reqs code master pos sch act detail s,
    ← lateWith_served code master pos sch act detail s,
    ← lateWith_mirrors code master pos sch act detail s,
    ← lateWith_bindings code master pos sch act detail s,
    ← lateWith_arrivals code master pos sch act detail s,
    ← lateWith_ovr code master pos sch act detail s,
    ← lateWith_mism code master pos sch act detail s,
    ← lateWith_viol code master pos sch act detail s,
    ← lateWith_violSeq code master pos sch act detail s,
    ← lateWith_violMasters code master pos sch act detail s,
    ← lateWith_speeds code master pos sch act detail s,
    ← lateWith_dayMin code master pos sch act detail s,
    ← lateWith_dayMinEng code master pos sch act detail s,
    ← lateWith_ports code master pos sch act detail s,
    ← lateWith_time code master pos sch act detail s,
    ← lateWith_link code master pos sch act detail s,
    ← lateWith_nwt code master pos sch act detail s,
    ← lateWith_saf code master pos sch act detail s,
    ← lateWith_lio code master pos sch act detail s,
    ← lateWith_fpd code master pos sch act detail s,
    ← lateWith_pwr code master pos sch act detail s,
    ← lateWith_sig code master pos sch act detail s,
    ← lateWith_c37 code master pos sch act detail s,
    ← lateWith_boot code master pos sch act detail s,
    ← lateWith_net code master pos sch act detail s,
    ← lateWith_sess code master pos sch act detail s,
    ← lateWith_hostQ code master pos sch act detail s,
    ← lateWith_vault code master pos sch act detail s,
    ← lateWith_rng code master pos sch act detail s,
    ← lateWith_grant code master pos sch act detail s,
    ← lateWith_log code master pos sch act detail s]
end

section
variable (code master pos sch act : Nat) (s : State)
/-- What it may write. -/
theorem lateEvent_frame : lateEvent code master pos sch act s =
    { s with
      regs := (lateEvent code master pos sch act s).regs
      tk := (lateEvent code master pos sch act s).tk
      late := (lateEvent code master pos sch act s).late
      lastFSec := (lateEvent code master pos sch act s).lastFSec
      logQ := (lateEvent code master pos sch act s).logQ
      telem := (lateEvent code master pos sch act s).telem
      trace := (lateEvent code master pos sch act s).trace
      day := (lateEvent code master pos sch act s).day } := by
  unfold lateEvent; rw [lateWith_frame]
@[simp] theorem lateEvent_pending : (lateEvent code master pos sch act s).pending = s.pending := (congrArg State.pending (lateEvent_frame code master pos sch act s)).trans rfl
@[simp] theorem lateEvent_now : (lateEvent code master pos sch act s).now = s.now := (congrArg State.now (lateEvent_frame code master pos sch act s)).trans rfl
@[simp] theorem lateEvent_fresh : (lateEvent code master pos sch act s).fresh = s.fresh := (congrArg State.fresh (lateEvent_frame code master pos sch act s)).trans rfl
@[simp] theorem lateEvent_out : (lateEvent code master pos sch act s).out = s.out := (congrArg State.out (lateEvent_frame code master pos sch act s)).trans rfl
@[simp] theorem lateEvent_mst : (lateEvent code master pos sch act s).mst = s.mst := (congrArg State.mst (lateEvent_frame code master pos sch act s)).trans rfl
@[simp] theorem lateEvent_mlast : (lateEvent code master pos sch act s).mlast = s.mlast := (congrArg State.mlast (lateEvent_frame code master pos sch act s)).trans rfl
@[simp] theorem lateEvent_stopReq : (lateEvent code master pos sch act s).stopReq = s.stopReq := (congrArg State.stopReq (lateEvent_frame code master pos sch act s)).trans rfl
@[simp] theorem lateEvent_stopActivate : (lateEvent code master pos sch act s).stopActivate = s.stopActivate := (congrArg State.stopActivate (lateEvent_frame code master pos sch act s)).trans rfl
@[simp] theorem lateEvent_armReq : (lateEvent code master pos sch act s).armReq = s.armReq := (congrArg State.armReq (lateEvent_frame code master pos sch act s)).trans rfl
@[simp] theorem lateEvent_waiters : (lateEvent code master pos sch act s).waiters = s.waiters := (congrArg State.waiters (lateEvent_frame code master pos sch act s)).trans rfl
@[simp] theorem lateEvent_owed : (lateEvent code master pos sch act s).owed = s.owed := (congrArg State.owed (lateEvent_frame code master pos sch act s)).trans rfl
@[simp] theorem lateEvent_ends : (lateEvent code master pos sch act s).ends = s.ends := (congrArg State.ends (lateEvent_frame code master pos sch act s)).trans rfl
@[simp] theorem lateEvent_latch : (lateEvent code master pos sch act s).latch = s.latch := (congrArg State.latch (lateEvent_frame code master pos sch act s)).trans rfl
@[simp] theorem lateEvent_mem : (lateEvent code master pos sch act s).mem = s.mem := (congrArg State.mem (lateEvent_frame code master pos sch act s)).trans rfl
@[simp] theorem lateEvent_chk : (lateEvent code master pos sch act s).chk = s.chk := (congrArg State.chk (lateEvent_frame code master pos sch act s)).trans rfl
@[simp] theorem lateEvent_ts : (lateEvent code master pos sch act s).ts = s.ts := (congrArg State.ts (lateEvent_frame code master pos sch act s)).trans rfl
@[simp] theorem lateEvent_tsRepairs : (lateEvent code master pos sch act s).tsRepairs = s.tsRepairs := (congrArg State.tsRepairs (lateEvent_frame code master pos sch act s)).trans rfl
@[simp] theorem lateEvent_tsSplit : (lateEvent code master pos sch act s).tsSplit = s.tsSplit := (congrArg State.tsSplit (lateEvent_frame code master pos sch act s)).trans rfl
@[simp] theorem lateEvent_priv : (lateEvent code master pos sch act s).priv = s.priv := (congrArg State.priv (lateEvent_frame code master pos sch act s)).trans rfl
@[simp] theorem lateEvent_eng : (lateEvent code master pos sch act s).eng = s.eng := (congrArg State.eng (lateEvent_frame code master pos sch act s)).trans rfl
@[simp] theorem lateEvent_sup : (lateEvent code master pos sch act s).sup = s.sup := (congrArg State.sup (lateEvent_frame code master pos sch act s)).trans rfl
@[simp] theorem lateEvent_pairs : (lateEvent code master pos sch act s).pairs = s.pairs := (congrArg State.pairs (lateEvent_frame code master pos sch act s)).trans rfl
@[simp] theorem lateEvent_reqs : (lateEvent code master pos sch act s).reqs = s.reqs := (congrArg State.reqs (lateEvent_frame code master pos sch act s)).trans rfl
@[simp] theorem lateEvent_served : (lateEvent code master pos sch act s).served = s.served := (congrArg State.served (lateEvent_frame code master pos sch act s)).trans rfl
@[simp] theorem lateEvent_mirrors : (lateEvent code master pos sch act s).mirrors = s.mirrors := (congrArg State.mirrors (lateEvent_frame code master pos sch act s)).trans rfl
@[simp] theorem lateEvent_bindings : (lateEvent code master pos sch act s).bindings = s.bindings := (congrArg State.bindings (lateEvent_frame code master pos sch act s)).trans rfl
@[simp] theorem lateEvent_arrivals : (lateEvent code master pos sch act s).arrivals = s.arrivals := (congrArg State.arrivals (lateEvent_frame code master pos sch act s)).trans rfl
@[simp] theorem lateEvent_ovr : (lateEvent code master pos sch act s).ovr = s.ovr := (congrArg State.ovr (lateEvent_frame code master pos sch act s)).trans rfl
@[simp] theorem lateEvent_mism : (lateEvent code master pos sch act s).mism = s.mism := (congrArg State.mism (lateEvent_frame code master pos sch act s)).trans rfl
@[simp] theorem lateEvent_viol : (lateEvent code master pos sch act s).viol = s.viol := (congrArg State.viol (lateEvent_frame code master pos sch act s)).trans rfl
@[simp] theorem lateEvent_violSeq : (lateEvent code master pos sch act s).violSeq = s.violSeq := (congrArg State.violSeq (lateEvent_frame code master pos sch act s)).trans rfl
@[simp] theorem lateEvent_violMasters : (lateEvent code master pos sch act s).violMasters = s.violMasters := (congrArg State.violMasters (lateEvent_frame code master pos sch act s)).trans rfl
@[simp] theorem lateEvent_speeds : (lateEvent code master pos sch act s).speeds = s.speeds := (congrArg State.speeds (lateEvent_frame code master pos sch act s)).trans rfl
@[simp] theorem lateEvent_dayMin : (lateEvent code master pos sch act s).dayMin = s.dayMin := (congrArg State.dayMin (lateEvent_frame code master pos sch act s)).trans rfl
@[simp] theorem lateEvent_dayMinEng : (lateEvent code master pos sch act s).dayMinEng = s.dayMinEng := (congrArg State.dayMinEng (lateEvent_frame code master pos sch act s)).trans rfl
@[simp] theorem lateEvent_ports : (lateEvent code master pos sch act s).ports = s.ports := (congrArg State.ports (lateEvent_frame code master pos sch act s)).trans rfl
@[simp] theorem lateEvent_time : (lateEvent code master pos sch act s).time = s.time := (congrArg State.time (lateEvent_frame code master pos sch act s)).trans rfl
@[simp] theorem lateEvent_link : (lateEvent code master pos sch act s).link = s.link := (congrArg State.link (lateEvent_frame code master pos sch act s)).trans rfl
@[simp] theorem lateEvent_nwt : (lateEvent code master pos sch act s).nwt = s.nwt := (congrArg State.nwt (lateEvent_frame code master pos sch act s)).trans rfl
@[simp] theorem lateEvent_saf : (lateEvent code master pos sch act s).saf = s.saf := (congrArg State.saf (lateEvent_frame code master pos sch act s)).trans rfl
@[simp] theorem lateEvent_lio : (lateEvent code master pos sch act s).lio = s.lio := (congrArg State.lio (lateEvent_frame code master pos sch act s)).trans rfl
@[simp] theorem lateEvent_fpd : (lateEvent code master pos sch act s).fpd = s.fpd := (congrArg State.fpd (lateEvent_frame code master pos sch act s)).trans rfl
@[simp] theorem lateEvent_pwr : (lateEvent code master pos sch act s).pwr = s.pwr := (congrArg State.pwr (lateEvent_frame code master pos sch act s)).trans rfl
@[simp] theorem lateEvent_sig : (lateEvent code master pos sch act s).sig = s.sig := (congrArg State.sig (lateEvent_frame code master pos sch act s)).trans rfl
@[simp] theorem lateEvent_c37 : (lateEvent code master pos sch act s).c37 = s.c37 := (congrArg State.c37 (lateEvent_frame code master pos sch act s)).trans rfl
@[simp] theorem lateEvent_boot : (lateEvent code master pos sch act s).boot = s.boot := (congrArg State.boot (lateEvent_frame code master pos sch act s)).trans rfl
@[simp] theorem lateEvent_net : (lateEvent code master pos sch act s).net = s.net := (congrArg State.net (lateEvent_frame code master pos sch act s)).trans rfl
@[simp] theorem lateEvent_sess : (lateEvent code master pos sch act s).sess = s.sess := (congrArg State.sess (lateEvent_frame code master pos sch act s)).trans rfl
@[simp] theorem lateEvent_hostQ : (lateEvent code master pos sch act s).hostQ = s.hostQ := (congrArg State.hostQ (lateEvent_frame code master pos sch act s)).trans rfl
@[simp] theorem lateEvent_vault : (lateEvent code master pos sch act s).vault = s.vault := (congrArg State.vault (lateEvent_frame code master pos sch act s)).trans rfl
@[simp] theorem lateEvent_rng : (lateEvent code master pos sch act s).rng = s.rng := (congrArg State.rng (lateEvent_frame code master pos sch act s)).trans rfl
@[simp] theorem lateEvent_grant : (lateEvent code master pos sch act s).grant = s.grant := (congrArg State.grant (lateEvent_frame code master pos sch act s)).trans rfl
@[simp] theorem lateEvent_log : (lateEvent code master pos sch act s).log = s.log := (congrArg State.log (lateEvent_frame code master pos sch act s)).trans rfl
end

end Sys2Proof.Machine
end

