-- ==== Sys2Proof/Laws/Fields.lean ====
section
/-! SUPPORT. The shared operations of a release, field by field: every field they leave alone. -/

namespace Sys2Proof.Machine

section
variable (e pos : Nat) (s : State)
@[simp] theorem countLock_pending : (countLock e pos s).pending = s.pending := by
  simp only [countLock]; repeat' split
  all_goals simp
@[simp] theorem countLock_now : (countLock e pos s).now = s.now := by
  simp only [countLock]; repeat' split
  all_goals simp
@[simp] theorem countLock_fresh : (countLock e pos s).fresh = s.fresh := by
  simp only [countLock]; repeat' split
  all_goals simp
@[simp] theorem countLock_out : (countLock e pos s).out = s.out := by
  simp only [countLock]; repeat' split
  all_goals simp
@[simp] theorem countLock_mst : (countLock e pos s).mst = s.mst := by
  simp only [countLock]; repeat' split
  all_goals simp
@[simp] theorem countLock_mlast : (countLock e pos s).mlast = s.mlast := by
  simp only [countLock]; repeat' split
  all_goals simp
@[simp] theorem countLock_stopReq : (countLock e pos s).stopReq = s.stopReq := by
  simp only [countLock]; repeat' split
  all_goals simp
@[simp] theorem countLock_stopActivate : (countLock e pos s).stopActivate = s.stopActivate := by
  simp only [countLock]; repeat' split
  all_goals simp
@[simp] theorem countLock_armReq : (countLock e pos s).armReq = s.armReq := by
  simp only [countLock]; repeat' split
  all_goals simp
@[simp] theorem countLock_waiters : (countLock e pos s).waiters = s.waiters := by
  simp only [countLock]; repeat' split
  all_goals simp
@[simp] theorem countLock_owed : (countLock e pos s).owed = s.owed := by
  simp only [countLock]; repeat' split
  all_goals simp
@[simp] theorem countLock_ends : (countLock e pos s).ends = s.ends := by
  simp only [countLock]; repeat' split
  all_goals simp
@[simp] theorem countLock_latch : (countLock e pos s).latch = s.latch := by
  simp only [countLock]; repeat' split
  all_goals simp
@[simp] theorem countLock_mem : (countLock e pos s).mem = s.mem := by
  simp only [countLock]; repeat' split
  all_goals simp
@[simp] theorem countLock_chk : (countLock e pos s).chk = s.chk := by
  simp only [countLock]; repeat' split
  all_goals simp
@[simp] theorem countLock_ts : (countLock e pos s).ts = s.ts := by
  simp only [countLock]; repeat' split
  all_goals simp
@[simp] theorem countLock_tsRepairs : (countLock e pos s).tsRepairs = s.tsRepairs := by
  simp only [countLock]; repeat' split
  all_goals simp
@[simp] theorem countLock_tsSplit : (countLock e pos s).tsSplit = s.tsSplit := by
  simp only [countLock]; repeat' split
  all_goals simp
@[simp] theorem countLock_priv : (countLock e pos s).priv = s.priv := by
  simp only [countLock]; repeat' split
  all_goals simp
@[simp] theorem countLock_sup : (countLock e pos s).sup = s.sup := by
  simp only [countLock]; repeat' split
  all_goals simp
@[simp] theorem countLock_pairs : (countLock e pos s).pairs = s.pairs := by
  simp only [countLock]; repeat' split
  all_goals simp
@[simp] theorem countLock_reqs : (countLock e pos s).reqs = s.reqs := by
  simp only [countLock]; repeat' split
  all_goals simp
@[simp] theorem countLock_served : (countLock e pos s).served = s.served := by
  simp only [countLock]; repeat' split
  all_goals simp
@[simp] theorem countLock_mirrors : (countLock e pos s).mirrors = s.mirrors := by
  simp only [countLock]; repeat' split
  all_goals simp
@[simp] theorem countLock_bindings : (countLock e pos s).bindings = s.bindings := by
  simp only [countLock]; repeat' split
  all_goals simp
@[simp] theorem countLock_arrivals : (countLock e pos s).arrivals = s.arrivals := by
  simp only [countLock]; repeat' split
  all_goals simp
@[simp] theorem countLock_late : (countLock e pos s).late = s.late := by
  simp only [countLock]; repeat' split
  all_goals simp
@[simp] theorem countLock_ovr : (countLock e pos s).ovr = s.ovr := by
  simp only [countLock]; repeat' split
  all_goals simp
@[simp] theorem countLock_mism : (countLock e pos s).mism = s.mism := by
  simp only [countLock]; repeat' split
  all_goals simp
@[simp] theorem countLock_viol : (countLock e pos s).viol = s.viol := by
  simp only [countLock]; repeat' split
  all_goals simp
@[simp] theorem countLock_violSeq : (countLock e pos s).violSeq = s.violSeq := by
  simp only [countLock]; repeat' split
  all_goals simp
@[simp] theorem countLock_violMasters : (countLock e pos s).violMasters = s.violMasters := by
  simp only [countLock]; repeat' split
  all_goals simp
@[simp] theorem countLock_speeds : (countLock e pos s).speeds = s.speeds := by
  simp only [countLock]; repeat' split
  all_goals simp
@[simp] theorem countLock_dayMin : (countLock e pos s).dayMin = s.dayMin := by
  simp only [countLock]; repeat' split
  all_goals simp
@[simp] theorem countLock_dayMinEng : (countLock e pos s).dayMinEng = s.dayMinEng := by
  simp only [countLock]; repeat' split
  all_goals simp
@[simp] theorem countLock_day : (countLock e pos s).day = s.day := by
  simp only [countLock]; repeat' split
  all_goals simp
@[simp] theorem countLock_ports : (countLock e pos s).ports = s.ports := by
  simp only [countLock]; repeat' split
  all_goals simp
@[simp] theorem countLock_time : (countLock e pos s).time = s.time := by
  simp only [countLock]; repeat' split
  all_goals simp
@[simp] theorem countLock_link : (countLock e pos s).link = s.link := by
  simp only [countLock]; repeat' split
  all_goals simp
@[simp] theorem countLock_nwt : (countLock e pos s).nwt = s.nwt := by
  simp only [countLock]; repeat' split
  all_goals simp
@[simp] theorem countLock_saf : (countLock e pos s).saf = s.saf := by
  simp only [countLock]; repeat' split
  all_goals simp
@[simp] theorem countLock_lio : (countLock e pos s).lio = s.lio := by
  simp only [countLock]; repeat' split
  all_goals simp
@[simp] theorem countLock_fpd : (countLock e pos s).fpd = s.fpd := by
  simp only [countLock]; repeat' split
  all_goals simp
@[simp] theorem countLock_pwr : (countLock e pos s).pwr = s.pwr := by
  simp only [countLock]; repeat' split
  all_goals simp
@[simp] theorem countLock_sig : (countLock e pos s).sig = s.sig := by
  simp only [countLock]; repeat' split
  all_goals simp
@[simp] theorem countLock_c37 : (countLock e pos s).c37 = s.c37 := by
  simp only [countLock]; repeat' split
  all_goals simp
@[simp] theorem countLock_boot : (countLock e pos s).boot = s.boot := by
  simp only [countLock]; repeat' split
  all_goals simp
@[simp] theorem countLock_net : (countLock e pos s).net = s.net := by
  simp only [countLock]; repeat' split
  all_goals simp
@[simp] theorem countLock_sess : (countLock e pos s).sess = s.sess := by
  simp only [countLock]; repeat' split
  all_goals simp
@[simp] theorem countLock_hostQ : (countLock e pos s).hostQ = s.hostQ := by
  simp only [countLock]; repeat' split
  all_goals simp
@[simp] theorem countLock_vault : (countLock e pos s).vault = s.vault := by
  simp only [countLock]; repeat' split
  all_goals simp
@[simp] theorem countLock_rng : (countLock e pos s).rng = s.rng := by
  simp only [countLock]; repeat' split
  all_goals simp
@[simp] theorem countLock_grant : (countLock e pos s).grant = s.grant := by
  simp only [countLock]; repeat' split
  all_goals simp
@[simp] theorem countLock_log : (countLock e pos s).log = s.log := by
  simp only [countLock]; repeat' split
  all_goals simp
@[simp] theorem countLock_trace : (countLock e pos s).trace = s.trace := by
  simp only [countLock]; repeat' split
  all_goals simp
end

section
variable (e delta : Nat) (s : State)
@[simp] theorem lateRelease_pending : (lateRelease e delta s).pending = s.pending := by
  simp only [lateRelease]; split <;> simp
@[simp] theorem lateRelease_now : (lateRelease e delta s).now = s.now := by
  simp only [lateRelease]; split <;> simp
@[simp] theorem lateRelease_fresh : (lateRelease e delta s).fresh = s.fresh := by
  simp only [lateRelease]; split <;> simp
@[simp] theorem lateRelease_out : (lateRelease e delta s).out = s.out := by
  simp only [lateRelease]; split <;> simp
@[simp] theorem lateRelease_mst : (lateRelease e delta s).mst = s.mst := by
  simp only [lateRelease]; split <;> simp
@[simp] theorem lateRelease_mlast : (lateRelease e delta s).mlast = s.mlast := by
  simp only [lateRelease]; split <;> simp
@[simp] theorem lateRelease_stopReq : (lateRelease e delta s).stopReq = s.stopReq := by
  simp only [lateRelease]; split <;> simp
@[simp] theorem lateRelease_stopActivate : (lateRelease e delta s).stopActivate = s.stopActivate := by
  simp only [lateRelease]; split <;> simp
@[simp] theorem lateRelease_armReq : (lateRelease e delta s).armReq = s.armReq := by
  simp only [lateRelease]; split <;> simp
@[simp] theorem lateRelease_waiters : (lateRelease e delta s).waiters = s.waiters := by
  simp only [lateRelease]; split <;> simp
@[simp] theorem lateRelease_owed : (lateRelease e delta s).owed = s.owed := by
  simp only [lateRelease]; split <;> simp
@[simp] theorem lateRelease_ends : (lateRelease e delta s).ends = s.ends := by
  simp only [lateRelease]; split <;> simp
@[simp] theorem lateRelease_latch : (lateRelease e delta s).latch = s.latch := by
  simp only [lateRelease]; split <;> simp
@[simp] theorem lateRelease_mem : (lateRelease e delta s).mem = s.mem := by
  simp only [lateRelease]; split <;> simp
@[simp] theorem lateRelease_chk : (lateRelease e delta s).chk = s.chk := by
  simp only [lateRelease]; split <;> simp
@[simp] theorem lateRelease_ts : (lateRelease e delta s).ts = s.ts := by
  simp only [lateRelease]; split <;> simp
@[simp] theorem lateRelease_tsRepairs : (lateRelease e delta s).tsRepairs = s.tsRepairs := by
  simp only [lateRelease]; split <;> simp
@[simp] theorem lateRelease_tsSplit : (lateRelease e delta s).tsSplit = s.tsSplit := by
  simp only [lateRelease]; split <;> simp
@[simp] theorem lateRelease_priv : (lateRelease e delta s).priv = s.priv := by
  simp only [lateRelease]; split <;> simp
@[simp] theorem lateRelease_eng : (lateRelease e delta s).eng = s.eng := by
  simp only [lateRelease]; split <;> simp
@[simp] theorem lateRelease_sup : (lateRelease e delta s).sup = s.sup := by
  simp only [lateRelease]; split <;> simp
@[simp] theorem lateRelease_pairs : (lateRelease e delta s).pairs = s.pairs := by
  simp only [lateRelease]; split <;> simp
@[simp] theorem lateRelease_reqs : (lateRelease e delta s).reqs = s.reqs := by
  simp only [lateRelease]; split <;> simp
@[simp] theorem lateRelease_served : (lateRelease e delta s).served = s.served := by
  simp only [lateRelease]; split <;> simp
@[simp] theorem lateRelease_mirrors : (lateRelease e delta s).mirrors = s.mirrors := by
  simp only [lateRelease]; split <;> simp
@[simp] theorem lateRelease_bindings : (lateRelease e delta s).bindings = s.bindings := by
  simp only [lateRelease]; split <;> simp
@[simp] theorem lateRelease_arrivals : (lateRelease e delta s).arrivals = s.arrivals := by
  simp only [lateRelease]; split <;> simp
@[simp] theorem lateRelease_ovr : (lateRelease e delta s).ovr = s.ovr := by
  simp only [lateRelease]; split <;> simp
@[simp] theorem lateRelease_mism : (lateRelease e delta s).mism = s.mism := by
  simp only [lateRelease]; split <;> simp
@[simp] theorem lateRelease_viol : (lateRelease e delta s).viol = s.viol := by
  simp only [lateRelease]; split <;> simp
@[simp] theorem lateRelease_violSeq : (lateRelease e delta s).violSeq = s.violSeq := by
  simp only [lateRelease]; split <;> simp
@[simp] theorem lateRelease_violMasters : (lateRelease e delta s).violMasters = s.violMasters := by
  simp only [lateRelease]; split <;> simp
@[simp] theorem lateRelease_speeds : (lateRelease e delta s).speeds = s.speeds := by
  simp only [lateRelease]; split <;> simp
@[simp] theorem lateRelease_dayMin : (lateRelease e delta s).dayMin = s.dayMin := by
  simp only [lateRelease]; split <;> simp
@[simp] theorem lateRelease_dayMinEng : (lateRelease e delta s).dayMinEng = s.dayMinEng := by
  simp only [lateRelease]; split <;> simp
@[simp] theorem lateRelease_ports : (lateRelease e delta s).ports = s.ports := by
  simp only [lateRelease]; split <;> simp
@[simp] theorem lateRelease_time : (lateRelease e delta s).time = s.time := by
  simp only [lateRelease]; split <;> simp
@[simp] theorem lateRelease_link : (lateRelease e delta s).link = s.link := by
  simp only [lateRelease]; split <;> simp
@[simp] theorem lateRelease_nwt : (lateRelease e delta s).nwt = s.nwt := by
  simp only [lateRelease]; split <;> simp
@[simp] theorem lateRelease_saf : (lateRelease e delta s).saf = s.saf := by
  simp only [lateRelease]; split <;> simp
@[simp] theorem lateRelease_lio : (lateRelease e delta s).lio = s.lio := by
  simp only [lateRelease]; split <;> simp
@[simp] theorem lateRelease_fpd : (lateRelease e delta s).fpd = s.fpd := by
  simp only [lateRelease]; split <;> simp
@[simp] theorem lateRelease_pwr : (lateRelease e delta s).pwr = s.pwr := by
  simp only [lateRelease]; split <;> simp
@[simp] theorem lateRelease_sig : (lateRelease e delta s).sig = s.sig := by
  simp only [lateRelease]; split <;> simp
@[simp] theorem lateRelease_c37 : (lateRelease e delta s).c37 = s.c37 := by
  simp only [lateRelease]; split <;> simp
@[simp] theorem lateRelease_boot : (lateRelease e delta s).boot = s.boot := by
  simp only [lateRelease]; split <;> simp
@[simp] theorem lateRelease_net : (lateRelease e delta s).net = s.net := by
  simp only [lateRelease]; split <;> simp
@[simp] theorem lateRelease_sess : (lateRelease e delta s).sess = s.sess := by
  simp only [lateRelease]; split <;> simp
@[simp] theorem lateRelease_hostQ : (lateRelease e delta s).hostQ = s.hostQ := by
  simp only [lateRelease]; split <;> simp
@[simp] theorem lateRelease_vault : (lateRelease e delta s).vault = s.vault := by
  simp only [lateRelease]; split <;> simp
@[simp] theorem lateRelease_rng : (lateRelease e delta s).rng = s.rng := by
  simp only [lateRelease]; split <;> simp
@[simp] theorem lateRelease_grant : (lateRelease e delta s).grant = s.grant := by
  simp only [lateRelease]; split <;> simp
@[simp] theorem lateRelease_log : (lateRelease e delta s).log = s.log := by
  simp only [lateRelease]; split <;> simp
end

section
variable (e r : Nat) (s : State)
@[simp] theorem released_pending : (released e r s).pending = s.pending := by
  simp only [released, modEngine_pending]
@[simp] theorem released_now : (released e r s).now = s.now := by
  simp only [released, modEngine_now]
@[simp] theorem released_fresh : (released e r s).fresh = s.fresh := by
  simp only [released, modEngine_fresh]
@[simp] theorem released_out : (released e r s).out = s.out := by
  simp only [released, modEngine_out]
@[simp] theorem released_mst : (released e r s).mst = s.mst := by
  simp only [released, modEngine_mst]
@[simp] theorem released_mlast : (released e r s).mlast = s.mlast := by
  simp only [released, modEngine_mlast]
@[simp] theorem released_stopReq : (released e r s).stopReq = s.stopReq := by
  simp only [released, modEngine_stopReq]
@[simp] theorem released_stopActivate : (released e r s).stopActivate = s.stopActivate := by
  simp only [released, modEngine_stopActivate]
@[simp] theorem released_armReq : (released e r s).armReq = s.armReq := by
  simp only [released, modEngine_armReq]
@[simp] theorem released_regs : (released e r s).regs = s.regs := by
  simp only [released, modEngine_regs]
@[simp] theorem released_tk : (released e r s).tk = s.tk := by
  simp only [released, modEngine_tk]
@[simp] theorem released_waiters : (released e r s).waiters = s.waiters := by
  simp only [released, modEngine_waiters]
@[simp] theorem released_owed : (released e r s).owed = s.owed := by
  simp only [released, modEngine_owed]
@[simp] theorem released_ends : (released e r s).ends = s.ends := by
  simp only [released, modEngine_ends]
@[simp] theorem released_latch : (released e r s).latch = s.latch := by
  simp only [released, modEngine_latch]
@[simp] theorem released_mem : (released e r s).mem = s.mem := by
  simp only [released, modEngine_mem]
@[simp] theorem released_chk : (released e r s).chk = s.chk := by
  simp only [released, modEngine_chk]
@[simp] theorem released_ts : (released e r s).ts = s.ts := by
  simp only [released, modEngine_ts]
@[simp] theorem released_tsRepairs : (released e r s).tsRepairs = s.tsRepairs := by
  simp only [released, modEngine_tsRepairs]
@[simp] theorem released_tsSplit : (released e r s).tsSplit = s.tsSplit := by
  simp only [released, modEngine_tsSplit]
@[simp] theorem released_priv : (released e r s).priv = s.priv := by
  simp only [released, modEngine_priv]
@[simp] theorem released_sup : (released e r s).sup = s.sup := by
  simp only [released, modEngine_sup]
@[simp] theorem released_pairs : (released e r s).pairs = s.pairs := by
  simp only [released, modEngine_pairs]
@[simp] theorem released_reqs : (released e r s).reqs = s.reqs := by
  simp only [released, modEngine_reqs]
@[simp] theorem released_served : (released e r s).served = s.served := by
  simp only [released, modEngine_served]
@[simp] theorem released_mirrors : (released e r s).mirrors = s.mirrors := by
  simp only [released, modEngine_mirrors]
@[simp] theorem released_bindings : (released e r s).bindings = s.bindings := by
  simp only [released, modEngine_bindings]
@[simp] theorem released_arrivals : (released e r s).arrivals = s.arrivals := by
  simp only [released, modEngine_arrivals]
@[simp] theorem released_late : (released e r s).late = s.late := by
  simp only [released, modEngine_late]
@[simp] theorem released_ovr : (released e r s).ovr = s.ovr := by
  simp only [released, modEngine_ovr]
@[simp] theorem released_mism : (released e r s).mism = s.mism := by
  simp only [released, modEngine_mism]
@[simp] theorem released_viol : (released e r s).viol = s.viol := by
  simp only [released, modEngine_viol]
@[simp] theorem released_violSeq : (released e r s).violSeq = s.violSeq := by
  simp only [released, modEngine_violSeq]
@[simp] theorem released_violMasters : (released e r s).violMasters = s.violMasters := by
  simp only [released, modEngine_violMasters]
@[simp] theorem released_speeds : (released e r s).speeds = s.speeds := by
  simp only [released, modEngine_speeds]
@[simp] theorem released_dayMin : (released e r s).dayMin = s.dayMin := by
  simp only [released, modEngine_dayMin]
@[simp] theorem released_dayMinEng : (released e r s).dayMinEng = s.dayMinEng := by
  simp only [released, modEngine_dayMinEng]
@[simp] theorem released_day : (released e r s).day = s.day := by
  simp only [released, modEngine_day]
@[simp] theorem released_ports : (released e r s).ports = s.ports := by
  simp only [released, modEngine_ports]
@[simp] theorem released_time : (released e r s).time = s.time := by
  simp only [released, modEngine_time]
@[simp] theorem released_link : (released e r s).link = s.link := by
  simp only [released, modEngine_link]
@[simp] theorem released_nwt : (released e r s).nwt = s.nwt := by
  simp only [released, modEngine_nwt]
@[simp] theorem released_saf : (released e r s).saf = s.saf := by
  simp only [released, modEngine_saf]
@[simp] theorem released_lio : (released e r s).lio = s.lio := by
  simp only [released, modEngine_lio]
@[simp] theorem released_fpd : (released e r s).fpd = s.fpd := by
  simp only [released, modEngine_fpd]
@[simp] theorem released_pwr : (released e r s).pwr = s.pwr := by
  simp only [released, modEngine_pwr]
@[simp] theorem released_sig : (released e r s).sig = s.sig := by
  simp only [released, modEngine_sig]
@[simp] theorem released_c37 : (released e r s).c37 = s.c37 := by
  simp only [released, modEngine_c37]
@[simp] theorem released_boot : (released e r s).boot = s.boot := by
  simp only [released, modEngine_boot]
@[simp] theorem released_net : (released e r s).net = s.net := by
  simp only [released, modEngine_net]
@[simp] theorem released_sess : (released e r s).sess = s.sess := by
  simp only [released, modEngine_sess]
@[simp] theorem released_hostQ : (released e r s).hostQ = s.hostQ := by
  simp only [released, modEngine_hostQ]
@[simp] theorem released_vault : (released e r s).vault = s.vault := by
  simp only [released, modEngine_vault]
@[simp] theorem released_rng : (released e r s).rng = s.rng := by
  simp only [released, modEngine_rng]
@[simp] theorem released_grant : (released e r s).grant = s.grant := by
  simp only [released, modEngine_grant]
@[simp] theorem released_lastFSec : (released e r s).lastFSec = s.lastFSec := by
  simp only [released, modEngine_lastFSec]
@[simp] theorem released_logQ : (released e r s).logQ = s.logQ := by
  simp only [released, modEngine_logQ]
@[simp] theorem released_log : (released e r s).log = s.log := by
  simp only [released, modEngine_log]
@[simp] theorem released_telem : (released e r s).telem = s.telem := by
  simp only [released, modEngine_telem]
@[simp] theorem released_trace : (released e r s).trace = s.trace := by
  simp only [released, modEngine_trace]
end

end Sys2Proof.Machine
end

