-- ==== Sys2Proof/Laws/Release.lean ====
section
/-! SUPPORT. What the release of an instruction does: a plant engine's result joins those in flight, a supervisor engine's is
in place at once (R70 to R73, R101 to R104, R114, R115). -/

namespace Sys2Proof.Machine

theorem engine_congr {s t : State} (h : t.eng = s.eng) (e : Nat) : engine t e = engine s e := by rw [engine, engine, h]

@[simp] theorem engine_modEngine_same (e : Nat) (f : Engine → Engine) (s : State) (h : rising s.eng) :
    engine (modEngine e f s) e = f (engine s e) := engine_setEngine_same _ _ _ h

theorem engine_modEngine_ne (e j : Nat) (f : Engine → Engine) (s : State) (h : rising s.eng) (hj : j ≠ e) :
    engine (modEngine e f s) j = engine s j := engine_setEngine_ne _ _ _ _ h hj

theorem modEngine_rising (e : Nat) (f : Engine → Engine) (s : State) (h : rising s.eng) : rising (modEngine e f s).eng :=
  tabSet_rising _ _ _ _ h

theorem modEngine_frame (e : Nat) (f : Engine → Engine) (s : State) : modEngine e f s = { s with eng := (modEngine e f s).eng } :=
  rfl

/-! Results in flight and the plan position. -/

theorem mem_flyInsert (l x : Landing) (fs : List Landing) : x ∈ flyInsert l fs ↔ x = l ∨ x ∈ fs := by
  induction fs with
  | nil => simp [flyInsert]
  | cons y t ih =>
    simp only [flyInsert]
    split
    · simp
    · simp only [List.mem_cons, ih]; tauto

theorem addLanding_fly (land ord cls pos : Nat) (cap entry : Bool) (fs : List Effect) (x : Engine) (l : Landing) :
    l ∈ (addLanding land ord cls pos cap fs x entry).fly ↔
      l = { land := land, ord := ord, cls := cls, word := pos, effs := fs, shared := false, capture := cap, due := land, entry := entry }
        ∨ l ∈ x.fly :=
  mem_flyInsert _ _ _

theorem stepPos_fly (now : Nat) (x : Engine) (l : Landing) (h : l ∈ x.fly) : l ∈ (stepPos now x).fly := by
  unfold stepPos
  simp only
  split
  · exact h
  · exact (addLanding_fly _ _ _ _ _ _ _ _ _).2 (.inr h)

theorem stepPos_arch (now : Nat) (x : Engine) : archKept x (stepPos now x) := by
  unfold stepPos archKept
  simp only
  split <;> simp [addLanding]

theorem countStep_arch (x : Engine) : archKept x (countStep x) := by unfold countStep archKept; split <;> simp

theorem countStep_fly (x : Engine) : (countStep x).fly = x.fly := by unfold countStep; split <;> rfl

theorem takeUnit_arch (now : Nat) (held : List Nat) (u : UnitKind) (x : Engine) : archKept x (takeUnit now held u x) := by
  cases u <;> simp [takeUnit, archKept]

theorem takeUnit_fly (now : Nat) (held : List Nat) (u : UnitKind) (x : Engine) : (takeUnit now held u x).fly = x.fly := by cases u <;> rfl

theorem archKept.trans {x y z : Engine} (h : archKept x y) (k : archKept y z) : archKept x z := by
  obtain ⟨a1, a2, a3, a4, a5, a6, a7, a8⟩ := h
  obtain ⟨b1, b2, b3, b4, b5, b6, b7, b8⟩ := k
  exact ⟨b1.trans a1, b2.trans a2, b3.trans a3, b4.trans a4, b5.trans a5, b6.trans a6, b7.trans a7, b8.trans a8⟩

/-! Brackets. -/

/-- Counting an instruction of a bracket changes the engine's lock state alone, and raises 0x183 when it closes it. -/
theorem countLock_engine (e pos : Nat) (s : State) (h : rising s.eng) :
    archKept (engine s e) (engine (countLock e pos s) e) ∧ (engine (countLock e pos s) e).fly = (engine s e).fly
      ∧ (engine (countLock e pos s) e).ord = (engine s e).ord ∧ (engine (countLock e pos s) e).pos = (engine s e).pos
      ∧ (engine (countLock e pos s) e).loops = (engine s e).loops := by
  unfold countLock
  simp only
  split
  · split
    · simp [engine_setEngine_same _ _ _ h, archKept]
    · rw [engine_congr (raise_eng _ _ _)]
      simp [engine_setEngine_same _ _ _ h, archKept]
  · simp [archKept]

theorem countLock_engine_ne (e j pos : Nat) (s : State) (h : rising s.eng) (hj : j ≠ e) :
    engine (countLock e pos s) j = engine s j := by
  unfold countLock
  simp only
  split
  · split
    · exact engine_setEngine_ne _ _ _ _ h hj
    · rw [engine_congr (raise_eng _ _ _)]; exact engine_setEngine_ne _ _ _ _ h hj
  · rfl

theorem countLock_rising (e pos : Nat) (s : State) (h : rising s.eng) : rising (countLock e pos s).eng := by
  unfold countLock
  simp only
  split
  · split
    · exact tabSet_rising _ _ _ _ h
    · rw [raise_eng]; exact tabSet_rising _ _ _ _ h
  · exact h

theorem countLock_open (e pos : Nat) (s : State) (h : (engine s e).lockOpen = true → (engine s e).lockCnt < 31) :
    countLock e pos s = { s with eng := (countLock e pos s).eng } := by
  unfold countLock
  simp only
  split
  · rename_i ho
    split
    · rfl
    · have := h ho; omega
  · rfl

theorem countLock_reg (e pos : Nat) (s : State) (h : rising s.regs) (a : Nat) (h1 : a ≠ midLastF) (h2 : a ≠ midLog) :
    reg (countLock e pos s) a = reg s a := by
  unfold countLock
  simp only
  split
  · split
    · rfl
    · exact raise_reg _ _ (setEngine s e _) h a h1 h2
  · rfl

/-! Late releases. -/

theorem lateRelease_punctual (e delta : Nat) (s : State) (h : s.now ≤ (engine s e).prev + delta) : lateRelease e delta s = s := by
  simp only [lateRelease]; rw [if_neg (by omega)]

theorem lateRecord_rising (code master pos sch act : Nat) (s : State) (h : rising s.regs) :
    rising (lateRecord code master pos sch act s).regs := by
  unfold lateRecord; simp only; split
  · exact setBit_rising _ _ _ _ h
  · exact addSat_rising _ _ _ _ _ (setBit_rising _ _ _ _ h)

theorem lateRecord_reg (code master pos sch act : Nat) (s : State) (h : rising s.regs) (a : Nat) (ha : a ≠ fabStatus) :
    reg (lateRecord code master pos sch act s) a = reg s a := by
  unfold lateRecord; simp only; split
  · exact reg_setBit_ne s fabStatus 0 a true h ha
  · rw [reg_addSat_ne _ _ _ _ _ _ (setBit_rising _ _ _ _ h) ha]; exact reg_setBit_ne s fabStatus 0 a true h ha

theorem traceEngine_reg (e ty kind value pos : Nat) (s : State) (h : rising s.regs) (a : Nat) (ha : a ≠ dbgTrStat) :
    reg (traceEngine e ty kind value pos s) a = reg s a := by
  unfold traceEngine; split
  · unfold traceRec; split
    · rfl
    · exact reg_addSat_ne _ _ _ _ _ _ h ha
  · rfl

theorem traceEngine_rising (e ty kind value pos : Nat) (s : State) (h : rising s.regs) :
    rising (traceEngine e ty kind value pos s).regs := by
  unfold traceEngine; split
  · unfold traceRec; split
    · exact h
    · exact addSat_rising _ _ _ _ _ h
  · exact h

theorem lateWith_rising (code master pos sch act detail : Nat) (s : State) (h : rising s.regs) :
    rising (lateWith code master pos sch act detail s).regs := by
  unfold lateWith
  rw [breach_regs]
  exact traceEngine_rising _ _ _ _ _ _ (raise_rising _ _ _ (lateRecord_rising _ _ _ _ _ _ h))

/-- A late event writes four registers at most. -/
theorem lateWith_reg (code master pos sch act detail : Nat) (s : State) (h : rising s.regs) (a : Nat) (h1 : a ≠ fabStatus)
    (h2 : a ≠ midLastF) (h3 : a ≠ midLog) (h4 : a ≠ dbgTrStat) : reg (lateWith code master pos sch act detail s) a = reg s a := by
  unfold lateWith
  rw [reg, breach_regs, ← reg, traceEngine_reg _ _ _ _ _ _ (raise_rising _ _ _ (lateRecord_rising _ _ _ _ _ _ h)) _ h4,
    raise_reg _ _ _ (lateRecord_rising _ _ _ _ _ _ h) _ h2 h3, lateRecord_reg _ _ _ _ _ _ h _ h1]

theorem lateRelease_rising (e delta : Nat) (s : State) (h : rising s.regs) : rising (lateRelease e delta s).regs := by
  simp only [lateRelease]; split
  · exact lateWith_rising _ _ _ _ _ _ _ h
  · exact h

theorem lateRelease_reg (e delta : Nat) (s : State) (h : rising s.regs) (a : Nat) (h1 : a ≠ fabStatus) (h2 : a ≠ midLastF)
    (h3 : a ≠ midLog) (h4 : a ≠ dbgTrStat) : reg (lateRelease e delta s) a = reg s a := by
  simp only [lateRelease]; split
  · exact lateWith_reg _ _ _ _ _ _ _ h _ h1 h2 h3 h4
  · rfl

/-! A plant engine's release. -/

/-- R67 to R71: a ready instruction whose condition holds executes, and the release is booked. -/
theorem plantRelease_ready (s : State) (e : Fin 1028) (i : Instr) (delta : Nat) (neg : Bool) (pred : BitVec 3) (k : Issue)
    (hr : plantReady s e i delta k.unit) (hc : condHolds (engine s e) neg pred = true) :
    plantRelease e (wellFormed i) (sources i) delta neg pred k s =
      released e (if k.wait then s.now else (engine s e).prev + delta)
        (countLock e (engine s e).pos (execBody e k (lateRelease e delta s))) := by
  obtain ⟨-, hw, hm, hh, hf⟩ := hr
  have hf' : fetchBad (lateRelease e delta s) e = false := by
    simpa [fetchBad, chkOf, engine] using hf
  simp [plantRelease, mayIssue, reservedHere, countIf, hm, hh, hw, hf, hf', hc]

/-- R68, R114: under a false condition it does what the instruction does then, and is released all the same; it counts in a bracket only
if it is a LOCK or UNLOCK. -/
theorem plantRelease_false (s : State) (e : Fin 1028) (i : Instr) (delta : Nat) (neg : Bool) (pred : BitVec 3) (k : Issue)
    (hr : plantReady s e i delta k.unit) (hc : condHolds (engine s e) neg pred = false) :
    plantRelease e (wellFormed i) (sources i) delta neg pred k s =
      released e (if k.wait then s.now else (engine s e).prev + delta)
        (countIf k.counts e (engine s e).pos (execBody e k.idle (lateRelease e delta s))) := by
  obtain ⟨-, hw, hm, hh, hf⟩ := hr
  have hf' : fetchBad (lateRelease e delta s) e = false := by
    simpa [fetchBad, chkOf, engine] using hf
  simp [plantRelease, mayIssue, reservedHere, countIf, hm, hh, hw, hf, hf', hc]

/-- Booking a release keeps the engine's architectural registers and every result in flight. -/
theorem released_engine (e r : Nat) (s : State) (h : rising s.eng) :
    archKept (engine s e) (engine (released e r s) e) ∧ ∀ l ∈ (engine s e).fly, l ∈ (engine (released e r s) e).fly := by
  rw [released, engine_modEngine_same _ _ _ h]
  refine ⟨?_, fun l hl => ?_⟩
  · exact archKept.trans (y := { engine s e with prev := r, ord := (engine s e).ord + 1, entry := none, ran := true, lastRel := s.now + 1 })
      ⟨rfl, rfl, rfl, rfl, rfl, rfl, rfl, rfl⟩ ((stepPos_arch _ _).trans (countStep_arch _))
  · rw [countStep_fly]; exact stepPos_fly _ _ _ hl

/-- The frame of a release whose body changes its engine's table alone. -/
theorem release_frame_of (s u : State) (e : Nat) (delta r pos : Nat) (f : Engine → Engine) (hw : s.wf)
    (hu : u = modEngine e f (lateRelease e delta s))
    (hl : ∀ x, (f x).lockOpen = x.lockOpen ∧ (f x).lockCnt = x.lockCnt) :
    releaseFrame s (released e r (countLock e pos u)) e delta := by
  obtain ⟨hregs, hmem, hchk, hts, hpriv, heng, -⟩ := hw
  have hel : (lateRelease e delta s).eng = s.eng := lateRelease_eng _ _ _
  have heu : rising u.eng := by rw [hu]; exact modEngine_rising _ _ _ (by rw [hel]; exact heng)
  have hec := countLock_rising e pos u heu
  have key : ∀ a, a ≠ fabStatus → a ≠ dbgTrStat → a ≠ midLastF → a ≠ midLog →
      reg (released e r (countLock e pos u)) a = reg s a := by
    intro a h1 h2 h3 h4
    have h5 : rising u.regs := by rw [hu]; exact lateRelease_rising _ _ _ hregs
    have h6 : reg (released e r (countLock e pos u)) a = reg (countLock e pos u) a := by simp [reg]
    have h7 : reg u a = reg (lateRelease e delta s) a := by rw [hu]; simp [reg]
    rw [h6, countLock_reg _ _ _ h5 _ h3 h4, h7, lateRelease_reg _ _ _ hregs _ h1 h3 h4 h2]
  refine ⟨?_, by simp [hu], ?_, ?_⟩
  on_goal 2 => and_intros
  on_goal 1 =>
    intro j hj
    rw [released, engine_modEngine_ne _ _ _ _ hec hj, countLock_engine_ne _ _ _ _ heu hj, hu,
      engine_modEngine_ne _ _ _ _ (by rw [hel]; exact heng) hj, engine_congr hel]
  on_goal 15 =>
    intro a ha h3 h4
    simp only [List.mem_cons, List.not_mem_nil, or_false, not_or] at ha
    exact key a ha.1 ha.2 h3 h4
  on_goal 15 =>
    rintro ⟨hp, hk⟩
    rw [lateRelease_punctual _ _ _ hp] at hu
    have h2 : (engine u e).lockOpen = true → (engine u e).lockCnt < 31 := by
      rw [hu, engine_modEngine_same _ _ _ heng, (hl _).1, (hl _).2]; exact hk
    rw [released, countLock_open _ _ _ h2, hu]
    rfl
  all_goals simp [hu]

/-- R71: a ready computing instruction of a plant engine puts its result in flight. -/
theorem plant_issued (s : State) (e : Fin 1028) (i : Instr) (delta : Nat) (neg : Bool) (pred : BitVec 3) (k : Issue)
    (F : Engine → List Effect) (hx : exec i s = release e i delta neg pred k s) (hb : k.body = resultOf F)
    (hne : (F (engine s e)).isEmpty = false) (hw : s.wf) (hr : plantReady s e i delta k.unit)
    (hc : condHolds (engine s e) neg pred = true) :
    ∃ t, exec i s = .next t ∧ issued s t e delta k.cls k.dur (F (engine s e)) := by
  have hel : (lateRelease e delta s).eng = s.eng := lateRelease_eng _ _ _
  have hnl : (lateRelease e delta s).now = s.now := lateRelease_now _ _ _
  have heng := hw.2.2.2.2.2.1
  obtain ⟨H, hH⟩ : ∃ H, portHeld (lateRelease e delta s) e = H := ⟨_, rfl⟩
  have hE : execBody e k (lateRelease e delta s) =
      modEngine e (fun x => addLanding (s.now + k.dur) (takeUnit s.now H k.unit x).ord k.cls (engine s e).pos k.cap
        (F (engine s e)) (takeUnit s.now H k.unit x) k.entry) (lateRelease e delta s) := by
    simp only [execBody, hb, resultOf, engine_congr hel, hnl, hne, hH]; rfl
  have hru : rising (lateRelease e delta s).eng := by rw [hel]; exact heng
  have heu := modEngine_rising e (fun x => addLanding (s.now + k.dur) (takeUnit s.now H k.unit x).ord k.cls (engine s e).pos k.cap
        (F (engine s e)) (takeUnit s.now H k.unit x) k.entry) _ hru
  obtain ⟨c1, c2, c3, c4, c5⟩ := countLock_engine e (engine s e).pos _ (hE ▸ heu)
  refine ⟨released e (if k.wait then s.now else (engine s e).prev + delta) (countLock e (engine s e).pos (execBody e k (lateRelease e delta s))),
    ?_, ⟨⟨s.now + k.dur, (takeUnit s.now H k.unit (engine s e)).ord, k.cls, (engine s e).pos, F (engine s e), false, k.cap, s.now + k.dur,
      k.entry⟩, ?_, rfl, rfl, rfl, rfl⟩, ?_, ?_⟩
  · rw [hx, release, if_pos hr.1, plantRelease_ready _ _ _ _ _ _ _ hr hc]
  · refine (released_engine _ _ _ (countLock_rising _ _ _ (hE ▸ heu))).2 _ ?_
    rw [c2, hE, engine_modEngine_same _ _ _ hru, engine_congr hel]
    exact (addLanding_fly _ _ _ _ _ _ _ _ _).2 (.inl rfl)
  · have hA : archKept (engine s e) (engine (execBody e k (lateRelease e delta s)) e) := by
      rw [hE, engine_modEngine_same _ _ _ hru, engine_congr hel]
      exact takeUnit_arch _ _ _ _
    exact (hA.trans c1).trans (released_engine _ _ _ (countLock_rising _ _ _ (hE ▸ heu))).1
  · exact release_frame_of s _ e delta _ _ _ hw hE (fun x => by cases k.unit <;> exact ⟨rfl, rfl⟩)

/-! A supervisor engine's release. -/

/-- Effects on registers, predicates and flags that no CLRF is among. -/
def plainEffect : Effect → Bool
  | .reg _ _ | .pred _ _ | .flag _ => true
  | _ => false

theorem wGet_wSet (d r : Nat) (v : Word) (x : Engine) (h : rising x.w) (hr : r % 64 ≠ 0) :
    wGet (wSet d v x) r = if d % 64 = r % 64 then v else wGet x r := by
  unfold wSet
  by_cases hd : d % 64 = 0
  · rw [if_pos hd, if_neg (by omega)]
  · rw [if_neg hd]
    unfold wGet
    rw [if_neg hr, if_neg hr]
    by_cases hdr : d % 64 = r % 64
    · rw [if_pos hdr, hdr]; exact tabGet_tabSet_same _ _ _ _ h
    · rw [if_neg hdr]; exact tabGet_tabSet_other _ _ _ _ _ _ h (fun he => hdr he.symm)

theorem wSet_rising (d : Nat) (v : Word) (x : Engine) (h : rising x.w) : rising (wSet d v x).w := by
  unfold wSet; split
  · exact h
  · exact tabSet_rising _ _ _ _ h

theorem splice_bit (v k : Nat) (b : Bool) (n : Nat) :
    (splice v k k (if b then 1 else 0)).testBit n = if n = k then b else v.testBit n := by
  have h1 : k + 1 - k = 1 := by omega
  by_cases hn : n = k
  · subst hn
    rw [if_pos rfl]
    have := slice_splice_same v n n (if b then 1 else 0) le_rfl
    rw [slice, h1, pow_one] at this
    rw [Nat.testBit_eq_decide_div_mod_eq, this]
    cases b <;> rfl
  · rw [if_neg hn]
    have := slice_splice_other v k k (if b then 1 else 0) n n le_rfl le_rfl (by omega)
    have h2 : n + 1 - n = 1 := by omega
    rw [slice, slice, h2, pow_one] at this
    rw [Nat.testBit_eq_decide_div_mod_eq, Nat.testBit_eq_decide_div_mod_eq, this]

theorem pGet_pSet (d n : Nat) (v : Bool) (x : Engine) (hn : n % 8 ≠ 0) :
    pGet (pSet d v x) n = if d % 8 = n % 8 then v else pGet x n := by
  unfold pSet
  by_cases hd : d % 8 = 0
  · rw [if_pos hd, if_neg (by omega)]
  · rw [if_neg hd]
    have hlt : n % 8 < 8 := Nat.mod_lt _ (by decide)
    simp only [pGet, BitVec.getLsbD_ofNat, splice_bit, hlt, decide_true, Bool.true_and]
    by_cases hdn : d % 8 = n % 8
    · simp [hdn, hn]
    · rw [if_neg (fun h => hdn h.symm), if_neg hdn]; rfl

/-- State `t` is state `s` with the effects `fs` in place at engine `e`, and all else as it was. -/
def effectsIn (s t : State) (e : Nat) (fs : List Effect) : Prop :=
  t = { s with eng := t.eng } ∧ rising t.eng ∧ rising (engine t e).w
    ∧ (∀ r, r % 64 ≠ 0 → wGet (engine t e) r = wAfter fs r (wGet (engine s e) r))
    ∧ (∀ n, n % 8 ≠ 0 → pGet (engine t e) n = pAfter fs n (pGet (engine s e) n))
    ∧ (engine t e).fV = fAfter fs 0 (engine s e).fV ∧ (engine t e).fS = fAfter fs 1 (engine s e).fS
    ∧ (engine t e).fD = fAfter fs 2 (engine s e).fD ∧ (∀ j, j ≠ e → engine t j = engine s j)
    ∧ (engine t e).loops = (engine s e).loops ∧ (engine t e).pos = (engine s e).pos

/-- What a list of plain effects leaves: registers, predicates and flags by their last writes, and all else as it was. -/
theorem applyAll_plain (e land pos : Nat) (fs : List Effect) (hp : ∀ f ∈ fs, plainEffect f = true) (s : State)
    (h : rising s.eng) (hw : rising (engine s e).w) : effectsIn s (applyAll e land pos fs s) e fs := by
  induction fs generalizing s with
  | nil => exact ⟨rfl, h, hw, fun _ _ => rfl, fun _ _ => rfl, rfl, rfl, rfl, fun _ _ => rfl, rfl, rfl⟩
  | cons f t ih =>
    have step : ∀ g : Engine → Engine, applyEffect e land pos f s = modEngine e g s → rising (g (engine s e)).w →
        (∀ r, r % 64 ≠ 0 → wAfter t r (wGet (g (engine s e)) r) = wAfter (f :: t) r (wGet (engine s e) r)) →
        (∀ n, n % 8 ≠ 0 → pAfter t n (pGet (g (engine s e)) n) = pAfter (f :: t) n (pGet (engine s e) n)) →
        fAfter t 0 (g (engine s e)).fV = fAfter (f :: t) 0 (engine s e).fV →
        fAfter t 1 (g (engine s e)).fS = fAfter (f :: t) 1 (engine s e).fS →
        fAfter t 2 (g (engine s e)).fD = fAfter (f :: t) 2 (engine s e).fD →
        (g (engine s e)).loops = (engine s e).loops → (g (engine s e)).pos = (engine s e).pos →
        effectsIn s (applyAll e land pos (f :: t) s) e (f :: t) := by
      intro g hg h1 h2 h3 h4 h5 h6 h7 h8
      have hm : engine (modEngine e g s) e = g (engine s e) := engine_modEngine_same _ _ _ h
      have hr := modEngine_rising e g s h
      obtain ⟨i1, i2, i3, i4, i5, i6, i7, i8, i9, i10, i11⟩ := ih (fun f hf => hp f (List.mem_cons_of_mem _ hf)) (modEngine e g s) hr
        (by rw [hm]; exact h1)
      have ha : applyAll e land pos (f :: t) s = applyAll e land pos t (modEngine e g s) := by
        rw [← hg]; rfl
      rw [ha]
      refine ⟨i1, i2, i3, fun r hr => ?_, fun n hn => ?_, ?_, ?_, ?_, fun j hj => ?_, ?_, ?_⟩
      · rw [i4 r hr, hm, h2 r hr]
      · rw [i5 n hn, hm, h3 n hn]
      · rw [i6, hm, h4]
      · rw [i7, hm, h5]
      · rw [i8, hm, h6]
      · rw [i9 j hj, engine_modEngine_ne _ _ _ _ h hj]
      · rw [i10, hm, h7]
      · rw [i11, hm, h8]
    have hf := hp f (List.mem_cons_self ..)
    cases f with
    | reg r v =>
      refine step (wSet r v) rfl (wSet_rising _ _ _ hw) (fun q hq => ?_) (fun n hn => ?_) ?_ ?_ ?_ ?_ ?_
      · rw [wGet_wSet _ _ _ _ hw hq]; simp only [wAfter, List.foldl_cons]
      all_goals (try unfold wSet); (try split) <;> rfl
    | pred m v =>
      refine step (pSet m v) rfl ?_ (fun q hq => ?_) (fun n hn => ?_) ?_ ?_ ?_ ?_ ?_
      on_goal 3 => rw [pGet_pSet _ _ _ _ hn]; simp only [pAfter, List.foldl_cons]
      all_goals unfold pSet; split <;> first | rfl | exact hw
    | flag g =>
      have hv : ∀ (k : Fin 3) (b : Bool), fAfter t k (b || g == k) = fAfter (.flag g :: t) k b := fun _ _ => rfl
      match g, hv with
      | 0, hv =>
        refine step (setFlag 0 land) rfl hw (fun _ _ => rfl) (fun _ _ => rfl) ?_ ?_ ?_ rfl rfl
        all_goals rw [← hv]; simp [setFlag]
      | 1, hv =>
        refine step (setFlag 1 land) rfl hw (fun _ _ => rfl) (fun _ _ => rfl) ?_ ?_ ?_ rfl rfl
        all_goals rw [← hv]; simp [setFlag]
      | 2, hv =>
        refine step (setFlag 2 land) rfl hw (fun _ _ => rfl) (fun _ _ => rfl) ?_ ?_ ?_ rfl rfl
        all_goals rw [← hv]; simp [setFlag]
    | _ => simp [plainEffect] at hf

/-- The indices a plan position's advance writes are those of its open loops. -/
theorem advanceIn_effects (n : Nat) (ls : List LoopEnt) (p : Nat) : ∀ f ∈ (advanceIn n ls p).2.2, ∃ l ∈ ls, ∃ v, f = .reg l.idx v := by
  induction ls with
  | nil => simp [advanceIn]
  | cons t rest ih =>
    intro f hf
    simp only [advanceIn] at hf
    split at hf
    · split at hf
      · split at hf
        · simp at hf
        · exact ⟨t, by simp, _, by simpa using hf⟩
      · obtain ⟨l, hl, v, rfl⟩ := ih f hf
        exact ⟨l, by simp [hl], v, rfl⟩
    · simp at hf

theorem wAfter_other (fs : List Effect) (r : Nat) (old : Word) (h : ∀ f ∈ fs, ∃ d v, f = .reg d v ∧ d % 64 ≠ r % 64) :
    wAfter fs r old = old := by
  induction fs generalizing old with
  | nil => rfl
  | cons f t ih =>
    obtain ⟨d, v, rfl, hd⟩ := h f (by simp)
    have : wAfter (.reg d v :: t) r old = wAfter t r (if d % 64 = r % 64 then v else old) := rfl
    rw [this, if_neg hd]
    exact ih _ fun g hg => h g (by simp [hg])

theorem pAfter_regs (fs : List Effect) (n : Nat) (old : Bool) (h : ∀ f ∈ fs, ∃ d v, f = .reg d v) : pAfter fs n old = old := by
  induction fs generalizing old with
  | nil => rfl
  | cons f t ih =>
    obtain ⟨d, v, rfl⟩ := h f (by simp)
    exact ih _ fun g hg => h g (by simp [hg])

theorem fAfter_regs (fs : List Effect) (n : Fin 3) (old : Bool) (h : ∀ f ∈ fs, ∃ d v, f = .reg d v) : fAfter fs n old = old := by
  induction fs generalizing old with
  | nil => rfl
  | cons f t ih =>
    obtain ⟨d, v, rfl⟩ := h f (by simp)
    exact ih _ fun g hg => h g (by simp [hg])

/-- A supervisor engine as its instruction at address `p` executes. -/
def supEngine (p : Nat) (x : Engine) : Engine := { x with rest := .run, fly := [], setV := 0, setS := 0, setD := 0, pos := p }

theorem countLock_touched (e pos : Nat) (s : State) : (countLock e pos s).tk.touched = s.tk.touched := by
  unfold countLock
  simp only
  split
  · split
    · rfl
    · exact raise_touched _ _ _
  · rfl

/-! An instruction that counts in a bracket, or does not. -/

section
variable (c : Bool) (e pos : Nat) (s : State)
@[simp] theorem countIf_mem : (countIf c e pos s).mem = s.mem := by unfold countIf; split <;> simp
@[simp] theorem countIf_reqs : (countIf c e pos s).reqs = s.reqs := by unfold countIf; split <;> simp
@[simp] theorem countIf_sup : (countIf c e pos s).sup = s.sup := by unfold countIf; split <;> simp
theorem countIf_touched : (countIf c e pos s).tk.touched = s.tk.touched := by
  unfold countIf; split
  · exact countLock_touched _ _ _
  · rfl
theorem countIf_engine (h : rising s.eng) : archKept (engine s e) (engine (countIf c e pos s) e) := by
  unfold countIf; split
  · exact (countLock_engine e pos s h).1
  · exact ⟨rfl, rfl, rfl, rfl, rfl, rfl, rfl, rfl⟩
theorem countIf_engine_ne (j : Nat) (h : rising s.eng) (hj : j ≠ e) : engine (countIf c e pos s) j = engine s j := by
  unfold countIf; split
  · exact countLock_engine_ne _ _ _ _ h hj
  · rfl
end

/-- R113: holding banks changes the engine's list of them alone. -/
theorem holdBanks_keeps (e : Nat) (held : Bool) (s : State) (h : rising s.sup) :
    (holdBanks e held s).eng = s.eng ∧ (holdBanks e held s).mem = s.mem ∧ (holdBanks e held s).reqs = s.reqs
      ∧ (holdBanks e held s).tk = s.tk ∧ (supOf (holdBanks e held s) e).pc = (supOf s e).pc := by
  unfold holdBanks; split
  · refine ⟨rfl, rfl, rfl, rfl, ?_⟩
    show (tabGet {} (tabSet {} s.sup e _) e).pc = _
    rw [tabGet_tabSet_same _ _ _ _ h]
  · exact ⟨rfl, rfl, rfl, rfl, rfl⟩

/-- The bookkeeping of a supervisor instruction writes the loop indices, the engine's own position, loops and bracket, and its
counter. -/
theorem supReleased_effect (s : State) (e pos : Nat) (c : Bool) (h : rising s.eng) (hs : rising s.sup) (hw : rising (engine s e).w) :
    (∀ r, r % 64 ≠ 0 → (∀ l ∈ (engine s e).loops, l.idx % 64 ≠ r % 64) →
        wGet (engine (supReleased e pos c s) e) r = wGet (engine s e) r)
      ∧ (∀ n, n % 8 ≠ 0 → pGet (engine (supReleased e pos c s) e) n = pGet (engine s e) n)
      ∧ (engine (supReleased e pos c s) e).fV = (engine s e).fV ∧ (engine (supReleased e pos c s) e).fS = (engine s e).fS
      ∧ (engine (supReleased e pos c s) e).fD = (engine s e).fD
      ∧ (∀ j, j ≠ e → engine (supReleased e pos c s) j = engine s j)
      ∧ (supReleased e pos c s).mem = s.mem ∧ (supReleased e pos c s).reqs = s.reqs
      ∧ supOf (supReleased e pos c s) e = { supOf s e with pc := word (advanceSup (engine s e).loops (supOf s e).pc.toNat).1 }
      ∧ (supReleased e pos c s).tk.touched = s.tk.touched ∧ rising (supReleased e pos c s).sup := by
  obtain ⟨a, ha⟩ : ∃ a, advanceSup (engine s e).loops (supOf s e).pc.toNat = a := ⟨_, rfl⟩
  have hidx : ∀ f ∈ a.2.2, ∃ l ∈ (engine s e).loops, ∃ v, f = .reg l.idx v := ha ▸ advanceIn_effects _ _ _
  have hreg : ∀ f ∈ a.2.2, ∃ d v, f = .reg d v := fun f hf => by
    obtain ⟨l, -, v, rfl⟩ := hidx f hf; exact ⟨_, _, rfl⟩
  have hplain : ∀ f ∈ a.2.2, plainEffect f = true := fun f hf => by
    obtain ⟨d, v, rfl⟩ := hreg f hf; rfl
  obtain ⟨g, hg⟩ : ∃ g : Engine → Engine, (fun x : Engine =>
      countStep { x with ord := x.ord + 1, entry := none, loops := a.2.1, pos := a.1, fly := [] }) = g := ⟨_, rfl⟩
  have harch : archKept (engine s e) (g (engine s e)) := by
    rw [← hg]
    exact archKept.trans (y := { engine s e with ord := (engine s e).ord + 1, entry := none, loops := a.2.1, pos := a.1, fly := [] })
      ⟨rfl, rfl, rfl, rfl, rfl, rfl, rfl, rfl⟩ (countStep_arch _)
  obtain ⟨s1, hs1⟩ : ∃ s1, s1 = modSup e (fun u => { u with pc := word a.1 }) (modEngine e g s) := ⟨_, rfl⟩
  have he1 : archKept (engine s e) (engine s1 e) := by
    rw [hs1, engine_congr (modSup_eng ..), engine_modEngine_same _ _ _ h]; exact harch
  have hr1 : rising s1.eng := by rw [hs1]; exact modEngine_rising _ _ _ h
  have hp1 : supOf s1 e = { supOf s e with pc := word a.1 } := by
    rw [hs1]; exact tabGet_tabSet_same _ _ _ _ hs
  obtain ⟨a1, a2, a3, a4, a5, a6, a7, a8⟩ := he1
  obtain ⟨b1, b2, b3, b4, b5, b6, b7, b8, b9, b10, b11⟩ := applyAll_plain e s.now pos _ hplain s1 hr1 (by rw [a1]; exact hw)
  obtain ⟨s2, hs2⟩ : ∃ s2, s2 = applyAll e s.now pos a.2.2 s1 := ⟨_, rfl⟩
  rw [← hs2] at b1 b2 b3 b4 b5 b6 b7 b8 b9
  obtain ⟨c1, c2, c3, c4, c5, c6, c7, c8⟩ := countIf_engine c e pos s2 b2
  have hfin : supReleased e pos c s = countIf c e pos s2 := by rw [hs2, hs1, ← hg, ← ha]; rfl
  have wg : ∀ (x y : Engine) (r : Nat), y.w = x.w → wGet y r = wGet x r := fun x y r hxy => by rw [wGet, hxy, wGet]
  have pg : ∀ (x y : Engine) (n : Nat), y.p = x.p → pGet y n = pGet x n := fun x y n hxy => by rw [pGet, hxy, pGet]
  rw [hfin]
  refine ⟨fun r hr hl => ?_, fun n hn => ?_, ?_, ?_, ?_, fun j hj => ?_, ?_, ?_, ?_, ?_, ?_⟩
  · rw [wg _ _ r c1, b4 r hr, wg _ _ r a1, wAfter_other]
    intro f hf
    obtain ⟨l, hl', v, rfl⟩ := hidx f hf
    exact ⟨_, _, rfl, hl l hl'⟩
  · rw [pg _ _ n c4, b5 n hn, pg _ _ n a4, pAfter_regs _ _ _ hreg]
  · rw [c5, b6, fAfter_regs _ _ _ hreg, a5]
  · rw [c6, b7, fAfter_regs _ _ _ hreg, a6]
  · rw [c7, b8, fAfter_regs _ _ _ hreg, a7]
  · rw [countIf_engine_ne _ _ _ _ _ b2 hj, b9 j hj, hs1, engine_congr (modSup_eng ..), engine_modEngine_ne _ _ _ _ h hj]
  · rw [countIf_mem, b1, hs1]; simp
  · rw [countIf_reqs, b1, hs1]; simp
  · rw [supOf, countIf_sup, ← supOf, b1, ha]; exact hp1
  · rw [countIf_touched, b1, hs1]; rfl
  · rw [countIf_sup, b1, hs1]; exact tabSet_rising _ _ _ _ hs

/-- R115: a ready computing instruction of a supervisor engine puts its result in place. -/
theorem sup_applied (s u : State) (e : Fin 1028) (i : Instr) (delta : Nat) (neg : Bool) (pred : BitVec 3) (k : Issue)
    (F : Engine → List Effect) (hx : exec i s = release e i delta neg pred k s) (hb : k.body = resultOf F)
    (hF : ∀ p, F (supEngine p (engine u e)) = F (engine u e)) (hp : ∀ f ∈ F (engine u e), plainEffect f = true)
    (hr : supReady s e i u) (hw : u.wf) (hc : condHolds (engine u e) neg pred = true) :
    ∃ t, exec i s = .next t ∧ applied u t e (F (engine u e)) := by
  obtain ⟨h1, h2, h3, h4, h5, h6, hfree⟩ := hr
  have heng := hw.2.2.2.2.2.1
  have hsup := hw.2.2.2.2.2.2.1
  have hww : rising (engine u e).w := by
    have key : ∀ (l : List (Nat × Engine)), (∀ p ∈ l, rising p.2.w) → rising (tabGet {} l e).w := by
      intro l
      induction l with
      | nil => intro _; simp [tabGet, rising]
      | cons p t ih =>
        intro hl
        obtain ⟨a, b⟩ := p
        simp only [tabGet]
        split
        · exact hl (a, b) (by simp)
        · split
          · simp [rising]
          · exact ih fun p hp => hl p (by simp [hp])
    exact key u.eng hw.2.2.2.2.2.2.2.2.2.2.2.2.2.2.2.2.2.2.2.2.2.2.2.2.2.2.2.2.2.2.2.2.2.2.2.2.2.2.2.1
  obtain ⟨u1, hu1⟩ : ∃ u1, u1 = modSup e (fun v => { v with pc := v.pc + 1 }) (modEngine e (supEngine (supOf u e).pc.toNat) u) := ⟨_, rfl⟩
  have hg1 : engine u1 e = supEngine (supOf u e).pc.toNat (engine u e) := by
    rw [hu1, engine_congr (modSup_eng ..), engine_modEngine_same _ _ _ heng]
  have hr1 : rising u1.eng := by rw [hu1]; exact modEngine_rising _ _ _ heng
  obtain ⟨b1, b2, b3, b4, b5, b6, b7, b8, b9, b10, b11⟩ :=
    applyAll_plain e u1.now (engine u1 e).pos (F (engine u e)) hp u1 hr1 (by rw [hg1]; exact hww)
  obtain ⟨u2, hu2⟩ : ∃ u2, u2 = applyAll e u1.now (engine u1 e).pos (F (engine u e)) u1 := ⟨_, rfl⟩
  rw [← hu2] at b1 b2 b3 b4 b5 b6 b7 b8 b9 b10 b11
  have h8 : supOf u1 e = { supOf u e with pc := (supOf u e).pc + 1 } := by rw [hu1]; exact tabGet_tabSet_same _ _ _ _ hsup
  have h7 : u2.sup = u1.sup := by rw [b1]
  have hs2 : rising u2.sup := by rw [h7, hu1]; exact tabSet_rising _ _ _ _ hsup
  obtain ⟨c, hcnt⟩ : ∃ c, c = (condHolds (engine s e) neg pred || k.counts) := ⟨_, rfl⟩
  obtain ⟨c1, c2, c3, c4, c5, c6, c7, c8, c9, c10, hs3⟩ := supReleased_effect u2 e (engine u e).pos c b2 hs2 b3
  have hexec : supExecute e neg pred k u = u2 := by
    have hcond : condHolds (engine u1 e) neg pred = true := by rw [hg1]; exact hc
    have : supExecute e neg pred k u =
        (let b := (if condHolds (engine u1 e) neg pred then k.body else k.onFalse) (engine u1 e) u1
         applyAll e u1.now (engine u1 e).pos b.2 b.1) := by rw [hu1]; rfl
    rw [this, hcond, hu2]
    simp only [if_true, hb, resultOf, hg1, hF]
  obtain ⟨u3, hu3⟩ : ∃ u3, u3 = supReleased e (engine u e).pos c u2 := ⟨_, rfl⟩
  rw [← hu3] at c1 c2 c3 c4 c5 c6 c7 c8 c9 c10 hs3
  obtain ⟨d1, d2, d3, d4, d5⟩ := holdBanks_keeps e (engine s e).lockOpen u3 hs3
  obtain ⟨u4, hu4⟩ : ∃ u4, u4 = holdBanks e (engine s e).lockOpen u3 := ⟨_, rfl⟩
  rw [← hu4] at d1 d2 d3 d4 d5
  have htouch : u4.tk.touched = u.tk.touched := by rw [d4, c10, b1, hu1]; rfl
  refine ⟨settle e 0 s.tk.touched u4, ?_, ?_⟩
  · have hlt : ¬ e.val < 1024 := by omega
    have hrel : supRelease e neg pred k (untouched s) = u4 := by
      have e1 : engine (untouched s) e = engine s e := rfl
      have e2 : supOf (untouched s) e = supOf s e := rfl
      have e3 : haltsNow (untouched s) e = haltsNow s e := rfl
      rw [supRelease, e1, e2, e3, h3, h4, h5, h6]
      simp only [Bool.false_eq_true, if_false, hexec, ← hcnt]
      rw [hu4, hu3]
    have hff : freeFor e 0 s u4 = true := by rw [freeFor, htouch]; exact hfree
    rw [hx, release, if_neg hlt, if_pos h2, ifFree, hrel]
    simp only [hff, if_true]
  · have e4 : ∀ j, engine (settle e 0 s.tk.touched u4) j = engine u3 j := engine_congr (by rw [← d1]; rfl)
    refine ⟨fun r hr hl => ?_, fun n hn => ?_, ?_, ?_, ?_, fun j hj => ?_, ?_, ?_, ?_⟩
    · rw [e4]; exact (c1 r hr (by rw [b10, hg1]; exact hl)).trans (by rw [b4 r hr, hg1]; rfl)
    · rw [e4]; exact (c2 n hn).trans (by rw [b5 n hn, hg1]; rfl)
    · rw [e4]; exact c3.trans (by rw [b6, hg1]; rfl)
    · rw [e4]; exact c4.trans (by rw [b7, hg1]; rfl)
    · rw [e4]; exact c5.trans (by rw [b8, hg1]; rfl)
    · rw [e4]; exact (c6 j hj).trans (by rw [b9 j hj, hu1, engine_congr (modSup_eng ..), engine_modEngine_ne _ _ _ _ heng hj])
    · exact d2.trans (c7.trans (by rw [b1, hu1]; rfl))
    · exact d3.trans (c8.trans (by rw [b1, hu1]; rfl))
    · have h9 : supOf u2 e = supOf u1 e := by rw [supOf, h7, supOf]
      have h10 : (supOf u3 e).pc = word (advanceSup (engine u2 e).loops (supOf u2 e).pc.toNat).1 := congrArg Sup.pc c9
      exact d5.trans (by rw [h10, b10, hg1, h9, h8]; rfl)

/-- A computing instruction of either kind of engine, from what its result is. -/
theorem computes_of (s : State) (e : Fin 1028) (i : Instr) (delta : Nat) (neg : Bool) (pred : BitVec 3) (k : Issue)
    (F : Engine → List Effect) (P : Engine → List Effect → Prop) (hx : exec i s = release e i delta neg pred k s)
    (hb : k.body = resultOf F) (hF : ∀ p x, F (supEngine p x) = F x) (hp : ∀ x, ∀ f ∈ F x, plainEffect f = true)
    (hne : ∀ x, (F x).isEmpty = false) (hP : wellFormed i = true → ∀ x, P x (F x)) :
    computes s e i delta neg pred k.unit k.cls k.dur P := by
  refine ⟨fun hw hc hr => ?_, fun u hr hw hc => ?_⟩
  · obtain ⟨t, h1, h2⟩ := plant_issued s e i delta neg pred k F hx hb (hne _) hw hr hc
    exact ⟨t, _, h1, hP hr.2.1 _, h2⟩
  · obtain ⟨t, h1, h2⟩ := sup_applied s u e i delta neg pred k F hx hb (fun p => hF p _) (hp _) hr hw hc
    exact ⟨t, _, h1, hP hr.2.1 _, h2⟩

end Sys2Proof.Machine
end

