-- ==== Sys2Proof/Tests/Slice0.lean ====
section
/-! SUPPORT. The tests: the smoke of well-formedness, what the spec's own numbers say of single steps, and for every statement with
hypotheses a state and operands that meet them. -/

namespace Sys2Proof.Machine

set_option Elab.async false

/-! Well-formedness refuses each ill-formed term. -/

/-- A register form with the operands given and every other field at its least admitted value. -/
def rf (d a b m : Nat) : RegForm := ⟨1, false, 0, BitVec.ofNat 6 d, BitVec.ofNat 6 a, BitVec.ofNat 6 b, BitVec.ofNat 4 m⟩

/-- An immediate form of w1. -/
def im (imm : Nat) : ImmForm := ⟨1, false, 0, 1, BitVec.ofNat 16 imm⟩

/-- R69, R85 to R118: unused fields, a zero delta, reserved modifiers, ranges beyond w63 and opcode 0x3F on a plant engine. -/
theorem test_ill_formed_refused :
    ∀ i ∈ ([.nop 0 (rf 1 0 0 0), .nop 0 (rf 0 1 0 0), .nop 0 (rf 0 0 1 0), .nop 0 (rf 0 0 0 1), .nop 0 { rf 0 0 0 0 with delta := 0 },
      .lock 0 (rf 1 0 0 0), .unlock 0 (rf 0 0 0 1), .done 0 (rf 0 0 1 0), .waitt 0 (rf 0 1 0 0), .waitt 0 { rf 1 1 0 0 with delta := 0 },
      .waitev 0 (rf 1 1 1 0), .loop 0 { im 0 with delta := 0 }, .tstamp 0 (rf 62 0 0 0), .tstamp 0 (rf 61 0 0 1), .tstamp 0 (rf 1 0 0 2),
      .add 0 (rf 1 1 1 1), .neg 0 (rf 1 1 1 0), .ext 0 (rf 1 1 1 2), .cvt 0 (rf 1 1 0 5), .ldi 0 { im 0 with delta := 0 },
      .cmp 0 (rf 1 1 1 12), .cmp 0 (rf 8 1 1 0), .plog 0 (rf 1 1 1 4), .plog 0 (rf 1 16 1 0), .plog 0 (rf 1 1 16 0), .plog 0 (rf 8 1 1 0),
      .rdf 0 (rf 1 1 0 0), .clrf 0 (rf 0 0 0 8), .pmov 0 (rf 1 0 0 2), .pmul 0 (rf 1 1 1 1), .tmul 0 (rf 1 1 1 4), .srr 0 (rf 1 1 1 2),
      .mac 0 (rf 1 1 1 0), .mac 0 (rf 0 1 1 8), .acx 0 (rf 1 0 0 4), .acm 0 (rf 1 0 0 6), .sincos 0 (rf 63 1 0 0), .sincos 0 (rf 1 1 0 1),
      .vrot 0 (rf 63 1 1 1), .vrot 0 (rf 1 63 1 1), .atan2 0 (rf 1 1 1 3), .mag 0 (rf 1 1 1 2),
      .ldl 0 (im 8192), .stl 0 (im 65535), .evs 0 (rf 1 1 1 0), .tmark 0 (rf 1 1 0 0), .jmp 1023 (rf 0 1 0 0), .jmp 1024 (rf 0 1 0 1),
      .cas 0 (rf 1 1 1 8), .swr 1024 (rf 0 0 0 13)] : List Instr), wellFormed i = false := by decide

/-- The same instructions at the greatest values that are no reserved encodings, and with a field that their own function leaves
unused where another function of the opcode uses it. -/
theorem test_boundary_forms_accepted :
    ∀ i ∈ ([.tstamp 0 (rf 61 0 0 0), .tstamp 0 (rf 60 0 0 1), .cmp 0 (rf 7 63 63 11), .plog 0 (rf 7 15 15 3), .clrf 0 (rf 0 0 0 7),
      .cvt 0 (rf 1 1 0 12), .pmul 0 (rf 1 1 1 8), .mac 0 (rf 0 1 1 7), .acx 0 (rf 1 0 0 11), .acm 0 (rf 0 1 0 13), .sincos 0 (rf 62 1 0 8),
      .vrot 0 (rf 62 62 1 9), .ldl 0 (im 8191), .waitt 0 { rf 0 1 0 0 with delta := 0 }, .cas 1024 (rf 1 1 1 8),
      .sqrt 0 (rf 1 1 1 4), .call 1024 (rf 1 1 1 1), .eret 1024 (rf 1 0 0 2), .trap 1024 (rf 1 1 0 3), .mfsr 1024 (rf 1 1 1 4),
      .mtsr 1024 (rf 1 1 1 5), .tlbi 1024 (rf 1 1 1 6), .fence 1024 (rf 1 0 0 7), .idle 1024 (rf 1 0 0 9), .beat 1024 (rf 0 1 0 10),
      .swc 1024 (rf 0 0 1 11)] : List Instr),
      wellFormed i = true := by decide

/-! The canonical form, decided. -/

/-- `State.wf` as a Bool, so that it can be decided of a list of states. -/
def wfB (s : State) : Bool :=
  (decide (rising s.regs) && Memory.wf s.mem && decide (rising s.chk) && decide (rising s.ts) && decide (rising s.priv)
    && decide (rising s.eng) && decide (rising s.sup) && decide (rising s.pairs) && decide (rising s.ports) && decide (rising s.latch)
    && decide (rising s.sess) && decide (rising s.speeds) && decide (rising s.served))
  && (decide (rising s.link.images) && decide (rising s.link.frozenImg) && decide (rising s.link.rx) && decide (rising s.link.rxSweep)
    && decide (rising s.link.laneAt) && decide (rising s.link.cloneTx) && decide (rising s.time.mpd) && decide (rising s.time.mpdAt)
    && decide (rising s.time.far) && decide (rising s.net.tlsAt) && decide (rising s.net.echoes) && decide (rising s.lio.tovlAt))
  && (decide (rising s.lio.loops) && decide (rising s.saf.pulse) && decide (rising s.fpd.panel) && decide (rising s.lio.chans)
    && decide (rising s.saf.drives) && decide (rising s.saf.conns) && decide (rising s.saf.inputs) && decide (rising s.sig.chans)
    && decide (rising s.c37.streams) && decide (rising s.c37.remotes) && decide (rising s.boot.slots)
    && decide (rising s.c37.invalid) && decide (rising s.time.pdelayAt) && decide (rising s.tk.sets)
    && s.eng.all (fun p => decide (rising p.2.w)) && s.day.midRegions.all (fun w => decide (0x040C1000 ≤ w.1 ∧ w.1 < 0x040D0000)))

theorem wf_of {s : State} (h : wfB s = true) : s.wf := by
  simp only [wfB, Bool.and_eq_true, decide_eq_true_eq, List.all_eq_true] at h
  unfold State.wf
  tauto

theorem wf_all {l : List State} (h : l.all wfB = true) : ∀ s ∈ l, s.wf :=
  fun s hs => wf_of (List.all_eq_true.mp h s hs)

/-! States the tests start from. -/

/-- Plant engine 0 runs, one tick after its last release. -/
def plantS : State := { now := 1, eng := [(0, { rest := .run })] }

/-- Supervisor engine 1024 after reset, with a cached translation of its page 0 to private memory, every access permitted. -/
def supS : State := { sup := [(1024, { tlb := [(true, 0, 0xF40000000#36)] })] }

/-- The same in the normal world. -/
def supN : State := { sup := [(1024, { secure := false, tlb := [(false, 0, 0xF40000000#36)] })] }

/-- Every instruction that plant and supervisor engines share, of engine `e`, in one admitted form. -/
def forms (e : Fin 1028) : List Instr :=
  [.nop e (rf 0 0 0 0), .lock e (rf 0 0 0 0), .unlock e (rf 0 0 0 0), .done e (rf 0 0 0 0), .waitt e { rf 0 1 0 0 with delta := 0 },
   .waitev e { rf 1 0 2 3 with delta := 0 }, .loop e (im 67), .tstamp e (rf 61 0 0 0), .tstamp e (rf 60 0 0 1),
   .add e (rf 1 2 3 0), .adds e (rf 1 2 3 0), .sub e (rf 1 2 3 0), .subs e (rf 1 2 3 0), .and e (rf 1 2 3 0), .or e (rf 1 2 3 0),
   .xor e (rf 1 2 3 0), .andn e (rf 1 2 3 0), .neg e (rf 1 2 0 0), .negs e (rf 1 2 0 0), .abs e (rf 1 2 0 0), .abss e (rf 1 2 0 0),
   .min e (rf 1 2 3 0), .max e (rf 1 2 3 0), .sel e (rf 1 2 3 15), .cls e (rf 1 2 0 0), .shl e (rf 1 2 3 0), .shls e (rf 1 2 3 0),
   .shr e (rf 1 2 3 0), .sar e (rf 1 2 3 0), .rot e (rf 1 2 3 0), .ext e (rf 1 2 3 1), .ins e (rf 1 2 3 0), .cvt e (rf 1 2 0 4),
   .ldi e (im 1), .shi e (im 1), .addi e (im 1), .cmp e (rf 7 2 3 11), .plog e (rf 7 15 8 3), .pmov e (rf 1 0 0 0), .pmov e (rf 0 1 0 1),
   .rdf e (rf 1 0 0 0), .clrf e (rf 0 0 0 7), .mul e (rf 1 2 3 0), .muls e (rf 1 2 3 0), .mulh e (rf 1 2 3 0), .pmul e (rf 1 2 3 8),
   .tmul e (rf 1 2 3 0), .mac e (rf 0 2 3 7), .acx e (rf 1 0 0 0), .acx e (rf 1 0 0 2), .acm e (rf 1 0 0 4), .acm e (rf 0 1 0 13),
   .div e (rf 1 2 3 0), .rem e (rf 1 2 3 0), .pdiv e (rf 1 2 3 0), .sincos e (rf 62 1 0 0), .vrot e (rf 62 62 3 1),
   .atan2 e (rf 1 2 3 2), .mag e (rf 1 2 3 3), .sqrt e (rf 1 2 0 4), .ld e (rf 1 2 3 0), .st e (rf 1 2 3 0), .lds e (rf 1 2 3 0),
   .sts e (rf 1 2 3 0), .ldl e (im 8191), .stl e (im 8191), .evs e (rf 0 1 2 0), .popc e (rf 1 2 0 0), .tmark e (rf 0 1 0 15),
   .lim e (rf 1 2 3 0), .srr e (rf 1 2 3 8)]

/-- The SYS functions of engine `e`. -/
def sysForms (e : Fin 1028) : List Instr :=
  [.jmp e (rf 0 1 0 0), .call e (rf 1 2 0 1), .eret e (rf 0 0 0 2), .trap e (rf 0 1 0 3), .mfsr e (rf 1 2 0 4), .mtsr e (rf 0 1 2 5),
   .tlbi e (rf 0 1 2 6), .fence e (rf 0 0 0 7), .cas e (rf 1 2 3 8), .idle e (rf 0 0 0 9), .beat e (rf 0 0 0 10), .swc e (rf 0 0 0 11),
   .swr e (rf 0 0 0 12)]

/-! The witnesses of the statements about instructions: WaitsBeginAndEnd, ClrfClearsTheNamedFlags, BracketsDoneAndMarkers,
SumsWrapOrSaturate, LogicShiftsAndRotation, SignBitAndOneBitCounts, BitFieldsAndPredicates, ProductsAndAccumulators,
DivisionAndCordic, ReleasesWithoutEffect, LoopRunsItsBody, LocalAndSharedAccesses and SupervisorFunctions. -/

/-- A plant engine is ready for every instruction of its set, on its scheduled tick, under a condition that holds. -/
theorem witness_plant_instructions : plantS.wf ∧ trailsJoined plantS 0 = false ∧ leadsJoined plantS 0 = false
    ∧ (engine plantS 0).loops = [] ∧ (engine plantS 0).lockOpen = false ∧ (engine plantS 0).entry = none
    ∧ ∀ i ∈ forms 0, ∃ x ∈ instrForm i, plantReady plantS x.1 i x.2.1 x.2.2.2.2 ∧ punctual plantS x.1 x.2.1
      ∧ condHolds (engine plantS x.1) x.2.2.1 x.2.2.2.1 = true := by
  refine ⟨wf_of (by decide), ?_⟩
  unfold plantReady punctual; decide

/-- A supervisor engine is ready for every instruction of its set and every SYS function, in the secure world. -/
theorem witness_sup_instructions : supS.wf ∧ (engine supS 1024).loops = [] ∧ (engine supS 1024).lockOpen = false
    ∧ chkOf supS 0x01800000 = .ok ∧ condHolds (engine supS 1024) false 0 = true
    ∧ ∀ i ∈ forms 1024 ++ sysForms 1024, supReady supS 1024 i supS := by
  refine ⟨wf_of (by decide), ?_⟩
  unfold supReady; decide

/-- And for every SYS function in the normal world. -/
theorem witness_sup_normal_world : supN.wf ∧ (engine supN 1024).loops = [] ∧ (engine supN 1024).lockOpen = false
    ∧ condHolds (engine supN 1024) false 0 = true ∧ ∀ i ∈ sysForms 1024, supReady supN 1024 i supN := by
  refine ⟨wf_of (by decide), ?_⟩
  unfold supReady; decide

/-- A day of 1,000 microseconds with phases at 10,000, 100,000, 125,000, 200,000 and 240,000, rate 0 every day, and a delta bound of 100
words; the sequencer stands at tick `t`. -/
def dayAt (t : Nat) : Day :=
  { run := true, tick := t, n := 7, table := [1000, 10000, 100000, 125000, 200000, 240000, 1, 1, 1, 1, 1, 1, 1, 1, 100, 0].map word }

/-- A header whose every check passes. -/
def hdr (ty octets : Nat) : Header :=
  { magic := 0x474C4E43, format := 1, ty := ty, flags := 0, hwtype := 0x936, unit := [], svn := 255, version := 1, compat := 0,
    length := octets, digest := 7, ident := [1, 2, 3, 4], keyid := 1, base := [], octets := [], reserved := true, sigE := true, sigM := true }

/-- A number as `n` octets, the most significant first. -/
def numOctets (n v : Nat) : List (BitVec 8) := (List.range n).map fun i => BitVec.ofNat 8 (v / 256 ^ (n - 1 - i))

/-- R469: the octets of such a header, laid out by hand. -/
def rawHdr (ty octets : Nat) : RawHeader :=
  ⟨numOctets 4 0x474C4E43 ++ numOctets 2 1 ++ numOctets 1 ty ++ numOctets 1 0 ++ numOctets 4 0x936 ++ numOctets 18 0 ++ numOctets 4 255
    ++ numOctets 4 1 ++ numOctets 4 0 ++ numOctets 8 octets ++ numOctets 48 7 ++ numOctets 18 0 ++ numOctets 4 1
    ++ List.replicate 3976 0, true, true⟩

/-- R469, R470: the header of these octets has the fields laid out, and passes; one octet short, or one reserved octet set, it fails. -/
theorem test_header_octets :
    (headerOf (rawHdr 1 36)).magic = 0x474C4E43 ∧ (headerOf (rawHdr 1 36)).hwtype = 0x936 ∧ (headerOf (rawHdr 1 36)).svn = 255
    ∧ (headerOf (rawHdr 1 36)).length = 36 ∧ (headerOf (rawHdr 1 36)).digest = 7 ∧ (headerOf (rawHdr 1 36)).keyid = 1
    ∧ (headerOf (rawHdr 1 36)).unit = [0, 0, 0, 0] ∧ headerCheck { regs := [(updFloor, 0)] } 1 (headerOf (rawHdr 1 36)) = none
    ∧ headerCheck State.reset 2 (headerOf (rawHdr 1 36)) = some 0xA01 ∧ (rawHdr 1 36).octets.length = 4096
    ∧ headerCheck State.reset 1 (headerOf { rawHdr 1 36 with octets := (rawHdr 1 36).octets.tail }) = some 0xA01
    ∧ headerCheck State.reset 1 (headerOf { rawHdr 1 36 with octets := (rawHdr 1 36).octets.set 200 1 }) = some 0xA01 := by
  and_intros <;> decide +kernel

/-- A repeat of a pending entry, an entry that is none, and a raise at a full queue. -/
theorem witness_RaisesAreLoggedAndFolded : State.reset.wf
    ∧ (let l := newEntry State.reset 0x101 7; let s : State := { logQ := [l] }
       s.wf ∧ l ∈ s.logQ ∧ l.code = 0x101 ∧ l.detail = 7 ∧ l.sec = s.time.sec)
    ∧ (let s : State := { logQ := List.replicate 256 (newEntry State.reset 0x101 7) }
       s.wf ∧ 256 ≤ s.logQ.length ∧ ∀ l ∈ s.logQ, ¬(l.code = 0x102 ∧ l.detail = 7 ∧ l.sec = s.time.sec)) := by
  refine ⟨wf_of (by decide), ⟨wf_of (by decide), List.mem_singleton_self _, rfl, rfl, rfl⟩, wf_of (by decide),
    (List.length_replicate ..).ge, ?_⟩
  intro l h
  simp [List.eq_of_mem_replicate h, newEntry]

/-- CLRF: no flag was set in the landing tick, and a modifier with bit 3. -/
theorem witness_ClrfClearsTheNamedFlags : (({} : Engine).setV ≠ 5 + 1) ∧ (({} : Engine).setS ≠ 5 + 1) ∧ (({} : Engine).setD ≠ 5 + 1)
    ∧ (rf 0 0 0 8).m.getLsbD 3 = true := by decide

/-- TMARK of a traced engine, and of one that is not; LOCK and UNLOCK with a bracket open and not. -/
theorem witness_BracketsDoneAndMarkers :
    (let s : State := { plantS with regs := [(dbgTrCtl, 0x800000000#36), (dbgTrMask0, 1#36)] }
     traced s 0 = true ∧ s.trace.intake.length < 1024) ∧ traced plantS 0 = false
    ∧ (let s : State := { now := 1, eng := [(0, { rest := .run, lockOpen := true, lockCnt := 30 })] }
       plantReady s 0 (.unlock 0 (rf 0 0 0 0)) 1 .none ∧ (engine s 0).lockOpen = true ∧ punctual s 0 1) := by
  unfold plantReady punctual; decide

/-- A false condition, an instruction not yet due, and a reserved encoding of a plant and of a supervisor engine. -/
theorem witness_ReleasesWithoutEffect :
    (plantReady plantS 0 (.ldl 0 { im 0 with neg := true }) 1 .none ∧ condHolds (engine plantS 0) true 0 = false)
    ∧ mayRelease plantS 0 (sources (.nop 0 (rf 0 0 0 0))) 2 .none = false ∧ mayRelease plantS 0 {} 2 .none = false ∧ mayRelease plantS 0 {} 1 .none = true ∧ wellFormed (.nop 0 (rf 0 0 0 1)) = false ∧ mayRelease plantS 0 (sources (.nop 0 (rf 0 0 0 0))) 1 .none = true
    ∧ haltsNow plantS 0 = false ∧ fetchBad plantS 0 = false ∧ plantS.now ≤ (engine plantS 0).prev + 1 ∧ plantS.late.length < 16
    ∧ wellFormed (.swr 1027 (rf 0 0 0 13)) = false := by
  unfold plantReady; decide

/-- A LOOP with room on the stack under either condition, and a body of one instruction released 1024 times. -/
theorem witness_LoopRunsItsBody : (engine plantS 0).loops.length < 4 ∧ (im 65535).d ≠ 0
    ∧ (engine supS 1024).loops.length < 4 ∧ (engine supS 1024).lockOpen = false
    ∧ (let x : LoopEnt := ⟨4094, 1, 1023, 1, 0, false, 0⟩
       x.start + x.len < 4096 ∧ 0 < x.len ∧ ∀ y ∈ ([⟨0, 64, 3, 2, 0, false, 0⟩] : List LoopEnt), y.start + y.len ≠ x.start + x.len) := by
  decide

/-- A running day of 1,000 microseconds, at its tick 100, with an engine whose w1 holds `v` and whose queue holds `q`. -/
def dayS (v : Nat) (r : Rest) (q : List EvEntry) : State :=
  { now := 1100, day := { run := true, tick := 100, table := [1000#36] },
    bindings := [(0, 0)], eng := [(0, { rest := r, prev := 1099, w := [(1, word v)], evq := q })] }

/-- WAITT before, at and after its target and beyond the day; WAITEV with an entry, with a deadline ahead and with one passed; TSTAMP. -/
theorem witness_WaitsBegin :
    (∀ s ∈ [dayS 101 .run [], dayS 100 .run [⟨0, 1100, 0, 0⟩]], s.wf)
    ∧ (∀ v ∈ [101, 100, 99, 250000], plantReady (dayS v .run []) 0 (.waitt 0 { rf 0 1 0 0 with delta := 0 }) 1 .none
      ∧ punctual (dayS v .run []) 0 1 ∧ (dayS v .run []).late.length < 16)
    ∧ 100 < Nat.min (opA (engine (dayS 101 .run []) 0) (rf 0 1 0 0)).toNat (dayT (dayS 101 .run []) - 1)
    ∧ Nat.min (opA (engine (dayS 100 .run []) 0) (rf 0 1 0 0)).toNat (dayT (dayS 100 .run []) - 1) = dayTick (dayS 100 .run [])
    ∧ Nat.min (opA (engine (dayS 99 .run []) 0) (rf 0 1 0 0)).toNat (dayT (dayS 99 .run []) - 1) < dayTick (dayS 99 .run [])
    ∧ Nat.min (opA (engine (dayS 250000 .run []) 0) (rf 0 1 0 0)).toNat (dayT (dayS 250000 .run []) - 1) = 249999
    ∧ plantReady (dayS 100 .run [⟨0, 1100, 0, 0⟩]) 0 (.waitev 0 { rf 2 0 1 1 with delta := 0 }) 1 .none
    ∧ findEvent (dayS 100 .run [⟨0, 1100, 0, 0⟩]) 0 true 0 1100 = some ⟨0, 1100, 0, 0⟩
    ∧ findEvent (dayS 100 .run [⟨0, 1101, 0, 0⟩]) 0 true 0 1100 = none
    ∧ dayTick (dayS 100 .run []) ≤ (opB (engine (dayS 100 .run []) 0) (rf 2 0 1 1)).toNat
    ∧ (opB (engine (dayS 99 .run []) 0) (rf 2 0 1 1)).toNat < dayTick (dayS 99 .run []) := by
  refine ⟨wf_all (by decide), ?_⟩
  unfold plantReady punctual; decide

/-- A wait for a tick at its target and one before; a wait for an event with an entry 14 ticks old and 13, and without one at its
deadline and before. -/
theorem witness_WaitsEnd : (dayS 0 (.waitT 1100) []).wf ∧ trailsJoined (dayS 0 (.waitT 1100) []) 0 = false
    ∧ leadsJoined (dayS 0 (.waitT 1100) []) 0 = false
    ∧ (engine (dayS 0 (.waitT 1100) []) 0).rest = .waitT 1100 ∧ (1100 ≤ (dayS 0 (.waitT 1100) []).now)
    ∧ (engine (dayS 0 (.waitT 1101) []) 0).rest = .waitT 1101 ∧ (dayS 0 (.waitT 1101) []).now < 1101
    ∧ (let w := Rest.waitEv false 0xA01 1090 2 1
       findEvent (dayS 0 w [⟨0xA0100005, 1086, 0, 0⟩]) 0 false 0xA01 1090 = some ⟨0xA0100005, 1086, 0, 0⟩
       ∧ 1086 + 14 ≤ (dayS 0 w []).now ∧ findEvent (dayS 0 w [⟨0xA0100005, 1087, 0, 0⟩]) 0 false 0xA01 1090
         = some ⟨0xA0100005, 1087, 0, 0⟩ ∧ (dayS 0 w []).now < 1087 + 14
       ∧ findEvent (dayS 0 w [⟨0xA0200005, 1086, 0, 0⟩]) 0 false 0xA01 1090 = none ∧ 1090 ≤ (dayS 0 w []).now)
    ∧ (dayS 0 (.waitEv true 0 1101 2 1) []).now < 1101 := by
  refine ⟨wf_of (by decide), ?_⟩
  decide

/-- A request alone at its point, one whose gate refuses it, and a result due, late by one tick and not yet due. -/
def reqS (a : Word) (op : ReqOp) : State :=
  { now := 10, reqs := [⟨0, false, a, op, 5, 9, 2, 0, 0, []⟩],
    regs := [(gateR 0 0, 0#36), (gateR 0 1, 0xFFFF#36), (gateR 0 2, 0xB40000000#36)] }

theorem witness_SharedAccessService : (reqS 0 (.load 1)).wf ∧ (10 ≤ 9 + 1) ∧ isShared 0 = true
    ∧ gate (reqS 0 (.load 1)) 0 false .read 0 = none ∧ chkOf (reqS 0 (.load 1)) 0 = .ok
    ∧ gate (reqS 0x10000 (.load 1)) 0 false .read 0x10000 ≠ none
    ∧ gate (reqS 0xFFFF (.store 1)) 0 false .write 0xFFFF = none ∧ gate (reqS 0x10000 (.store 1)) 0 false .write 0x10000 ≠ none
    ∧ tabGet 0 (reqS 0 (.load 1)).served (pointOf 0) ≠ 10 + 1
    ∧ ∀ q ∈ (reqS 0 (.load 1)).reqs, q = ⟨0, false, 0, .load 1, 5, 9, 2, 0, 0, []⟩ := by
  refine ⟨wf_of (by decide), ?_⟩
  decide

/-- A result of engine 0 with the effects given, due at tick 10. -/
def landS (now : Nat) (fs : List Effect) : State := { now := now, eng := [(0, { rest := .run, fly := [⟨10, 0, 0, 3, fs, false, false, 10, false⟩] })] }

/-- Results of every kind at their landing tick, one tick before it and one tick late. -/
theorem witness_ServiceAndLanding : (∀ s ∈ [landS 10 [.reg 1 5], landS 9 [.reg 1 5], landS 11 [.reg 1 5]], s.wf)
    ∧ leadsJoined (landS 10 []) 0 = false
    ∧ (∀ fs ∈ ([[.reg 1 5], [.reg 63 5, .flag 0], [.pred 7 true], [.clear 7], [.mac true false true (2 ^ 70)], [.acm false 2 255], [.load 8191 1],
        [.store 8191 5]] : List (List Effect)), ∀ p ∈ [(10, 0), (11, 1)],
        ((engine (landS p.1 fs) 0).fly.find? fun l => l.land + p.2 == (landS p.1 fs).now && !heldBack (engine (landS p.1 fs) 0).fly l)
          = some ⟨10, 0, 0, 3, fs, false, false, 10, false⟩)
    ∧ chkOf (landS 10 []) 0x01001FFF = .ok ∧ (landS 11 []).late.length < 16
    ∧ (∀ p ∈ [(9, 0), (10, 1), (11, 0)],
        ((engine (landS p.1 []) 0).fly.find? fun l => l.land + p.2 == (landS p.1 []).now && !heldBack (engine (landS p.1 []) 0).fly l)
          = none)
    ∧ (let x : Engine := { lastLand := 11, landed := [(1, 12)] }
       superseded 10 10 x (.reg 1 5) = true ∧ superseded 10 13 x (.reg 1 5) = false ∧ superseded 10 10 x (.reg 2 5) = false)
    ∧ ∀ off d, Effect.load off d ∉ ([.reg 1 5] : List Effect) := by
  refine ⟨wf_all (by decide), by decide, by decide, by decide, by decide, by decide, by decide, ?_⟩
  intro off d; simp

/-- Supervisor engine 1024 with w1 and w2 as given, in the world given. -/
def supW (secure : Bool) (a b : Nat) : State :=
  { eng := [(1024, { w := [(1, word a), (2, word b)] })], sup := [(1024, { secure := secure, tlb := [(secure, 0, 0xF40000000#36)] })] }

/-- The five registers MFSR reads, the two worlds of MTSR, TLBI with and without wb[0], and a TLBI, SWR and SWC from the wrong world. -/
theorem witness_SysFunctions : (∀ s ∈ [supW true 1 1, supW false 2 0], s.wf)
    ∧ (∀ n ∈ [1, 2, 16, 17, 18], (opA (engine (supW true n 0) 1024) (rf 1 1 0 4)).toNat % 4096 = n
      ∧ supReady (supW true n 0) 1024 (.mfsr 1024 (rf 1 1 0 4)) (supW true n 0))
    ∧ supReady (supW true 1 0) 1024 (.mtsr 1024 (rf 0 1 2 5)) (supW true 1 0) ∧ (supOf (supW true 1 0) 1024).secure = true
    ∧ supReady (supW false 1 0) 1024 (.mtsr 1024 (rf 0 1 2 5)) (supW false 1 0) ∧ (supOf (supW false 1 0) 1024).secure = false
    ∧ supReady (supW false 2 0) 1024 (.mtsr 1024 (rf 0 1 2 5)) (supW false 2 0)
    ∧ (opA (engine (supW false 2 0) 1024) (rf 0 1 2 5)).toNat % 4096 = 2
    ∧ (opB (engine (supW true 0 1) 1024) (rf 0 1 2 6)).getLsbD 0 = true
    ∧ (opB (engine (supW true 0 2) 1024) (rf 0 1 2 6)).getLsbD 0 = false
    ∧ (∀ i ∈ [Instr.tlbi 1024 (rf 0 1 2 6), .swr 1024 (rf 0 0 0 12)], supReady (supW false 0 0) 1024 i (supW false 0 0))
    ∧ supReady (supW true 0 0) 1024 (.swc 1024 (rf 0 0 0 11)) (supW true 0 0) := by
  refine ⟨wf_all (by decide), ?_⟩
  unfold supReady; decide

/-- CAS on word 5 of private memory, and a notice that is delivered first. -/
theorem witness_WrongWorldCasAndNotices :
    (supReady (supW true 5 0) 1024 (.cas 1024 (rf 3 1 2 8)) (supW true 5 0)
      ∧ (supOf (supW true 5 0) 1024).tlb.find? (fun t => t.1 == true && t.2.1 == slice 5 31 12) = some (true, 0, 0xF40000000#36)
      ∧ physical (supOf (supW true 5 0) 1024) { rd := true, wr := true } 5 0xF40000000#36 = .to true 5)
    ∧ (let s : State := { sup := [(1024, { notices := [5] })] }
       s.wf ∧ wellFormed (.nop 1024 (rf 0 0 0 0)) = true ∧ supWaits (engine s 1024) = false ∧ haltsNow s 1024 = false
         ∧ (supOf s 1024).notices = [5]) := by
  refine ⟨by unfold supReady; decide, wf_of (by decide), ?_⟩
  decide

/-- Pair 0 with an input of engine 1 captured at tick 5 under D = 3. -/
def pairS (now : Nat) (inp : Input) (lost : Bool) : State :=
  { now := now, pairs := [(0, { joined := true, d := 3, buf := [⟨5, inp, 1, lost, 5, 7, 0⟩] })] }

/-- Each kind of input at its tick and one before, lost or not, with the highest registers the stamp admits. -/
theorem witness_PairInputsReplay : (∀ s ∈ [pairS 8 .waitT false, pairS 7 .waitT false], s.wf)
    ∧ (∀ inp ∈ ([.lds 63 1, .tstamp 61 [1, 2, 3], .waitT, .waitEv true 1 1 5] : List Input), ∀ lost ∈ [true, false],
      (pairOf (pairS 8 inp lost) 0).buf = [⟨5, inp, 1, lost, 5, 7, 0⟩])
    ∧ 5 + (pairOf (pairS 8 .waitT false) 0).d ≤ (pairS 8 .waitT false).now
    ∧ (pairS 7 .waitT false).now < 5 + (pairOf (pairS 7 .waitT false) 0).d
    ∧ (pairOf (pairS 8 .waitT false) 0).safety = false ∧ (pairS 8 .waitT false).mism.length < 16 := by
  refine ⟨wf_all (by decide), ?_⟩
  decide

/-- Pair 0 with one transaction of each engine. -/
def cmpS (armed : Bool) (mst : MState) (kind : Nat) (x y : Word) : State :=
  { now := 20, mst := mst, pairs := [(0, { joined := true, d := 3, armed := armed, lead := [⟨5, kind, [x], 1⟩], trail := [⟨8, kind, [y], 1⟩] })] }

/-- A comparator not armed, agreeing and differing fields, and DONE with equal signatures. -/
theorem witness_ComparatorComparesTransactions : (∀ s ∈ [cmpS true .active 0 1 1, cmpS false .bench 4 1 2], s.wf)
    ∧ (pairOf (cmpS false .bench 4 1 2) 0).armed = false ∧ (pairOf (cmpS true .active 0 1 1) 0).armed = true
    ∧ (pairOf (cmpS true .active 4 1 2) 0).lead = [⟨5, 4, [1], 1⟩] ∧ (pairOf (cmpS true .active 4 1 2) 0).trail = [⟨8, 4, [2], 1⟩]
    ∧ 8 = 5 + (pairOf (cmpS true .active 4 1 2) 0).d ∧ 8 < (cmpS true .active 4 1 2).now
    ∧ ({ cmpS true .active 0 1 1 with now := 8 } : State).now ≤ 8
    ∧ ([1#36] : List Word) ≠ [2] ∧ firstDiff [1#36] [2] = some (1, 2)
    ∧ pendingResults (cmpS true .active 5 0 0) 0 = [] ∧ pendingResults (cmpS true .active 5 0 0) 1 = [] ∧ (pairOf (cmpS true .active 5 0 0) 0).buf = []
    ∧ signature (engine (cmpS true .active 5 0 0) 0) = signature (engine (cmpS true .active 5 0 0) 1)
    ∧ signedAt (engine (cmpS true .active 5 0 0) 0) 5 ≤ (cmpS true .active 5 0 0).now
    ∧ signedAt (engine (cmpS true .active 5 0 0) 1) 8 ≤ (cmpS true .active 5 0 0).now
    ∧ (cmpS true .active 4 1 2).mism.length < 16 := by
  refine ⟨wf_all (by decide), ?_, ?_, ?_, ?_, ?_, ?_, ?_, ?_, ?_, ?_, ?_, ?_, rfl, ?_⟩ <;> decide

/-- Pairs and clusters at rest, a joined pair at tick 71 of its day, an engine at rest after DONE, and a failed measurement. -/
theorem witness_SelfTestsArmingAndMonitors :
    (let s : State := { mst := .active, day := { run := true, tick := 71, table := [1000#36] }, pairs := [(0, { joined := true, d := 3 })],
                        eng := [(2, { ran := true, rest := .done })] }
     s.wf ∧ restsNow (engine s 0) = true ∧ restsNow (engine s 1) = true ∧ s.mism.length < 16
       ∧ (∀ i < 16, restsNow (engine s (16 * 63 + i)) = true) ∧ (pairOf s 0).joined = true ∧ (pairOf s 0).armed = false ∧ dayTick s = 71
       ∧ s.mst = .active ∧ trailsJoined s 2 = false ∧ (engine s 2).ran = true ∧ (engine s 2).rest = .done ∧ (engine s 2).fly = []) := by
  refine ⟨wf_of (by decide), ?_⟩
  decide

/-- The store's words equal, one different and three different, a queued repair, and a word of shared memory. -/
theorem witness_TripleStoreAndScrubbing :
    (let s : State := { ts := [(0, ⟨7, 7, 7, .ok, .ok, .ok⟩), (0x8400, ⟨1, 2, 3, .ok, .ok, .ok⟩)], tsRepairs := [(1, 7)] }
     s.wf ∧ s.tsSplit.contains 0 = false ∧ tsWord s 0 = { c1 := 7, c2 := 7, c3 := 7 } ∧ (8 : Word) ≠ 7
       ∧ s.tsRepairs.any (·.1 == 0) = false ∧ s.tsRepairs.length < 8 ∧ tsWord s 0x8400 = { c1 := 1, c2 := 2, c3 := 3 }
       ∧ s.tsSplit.contains 0x8400 = false ∧ s.tsRepairs = [(1, 7)] ∧ isShared 0x7FFFFF = true ∧ chkOf s 0x7FFFFF = .ok
       ∧ backgroundFree s 0x03000000 = true ∧ backgroundFree s 0x7FFFFF = true
       ∧ backgroundFree { s with served := [(1088, 1)] } 0x03000000 = false ∧ backgroundFree { s with served := [(63, 1)] } 0x7FFFFF = false) := by
  refine ⟨wf_of (by decide), ?_⟩
  decide

/-- A secure supervisor's reads of the queues are granted, with records present and none; a plant engine's is refused. -/
theorem witness_QueueAndLatchReads :
    (let s : State := { late := [(1, 2, 3)], mism := [(1, 2, 3)], viol := [(1, 2, 3)], ovr := [5], trace := { mem := [[1, 2, 3, 4]], readPos := 3 } }
     s.wf ∧ (∀ a ∈ [0x04010008, 0x04020040, 0x04030008, 0x040C0008, 0x04100018, 0x04020002, 0x04050002],
         gate s 1024 (worldOf s 1024) .read (BitVec.ofNat 36 a) = none ∧ blockedAt s 1024 0 a = false ∧ bornNow s a = false)
       ∧ s.late.head? = some (1, 2, 3) ∧ s.mism.head? = some (1, 2, 3) ∧ s.viol.head? = some (1, 2, 3)
       ∧ s.trace.mem ≠ [] ∧ 3 ≤ s.trace.readPos ∧ gate s 0 (worldOf s 0) .read 0x04010008#36 = some (1, 0) ∧ blockedAt s 0 0 0x04010008 = false
       ∧ blockedAt { s with served := [(pointOf 0x04010008, 1)] } 1024 0 0x04010008 = true)
    ∧ State.reset.trace.mem = [] ∧ (let s : State := { trace := { mem := [[1, 2, 3, 4]], readPos := 2 } }; s.trace.mem ≠ [] ∧ s.trace.readPos < 3) := by
  refine ⟨⟨wf_of (by decide), ?_⟩, ?_⟩ <;> decide +kernel

/-- Writes granted in the three blocks, one refused, a register with fields that clear when read, and region entries locked, free while
the day sequencer is stopped, and free while it runs. -/
theorem witness_RegisterWritesAndClears :
    (let s : State := { regs := [(gateR 1 2, 0x400000000#36)] }
     s.wf ∧ (∀ a ∈ [0x04010000, 0x04030000], gate s 1024 (worldOf s 1024) .write (BitVec.ofNat 36 a) = none ∧ (regDesc a).isSome = true
         ∧ a / 0x10000 ∈ [0x401, 0x403, 0x407] ∧ blockedAt s 1024 0 a = false)
       ∧ gate s 0 (worldOf s 0) .write (0x04010000#36) = some (1, 0)
       ∧ gate s 1024 (worldOf s 1024) .read 0x040C0010#36 = none ∧ (∃ d ∈ regDesc gateCnt, d.rc ≠ 0) ∧ isReg gateCnt = true
       ∧ gate s 1024 (worldOf s 1024) .write (word (gateR 1 (2 : Fin 3))) = none ∧ regionLocked s 1 = true ∧ regionLocked s 255 = false
       ∧ s.day.run = false ∧ s.viol.length < 32 ∧ blockedAt s 0 0 0x04010000 = false ∧ blockedAt s 1024 0 gateCnt = false
       ∧ blockedAt s 1024 0 (gateR 1 (2 : Fin 3)) = false ∧ s.tk.viols = 0 ∧ reseedDue s = false
       ∧ reseedDue { s with rng := { draws := 2 ^ 20 } } = true)
    ∧ (let s : State := { day := { run := true } }; regionLocked s 0 = false ∧ gate s 1027 (worldOf s 1027) .write (word (gateR 0 (0 : Fin 3))) = none) := by
  refine ⟨⟨wf_of (by decide), ?_⟩, ?_⟩ <;> decide +kernel

/-- The module with the phasor section `ws`, whose meaning the configuration's own functions give. -/
def phasorS (ws : List Word) : State := { boot := { phasors := ws } }

/-- A peer is listed where the section lists it, at the port it gives, and no peer before a section is loaded. -/
theorem witness_SynchrophasorCommands : State.reset.wf ∧ (∀ ws, (phasorS ws).wf)
    ∧ (∀ i p, peerListed State.reset i p = false)
    ∧ ∀ ws i p c, ws ≠ [] → (Config.phasorSection ws).streams[i]? = some c → p ∈ c.peers →
      streamCfg (phasorS ws) i = some c ∧ peerListed (phasorS ws) i p = true ∧ tcpPort (phasorS ws) i = c.tcpPort := by
  refine ⟨wf_of (by decide), fun ws => wf_of rfl, fun i p => rfl, ?_⟩
  intro ws i p c h1 h2 h3
  have h : streamCfg (phasorS ws) i = some c := by simp [streamCfg, phasorSec, phasorS, h1, h2]
  refine ⟨h, ?_, ?_⟩
  · unfold peerListed; rw [h]; simpa using h3
  · unfold tcpPort; rw [h]; rfl

/-- A stream that is on, or sent over UDP, with its results complete in time, one of them invalid, and incomplete 5/Fs after the instant;
remote streams configured, matched, silent for 3/Fs and due to be asked again; a line whose location the plan asks for. What the phasor
section says is a free value: the witness holds for each that says it. -/
theorem witness_DataFramesAndRemoteStreams :
    (∀ ws c rs, ws ≠ [] → (Config.phasorSection ws).streams[0]? = some c → c.blocks = [] → Config.c37Results ws 0 [] 0 0 = some rs →
      let s : State := { boot := { phasors := ws }, c37 := { streams := [(0, { on := true })] } }
      s.wf ∧ streamCfg s 0 = some c ∧ blockResults s 0 0 0 = some rs ∧ frameData s 0 0 0 = some [] ∧ (stream s 0).on = true
        ∧ pastFrames s (c.fs + 1) 0 0 5 = false)
    ∧ (∀ c, 0 < c →
      let s : State := { time := { sec := 5 }, c37 := { streams := [(0, { on := true })] } }
      s.wf ∧ frameData s 0 0 0 = none ∧ streamSends s 0 = true ∧ pastFrames s c 0 0 5 = true)
    ∧ (∀ ws k, ws ≠ [] → (Config.phasorSection ws).remotes[0]? = some k → k.fs ≠ 0 →
      let s : State := { now := 750000000, boot := { phasors := ws }, c37 := { remotes := [(0, { cfgCnt := some 4 })] } }
      s.wf ∧ remoteCfg s 0 = some k ∧ remoteFs s 0 ≠ 0 ∧ (remote s 0).cfgCnt = some 4 ∧ (remote s 0).lost = false
        ∧ (remote s 1).cfgCnt = none ∧ (remote s 0).validAt + 750000000 / remoteFs s 0 ≤ s.now)
    ∧ (∀ ws l, (Config.phasorSection ws).lines = [l] →
      (phasorSec (phasorS ws)).lines = [l] ∧ ((phasorSec (phasorS ws)).lines.all (fun x => x.remote != l.remote + 1)) = true)
    ∧ (∃ l : LineCfg, (waveRatio l (some 320000)).isSome = true ∧ (waveRatio l (some (-320000))).isSome = true)
    ∧ (let s : State := { now := 250000000, c37 := { remotes := [(0, { lost := true })] } }
       s.wf ∧ (remote s 0).lost = true ∧ (remote s 0).askedAt + 250000000 ≤ s.now ∧ (remote s 0).cfgCnt ≠ some 4) := by
  refine ⟨?_, ?_, ?_, ?_, ⟨default, by decide +kernel⟩, wf_of (by decide), by decide, by decide, by decide⟩
  · intro ws c rs h1 h2 h3 h4 s
    have h5 : streamCfg s 0 = some c := by simp [streamCfg, phasorSec, s, h1, h2]
    have h6 : blockResults s 0 0 0 = some rs := by simp [blockResults, s, h1, h4]
    refine ⟨wf_of rfl, h5, h6, ?_, rfl, ?_⟩
    · unfold frameData; rw [h5, h6]; simp [h3, capPhasors]
    · simp [pastFrames, s, nsWrap]
  · intro c h s
    refine ⟨wf_of rfl, rfl, rfl, ?_⟩
    unfold pastFrames
    apply decide_eq_true
    change (0 * c + 0 + 5) * nsWrap ≤ (5 * nsWrap + 0) * c
    unfold nsWrap
    omega
  · intro ws k h1 h2 h3 s
    have h4 : remoteCfg s 0 = some k := by simp [remoteCfg, phasorSec, s, h1, h2]
    have hf : remoteFs s 0 = k.fs := by unfold remoteFs; rw [h4]; rfl
    refine ⟨wf_of rfl, h4, by omega, rfl, rfl, rfl, ?_⟩
    rw [hf]
    have := Nat.div_le_self 750000000 k.fs
    change 0 + _ ≤ 750000000
    omega
  · intro ws l h
    simp [phasorSec, phasorS, h]

/-- Every point is free to a module whose engines rest and that has made no access, whatever its phasor section says. -/
theorem witness_points_free (ws : List Word) (r a n : Nat) : pointsFree
    { now := 750000000, boot := { phasors := ws }, c37 := { remotes := [(0, { cfgCnt := some 4 })] } } 1024 r a n := by
  intro i _
  simp [blockedAt, pointHeld, plantPresent, waiterFirst, owedFirst, ownerBusy, bankHeld, engine, tabGet, restsNow, ownAccess]
  split <;> simp

/-- The active module with its standby joined and lane 0 up. -/
def ckS (t : Nat) (l : Link) : State := { mst := .active, day := dayAt t, link := { l with joinAccepted := true, laneAt := [(0, 1)] } }

/-- The cut with nothing to freeze, with an engine whose run spans it, and with a delta beyond the bound; frames, END, sweep, ACK, Dusk. -/
theorem witness_CheckpointIsStreamed :
    (∀ s ∈ [ckS 125000 {}, ckS 130000 { stream := true, frozen := [5] }, ckS 240000 { sweepLeft := 1, stateMap := [(0, 64)] },
      ckS 200000 { ended := true, ckDay := 7 }, { ckS 125000 {} with eng := [(0, { ran := true, rest := .run, pos := 5 })] }], s.wf)
    ∧ (let s := ckS 125000 {}
       dayTick s = phaseStart s 3 ∧ s.day.cutDone = false ∧ s.day.broken = false ∧ s.link.swRunning = false
         ∧ deltaWords 1 [] [] ≤ slice (wordAt s.day.table 14) 23 0)
    ∧ (∀ e < 1024, straddles (ckS 125000 {}) e = false)
    ∧ straddles { ckS 125000 {} with eng := [(0, { ran := true, rest := .run, pos := 5 })] } 0 = true
    ∧ slice (wordAt { dayAt 125000 with table := [1000, 10000, 100000, 125000].map word }.table 14) 23 0 < deltaWords 1 [] []
    ∧ (let s := ckS 130000 { stream := true, frozen := [5] }
       s.link.stream = true ∧ laneUp s 0 = true ∧ phaseOf s (dayTick s) = 3 ∧ (nextFrame s.link.frozen s.link.frozenImg).runs = [(5, 1)])
    ∧ linkReads (ckS 130000 { stream := true, frozen := [5] }) 5 0 ∧ blockedAt (ckS 130000 { stream := true, frozen := [5] }) masterLink 0 5 = false
    ∧ (let s := ckS 130000 { stream := true }; s.link.frozen = [] ∧ s.link.frozenImg = [] ∧ phaseOf s (dayTick s) = 3)
    ∧ (let s := ckS 240000 { sweepLeft := 1, stateMap := [(0, 64)] }
       phaseOf s (dayTick s) = 5 ∧ 0 < s.link.sweepLeft ∧ s.link.sweepLeft ≤ shareAt s s.link.sweepPos)
    ∧ (let s := ckS 130000 { ended := true, endSent := true, ckDay := 7 }
       s.link.endSent = true ∧ s.link.acked = false ∧ s.link.ckDay = s.day.n ∧ s.link.frozen = [] ∧ phaseOf s (dayTick s) = 3)
    ∧ (let f := packFrame 6 0 [7]; frameGood f = true ∧ frameType f = 6 ∧ f.payload = [7])
    ∧ (let s := ckS 200000 {}; dayTick s = phaseStart s 4 ∧ s.link.acked = false ∧ streamedToday s = false)
    ∧ (let s := ckS 200000 { heard := some ⟨7, 1, false, true, 0, 0, 0, 7, 0⟩, endSent := true, ckDay := 7, acked := true }
       s.link.heard = some ⟨7, 1, false, true, 0, 0, 0, 7, 0⟩ ∧ streamedToday s = true ∧ s.link.acked = true) := by
  refine ⟨wf_all (by decide), by decide, fun e _ => rfl, by decide, by decide, by decide, rfl, by decide, by decide, by decide, by decide, by decide +kernel, by decide, by decide⟩

/-- Every word of the state map reads without an error over the link, where the map names shared memory. -/
theorem witness_sweep_reads : ∀ a, inStateMap (ckS 240000 { sweepLeft := 1, stateMap := [(5, 1)] }) a = true →
    (∃ v, linkReads (ckS 240000 { sweepLeft := 1, stateMap := [(5, 1)] }) a v)
      ∧ blockedAt (ckS 240000 { sweepLeft := 1, stateMap := [(5, 1)] }) masterLink 0 a = false := by
  intro a h
  have : a = 5 := by
    simp [inStateMap, ckS] at h
    omega
  subst this
  exact ⟨⟨0, rfl⟩, by decide⟩

/-- A frame of each type of the pair link, one that fails its check, and changes named as armed: one staged and one not. -/
theorem witness_pair_frames :
    (∀ p ∈ [(2, [7]), (3, [7]), (4, [7, 3, 0]), (5, [7, 4]), (5, [7, 1]), (6, [7]), (8, [7])],
      frameGood (packFrame p.1 5 p.2) = true ∧ frameType (packFrame p.1 5 p.2) = p.1 ∧ frameSeq (packFrame p.1 5 p.2) = 5)
    ∧ frameGood { packFrame 2 5 [7] with check := 0 } = false ∧ frameGood { packFrame 2 5 [7] with payload := [7, 7] } = false
    ∧ (let s : State := { boot := { staged := some (hdr 2 9, []) } }
       stagedAs s ⟨[1, 2, 3, 4], 9, false⟩ = true ∧ stagedAs s ⟨[1, 2, 3, 5], 9, false⟩ = false ∧ s.day.changeDay = none) := by
  refine ⟨?_, ?_⟩ <;> decide +kernel

/-- The standby: an END frame that is complete and one that is not, Dusk with and without a complete checkpoint, and a commit of a word
and an image, the 64th in a row. -/
theorem witness_CheckpointIsCommitted :
    (let s : State := { mst := .standby, day := dayAt 130000, link := { rx := [(0, [1, 2, 3])] } }
     s.wf ∧ isComplete (modLink (fun l => { l with rxEnd := some (7, 3, crcOf [1, 2, 3], 1, false) }) s) = true
       ∧ isComplete (modLink (fun l => { l with rxEnd := some (7, 4, crcOf [1, 2, 3], 1, false) }) s) = false)
    ∧ (let s : State := { mst := .standby, day := dayAt 200000, link := { complete := some 7 } }
       s.wf ∧ dayTick s = phaseStart s 4 ∧ s.link.commit = none ∧ s.link.complete = some s.day.n ∧ s.day.changeDay ≠ some s.day.n)
    ∧ (let s : State := { mst := .standby, day := dayAt 200000, link := { heard := some ⟨7, 3, false, false, 0, 0, 0, 0, 0⟩ } }
       s.wf ∧ s.link.complete ≠ some s.day.n ∧ s.link.heard = some ⟨7, 3, false, false, 0, 0, 0, 0, 0⟩)
    ∧ (let s : State := { mst := .standby, link := { commit := some (7, [(5, 9), (0x01000000, 4)], [(0, [])]), consec := 63 },
                          pairs := [(0, { joined := true })] }
       s.wf ∧ s.day.changeDay = none ∧ (∀ w ∈ [(5, 9#36), (0x01000000, 4#36)],
           (isShared w.1 = true ∨ isLocal w.1 = true) ∧ gate s masterLink true .write (word w.1) = none)
         ∧ leadsJoined s 0 = true ∧ pairReady s = false) := by
  refine ⟨⟨wf_of (by decide), ?_, ?_⟩, ⟨wf_of (by decide), by decide⟩, ⟨wf_of (by decide), by decide⟩, ⟨wf_of (by decide), ?_⟩⟩ <;>
    decide +kernel

/-- Frames of a clone to be sent and received, one whose header is refused, one that does not verify; a change loaded at T - 2,500 and a
tick later. -/
theorem witness_ClonesAndChangeLoader :
    (let s : State := { mst := .active, regs := [(pairCfg, 3), (updFwVer, 5)],
                        boot := { slots := [(0, { st := .valid, hdr := some (hdr 1 9), words := [1, 2] })] },
                        link := { heard := some ⟨7, 1, false, false, 0, 0, 0, 0, 0⟩, laneAt := [(1, 1)] } }
     s.wf ∧ laneUp s 1 = true ∧ bitOf s pairCfg 0 = true ∧ bitOf s pairCfg 1 = true ∧ (4 : Word).toNat < (reg s updFwVer).toNat
       ∧ (slotOf s (getF s updBoot 1 1) 0).st = .valid ∧ (slotOf s (getF s updBoot 1 1) 0).hdr = some (hdr 1 9)
       ∧ tabGet 0 s.link.cloneTx 0 < cloneFrames (hdr 1 9))
    ∧ (let s : State := { regs := [(updFloor, 0)], boot := { step := 3 } }
       s.wf ∧ wantsClone s = true ∧ cloneOf s 0 = none) ∧ wantsClone State.reset = false
    ∧ headerCheck { regs := [(updFloor, 0)], boot := { step := 3 } } 1 (headerOf (rawHdr 1 36)) = none
    ∧ headerCheck { regs := [(updFloor, 0)], boot := { step := 3 } } 1 (headerOf (rawHdr 2 36)) ≠ none
    ∧ cloneFrames (headerOf (rawHdr 1 36)) = 5
    ∧ (tabSet [] [(0, [1]), (1, [1]), (2, [1]), (3, [1])] 4 [7#36]).length = 5
    ∧ cloneHeader (tabSet [] [(0, [1]), (1, [1]), (2, [1]), (3, [1])] 4 [7#36]) ≠ fourPacked ((rawHdr 1 36).octets.map (·.toNat))
    ∧ (∃ w : Owed, w.master = masterLoader) ∧ (∀ w ∈ State.reset.owed, w.master ≠ masterLoader)
    ∧ (∀ t ∈ [247500, 247501], let s : State := { regs := [(dayStatus, 128)], day := { dayAt t with changeDay := some 7 } }
       wfB s = true ∧ changeDayNow s = true ∧ s.day.changeDone = false ∧ (t = 247500 ↔ dayTick s + 2500 ≤ dayT s) ∧ s.ovr.length < 16) := by
  refine ⟨⟨wf_of (by decide), ?_⟩, ⟨wf_of (by decide), ?_⟩, ?_, ?_, ?_, ?_, ?_, ?_, ⟨⟨0, masterLoader, 0, 0⟩, rfl⟩, ?_, ?_⟩ <;> decide +kernel

/-- Ticks against the bounds of the clock, and what matures in one: a write waiting for its mirror, an update put off, an event on its way,
a breach of the tick before, and a joining engine at ticks 70 and 71; the start of the sequencer on the grid and past it. -/
theorem witness_ClockTicksAndTheDayStarts :
    (let s : State := { mirrors := [(1, 0x01002000, 5)], time := { sec := 2 ^ 48 - 2, ns64 := nsWrap - 1, frac := 2 ^ 32 - 1 } }
     s.wf ∧ s.hostQ = [] ∧ s.time.ns64 < nsWrap ∧ s.time.frac < 2 ^ 32 ∧ s.time.sec < 2 ^ 48 - 1 ∧ -2199023 ≤ rateOf s ∧ rateOf s ≤ 2199023
       ∧ s.mirrors = [(1, 0x01002000, 5)] ∧ 1 ≤ s.now + 1 ∧ s.now + 1 < 2 ∧ quietTick s)
    ∧ (let s : State := { tk := { hw := [(timRate, 15, 5)] } }; s.wf ∧ quietTick { s with tk := {} })
    ∧ (∀ m ∈ [1, 2], let s : State := { arrivals := [(m, 0x920, 0)] }; s.wf ∧ quietTick { s with arrivals := [] } ∧ (m = 1 ↔ m ≤ s.now + 1))
    ∧ (let s : State := { mst := .active, day := { dayAt 5 with broken := true, brokenAt := 1 }, link := { stream := true } }
       s.wf ∧ s.day.brokenAt = s.now + 1 ∧ quietTick { s with day := { s.day with broken := false } })
    ∧ (∀ n ∈ [69, 70], let s : State := { day := dayAt n, pairs := [(0, { joined := true, d := 3 })] }
       s.wf ∧ quietTick { s with pairs := [] })
    ∧ (∀ n ∈ [255, 256], let s : State := { mst := .standby, day := { dayAt 0 with run := false }, time := { set := true, ns64 := 64000000 + n } }
       s.mst ≠ .stopped ∧ ¬(s.mst = .daybreak ∧ s.boot.step < 6) ∧ s.day.run = false ∧ s.time.set = true ∧ 0 < dayL s ∧ s.time.pllLost = false
         ∧ (n = 255 ↔ gridOffset s < lastAdvance s)) := by
  unfold quietTick
  refine ⟨⟨wf_of (by decide), by decide⟩, ⟨wf_of (by decide), by decide⟩, fun m h => ⟨?_, ?_⟩, ⟨wf_of (by decide), by decide⟩,
    fun n h => ⟨?_, ?_⟩, by decide⟩
  · exact wf_of rfl
  · revert m; decide
  · exact wf_of rfl
  · revert n; decide

/-- The active module with an engine that rests and is due at every midnight, at tick `t` of its day, and `f` of its day changed. -/
def midS (t : Nat) : State :=
  { mst := .active, day := dayAt t, bindings := [(0x0B00, 3)], eng := [(0, { role := 1, len := 5, rest := .done, start := 9 }), (1, { role := 1 })] }

/-- One tick before T, and at T with nothing due but the engines. -/
theorem witness_MidnightStartsTheDueEngines : (midS 249999).wf ∧ (midS 249999).day.tick < dayT (midS 249999) ∧ dayT (midS 250000) ≤ (midS 250000).day.tick
    ∧ 0 < dayT (midS 250000) ∧ (midS 250000).link.swReleased = false ∧ (midS 250000).link.swRunning = false ∧ reg (midS 250000) pairSwDay = 0
    ∧ (midS 250000).stopReq = none ∧ (midS 250000).day.changeDay = none ∧ bitOf (midS 250000) dayStatus 7 = false
    ∧ (midS 250000).day.halted = false ∧ (midS 250000).grant = none ∧ (midS 250000).bindings.find? (·.1 == 0x0B00) = some (0x0B00, 3)
    ∧ (let s := midS 250000; let x := engine s 0
       x.role ≠ 0 ∧ x.len ≠ 0 ∧ x.halted = false ∧ x.rest = .done ∧ 0 < slice (wordAt s.day.table (6 + x.rate)) 11 0
         ∧ (s.day.n + 1) % 2 ^ 48 % dayQ s % slice (wordAt s.day.table (6 + x.rate)) 11 0 = slice (wordAt s.day.table (6 + x.rate)) 23 12)
    ∧ (engine (midS 250000) 1).len = 0 := by
  refine ⟨wf_of (by decide), by decide⟩

/-- The states each transition of a midnight starts from. -/
theorem witness_MidnightTakesOneTransition :
    (∀ s ∈ [midS 250000, { midS 250000 with mst := .daybreak, boot := { step := 8, benchDue := true } },
      { midS 250000 with mst := .standby, link := { confirmed := true } },
      { midS 250000 with mst := .active, link := { swReleased := true, part := .claimed } }], s.wf)
    ∧ dayT (midS 250000) ≤ (midS 250000).day.tick ∧ ({ step := 7 } : Boot).step ≠ 8 ∧ (some (true, 1, 5#20) ≠ none) ∧ ({} : Link).swReclaimed = false
    ∧ (let s : State := { midS 250000 with regs := [(pairSwDay, 8)], stopReq := some (true, 1, 0) }
       switchesOn s (s.day.n + 1) = true ∧ s.stopActivate = false ∧ s.link.swReleased = false) := by
  refine ⟨wf_all (by decide), ?_⟩
  decide

/-- The last tick of a day, with every engine at DONE and with one that runs; elsewhere the check does nothing. -/
theorem witness_DayWatchdogFindsOverruns :
    (let s : State := { mst := .active, day := dayAt 249999, eng := [(0, { ran := true, rest := .done }), (5, { ran := true, rest := .run, pos := 3 })] }
     s.wf ∧ changeDayNow s = false ∧ s.day.wdDone = false ∧ dayTick s + 1 = dayT s ∧ (engine s 5).ran = true ∧ (engine s 5).halted = false
       ∧ (engine s 5).rest = .run ∧ s.ovr = [] ∧ (engine s 0).rest = .done)
    ∧ (∀ e < 1024, (engine { mst := .bench, day := dayAt 249999 } e).ran = false)
    ∧ dayTick { mst := .active, day := dayAt 249998 } + 1 ≠ dayT { mst := .active, day := dayAt 249998 } := by
  refine ⟨⟨wf_of (by decide), by decide⟩, fun e _ => rfl, by decide⟩

/-- A vault past commissioning. -/
def vaultS : List (Nat × VaultItem) := [(2, ⟨1, 1, [], 9, []⟩)]

/-- A session of every role. -/
def allRoles : HostSess := { roles := [.monitor, .operator, .engineer, .secadmin, .service] }

/-- A module past commissioning with session 0 open for every role, and `n` of its requests waiting. -/
def hostS (n : Nat) : State :=
  { vault := vaultS, sess := [(0, allRoles)], hostQ := List.replicate n ⟨0, ⟨0, 1⟩, .ident⟩ }

/-- A session of every role none of whose requests waits is served at once, whether or not the command is exclusive. -/
theorem witness_mayServe (roles : List Role) (r : Role) (h : r ∈ roles) (s : State) (tag : BitVec 20) (hv : s.vault = vaultS)
    (hs : s.sess = [(0, allRoles)]) (hq : s.hostQ = []) (hn : s.net.turn.1 = 0) (excl : Bool) : mayServe s ⟨0, tag⟩ roles excl := by
  refine ⟨allRoles, ⟨?_, ?_, ?_⟩, ?_, fun _ => ?_, .inr ⟨r, ?_, h⟩⟩
  · rw [hostSess, hs]; rfl
  · rw [outstanding, hq]; rfl
  · simp [inTurn, hn]
  · rw [delivery, hv]; rfl
  · rw [exclBusy, hq]; rfl
  · cases r <;> simp [allRoles]

/-- The commands without a role are served too. -/
theorem witness_mayServe_all (tag : BitVec 20) : mayServe (hostS 0) ⟨0, tag⟩ [] false :=
  ⟨allRoles, ⟨rfl, rfl, rfl⟩, rfl, fun h => by simp at h, .inl rfl⟩

/-- A session not open; 15 and 16 requests outstanding; a request of the tick that comes after this session's; delivery state; an exclusive
command in progress; a role that is not permitted. -/
theorem witness_RequestsAreCheckedBeforeService : hostSess State.reset 0 = none ∧ hostSess (hostS 16) 0 = some allRoles
    ∧ 16 ≤ outstanding (hostS 16) 0 ∧ outstanding (hostS 15) 0 < 16 ∧ 0 < outstanding (hostS 15) 0 ∧ outstanding (hostS 0) 0 = 0
    ∧ inTurn allRoles { hostS 0 with net := { turn := (1, 1, 0) } } = false ∧ inTurn allRoles (hostS 0) = true
    ∧ delivery (hostS 0) = false ∧ delivery { hostS 0 with vault := [] } = true
    ∧ (let s : State := { hostS 0 with hostQ := [⟨1, ⟨1, 1⟩, .arm 9⟩] }; exclBusy s = true ∧ outstanding s 0 = 0)
    ∧ HostReq.excl (.arm 9) = true ∧ HostReq.excl .ident = false
    ∧ (let s : State := { vault := vaultS, sess := [(0, { roles := [.monitor] })] }; ∃ x, hostSess s 0 = some x ∧ ∀ r ∈ x.roles, r ∉ [Role.operator])
    ∧ rngReady State.reset = false ∧ rngReady { regs := [(secRngSt, 1)] } = true :=
  ⟨rfl, rfl, by decide, by decide, by decide, rfl, by decide, by decide, by decide, by decide, by decide, rfl, rfl, ⟨_, rfl, by decide⟩,
    by decide, by decide⟩

/-- R556: STOP of tag 0x00017 and what answers it, as the worked example at the chapter's end gives their octets and words. -/
theorem test_worked_example_octets :
    wordOctets [0x102000017, 1, 0] = [0x10, 0x20, 0, 0x01, 0x70, 0, 0, 0, 0x01, 0, 0, 0, 0, 0, 0, 0, 0, 0]
    ∧ sentFrame (.response 0 0x17 0x020 0x001 [6]) = wordOctets [0x202000017, 0x001000001, 6] := by decide +kernel

/-- The debug master with a grant of level `l`, and a region entry that opens the first 65,536 shared words to it. -/
def dbgS (mst : MState) (l : Nat) : State :=
  { mst := mst, vault := vaultS, sess := [(0, allRoles)], grant := some (0, ⟨[], l, 9, 0, true, true⟩), violSeq := 4095,
    regs := [(gateR 0 0, 0#36), (gateR 0 1, 0xFFFF#36), (gateR 0 2, 0xB400007FF#36)], pairs := [(0, { joined := true })],
    eng := [(2, { rest := .run })] }

/-- Words granted and refused at the border of the region, each level, a barred state, a trailing engine's words, and REGS waiting. -/
theorem witness_DebugReadsAndWrites : (∀ s ∈ [dbgS .bench 2, dbgS .active 1, dbgS .stopped 3], s.wf)
    ∧ debugLevel (dbgS .bench 1) 0 < 2 ∧ 2 ≤ debugLevel (dbgS .bench 2) 0 ∧ debugBarred (dbgS .active 2) = true ∧ debugBarred (dbgS .bench 2) = false
    ∧ namesTrailing (dbgS .bench 2) 0x01001FFF#36 2 = true ∧ namesTrailing (dbgS .bench 2) 0xFFFF#36 1 = false
    ∧ isShared 0xFFFF = true ∧ chkOf (dbgS .bench 2) 0xFFFF = .ok
    ∧ gate (dbgS .bench 2) masterDebug false .peek 0xFFFF#36 = none ∧ gate (dbgS .bench 2) masterDebug false .read 0xFFFF#36 = none
    ∧ gate (dbgS .bench 2) masterDebug false .write 0xFFFF#36 = none ∧ gate (dbgS .bench 2) masterDebug false .write 0x10000#36 = some (1, 0)
    ∧ blockedAt (dbgS .bench 2) masterDebug 0 0x10000 = false ∧ (dbgS .bench 2).tk.viols = 0
    ∧ restsNow (engine (dbgS .bench 2) 0) = true ∧ restsNow (engine (dbgS .bench 2) 2) = false := by
  refine ⟨wf_all (by decide), ?_⟩
  decide +kernel

/-- Words whose points are free and one whose point has served another access; a read and a dump of registers that wait for the next tick. -/
theorem witness_requests_wait : pointsFree (dbgS .bench 2) masterDebug 0 0xFFFF 1 ∧ pointsFree (hostS 0) 1024 0 0x7FFFFF 1
    ∧ ¬ pointsFree { dbgS .bench 2 with served := [(0, 1)] } masterDebug 0 0 1 ∧ ¬ pointsFree { hostS 0 with served := [(63, 1)] } 1024 0 0x7FFFFF 1
    ∧ (let s : State := { dbgS .bench 2 with hostQ := [serving ⟨0, 5⟩ (.held (.peek 0 1 2))], pairs := [] }
       s.wf ∧ sessOpen s 0 = true ∧ quietTick { s with hostQ := [] } ∧ pointsFree { s with now := s.now + 1 } masterDebug 0 0 1)
    ∧ (∀ n ∈ [0, 1], let s : State := { dbgS .bench 2 with hostQ := [serving ⟨0, 5⟩ (.resting n 0)], pairs := [] }
       wfB s = true ∧ sessOpen s 0 = true ∧ quietTick { s with hostQ := [] } ∧ s.now + 1 < 0 + 250000000
         ∧ restsNow (engine s 0) = true ∧ restsNow (engine s 2) = false) := by
  unfold pointsFree quietTick
  refine ⟨?_, ?_, ?_, ?_, ⟨wf_of (by decide), ?_, ?_, ?_⟩, ?_⟩ <;> decide +kernel

/-- Each reason that bars a halt, an engine that may be halted, and a release that meets a halt. -/
theorem witness_HaltStepAndResume : haltBarred (dbgS .bench 1) 0 0 = some 2 ∧ haltBarred (dbgS .bench 2) 0 1027 = some 2
    ∧ haltBarred (dbgS .active 2) 0 0 = some 3 ∧ haltBarred (dbgS .bench 2) 0 1 = some 6 ∧ haltBarred (dbgS .bench 2) 0 0 = none
    ∧ haltBarred (dbgS .active 3) 0 1027 = none
    ∧ (let s : State := { now := 1, eng := [(0, { rest := .run, haltReq := true })] }; mayRelease s 0 (sources (.nop 0 (rf 0 0 0 0))) 1 .none = true ∧ haltsNow s 0 = true)
    ∧ (let s : State := { eng := [(0, { halted := true }), (1, { halted := true })], pairs := [(0, { joined := true })] }
       leadsJoined s 0 = true ∧ (engine s 0).halted = true ∧ (engine s (0 + 1)).halted = true) := by decide

/-- Entries of this second and of one before, a collection at a whole second and a tick away from one, trace memory with room and full. -/
theorem witness_LogTelemetryAndTraceMemory :
    (let s : State := { logQ := [newEntry State.reset 1 2] }; s.wf ∧ s.logQ = [newEntry State.reset 1 2] ∧ (newEntry State.reset 1 2).sec = s.time.sec)
    ∧ (let s : State := { time := { sec := 1 } }; (newEntry State.reset 1 2).sec ≠ s.time.sec)
    ∧ (lastAdvance { time := { ns64 := 256 } } ≤ 256 ∧ 255 < lastAdvance { time := { ns64 := 255 } } ∧ State.reset.telem.setAt ≠ State.reset.now + 1
      ∧ ({ telem := { setAt := 1 } } : State).telem.setAt = State.reset.now + 1)
    ∧ (let s : State := { now := 5, trace := { intake := List.replicate 8 [], mem := [], came := (5, 8), wroteAt := 5 } }
       traceSettled s = 8 ∧ s.trace.wroteAt ≠ s.now + 1 ∧ s.trace.came.1 ≠ s.now + 1 ∧ s.trace.dropped = 0
         ∧ traceSettled { s with now := 4 } = 0)
    ∧ (let s : State := { regs := [(dbgTrCtl, 0x400000000#36)], trace := { mem := List.replicate 16384 [], intake := [[1]] } }
       s.trace.mem.length = 16384 ∧ traceSettled s = 1 ∧ s.trace.wroteAt ≠ s.now + 1 ∧ bitOf s dbgTrCtl 34 = true ∧ bitOf State.reset dbgTrCtl 34 = false)
    ∧ (let s : State := { trace := { dropped := 1 } }; s.trace.intake = [] ∧ 0 < s.trace.dropped ∧ s.trace.mem.length < 16384) :=
  ⟨⟨wf_of (by decide), rfl, rfl⟩, by decide, by decide, by decide, ⟨List.length_replicate .., by decide, by decide, by decide, by decide⟩, by decide⟩

/-- A read that a gate refuses, one that it grants, and parameters at their limits. -/
theorem witness_ReadingCommandsAnswer : (hostS 0).wf ∧ gate (hostS 0) 1024 false .read 0x01000000#36 = some (1, 0)
    ∧ blockedAt (hostS 0) 1024 0 0x01000000 = false
    ∧ (isShared 0x7FFFFF = true ∧ gate (hostS 0) 1024 false .read 0x7FFFFF#36 = none) ∧ (List.replicate 16 (0 : Word)).length ≤ 16
    ∧ 16 < (List.replicate 17 (0 : Word)).length := by
  refine ⟨wf_of (by decide), ?_⟩
  decide +kernel

/-- The active module with its partner ready or not, and the configuration of its second pair version. -/
def swS (ready : Bool) (n : Nat) : State :=
  { mst := .active, vault := vaultS, sess := [(0, allRoles)], day := { dayAt 0 with n := n }, regs := [(updPairVer, 1)],
    link := { laneAt := [(0, 1)], heard := some ⟨7, 2, false, ready, 0, 0, 0, 0, 0⟩, partVer := some 1 } }

/-- Stops, switchovers armed and refused, drives in and out of LOCKOUT, faceplate lines at both ends, and changes staged and not. -/
theorem witness_CommandingRequestsAct : (∀ s ∈ [swS true 7, swS false 7, { hostS 0 with mst := .standby }], s.wf)
    ∧ partnerReady (swS true 7) = true ∧ partnerReady (swS false 7) = false ∧ reg (swS true 7) pairSwDay = 0
    ∧ switchReason (swS true 7) (fullDay (swS true 7) 9) = none ∧ switchReason (swS true 7) (fullDay (swS true 7) 8) = some 3
    ∧ (let s : State := { mst := .bench, regs := [(safState 63, 4)] }; drvState s 63 = 4 ∧ causePersists s 63 = false ∧ drvState s 0 ≠ 4)
    ∧ (List.replicate 8 (0 : Word)).length = 8
    ∧ (let s : State := { mst := .bench, day := dayAt 0, boot := { staged := some (hdr 3 36, [1, 7, 4, 0]) } }
       ∀ b, armReason s (fullDay s 9) b = none) := by
  refine ⟨wf_all (by decide), ?_⟩
  decide +kernel

/-- A listening module with a free session, in delivery state and past it, and with connections, drops and echoes at their limits; sessions
at the end of their idle time and a tick before it. -/
theorem witness_SessionsOpenAndEnd :
    (let s : State := { mst := .standby, nwt := { inReset := false }, regs := [(secRngSt, 1)], net := { conns := [0, 0, 0], tlsAt := [(9, 1)] } }
     s.wf ∧ listening s = true ∧ (lastSecond s s.net.conns).length < 4 ∧ rngReady s = true ∧ freeSess s = some 0 ∧ delivery s = true
       ∧ tabGet 0 s.net.tlsAt 8 = 0 ∧ tabGet 0 s.net.tlsAt 9 ≠ 0 ∧ s.now + 1 < tabGet 0 s.net.tlsAt 9 + 250000000 ∧ s.net.dropAt = 0
       ∧ (lastSecond s (tabGet [] s.net.echoes 1)).length < 10)
    ∧ (let s : State := { mst := .standby, nwt := { inReset := false }, vault := [(2, ⟨1, 1, [], 9, []⟩), (10, ⟨1, 50, [], 9, []⟩), (20, ⟨0, 77, [.secadmin], 9, []⟩), (32, ⟨10, 3, [], 9, [6]⟩)] }
       delivery s = false ∧ rolesOf s [77] = some [.secadmin] ∧ rolesOf s [] = none
         ∧ certValid s ⟨77, 50, 5, -37, 0⟩ = true ∧ certValid s ⟨77, 50, 5, -1000, -38⟩ = false
         ∧ anchored s [⟨77, 50, 5, -37, 0⟩] = true ∧ anchored s [⟨77, 51, 5, -37, 0⟩] = false
         ∧ revokedBy s ⟨77, 50, 5, -37, 0⟩ = false ∧ revokedBy s ⟨77, 50, 6, -37, 0⟩ = true)
    ∧ (let s : State := { mst := .standby, nwt := { inReset := false }, net := { conns := [0, 0, 0, 0], echoes := [(1, List.replicate 10 0)] } }
       s.wf ∧ 4 ≤ (lastSecond s s.net.conns).length ∧ 10 ≤ (lastSecond s (tabGet [] s.net.echoes 1)).length)
    ∧ (let s : State := { hostS 0 with now := 75000000000 }; (hostSess s 0).map (·.last) = some 0 ∧ 0 + 75000000000 ≤ s.now)
    ∧ (let s : State := { hostS 0 with now := 74999999999 }; s.now < 0 + 75000000000 ∧ s.now < allRoles.keyAt + 900000000000 ∧ keyRecords s 0 < 2 ^ 24)
    ∧ allRoles.keyAt + 900000000000 ≤ ({ hostS 0 with now := 900000000000 } : State).now ∧ 1280 < (1281 : BitVec 24).toNat ∧ (1280 : BitVec 24).toNat ≤ 1280
    ∧ (kindOf 0x202000017 ≠ 1 ∧ lenOf 1281 = 1281 ∧ kindOf 0x1FFF00017 = 1 ∧ codeOf 0x1FFF00017 ≠ 0x042 ∧ codeOf 0x102000017 ∈ commandCodes
      ∧ codeOf 0x1FFF00017 ∉ commandCodes ∧ tagOf 0x1FFF00017 = 0x17)
    ∧ (hostPort (hostS 0) = 8936) ∧ (netOf { boot := { slotB := some false } } 0).addr = 0xC0A8EC0A ∧ ∃ a : Dial, a.dest = (netOf { boot := { slotB := some false } } 0).addr ∧ a.tcp = 8936 ∧ a.tlsOk = true := by
  refine ⟨⟨wf_of (by decide), by decide⟩, ⟨by decide, by decide, ?_, by decide, by decide, by decide, by decide, by decide, by decide⟩,
    ⟨wf_of (by decide), by decide⟩, by decide, by decide, by decide, by decide, by decide, ?_, by decide, by decide +kernel, ?_⟩
  · simp [rolesOf]
  · decide
  · exact ⟨⟨_, 8936, true⟩, rfl, rfl, rfl⟩

/-- A generator ready and not, a grant on its last day and past it, an update session lost for 60 s and a tick less. -/
theorem witness_RandomNumbersGrantsAndLostUpdates : rngReady State.reset = false ∧ rngReady { regs := [(secRngSt, 1)] } = true
    ∧ (2 ^ 20 ≤ ({ draws := 2 ^ 20 } : Rng).draws ∧ State.reset.rng.draws < 2 ^ 20 ∧ State.reset.now < State.reset.rng.seededAt + 250000000)
    ∧ (let s : State := { day := dayAt 0, grant := some (0, ⟨[], 2, 6, 0, true, true⟩), eng := [(4, { halted := true })] }
       s.wf ∧ 6 < presentDay s ∧ (engine s 4).halted = true)
    ∧ presentDay { day := dayAt 0 } ≤ 7
    ∧ (let s : State := { now := 15000000000, boot := { session := some { cls := 1, bank := 0, slot := 0, hdr := none, ty := 1, floor := 0, sess := 0, lostAt := some 0 } } }
       s.wf ∧ 0 + 15000000000 ≤ s.now) ∧ 14999999999 < 0 + 15000000000 :=
  ⟨by decide, by decide, by decide, ⟨wf_of (by decide), by decide⟩, by decide, ⟨wf_of (by decide), by decide⟩, by decide⟩

/-- The slots of each kind at both ends, the last administrator's anchor, and grants that hold at each level and that do not. -/
theorem witness_VaultAndGrants :
    (let s : State := { hostS 0 with mst := .stopped, regs := [(secRngSt, 1)], vault := [(1, ⟨0, 5, [], 9, []⟩), (2, ⟨1, 1, [], 9, []⟩), (20, ⟨0, 77, [.secadmin], 9, []⟩)] }
     s.wf ∧ s.mst ≠ .daybreak ∧ vaultHas s 1 = true ∧ rngReady s = true ∧ lastAdmin s 20 = true ∧ lastAdmin s 23 = false ∧ lastAdmin s 1 = false)
    ∧ rngReady (hostS 0) = false ∧ ¬(2 ≤ 10 ∧ 10 ≤ 9) ∧ 22 + 10 = 32
    ∧ (let s : State := { sess := [(0, {})], regs := [(secRngSt, 1)] }
       atOnce s ⟨0, 5⟩ {} ∧ delivery s = true ∧ exclBusy s = false ∧ ([Role.secadmin] : List Role).contains .secadmin = true ∧ rngReady s = true)
    ∧ (let s : State := { vault := [(18, ⟨1, 1, [], 9, []⟩)], sess := [(0, { challenge := some 5 })], day := dayAt 0 }
       grantHolds s 0 ⟨serialWords, 2, 7, 5, true, true⟩ = true ∧ grantHolds s 0 ⟨serialWords, 2, 6, 5, true, true⟩ = false
         ∧ grantHolds s 0 ⟨serialWords, 3, 7, 5, true, true⟩ = true ∧ grantHolds s 0 ⟨serialWords, 3, 7, 6, true, true⟩ = false) := by
  refine ⟨⟨wf_of (by decide), by decide⟩, by decide, by decide, by decide, by unfold atOnce; decide, ?_⟩
  have h : (serialWords == serialWords) = true := beq_self_eq_true _
  simp only [grantHolds, h]
  decide

/-- Channel 1 under the configuration word and channel state given, in ACTIVE with the mandate held. -/
def lioS (cfg : Nat) (c : Chan) : State :=
  { now := 2500000, mst := .active, nwt := { permit := true }, link := { inserted := true, latch := true, part := .released },
    regs := [(lioCfg 1, word cfg)], lio := { chans := [(0, c)], loading := true, settled := false, loadAt := some 2499750 } }

/-- An input with edge events at each filter, bands that have stood and not, freezes, and the settling of loading. -/
theorem witness_InputBandsFollowTheTerminals :
    (∀ s ∈ [lioS (2 ^ 34 + 2 ^ 23) {}, lioS (2 ^ 34 + 2 ^ 23 + 3 * 2 ^ 24) { raw := .on }], s.wf)
    ∧ (let s := lioS (2 ^ 34 + 2 ^ 23) { mv := 10999 }; getF s (lioCfg 1) 25 24 = 0 ∧ edgesOn s 0 = true ∧ (chan s 0).mv < 11000 ∧ ¬(8000 ≤ (7999 : Int)))
    ∧ (let s := lioS (2 ^ 34 + 2 ^ 23) { mv := 8000 }; 8000 ≤ (chan s 0).mv)
    ∧ (let s := lioS (2 ^ 34 + 2 ^ 23 + 3 * 2 ^ 24) { raw := .on }
       getF s (lioCfg 1) 25 24 ≠ 0 ∧ edgesOn s 0 = true ∧ hasStood s 0 = true ∧ (chan s 0).frozen = false ∧ nowBand s 0 ≠ bandCode (chan s 0).raw)
    ∧ hasStood (lioS (3 * 2 ^ 24) { raw := .on, rawAt := 1 }) 0 = false ∧ edgesOn (lioS 0 {}) 0 = false
    ∧ (let s : State := { lioS 0 {} with regs := [(lioIn 1, 32)] }; nowBand s 0 = 2 ∧ (chan s 0).raw ≠ .on)
    ∧ (let s := lioS 0 { frozen := true, freezeEnd := some 2500000 }; (chan s 0).frozen = true ∧ (chan s 0).freezeEnd = some 2500000 ∧ 2500000 ≤ s.now)
    ∧ (lioS 0 {}).now < 2500001 ∧ (chan (lioS 0 {}) 0).freezeEnd = none
    ∧ (lioS 0 {}).lio.loading = true ∧ (lioS 0 {}).lio.settled = false ∧ (lioS 0 {}).lio.loadAt = some 2499750 ∧ 2499750 + 250 ≤ (lioS 0 {}).now
    ∧ (lioS 0 {}).now < 2499751 + 250 := by
  refine ⟨wf_all (by decide), by decide⟩

/-- The voted word `w` at offset `off` of the triple store. -/
def tsAt (off w : Nat) : Nat × TsWord := (off, { c1 := word w, c2 := word w, c3 := word w })

/-- Drive 0's parameters: local torque path on L1, contactor on L2 with its feedback on L3, guard on L4, reset on L5, SS1 permitted; the
common parameters with a pulse period of 1 s and width of 100 µs, supply T1 for L4 and dark tests of L1. -/
def drvTs (ss1 : Nat) : List (Nat × TsWord) :=
  [tsAt 0x200 (1000 + 100 * 2 ^ 10), tsAt 0x201 8, tsAt 0x204 1, tsAt 0x240 (2 ^ 35),
   tsAt 0x400 (2 ^ 35 + ss1 * 2 ^ 34 + 2 ^ 30 + 1 * 2 ^ 25 + 2 * 2 ^ 20 + 3 * 2 ^ 15 + 4 * 2 ^ 10 + 5 * 2 ^ 5),
   tsAt 0x403 5, tsAt 0x404 10, tsAt 0x405 1, tsAt 0x406 20, tsAt 0x407 10, tsAt 0x409 6]

/-- Drive 0 in state `st`, with the mandate held. -/
def safS (st ss1 : Nat) : State :=
  { now := 10000000, mst := .active, day := dayAt 100000, ts := drvTs ss1, nwt := { permit := true },
    link := { inserted := true, latch := true, part := .released }, regs := [(safState 0, word st)] }

/-- Channels the monitor owns and not, a reload instant, outputs driven and off, supplies in each state. -/
theorem witness_OutputsAndSupplies :
    (∀ s ∈ [safS 1 1, lioS (3 * 2 ^ 34 + 1000 * 2 ^ 10 + 2 ^ 21) { driven := 500 }], s.wf)
    ∧ owned (safS 1 1) 0 = true ∧ owned (safS 1 1) 5 = false
    ∧ (let s := lioS (3 * 2 ^ 34 + 1000 * 2 ^ 10 + 2 ^ 21) { driven := 500 }
       chanDir s 0 = 3 ∧ reloadNow s (getF s (lioCfg 1) 20 10) = true ∧ owned s 0 = false ∧ bitOf s (lioIn 1) 11 = false ∧ (chan s 0).ovlAt = none
         ∧ drivenNow s 0 ≠ 0 ∧ onNow s 0 = true ∧ (chan s 0).raw ≠ .on ∧ bitOf s (lioCfg 1) 21 = true ∧ readbackJudged s 0 = false
         ∧ readbackJudged { s with time := { ns64 := 16000000 } } 0 = true ∧ onNow { s with time := { ns64 := 16000000 } } 0 = true)
    ∧ (let s := lioS (2 * 2 ^ 34) { raw := .on }; chanDir s 0 ≠ 3 ∧ drivenNow s 0 = 0 ∧ onNow s 0 = false ∧ holds s = true ∧ isOutput s 0 = true ∧ owned s 0 = false ∧ (chan s 0).raw = .on ∧ readbackJudged s 0 = true)
    ∧ (let s : State := { regs := [(lioTsup, 0x110)] }; bitOf s lioTsup 8 = true ∧ bitOf s lioTsup 9 = false ∧ bitOf s lioTsup 4 = true ∧ bitOf s lioTsup 5 = false ∧ holds s = false)
    ∧ (let s : State := { now := 25000000, lio := { tovlAt := [(0, 1), (1, 2)] } }
       s.wf ∧ tabGet 0 s.lio.tovlAt 0 + 25000000 ≤ s.now + 1 ∧ s.now + 1 < tabGet 0 s.lio.tovlAt 1 + 25000000) := by
  refine ⟨wf_all (by decide), by decide +kernel, by decide +kernel, by decide +kernel, by decide +kernel, by decide, wf_of (by decide), by decide⟩

/-- A frozen monitor and one that is not; each command in each state of a drive, with SS1 permitted and not; a resumption on its day;
LOCKOUT with its cause gone and persisting; dark tests of both outputs; a mirror contact wrong for longer than TCF and just as long. -/
theorem witness_DriveCommandsAndLockout :
    (∀ s ∈ [safS 1 1, safS 1 0, safS 2 1, safS 3 1, safS 4 1, { safS 1 1 with saf := { frozen := true } }], s.wf)
    ∧ (safS 1 1).saf.frozen = false ∧ drvState (safS 1 1) 0 = 1 ∧ slice (drvPar (safS 1 1) 0 0) 34 34 = 1 ∧ slice (drvPar (safS 1 0) 0 0) 34 34 = 0
    ∧ drvState (safS 2 1) 0 = 2 ∧ 3 ≤ drvState (safS 3 1) 0 ∧ drvState (safS 1 1) 63 = 0 ∧ localTorque (safS 1 1) 0 = true
    ∧ (let s : State := { safS 1 1 with saf := { resumeDay := some 7 } }; s.saf.resumeDay = some s.day.n ∧ supervised s 0 = true ∧ kloc s 0 ≠ 0
       ∧ drvState s 0 ≠ 4 ∧ causeActive s 0 = false ∧ dayTick s < phaseStart s 3)
    ∧ (let s : State := { safS 1 1 with saf := { resumeDay := some 7, conns := [(0, { missing := 300 })] } }; causeActive s 0 = true)
    ∧ drvState (safS 4 1) 0 = 4 ∧ causePersists (safS 4 1) 0 = false
    ∧ (let s : State := { safS 12 1 with lio := { chans := [(0, { raw := .on })] } }; drvState s 0 = 4 ∧ causePersists s 0 = true)
    ∧ (let s : State := { safS 1 1 with regs := [(safState 0, 1), (lioCfg 1, word (2 * 2 ^ 34)), (lioCfg 2, word (2 * 2 ^ 34))], lio := { chans := [(0, { driven := 1000 })] } }
       owned s 0 = true ∧ isOutput s 0 = true ∧ torqueOf s 0 = some 0 ∧ readbackStood s 1 = true ∧ (chan s 1).driven = 0
         ∧ owned s 1 = true ∧ isOutput s 1 = true ∧ drivenNow s 1 = 0 ∧ torqueOf s 1 = none ∧ contactorOf s 1 = some 0
         ∧ darkCheckNow s = false)
    ∧ (∀ n ∈ [8011520000, 8011519744], let s : State := { safS 1 1 with ts := tsAt 0x200 (1000 + 100 * 2 ^ 10 + 200 * 2 ^ 20) :: (drvTs 1).drop 1, time := { ns64 := n } }
       darkNow s 0 = true ∧ (n = 8011520000 ↔ darkCheckNow s = true))
    ∧ (∀ n ∈ [2500000, 2500001], let s : State := { safS 1 1 with now := n }
       supervised s 0 = true ∧ holds s = true ∧ feedbackWrong s 0 = true ∧ bitOf s (safState 0) 4 = false
         ∧ (n = 2500001 ↔ max (if kloc s 0 = 0 then 0 else (chan s (kloc s 0 - 1)).drvAt) (chan s (kfb s 0 - 1)).onAt + tcfTicks s 0 < s.now))
    ∧ (let s : State := { safS 1 1 with lio := { chans := [(2, { steady := true })] } }; feedbackWrong s 0 = false) := by
  refine ⟨wf_all (by decide), ?_⟩
  decide +kernel

/-- Drive 0 in SS1 for `k` days with the source's speed of today `v` (none: invalid). -/
def ss1S (k v : Nat) (valid : Bool) : State :=
  { safS 2 1 with saf := { drives := [(0, { n0 := 7 - k, v0 := some 100 })], conns := [(0, { good := true })] },
                  regs := [(safState 0, 2), (safRx 0 2, word v), (safRx 0 3, if valid then 4 else 0)] }

/-- Every voted word of the parameters has three equal copies. -/
theorem witness_parameters_agree (off : Nat) : ∃ v, tsVoteOf (safS 1 1) off = .same v false := by
  have h : ∀ l : List (Nat × TsWord), (∀ x ∈ l, ∃ v, vote x.2 = .same v false) → ∃ v, vote (tabGet {} l off) = .same v false := by
    intro l
    induction l with
    | nil => intro _; exact ⟨0, rfl⟩
    | cons x t ih =>
      intro hx
      obtain ⟨k, w⟩ := x
      unfold tabGet
      split
      · exact hx (k, w) List.mem_cons_self
      · split
        · exact ⟨0, rfl⟩
        · exact ih fun y hy => hx y (List.mem_cons_of_mem _ hy)
  apply h
  intro x hx
  simp only [safS, drvTs, List.mem_cons, List.not_mem_nil, or_false] at hx
  rcases hx with h | h | h | h | h | h | h | h | h | h | h <;> subst h <;> exact ⟨_, rfl⟩

/-- Noon with a telegram that is good and one that fails each check, drives in every state, SS1 at each row of its end, and pulses of a
test supply at their start, check and end and a tick before; inputs that fail and pass. -/
theorem witness_NoonEvaluationAndInputTests : (∀ s ∈ [safS 1 1, ss1S 5 30 true, ss1S 5 30 false], s.wf)
    ∧ safRuns (safS 1 1) = true ∧ dayTick (safS 1 1) = phaseStart (safS 1 1) 2 ∧ safRuns State.reset = false
    ∧ (let s : State := { safS 1 1 with saf := { conns := [(0, { mask := 63 })] }, regs := [(safRx 0 0, word (0xA * 2 ^ 32)), (safRx 0 1, 7),
         (safRx 0 4, word (safCheck 0 [word (0xA * 2 ^ 32), 7, 0, 0])), (safRx 0 5, 0xFFFFFFFFF#36)] }
       s.wf ∧ connUsed s 0 0 = true ∧ (conn s 0).mask ≠ 0 ∧ kindOk s 0 = true ∧ checkOk s 0 = true ∧ seqOk s 0 = true)
    ∧ kindOk (safS 1 1) 0 = false ∧ spd2 (safS 2 1) 0 = false ∧ drvState (ss1S 5 30 true) 0 = 2
    ∧ (drive (ss1S 5 30 true) 0).n0 < (ss1S 5 30 true).day.n ∧ (drive (ss1S 5 30 true) 0).v0 = some 100
    ∧ speedOf (ss1S 5 30 false) (incC (ss1S 5 30 false) 0) = none
    ∧ (∀ v ∈ [10, 11, 200], ∃ t, exec .noonEvaluation (ss1S 5 v true) = .next t ∧ speedOf t 0 = some (word v))
    ∧ daysOf (safS 1 1) 20 ≤ 20 ∧ ¬(daysOf (safS 1 1) 20 ≤ 19) ∧ (magOf (word 10)).toInt ≤ (word 10).toInt ∧ (word 10).toInt < (magOf (word 11)).toInt
    ∧ (5 - 4 ≤ daysOf (safS 1 1) 1 ∧ daysOf (safS 1 1) 1 < 2)
    ∧ (rampLimit (ss1S 5 0 true) 0 5 100).toInt < (magOf (word 200)).toInt ∧ (magOf (word 11)).toInt ≤ (rampLimit (ss1S 5 0 true) 0 5 100).toInt
    ∧ (let s : State := { safS 1 1 with time := { ns64 := 0 } }
       pulseBegins s 0 = true ∧ tabGet 0 s.saf.pulse 0 = 0 ∧ pulseBegins s 1 = false ∧ supplyOf s 3 = 1 ∧ supplyOf s 4 ≠ 1)
    ∧ (safS 1 1).day.noonDone = false := by
  refine ⟨wf_all (by decide), by decide +kernel, by decide +kernel, by decide +kernel,
    ⟨wf_of (by decide +kernel), by decide +kernel, by decide +kernel, by decide +kernel, by decide +kernel, by decide +kernel⟩,
    by decide +kernel, by decide +kernel, by decide +kernel, by decide +kernel, by decide +kernel, by decide +kernel, ?_, ?_⟩
  · intro v hv
    simp only [List.mem_cons, List.not_mem_nil, or_false] at hv
    rcases hv with rfl | rfl | rfl <;> exact ⟨_, rfl, by decide +kernel⟩
  · decide +kernel

/-- Supply T1 after its pulse began, with L4 reading On still and, once off, what it read before. -/
theorem witness_test_pulses :
    (∀ n ∈ [112498, 112499, 124998, 124999], let s : State := { safS 1 1 with now := n, saf := { pulse := [(0, 100000)] } }
       tabGet 0 s.saf.pulse 0 ≠ 0 ∧ (n = 112499 ↔ tabGet 0 s.saf.pulse 0 + pulseWidth s = s.now + 1 + 12500)
         ∧ holds s = true ∧ tabGet 0 s.saf.checked 0 ≠ s.now + 1
         ∧ (124999 ≤ n ↔ tabGet 0 s.saf.pulse 0 + pulseWidth s ≤ s.now + 1))
    ∧ (let s : State := { safS 1 1 with regs := [(safState 0, 1), (lioCfg 4, word (2 ^ 34))], lio := { chans := [(3, { raw := .on })] } }
       s.wf ∧ chanDir s 3 = 1 ∧ supplyOf s 3 ≠ 0 ∧ pulseFails s 0 3 = true ∧ bitOf s safInst 3 = false ∧ ginCh s 0 = 3 + 1 ∧ drvState s 0 = 1)
    ∧ (let s : State := { safS 1 1 with regs := [(safState 0, 1), (lioCfg 4, word (2 ^ 34))] }
       pulseFails s 0 3 = false ∧ supplyOf s 3 = 0 + 1 ∧ (inTest s 3).bad = false ∧ chanDir s 0 ≠ 1) := by
  refine ⟨by decide +kernel, ⟨wf_of (by decide +kernel), by decide +kernel⟩, by decide +kernel⟩

/-- A standby, READY or not, at tick `t` with its permit, inserted, its slot as given, and the link as given. -/
def mandS (m : MState) (b ready : Bool) (t : Nat) (l : Link) : State :=
  { now := 10000000, mst := m, day := dayAt t, nwt := { permit := true, inReset := false }, link := { l with inserted := true },
    boot := { slotB := some b }, regs := [(pairCkSt, if ready then 0x100 else 1)], pwr := { mv1 := 48000 } }

/-- Loop changes that decide, that do not and that name an unknown loop; presence opened and closed; claims at T − 2,500 and a tick before;
the yield of slot B and its end; a claim confirmed and not; loops that read wrongly; the repeat of 0x701. -/
theorem witness_ClaimsAndDecisions :
    (∀ s ∈ [mandS .standby true true 5 { partner := true }, mandS .active false true 5 { swReleased := true }], s.wf)
    ∧ (loopBand 60 = .released ∧ loopBand 100 = .released ∧ loopBand 140 = .claimed ∧ loopBand 180 = .claimed ∧ loopBand 101 = .unknown ∧ loopBand 59 = .unknown)
    ∧ (let s := mandS .standby true true 5 {}; s.link.part ≠ .released ∧ s.link.decided = none ∧ partnerSwitches s = false ∧ pairReady s = true)
    ∧ pairReady (mandS .standby true false 5 {}) = false
    ∧ (let s := mandS .standby true true 5 { part := .released, partner := true }; s.link.part ≠ .unknown ∧ s.link.partner = true)
    ∧ (let s := mandS .active true true 5 { swReleased := true }; s.link.part ≠ .claimed ∧ s.link.swReleased = true)
    ∧ (let s := mandS .standby true true 247500 { decided := some 5 }; claims s = true ∧ dayTick s + 2500 = dayT s)
    ∧ dayTick (mandS .standby true true 247499 {}) + 2500 ≠ dayT (mandS .standby true true 247499 {}) ∧ claims (mandS .bench true true 247500 {}) = false
    ∧ (let s := mandS .standby true true 247750 { latch := true, claimDay := some 8, part := .claimed }; s.link.yielded = none ∧ slotB s = true ∧ simultaneous s = true)
    ∧ slotB (mandS .standby false true 0 {}) = false ∧ simultaneous (mandS .standby true true 247749 { latch := true, claimDay := some 8, part := .claimed }) = false
    ∧ mayClaim (mandS .standby true true 5 {}) = true ∧ mayClaim { mandS .standby true true 5 {} with nwt := {} } = false
    ∧ (9998750 + 1250 ≤ (mandS .standby true true 5 {}).now ∧ (mandS .standby true true 5 {}).now < 9998751 + 1250)
    ∧ partnerClear { part := .released } = true ∧ partnerClear { part := .claimed } = false
    ∧ (let s := mandS .standby true true 249999 { latch := true, claimDay := some 8, part := .released }
       dayTick s + 1 = dayT s ∧ s.link.claimDay = some (s.day.n + 1) ∧ s.link.confirmed = false ∧ s.link.latch = true ∧ partnerClear s.link = true ∧ mayClaim s = true)
    ∧ (60 ≤ ({ ownI := 60 } : Link).ownI.toNat ∧ ({ ownI := 59 } : Link).ownI.toNat < 60)
    ∧ (mandS .standby true true 5 { own := .claimed }).link.own ≠ (drivenLoop (mandS .standby true true 5 { own := .claimed })).reads
    ∧ (mandS .standby true true 5 { own := .released }).link.own = (drivenLoop (mandS .standby true true 5 { own := .released })).reads
    ∧ (let s : State := { mandS .standby true true 5 { partner := true, unknownAt := 1 } with now := 250000000 }
       s.link.part = .unknown ∧ partnerGone s = false ∧ s.link.unknownAt + 250000000 ≤ s.now + 1)
    ∧ (let s : State := { mandS .standby true true 5 { unknownAt := 2 } with now := 250000000 }; s.now + 1 < s.link.unknownAt + 250000000) := by
  refine ⟨wf_all (by decide), by decide⟩

/-- A partner whose notices name today as the day of its switchover. -/
def heardW (state : BitVec 3) : Notice := ⟨7, state, false, true, 0, 0, 0, 7, 0⟩

/-- Each point of a switchover day, notices in reset and out of it, a lane 10 µs without a frame and a tick less, and a JOIN that matches. -/
theorem witness_SwitchoverAndNotices :
    (let s := mandS .standby true true 246750 { heard := some (heardW 3) }; s.wf ∧ partnerSwitches s = true ∧ dayTick s + 3250 = dayT s)
    ∧ partnerSwitches (mandS .standby true true 246750 {}) = false
    ∧ (let s := mandS .active true true 247000 { swRunning := true }; s.wf ∧ s.link.swRunning = true ∧ s.link.swReleased = false ∧ dayTick s + 3000 = dayT s)
    ∧ (let s := mandS .active true true 248500 { swReleased := true }; s.link.swReclaimed = false ∧ s.link.swSeen = false ∧ mayClaim s = true ∧ dayTick s + 1500 = dayT s)
    ∧ (mandS .active true true 0 {}).nwt.inReset = false ∧ ({} : Watch).inReset = true
    ∧ (let s : State := { mandS .daybreak true true 0 {} with boot := { step := 8 }, link := { claimLost := true } }
       stepSeven s = true ∧ s.link.claimLost = true ∧ s.link.claimDay = none ∧ s.link.latch = false ∧ s.link.joinSent = false ∧ (heardW 3).state = 3)
    ∧ stepSeven (mandS .active true true 0 {}) = false
    ∧ (let s := mandS .active true true 0 { heard := some (heardW 2) }; s.link.heard = some (heardW 2) ∧ (heardW 2).state = 2 ∧ (heardW 3).state ≠ 2)
    ∧ (let s := mandS .standby true true 0 { laneAt := [(0, 9997501), (1, 9997502)] }
       s.wf ∧ laneUp s 0 = true ∧ tabGet 0 s.link.laneAt 0 + 2500 ≤ s.now + 1 ∧ s.now + 1 < tabGet 0 s.link.laneAt 1 + 2500)
    ∧ (let s := mandS .standby true true 0 { laneAt := [(0, 9997501)] }
       laneUp s 1 = false ∧ s.link.part = .unknown ∧ s.link.partner = false ∧ s.link.decided = none ∧ partnerSwitches s = false)
    ∧ (let s : State := { mst := .active, regs := [(updPairVer, 1)] }
       List.replicate 4 0 ++ List.replicate 4 0 ++ [word (1#8).toNat] = joinWords s ∧ List.replicate 4 0 ++ List.replicate 4 0 ++ [word (2#8).toNat] ≠ joinWords s)
    ∧ (∀ p ∈ [(1, List.replicate 8 2), (9, List.replicate 8 2), (7, List.replicate 9 1)], let f := packFrame p.1 0 p.2
       frameGood f = true ∧ frameType f = p.1) ∧ (noticeOf (List.replicate 8 2)).state = 2 ∧ (joinOf (List.replicate 9 1)).version = 1 := by
  and_intros <;> first | exact wf_of (by decide) | decide +kernel

/-- The Nightwatch out of reset, watching a day that has been missed by half, with both feeds below 2.7 V. -/
def nwtS (x : Option LogEnt) (reset : Bool) : State :=
  { now := 600000000, mst := .active, day := dayAt 0, nwt := { permit := true, inReset := reset, trip := x, dayFrom := some (600000000 - 375000), relAt := 100000000 } }

/-- A trip being acted on since tick `t`. -/
def tripEnt (t : Nat) : LogEnt := { code := 0xD03, mst := 3, slotB := false, rep := 0, sec := 0, ns64 := 0, day := 7, detail := 0, tick := t }

/-- Each condition of a trip at its limit, trips acted on, reset due and its release, and the first start at its three commands. -/
theorem witness_NightwatchTripsAndResets :
    (∀ s ∈ [nwtS none false, nwtS (some (tripEnt 5)) true], s.wf)
    ∧ (let s := nwtS none false
       s.nwt.trip = none ∧ s.nwt.inReset = false ∧ s.nwt.own = true ∧ s.nwt.dayFrom = some (600000000 - 375000)
         ∧ 3 * dayT s ≤ 2 * (s.now - (600000000 - 375000)) ∧ s.nwt.relAt + 500000000 ≤ s.now ∧ s.nwt.strobe + 12500000 ≤ s.now
         ∧ feedOk s 0 = false ∧ feedOk s 1 = false)
    ∧ ({ relAt := 100000001 } : Watch).relAt + 500000000 > 600000000 ∧ ({ own := false } : Watch).own = false
    ∧ (let s := nwtS (some (tripEnt 400000000)) false
       s.nwt.trip = some (tripEnt 400000000) ∧ s.nwt.sundown = 0 ∧ s.nwt.inReset = false ∧ (tripEnt 400000000).tick + 200000000 ≤ s.now
         ∧ s.now < (tripEnt 400000001).tick + 200000000 ∧ s.boot.session = none ∧ keptReg midLogSeq = true ∧ keptReg fabStatus = false ∧ getF s pwrStore 9 0 < 500)
    ∧ 500 ≤ getF { regs := [(pwrStore, 500)] } pwrStore 9 0
    ∧ (let s := nwtS (some (tripEnt 397500000)) true
       s.nwt.inReset = true ∧ (tripEnt 397500000).tick + 202500000 ≤ s.now ∧ s.nwt.feedTrip = false ∧ s.now < (tripEnt 397500001).tick + 202500000 ∧ s.pwr.warm = true
         ∧ tripOver s = true ∧ presentLong s = false)
    ∧ (let s : State := { now := 2500000, link := { inserted := true, spresAt := some 0 }, pwr := { threshold := true, mv1 := 3000 } }
       s.wf ∧ s.nwt.inReset = true ∧ s.nwt.trip = none ∧ 0 + 2500000 ≤ s.now ∧ s.pwr.warm = true ∧ presentLong s = true)
    ∧ (∀ n ∈ [24999999, 25000000], let s : State := { now := n, pwr := { mv1 := 3000, okAt1 := some 0 } }
       (n = 25000000 ↔ atThreshold s 0 = true) ∧ atThreshold s 1 = false ∧ feedOk s 0 = true)
    ∧ (∀ n ∈ [14999999999, 15000000000], let s : State := { now := n, link := { inserted := true, spresAt := some 0 }, pwr := { threshold := true, warm := false, warmAt := some 0 } }
       wfB s = true ∧ s.nwt.inReset = true ∧ s.nwt.trip = none ∧ s.pwr.warm = false ∧ (n = 15000000000 ↔ 0 + 15000000000 ≤ s.now))
    ∧ atThreshold State.reset 0 = false ∧ State.reset.link.inserted = false := by
  refine ⟨wf_all (by decide), by decide, by decide, by decide, by decide, by decide, by decide, ⟨wf_of (by decide), by decide⟩, by decide, by decide, by decide, by decide⟩

/-- A module about to start: straps and identity read, every step within its time and every self-test passing. -/
def viewS (a b : Bool) (ticks : List Nat) : DayView :=
  { strapA := a, strapB := b, carid := some [1, 2, 3, 4], flashOk := true, stepTicks := ticks, comparatorFail := [], detectorFail := [], forcingOk := true }

/-- Firmware `fw` in bank A, and a configuration whose payload is `ws`. -/
def startS (ws : List Word) : State :=
  { nwt := { inReset := false }, vault := vaultS, regs := [(updFloor, 0)],
    boot := { slots := [(0, { st := .valid, hdr := some { hdr 1 9 with digest := digestOf [0, 0] }, words := [0, 0] }),
                        (1, { st := .valid, hdr := some { hdr 2 9 with digest := digestOf ws, ident := [5, 6, 7, 8] }, words := ws })] } }

/-- An attempt in each of its cases up to the configuration; the wait of a failed one; clones that have come whole. -/
theorem witness_DaybreakAttempts : (∀ ws, (startS ws).wf) ∧ startReady (startS []) = true ∧ startReady State.reset = false
    ∧ (viewS true true []).fwHeadOk = true ∧ (viewS true true []).fwReadOk = true ∧ (viewS true true []).cfgHeadOk = true
    ∧ ({ viewS true true [] with fwHeadOk := false } : DayView).fwHeadOk = false ∧ ({ viewS true true [] with fwReadOk := false } : DayView).fwReadOk = false
    ∧ (250000000 < (viewS false true [250000001]).stepTicks.getD 0 0) ∧ (viewS true true []).strapA = (viewS true true []).strapB
    ∧ (viewS false true [250000000]).stepTicks.getD 0 0 ≤ 250000000
    ∧ startBank (startS []) = 0 ∧ (slotOf (startS []) 0 0).st = .valid ∧ (slotOf State.reset 0 0).st ≠ .valid
    ∧ headerCheck (startS []) 1 { hdr 1 9 with digest := digestOf [0, 0] } = none ∧ headerCheck (startS []) 1 (hdr 2 9) = some 0xA01
    ∧ digestOf (slotOf (startS []) 0 0).words = digestOf [0, 0] ∧ digestOf [0, 0] ≠ (hdr 1 9).digest
    ∧ (slotOf { startS [] with boot := { slots := [] } } 0 1).st ≠ .valid ∧ 2000000000 < (viewS false true [0, 0, 2000000001]).stepTicks.getD 2 0
    ∧ (let s : State := { time := { set := true }, boot := { step := 6 } }; startReady s = false ∧ s.mst = .daybreak ∧ getF s pwrStore 29 28 = 0)
    ∧ getF { regs := [(pwrStore, 0x10000000#36)] } pwrStore 29 28 ≠ 0
    ∧ stepOver 1 (startS []) = true ∧ stepOver 0 (startS []) = false
    ∧ (let s : State := { now := 5, boot := { waitEnd := some 5 } }; s.boot.waitEnd = some 5 ∧ (5 ≤ s.now) ∧ s.now < 6)
    ∧ (let s : State := { boot := { step := 3 }, link := { cloneRx := [(1, hdr 2 9, [(0, [0]), (1, [0]), (2, [0]), (3, [0]), (4, [1, 2])])] } }
       wantsClone s = true ∧ wholeClone s 1 = some (hdr 2 9, [1, 2]) ∧ (cloneOf s 0).isSome = (wholeClone s 0).isSome ∧ (hdr 2 9).compat ≤ cloneVersion s
         ∧ cloneVersion s < ({ hdr 2 9 with compat := 2 ^ 36 } : Header).compat)
    ∧ wholeClone State.reset 1 = none := by
  refine ⟨fun ws => wf_of rfl, ?_⟩
  and_intros <;> decide +kernel

/-- The attempt of `startS` past step 2, with the identity read. -/
def readS (ws : List Word) : State := readCarrier (viewS false true []) (startAttempt (startS ws))

/-- The same with the firmware entered. -/
def enteredS (ws : List Word) : State := enterFirmware (readS ws)

theorem readS_slots (ws : List Word) : (readS ws).boot.slots = (startS ws).boot.slots := rfl
theorem setReg_regs_congr {s t : State} (a : Nat) (v : Word) (h : s.regs = t.regs) : (setReg s a v).regs = (setReg t a v).regs := by
  simp only [setReg, h]
theorem setBit_regs_congr {s t : State} (a b : Nat) (v : Bool) (h : s.regs = t.regs) : (setBit s a b v).regs = (setBit t a b v).regs := by
  simp only [setBit, setF, setReg, reg, h]
theorem startS_bank (ws : List Word) : startBank (startS ws) = startBank (startS []) := by
  simp only [startBank, getF, reg, show (startS ws).regs = (startS []).regs from rfl]; rfl
theorem startS_reports (ws : List Word) : startReports (startS ws) = startS ws := rfl
theorem attemptS_regs (ws : List Word) : (startAttempt (startS ws)).regs = (startAttempt (startS [])).regs := by
  rw [startAttempt, startAttempt, startS_reports, startS_reports, startS_bank]
  exact setBit_regs_congr _ _ _ (setBit_regs_congr _ _ _ rfl)
theorem readS_regs (ws : List Word) : (readS ws).regs = (readS []).regs :=
  setReg_regs_congr (pwrCarId + 3) 4 (setReg_regs_congr (pwrCarId + 2) 3 (setReg_regs_congr (pwrCarId + 1) 2 (setReg_regs_congr pwrCarId 1
    (setReg_regs_congr pwrCarrier (word 6) (attemptS_regs ws)))))
theorem readS_bank (ws : List Word) : runBank (readS ws) = 0 := by
  rw [runBank, getF, reg, readS_regs]; decide

theorem readS_slot (ws : List Word) : slotOf (readS ws) (runBank (readS ws)) 0
    = { st := .valid, hdr := some { hdr 1 9 with digest := digestOf [0, 0] }, words := [0, 0] } := by
  rw [slotOf, readS_bank, readS_slots]; rfl

theorem enteredS_eq (ws : List Word) : enteredS ws = modBoot (fun b => { b with step := 3 })
    (forUpto 4 (fun i s => modSup (1024 + i) (fun u => { u with pc := 0x1000 }) s)
      (privSet 0x1001 0 (privSet 0x1000 0 (setReg (setReg (readS ws) updFwVer (word 1)) updPairVer (word 0))))) := by
  unfold enteredS enterFirmware
  simp only [readS_slot]
  rfl

theorem enteredS_slots (ws : List Word) : (enteredS ws).boot.slots = (startS ws).boot.slots := by rw [enteredS_eq]; rfl
theorem enteredS_vault (ws : List Word) : (enteredS ws).vault = [(2, ⟨1, 1, [], 9, []⟩)] := by rw [enteredS_eq]; rfl

theorem enter_regs (x : State) : (modBoot (fun b => { b with step := 3 }) (forUpto 4 (fun i s => modSup (1024 + i) (fun u => { u with pc := 0x1000 }) s)
    (privSet 0x1001 0 (privSet 0x1000 0 x)))).regs = x.regs := by
  have m : ∀ e f (s : State), (modSup e f s).regs = s.regs := fun _ _ _ => rfl
  have b : ∀ f (s : State), (modBoot f s).regs = s.regs := fun _ _ => rfl
  have p : ∀ k v (s : State), (privSet k v s).regs = s.regs := fun _ _ _ => rfl
  have l : ∀ (n : Nat) (s : State), (forUpto n (fun i s => modSup (1024 + i) (fun u => { u with pc := 0x1000 }) s) s).regs = s.regs := by
    intro n s
    unfold forUpto
    generalize List.range n = is
    induction is generalizing s with
    | nil => rfl
    | cons i is ih => rw [List.foldl_cons, ih, m]
  rw [b, l, p, p]

theorem enteredS_regs (ws : List Word) : (enteredS ws).regs = (setReg (setReg (readS []) updFwVer (word 1)) updPairVer (word 0)).regs := by
  rw [enteredS_eq, enter_regs]
  exact setReg_regs_congr _ _ (setReg_regs_congr _ _ (readS_regs ws))

theorem enteredS_bank (ws : List Word) : runBank (enteredS ws) = 0 := by
  rw [runBank, getF, reg, enteredS_regs]; decide

/-- The configuration's slot of the started bank. -/
def cfgSlot (ws : List Word) : Slot :=
  { st := .valid, hdr := some { hdr 2 9 with digest := digestOf ws, ident := [5, 6, 7, 8] }, words := ws }

theorem enteredS_slot (ws : List Word) : slotOf (enteredS ws) (runBank (enteredS ws)) 1 = cfgSlot ws := by
  rw [slotOf, enteredS_bank, enteredS_slots]; rfl

theorem enteredS_header (ws : List Word) : configHeader (enteredS ws) = none := by
  have hf : reg (enteredS ws) updFloor = 0 := by rw [reg, enteredS_regs]; decide
  have hh : headerForm 2 { hdr 2 9 with digest := digestOf ws, ident := [5, 6, 7, 8] } = headerForm 2 (hdr 2 9) := rfl
  have hc : headerCheck (enteredS ws) 2 { hdr 2 9 with digest := digestOf ws, ident := [5, 6, 7, 8] } = none := by
    simp only [headerCheck, keyKnown, floorFor, getF, hf, enteredS_vault, hh]
    decide
  simp only [configHeader, validHeader, enteredS_slot, cfgSlot, if_true, hc]
  simp [hdr]

/-- A start succeeds on every configuration image that passes the checks of its content. -/
theorem witness_DaybreakAttempts_start (ws : List Word) (h : imageCheck ws (loadImage ws (enteredS ws)) = none) :
    configFail (viewS false true []) (enterFirmware (readCarrier (viewS false true []) (startAttempt (startS ws)))) = none := by
  have hp : configPayload (enteredS ws) = none := by
    simp only [configPayload, enteredS_slot, cfgSlot, Option.map_some, if_true, h, Option.map_none]
  have h3 : stepSlow (viewS false true []) 3 = none := by decide
  have h4 : stepSlow (viewS false true []) 4 = none := by decide
  show configFail (viewS false true []) (enteredS ws) = none
  simp only [configFail, enteredS_header, hp, h3, h4]
  rfl

/-- The faceplate with line 4 changed, a tick past a whole second; its pass in progress and the passes abandoned as given. -/
def panelS (ns : Nat) (pass : Option (List (Nat × Word))) (n : Nat) : State :=
  { time := { ns64 := ns }, regs := [(fpdLine 4 0, 41)], fpd := { pass := pass, abandoned := n } }

theorem panelS_differs (ns : Nat) (p : Option (List (Nat × Word))) (n : Nat) : differing (panelS ns p n) ≠ [] := by
  apply List.ne_nil_of_mem (a := (32, shownWord (41 : Word)))
  simp only [differing, List.mem_flatMap]
  refine ⟨4, by decide, ?_⟩
  rw [if_neg (show ¬ ((List.range 8).all (fun j => shownWord (fpdWord (panelS ns p n) 4 j) == panelWord (panelS ns p n) 4 j)
      && !(panelS ns p n).fpd.redo.contains 4) = true from by
    rw [Bool.and_eq_true, List.all_eq_true]; intro h
    exact absurd (h.1 0 (by decide)) (by show ¬ (shownWord (41 : Word) == blankWord) = true; decide))]
  exact List.mem_map.2 ⟨0, by decide, rfl⟩

/-- Feed `k` at 2.7 V, or off, with the store as given. -/
def feedS (mv1 mv2 : Int) (off : Bool) : State := { pwr := { mv1 := mv1, mv2 := mv2, off1 := off } }

/-- A pass that starts, runs and is abandoned for the first time and the third; feeds at each limit; the store's and interface's limits. -/
theorem witness_FaceplateFeedsAndStore :
    (∀ s ∈ [panelS 0 none 0, panelS 10000000 none 0, panelS 0 (some [(32, 5), (33, 6)]) 1, panelS 0 (some [(32, 5)]) 2, feedS 2700 2600 false, feedS 2699 2700 true], s.wf)
    ∧ (let s := panelS 0 none 0; s.time.ns64 < lastAdvance s ∧ s.fpd.pass = none ∧ bitOf s fpdStatus 3 = false ∧ differing s ≠ [])
    ∧ lastAdvance (panelS 10000000 none 0) ≤ (panelS 10000000 none 0).time.ns64
    ∧ ((panelS 0 (some [(32, 5), (33, 6)]) 1).fpd.abandoned < 2 ∧ 2 ≤ (panelS 0 (some [(32, 5)]) 2).fpd.abandoned
      ∧ (([(32, 5), (33, 6)] : List (Nat × Word)).map (·.1)).Nodup)
    ∧ (feedMv (feedS 2700 2600 false) 0 = 2700 ∧ feedMv (feedS 2700 2600 false) 1 < 2700 ∧ feedOk (feedS 2699 2700 true) 1 = true
      ∧ feedOk (feedS 2700 2600 false) 0 = true ∧ feedOff (feedS 2699 2700 true) 0 = true ∧ feedOff (feedS 2700 2600 false) 0 = false)
    ∧ ((0 : Nat) < 500 ∧ getF { regs := [(pwrStore, 0x10000000#36)] } pwrStore 29 28 ≠ 0 ∧ getF State.reset pwrStore 29 28 ≠ 2
      ∧ presentLong State.reset = false ∧ presentLong { now := 2500000, link := { inserted := true, spresAt := some 0 } } = true
      ∧ (panelS 0 (some [(32, 5)]) 2).fpd.passEnd ≤ 0 ∧ (0 : Nat) < ({ pass := some [], passEnd := 1 } : Fpd).passEnd
      ∧ 85 < (86 : BitVec 9).toInt ∧ (85 : BitVec 9).toInt ≤ 85 ∧ (479 : BitVec 12).toNat < 480 ∧ 480 ≤ (480 : BitVec 12).toNat)
    ∧ (-41 : BitVec 9).toInt < lowestStart ∧ lowestStart ≤ (0 : BitVec 9).toInt := by
  refine ⟨wf_all (by decide), ⟨by decide, rfl, by decide, panelS_differs 0 none 0⟩, by decide, by decide, by decide, by decide, ?_, ?_⟩ <;>
    (unfold lowestStart; split <;> decide)

/-- Shared words 0 to 0xFFFF open to every master in the normal world. -/
def openR : List (Nat × Word) := [(gateR 0 0, 0#36), (gateR 0 1, 0xFFFF#36), (gateR 0 2, 0xB400007FF#36)]

/-- One feed of one sample, posted at address 0, its entry at 16: identifier `ident`, index `idx`. Channel 0 has the state `st`, the input
rate `rin`, M1 = `m1` and its output ring at 512. -/
def chainS (ident idx st rin m1 : Nat) : State :=
  { now := 5, sig := { posts := [3] }
    regs := [(sigFeedBase, 0#36), (sigFeedCfg, 4#36), (sigFeedPtr, 1#36), (sigCh 0 0, BitVec.ofNat 36 (st * 2 ^ 34)), (sigCh 0 1, BitVec.ofNat 36 rin),
      (sigCh 0 2, BitVec.ofNat 36 ((m1 - 1) * 2 ^ 6)), (sigCh 0 7, 1#36), (sigCh 0 10, 512#36)] ++ openR
    mem := [(1, 16#36), (16, BitVec.ofNat 36 (ident + 2 ^ 16)), (20, 0x10001#36), (21, BitVec.ofNat 36 idx), (22, 0x123456789#36)].filter (·.2 ≠ 0) }

/-- The feed that `chainS` posts. -/
def chainF (ident idx : Nat) : Feed := ⟨0, ident, 1, false, 0, 1, 1, 0, idx⟩

/-- Stopped channel 0 beside seven that run with 128 + 128 taps at 14,400 samples a second. -/
def fullS : State :=
  { regs := ([0, 1, 2, 3, 4, 5, 6, 7].flatMap fun c => [(sigCh c 0, if c = 0 then 0#36 else 0x800000000#36), (sigCh c 1, 14400#36),
      (sigCh c 2, 0xFFFC000#36), (sigCh c 7, 1#36)]) }

/-- A posted feed that is refused, one whose channels have stopped, one sample that forms an output and one that does not; channels that
start, fail and stop; each arming that fails and a tick before. -/
theorem witness_SignalChains :
    (∀ s ∈ [chainS 0 0 2 1 1, chainS 0x8000 0 2 1 1, chainS 0x8000 0 0 1 1, chainS 0x8000 1 2 2 2, fullS], s.wf)
    ∧ (∀ s ∈ [chainS 0 0 2 1 1, chainS 0x8000 0 2 1 1, chainS 0x8000 0 0 1 1, chainS 0x8000 1 2 2 2],
       feedReady s = true ∧ freeFor masterSig (headPipe s) s (processFeed (untouched s)) = true ∧ isShared 0 = true
         ∧ 0 = getF s sigFeedBase 31 0 + 2 * feedGet s ∧ gate s masterSig false .write (word 0) = none
         ∧ onlyTouches s (fetchFeed (untouched s)).2 ∧ onlyTouches s (mReads masterSig 22 2 (fetchFeed (untouched s)).2).2
         ∧ (mReads masterSig 22 2 (fetchFeed (untouched s)).2).1 = some [0x123456789#36, 0#36])
    ∧ ((fetchFeed (untouched (chainS 0 0 2 1 1))).1 = some (16, chainF 0 0) ∧ feedReason (chainS 0 0 2 1 1) (chainF 0 0) = some 1)
    ∧ (let s := { chainS 0 0 2 1 1 with served := [(0, 6)] }
       feedReady s = true ∧ freeFor masterSig (headPipe s) s (processFeed (untouched s)) = false)
    ∧ feedReady { chainS 0 0 2 1 1 with sig := { posts := [5] } } = false
    ∧ (let s := chainS 0x8000 0 0 1 1
       (fetchFeed (untouched s)).1 = some (16, chainF 0x8000 0) ∧ feedReason s (chainF 0x8000 0) = none ∧ chActive s 0 = false)
    ∧ (let s := chainS 0x8000 0 2 1 1
       (fetchFeed (untouched s)).1 = some (16, chainF 0x8000 0) ∧ feedReason s (chainF 0x8000 0) = none
         ∧ chActive s 0 = true ∧ (sigChan s 0).sync = none ∧ (sigChan s 0).e = none
         ∧ (0, 0) = sampleAdd (chRin s 0) (fullSecond s.time.sec 0) 0 0 ∧ 0 % chM1 s 0 = 0 ∧ 0 % (chM1 s 0 * chM2 s 0) = 0
         ∧ 512 = getF s (sigCh 0 10) 31 0 + 2 * (getF s (sigCh 0 11) 19 0 % 2 ^ (4 + getF s (sigCh 0 10) 35 32))
         ∧ isShared 512 = true ∧ isShared 513 = true ∧ gate s masterSig false .write (word 512) = none
         ∧ gate s masterSig false .write (word 513) = none ∧ chWindow s 0 ≤ 0 + 1)
    ∧ (let s := chainS 0x8000 1 2 2 2
       (fetchFeed (untouched s)).1 = some (16, chainF 0x8000 1) ∧ feedReason s (chainF 0x8000 1) = none ∧ chActive s 0 = true
         ∧ (0, 1) = sampleAdd (chRin s 0) (fullSecond s.time.sec 0) 1 0 ∧ 1 % chM1 s 0 ≠ 0)
    ∧ (feedsPosted State.reset = 0 ∧ contextOk State.reset 0 = false ∧ chActive State.reset 0 = false ∧ State.reset.mst ≠ .standby)
    ∧ (chActive fullS 0 = false ∧ contextOk fullS 0 = true ∧ loadOk fullS 0 = false)
    ∧ (let s := chainS 0 0 0 1 1; contextOk s 0 = true ∧ loadOk s 0 = true)
    ∧ (let s (d : Nat) : State := { day := dayAt 0, regs := [(sigSync, 2#36), (sigSyncDay, BitVec.ofNat 36 d)] }
       (s 8).day.run = true ∧ (s 8).day.n < syncDayFull (s 8) ∧ syncDayFull (s 7) ≤ (s 7).day.n ∧ syncArm (s 7) = 2)
    ∧ (let s (n : Nat) : State := { now := n, regs := [(sigSync, 1#36)] }
       syncArm (s 0) = 1 ∧ (s 1000000000).sig.armAt + 1000000000 ≤ (s 1000000000).now ∧ bitOf (s 0) timState 6 = false
         ∧ (s 999999999).now < (s 999999999).sig.armAt + 1000000000 ∧ syncArm State.reset = 0) := by
  unfold onlyTouches
  refine ⟨wf_all (by decide), ?_⟩
  and_intros <;> decide +kernel

/-- A header of TYPE `ty` for the payload of one block of two words. -/
def updH (ty : Nat) : Header := { hdr ty 9 with digest := digestOf [3, 4] }

/-- A change's header, made for the running configuration. -/
def chgH : Header := { updH 3 with base := [0, 0, 0, 0] }

/-- A module with both slots of both banks valid, the store charged, and the update session `u`. -/
def updS (m : MState) (u : Option Session) (store : Nat) : State :=
  { mst := m, vault := vaultS, sess := [(0, allRoles)], day := dayAt 5, regs := [(updFloor, 0#36), (pwrStore, BitVec.ofNat 36 store)]
    link := { partner := true, laneAt := [(0, 1)], heard := some ⟨7, 2, true, true, 0, 0, 0, 0, 0⟩ }
    boot := { session := u, slots := [(0, ⟨.valid, some (updH 1), [], [3, 4]⟩), (1, ⟨.valid, some (updH 2), [], [3, 4]⟩),
                                      (2, ⟨.valid, some (updH 1), [], [3, 4]⟩), (3, ⟨.valid, some (updH 2), [], [3, 4]⟩)] } }

/-- A session of class `cls` for the other bank's firmware with the blocks given. -/
def updU (cls : Nat) (h : Option Header) (bl : List (Nat × List Word)) : Session :=
  { cls := cls, bank := 1, slot := 0, hdr := h, ty := 1, floor := 1, sess := 0, blocks := bl }

/-- An OPEN of each class that passes and that is refused; a BLOCK that joins and one that does not; a CLOSE of each class, and one of each
refusal; copies and activations in each module state that permits one. -/
theorem witness_UpdateSessionsAndActivation :
    (∀ m ∈ [MState.active, .standby, .bench, .stopped, .daybreak], ∀ u ∈ [none, some (updU 1 (some (updH 1)) [(0, [3, 4])])], wfB (updS m u 950) = true)
    ∧ (updS .standby none 950).mst ≠ .daybreak ∧ (updS .standby none 950).boot.session = none ∧ 950 ≤ getF (updS .standby none 950) pwrStore 9 0
    ∧ runBank (updS .standby none 950) = 0
    ∧ headerCheck (updS .standby none 950) 1 (updH 1) = none ∧ headerCheck (updS .standby none 950) 2 (updH 2) = none
    ∧ headerCheck (updS .standby none 950) 1 (updH 2) = some 0xA01
    ∧ openRefusal (updS .standby none 950) 2 0 0 chgH 0 0 = none ∧ openRefusal (updS .standby none 950) 2 0 0 (updH 1) 0 0 = some (5, 0xA01)
    ∧ openRefusal (updS .daybreak none 950) 2 0 0 chgH 0 0 = some (1, 0xA20)
    ∧ openRefusal (updS .standby none 0) 3 0 0 chgH 1 1 = none ∧ openRefusal (updS .standby none 0) 3 0 0 chgH 1 256 = some (11, 0xA20)
    ∧ bitOf { updS .standby none 950 with regs := [(dayStatus, 128#36)] } dayStatus 7 = true ∧ bitOf (updS .standby none 950) dayStatus 7 = false
    ∧ (let u := updU 1 (some (updH 1)) []
       openSession (updS .standby (some u) 950) = some u ∧ blockRefusal u 0 [3, 4] = none ∧ blockRefusal u 1 [3, 4] = some 6
         ∧ blockRefusal (updU 1 (some (updH 1)) [(0, [3, 4])]) 0 [3, 5] = some 7 ∧ closeRefusal (updS .standby (some u) 950) u = some (8, 0xA20))
    ∧ openSession (updS .standby none 950) = none
    ∧ (let u := updU 1 (some (updH 1)) [(0, [3, 4])]; closeRefusal (updS .standby (some u) 950) u = none)
    ∧ (let u := updU 1 (some (updH 1)) [(0, [3, 5])]; closeRefusal (updS .standby (some u) 950) u = some (9, 0xA03))
    ∧ (let u := updU 2 (some chgH) [(0, [3, 4])]; closeRefusal (updS .standby (some u) 0) u = none)
    ∧ (let u := updU 3 none []; closeRefusal (updS .standby (some u) 0) u = none)
    ∧ copyRefusal (updS .standby none 950) 0 = none ∧ copyRefusal (updS .standby none 950) 1 = none
    ∧ copyRefusal (updS .standby none 949) 0 = some (2, 0xA20)
    ∧ (∀ m ∈ [MState.active, .standby, .bench, .stopped, .daybreak], activateRefusal (updS m none 950) 1 = none)
    ∧ activateRefusal (updS .standby (some (updU 1 none [])) 950) 1 = some (4, 0xA20)
    ∧ partnerReady (updS .active none 950) = true ∧ partnerReady { updS .active none 950 with link := {} } = false
    ∧ (updS .active none 950).stopReq = none ∧ (updS .active none 950).tk.wrote.contains updBoot = false
    ∧ headerCheck (updS .standby none 950) 1 (headerOf (rawHdr 1 9)) = none ∧ headerCheck (updS .standby none 950) 1 (headerOf (rawHdr 2 9)) = some 0xA01
    ∧ openRefusal (updS .standby none 950) 2 0 0 (headerOf (rawHdr 3 9)) 0 0 = none
    ∧ openRefusal (updS .daybreak none 950) 2 0 0 (headerOf (rawHdr 3 9)) 0 0 = some (1, 0xA20)
    ∧ (updS .standby none 950).boot.slots.length = 4 := by
  and_intros <;> decide +kernel

/-- The same for every command of an update: session 0 with every role is served. -/
theorem witness_updS_served (m : MState) (u : Option Session) (n : Nat) (tag : BitVec 20) (x : Bool) :
    mayServe (updS m u n) ⟨0, tag⟩ [.engineer] x ∧ mayServe (updS m u n) ⟨0, tag⟩ [.secadmin] x
      ∧ mayServe (updS m u n) ⟨0, tag⟩ [.engineer, .secadmin] x :=
  ⟨witness_mayServe _ .engineer (by simp) _ tag rfl rfl rfl rfl x, witness_mayServe _ .secadmin (by simp) _ tag rfl rfl rfl rfl x,
    witness_mayServe _ .engineer (by simp) _ tag rfl rfl rfl rfl x⟩

/-- The clock at tick `n`, TIM_STATE as given, and both domains in use; domain A is followed on LAN A and meets every condition. -/
def timS (n st : Nat) (t : Time) : State :=
  { now := n, regs := [(timState, BitVec.ofNat 36 st), (timDom 0 0, 0x800000000#36), (timDom 0 1, 0x100000000#36)]
    time := { t with domA := { t.domA with gm := some 5, annTick := some 0, cls := 6, traceable := true, ofs := some 0 }, mpdAt := [(0, n + 1)] } }

/-- The day sequencer running and stopped, sources 1 µs away and more, messages of a domain in use and one that is not, on its port and the
other, with eight offsets kept and fewer, and each wait at its end and a tick before. -/
theorem witness_ClockAndPtpMessages :
    (∀ s ∈ [timS 5 0x1012 {}, timS 5 0x1011 { domA := { offs := List.replicate 8 0 } }, timS 750000000 0 { domA := { annOther := some 1 } }], s.wf)
    ∧ (let s := timS 5 0x1012 {}
       s.day.run = false ∧ timeSrc s = 1 ∧ (64000 : Int) < (1 * 64000000000 + 0 : Nat) - (s.time.sec * 64000000000 + s.time.ns64 : Nat)
         ∧ portDomOn s 0 = true ∧ portDomOn s 1 = true ∧ portDomOn s 2 = false ∧ bitOf s (timDom 0 0) 35 = true ∧ bitOf s (timDom 1 0) 35 = false
         ∧ slaveLan s 0 = some 0 ∧ domUsable s 0 = true ∧ srcMay s 1 = true ∧ isLock (timeCode s) = true
         ∧ (domOf s.time 0).gm = some 5 ∧ (5 : BitVec 64) ≠ 6 ∧ getF s timUtc 17 16 = 0 ∧ domainHeard s 0 0 = true ∧ domainHeard s 0 1 = false
         ∧ tabGet 0 s.time.pdelayAt 0 = 0)
    ∧ (let s (n : Nat) := timS n 0x1012 { pdelayAt := [(0, 6)] }
       6 + 250000000 ≤ (s 250000005).now + 1 ∧ (s 250000004).now + 1 < 6 + 250000000)
    ∧ (timeCode (timS 5 0x1011 {}) = 1 ∧ timeSrc (timS 5 0x1011 {}) = 1 ∧ timeSrc (timS 5 0x3011 {}) ≠ 1)
    ∧ (outlier [] 5 = false ∧ outlier (List.replicate 8 0) 64000 = false ∧ outlier (List.replicate 8 0) 64001 = true)
    ∧ ((3200 : Int) - 0 - (slaveDelay (timS 5 0x1011 {}) 0 : Nat) - 0 = 3200 ∧ (12801 : Int) - 0 - (slaveDelay (timS 5 0x1012 {}) 0 : Nat) - 0 = 12801)
    ∧ ((domOf (timS 749999999 0 {}).time 0).annTick = some 0 ∧ (timS 749999999 0 {}).now < 0 + 750000000 ∧ (domOf (timS 5 0 {}).time 1).annTick = none
      ∧ 0 + 750000000 ≤ (timS 750000000 0 {}).now ∧ (timS 750000000 0 { domA := { annOther := some 1 } }).now < 1 + 750000000
      ∧ (domOf (timS 750000000 0 { domA := { annOther := some 1 } }).time 0).annOther = some 1
      ∧ (domOf (timS 750000000 0 { domA := { annOther := some 0 } }).time 0).annOther = some 0 ∧ 0 + 750000000 ≤ (timS 750000000 0 {}).now)
    ∧ ((domOf (timS 5 0 { domA := { holdUntil := 5 } }).time 0).holdUntil ≤ 5 ∧ 5 < (domOf (timS 5 0 { domA := { holdUntil := 6 } }).time 0).holdUntil) := by
  refine ⟨wf_all (by decide), ?_, ?_, ?_, ?_, ?_, ?_, ?_⟩ <;> decide +kernel

/-- The pulse widths of a frame whose pulses at the places given are ones. -/
def pulses (ones : List Nat) : List Nat :=
  (List.range 100).map fun i => if i = 0 ∨ i % 10 = 9 then 8000000 else if ones.contains i then 5000000 else 2000000

/-- R315: 2024-01-02, 03:04:05 UTC, the second 1704164645 since 1970; a width between the classes is a frame error. -/
theorem test_irig_frame : irigDecode (pulses [1, 3, 12, 20, 21, 31, 52, 56]) = some ⟨1704164645, false, false, 0, 0⟩
    ∧ irigDecode ((pulses []).set 5 3000000) = none ∧ irigDecode (pulses []) = none := by decide +kernel

/-- Edges 1 s apart and not, the seconds known and not, a synchronous reset armed for 1 s; frames that follow one another and do not; the ends
of the 60 s, of the return and of an output's second, and a tick before. -/
theorem witness_PulsesFramesAndLock :
    (let s := timS 250000005 0x1012 { sec := 2, ns64 := 64000, ppsAt := some (1, 0), secKnown := some 5 }
     s.wf ∧ s.time.ppsAt = some (1, 0) ∧ secondApart (s.time.sec, s.time.ns64) (1, 0) = true ∧ secondsKnown s = true
       ∧ jumps s 3 (nearestSecond s.time.ns64) = false ∧ syncArm s ≠ 1 ∧ clockDiff (s.time.sec, s.time.ns64) (1, 0) ≤ 64000000000 + 64000)
    ∧ (let s := timS 250000005 0x1012 { sec := 2, ns64 := 64001, ppsAt := some (1, 0) }
       secondApart (s.time.sec, s.time.ns64) (1, 0) = false ∧ secondsKnown s = false ∧ 64000000000 + 64000 < clockDiff (s.time.sec, s.time.ns64) (1, 0))
    ∧ (let s : State := { timS 250000005 0x1012 { sec := 2, ppsAt := some (1, 0), secKnown := some 5 } with
                          regs := [(timState, 0x1052#36), (sigSync, 1#36)], sig := { armAt := 5 } }
       s.wf ∧ syncArm s = 1 ∧ s.sig.armAt + 250000000 ≤ s.now ∧ secondApart (s.time.sec, s.time.ns64) (1, 0) = true ∧ secondsKnown s = true)
    ∧ (let s := timS 5 0x4011 { sec := 3, irigAt := some (2, 0), irigLast := some 1704164644, irigCnt := 2 }
       s.wf ∧ s.time.irigAt = some (2, 0) ∧ secondApart (s.time.sec, s.time.ns64) (2, 0) = true
         ∧ (irigDecode (pulses [1, 3, 12, 20, 21, 31, 52, 56])).isSome = true ∧ s.time.irigLast = some 1704164644
         ∧ (∀ x ∈ irigDecode (pulses [1, 3, 12, 20, 21, 31, 52, 56]), irigTai s (2, 0) x = 1704164645)
         ∧ (∀ x ∈ irigDecode (pulses [1, 2, 12, 20, 21, 31, 52, 56]), irigTai s (2, 0) x ≠ 1704164645) ∧ 3 ≤ s.time.irigCnt + 1)
    ∧ secondApart ((3 : Nat), (64001 : Nat)) (2, 0) = false
    ∧ (let s (n : Nat) := timS n 0x1011 { inBand := some 5 }
       (∀ x ∈ [s 15000000005], x.wf) ∧ (s 5).time.inBand = some 5 ∧ timeCode (s 5) = 1 ∧ timeSrc (s 5) = 1 ∧ 5 + 15000000000 ≤ (s 15000000005).now
         ∧ (s 15000000004).now < 5 + 15000000000 ∧ timeCode (timS 5 0x1012 {}) ≠ 1)
    ∧ (let s : State := { timS 750000000 0x2032 { revert := [(1, 0)] } with regs := [(timState, 0x2032#36), (timCfg, 0xC029C#36)] }
       s.wf ∧ (higherSrcs s (timeSrc s)).find? (revertDue s) = some 1 ∧ s.time.ns64 < lastAdvance s ∧ getF s timCfg 25 18 = 3 ∧ disagrees s = false)
    ∧ (let s : State := { timS 749999999 0x2032 { revert := [(1, 0)] } with regs := [(timState, 0x2032#36), (timCfg, 0xC029C#36)] }
       (higherSrcs s (timeSrc s)).find? (revertDue s) = none)
    ∧ (let s : State := { regs := [(timState, 7#36), (timPpsO, 0x400#36)] }
       s.wf ∧ bitOf s timPpsO 10 = true ∧ 2 ≤ timeCode s ∧ timeCode s ≤ 7 ∧ s.time.ns64 < lastAdvance s)
    ∧ bitOf { regs := [(timState, 8#36), (timPpsO, 0x400#36)] } timPpsO 9 = false ∧ 7 < timeCode { regs := [(timState, 8#36), (timPpsO, 0x400#36)] } := by
  refine ⟨⟨wf_of (by decide), ?_⟩, ?_, ⟨wf_of (by decide), ?_⟩, ⟨wf_of (by decide), ?_⟩, ?_, ⟨wf_all (by decide), ?_⟩, ⟨wf_of (by decide), ?_⟩,
    ?_, ⟨wf_of (by decide), ?_⟩, ?_⟩ <;> decide +kernel

/-- Holdover at 1,000 ns and a tick later, with the trend learned and not; 12 h in LOCK; a leap at its second and before; a far source reported
for the first time, after an hour and before; the wait of a start without a source. -/
theorem witness_HoldoverLeapAndFreeStart :
    (let s (n : Nat) := timS n 7 { holdAt := some 0 }
     (∀ x ∈ [s 180555555556], x.wf) ∧ (s 5).time.holdAt = some 0 ∧ timeCode (s 5) = 7 ∧ bitOf (s 5) timOsc 25 = false
       ∧ 250000000000000 < 6250000000000 + 1350 * ((s 180555555556).now - 0) ∧ 6250000000000 + 1350 * ((s 180555555555).now - 0) ≤ 250000000000000
       ∧ timeCode (timS 5 8 {}) ≠ 7)
    ∧ (let s := timS 10800000000005 2 { lockedAt := some 5 }; s.wf ∧ 10800000000000 ≤ s.time.lockTicks + (s.now - 5) ∧ s.time.lockTicks + (s.now - 6) < 10800000000000)
    ∧ (let s (t : Nat) : State := { time := { sec := t }, regs := [(timUtc, 0x50025#36), (timLeapL, 100#36)] }
       (∀ x ∈ [s 100], x.wf) ∧ getF (s 0) timUtc 17 16 = 1 ∧ (reg (s 0) timLeapL).toNat + getF (s 0) timLeapH 11 0 * 2 ^ 36 ≤ (s 100).time.sec
         ∧ (s 99).time.sec < (reg (s 0) timLeapL).toNat + getF (s 0) timLeapH 11 0 * 2 ^ 36)
    ∧ (let s (at' : Nat) : State := { now := 900000000000, regs := [(timState, 0x10#36)], day := dayAt 5,
                                      time := { domA := { ofs := some 64000001 }, far := if at' = 0 then [] else [(1, at')] } }
       (∀ x ∈ [s 0, s 1], x.wf) ∧ timeCode (s 0) = 0 ∧ srcUsable (s 0) 1 = true ∧ srcFar (s 0) 1 = true ∧ tabGet 0 (s 0).time.far 1 = 0
         ∧ tabGet 0 (s 1).time.far 1 + 900000000000 ≤ (s 1).now + 1 ∧ (s 2).now + 1 < tabGet 0 (s 2).time.far 1 + 900000000000 ∧ tabGet 0 (s 2).time.far 1 ≠ 0)
    ∧ srcFar State.reset 1 = false
    ∧ (let s (n : Nat) : State := { now := n, boot := { step := 6, stepAt := 5 }, regs := [(timCfg, 0x8000000#36)] }
       (∀ x ∈ [s 500000005], x.wf) ∧ (s 5).mst = .daybreak ∧ (s 5).time.set = false ∧ firstSrc (s 5) = none ∧ (∀ l ∈ (s 5).log, l.torn.isSome = true) ∧ getF (s 5) timCfg 35 26 = 2
         ∧ (s 5).boot.stepAt + 250000000 * getF (s 5) timCfg 35 26 ≤ (s 500000005).now ∧ (s 500000004).now < (s 5).boot.stepAt + 250000000 * getF (s 5) timCfg 35 26) := by
  refine ⟨⟨wf_all (by decide), ?_⟩, ⟨wf_of (by decide), ?_⟩, ⟨wf_all (by decide), ?_⟩, ⟨wf_all (by decide), ?_⟩, by decide, wf_all (by decide), ?_⟩ <;>
    decide +kernel

/-- Port 0 with ZP_CTL `c` at day tick `t`, under a held mandate; its port state `x`, the registers `r` and the memory `m`. -/
def portS (c t : Nat) (x : Port) (r : List (Nat × Word)) (m : List (Nat × Word)) : State :=
  { now := 250000 + t, mst := .active, day := dayAt t, nwt := { permit := true, inReset := false }
    link := { inserted := true, latch := true, part := .released }, regs := (zp 0 0, BitVec.ofNat 36 c) :: r ++ openR, ports := [(0, x)], mem := m }

/-- A Zilco port with two descriptors posted in earlier ticks in a ring of 4 at address 0, the head's words 0 and 2 as given. -/
def ringS (x : Port) (w0 w2 : Nat) : State :=
  portS 0x40 5 { x with posts := [250000, 250004] } [(zp 0 2, 0x4028019#36), (zp 0 0x11, 4#36), (zp 0 0x12, 2#36)]
    ([(0, BitVec.ofNat 36 w0), (1, 64#36), (2, BitVec.ofNat 36 w2), (64, 7#36)].filter (·.2 ≠ 0))

/-- Descriptor words 0 and 2 that the head holds: due, due later, invalid. -/
def headS (w : Nat × Nat) : State := ringS {} w.1 w.2

/-- What the attempts of PortsTransmit ask: a head posted in an earlier tick at a bus idle, its words free, and the same with one of their
points taken; a head that is due, one that is not and one that is invalid; a port that had to enter configuration. -/
theorem witness_attempts :
    (∀ w ∈ [(0x2000, 0), (0x10002000, 240000), (0, 0)], (headS w).wf ∧ (let s := headS w; let u := busIdle 0 s
       (portOf s 0).sending = .none ∧ (portOf s 0).cfgPend = false ∧ mayStart u 0 = true ∧ ownDue u 0 = false ∧ headReadable u 0 = true
         ∧ freeFor masterPort 0 u (attempt 0 .won (untouched u)) = true ∧ freeFor masterPort 0 u (attempt 0 .lost (untouched u)) = true
         ∧ (portOf u 0).cancelled.contains (txGet u 0) = false ∧ descAddr u 0 (txGet u 0) = 0 ∧ onlyTouches u (fetchDesc 0 (untouched u)).2
         ∧ ∀ i < 4, isShared (0 + i) = true ∧ gate u masterPort false .write (word (0 + i)) = none))
    ∧ (let u := busIdle 0 (headS (0x2000, 0)); let d : TxDesc := ⟨0x2000, 64, 0, 0⟩
       let q := mReads masterPort d.buf (d.words (isZilco u 0)) (fetchDesc 0 (untouched u)).2
       (fetchDesc 0 (untouched u)).1 = some d ∧ d.valid (isZilco u 0) = true ∧ isDue u 0 d = true ∧ q.1 = some [7, 0] ∧ onlyTouches u q.2)
    ∧ (let u := busIdle 0 (headS (0x10002000, 240000)); let d : TxDesc := ⟨0x10002000, 64, 240000, 0⟩
       (fetchDesc 0 (untouched u)).1 = some d ∧ d.valid (isZilco u 0) = true ∧ isDue u 0 d = false)
    ∧ (let u := busIdle 0 (headS (0, 0)); let d : TxDesc := ⟨0, 64, 0, 0⟩
       (fetchDesc 0 (untouched u)).1 = some d ∧ d.valid (isZilco u 0) = false)
    ∧ (let u := busIdle 0 { headS (0x2000, 0) with served := [(0, 250006)] }
       mayStart u 0 = true ∧ ownDue u 0 = false ∧ headReadable u 0 = true ∧ freeFor masterPort 0 u (attempt 0 .won (untouched u)) = false)
    ∧ headReadable (busIdle 0 (portS 0x40 5 {} [] [])) 0 = false ∧ mayStart (busIdle 0 State.reset) 0 = false
    ∧ (let s := ringS { cfgPend := true } 0x2000 0; (portOf s 0).sending = .none ∧ (portOf s 0).cfgPend = true ∧ (portOf s 0).posts ≠ []) := by
  unfold onlyTouches
  refine ⟨fun w hw => ⟨?_, ?_⟩, ?_, ?_, ?_, ?_, ?_⟩
  · exact wf_all (l := [(0x2000, 0), (0x10002000, 240000), (0, 0)].map headS) (by decide +kernel) _ (List.mem_map_of_mem hw)
  · revert w; decide +kernel
  all_goals decide +kernel

/-- Frames of each kind on the bus, their secondary sample point in range and out of it; rings that can and cannot send; posted
descriptors that can be cancelled and cannot; the beacon, the echo exchange and the delay notice due and not. -/
theorem witness_PortsTransmit :
    ((ringS {} 0x2000 0).wf ∧ (portS 0x40 199999 {} [(zp 0 0x32, 0x800000005#36), (zp 0 0x43, 0x800000000#36)] []).wf)
    ∧ (∀ k ∈ [Sending.beacon, .echo 3, .delay 3, .ring 0], let s := ringS { sending := k } 0x2000 0; let v := (mReads masterPort 0 4 s).2
       driverOn s 0 = true ∧ listenOnly s 0 = false ∧ confState s 0 < 2 ∧ getF s (zp 0 4) 16 8 ≤ 256 ∧ (portOf s 0).sending = k ∧ (portOf s 0).cfgPend = false
         ∧ compensated s 0 = true ∧ sspBad s 0 179 = false ∧ sspBad s 0 180 = true ∧ 2 ≤ txSize s 0 ∧ txSize s 0 ≤ 256
         ∧ (mReads masterPort 0 4 s).1 = some [0x2000, 64, 0, 0] ∧ v = { s with served := v.served, tk := v.tk }
         ∧ endWaits s 0 0 = false ∧ s.ends = [] ∧ endWaits { s with served := [(0, 250006)] } 0 0 = true
         ∧ descAddr s 0 (txGet s 0) = 0 ∧ ∀ i < 4, isShared (0 + i) = true ∧ gate s masterPort false .write (word (0 + i)) = none ∧ blockedAt s masterPort 0 (0 + i) = false)
    ∧ driverOn State.reset 0 = false
    ∧ (∃ s x, s = portS 0x40 5 x [(zp 0 4, 0x80000#36), (zp 0 0x11, 4#36), (zp 0 0x12, 2#36)] [] ∧ s.wf ∧ s.ports = [((0 : Fin 256).val, x)] ∧ x.posts ≠ []
       ∧ cannotSend s 0 = true ∧ 2 ≤ txSize s 0 ∧ txSize s 0 ≤ 256 ∧ txGet s 0 < txSize s 0 ∧ txPut s 0 < txSize s 0 ∧ quietTick { s with ports := [] })
    ∧ cannotSend (ringS {} 0 0) 0 = false
    ∧ (let s := ringS {} 0x2000 0
       (portOf s 0).posts.length = posted s 0 ∧ (match exec (.txptrWrite 0 3) s with | .next t => decide (posted s 0 ≤ posted t 0) | _ => false) = true
         ∧ isPosted s 0 0 = true ∧ isPosted s 0 1 = true ∧ isPosted s 0 2 = false ∧ txGet s 0 = 0 ∧ (portOf s 0).sofDriven = false)
    ∧ (portOf (ringS { cancelled := [1] } 0 0) 0).cancelled.contains 1 = true ∧ (portOf (ringS { sofDriven := true } 0 0) 0).sofDriven = true
    ∧ (let u := busIdle 0 (portS 0x40 5 {} [(zp 0 0x30, 0x800000005#36)] []); mayStart u 0 = true ∧ beaconDue u 0 = true)
    ∧ (let u := busIdle 0 (portS 0x40 4 {} [(zp 0 0x30, 0x800000005#36)] []); beaconDue u 0 = false)
    ∧ (let s := portS 0x40 10000 {} [(zp 0 0x30, 0x800000005#36)] []
       cfgAct s 0 = false ∧ isZilco s 0 = true ∧ driverOn s 0 = true ∧ listenOnly s 0 = false ∧ bitOf s (zp 0 0x30) 35 = true ∧ s.day.run = true
         ∧ 0 < phaseOf s (dayTick s) ∧ (portOf s 0).bcnToday = false)
    ∧ phaseOf (portS 0x40 9999 {} [] []) (dayTick (portS 0x40 9999 {} [] [])) = 0
    ∧ (let s := portS 0x40 199999 {} [(zp 0 0x32, 0x800000005#36), (zp 0 0x43, 0x800000000#36)] []
       echoNext s 0 = some 3 ∧ mayStart (busIdle 0 s) 0 = true ∧ echoDue (busIdle 0 s) 0 = true ∧ beaconDue (busIdle 0 s) 0 = false)
    ∧ echoDue (busIdle 0 (portS 0x40 200000 {} [(zp 0 0x32, 0x800000005#36), (zp 0 0x43, 0x800000000#36)] [])) 0 = false
    ∧ (let s := portS 0x40 5 { echo := some (3, 9) } [] []
       isZilco s 0 = true ∧ listenOnly s 0 = false ∧ (portOf s 0).echo = some (3, 9) ∧ (64 : Word).toNat ≤ 2001 * 64
         ∧ 2001 * 64 ≤ (64 : Word).toNat + 128000 ∧ (64 : Word).toNat + 128000 < 2002 * 64 ∧ 0 * 64 < (64 : Word).toNat ∧ (2001 * 64 - (64 : Word).toNat) % 2 = 0)
    ∧ silent (portS 0x41 5 { echo := some (3, 9) } [] []) 0 = true ∧ silent (portS 0x40 5 { echo := some (3, 9) } [] []) 0 = false
    ∧ (let s := portS 0x40 5 { delay := some (3, 6) } [] []; let u := busIdle 0 s
       (portOf s 0).delay = some (3, 6) ∧ mayStart u 0 = true ∧ isZilco u 0 = true ∧ beaconDue u 0 = false ∧ echoDue u 0 = false)
    ∧ isZilco (busIdle 0 (portS 0x80 5 { delay := some (3, 6) } [] [])) 0 = false := by
  refine ⟨⟨wf_of (by decide +kernel), wf_of (by decide +kernel)⟩, by decide +kernel, by decide +kernel,
    ⟨_, { posts := [250000, 250004] }, rfl, wf_of (by decide +kernel), rfl, ?_⟩, ?_⟩
  · unfold quietTick; decide +kernel
  · and_intros <;> decide +kernel

/-- Ports on the bus, in each confinement state and out of it; a frame with attempts left; drivers on, off and tried again; groups;
configuration with good bit timing and bad, entered at once and at the end of a frame, of an error sequence or with neither. -/
theorem witness_ErrorsConfinementAndConfiguration :
    (∀ s ∈ [ringS { sending := .ring 0 } 0xC0002000 0, portS 0x40 5 {} [(zp 0 4, 0x47F00#36)] [], portS 0x40 5 {} [(zp 0 4, 0xC0000#36)] [],
        portS 0x40 5 { shortOff := true } [(zp 0 4, 0xC0000#36)] [], portS 0x48 5 {} [(zp 0 4, 0x80000#36)] [], portS 0x80 5 {} [] [],
        portS 0x40 5 { groupFail := true, sending := .beacon } [] [], portS 0x50 5 {} [(zp 0 1, 0x46403E8#36), (zp 0 2, 0x4028019#36)] []], s.wf)
    ∧ (let s := ringS { sending := .ring 0 } 0xC0002000 0; let v := (mRead masterPort (descAddr s 0 (txGet s 0)) s).2
       onBus s 0 = true ∧ compensated s 0 = true ∧ listenOnly s 0 = false ∧ confState s 0 = 0 ∧ (portOf s 0).sending = .ring 0 ∧ (portOf s 0).cfgPend = false
         ∧ getF s (zp 0 4) 16 8 + 8 < 256 ∧ (mRead masterPort (descAddr s 0 (txGet s 0)) s).1 = some 0xC0002000#36
         ∧ v = { s with served := v.served, tk := v.tk } ∧ (portOf s 0).att + 1 < slice (0xC0002000#36).toNat 33 30)
    ∧ onBus State.reset 0 = false ∧ cfgAct State.reset 0 = true
    ∧ (let s := portS 0x40 5 {} [(zp 0 4, 0x47F00#36)] []; confState s 0 = 1 ∧ getF s (zp 0 4) 16 8 = 127)
    ∧ (let s := portS 0x40 5 {} [(zp 0 4, 0xC0000#36)] []; confState s 0 = 3 ∧ (portOf s 0).shortOff = false ∧ (portOf s 0).trial = false)
    ∧ (portOf (portS 0x40 5 { trial := true } [(zp 0 4, 0xC0000#36)] []) 0).trial = true
    ∧ (let s := portS 0x40 5 { shortOff := true } [(zp 0 4, 0xC0000#36)] []; (portOf s 0).shortOff = true ∧ driverOn s 0 = false)
    ∧ (let s := portS 0x48 5 {} [(zp 0 4, 0x80000#36)] []; confState s 0 = 2 ∧ bitOf s (zp 0 0) 3 = true ∧ driverOn s 0 = true)
    ∧ (let s := portS 0x80 5 {} [] []
       onBus s 0 = true ∧ isCanFd s 0 = true ∧ driverOn s 0 = true ∧ bitOf s (zp 0 0) 3 = false ∧ posted s 0 = 0 ∧ compensated s 0 = false)
    ∧ (let s := portS 0x40 5 { groupFail := true, sending := .beacon } [] []; driverOn s 0 = false ∧ (portOf s 0).groupFail = true
         ∧ (portOf s 1).groupFail = false ∧ (portOf s 0).sending ≠ .none ∧ (portOf s 0).cfgPend = false ∧ posted s 0 = 0 ∧ 0 / 8 = (0 : Fin 32).val)
    ∧ (let s := portS 0x40 5 { cfgPend := true, inError := true } [] []
       cfgAct s 0 = false ∧ (portOf s 0).cfgPend = true ∧ (portOf s 0).sending = .none ∧ (portOf s 0).inError = true ∧ segmentBusy s 0 = true)
    ∧ (let s := portS 0x40 5 { integrating := true } [] []
       cfgAct s 0 = false ∧ (portOf s 0).sending = .none ∧ (portOf s 0).inError = false ∧ onBus s 0 = false ∧ segmentBusy s 0 = false)
    ∧ (let s := portS 0x50 5 {} [(zp 0 1, 0x46403E8#36), (zp 0 2, 0x4028019#36)] []
       cfgAct s 0 = true ∧ leaveOk (protoOf s 0) (reg s (zp 0 1)).toNat (reg s (zp 0 2)).toNat = true)
    ∧ leaveOk 1 (1000 + 800 * 2 ^ 13 + 2 ^ 26) (25 + 20 * 2 ^ 13 + 2 ^ 26) = true ∧ leaveOk 1 (1000 + 800 * 2 ^ 13 + 2 ^ 26) (26 + 20 * 2 ^ 13 + 2 ^ 26) = false
    ∧ leaveOk 1 (1000 + 997 * 2 ^ 13 + 2 ^ 26) (25 + 20 * 2 ^ 13 + 2 ^ 26) = false ∧ leaveOk 2 (1000 + 800 * 2 ^ 13 + 2 ^ 26) (125 + 100 * 2 ^ 13 + 2 ^ 26) = true := by
  refine ⟨wf_all (by decide +kernel), ?_⟩
  and_intros <;> decide +kernel

/-- A frame of station 1 whose SOF is driven at day tick `t`, of class 8. -/
def rxF (t : Nat) : RxFrame := ⟨0x4040#16, [5, 6], none, 9, true, false, false, 4 * (250000 + t)⟩

/-- A port with `n` frames in the places that await deposit, the first deposit begun in tick `b`, and `held` of two entries held. -/
def rxS (n held : Nat) (b : Option Nat) : State :=
  portS 0x40 5 { awaiting := List.replicate n ⟨rxF 5, false, false, 5, b, false, 0⟩ } [(zp 0 0x14, 128#36), (zp 0 0x15, 0x202#36), (zp 0 0x16, BitVec.ofNat 36 (held * 256))] []

/-- A frame in its slot's day and one in Dusk, places for deposit free and taken, a queue with room and a full one, deposits not begun, begun
in this tick and in an earlier one with their points free and taken, entries held and not. -/
theorem witness_PortsReceive :
    (∀ s ∈ [portS 0x40 200000 {} [(zp 0 0x30, 0x800000005#36)] [], rxS 1 1 none, rxS 2 1 none, rxS 1 2 none, rxS 1 1 (some 250004),
        portS 0x41 5 {} [] []], s.wf)
    ∧ (let s := portS 0x40 200000 {} [(zp 0 0x30, 0x800000005#36)] []
       onBus s 0 = true ∧ (rxF 200000).self = false ∧ getF s (zp 0 4) 16 8 < 256 ∧ listenOnly s 0 = false ∧ confState s 0 < 2 ∧ silent s 0 = false
         ∧ intrudes s 0 (rxF 200000) = true ∧ (portOf s 0).awaiting.length < 2 ∧ (portOf s 0).cfgPend = false ∧ (portOf s 0).sending = .none)
    ∧ intrudes (portS 0x40 199999 {} [(zp 0 0x30, 0x800000005#36)] []) 0 (rxF 199999) = false
    ∧ 2 ≤ (portOf (rxS 2 1 none) 0).awaiting.length ∧ (portOf State.reset 0).awaiting = [] ∧ onBus State.reset 0 = false
    ∧ (let w : Await := ⟨rxF 5, false, false, 5, none, false, 0⟩; let s := rxS 1 1 none
       (portOf s 0).awaiting = w :: [] ∧ w.began = none ∧ queueFull s 0 = false)
    ∧ (queueFull (rxS 1 2 none) 0 = true ∧ queueFull (rxS 1 1 none) 0 = false)
    ∧ (let s := rxS 1 1 (some 250005); (portOf s 0).awaiting = [⟨rxF 5, false, false, 5, some 250005, false, 0⟩] ∧ s.now ≤ 250005)
    ∧ (let w : Await := ⟨rxF 5, false, false, 5, some 250004, false, 0⟩; let s := rxS 1 1 (some 250004)
       (portOf s 0).awaiting = w :: [] ∧ 250004 < s.now ∧ (∀ o ∈ s.owed, o.master = masterPort → o.sub ≠ 0) ∧ blockedAt s masterPort 0 128 = false
         ∧ blockedAt { s with served := [(0, 250006)] } masterPort 0 128 = true
         ∧ getF s (zp 0 0x15) 17 9 = 1 ∧ getF s (zp 0 0x14) 31 0 + getF s (zp 0 0x16) 7 0 * (4 + 1) = 128
         ∧ (∀ i < 4 + 1, isShared (128 + i) = true ∧ gate s masterPort false .write (word (128 + i)) = none)
         ∧ getF s (zp 0 0x16) 16 8 < (2 : BitVec 9).toNat ∧ (1 : BitVec 9).toNat ≤ getF s (zp 0 0x16) 16 8 ∧ getF s (zp 0 0x16) 16 8 < 511)
    ∧ (∃ o : Owed, o.master = masterPort ∧ o.sub = 0)
    ∧ (∀ h ∈ [1, 2], let w : Await := ⟨rxF 5, false, false, 5, none, true, 0⟩; let s := portS 0x40 5 { awaiting := [w] } [(zp 0 0x14, 128#36), (zp 0 0x15, 0x202#36), (zp 0 0x16, BitVec.ofNat 36 (h * 256))] []
       wfB s = true ∧ s.ports = [((0 : Fin 256).val, portOf s 0)] ∧ (portOf s 0).posts = [] ∧ quietTick { s with ports := [] } ∧ (h = 2 ↔ queueFull s 0 = true))
    ∧ (let s := rxS 1 1 (some 250004); s.ports = [((0 : Fin 256).val, portOf s 0)] ∧ quietTick { s with ports := [] } ∧ blockedAt s masterPort 0 (entryAddr s 0) = false
       ∧ blockedAt { s with served := [(0, 250006)] } masterPort 0 (entryAddr s 0) = true)
    ∧ (let s := portS 0x40 5 { inError := true } [] []; s.wf ∧ (portOf s 0).inError = true ∧ (portOf s 0).sending = .none)
    ∧ (let s := portS 0x40 5 { cfgPend := true } [] []; s.wf ∧ onBus s 0 = true ∧ (portOf s 0).cfgPend = true ∧ getF s (zp 0 4) 16 8 < 256)
    ∧ (let s := portS 0x41 5 {} [] []
       isZilco s 0 = true ∧ silent s 0 = true ∧ ({ rxF 5 with id := 0 } : RxFrame).id = 0 ∧ onBus s 0 = true) := by
  refine ⟨wf_all (by decide +kernel), ?_⟩
  unfold quietTick
  and_intros <;> first | exact wf_of (by decide +kernel) | exact ⟨⟨0, masterPort, 0, 0⟩, rfl, rfl⟩ | decide +kernel

/-! The machine as a whole. -/

/-- What the completion clauses of OnlyNamedConditionsStop ask: a LOOP with room, an input to replay, transactions that agree, a feed of
stopped channels, a claim after the yield, an edge that fails to come, a lock acquired and an output's second. What the others ask is shown
for the statements SelfTestsArmingAndMonitors, SignalChains, ClaimsAndDecisions and PulsesFramesAndLock. -/
theorem witness_OnlyNamedConditionsStop :
    (plantS.wf ∧ plantReady plantS 0 (.loop 0 (im 67)) (im 67).delta.toNat .none ∧ (engine plantS 0).loops.length < 4)
    ∧ (let s := pairS 8 .waitT false; s.wf ∧ (pairOf s 0).buf = [⟨5, .waitT, 1, false, 5, 7, 0⟩] ∧ 5 + (pairOf s 0).d ≤ s.now)
    ∧ (let s := cmpS true .active 0 1 1
       s.wf ∧ (pairOf s 0).armed = true ∧ (pairOf s 0).lead = [⟨5, 0, [1], 1⟩] ∧ (pairOf s 0).trail = [⟨8, 0, [1], 1⟩]
         ∧ 8 = 5 + (pairOf s 0).d ∧ 8 < s.now)
    ∧ (let s := chainS 0x8000 0 0 1 1
       s.wf ∧ feedReady s = true ∧ (fetchFeed (untouched s)).1 = some (16, chainF 0x8000 0) ∧ feedReason s (chainF 0x8000 0) = none
         ∧ ∀ i < 1, chActive s (0 + i) = false)
    ∧ (let s := mandS .standby true true 5 { yielded := some 9998750, part := .released }
       s.wf ∧ s.link.yielded = some 9998750 ∧ 9998750 + 1250 ≤ s.now ∧ mayClaim s = true ∧ partnerClear s.link = true)
    ∧ (let s := timS 250000005 0x1012 { sec := 2, ns64 := 64001, ppsAt := some (1, 0) }
       s.wf ∧ s.time.ppsAt = some (1, 0) ∧ 64000000000 + 64000 < clockDiff (s.time.sec, s.time.ns64) (1, 0))
    ∧ (let s := timS 15000000005 0x1011 { inBand := some 5 }
       s.wf ∧ s.time.inBand = some 5 ∧ timeCode s = 1 ∧ 1 ≤ timeSrc s ∧ timeSrc s ≤ 5 ∧ 5 + 15000000000 ≤ s.now)
    ∧ (let s : State := { regs := [(timPpsO, 0x200#36)] }; s.wf ∧ s.time.ns64 < lastAdvance s ∧ bitOf s timPpsO 9 = true) := by
  unfold plantReady
  and_intros <;> first | exact wf_of (by decide) | decide +kernel

/-- A command in front of another, and a step that answers a next state from a state whose tables and queues keep their form: the
statements about every step and every command speak of such. -/
theorem witness_machine : (let s : State := { pending := [.pllRelock, .clockTick]}
      s.pending = .pllRelock :: [.clockTick] ∧ s.wf ∧ s.bounded ∧ ∃ t, step s = .next t)
    ∧ (∃ t, exec .pllRelock State.reset = .next t) ∧ instrForm (.add 0 (rf 1 2 3 0)) = some (0, 1, false, 0, .none)
    ∧ (∃ t, exec (.add 0 (rf 1 2 3 0)) plantS = .next t) := by
  refine ⟨⟨rfl, wf_of (by decide), ?_, _, rfl⟩, ⟨_, rfl⟩, by decide, ⟨_, rfl⟩⟩
  refine ⟨?_, ?_, ?_, ?_, ?_, ?_, ?_, ?_, fun _ => ⟨Nat.zero_le _, Nat.zero_le _, (show (0 : Nat) < 32 from by decide)⟩, fun _ => Nat.zero_le _⟩
  all_goals decide

/-! Values the manual states, or that follow from its definitions by hand. -/

/-- R84 and the encoded examples: LDI 0x4999 and SHI 0x999A build 1.15 pu. -/
theorem test_two_instruction_constant : aluShi 0x000004999 0x999A = 0x04999999A ∧ aluShi 0xFFFFFFFFF 0 = 0xFFFFF0000 := by decide

/-- R53: the edges of negation, sums and products. -/
theorem test_sum_edges : aluNeg 0x800000000 = (0x800000000, some 0) ∧ aluNegs 0x800000000 = (0x7FFFFFFFF, some 1)
    ∧ aluAdd 0x7FFFFFFFF 1 = (0x800000000, some 0) ∧ aluAdds 0x7FFFFFFFF 1 = (0x7FFFFFFFF, some 1)
    ∧ aluPmul false 0x800000000 0x800000000 = (0x7FFFFFFFF, some 1) ∧ aluMul 0x100000000 16 = (0, some 0) := by decide

/-- R54: division by zero, and MAXN by −1. -/
theorem test_division_edges : aluDiv 5 0 = (0x7FFFFFFFF, some 2) ∧ aluDiv 0 0 = (0, some 2) ∧ aluDiv 0xFFFFFFFFF 0 = (0x800000000, some 2)
    ∧ aluDiv 0x800000000 0xFFFFFFFFF = (0x7FFFFFFFF, some 2) ∧ aluRem 0x800000000 0xFFFFFFFFF = (0, some 2)
    ∧ aluRem 5 0 = (5, some 2) ∧ aluRem 0xFFFFFFFF9 2 = (0xFFFFFFFFF, none) ∧ aluDiv 0xFFFFFFFF9 2 = (0xFFFFFFFFD, none) := by decide

/-- R47: 0.5 and 1.5 go to the even neighbour; under floor, −0.5 goes down. R55: −1 shifted right stays −1. R56: a sample of 2^23. -/
theorem test_rounding_and_shifts : roundShift false 1 1 = 0 ∧ roundShift false 3 1 = 2 ∧ roundShift true (-1) 1 = -1
    ∧ aluSar 0xFFFFFFFFF 200 = 0xFFFFFFFFF ∧ aluShl 0x800000000 1 = (0, some 0) ∧ aluRot 1 37 = 2 ∧ (aluCvt false 4 0x800000).1 = 0xFC0000000 := by decide

/-- A quarter turn: sin 1.0 pu, cos 0, and the square root of 0.25 pu is 0.5 pu. -/
theorem test_cordic : (rotate (2 ^ 30) 0 0x400000000).2.1 = 0x040000000 ∧ (rotate (2 ^ 30) 0 0x400000000).1.1 = 0
    ∧ cordSqrt 0x010000000 = (0x020000000, none) ∧ (vectoring 0 0).1 = 0 := by decide +kernel

/-- The worked schedule: engines 412 and 448 to bank 63 have 10 and 7 hops. -/
theorem test_hops : hopsTo 412 0x007E0000 = 10 ∧ hopsTo 448 0x007E0000 = 7 := by decide

/-- R249 over the octets "123456789". -/
theorem test_crc : crcWords [0x313233343#36, 0x536373839#36] (2 ^ 32 - 1) = 0x0376E6E7 := by decide +kernel

/-- SHA-384 of nine octets. -/
theorem test_digest : digestOf [0x123456789#36, 0xABCDEF012#36]
    = 0x333a84821e1ab79423e80cce8a54a7cb04b4e49930f38689242a2de39be64857078c151590482eb9f3da37a537725fbd := by decide +kernel

/-- R247, R255: the stuff bits of the worked frame and of the segment's identifiers, and the two longest frames. -/
theorem test_frames : [0x4140, 0, 0x40C0, 0x4100, 0xA0C0, 0xA100].map stuffOf = [2, 3, 2, 2, 2, 1]
    ∧ frameNs { regs := [(zp 0 1, BitVec.ofNat 36 (1000 + 800 * 2 ^ 13)), (zp 0 2, BitVec.ofNat 36 (25 + 18 * 2 ^ 13))] } 0 224 4 = 486607
    ∧ frameNs { regs := [(zp 0 1, 0x640C807D0#36), (zp 0 2, BitVec.ofNat 36 (200 + 140 * 2 ^ 13))] } 0 224 4 = 3702060 := by decide +kernel

/-- R239, R241: the register words of the example are legal bit timing. -/
theorem test_bit_timing : timingOk 0x640C807D0 = true ∧ timingOk 0x01C024019 = true := by decide

/-- R498: GATE_VIOL of the worked example. -/
theorem test_violation_word : violWord 5 448 false true 0 32 false = 0x005380820 := by decide

/-- R576: the rest entry of engine 412 at tick 50,030 of a day whose low octet is 0x2A. -/
theorem test_trace_entry : traceWords { day := { dayAt 50030 with n := 0x2A } } 1 0 412 1 0x2F = [0x10000019C, 0x2A000C36E, 1, 0x2F] := by decide

/-- R337: 162,000 + 56,400 + 4,800 operations a second for each of the example's channels. -/
theorem test_chain_load : chLoad { regs := [(sigCh 0 1, 14400#36), (sigCh 0 2, BitVec.ofNat 36 (46 * 2 ^ 21 + 32 * 2 ^ 14 + 2 * 2 ^ 10 + 3 * 2 ^ 6))] } 0
    = 223200 * loadUnit * loadUnit := by decide +kernel

/-- R420: the example's ramp of 0.5 pu/s at L = 1 ms is 0x083127 a day, and its first limited check is one step below v0 + TOL. -/
theorem test_ramp : let s : State := { day := dayAt 0, ts := [tsAt 0x402 536870912, tsAt 0x403 53687091, tsAt 0x405 100] }
    rampStep s 0 = 0x83127 ∧ (rampLimit s 0 100 1052266988).toNat = 1052266988 + 53687091
      ∧ (rampLimit s 0 101 1052266988).toNat = 1052266988 + 53687091 - 0x83127 := by decide +kernel

/-- R368 to R370: the worked example: the arrivals are 81,600 ns apart, the impedance alone gives 48,000 m, and the record carries the travelling
wave's 0.40004 and 48,005 m. -/
theorem test_worked_location : let l : LineCfg := ⟨0, 0, 0, [], [], 0, 0, 0, 0x020000000, 120000, 294000000, 0, 0⟩
    arrivalGap (some (0, ⟨0, 0, 0, 7, 0x624472000, 0, 0⟩)) (fun _ => 7) 0 [0x8000, 7, 0x1892, 0x5B40] = some (-81600 * 64)
      ∧ (impedanceRatio (l.zRe, l.zIm) (0x01D70A3D7, 0xFF1EB851F) (0x01999999A, 0xF80000000) (0x0170A3D71, 0xFF0A3D70A) (0x00CCCCCCD, 0xFC0000000)).map
          (fun z => (roundRatio (z.1 * 120000) z.2, flocRecord (report l (some z) (waveRatio l (some (-81600 * 64)))) l 0))
        = some (48000, [2, 0x0199A415F, 48005]) := by decide +kernel

/-- R364: 1.0 as a single, a quarter turn in units of 10⁻⁴ rad, saturation, and the integer of an invalid value. -/
theorem test_phasor_conversions : singleOf 1 1 = 0x3F800000 ∧ singleOf (-5) 2 = 0xC0200000 ∧ angleField false true 0x400000000 ⟨1, 1⟩ = 15708
    ∧ intField true 40000 1 = 0x7FFF ∧ intField true (-40000) 1 = 0x8001 ∧ intField false 1 1 = 0x8000 := by decide +kernel

/-- R225: two equal copies decide against the third; three different ones do not. -/
theorem test_vote : vote { c1 := 5, c2 := 5, c3 := 6 } = .odd 5 ∧ vote { c1 := 5, c2 := 6, c3 := 7 } = .split := by decide

end Sys2Proof.Machine
end

section
/-! SUPPORT. The statement on register accesses fails: a violation record holds the whole 36-bit word address of a refused access,
and GATE_VIOL_ADDR latches its bits [31:0] alone (R498 and the register's own table). -/

namespace Sys2Proof.Machine

/-- The module as the tick begins after a secure supervisor engine's refused write to word address 2^32, which has no target (R35). -/
def refusedBeyondMap : State :=
  applyHw (ifFree 1024 0 (fun s => (gatedWrite 1024 (worldOf s 1024) 0x100000000#36 0 s).2) State.reset)

/-- It is what that command leaves of the module after reset. -/
theorem refusedBeyondMap_reached :
    ∃ t, exec (.registerWrite 1024 true 0x100000000#36 0) State.reset = .next t ∧ refusedBeyondMap = applyHw t := ⟨_, rfl, rfl⟩

theorem refusedBeyondMap_wf : refusedBeyondMap.wf := wf_of (by decide +kernel)

/-- Its oldest record names the address 2^32, beyond the 32 bits that GATE_VIOL_ADDR shows. -/
theorem refusedBeyondMap_record : ∃ r ∈ refusedBeyondMap.viol.head?, r.2.1 = 2 ^ 32 := by decide +kernel

/-- GATE_VIOL_ADDR after a read of GATE_VIOL by the same engine. -/
def latchedAddr : Host.Outcome State Fault Refusal → Word
  | .next t => reg t gateViolAddr
  | _ => poison

theorem refusedBeyondMap_latches : latchedAddr (exec (.gateViolRead 1024 true) refusedBeyondMap) = 0 := by decide +kernel

/-- Refutes O27: the record of a refused access to word address 2^32 is popped, and GATE_VIOL_ADDR shows 0, its bits [31:0], where
the statement asks for the record's whole address. -/
theorem not_registerAccess : ¬ Obligations.RegisterAccess := by
  unfold Obligations.RegisterAccess
  rintro ⟨hreads, -⟩
  obtain ⟨-, -, -, hviol, -⟩ := hreads 1024 true refusedBeyondMap refusedBeyondMap_wf
  obtain ⟨t, ht, -, -, -, -, hlatch⟩ := hviol (by decide +kernel) (by decide +kernel)
  have hshown : reg t gateViolAddr = 0 := by simpa [ht, latchedAddr] using refusedBeyondMap_latches
  obtain ⟨r, hr, haddr⟩ := refusedBeyondMap_record
  have hwhole := (hlatch r hr (by decide +kernel)).1
  rw [hshown, haddr] at hwhole
  exact absurd hwhole (by decide)

end Sys2Proof.Machine
end

section
/-! SUPPORT. Requests of host sessions: what a request that is taken at once finds, and how it is answered (R553 to R563). -/

namespace Sys2Proof.Machine

/-! Sessions. -/

theorem find_insertSess (n : Nat) (x : HostSess) (l : List (Nat × HostSess)) : (insertSess n x l).find? (·.1 == n) = some (n, x) := by
  induction l with
  | nil => simp [insertSess]
  | cons y t ih =>
    simp only [insertSess]
    split
    · simp
    · split
      · simp
      · rename_i hne
        simp [Ne.symm hne, ih]

@[simp] theorem hostSess_received (q : Rq) (x : HostSess) (s : State) : hostSess (received q x s) q.sess = some { x with last := s.now } := by
  simp [hostSess, received, putSess, find_insertSess]

/-- The state with other bookkeeping of its sessions (R555, R559, R560). -/
def bookkept (se : List (Nat × HostSess)) (ne : NetUse) (s : State) : State := { s with sess := se, net := ne }

/-- Receiving a request is the bookkeeping of sessions alone. -/
theorem received_frame (q : Rq) (x : HostSess) (s : State) : ∃ se ne, received q x s = bookkept se ne s := by
  unfold received putSess
  split
  · exact ⟨_, _, rfl⟩
  · exact ⟨_, s.net, rfl⟩

/-! A request that may be served at once. -/

/-- The status that turns a permitted request away: its format, or the range of its parameters. -/
theorem turnedAway_permitted (h : HostReq) (form range : Bool) (x : HostSess) (s : State) (hd : delivery s = false)
    (hr : h.roles = [] ∨ ∃ r ∈ x.roles, r ∈ h.roles) :
    turnedAway h { form := form, range := range } x s = if form = false then some stFormat else if range = false then some stRange else none := by
  have hroles : (h.roles.isEmpty || x.roles.any (h.roles.contains ·)) = true := by simpa using hr
  simp only [turnedAway, hd, hroles]
  cases form <;> cases range <;> rfl

section
variable {q : Rq} {h : HostReq} {s : State} {excl : Bool} (form range : Bool) (body : State → State)

/-- R559 to R563: a request that may be served at once is turned away for its format or its range, or its command is served; both after
the bookkeeping of sessions. -/
theorem arrive_permitted (hm : mayServe s q h.roles excl) (he : h.excl = true → excl = true) :
    ∃ se ne, arrive q h (serveRequest q h { form := form, range := range } body) s = .next
      (if form = false then respond q h.code stFormat [] (bookkept se ne s)
       else if range = false then respond q h.code stRange [] (bookkept se ne s)
       else body (bookkept se ne s)) := by
  obtain ⟨x, ⟨hx, hout, hturn⟩, hdel, hex, hroles⟩ := hm
  obtain ⟨se, ne, hu⟩ := received_frame q x s
  have hclash : (h.excl && exclBusy s) = false := by
    cases hh : h.excl
    · rfl
    · simpa using hex (he hh)
  have hserve : serveRequest q h { form := form, range := range } body (received q x s) =
      (if form = false then respond q h.code stFormat [] (received q x s)
       else if range = false then respond q h.code stRange [] (received q x s) else body (received q x s)) := by
    have hd : delivery (received q x s) = false := by rw [hu]; exact hdel
    simp only [serveRequest, hostSess_received, turnedAway_permitted h form range { x with last := s.now } _ hd hroles]
    cases form <;> cases range <;> rfl
  have hnone : outstanding (received q x s) q.sess = 0 := by rw [hu]; exact hout
  refine ⟨se, ne, ?_⟩
  simp only [arrive, hx, hturn, hclash, hnone, hserve]
  simp [hu]

/-- One of good format and range is served. -/
theorem arrive_served (hm : mayServe s q h.roles excl) (he : h.excl = true → excl = true) (hf : form = true) (hr : range = true) :
    ∃ se ne, arrive q h (serveRequest q h { form := form, range := range } body) s = .next (body (bookkept se ne s)) := by
  subst hf hr
  exact arrive_permitted true true body hm he

/-- One with a parameter out of range is answered RANGE. -/
theorem arrive_outOfRange (hm : mayServe s q h.roles excl) (he : h.excl = true → excl = true) (hf : form = true) (hr : range = false) :
    ∃ se ne, arrive q h (serveRequest q h { form := form, range := range } body) s
      = .next (respond q h.code stRange [] (bookkept se ne s)) := by
  subst hf hr
  exact arrive_permitted true false body hm he

/-- One whose payload is not in its format is answered FORMAT. -/
theorem arrive_misformed (hm : mayServe s q h.roles excl) (he : h.excl = true → excl = true) (hf : form = false) :
    ∃ se ne, arrive q h (serveRequest q h { form := form, range := range } body) s
      = .next (respond q h.code stFormat [] (bookkept se ne s)) := by
  subst hf
  exact arrive_permitted false range body hm he
end

/-- A response after the bookkeeping of sessions is an answer and nothing more. -/
theorem respond_answers (s : State) (q : Rq) (code status : Nat) (ws : List Word) (se : List (Nat × HostSess)) (ne : NetUse) :
    onlyAnswers s (respond q code status ws (bookkept se ne s)) ∧ answered s (respond q code status ws (bookkept se ne s)) q code status ws :=
  ⟨rfl, rfl⟩

end Sys2Proof.Machine
end

section
/-! SUPPORT. Words that a request reads through the gates: the points it takes and the words it is answered with (R31, R492, R563). -/

namespace Sys2Proof.Machine

/-! What the gates and the arbitration points look at. -/

theorem reg_congr {s t : State} (h : t.regs = s.regs) : reg t = reg s := by funext a; rw [reg, reg, h]

theorem pairOf_congr {s t : State} (h : t.pairs = s.pairs) : pairOf t = pairOf s := by funext k; rw [pairOf, pairOf, h]

theorem supOf_congr {s t : State} (h : t.sup = s.sup) : supOf t = supOf s := by funext e; rw [supOf, supOf, h]

/-- R493 to R496: what a gate decides rests on the region table, the module state and the pairs alone. -/
theorem gate_congr {s t : State} (hr : t.regs = s.regs) (hm : t.mst = s.mst) (hp : t.pairs = s.pairs) : gate t = gate s := by
  have hmatch : regionMatches t = regionMatches s := by unfold regionMatches bitOf getF; rw [reg_congr hr]
  have hgrant : regionGrants t = regionGrants s := by unfold regionGrants bitOf getF; rw [reg_congr hr]
  have hfix : fixedRule t = fixedRule s := by
    unfold fixedRule safetyLeader leadsJoined trailRefused closedEngine
    rw [pairOf_congr hp, hm]
  unfold gate
  rw [hmatch, hgrant, hfix]

/-- R31: whether an access must wait depends on what the tick has served, on the engines and on the requests that are present in it. -/
theorem blockedAt_congr {s t : State} (hn : t.now = s.now) (hv : t.served = s.served) (he : t.eng = s.eng) (hr : t.reqs = s.reqs)
    (ho : t.owed = s.owed) (hs : t.sup = s.sup) (hw : ∀ w : Waiter, w.tick = s.now → (w ∈ t.waiters ↔ w ∈ s.waiters)) :
    blockedAt t = blockedAt s := by
  have heng : engine t = engine s := funext (engine_congr he)
  have hfirst : waiterFirst t = waiterFirst s := by
    funext p m sub
    rw [Bool.eq_iff_iff, waiterFirst, waiterFirst, hn]
    simp only [List.any_eq_true, Bool.and_eq_true, beq_iff_eq]
    exact ⟨fun ⟨w, hmem, hp⟩ => ⟨w, (hw w hp.1.1).1 hmem, hp⟩, fun ⟨w, hmem, hp⟩ => ⟨w, (hw w hp.1.1).2 hmem, hp⟩⟩
  have hheld : pointHeld t = pointHeld s := by unfold pointHeld ownAccess; rw [hv, hn, heng]
  have hbusy : ownerBusy t = ownerBusy s := by unfold ownerBusy; rw [heng]
  have hbank : bankHeld t = bankHeld s := by unfold bankHeld; rw [heng, supOf_congr hs]
  have hplant : plantPresent t = plantPresent s := by unfold plantPresent; rw [hr, hn]
  have howed : owedFirst t = owedFirst s := by unfold owedFirst; rw [ho]
  unfold blockedAt
  rw [hfirst, hheld, hbusy, hbank, hplant, howed]

@[simp] theorem gate_untouched (s : State) : gate (untouched s) = gate s := gate_congr rfl rfl rfl

@[simp] theorem gate_bookkept (se : List (Nat × HostSess)) (ne : NetUse) (s : State) : gate (bookkept se ne s) = gate s :=
  gate_congr rfl rfl rfl

@[simp] theorem blockedAt_bookkept (se : List (Nat × HostSess)) (ne : NetUse) (s : State) : blockedAt (bookkept se ne s) = blockedAt s :=
  blockedAt_congr rfl rfl rfl rfl rfl rfl fun _ _ => Iff.rfl

/-! Addresses in a row. -/

theorem add_one_add (a : Word) (i : Nat) : a + 1 + BitVec.ofNat 36 i = a + BitVec.ofNat 36 (i + 1) := by
  rw [Nat.add_comm i 1, BitVec.ofNat_add, ← BitVec.add_assoc]
  rfl

theorem toNat_succ_of_shared {a : Word} (h : isShared a.toNat = true) : (a + 1).toNat = a.toNat + 1 := by
  have : a.toNat ≤ 0x007FFFFF := by simpa [isShared] using h
  bv_omega

/-- The accesses at addresses `as` have taken their points, at which `sv` is served. -/
def accessed (sv : List (Nat × Nat)) (as : List Nat) (s : State) : State := { s with served := sv, tk := { s.tk with touched := as } }

theorem readMapped_shared (m : Nat) (peek : Bool) (a : Nat) (s : State) (ha : isShared a = true) (hc : peek = true ∨ chkOf s a = .ok) :
    readMapped m none peek a s = (peekMem s a, s) := by
  rcases hc with rfl | hc
  · simp [readMapped, ha]
  · cases peek <;> simp [readMapped, ha, memRead, peekMem, hc]

/-- R12, R31, R563: the words of shared memory that the gates grant, peeked, or taken without an error, take their points and change
nothing. -/
theorem readWords_granted (m : Nat) (secure peek : Bool) (n : Nat) (a : Word) (s : State)
    (h : ∀ i < n, isShared (a.toNat + i) = true ∧ (peek = true ∨ chkOf s (a.toNat + i) = .ok)
      ∧ gate s m secure (if peek && m == masterDebug then .peek else .read) (a + BitVec.ofNat 36 i) = none) :
    ∃ sv, readWords m secure peek n a s = ((List.range' a.toNat n).map fun b => some (peekMem s b),
      accessed sv ((List.range' a.toNat n).reverse ++ s.tk.touched) s) := by
  induction n generalizing a s with
  | zero => exact ⟨s.served, rfl⟩
  | succ n ih =>
    obtain ⟨hsh, hck, hg⟩ := h 0 n.succ_pos
    rw [Nat.add_zero] at hsh hck
    rw [BitVec.add_zero] at hg
    have hgate : gate (touch a.toNat s) = gate s := gate_congr rfl rfl rfl
    have hnext := toNat_succ_of_shared hsh
    obtain ⟨sv, hrest⟩ := ih (a + 1) (touch a.toNat s) fun i hi => by
      rw [hnext, hgate, add_one_add, Nat.add_assoc, Nat.add_comm 1 i]
      exact h (i + 1) (Nat.succ_lt_succ hi)
    refine ⟨sv, ?_⟩
    rw [hnext] at hrest
    simp only [readWords, hgate, hg]
    rw [readMapped_shared m peek a.toNat (touch a.toNat s) hsh hck]
    simp only [hrest, List.range'_succ, List.reverse_cons, List.append_assoc]
    rfl

/-! A request whose words are accessed together. -/

section
variable {w : HostWait} {m : Nat} {f : State → State} {s : State}

/-- R31: with every point free its accesses are made. -/
theorem memRequest_free (h : ∀ b ∈ (f (untouched s)).tk.touched, blockedAt s m 0 b = false) :
    memRequest w m f s = settle m 0 s.tk.touched (f (untouched s)) := by
  have hfree : freeFor m 0 s (f (untouched s)) = true := by simpa [freeFor] using h
  exact if_pos hfree

/-- R31: with a point taken it waits, and does nothing in this tick. -/
theorem memRequest_taken (h : ∃ b ∈ (f (untouched s)).tk.touched, blockedAt s m 0 b = true) :
    ∃ ws, memRequest w m f s = { s with waiters := ws, hostQ := s.hostQ ++ [w] } := by
  have htaken : ¬ freeFor m 0 s (f (untouched s)) = true := by simpa [freeFor] using h
  exact ⟨_, if_neg htaken⟩
end

section
variable {q : Rq} {m : Nat} {f : State → State} {s : State} {as : List Nat} {code status : Nat} {ws : List Word}

/-- R31: a request that only reads is answered once its points are free. -/
theorem memRequest_answers (hf : ∃ sv, f (untouched s) = respond q code status ws (accessed sv as (untouched s)))
    (hfree : ∀ b ∈ as, blockedAt s m 0 b = false) (w : HostWait) :
    onlyServes s (memRequest w m f s) ∧ answered s (memRequest w m f s) q code status ws := by
  obtain ⟨sv, hf⟩ := hf
  rw [memRequest_free (by rw [hf]; exact hfree), hf]
  constructor
  · simp only [onlyServes, settle, respond, emit, accessed, untouched]
  · rfl

variable {se : List (Nat × HostSess)} {ne : NetUse}
  (hf : ∃ sv, f (untouched (bookkept se ne s)) = respond q code status ws (accessed sv as (untouched (bookkept se ne s))))
include hf

/-- The same of one that arrives. -/
theorem memRequest_answers_bookkept (hfree : ∀ b ∈ as, blockedAt s m 0 b = false) (w : HostWait) :
    onlyServes s (memRequest w m f (bookkept se ne s)) ∧ answered s (memRequest w m f (bookkept se ne s)) q code status ws :=
  memRequest_answers hf (by rw [blockedAt_bookkept]; exact hfree) w

/-- R31: one that arrives while its points are not all free waits. -/
theorem memRequest_waits_bookkept (htaken : ∃ b ∈ as, blockedAt s m 0 b = true) (r : MemReq) :
    waits s (memRequest (serving q (.held r)) m f (bookkept se ne s)) q r := by
  obtain ⟨sv, hf⟩ := hf
  obtain ⟨wt, ht⟩ := memRequest_taken (w := serving q (.held r)) (m := m) (f := f) (s := bookkept se ne s)
    (by rw [hf, blockedAt_bookkept]; exact htaken)
  rw [ht]
  exact ⟨rfl, rfl, rfl, rfl, rfl, rfl⟩
end

/-! The words of one request. -/

/-- What holds of the first `n` addresses from `a` on, as of the list of them. -/
theorem forall_range'_iff {P : Nat → Prop} (a n : Nat) : (∀ b ∈ List.range' a n, P b) ↔ ∀ i < n, P (a + i) := by
  simp [List.range'_eq_map_range]

theorem pointsFree_iff (s : State) (m sub a n : Nat) :
    pointsFree s m sub a n ↔ ∀ b ∈ (List.range' a n).reverse, blockedAt s m sub b = false := by
  simp only [pointsFree, List.mem_reverse, forall_range'_iff]

theorem not_pointsFree_iff (s : State) (m sub a n : Nat) :
    ¬ pointsFree s m sub a n ↔ ∃ b ∈ (List.range' a n).reverse, blockedAt s m sub b = true := by
  simp [pointsFree_iff, and_assoc]

/-- The words of a request in the statements' form. -/
theorem validity_range' (g : Nat → Option Word) (a n : Nat) :
    validity ((List.range' a n).map g) = validity ((List.range n).map fun i => g (a + i)) := by
  rw [List.range'_eq_map_range, List.map_map]
  rfl

end Sys2Proof.Machine
end

section
/-! SUPPORT. What a refusal leaves: its record, the count and the marks of the gates and of rule 8, and its faults (R206, R498). -/

namespace Sys2Proof.Machine

/-- Only what a refusal may write differs: the queue of records and the notices of supervisor engines, the marks and counts of the
gates and of rule 8, and its faults. The accesses of the command stay as they are. -/
structure Refusing (s t : State) : Prop where
  frame : t = { s with
    regs := t.regs, tk := t.tk, viol := t.viol, sup := t.sup, violSeq := t.violSeq, violMasters := t.violMasters, telem := t.telem
    lastFSec := t.lastFSec, logQ := t.logQ }
  ordered : rising s.regs → rising t.regs
  regs : rising s.regs → regsKeptF [gateStatus, gateCnt, cmpStatus] s t
  touched : t.tk.touched = s.tk.touched

theorem Refusing.trans {s t u : State} (h : Refusing s t) (k : Refusing t u) : Refusing s u where
  frame := k.frame.trans (by rw [h.frame])
  ordered hr := k.ordered (h.ordered hr)
  regs hr a ha h1 h2 := (k.regs (h.ordered hr) a ha h1 h2).trans (h.regs hr a ha h1 h2)
  touched := k.touched.trans h.touched

theorem Refusing.out {s t : State} (h : Refusing s t) : t.out = s.out := by rw [h.frame]

theorem Refusing.mem {s t : State} (h : Refusing s t) : t.mem = s.mem := by rw [h.frame]

theorem Refusing.ts {s t : State} (h : Refusing s t) : t.ts = s.ts := by rw [h.frame]

theorem raise_refusing (code detail : Nat) (s : State) : Refusing s (raise code detail s) where
  frame := (raise_frame code detail s).trans (by simp)
  ordered := raise_rising code detail s
  regs hr a _ h1 h2 := raise_reg code detail s hr a h1 h2
  touched := raise_touched code detail s

theorem setBit_refusing (s : State) (a b : Nat) (ha : a ∈ [gateStatus, gateCnt, cmpStatus]) : Refusing s (setBit s a b) where
  frame := rfl
  ordered := setBit_rising s a b true
  regs hr c hc _ _ := reg_setBit_ne s a b c true hr (ne_of_mem_of_not_mem ha hc).symm
  touched := rfl

theorem addSat_refusing (s : State) (a hi lo n : Nat) (ha : a ∈ [gateStatus, gateCnt, cmpStatus]) : Refusing s (addSat s a hi lo n) where
  frame := rfl
  ordered := addSat_rising s a hi lo n
  regs hr c hc _ _ := reg_addSat_ne s a hi lo n c hr (ne_of_mem_of_not_mem ha hc).symm
  touched := rfl

/-! The queue of violation records. -/

theorem queueViol_refusing (rec : Word) (a : Nat) (s : State) : Refusing s (queueViol rec a s) := by
  unfold queueViol
  simp only
  split
  · exact ⟨rfl, id, fun _ _ _ _ _ => rfl, rfl⟩
  · refine Refusing.trans ?_ (addSat_refusing _ gateStatus 15 8 1 (by decide))
    exact ⟨rfl, id, fun _ _ _ _ _ => rfl, rfl⟩

theorem queueViol_violSeq (rec : Word) (a : Nat) (s : State) : (queueViol rec a s).violSeq = s.violSeq := by
  unfold queueViol
  simp only
  split <;> rfl

/-- R498: the first record of its tick keeps its number. -/
theorem queueViol_seq (rec : Word) (a : Nat) (s : State) (h : s.tk.viols = 0) : (queueViol rec a s).tk.seq = slice rec.toNat 35 24 := by
  unfold queueViol
  simp only [h, Nat.sub_zero, List.drop_length, List.nil_append, violInsert]
  split <;> simp [reSeq, violSeqOf, addSat, TickLog.noteCount]

/-! A refusal. -/

section
variable (m : Nat) (secure write : Bool) (r : Nat × Nat) (walk : Bool) (a : Word) (s : State)

/-- The record in the queue, the refusal counted and marked, and SEQ moved on (R498). -/
def recorded : State :=
  let t := queueViol (violWord s.violSeq m secure write r.1 r.2 walk) a.toNat s
  let t := modTelem (fun x => { x with refusals := x.refusals + 1 }) (addSat (setBit t gateStatus 0) gateCnt 35 0 1)
  { t with violSeq := (t.violSeq + 1) % 4096 }

/-- R206: one of rule 8 is also marked and raised for its pair. -/
def trailMarked : State :=
  let t := recorded m secure write r walk a s
  if r = (2, 8) then raise 0x304 ((ownerOf a.toNat).getD 0 / 2) (setBit t cmpStatus 3) else t

/-- R498: a master's first refusal of the day is raised. -/
theorem violate_eq : violate m secure write r walk a s =
    (let t := trailMarked m secure write r walk a s
     if t.violMasters.contains m then t else raise 0xB01 m { t with violMasters := t.violMasters ++ [m] }) := rfl

theorem recorded_refusing : Refusing s (recorded m secure write r walk a s) :=
  (((queueViol_refusing _ _ _).trans (setBit_refusing _ gateStatus 0 (by decide))).trans (addSat_refusing _ gateCnt 35 0 1 (by decide))).trans
    ⟨rfl, id, fun _ _ _ _ _ => rfl, rfl⟩

theorem trailMarked_refusing : Refusing s (trailMarked m secure write r walk a s) := by
  unfold trailMarked
  simp only
  split
  · exact ((recorded_refusing ..).trans (setBit_refusing _ cmpStatus 3 (by decide))).trans (raise_refusing ..)
  · exact recorded_refusing ..

theorem violate_refusing : Refusing s (violate m secure write r walk a s) := by
  rw [violate_eq]
  simp only
  split
  · exact trailMarked_refusing ..
  · refine (trailMarked_refusing m secure write r walk a s).trans (Refusing.trans ?_ (raise_refusing 0xB01 m _))
    exact ⟨rfl, id, fun _ _ _ _ _ => rfl, rfl⟩

theorem recorded_violSeq : (recorded m secure write r walk a s).violSeq = (s.violSeq + 1) % 4096 := by
  simp [recorded, queueViol_violSeq]

/-- R498: SEQ moves on by one record. -/
theorem violate_violSeq : (violate m secure write r walk a s).violSeq = (s.violSeq + 1) % 4096 := by
  have hmarked : (trailMarked m secure write r walk a s).violSeq = (s.violSeq + 1) % 4096 := by
    unfold trailMarked
    simp only
    split <;> simp [recorded_violSeq]
  rw [violate_eq]
  simp only
  split <;> simp [hmarked]

theorem raise_seq (code detail : Nat) (s : State) : (raise code detail s).tk.seq = s.tk.seq := by
  unfold raise logPush
  split
  · rfl
  · split <;> rfl

/-- The number of the record is the last that the tick has made. -/
theorem violate_seq : (violate m secure write r walk a s).tk.seq
    = (queueViol (violWord s.violSeq m secure write r.1 r.2 walk) a.toNat s).tk.seq := by
  have hmarked : (trailMarked m secure write r walk a s).tk.seq
      = (queueViol (violWord s.violSeq m secure write r.1 r.2 walk) a.toNat s).tk.seq := by
    unfold trailMarked
    simp only
    split
    · exact raise_seq ..
    · rfl
  rw [violate_eq]
  simp only
  split
  · exact hmarked
  · exact (raise_seq ..).trans hmarked

end

/-! The number in a record. -/

theorem fixedRule_le (s : State) (m : Nat) (secure : Bool) (acc : Access) (n : Nat) : ∀ r ∈ fixedRule s m secure acc n, r.1 ≤ 3 := by
  unfold fixedRule
  split_ifs <;> simp

/-- R493 to R496: the rules of a refusal are numbered 0 to 3. -/
theorem gate_rule_le {s : State} {m : Nat} {secure : Bool} {acc : Access} {a : Word} {r : Nat × Nat}
    (h : gate s m secure acc a = some r) : r.1 ≤ 3 := by
  unfold gate at h
  split at h
  · rename_i x hx
    exact (Option.some.inj h) ▸ fixedRule_le s m secure acc a.toNat x hx
  · split at h
    · split at h
      · cases h
      · cases h; exact Nat.zero_le 3
    · split at h
      · cases h
      · cases h; decide

/-- R498: a record's SEQ is its number's low 12 bits. -/
theorem slice_violWord (seq m : Nat) (secure write : Bool) (rule region : Nat) (hr : rule ≤ 3) :
    slice (violWord seq m secure write rule region false).toNat 35 24 = seq % 4096 := by
  have hs : (if secure then 2 ^ 12 else 0) ≤ 2 ^ 12 := by split <;> omega
  have hw : (if write then 2 ^ 11 else 0) ≤ 2 ^ 11 := by split <;> omega
  rw [violWord, word_toNat _ (by simp only [Bool.false_eq_true, if_false]; omega), slice]
  simp only [Bool.false_eq_true, if_false]
  omega

/-- R498: the first record of a tick carries the SEQ that stands. -/
theorem violate_first_seq (m : Nat) (secure write : Bool) (r : Nat × Nat) (a : Word) (s : State) (hv : s.tk.viols = 0) (hr : r.1 ≤ 3) :
    (violate m secure write r false a s).tk.seq = s.violSeq % 4096 := by
  rw [violate_seq, queueViol_seq _ _ _ hv, slice_violWord _ _ _ _ _ _ hr]

end Sys2Proof.Machine
end

section
/-! SUPPORT. The host commands that only read (R563, R564, R570, R574). -/

namespace Sys2Proof.Machine

variable {q : Rq} {s : State}

/-- R563: IDENT. -/
theorem ident_answers (hm : mayServe s q [] false) : ∃ t ws, exec (.ident q) s = .next t ∧ onlyAnswers s t
    ∧ answered s t q 0x001 0 ws ∧ ws.getD 0 0 = 0x936 ∧ ws.getD 1 0 = (if Config.variantX = true then 0x58 else 0x53)
    ∧ ws.getD 6 0 = (if slotB s = true then 1 else 0) ∧ ws.getD 7 0 = reg s updFwVer ∧ ws.getD 8 0 = reg s updPairVer
    ∧ (∀ i < 4, ws.getD (9 + i) 0 = reg s (updCfgId + i)) ∧ (∀ i < 4, ws.getD (2 + i) 0 = Config.serial i) ∧ ws.length = 13 := by
  obtain ⟨se, ne, hexec⟩ := arrive_served (h := .ident) true true _ hm nofun rfl rfl
  refine ⟨_, _, hexec, rfl, rfl, rfl, ?_, ?_, rfl, rfl, ?_, ?_, rfl⟩
  · show word (if Config.variantX = true then 0x58 else 0x53) = _
    split <;> rfl
  · show word (flagAt 0 (slotB s)) = _
    cases slotB s <;> rfl
  · intro i hi
    interval_cases i <;> rfl
  · intro i hi
    interval_cases i <;> rfl

/-- R563: STATUS. -/
theorem status_answers (hm : mayServe s q [.monitor] false) : ∃ t ws, exec (.status q) s = .next t ∧ onlyAnswers s t
    ∧ answered s t q 0x003 0 ws ∧ ws.length = 8
    ∧ ws.getD 0 0 = viewReg s 1024 0x04000010 ∧ ws.getD 1 0 = viewReg s 1024 0x04070001 ∧ ws.getD 2 0 = viewReg s 1024 0x04070002
    ∧ ws.getD 3 0 = reg s timState ∧ ws.getD 4 0 = word (s.day.n % 2 ^ 36) ∧ ws.getD 5 0 = word (s.day.n / 2 ^ 36 % 4096)
    ∧ ws.getD 6 0 = reg s fabStatus ∧ ws.getD 7 0 = reg s midLastF := by
  obtain ⟨se, ne, hexec⟩ := arrive_served (h := .status) true true _ hm nofun rfl rfl
  exact ⟨_, _, hexec, rfl, rfl, rfl, rfl, rfl, rfl, rfl, rfl, rfl, rfl, rfl⟩

/-- R564: the words that a READ is granted answer it behind their validity words. -/
theorem serveRead_granted (q : Rq) (a : Word) (n : Nat) (s : State)
    (h : ∀ i < n, isShared (a.toNat + i) = true ∧ gate s 1024 false .read (a + BitVec.ofNat 36 i) = none) :
    ∃ sv, serveRead q a n (untouched s) = respond q 0x010 stOk
      (validity ((List.range n).map fun i => some (peekMem s (a.toNat + i)))) (accessed sv (List.range' a.toNat n).reverse (untouched s)) := by
  obtain ⟨sv, hr⟩ := readWords_granted 1024 false true n a (untouched s)
    fun i hi => ⟨(h i hi).1, .inl rfl, by rw [gate_untouched]; exact (h i hi).2⟩
  refine ⟨sv, ?_⟩
  rw [serveRead, hr, ← validity_range' (fun b => some (peekMem s b))]
  simp only [untouched, List.append_nil]
  rfl

/-- R31, R564: a READ of granted words. -/
theorem read_granted (hm : mayServe s q [.monitor] false) (a : Word) (n : Nat) (h1 : 1 ≤ n) (hn : n ≤ 256)
    (h : ∀ i < n, isShared (a.toNat + i) = true ∧ gate s 1024 false .read (a + BitVec.ofNat 36 i) = none) :
    (pointsFree s 1024 0 a.toNat n → ∃ t, exec (.read q a n) s = .next t ∧ onlyServes s t
      ∧ answered s t q 0x010 0 (validity ((List.range n).map fun i => some (peekMem s (a.toNat + i)))))
    ∧ (¬ pointsFree s 1024 0 a.toNat n → ∃ t, exec (.read q a n) s = .next t ∧ waits s t q (.read a n)) := by
  obtain ⟨se, ne, hexec⟩ := arrive_served (h := .read a n) true (1 ≤ n && n ≤ 256) _ hm nofun rfl (by simp [h1, hn])
  have hwords := serveRead_granted q a n (bookkept se ne s) (by rw [gate_bookkept]; exact h)
  exact ⟨fun hfree => ⟨_, hexec, memRequest_answers_bookkept hwords ((pointsFree_iff ..).1 hfree) _⟩,
    fun htaken => ⟨_, hexec, memRequest_waits_bookkept hwords ((not_pointsFree_iff ..).1 htaken) _⟩⟩

/-- A READ of one word that the gate refuses makes its violation record. -/
theorem serveRead_refused (q : Rq) (a : Word) (r : Nat × Nat) (s : State) (h : gate s 1024 false .read a = some r) :
    serveRead q a 1 s = respond q 0x010 stOk (List.replicate 8 0 ++ [poison]) (violate 1024 false false r false a (touch a.toNat s)) := by
  have hgate : gate (touch a.toNat s) 1024 false .read a = some r := (congrFun (gate_congr rfl rfl rfl) 1024) ▸ h
  have hwords : readWords 1024 false true 1 a s = ([none], violate 1024 false false r false a (touch a.toNat s)) := by
    simp [readWords, masterDebug, hgate]
  have hvalid : validity [none] = List.replicate 8 0 ++ [poison] := by decide
  simp only [serveRead, hwords, hvalid]

/-- R498, R564: it is answered with poison, and only what a refusal writes differs. -/
theorem read_refused (hw : s.wf) (hm : mayServe s q [.monitor] false) (a : Word) (r : Nat × Nat)
    (hfree : blockedAt s 1024 0 a.toNat = false) (h : gate s 1024 false .read a = some r) :
    ∃ t, exec (.read q a 1) s = .next t ∧ answered s t q 0x010 0 (List.replicate 8 0 ++ [poison]) ∧ t.mem = s.mem
      ∧ regsKeptF [gateStatus, gateCnt, cmpStatus] s t := by
  obtain ⟨se, ne, hexec⟩ := arrive_served (h := .read a 1) true true _ hm nofun rfl rfl
  have hserve := serveRead_refused q a r (untouched (bookkept se ne s)) (by rw [gate_untouched, gate_bookkept]; exact h)
  have hrec := violate_refusing 1024 false false r false a (touch a.toNat (untouched (bookkept se ne s)))
  have htouched : (serveRead q a 1 (untouched (bookkept se ne s))).tk.touched = [a.toNat] := by
    rw [hserve]; exact hrec.touched
  refine ⟨_, hexec, ?_⟩
  rw [memRequest_free (by rw [htouched, blockedAt_bookkept]; simpa using hfree), hserve]
  exact ⟨congrArg (· ++ [_]) hrec.out, hrec.mem, hrec.regs hw.1⟩

/-- R563: an ECHO. -/
theorem echo_answers (hm : mayServe s q [] false) (ws : List Word) :
    (ws.length ≤ 16 → ∃ t, exec (.echo q ws) s = .next t ∧ onlyAnswers s t ∧ answered s t q 0x002 0 ws)
    ∧ (16 < ws.length → ∃ t, exec (.echo q ws) s = .next t ∧ onlyAnswers s t ∧ answered s t q 0x002 0x020 []) := by
  constructor
  · intro hlen
    obtain ⟨se, ne, hexec⟩ := arrive_served (h := .echo ws) (ws.length ≤ 16) true _ hm nofun (by simpa using hlen) rfl
    exact ⟨_, hexec, respond_answers ..⟩
  · intro hlen
    obtain ⟨se, ne, hexec⟩ := arrive_misformed (h := .echo ws) (ws.length ≤ 16) true _ hm nofun (by simpa using hlen)
    exact ⟨_, hexec, respond_answers ..⟩

/-- R564: a READ of no word or of more than 256. -/
theorem read_outOfRange (hm : mayServe s q [.monitor] false) (a : Word) (n : Nat) (hn : n = 0 ∨ 256 < n) :
    ∃ t, exec (.read q a n) s = .next t ∧ onlyAnswers s t ∧ answered s t q 0x010 0x022 [] := by
  obtain ⟨se, ne, hexec⟩ := arrive_outOfRange (h := .read a n) true (1 ≤ n && n ≤ 256) _ hm nofun rfl
    (by rcases hn with rfl | hn <;> simp; omega)
  exact ⟨_, hexec, respond_answers ..⟩

/-- R574: LOG. -/
theorem log_answers (hm : mayServe s q [.monitor] false) (a : Word) (n : Nat) (h1 : 1 ≤ n) (hn : n ≤ 64) :
    ∃ t, exec (.log q a n) s = .next t ∧ onlyAnswers s t
      ∧ answered s t q 0x011 0 (((s.log.filter fun l => a.toNat ≤ l.seq).take n).flatMap logWords) := by
  obtain ⟨se, ne, hexec⟩ := arrive_served (h := .log a n) true (1 ≤ n && n ≤ 64) _ hm nofun rfl (by simp [h1, hn])
  exact ⟨_, hexec, respond_answers ..⟩

/-- R570: TELEM. -/
theorem telem_answers (hm : mayServe s q [.monitor] false) :
    ∃ t, exec (.telem q) s = .next t ∧ onlyAnswers s t ∧ answered s t q 0x012 0 s.telem.set := by
  obtain ⟨se, ne, hexec⟩ := arrive_served (h := .telem) true true _ hm nofun rfl rfl
  exact ⟨_, hexec, respond_answers ..⟩

/-- R563: PMUCFG of a stream, or of no stream. -/
theorem pmucfg_answers (hm : mayServe s q [.monitor] false) (n : Nat) :
    (n < 8 → ∃ t, exec (.pmucfg q n) s = .next t ∧ onlyAnswers s t ∧ answered s t q 0x013 0 (configFrame s n 6))
    ∧ (8 ≤ n → ∃ t, exec (.pmucfg q n) s = .next t ∧ onlyAnswers s t ∧ answered s t q 0x013 0x022 []) := by
  constructor
  · intro hn
    obtain ⟨se, ne, hexec⟩ := arrive_served (h := .pmucfg n) true (n < 8) _ hm nofun rfl (by simpa using hn)
    exact ⟨_, hexec, respond_answers ..⟩
  · intro hn
    obtain ⟨se, ne, hexec⟩ := arrive_outOfRange (h := .pmucfg n) true (n < 8) _ hm nofun rfl (by simpa using hn)
    exact ⟨_, hexec, respond_answers ..⟩

end Sys2Proof.Machine

namespace Sys2Proof.Machine

/-- Settles O40: each command is served in the state it finds, after the bookkeeping of its session, and a READ takes its points. -/
theorem readingCommandsAnswer : Obligations.ReadingCommandsAnswer := by
  unfold Obligations.ReadingCommandsAnswer
  refine fun q s hw => ⟨fun hm => ⟨ident_answers hm, fun ws => (echo_answers hm ws).1, fun ws => (echo_answers hm ws).2⟩, fun hm => ?_⟩
  exact ⟨status_answers hm, read_granted hm, read_refused hw hm, read_outOfRange hm, log_answers hm, telem_answers hm,
    fun n => (pmucfg_answers hm n).1, fun n => (pmucfg_answers hm n).2⟩

end Sys2Proof.Machine
end

section
/-! SUPPORT. PEEK, TAKE, POKE and REGS (R512, R578, R579). -/

namespace Sys2Proof.Machine

/-! Answers to debug commands. -/

theorem answer_eq (q : Rq) (st seq : Nat) (ws : List Word) (s : State) :
    answer q st seq ws s = respond q 0x052 stOk (debugWords st seq ws) s := rfl

/-- R555, R578: a debug request that accesses words is served at its session's level. -/
theorem debugAccess_served {q : Rq} {h : HostReq} {s : State} {excl range : Bool} (m : Nat → MemReq) (f : Nat → State → State)
    (hm : mayServe s q h.roles excl) (he : h.excl = true → excl = true) (hr : range = true) :
    ∃ se ne, arrive q h (debugAccess q h range m f) s
      = .next (memRequest (serving q (.held (m (debugLevel s q.sess)))) masterDebug (f (debugLevel s q.sess)) (bookkept se ne s)) :=
  arrive_served true range _ hm he rfl hr

theorem debugAccess_outOfRange {q : Rq} {h : HostReq} {s : State} {excl range : Bool} (m : Nat → MemReq) (f : Nat → State → State)
    (hm : mayServe s q h.roles excl) (he : h.excl = true → excl = true) (hr : range = false) :
    ∃ se ne, arrive q h (debugAccess q h range m f) s = .next (respond q h.code stRange [] (bookkept se ne s)) :=
  arrive_outOfRange true range _ hm he rfl hr

/-- R31: a request that accesses no word is answered at once. -/
theorem memRequest_bare {q : Rq} {m : Nat} {f : State → State} {s : State} {se : List (Nat × HostSess)} {ne : NetUse}
    {code status : Nat} {ws : List Word} (w : HostWait)
    (hf : f (untouched (bookkept se ne s)) = respond q code status ws (untouched (bookkept se ne s))) :
    onlyServes s (memRequest w m f (bookkept se ne s)) ∧ answered s (memRequest w m f (bookkept se ne s)) q code status ws :=
  memRequest_answers_bookkept (as := []) ⟨s.served, hf⟩ nofun w

/-! Words read. -/

/-- R578: the words that a debug request is granted answer it with status 0, peeked, or taken without an error. -/
theorem answerRead_granted (q : Rq) (secure peek : Bool) (a : Word) (n : Nat) (s : State)
    (h : ∀ i < n, isShared (a.toNat + i) = true ∧ (peek = true ∨ chkOf s (a.toNat + i) = .ok)
      ∧ gate s masterDebug secure (if peek then .peek else .read) (a + BitVec.ofNat 36 i) = none) :
    ∃ sv, answerRead q (readWords masterDebug secure peek n a (untouched s)) = respond q 0x052 stOk
      (debugWords 0 0 (validity ((List.range n).map fun i => some (peekMem s (a.toNat + i)))))
      (accessed sv (List.range' a.toNat n).reverse (untouched s)) := by
  obtain ⟨sv, hr⟩ := readWords_granted masterDebug secure peek n a (untouched s)
    fun i hi => ⟨(h i hi).1, (h i hi).2.1, by rw [gate_untouched, beq_self_eq_true, Bool.and_true]; exact (h i hi).2.2⟩
  have hall : ((List.range' a.toNat n).map fun b => some (peekMem (untouched s) b)).all (·.isSome) = true := by simp
  refine ⟨sv, ?_⟩
  rw [hr, answerRead, hall, ← validity_range' (fun b => some (peekMem s b))]
  simp only [untouched, List.append_nil]
  rfl

section
variable {q : Rq} {s : State} (hm : mayServe s q [.service] false) (a : Word) (n : Nat)
include hm

/-- R31, R578: a PEEK of granted words. -/
theorem peek_granted (h1 : 1 ≤ n) (hn : n ≤ 256)
    (h : ∀ i < n, isShared (a.toNat + i) = true
      ∧ gate s masterDebug (debugLevel s q.sess == 3) .peek (a + BitVec.ofNat 36 i) = none) :
    (pointsFree s masterDebug 0 a.toNat n → ∃ t, exec (.peek q a n) s = .next t ∧ onlyServes s t ∧ answered s t q 0x052 0
      (debugWords 0 0 (validity ((List.range n).map fun i => some (peekMem s (a.toNat + i))))))
    ∧ (¬ pointsFree s masterDebug 0 a.toNat n →
      ∃ t, exec (.peek q a n) s = .next t ∧ waits s t q (.peek a n (debugLevel s q.sess))) := by
  obtain ⟨se, ne, hexec⟩ := debugAccess_served (h := .peek a n) (range := countOk n) (.peek a n) (servePeek q a n) hm nofun
    (by simp [countOk, h1, hn])
  have hwords := answerRead_granted q (debugLevel s q.sess == 3) true a n (bookkept se ne s) fun i hi =>
    ⟨(h i hi).1, .inl rfl, by rw [gate_bookkept]; exact (h i hi).2⟩
  exact ⟨fun hfree => ⟨_, hexec, memRequest_answers_bookkept hwords ((pointsFree_iff ..).1 hfree) _⟩,
    fun htaken => ⟨_, hexec, memRequest_waits_bookkept hwords ((not_pointsFree_iff ..).1 htaken) _⟩⟩

/-- R578: a PEEK of no word or of more than 256. -/
theorem peek_outOfRange (hn : n = 0 ∨ 256 < n) :
    ∃ t, exec (.peek q a n) s = .next t ∧ onlyAnswers s t ∧ answered s t q 0x052 0x022 [] := by
  obtain ⟨se, ne, hexec⟩ := debugAccess_outOfRange (h := .peek a n) (range := countOk n) (.peek a n) (servePeek q a n) hm nofun
    (by rcases hn with rfl | hn <;> simp [countOk]; omega)
  exact ⟨_, hexec, respond_answers ..⟩

/-- R578, R579: a TAKE. -/
theorem take_answers (h1 : 1 ≤ n) (hn : n ≤ 256) : ∃ t, exec (.take q a n) s = .next t
    ∧ (debugLevel s q.sess < 2 → onlyServes s t ∧ answered s t q 0x052 0 (debugWords 2 0 []))
    ∧ (2 ≤ debugLevel s q.sess → namesTrailing s a n = true → onlyServes s t ∧ answered s t q 0x052 0 (debugWords 6 0 []))
    ∧ (2 ≤ debugLevel s q.sess → namesTrailing s a n = false → pointsFree s masterDebug 0 a.toNat n →
      (∀ i < n, isShared (a.toNat + i) = true ∧ chkOf s (a.toNat + i) = .ok
        ∧ gate s masterDebug (debugLevel s q.sess == 3) .read (a + BitVec.ofNat 36 i) = none) →
      onlyServes s t ∧ answered s t q 0x052 0 (debugWords 0 0 (validity ((List.range n).map fun i => some (memGet s (a.toNat + i)))))) := by
  obtain ⟨se, ne, hexec⟩ := debugAccess_served (h := .take a n) (range := countOk n) (.take a n) (serveTake q a n) hm nofun
    (by simp [countOk, h1, hn])
  refine ⟨_, hexec, fun hl => ?_, fun hl ht => ?_, fun hl ht hfree h => ?_⟩
  · exact memRequest_bare _ (by rw [serveTake, if_pos hl]; rfl)
  · have ht' : namesTrailing (untouched (bookkept se ne s)) a n = true := ht
    exact memRequest_bare _ (by rw [serveTake, if_neg (by omega), if_pos ht']; rfl)
  · have ht' : ¬ namesTrailing (untouched (bookkept se ne s)) a n = true := by rw [Bool.not_eq_true]; exact ht
    have hpeek : ∀ i ∈ List.range n, some (memGet s (a.toNat + i)) = some (peekMem s (a.toNat + i)) := fun i hi => by
      simp [peekMem, (h i (List.mem_range.1 hi)).2.1]
    rw [List.map_congr_left hpeek]
    have hwords := answerRead_granted q (debugLevel s q.sess == 3) false a n (bookkept se ne s) fun i hi =>
      ⟨(h i hi).1, .inr (h i hi).2.1, by rw [gate_bookkept]; exact (h i hi).2.2⟩
    refine memRequest_answers_bookkept ?_ ((pointsFree_iff ..).1 hfree) _
    rw [serveTake, if_neg (by omega), if_neg ht']
    exact hwords
end

/-! Words written. -/

/-- A memory with the words `ws` written from address `b` on. -/
def putWords : Nat → List Word → List (Nat × Word) → List (Nat × Word)
  | _, [], m => m
  | b, w :: ws, m => putWords (b + 1) ws (tabSet 0 m b w)

theorem tabGet_putWords_outside (b : Nat) (ws : List Word) (m : List (Nat × Word)) (h : rising m) (c : Nat)
    (hc : c < b ∨ b + ws.length ≤ c) : tabGet 0 (putWords b ws m) c = tabGet 0 m c := by
  induction ws generalizing b m with
  | nil => rfl
  | cons w ws ih =>
    rw [List.length_cons] at hc
    rw [putWords, ih _ _ (tabSet_rising _ _ _ _ h) (by omega), tabGet_tabSet_other _ _ _ _ _ _ h (by omega)]

theorem tabGet_putWords_inside (b : Nat) (ws : List Word) (m : List (Nat × Word)) (h : rising m) (i : Nat) (hi : i < ws.length) :
    tabGet 0 (putWords b ws m) (b + i) = ws.getD i 0 := by
  induction ws generalizing b m i with
  | nil => simp at hi
  | cons w ws ih =>
    have h' := tabSet_rising 0 m b w h
    cases i with
    | zero => rw [putWords, tabGet_putWords_outside _ _ _ h' _ (by omega), Nat.add_zero, tabGet_tabSet_same _ _ _ _ h]; rfl
    | succ i =>
      rw [putWords, show b + (i + 1) = b + 1 + i by omega, ih _ _ h' _ (by simpa using hi)]
      rfl

theorem writeMapped_shared (m a : Nat) (v : Word) (s : State) (hm : 1024 ≤ m) (ha : isShared a = true) :
    writeMapped m a v s = memSet s a v := by
  have hl : isLocal a = false := by
    simp only [isShared, decide_eq_true_eq] at ha
    simp only [isLocal, Bool.and_eq_false_iff, decide_eq_false_iff_not]
    omega
  simp [writeMapped, memWrite, ha, hl, Nat.not_lt.2 hm]

/-- R578: words written in ascending order of their shared addresses change those words alone, and take their points. -/
theorem pokes_shared (b : Nat) (ws : List Word) (s : State) (h : ∀ c ∈ List.range' b ws.length, isShared c = true) :
    ∃ ck sv, (ws.mapIdx fun i w => (b + i, w)).foldl (fun t x => writeMapped masterDebug x.1 x.2 (touch x.1 t)) s
      = accessed sv ((List.range' b ws.length).reverse ++ s.tk.touched) { s with mem := putWords b ws s.mem, chk := ck } := by
  induction ws generalizing b s with
  | nil => exact ⟨s.chk, s.served, rfl⟩
  | cons w ws ih =>
    obtain ⟨hb, htail⟩ := List.forall_mem_cons.1 h
    obtain ⟨ck, sv, hrest⟩ := ih (b + 1) (memSet (touch b s) b w) htail
    refine ⟨ck, sv, ?_⟩
    have hshift : (fun i (v : Word) => (b + (i + 1), v)) = fun i v => (b + 1 + i, v) := by
      funext i v; rw [Nat.add_assoc, Nat.add_comm 1 i]
    rw [List.mapIdx_cons, List.foldl_cons, Nat.add_zero, writeMapped_shared _ _ _ _ (by decide) hb, hshift, hrest,
      List.length_cons, List.range'_succ, List.reverse_cons, List.append_assoc]
    rfl

theorem writeRefused_none (s : State) (secure : Bool) (n : Nat) (a : Word)
    (h : ∀ i < n, gate s masterDebug secure .write (a + BitVec.ofNat 36 i) = none) : writeRefused s secure n a = none := by
  induction n generalizing a with
  | zero => rfl
  | succ n ih =>
    have h0 : gate s masterDebug secure .write a = none := by simpa using h 0 n.succ_pos
    rw [writeRefused, h0]
    exact ih (a + 1) fun i hi => by rw [add_one_add]; exact h (i + 1) (Nat.succ_lt_succ hi)

theorem writeRefused_head (s : State) (secure : Bool) (n : Nat) (a : Word) (r : Nat × Nat) (hn : 1 ≤ n)
    (h : gate s masterDebug secure .write a = some r) : writeRefused s secure n a = some (a, r) := by
  cases n with
  | zero => omega
  | succ n => rw [writeRefused, h]

/-! A POKE. -/

section
variable (q : Rq) (a : Word) (ws : List Word) (l : Nat) (s : State)

/-- R578: one whose words are all granted is written and answered with status 0. -/
theorem servePoke_granted (hl : 2 ≤ l) (hb : debugBarred s = false) (ht : namesTrailing s a ws.length = false)
    (h : ∀ i < ws.length, isShared (a.toNat + i) = true ∧ gate s masterDebug (l == 3) .write (a + BitVec.ofNat 36 i) = none) :
    ∃ ck sv, servePoke q a ws l (untouched s) = respond q 0x052 stOk (debugWords 0 0 [])
      (accessed sv (List.range' a.toNat ws.length).reverse { untouched s with mem := putWords a.toNat ws s.mem, chk := ck }) := by
  have hb' : ¬ debugBarred (untouched s) = true := by rw [Bool.not_eq_true]; exact hb
  have ht' : ¬ namesTrailing (untouched s) a ws.length = true := by rw [Bool.not_eq_true]; exact ht
  obtain ⟨ck, sv, hput⟩ := pokes_shared a.toNat ws (untouched s) ((forall_range'_iff ..).2 fun i hi => (h i hi).1)
  refine ⟨ck, sv, ?_⟩
  have hnone := writeRefused_none (untouched s) (l == 3) ws.length a fun i hi => by rw [gate_untouched]; exact (h i hi).2
  simp only [servePoke, if_neg (Nat.not_lt.2 hl), if_neg hb', if_neg ht', hnone, hput, answer_eq]
  simp only [untouched, List.append_nil]

/-- R498, R578: one whose first word a gate refuses writes nothing, and answers status 1 with the number of the record. -/
theorem servePoke_refused (r : Nat × Nat) (hn : 1 ≤ ws.length) (hl : 2 ≤ l) (hb : debugBarred s = false)
    (ht : namesTrailing s a ws.length = false) (h : gate s masterDebug (l == 3) .write a = some r) :
    servePoke q a ws l s = respond q 0x052 stOk
      (debugWords 1 (violate masterDebug (l == 3) true r false a (touch a.toNat s)).tk.seq [])
      (violate masterDebug (l == 3) true r false a (touch a.toNat s)) := by
  simp [servePoke, Nat.not_lt.2 hl, hb, ht, writeRefused_head s (l == 3) ws.length a r hn h, answer_eq]
end

/-- R562, R578, R579: a POKE. -/
theorem poke_answers {q : Rq} {s : State} (hw : s.wf) (hm : mayServe s q [.service] false) (a : Word) (ws : List Word)
    (h1 : 1 ≤ ws.length) (hn : ws.length ≤ 256) : ∃ t, exec (.poke q a ws) s = .next t
    ∧ (debugLevel s q.sess < 2 → onlyServes s t ∧ answered s t q 0x052 0 (debugWords 2 0 []))
    ∧ (2 ≤ debugLevel s q.sess → debugBarred s = true → onlyServes s t ∧ answered s t q 0x052 0 (debugWords 3 0 []))
    ∧ (2 ≤ debugLevel s q.sess → debugBarred s = false → namesTrailing s a ws.length = false →
      pointsFree s masterDebug 0 a.toNat ws.length →
      (∀ i < ws.length, isShared (a.toNat + i) = true
        ∧ gate s masterDebug (debugLevel s q.sess == 3) .write (a + BitVec.ofNat 36 i) = none) →
      answered s t q 0x052 0 (debugWords 0 0 []) ∧ (∀ i < ws.length, memGet t (a.toNat + i) = ws.getD i 0)
        ∧ (∀ b, (∀ i < ws.length, b ≠ a.toNat + i) → memGet t b = memGet s b) ∧ t.regs = s.regs ∧ t.eng = s.eng)
    ∧ (∀ r, 2 ≤ debugLevel s q.sess → debugBarred s = false → namesTrailing s a ws.length = false →
      blockedAt s masterDebug 0 a.toNat = false → gate s masterDebug (debugLevel s q.sess == 3) .write a = some r →
      answered s t q 0x052 0 (debugWords 1 t.tk.seq []) ∧ (s.tk.viols = 0 → t.tk.seq = s.violSeq % 4096) ∧ t.mem = s.mem ∧ t.ts = s.ts
        ∧ t.violSeq = (s.violSeq + 1) % 4096 ∧ regsKeptF [gateStatus, gateCnt, cmpStatus] s t) := by
  obtain ⟨se, ne, hexec⟩ := debugAccess_served (h := .poke a ws) (range := countOk ws.length) (.poke a ws) (servePoke q a ws) hm nofun
    (by simp [countOk, h1, hn])
  refine ⟨_, hexec, fun hl => ?_, fun hl hb => ?_, fun hl hb ht hfree h => ?_, fun r hl hb ht hfree h => ?_⟩
  · exact memRequest_bare _ (by rw [servePoke, if_pos hl]; rfl)
  · have hb' : debugBarred (untouched (bookkept se ne s)) = true := hb
    exact memRequest_bare _ (by rw [servePoke, if_neg (Nat.not_lt.2 hl), if_pos hb']; rfl)
  · obtain ⟨ck, sv, hserve⟩ := servePoke_granted q a ws _ (bookkept se ne s) hl hb ht (by rw [gate_bookkept]; exact h)
    have hmem : rising s.mem := Memory.wf_rising hw.2.1
    rw [memRequest_free (by rw [hserve, blockedAt_bookkept]; exact (pointsFree_iff ..).1 hfree), hserve]
    refine ⟨rfl, fun i hi => tabGet_putWords_inside _ _ _ hmem i hi, fun b hb => tabGet_putWords_outside _ _ _ hmem b ?_, rfl, rfl⟩
    by_contra hin
    exact hb (b - a.toNat) (by omega) (by omega)
  · have hserve := servePoke_refused q a ws _ (untouched (bookkept se ne s)) r h1 hl hb ht (by rw [gate_untouched, gate_bookkept]; exact h)
    have hrec := violate_refusing masterDebug (debugLevel s q.sess == 3) true r false a (touch a.toNat (untouched (bookkept se ne s)))
    have htouched : (servePoke q a ws (debugLevel s q.sess) (untouched (bookkept se ne s))).tk.touched = [a.toNat] := by
      rw [hserve]; exact hrec.touched
    rw [memRequest_free (by rw [htouched, blockedAt_bookkept]; simpa using hfree), hserve]
    have hseq := violate_first_seq masterDebug (debugLevel s q.sess == 3) true r a (touch a.toNat (untouched (bookkept se ne s)))
    exact ⟨congrArg (· ++ [_]) hrec.out, fun hv => hseq hv (gate_rule_le h), hrec.mem, hrec.ts, violate_violSeq .., hrec.regs hw.1⟩

/-! REGS. -/

theorem stateWords_length (x : Engine) : (stateWords x).length = 71 := by simp [stateWords]

/-- R386, R578: an image, its plan position and the four entries of its loop stack. -/
theorem regsWords_length (s : State) (e : Nat) : (regsWords s e).length = 101 := by
  simp [regsWords, engineImage, stateWords_length]

section
variable (q : Rq) (e since : Nat) (s : State)

theorem serveRegs_resting (h : restsNow (engine s e) = true) :
    serveRegs q e since s = respond q 0x052 stOk (debugWords 0 0 (regsWords s e)) s := by
  simp [serveRegs, h, answer_eq]

theorem serveRegs_over (h : restsNow (engine s e) = false) (ht : since + 250000000 ≤ s.now) :
    serveRegs q e since s = respond q 0x052 stOk (debugWords 5 0 []) s := by
  simp [serveRegs, h, answer_eq, secTicks, ht]

theorem serveRegs_waiting (h : restsNow (engine s e) = false) (ht : s.now < since + 250000000) :
    serveRegs q e since s = { s with hostQ := s.hostQ ++ [serving q (.resting e since)] } := by
  simp [serveRegs, h, secTicks, ht]
end

/-- R578, R579: a REGS is answered for a resting engine, and waits for another. -/
theorem regs_answers {q : Rq} {s : State} (hm : mayServe s q [.service] false) (e : Nat) (he : e < 1028) :
    (restsNow (engine s e) = true → ∃ t, exec (.regs q e) s = .next t ∧ onlyAnswers s t
      ∧ answered s t q 0x052 0 (debugWords 0 0 (regsWords s e)))
    ∧ (restsNow (engine s e) = false → ∃ t, exec (.regs q e) s = .next t ∧ t.out = s.out
      ∧ t.hostQ = s.hostQ ++ [serving q (.resting e s.now)] ∧ t.eng = s.eng ∧ t.mem = s.mem ∧ t.regs = s.regs) := by
  obtain ⟨se, ne, hexec⟩ := arrive_served (h := .regs e) true (e < 1028) (fun s => serveRegs q e s.now s) hm nofun rfl (by simpa using he)
  constructor
  · intro hr
    rw [serveRegs_resting q e _ (bookkept se ne s) hr] at hexec
    exact ⟨_, hexec, respond_answers ..⟩
  · intro hr
    rw [serveRegs_waiting q e _ (bookkept se ne s) hr (Nat.lt_add_of_pos_right (by decide))] at hexec
    exact ⟨_, hexec, rfl, rfl, rfl, rfl, rfl⟩

end Sys2Proof.Machine
end

section
/-! SUPPORT. A tick in which nothing but the clocks and the requests that wait matures (R31, R301, R559). -/

namespace Sys2Proof.Machine

theorem foldl_fixed_mem {α β : Type} (f : α → β → α) (a : α) (l : List β) (h : ∀ b ∈ l, f a b = a) : l.foldl f a = a := by
  induction l with
  | nil => rfl
  | cons b t ih =>
    rw [List.foldl_cons, h b (List.mem_cons_self ..)]
    exact ih fun c hc => h c (List.mem_cons_of_mem _ hc)

theorem portOf_congr {s t : State} (h : t.ports = s.ports) : portOf t = portOf s := by funext p; rw [portOf, portOf, h]

/-! The parts of a tick. -/

section
variable {s : State}

/-- R31, R280: no deposit awaits its words and no operation owes any. -/
theorem endPorts_quiet (hp : ∀ p ∈ s.ports, (portOf s p.1).awaiting = []) (ho : s.owed = []) : endPorts s = s := by
  have hfold : s.ports.foldl (fun t p => decideDeposit p.1 (depositTick p.1 t)) s = s := foldl_fixed_mem _ _ _ fun p hpm => by
    simp [depositTick, wordZeroDue, decideDeposit, hp p hpm]
  rw [endPorts, hfold, serveOwed, ho]
  simp [← ho]

/-- R9: no update was put off by an access. -/
theorem applyHw_quiet (h : s.tk.hw = []) : applyHw s = { s with tk := {} } := by simp [applyHw, h]

/-- R150: no breach was detected in the tick before. -/
theorem breachTick_quiet (h : s.day.broken = false ∨ s.day.brokenAt ≠ s.now) : breachTick s = s := by
  rcases h with h | h <;> simp [breachTick, h]

theorem foldl_memSet_frame (l : List (Nat × Nat × Word)) (s : State) :
    ∃ mm ck, l.foldl (fun t m => memSet t m.2.1 m.2.2) s = { s with mem := mm, chk := ck } := by
  induction l generalizing s with
  | nil => exact ⟨s.mem, s.chk, rfl⟩
  | cons m l ih => exact ih (memSet s m.2.1 m.2.2)

/-- R205: writes that reach trailing engines change memory alone; with none on the way nothing changes. -/
theorem applyMirrors_frame (s : State) : ∃ mm ck mi, applyMirrors s = { s with mem := mm, chk := ck, mirrors := mi }
    ∧ (s.mirrors = [] → mm = s.mem ∧ ck = s.chk) := by
  cases h : s.mirrors with
  | nil => exact ⟨s.mem, s.chk, [], by simp [applyMirrors, h], fun _ => ⟨rfl, rfl⟩⟩
  | cons x l =>
    obtain ⟨mm, ck, hfold⟩ := foldl_memSet_frame (s.mirrors.filter (·.1 ≤ s.now)) { s with mirrors := s.mirrors.filter (fun m => s.now < m.1) }
    exact ⟨mm, ck, _, hfold, nofun⟩

/-- R325: no event is on its way. -/
theorem arriveEvents_quiet (h : s.arrivals = []) : arriveEvents s = s := by
  simp only [arriveEvents, h, List.filter_nil, List.foldl_nil]
  rw [← h]

/-- R301, R314, R331: a whole second changes the time unit's own notes while no holdover's bound grows. -/
theorem secondCarry_quiet (h : s.time.holdAt = none) : ∃ ti, secondCarry s = { s with time := ti } := by
  simp only [secondCarry, noteBound, modTime_time, h, noteSeconds]
  split
  · exact ⟨_, rfl⟩
  · exact ⟨_, rfl⟩

/-- R275: no posted descriptor waits to be read. -/
theorem portTicks_quiet {ps : List (Nat × Port)} (h : ∀ p ∈ ps, (portOf s p.1).posts = []) :
    ps.foldl (fun t p => portTick p.1 t) s = s :=
  foldl_fixed_mem _ _ _ fun p hp => by simp [portTick, h p hp]

/-- R220: no pair's registers are being copied. -/
theorem copies_quiet {ps : List (Nat × Pair)} (h : ∀ p ∈ ps, (pairOf s p.1).joined = false ∨ (pairOf s p.1).armed = true) :
    ps.foldl (fun t p => copyRegs p.1 t) s = s :=
  foldl_fixed_mem _ _ _ fun p hp => by rcases h p hp with h | h <;> simp [copyRegs, h]

end

/-! A quiet tick. -/

/-- The clocks one tick on, with the requests that retry in it (R31, R301). -/
def clocksPassed (s : State) : State :=
  { s with
    now := s.now + 1, time := clockTick (rateOf s) s.time
    day := if s.day.run then { s.day with tick := Nat.min (s.day.tick + 1) (dayT s) } else s.day
    waiters := s.waiters.filter fun w => s.now + 1 ≤ w.tick }

theorem passTick_eq (s : State) : passTick s =
    (let t := arriveEvents (applyMirrors (breachTick (applyHw (clocksPassed s))))
     if (clocksPassed s).time.sec != s.time.sec then secondCarry t else t) := rfl

theorem clocksPassed_breach (s : State) :
    (clocksPassed s).day.broken = s.day.broken ∧ (clocksPassed s).day.brokenAt = s.day.brokenAt := by
  simp only [clocksPassed]
  split <;> exact ⟨rfl, rfl⟩

/-- What a quiet tick changes (R205, R301): the clocks, the requests that retry, and words on their way to trailing engines. -/
def ticked (ti : Time) (dy : Day) (mm : List (Nat × Word)) (ck : List (Nat × Chk)) (mi : List (Nat × Nat × Word)) (s : State) : State :=
  { s with
    now := s.now + 1, time := ti, day := dy, mem := mm, chk := ck, mirrors := mi, tk := {}
    waiters := s.waiters.filter fun w => s.now + 1 ≤ w.tick }

/-- The same with the requests that wait taken out of the queue for their turns (R559). -/
def onTurn (ti : Time) (dy : Day) (mm : List (Nat × Word)) (ck : List (Nat × Chk)) (mi : List (Nat × Nat × Word)) (s : State) : State :=
  { ticked ti dy mm ck mi s with hostQ := [] }

theorem passTick_quiet {s : State} (hhw : s.tk.hw = []) (harr : s.arrivals = []) (hhold : s.time.holdAt = none)
    (hbreach : s.day.broken = false ∨ s.day.brokenAt ≠ s.now + 1) :
    ∃ ti dy mm ck mi, passTick s = ticked ti dy mm ck mi s ∧ (s.mirrors = [] → mm = s.mem ∧ ck = s.chk) := by
  obtain ⟨hbroken, hat⟩ := clocksPassed_breach s
  have hbreached : breachTick (applyHw (clocksPassed s)) = { clocksPassed s with tk := {} } := by
    rw [applyHw_quiet (s := clocksPassed s) hhw]
    exact breachTick_quiet (by rw [hbroken, hat]; exact hbreach)
  obtain ⟨mm, ck, mi, hmirror, hnone⟩ := applyMirrors_frame { clocksPassed s with tk := {} }
  have harrived : arriveEvents (applyMirrors (breachTick (applyHw (clocksPassed s))))
      = ticked (clocksPassed s).time (clocksPassed s).day mm ck mi s := by
    rw [hbreached, hmirror]
    exact arriveEvents_quiet harr
  obtain ⟨ti, hcarry⟩ := secondCarry_quiet (s := ticked (clocksPassed s).time (clocksPassed s).day mm ck mi s) hhold
  rw [passTick_eq, harrived]
  simp only
  split
  · exact ⟨ti, _, mm, ck, mi, hcarry, hnone⟩
  · exact ⟨_, _, mm, ck, mi, rfl, hnone⟩

/-- What makes a tick quiet, of a state whose waiting requests the statements set aside. -/
theorem quietTick_apart {s : State} (hq : quietTick { s with hostQ := [] }) :
    s.tk.hw = [] ∧ s.arrivals = [] ∧ s.ends = [] ∧ s.owed = [] ∧ s.time.holdAt = none ∧ s.boot.phasors = []
      ∧ (s.day.broken = false ∨ s.day.brokenAt ≠ s.now + 1) ∧ (∀ p ∈ s.ports, (portOf s p.1).posts = [] ∧ (portOf s p.1).awaiting = [])
      ∧ ∀ p ∈ s.pairs, (pairOf s p.1).joined = false ∨ (pairOf s p.1).armed = true := hq.2

theorem clockTick_eq (s : State) : exec .clockTick s =
    (let u := retryEnds (passTick (endPorts s))
     let t := u.hostQ.foldl takeTurn { u with hostQ := [] }
     .next (noteResults (t.pairs.foldl (fun t p => copyRegs p.1 t) (t.ports.foldl (fun t p => portTick p.1 t) t)))) := rfl

theorem retryEnds_quiet {s : State} (h : s.ends = []) : retryEnds s = s := by
  simp only [retryEnds, h, List.foldl_nil]
  rw [← h]

/-- R559: the one request that waits takes its turn. -/
theorem takeTurn_first {q : Rq} {h : HostReq} {s : State} (ho : sessOpen s q.sess = true) (hw : s.hostQ = []) :
    takeTurn s (serving q h) = serveWait (serving q h) s := by
  have hopen : sessOpen s (serving q h).sess = true := ho
  simp [takeTurn, hopen, inOrder, hw]

/-- R31, R559: in a quiet tick the one request that waits is served in the state that the tick has left, and nothing follows. -/
theorem clockTick_serves {s : State} (hq : quietTick { s with hostQ := [] }) {q : Rq} {h : HostReq} (hw : s.hostQ = [serving q h])
    (ho : sessOpen s q.sess = true) :
    ∃ ti dy mm ck mi, (s.mirrors = [] → mm = s.mem ∧ ck = s.chk) ∧
      ∀ t, serveWait (serving q h) (onTurn ti dy mm ck mi s) = t → t.ports = s.ports → t.pairs = s.pairs → t.boot = s.boot →
        exec .clockTick s = .next t := by
  obtain ⟨hhw, harr, hends, howed, hhold, hphasor, hbreach, hports, hpairs⟩ := quietTick_apart hq
  obtain ⟨ti, dy, mm, ck, mi, hpass, hnone⟩ := passTick_quiet hhw harr hhold hbreach
  refine ⟨ti, dy, mm, ck, mi, hnone, fun t ht hp hk hb => ?_⟩
  have hturn : (ticked ti dy mm ck mi s).hostQ.foldl takeTurn { ticked ti dy mm ck mi s with hostQ := [] } = t := by
    rw [show (ticked ti dy mm ck mi s).hostQ = [serving q h] from hw, ← ht]
    exact takeTurn_first (s := onTurn ti dy mm ck mi s) ho rfl
  have hposts : ∀ p ∈ t.ports, (portOf t p.1).posts = [] := by
    rw [portOf_congr hp, hp]; exact fun p hpm => (hports p hpm).1
  have hcopies : ∀ p ∈ t.pairs, (pairOf t p.1).joined = false ∨ (pairOf t p.1).armed = true := by
    rw [pairOf_congr hk, hk]; exact hpairs
  rw [clockTick_eq, endPorts_quiet (fun p hpm => (hports p hpm).2) howed, hpass,
    retryEnds_quiet (s := ticked ti dy mm ck mi s) hends]
  simp only [hturn, portTicks_quiet hposts, copies_quiet hcopies, noteResults, hb, hphasor, List.isEmpty_nil, if_true]

/-! Requests that wait through a quiet tick. -/

section
variable {q : Rq} {s : State} (ho : sessOpen s q.sess = true) (hq : quietTick { s with hostQ := [] })
include ho hq

/-- R31, R578: a PEEK whose points are free now is answered. -/
theorem clockTick_peek {a : Word} {n l : Nat} (hw : s.hostQ = [serving q (.held (.peek a n l))]) (hmir : s.mirrors = [])
    (h : ∀ i < n, isShared (a.toNat + i) = true ∧ gate s masterDebug (l == 3) .peek (a + BitVec.ofNat 36 i) = none)
    (hfree : pointsFree { s with now := s.now + 1 } masterDebug 0 a.toNat n) :
    ∃ t, exec .clockTick s = .next t ∧ t.hostQ = []
      ∧ answered s t q 0x052 0 (debugWords 0 0 (validity ((List.range n).map fun i => some (peekMem s (a.toNat + i))))) := by
  obtain ⟨ti, dy, mm, ck, mi, hnone, hserve⟩ := clockTick_serves hq hw ho
  obtain ⟨rfl, rfl⟩ := hnone hmir
  have hgate : gate (onTurn ti dy s.mem s.chk mi s) = gate s := gate_congr rfl rfl rfl
  have hpoints : blockedAt (onTurn ti dy s.mem s.chk mi s) = blockedAt { s with now := s.now + 1 } :=
    blockedAt_congr rfl rfl rfl rfl rfl rfl fun w hw => by
      have htick : w.tick = s.now + 1 := hw
      simp [onTurn, ticked, htick]
  have hwords := answerRead_granted q (l == 3) true a n (onTurn ti dy s.mem s.chk mi s) fun i hi =>
    ⟨(h i hi).1, .inl rfl, by rw [hgate]; exact (h i hi).2⟩
  obtain ⟨t, ht, honly, hans⟩ : ∃ t, serveWait (serving q (.held (.peek a n l))) (onTurn ti dy s.mem s.chk mi s) = t
      ∧ onlyServes (onTurn ti dy s.mem s.chk mi s) t ∧ answered s t q 0x052 0 _ :=
    ⟨_, rfl, memRequest_answers hwords (by rw [hpoints]; exact (pointsFree_iff ..).1 hfree) _⟩
  refine ⟨t, hserve t ht ?_ ?_ ?_, ?_, hans⟩ <;> rw [honly] <;> rfl

/-- R579: a REGS is answered once its engine rests, or with status 5 after 1 s, and waits till then. -/
theorem clockTick_regs {e n : Nat} (hw : s.hostQ = [serving q (.resting e n)]) : ∃ t, exec .clockTick s = .next t
    ∧ (restsNow (engine s e) = true → t.hostQ = [] ∧ ∃ ws, answered s t q 0x052 0 (debugWords 0 0 ws) ∧ ws.length = 101)
    ∧ (restsNow (engine s e) = false → n + 250000000 ≤ s.now + 1 → t.hostQ = [] ∧ answered s t q 0x052 0 (debugWords 5 0 []))
    ∧ (restsNow (engine s e) = false → s.now + 1 < n + 250000000 → t.hostQ = s.hostQ ∧ t.out = s.out) := by
  obtain ⟨ti, dy, mm, ck, mi, -, hserve⟩ := clockTick_serves hq hw ho
  cases hr : restsNow (engine s e) with
  | true =>
    exact ⟨_, hserve _ (serveRegs_resting q e n (onTurn ti dy mm ck mi s) hr) rfl rfl rfl,
      fun _ => ⟨rfl, _, rfl, regsWords_length ..⟩, nofun, nofun⟩
  | false =>
    by_cases ht : n + 250000000 ≤ s.now + 1
    · exact ⟨_, hserve _ (serveRegs_over q e n (onTurn ti dy mm ck mi s) hr ht) rfl rfl rfl,
        nofun, fun _ _ => ⟨rfl, rfl⟩, fun _ hlt => absurd ht (Nat.not_le.2 hlt)⟩
    · exact ⟨_, hserve _ (serveRegs_waiting q e n (onTurn ti dy mm ck mi s) hr (Nat.not_le.1 ht)) rfl rfl rfl,
        nofun, fun _ hle => absurd hle ht, fun _ _ => ⟨hw.symm, rfl⟩⟩
end

/-- Settles O36: a request that accesses words is served where its points are free and waits otherwise, and a quiet tick serves the one that
waits. -/
theorem debugReadsAndWrites : Obligations.DebugReadsAndWrites := by
  unfold Obligations.DebugReadsAndWrites
  refine fun q s hw => ⟨fun hm => ⟨peek_granted hm, peek_outOfRange hm, take_answers hm, poke_answers hw hm, regs_answers hm⟩,
    fun ho hq => ⟨fun a n l hwait hmir h hfree => clockTick_peek ho hq hwait hmir h hfree, fun e n hwait => clockTick_regs ho hq hwait⟩⟩

end Sys2Proof.Machine
end

section
/-! SUPPORT. A step of the machine and the state after reset (R18, R30, R464). -/

namespace Sys2Proof.Machine

theorem step_cons {s : State} {c : Instr} {rest : List Instr} (h : s.pending = c :: rest) :
    step s = exec c { s with pending := rest } := by
  rw [step, h]

theorem step_nil {s : State} (h : s.pending = []) : step s = .next s := by
  rw [step, h]

/-- Settles O1: by the two equations of `step`, one for each form of the queue. -/
theorem stepRunsTheFrontCommand : Obligations.StepRunsTheFrontCommand := fun _ => ⟨fun _ _ => step_cons, step_nil⟩

theorem reset_wf : State.reset.wf := wf_of (by decide +kernel)

theorem reset_bounded : State.reset.bounded := by
  refine ⟨by decide, by decide, by decide, by decide, by decide, by decide, by decide, by decide, fun e => ?_, fun k => ?_⟩
  · have he : engine State.reset e = {} := rfl
    rw [he]; decide
  · have hk : pairOf State.reset k = {} := rfl
    rw [hk]; decide

/-- MID_STATE after reset: the slot's letter, which the module is told from outside, and the code of DAYBREAK. -/
theorem viewReg_midState_reset : viewReg State.reset 1024 midState = word (0 * 2 ^ 8 + flagAt 7 (slotB State.reset) + flagAt 6 false + 1) :=
  rfl

theorem reset_shows_daybreak : slice (viewReg State.reset 1024 midState).toNat 2 0 = 1 := by
  rw [viewReg_midState_reset]
  cases slotB State.reset
  · decide
  · decide

/-- Settles O2: the reset state's tables are empty, so every look-up gives its default; the register values are read off. -/
theorem resetState : Obligations.ResetState := by
  unfold Obligations.ResetState
  refine ⟨⟨rfl, rfl, rfl, rfl, rfl, rfl, rfl, rfl, fun _ => rfl, fun _ => rfl, fun _ => rfl, reset_shows_daybreak, ?_, ?_, ?_, ?_, ?_, ?_⟩,
    reset_wf, reset_bounded⟩
  · decide
  · decide
  · decide
  · decide
  · decide
  · decide

end Sys2Proof.Machine
end

section
/-! SUPPORT. The claim of a module in BENCH (R394 to R396). -/

namespace Sys2Proof.Machine

/-- A BENCH module outside reset with its link inserted, whose partner is not seen and whose claim was yielded one recheck
period before. -/
def yieldedInBench : State :=
  { mst := .bench, now := 1250, nwt := { permit := true }, link := { yielded := some 0, inserted := true } }

theorem yieldedInBench_claims : exec .yieldRecheck yieldedInBench = .next (setLatch yieldedInBench) := rfl

theorem yieldedInBench_latched : (setLatch yieldedInBench).link.latch = true := rfl

/-- Refutes O5: a recheck of a yielded claim sets the latch of a module in BENCH, since it asks for the permit, the link and
a partner that is clear, and not for the module state. -/
theorem not_onlyListedTransitionsHappen : ¬ Obligations.OnlyListedTransitionsHappen := fun h =>
  absurd ((h _ _ _ yieldedInBench_claims).2 (.inl rfl) rfl) (by simp [yieldedInBench_latched])

end Sys2Proof.Machine
end

section
/-! SUPPORT. What a command keeps: the canonical form of the tables (R35) and what no engine reaches (R24, R66). The lemmas are
elaborated one after another: side by side the threads of so many pass the memory that a compile may take. -/

set_option Elab.async false

namespace Sys2Proof.Machine

/-- The parts that the canonical form and the custody of the module speak of. -/
def Link.held (l : Link) : Link :=
  { images := l.images, frozenImg := l.frozenImg, rx := l.rx, rxSweep := l.rxSweep, laneAt := l.laneAt, cloneTx := l.cloneTx
    latch := l.latch, own := l.own, part := l.part, estab := l.estab, claimDay := l.claimDay, confirmed := l.confirmed
    swRunning := l.swRunning, swReleased := l.swReleased }
/-- The parts that the canonical form and the custody of the module speak of. -/
def Time.held (t : Time) : Time := { mpd := t.mpd, mpdAt := t.mpdAt, far := t.far, pdelayAt := t.pdelayAt }
/-- The parts that the canonical form and the custody of the module speak of. -/
def Lio.held (x : Lio) : Lio := { tovlAt := x.tovlAt, loops := x.loops, chans := x.chans }
/-- The parts that the canonical form and the custody of the module speak of. -/
def Saf.held (x : Saf) : Saf := { pulse := x.pulse, drives := x.drives, conns := x.conns, inputs := x.inputs }
/-- The parts that the canonical form and the custody of the module speak of. -/
def Day.held (d : Day) : Day := { midRegions := d.midRegions, run := d.run }

/-- The state with nothing but the tables of the canonical form. -/
def bare (s : State) : State :=
  { regs := s.regs, mem := s.mem, chk := s.chk, ts := s.ts, priv := s.priv, eng := s.eng, sup := s.sup, pairs := s.pairs
    ports := s.ports, latch := s.latch, sess := s.sess, speeds := s.speeds, served := s.served
    link := { images := s.link.held.images, frozenImg := s.link.held.frozenImg, rx := s.link.held.rx
              rxSweep := s.link.held.rxSweep, laneAt := s.link.held.laneAt, cloneTx := s.link.held.cloneTx }
    time := s.time.held
    net := { tlsAt := s.net.tlsAt, echoes := s.net.echoes }
    lio := s.lio.held
    saf := s.saf.held
    fpd := { panel := s.fpd.panel }
    sig := { chans := s.sig.chans }
    c37 := { streams := s.c37.streams, remotes := s.c37.remotes, invalid := s.c37.invalid }
    boot := { slots := s.boot.slots }
    tk := { sets := s.tk.sets }
    day := { midRegions := s.day.held.midRegions } }

theorem wf_bare (s : State) : (bare s).wf ↔ s.wf := Iff.rfl

theorem wf_congr {s t : State} (e : bare t = bare s) (h : s.wf) : t.wf := by
  rw [← wf_bare, e, wf_bare]; exact h

/-- The state with nothing but what no engine may reach (R24, R66): the module state, the mandate, the vault, the grant, the
sessions, the flash and the commands that wait. -/
def custody (s : State) : State :=
  { pending := s.pending, mst := s.mst, mlast := s.mlast, stopReq := s.stopReq, stopActivate := s.stopActivate
    boot := s.boot, vault := s.vault, grant := s.grant, sess := s.sess
    nwt := { permit := s.nwt.permit }
    day := { run := s.day.held.run }
    link := { latch := s.link.held.latch, own := s.link.held.own, part := s.link.held.part, estab := s.link.held.estab
              claimDay := s.link.held.claimDay, confirmed := s.link.held.confirmed, swRunning := s.link.held.swRunning
              swReleased := s.link.held.swReleased } }

/-- The canonical form with its parts named. -/
structure Canonical (s : State) : Prop where
  regs : rising s.regs
  mem : Memory.wf s.mem = true
  chk : rising s.chk
  ts : rising s.ts
  priv : rising s.priv
  eng : rising s.eng
  sup : rising s.sup
  pairs : rising s.pairs
  ports : rising s.ports
  latch : rising s.latch
  sess : rising s.sess
  speeds : rising s.speeds
  served : rising s.served
  images : rising s.link.images
  frozenImg : rising s.link.frozenImg
  rx : rising s.link.rx
  rxSweep : rising s.link.rxSweep
  laneAt : rising s.link.laneAt
  cloneTx : rising s.link.cloneTx
  mpd : rising s.time.mpd
  mpdAt : rising s.time.mpdAt
  far : rising s.time.far
  tlsAt : rising s.net.tlsAt
  echoes : rising s.net.echoes
  tovlAt : rising s.lio.tovlAt
  loops : rising s.lio.loops
  pulse : rising s.saf.pulse
  panel : rising s.fpd.panel
  chans : rising s.lio.chans
  drives : rising s.saf.drives
  conns : rising s.saf.conns
  inputs : rising s.saf.inputs
  sigChans : rising s.sig.chans
  streams : rising s.c37.streams
  remotes : rising s.c37.remotes
  slots : rising s.boot.slots
  invalid : rising s.c37.invalid
  pdelayAt : rising s.time.pdelayAt
  sets : rising s.tk.sets
  engW : ∀ p ∈ s.eng, rising p.2.w
  midRegions : ∀ w ∈ s.day.midRegions, 0x040C1000 ≤ w.1 ∧ w.1 < 0x040D0000

theorem wf_iff_canonical (s : State) : s.wf ↔ Canonical s := by
  unfold State.wf
  constructor
  · rintro ⟨h1, h2, h3, h4, h5, h6, h7, h8, h9, h10, h11, h12, h13, h14, h15, h16, h17, h18, h19, h20, h21, h22, h23, h24,
      h25, h26, h27, h28, h29, h30, h31, h32, h33, h34, h35, h36, h37, h38, h39, h40, h41⟩
    exact ⟨h1, h2, h3, h4, h5, h6, h7, h8, h9, h10, h11, h12, h13, h14, h15, h16, h17, h18, h19, h20, h21, h22, h23, h24,
      h25, h26, h27, h28, h29, h30, h31, h32, h33, h34, h35, h36, h37, h38, h39, h40, h41⟩
  · rintro ⟨h1, h2, h3, h4, h5, h6, h7, h8, h9, h10, h11, h12, h13, h14, h15, h16, h17, h18, h19, h20, h21, h22, h23, h24,
      h25, h26, h27, h28, h29, h30, h31, h32, h33, h34, h35, h36, h37, h38, h39, h40, h41⟩
    exact ⟨h1, h2, h3, h4, h5, h6, h7, h8, h9, h10, h11, h12, h13, h14, h15, h16, h17, h18, h19, h20, h21, h22, h23, h24,
      h25, h26, h27, h28, h29, h30, h31, h32, h33, h34, h35, h36, h37, h38, h39, h40, h41⟩

theorem tabGet_all {α : Type} {p : α → Prop} (d : α) (l : List (Nat × α)) (k : Nat) (hd : p d) (h : ∀ x ∈ l, p x.2) : p
    (tabGet d l k) := by
  induction l with
  | nil => exact hd
  | cons q t ih =>
    simp only [tabGet]
    split
    · exact h q (by simp)
    · split
      · exact hd
      · exact ih fun x hx => h x (by simp [hx])

theorem tabSet_all {α : Type} [DecidableEq α] {p : α → Prop} (d : α) (l : List (Nat × α)) (k : Nat) (v : α) (h : ∀ x ∈ l, p x.2)
    (hv : p v) :
    ∀ x ∈ tabSet d l k v, p x.2 := by
  induction l with
  | nil =>
    intro x hx
    simp only [tabSet] at hx
    split at hx
    · cases hx
    · rw [List.mem_singleton.1 hx]; exact hv
  | cons q t ih =>
    have ht : ∀ x ∈ t, p x.2 := fun x hx => h x (by simp [hx])
    intro x hx
    simp only [tabSet] at hx
    split at hx
    · split at hx
      · exact h x hx
      · rcases List.mem_cons.1 hx with rfl | hx
        · exact hv
        · exact h x hx
    · split at hx
      · split at hx
        · exact ht x hx
        · rcases List.mem_cons.1 hx with rfl | hx
          · exact hv
          · exact ht x hx
      · rcases List.mem_cons.1 hx with rfl | hx
        · exact h _ (by simp)
        · exact ih ht x hx

/-- Whom a lemma speaks of: what engines do, which leaves the custody alone, or what the whole module does. -/
inductive Scope | engine | module

/-- From `r`, `s` has been reached by operations that keep the canonical form and, where only engines acted, the custody. -/
structure Kept (c : Scope) (r s : State) : Prop where
  wf : r.wf → s.wf
  custody : c = .engine → custody s = custody r

variable {c : Scope} {r s t : State}

protected theorem Kept.refl (c : Scope) (s : State) : Kept c s s := ⟨id, fun _ => rfl⟩

protected theorem Kept.same (h : Kept c r s) (eb : bare t = bare s := by rfl) (ec : Machine.custody t = Machine.custody s :=
    by rfl) : Kept c r t :=
  ⟨fun hr => wf_congr eb (h.wf hr), fun hc => ec.trans (h.custody hc)⟩

protected theorem Kept.sameTables (h : Kept .module r s) (eb : bare t = bare s := by rfl) : Kept .module r t :=
  ⟨fun hr => wf_congr eb (h.wf hr), fun hc => nomatch hc⟩

protected theorem Kept.canonical (h : Kept c r s) (hr : r.wf) : Canonical s := (wf_iff_canonical s).1 (h.wf hr)

protected theorem Kept.regs {l : List (Nat × Word)} (h : Kept c r s) (hl : Canonical s → rising l) : Kept c r
    { s with regs := l } :=
  ⟨fun hr => have k := h.canonical hr; wf_iff_canonical _ |>.2 { k with regs := hl k }, h.custody⟩
protected theorem Kept.mem {l : List (Nat × Word)} (h : Kept c r s) (hl : Canonical s → Memory.wf l = true) : Kept c r
    { s with mem := l } :=
  ⟨fun hr => have k := h.canonical hr; wf_iff_canonical _ |>.2 { k with mem := hl k }, h.custody⟩
protected theorem Kept.chk {l : List (Nat × Chk)} (h : Kept c r s) (hl : Canonical s → rising l) : Kept c r { s with chk := l } :=
  ⟨fun hr => have k := h.canonical hr; wf_iff_canonical _ |>.2 { k with chk := hl k }, h.custody⟩
protected theorem Kept.ts {l : List (Nat × TsWord)} (h : Kept c r s) (hl : Canonical s → rising l) : Kept c r
    { s with ts := l } :=
  ⟨fun hr => have k := h.canonical hr; wf_iff_canonical _ |>.2 { k with ts := hl k }, h.custody⟩
protected theorem Kept.priv {l : List (Nat × Word)} (h : Kept c r s) (hl : Canonical s → rising l) : Kept c r
    { s with priv := l } :=
  ⟨fun hr => have k := h.canonical hr; wf_iff_canonical _ |>.2 { k with priv := hl k }, h.custody⟩
protected theorem Kept.sup {l : List (Nat × Sup)} (h : Kept c r s) (hl : Canonical s → rising l) : Kept c r { s with sup := l } :=
  ⟨fun hr => have k := h.canonical hr; wf_iff_canonical _ |>.2 { k with sup := hl k }, h.custody⟩
protected theorem Kept.pairs {l : List (Nat × Pair)} (h : Kept c r s) (hl : Canonical s → rising l) : Kept c r
    { s with pairs := l } :=
  ⟨fun hr => have k := h.canonical hr; wf_iff_canonical _ |>.2 { k with pairs := hl k }, h.custody⟩
protected theorem Kept.ports {l : List (Nat × Port)} (h : Kept c r s) (hl : Canonical s → rising l) : Kept c r
    { s with ports := l } :=
  ⟨fun hr => have k := h.canonical hr; wf_iff_canonical _ |>.2 { k with ports := hl k }, h.custody⟩
protected theorem Kept.latch {l : List (Nat × Word)} (h : Kept c r s) (hl : Canonical s → rising l) : Kept c r
    { s with latch := l } :=
  ⟨fun hr => have k := h.canonical hr; wf_iff_canonical _ |>.2 { k with latch := hl k }, h.custody⟩
protected theorem Kept.speeds {l : List (Nat × List Nat)} (h : Kept c r s) (hl : Canonical s → rising l) : Kept c r
    { s with speeds := l } :=
  ⟨fun hr => have k := h.canonical hr; wf_iff_canonical _ |>.2 { k with speeds := hl k }, h.custody⟩
protected theorem Kept.served {l : List (Nat × Nat)} (h : Kept c r s) (hl : Canonical s → rising l) : Kept c r
    { s with served := l } :=
  ⟨fun hr => have k := h.canonical hr; wf_iff_canonical _ |>.2 { k with served := hl k }, h.custody⟩
protected theorem Kept.sess {l : List (Nat × HostSess)} (h : Kept .module r s) (hl : Canonical s → rising l) : Kept .module r
    { s with sess := l } :=
  ⟨fun hr => have k := h.canonical hr; wf_iff_canonical _ |>.2 { k with sess := hl k }, fun hc => nomatch hc⟩
protected theorem Kept.images {l : List (Nat × List Word)} (h : Kept c r s) (hl : Canonical s → rising l) :
    Kept c r { s with link := { s.link with images := l } } :=
  ⟨fun hr => have k := h.canonical hr; wf_iff_canonical _ |>.2 { k with images := hl k }, h.custody⟩
protected theorem Kept.frozenImg {l : List (Nat × List Word)} (h : Kept c r s) (hl : Canonical s → rising l) :
    Kept c r { s with link := { s.link with frozenImg := l } } :=
  ⟨fun hr => have k := h.canonical hr; wf_iff_canonical _ |>.2 { k with frozenImg := hl k }, h.custody⟩
protected theorem Kept.rx {l : List (Nat × List Word)} (h : Kept c r s) (hl : Canonical s → rising l) :
    Kept c r { s with link := { s.link with rx := l } } :=
  ⟨fun hr => have k := h.canonical hr; wf_iff_canonical _ |>.2 { k with rx := hl k }, h.custody⟩
protected theorem Kept.rxSweep {l : List (Nat × List Word)} (h : Kept c r s) (hl : Canonical s → rising l) :
    Kept c r { s with link := { s.link with rxSweep := l } } :=
  ⟨fun hr => have k := h.canonical hr; wf_iff_canonical _ |>.2 { k with rxSweep := hl k }, h.custody⟩
protected theorem Kept.laneAt {l : List (Nat × Nat)} (h : Kept c r s) (hl : Canonical s → rising l) :
    Kept c r { s with link := { s.link with laneAt := l } } :=
  ⟨fun hr => have k := h.canonical hr; wf_iff_canonical _ |>.2 { k with laneAt := hl k }, h.custody⟩
protected theorem Kept.cloneTx {l : List (Nat × Nat)} (h : Kept c r s) (hl : Canonical s → rising l) :
    Kept c r { s with link := { s.link with cloneTx := l } } :=
  ⟨fun hr => have k := h.canonical hr; wf_iff_canonical _ |>.2 { k with cloneTx := hl k }, h.custody⟩
protected theorem Kept.mpd {l : List (Nat × Nat)} (h : Kept c r s) (hl : Canonical s → rising l) :
    Kept c r { s with time := { s.time with mpd := l } } :=
  ⟨fun hr => have k := h.canonical hr; wf_iff_canonical _ |>.2 { k with mpd := hl k }, h.custody⟩
protected theorem Kept.mpdAt {l : List (Nat × Nat)} (h : Kept c r s) (hl : Canonical s → rising l) :
    Kept c r { s with time := { s.time with mpdAt := l } } :=
  ⟨fun hr => have k := h.canonical hr; wf_iff_canonical _ |>.2 { k with mpdAt := hl k }, h.custody⟩
protected theorem Kept.far {l : List (Nat × Nat)} (h : Kept c r s) (hl : Canonical s → rising l) :
    Kept c r { s with time := { s.time with far := l } } :=
  ⟨fun hr => have k := h.canonical hr; wf_iff_canonical _ |>.2 { k with far := hl k }, h.custody⟩
protected theorem Kept.pdelayAt {l : List (Nat × Nat)} (h : Kept c r s) (hl : Canonical s → rising l) :
    Kept c r { s with time := { s.time with pdelayAt := l } } :=
  ⟨fun hr => have k := h.canonical hr; wf_iff_canonical _ |>.2 { k with pdelayAt := hl k }, h.custody⟩
protected theorem Kept.tlsAt {l : List (Nat × Nat)} (h : Kept c r s) (hl : Canonical s → rising l) :
    Kept c r { s with net := { s.net with tlsAt := l } } :=
  ⟨fun hr => have k := h.canonical hr; wf_iff_canonical _ |>.2 { k with tlsAt := hl k }, h.custody⟩
protected theorem Kept.echoes {l : List (Nat × List Nat)} (h : Kept c r s) (hl : Canonical s → rising l) :
    Kept c r { s with net := { s.net with echoes := l } } :=
  ⟨fun hr => have k := h.canonical hr; wf_iff_canonical _ |>.2 { k with echoes := hl k }, h.custody⟩
protected theorem Kept.tovlAt {l : List (Nat × Nat)} (h : Kept c r s) (hl : Canonical s → rising l) :
    Kept c r { s with lio := { s.lio with tovlAt := l } } :=
  ⟨fun hr => have k := h.canonical hr; wf_iff_canonical _ |>.2 { k with tovlAt := hl k }, h.custody⟩
protected theorem Kept.loops {l : List (Nat × List (Nat × Int × Bool))} (h : Kept c r s) (hl : Canonical s → rising l) :
    Kept c r { s with lio := { s.lio with loops := l } } :=
  ⟨fun hr => have k := h.canonical hr; wf_iff_canonical _ |>.2 { k with loops := hl k }, h.custody⟩
protected theorem Kept.chans {l : List (Nat × Chan)} (h : Kept c r s) (hl : Canonical s → rising l) :
    Kept c r { s with lio := { s.lio with chans := l } } :=
  ⟨fun hr => have k := h.canonical hr; wf_iff_canonical _ |>.2 { k with chans := hl k }, h.custody⟩
protected theorem Kept.pulse {l : List (Nat × Nat)} (h : Kept c r s) (hl : Canonical s → rising l) :
    Kept c r { s with saf := { s.saf with pulse := l } } :=
  ⟨fun hr => have k := h.canonical hr; wf_iff_canonical _ |>.2 { k with pulse := hl k }, h.custody⟩
protected theorem Kept.drives {l : List (Nat × Drive)} (h : Kept c r s) (hl : Canonical s → rising l) :
    Kept c r { s with saf := { s.saf with drives := l } } :=
  ⟨fun hr => have k := h.canonical hr; wf_iff_canonical _ |>.2 { k with drives := hl k }, h.custody⟩
protected theorem Kept.conns {l : List (Nat × Conn)} (h : Kept c r s) (hl : Canonical s → rising l) :
    Kept c r { s with saf := { s.saf with conns := l } } :=
  ⟨fun hr => have k := h.canonical hr; wf_iff_canonical _ |>.2 { k with conns := hl k }, h.custody⟩
protected theorem Kept.inputs {l : List (Nat × InTest)} (h : Kept c r s) (hl : Canonical s → rising l) :
    Kept c r { s with saf := { s.saf with inputs := l } } :=
  ⟨fun hr => have k := h.canonical hr; wf_iff_canonical _ |>.2 { k with inputs := hl k }, h.custody⟩
protected theorem Kept.panel {l : List (Nat × Word)} (h : Kept c r s) (hl : Canonical s → rising l) :
    Kept c r { s with fpd := { s.fpd with panel := l } } :=
  ⟨fun hr => have k := h.canonical hr; wf_iff_canonical _ |>.2 { k with panel := hl k }, h.custody⟩
protected theorem Kept.sigChans {l : List (Nat × SigCh)} (h : Kept c r s) (hl : Canonical s → rising l) :
    Kept c r { s with sig := { s.sig with chans := l } } :=
  ⟨fun hr => have k := h.canonical hr; wf_iff_canonical _ |>.2 { k with sigChans := hl k }, h.custody⟩
protected theorem Kept.streams {l : List (Nat × Stream)} (h : Kept c r s) (hl : Canonical s → rising l) :
    Kept c r { s with c37 := { s.c37 with streams := l } } :=
  ⟨fun hr => have k := h.canonical hr; wf_iff_canonical _ |>.2 { k with streams := hl k }, h.custody⟩
protected theorem Kept.remotes {l : List (Nat × Remote)} (h : Kept c r s) (hl : Canonical s → rising l) :
    Kept c r { s with c37 := { s.c37 with remotes := l } } :=
  ⟨fun hr => have k := h.canonical hr; wf_iff_canonical _ |>.2 { k with remotes := hl k }, h.custody⟩
protected theorem Kept.invalid {l : List (Nat × Nat)} (h : Kept c r s) (hl : Canonical s → rising l) :
    Kept c r { s with c37 := { s.c37 with invalid := l } } :=
  ⟨fun hr => have k := h.canonical hr; wf_iff_canonical _ |>.2 { k with invalid := hl k }, h.custody⟩
protected theorem Kept.slots {l : List (Nat × Slot)} (h : Kept .module r s) (hl : Canonical s → rising l) :
    Kept .module r { s with boot := { s.boot with slots := l } } :=
  ⟨fun hr => have k := h.canonical hr; wf_iff_canonical _ |>.2 { k with slots := hl k }, fun hc => nomatch hc⟩
protected theorem Kept.sets {l : List (Nat × Word)} (h : Kept c r s) (hl : Canonical s → rising l) :
    Kept c r { s with tk := { s.tk with sets := l } } :=
  ⟨fun hr => have k := h.canonical hr; wf_iff_canonical _ |>.2 { k with sets := hl k }, h.custody⟩
protected theorem Kept.modLink {f : Link → Link} (h : Kept c r s) (hf : ∀ l, (f l).held = l.held := by exact fun _ => rfl) :
    Kept c r (modLink f s) :=
  h.same (by simp [bare, Machine.modLink, hf]) (by simp [Machine.custody, Machine.modLink, hf])
protected theorem Kept.modTime {f : Time → Time} (h : Kept c r s) (hf : ∀ l, (f l).held = l.held := by exact fun _ => rfl) :
    Kept c r (modTime f s) := h.same (by simp [bare, Machine.modTime, hf])
protected theorem Kept.modLio {f : Lio → Lio} (h : Kept c r s) (hf : ∀ l, (f l).held = l.held := by exact fun _ => rfl) :
    Kept c r (modLio f s) := h.same (by simp [bare, Machine.modLio, hf])
protected theorem Kept.modSaf {f : Saf → Saf} (h : Kept c r s) (hf : ∀ l, (f l).held = l.held := by exact fun _ => rfl) :
    Kept c r (modSaf f s) := h.same (by simp [bare, Machine.modSaf, hf])
protected theorem Kept.modFpd {f : Fpd → Fpd} (h : Kept c r s) (hf : ∀ l, (f l).panel = l.panel := by exact fun _ => rfl) :
    Kept c r (modFpd f s) := h.same (by simp [bare, Machine.modFpd, hf])
protected theorem Kept.modSig {f : Sig → Sig} (h : Kept c r s) (hf : ∀ l, (f l).chans = l.chans := by exact fun _ => rfl) :
    Kept c r (modSig f s) := h.same (by simp [bare, Machine.modSig, hf])
protected theorem Kept.modNwt {f : Watch → Watch} (h : Kept c r s) (hf : ∀ l, (f l).permit = l.permit := by exact fun _ => rfl) :
    Kept c r (modNwt f s) := h.same rfl (by simp [Machine.custody, Machine.modNwt, hf])
protected theorem Kept.modDay {f : Day → Day} (h : Kept c r s) (hf : ∀ l, (f l).held = l.held := by exact fun _ => rfl) :
    Kept c r (modDay f s) :=
  h.same (by simp [bare, Machine.modDay, hf]) (by simp [Machine.custody, Machine.modDay, hf])
protected theorem Kept.modBoot {f : Boot → Boot} (h : Kept .module r s) (hf : ∀ l, (f l).slots = l.slots := by exact
    fun _ => rfl) :
    Kept .module r (modBoot f s) := h.sameTables (by simp [bare, Machine.modBoot, hf])
protected theorem Kept.bump (h : Kept c r s) : Kept c r (bump s) := h.same
protected theorem Kept.emit {a : Out} (h : Kept c r s) : Kept c r (emit a s) := h.same
protected theorem Kept.noteBorn {a : Nat} {b : Bool} (h : Kept c r s) : Kept c r (noteBorn a b s) := h.same
protected theorem Kept.noteWrote {a : Nat} (h : Kept c r s) : Kept c r (noteWrote a s) := h.same
protected theorem Kept.modTelem {f : Telem → Telem} (h : Kept c r s) : Kept c r (modTelem f s) := h.same
protected theorem Kept.modTrace {f : Trace → Trace} (h : Kept c r s) : Kept c r (modTrace f s) := h.same
protected theorem Kept.modPwr {f : Pwr → Pwr} (h : Kept c r s) : Kept c r (modPwr f s) := h.same
/-! Tables of engines. -/

theorem engine_w {s : State} (k : Canonical s) (e : Nat) : rising (engine s e).w := by
  unfold engine
  exact tabGet_all (p := fun x : Engine => rising x.w) _ _ _ (by simp [rising]) k.engW

protected theorem Kept.setEngine {e : Nat} {x : Engine} (h : Kept c r s) (hx : r.wf → rising x.w) : Kept c r (setEngine s e x) :=
  ⟨fun hr => have k := h.canonical hr; wf_iff_canonical _ |>.2 { k with
      eng := tabSet_rising _ _ _ _ k.eng
      engW := tabSet_all (p := fun x : Engine => rising x.w) _ _ _ _ k.engW (hx hr) }, h.custody⟩

protected theorem Kept.engW {e : Nat} (h : Kept c r s) (hr : r.wf) : rising (engine s e).w := engine_w (h.canonical hr) e

protected theorem Kept.setEngineSame {e : Nat} {x : Engine} (h : Kept c r s) (hx : x.w = (engine s e).w := by rfl) :
    Kept c r (Machine.setEngine s e x) := h.setEngine fun hr => hx ▸ h.engW hr

protected theorem Kept.modEngineW {e : Nat} {f : Engine → Engine} (h : Kept c r s) (hf : ∀ x, rising x.w → rising (f x).w) :
    Kept c r (modEngine e f s) := h.setEngine fun hr => hf _ (h.engW hr)

protected theorem Kept.modEngine {e : Nat} {f : Engine → Engine} (h : Kept c r s) (hf : ∀ x, (f x).w = x.w := by exact
    fun _ => rfl) :
    Kept c r (modEngine e f s) := h.modEngineW fun x hw => (hf x).symm ▸ hw

theorem tabSetAll_rising {α β : Type} [DecidableEq α] (d : α) (f : β → Nat × α) (l : List β) (m : List (Nat × α)) (h : rising m) :
    rising (l.foldl (fun t p => tabSet d t (f p).1 (f p).2) m) := by
  induction l generalizing m with
  | nil => exact h
  | cons a l ih => exact ih _ (tabSet_rising _ _ _ _ h)

theorem tabSetAll_all {α β : Type} [DecidableEq α] {p : α → Prop} (d : α) (f : β → Nat × α) (l : List β) (m : List (Nat × α))
    (h : ∀ x ∈ m, p x.2) (hl : ∀ b ∈ l, p (f b).2) : ∀ x ∈ l.foldl (fun t b => tabSet d t (f b).1 (f b).2) m, p x.2 := by
  induction l generalizing m with
  | nil => exact h
  | cons a l ih => exact ih _ (tabSet_all _ _ _ _ h (hl a (by simp))) fun b hb => hl b (by simp [hb])

/-- Every engine changed by `f`, which leaves its registers. -/
protected theorem Kept.mapEngines {f : Engine → Engine} (h : Kept c r s) (hf : ∀ x, (f x).w = x.w) :
    Kept c r { s with eng := s.eng.foldl (fun t p => tabSet {} t p.1 (f p.2)) [] } :=
  ⟨fun hr => have k := h.canonical hr; wf_iff_canonical _ |>.2 { k with
      eng := tabSetAll_rising {} (fun p : Nat × Engine => (p.1, f p.2)) s.eng [] .nil
      engW := tabSetAll_all (p := fun x : Engine => rising x.w) {} (fun p : Nat × Engine => (p.1, f p.2)) s.eng [] (by simp)
        fun b hb => (hf b.2).symm ▸ k.engW b hb }, h.custody⟩

protected theorem Kept.midRegions {l : List (Nat × Word)} (h : Kept c r s)
    (hl : Canonical s → ∀ w ∈ l, 0x040C1000 ≤ w.1 ∧ w.1 < 0x040D0000) :
    Kept c r { s with day := { s.day with midRegions := l } } :=
  ⟨fun hr => have k := h.canonical hr; wf_iff_canonical _ |>.2 { k with midRegions := hl k }, h.custody⟩

/-- The next state, where there is one, is kept. -/
def Leaves (c : Scope) (r : State) : Host.Outcome State Fault Refusal → Prop
  | .next t => Kept c r t
  | _ => True

protected theorem Kept.ite {p : Prop} [Decidable p] {a b : State} (ha : Kept c r a) (hb : Kept c r b) :
    Kept c r (if p then a else b) := by split <;> assumption
protected theorem Leaves.ite {p : Prop} [Decidable p] {a b : Host.Outcome State Fault Refusal} (ha : Leaves c r a)
    (hb : Leaves c r b) : Leaves c r (if p then a else b) := by split <;> assumption
protected theorem Kept.foldl {α : Type} {f : State → α → State} {l : List α} (h : Kept c r s) (hf : ∀ a t, Kept c r t → Kept c r
    (f t a)) :
    Kept c r (l.foldl f s) := by
  induction l generalizing s with
  | nil => exact h
  | cons a l ih => exact ih (hf a s h)
protected theorem Kept.forUpto {n : Nat} {f : Nat → State → State} (h : Kept c r s) (hf : ∀ i t, Kept c r t → Kept c r (f i t)) :
    Kept c r (forUpto n f s) := h.foldl hf

protected theorem Kept.setReg {a : Nat} {v : Word} (h : Kept c r s) : Kept c r (setReg s a v) := h.regs
    fun k => tabSet_rising _ _ _ _ k.regs
protected theorem Kept.setF {a hi lo v : Nat} (h : Kept c r s) : Kept c r (setF s a hi lo v) := h.setReg
theorem noteSet_rising {t : TickLog} {a b : Nat} (h : rising t.sets) : rising (t.noteSet a b).sets := tabSet_rising _ _ _ _ h
protected theorem Kept.setBit {a b : Nat} {v : Bool} (h : Kept c r s) : Kept c r (setBit s a b v) := by
  unfold setBit
  cases v
  · exact h.setF.same
  · exact (h.setF.sets (l := (s.tk.noteSet a b).sets) fun k => noteSet_rising k.sets).same
protected theorem Kept.addSat {a hi lo n : Nat} (h : Kept c r s) : Kept c r (addSat s a hi lo n) := h.setF.same
protected theorem Kept.rcMax {a hi lo v : Nat} (h : Kept c r s) : Kept c r (rcMax s a hi lo v) := h.setF.same
protected theorem Kept.hwField {a hi lo v : Nat} (h : Kept c r s) : Kept c r (hwField s a hi lo v) := by
  unfold hwField
  split
  · exact h.same
  · exact h.setF.same
protected theorem Kept.applyHw (h : Kept c r s) : Kept c r (applyHw s) := by
  unfold applyHw
  extract_lets t
  have h1 : Kept c r t := h.foldl fun _ _ h1 => .ite h1.setReg h1
  exact (h1.sets (l := []) fun _ => .nil).same
protected theorem Kept.setSup {e : Nat} {x : Sup} (h : Kept c r s) : Kept c r (setSup s e x) := h.sup
    fun k => tabSet_rising _ _ _ _ k.sup
protected theorem Kept.setPair {e : Nat} {x : Pair} (h : Kept c r s) : Kept c r (setPair s e x) := h.pairs
    fun k => tabSet_rising _ _ _ _ k.pairs
protected theorem Kept.setPort {e : Nat} {x : Port} (h : Kept c r s) : Kept c r (setPort s e x) := h.ports
    fun k => tabSet_rising _ _ _ _ k.ports
protected theorem Kept.modChan {l : Nat} {f : Chan → Chan} (h : Kept c r s) : Kept c r (modChan l f s) := h.chans
    fun k => tabSet_rising _ _ _ _ k.chans
protected theorem Kept.modDrive {l : Nat} {f : Drive → Drive} (h : Kept c r s) : Kept c r (modDrive l f s) := h.drives
    fun k => tabSet_rising _ _ _ _ k.drives
protected theorem Kept.modConn {l : Nat} {f : Conn → Conn} (h : Kept c r s) : Kept c r (modConn l f s) := h.conns
    fun k => tabSet_rising _ _ _ _ k.conns
protected theorem Kept.modInTest {l : Nat} {f : InTest → InTest} (h : Kept c r s) : Kept c r (modInTest l f s) := h.inputs
    fun k => tabSet_rising _ _ _ _ k.inputs
protected theorem Kept.modSigChan {l : Nat} {f : SigCh → SigCh} (h : Kept c r s) : Kept c r (modSigChan l f s) := h.sigChans
    fun k => tabSet_rising _ _ _ _ k.sigChans
protected theorem Kept.modStream {l : Nat} {f : Stream → Stream} (h : Kept c r s) : Kept c r (modStream l f s) := h.streams
    fun k => tabSet_rising _ _ _ _ k.streams
protected theorem Kept.modRemote {l : Nat} {f : Remote → Remote} (h : Kept c r s) : Kept c r (modRemote l f s) := h.remotes
    fun k => tabSet_rising _ _ _ _ k.remotes
protected theorem Kept.memSet {a : Nat} {v : Word} (h : Kept c r s) : Kept c r (memSet s a v) :=
  (h.mem fun k => tabSet_wf _ _ _ _ k.mem).chk fun k => tabSet_rising _ _ _ _ k.chk
protected theorem Kept.touch {a : Nat} (h : Kept c r s) : Kept c r (touch a s) :=
    (h.served fun k => tabSet_rising _ _ _ _ k.served).same
protected theorem Kept.setTs {off : Nat} {w : TsWord} (h : Kept c r s) : Kept c r (setTs off w s) := h.ts
    fun k => tabSet_rising _ _ _ _ k.ts
protected theorem Kept.privSet {a : Nat} {w : Word} (h : Kept c r s) : Kept c r (privSet a w s) := h.priv
    fun k => tabSet_rising _ _ _ _ k.priv
protected theorem Kept.latchWord {m n : Nat} {w : Word} (h : Kept c r s) : Kept c r (latchWord m n w s) := h.latch
    fun k => tabSet_rising _ _ _ _ k.latch

/-! The named operations over the state. -/

protected theorem Kept.laterTick {a : Nat} {v : Word} (h : Kept c r s) : Kept c r (laterTick a v s) := h.same
protected theorem Kept.modSup {e : Nat} {f : Sup → Sup} (h : Kept c r s) : Kept c r (modSup e f s) := h.setSup
protected theorem Kept.modPair {k : Nat} {f : Pair → Pair} (h : Kept c r s) : Kept c r (modPair k f s) := h.setPair
protected theorem Kept.modPort {p : Nat} {f : Port → Port} (h : Kept c r s) : Kept c r (modPort p f s) := h.setPort
protected theorem Kept.setLastF {code : Nat} (h : Kept c r s) : Kept c r (setLastF code s) := h.setReg.same

protected theorem Kept.logPush {code detail : Nat} (h : Kept c r s) : Kept c r (logPush code detail s) :=
  .ite h.same (.ite h.same h.addSat.modTelem)

protected theorem Kept.raise {code detail : Nat} (h : Kept c r s) : Kept c r (raise code detail s) := h.setLastF.logPush

protected theorem Kept.traceRec {ty kind master value pos : Nat} (h : Kept c r s) :
    Kept c r (traceRec ty kind master value pos s) :=
  .ite h.modTrace h.modTrace.addSat

protected theorem Kept.traceEngine {e ty kind value pos : Nat} (h : Kept c r s) : Kept c r (traceEngine e ty kind value pos s) :=
  .ite h.traceRec h

protected theorem Kept.traceRest {e ty value pos : Nat} (h : Kept c r s) : Kept c r (traceRest e ty value pos s) :=
  .ite h.traceEngine h

protected theorem Kept.sendFrame {lane ty seq : Nat} {ws : List Word} (h : Kept c r s) : Kept c r (sendFrame lane ty seq ws s) :=
  h.emit

protected theorem Kept.abandonCheckpoint {reason : Nat} (h : Kept c r s) : Kept c r (abandonCheckpoint reason s) :=
  .ite (.ite h.modLink.sendFrame h.modLink) h

protected theorem Kept.breach (h : Kept c r s) : Kept c r (breach s) := by
  unfold Machine.breach
  split
  · exact h.modDay
  · exact h

protected theorem Kept.breachTick (h : Kept c r s) : Kept c r (breachTick s) := .ite h.abandonCheckpoint h

protected theorem Kept.lateRecord {code master pos sch act : Nat} (h : Kept c r s) :
    Kept c r (lateRecord code master pos sch act s) :=
  .ite h.setBit.noteBorn.same h.setBit.addSat

protected theorem Kept.lateWith {code master pos sch act detail : Nat} (h : Kept c r s) :
    Kept c r (lateWith code master pos sch act detail s) :=
  h.lateRecord.raise.traceEngine.breach

protected theorem Kept.lateEvent {code master pos sch act : Nat} (h : Kept c r s) :
    Kept c r (lateEvent code master pos sch act s) :=
  h.lateWith

protected theorem Kept.safetySignal {code detail : Nat} (h : Kept c r s) : Kept c r (safetySignal code detail s) :=
  h.same.setBit.raise

protected theorem Kept.mismatchResponse {k : Nat} (h : Kept c r s) : Kept c r (mismatchResponse k s) := by
  unfold Machine.mismatchResponse
  split
  · exact (Kept.ite h.safetySignal h).setBit.breach
  · exact h.setBit
  · exact h

protected theorem Kept.mismRecord {code k kind pos : Nat} {lead trail : Word} (h : Kept c r s) :
    Kept c r (mismRecord code k kind pos lead trail s) :=
  .ite h.noteBorn.same h.addSat

protected theorem Kept.enqueue {e : Nat} {w : Word} (h : Kept c r s) : Kept c r (enqueue e w s) :=
  .ite h.setEngineSame h.setEngineSame.bump.raise

protected theorem Kept.postEvent {src payload : Nat} (h : Kept c r s) : Kept c r (postEvent src payload s) := by
  unfold Machine.postEvent
  split
  · exact h.enqueue
  · exact h

/-! Engine registers and predicates, results in flight and their landing, loops and brackets, memory as an engine reaches it
(R64 to R73, R101 to R104, R113 to R115, R121 to R134). -/

protected theorem Kept.markWrite {a : Nat} {old : Word} (h : Kept c r s) : Kept c r (markWrite a old s) :=
  .ite h (.ite (.ite h.modLink.modLink h.modLink.setBit.raise.abandonCheckpoint) h.modLink)

protected theorem Kept.memWrite {master a : Nat} {v : Word} (h : Kept c r s) : Kept c r (memWrite master a v s) :=
  .ite ((Kept.ite h.markWrite h).memSet.same) ((Kept.ite h.markWrite h).memSet)

protected theorem Kept.memRead {plant : Option (Nat × Nat)} {a : Nat} (h : Kept c r s) : Kept c r (memRead plant a s).2 := by
  unfold Machine.memRead
  have hu : Kept c r (modTelem (fun t => { t with uncor := t.uncor + 1 }) (Machine.addSat s fabMemErr 17 0 1)) := h.addSat.same
  split
  · exact h
  · exact (h.chk fun k => tabSet_rising _ _ _ _ k.chk).addSat.raise.same
  · rcases plant with _ | ⟨e, pos⟩
    · exact hu.raise
    · exact hu.lateWith

theorem pSet_w {n : Nat} {v : Bool} (x : Engine) : (pSet n v x).w = x.w := by
  unfold pSet; split <;> rfl

theorem setFlag_w {f : Fin 3} {land : Nat} (x : Engine) : (setFlag f land x).w = x.w := by
  unfold setFlag; split <;> rfl

theorem accPut_w (one : Bool) (v : BitVec 80) (x : Engine) : (accPut one v x).w = x.w := by
  unfold accPut; split <;> rfl

theorem landMac_w (one zero neg : Bool) (prod : Int) (land : Nat) (x : Engine) : (landMac one zero neg prod land x).w = x.w := by
  unfold landMac
  extract_lets v
  split
  · exact (setFlag_w _).trans (accPut_w one _ x)
  · exact accPut_w _ _ x

protected theorem Kept.applyEffect {e land pos : Nat} {f : Effect} (h : Kept c r s) : Kept c r (applyEffect e land pos f s) := by
  cases f with
  | reg d v => exact h.modEngineW (wSet_rising d v)
  | pred n v => exact h.modEngine pSet_w
  | flag g => exact h.modEngine setFlag_w
  | clear m => exact h.modEngine
  | mac ac zero neg prod => exact h.modEngine (landMac_w ac zero neg prod land)
  | acm ac part v =>
    have hw (x : Engine) : (accPut ac (accSet (accOf x ac) part v) x).w = x.w := accPut_w ac _ x
    unfold Machine.applyEffect
    exact h.modEngine hw
  | load off d => exact h.memRead.modEngineW (wSet_rising d _)
  | store off v => exact h.memWrite

protected theorem Kept.applyAll {e land pos : Nat} {fs : List Effect} (h : Kept c r s) : Kept c r (applyAll e land pos fs s) :=
  h.foldl fun _ _ ht => ht.applyEffect

protected theorem Kept.countLock {e pos : Nat} (h : Kept c r s) : Kept c r (countLock e pos s) :=
  .ite (.ite h.setEngineSame h.setEngineSame.raise) h

protected theorem Kept.addTx {e kind pos : Nat} {fields : List Word} (h : Kept c r s) : Kept c r (addTx e kind pos fields s) :=
  .ite h.modPair (.ite h.modPair h)

protected theorem Kept.captureDue {e n due pos ord : Nat} {inp : Input} (h : Kept c r s) :
    Kept c r (captureDue e n due pos ord inp s) := by
  unfold Machine.captureDue
  split
  · exact h
  · exact Kept.ite h.setPair.rcMax h.setPair.setBit.raise.mismRecord.mismatchResponse

protected theorem Kept.capture {e n ord : Nat} {inp : Input} (h : Kept c r s) : Kept c r (capture e n ord inp s) := h.captureDue

/-! The gates (R490 to R498). -/

theorem rising_map {α β : Type} (f : α → β) {l : List (Nat × α)} (h : rising l) : rising (l.map fun u => (u.1, f u.2)) := by
  unfold rising
  rw [List.map_map]
  exact h

protected theorem Kept.queueViol {w : Word} {a : Nat} (h : Kept c r s) : Kept c r (queueViol w a s) := by
  unfold Machine.queueViol
  extract_lets k x tail new m all t u v
  have ht : Kept c r t := h.same
  have hv : Kept c r v :=
    (ht.sup (l := if new = tail then s.sup else s.sup.map fun u => (u.1, reSeqSup m u.2)) fun k => by
      split
      · exact k.sup
      · exact rising_map _ k.sup).same
  exact .ite hv hv.addSat

protected theorem Kept.violate {m : Nat} {secure write : Bool} {v : Nat × Nat} {walk : Bool} {a : Word} (h : Kept c r s) :
    Kept c r (violate m secure write v walk a s) := by
  unfold Machine.violate
  extract_lets q u n w
  have hu : Kept c r u := h.queueViol.setBit.addSat.modTelem
  have hn : Kept c r n := hu.same
  have hw : Kept c r w := .ite hn.setBit.raise hn
  split
  · exact hw
  · have hm : Kept c r { w with violMasters := w.violMasters ++ [m] } := hw.same
    exact hm.raise

protected theorem Kept.untouched (h : Kept c r s) : Kept c r (untouched s) := h.same
protected theorem Kept.grantBackground {a : Nat} (h : Kept c r s) : Kept c r (grantBackground a s) := h.touch.untouched
protected theorem Kept.waitFor {m sub : Nat} {as : List Nat} (h : Kept c r s) : Kept c r (waitFor m sub as s) := h.same
protected theorem Kept.settle {m sub : Nat} {as : List Nat} (h : Kept c r s) : Kept c r (settle m sub as s) := h.same
protected theorem Kept.serveOwed (h : Kept c r s) : Kept c r (serveOwed s) := h.same

protected theorem Kept.ifFree {m sub : Nat} {f : State → State} (h : Kept c r s) (hf : ∀ x, Kept c r x → Kept c r (f x)) :
    Kept c r (ifFree m sub f s) :=
  .ite ((hf _ h.untouched).settle) h.waitFor

protected theorem Kept.whenFree {m sub : Nat} {f : State → Host.Outcome State Fault Refusal} (h : Kept c r s)
    (hf : ∀ t, Kept c r t → Leaves c r (f t)) : Leaves c r (whenFree m sub f s) := by
  have ho := hf _ h.untouched
  unfold Machine.whenFree
  generalize f (untouched s) = o at ho
  cases o with
  | next t => exact Kept.ite ho.settle h.waitFor
  | fault _ => trivial
  | refused _ => trivial

protected theorem Kept.mRead {m a : Nat} (h : Kept c r s) : Kept c r (mRead m a s).2 := by
  unfold Machine.mRead
  extract_lets s1 r2
  have hs1 : Kept c r s1 := h.touch
  have hr2 : Kept c r r2.2 := hs1.memRead
  split
  · exact hs1.violate
  · split
    · exact hr2
    · exact hs1

protected theorem Kept.mWrite {m a : Nat} {v : Word} (h : Kept c r s) : Kept c r (mWrite m a v s) := by
  unfold Machine.mWrite
  extract_lets s1
  have hs1 : Kept c r s1 := h.touch
  split
  · exact hs1.violate
  · exact .ite hs1.memWrite hs1

protected theorem Kept.ownFault {fault : State → State} {t : State} (h : Kept c r t) (hf : ∀ x, Kept c r x → Kept c r (fault x)) :
    Kept c r (ownFault fault s t) :=
  .ite h (hf _ h)

protected theorem Kept.mReads {m a n : Nat} (h : Kept c r s) : Kept c r (mReads m a n s).2 := by
  induction n generalizing a s with
  | zero => exact h
  | succ n ih => exact ih h.mRead

protected theorem Kept.mWrites {m a : Nat} {ws : List Word} (h : Kept c r s) : Kept c r (mWrites m a ws s) :=
  h.foldl fun _ _ ht => ht.mWrite

/-! Synchronous reset of the signal channels (R348, R349). -/

protected theorem Kept.applySync {sec us : Nat} (h : Kept c r s) : Kept c r (applySync sec us s) :=
  (((h.forUpto (fun _ _ ht => .ite ht.modSigChan ht)).hwField).setBit).raise

protected theorem Kept.failSync (h : Kept c r s) : Kept c r (failSync s) := h.hwField.setBit.raise
protected theorem Kept.syncPps (h : Kept c r s) : Kept c r (syncPps s) := .ite h.applySync h
protected theorem Kept.syncMidnight (h : Kept c r s) : Kept c r (syncMidnight s) := .ite h.applySync h

/-! The time unit (R301 to R332). -/

protected theorem Kept.dropTraffic {port : Nat} {peer : BitVec 32} (h : Kept c r s) : Kept c r (dropTraffic port peer s) :=
  .ite h.addSat.same.raise h.addSat

protected theorem Kept.dropSomewhere {peer : BitVec 32} (h : Kept c r s) : Kept c r (dropSomewhere peer s) := h.bump.dropTraffic
protected theorem Kept.dropUnnamed {port : Nat} (h : Kept c r s) : Kept c r (dropUnnamed port s) := h.bump.dropTraffic
protected theorem Kept.timeFault {code src : Nat} (h : Kept c r s) : Kept c r (timeFault code src s) := h.raise

protected theorem Kept.modDom {k : Nat} {f : Dom → Dom} (h : Kept c r s) : Kept c r (modDom k f s) := by
  unfold Machine.modDom
  split
  · exact h.same
  · exact h.same

protected theorem Kept.leaveLock (h : Kept c r s) : Kept c r (leaveLock s) := h.modTime

protected theorem Kept.noteBound (h : Kept c r s) : Kept c r (noteBound s) := by
  unfold Machine.noteBound
  split
  · exact h.setF
  · exact h

protected theorem Kept.setTimeState {code : Nat} (h : Kept c r s) : Kept c r (setTimeState code s) := by
  unfold Machine.setTimeState
  extract_lets s1 s2
  have hs1 : Kept c r s1 := .ite h.leaveLock h
  have hs2 : Kept c r s2 := hs1.setF
  exact .ite hs2.setF (.ite hs2.bump.setF (.ite hs2.bump.modTime.noteBound hs2.noteBound))

protected theorem Kept.selectSrc {src : Nat} (h : Kept c r s) : Kept c r (selectSrc src s) := by
  have ht : Kept c r (modTime (fun t => { t with holdAt := none }) (Machine.setF s timState 15 12 src)) := h.setF.same
  exact ht.setTimeState.same

protected theorem Kept.switchSrc {src : Nat} (h : Kept c r s) : Kept c r (switchSrc src s) := h.selectSrc.modTime.setBit.timeFault
protected theorem Kept.enterHold (h : Kept c r s) : Kept c r (enterHold s) := h.hwField.setF.modTime.setTimeState.setBit.timeFault

protected theorem Kept.reselect (h : Kept c r s) : Kept c r (reselect s) := by
  unfold Machine.reselect
  extract_lets cur
  split
  · exact h.modTime
  · split
    · exact .ite h.selectSrc h.switchSrc
    · exact .ite h h.enterHold

protected theorem Kept.setUsable {src : Nat} {v : Bool} (h : Kept c r s) : Kept c r (setUsable src v s) := by
  unfold Machine.setUsable
  extract_lets was s1 s2
  have hs1 : Kept c r s1 := h.setBit
  have hs2 : Kept c r s2 := by
    unfold s2
    split
    · exact hs1.setBit
    · exact hs1.setBit
    · exact hs1.setBit
    · exact hs1.setBit
  split
  · split
    · exact hs2.setBit.timeFault
    · exact hs2.setBit.timeFault
    · exact hs2.setBit.timeFault
    · exact hs2.setBit.timeFault
  · exact hs2

protected theorem Kept.noteSeconds (h : Kept c r s) : Kept c r (noteSeconds s) := .ite h.modTime h
protected theorem Kept.refreshDom {k : Nat} (h : Kept c r s) : Kept c r (refreshDom k s) := h.setUsable.noteSeconds.reselect
protected theorem Kept.secondCarry (h : Kept c r s) : Kept c r (secondCarry s) := h.modTime.noteBound.noteSeconds
protected theorem Kept.applyMirrors (h : Kept c r s) : Kept c r (applyMirrors s) := h.same.foldl fun _ _ ht => ht.memSet

protected theorem Kept.postDelayed {delay src payload : Nat} (h : Kept c r s) : Kept c r (postDelayed delay src payload s) :=
  .ite h.bump.postEvent h.bump.same

protected theorem Kept.arriveEvents (h : Kept c r s) : Kept c r (arriveEvents s) := h.same.foldl fun _ _ ht => ht.postEvent

protected theorem Kept.passTick (h : Kept c r s) : Kept c r (passTick s) := by
  unfold Machine.passTick
  extract_lets t carry d u v
  have hu : Kept c r u := by
    unfold u d
    split
    · exact h.same
    · exact h.same
  have hw : Kept c r { u with waiters := u.waiters.filter fun w => u.now ≤ w.tick } := hu.same
  have hv : Kept c r v := hw.applyHw.breachTick.applyMirrors.arriveEvents
  exact .ite hv.secondCarry hv

protected theorem Kept.putClock {sec ns64 : Nat} (h : Kept c r s) : Kept c r (putClock sec ns64 s) := by
  unfold Machine.putClock
  extract_lets z
  exact h.modTime

protected theorem Kept.execClockStep {src : Fin 6} {sec ns64 : Nat} (h : Kept c r s) :
    Leaves c r (execClockStep src sec ns64 s) :=
  .ite h h.putClock.timeFault

protected theorem Kept.execDaySequencerStart (h : Kept .module r s) : Leaves .module r (execDaySequencerStart s) :=
  .ite h h.sameTables

protected theorem Kept.execPllUnlock (h : Kept .module r s) : Leaves .module r (execPllUnlock s) := h.modTime.sameTables.timeFault
protected theorem Kept.execPllRelock (h : Kept c r s) : Leaves c r (execPllRelock s) := h.modTime

protected theorem Kept.trackLock {ofs : Int} (h : Kept c r s) : Kept c r (trackLock ofs s) :=
  .ite (.ite h.setTimeState.modTime h) (.ite h.modTime h.modTime)

protected theorem Kept.servoRate {ofs : Int} (h : Kept c r s) : Kept c r (servoRate ofs s) := h.bump.hwField

protected theorem Kept.execLockAcquired (h : Kept c r s) : Leaves c r (execLockAcquired s) := by
  unfold Machine.execLockAcquired
  split
  · exact .ite h.setTimeState.modTime h
  · exact h

protected theorem Kept.jumpFault {src : Nat} {was now' : Bool} (h : Kept c r s) : Kept c r (jumpFault src was now' s) :=
  .ite h.setBit.timeFault h

protected theorem Kept.disagree (h : Kept c r s) : Kept c r (disagree s) := .ite h.setBit.timeFault h

protected theorem Kept.execPtpSyncReceive {k : Fin 2} {domain : BitVec 8} {interval t u corr : Int} (h : Kept c r s) :
    Leaves c r (execPtpSyncReceive k domain interval t u corr s) := by
  unfold Machine.execPtpSyncReceive
  extract_lets src o bad s1 j s2 s3 s4
  have hs1 : Kept c r s1 := h.modDom
  have hs2 : Kept c r s2 := hs1.jumpFault
  have hs3 : Kept c r s3 := hs2.modDom.setReg
  have hs4 : Kept c r s4 := hs3.refreshDom.disagree
  exact .ite h (.ite hs1.refreshDom (Kept.ite hs4.trackLock.servoRate hs4))

protected theorem Kept.execSyncMissing {k : Fin 2} (h : Kept c r s) : Leaves c r (execSyncMissing k s) :=
  .ite h h.addSat.modDom.refreshDom

protected theorem Kept.setUtc {from' ofs : Nat} (h : Kept .module r s) : Kept .module r (setUtc from' ofs s) := by
  unfold Machine.setUtc
  extract_lets s1
  have hs1 : Kept .module r s1 := h.setF.setBit.setF
  exact hs1.modBoot

protected theorem Kept.takeUtc {src : Nat} {ofs : Int} (h : Kept .module r s) : Kept .module r (takeUtc src ofs s) :=
  .ite h.setUtc.setBit.timeFault h.setUtc

protected theorem Kept.markLeap {src : Nat} {insert : Bool} (h : Kept c r s) : Kept c r (markLeap src insert s) :=
  .ite h h.setReg.setReg.setF.modTime.setBit.timeFault

protected theorem Kept.clearLeap (h : Kept c r s) : Kept c r (clearLeap s) := h.setReg.setReg.setF
protected theorem Kept.withdrawLeap {src : Nat} (h : Kept c r s) : Kept c r (withdrawLeap src s) := .ite h.clearLeap h

protected theorem Kept.takeLeap {src : Nat} {ins del : Bool} (h : Kept c r s) : Kept c r (takeLeap src ins del s) :=
  .ite h.markLeap (.ite h.markLeap h.withdrawLeap)

protected theorem Kept.takeGm {k : Nat} {a : Announce} (h : Kept c r s) : Kept c r (takeGm k a s) := by
  unfold Machine.takeGm
  extract_lets changed u v
  have hu : Kept c r u := .ite h.modDom.setBit h
  exact hu.setReg.setReg.modDom

protected theorem Kept.execPtpAnnounceReceive {k lan : Fin 2} {a : Announce} (h : Kept .module r s) :
    Leaves .module r (execPtpAnnounceReceive k lan a s) := by
  unfold Machine.execPtpAnnounceReceive
  extract_lets s1 s2 s3 s4 s5
  have hs1 : Kept .module r s1 := h.modDom.setF
  have hs2 : Kept .module r s2 := hs1.takeGm.setF.setF
  have hs3 : Kept .module r s3 := hs2.setReg
  have hs4 : Kept .module r s4 := hs3.refreshDom
  have hs5 : Kept .module r s5 := .ite hs4.takeUtc hs4
  exact .ite h (.ite h.modDom (.ite (Kept.ite hs4 hs4.withdrawLeap) hs5.takeLeap))

protected theorem Kept.execAnnounceTimeout {k : Fin 2} (h : Kept c r s) : Leaves c r (execAnnounceTimeout k s) := by
  unfold Machine.execAnnounceTimeout
  split
  · exact h
  · split
    · exact h
    · split
      · exact .ite h.modDom.setF.refreshDom h.modDom.setF.refreshDom
      · exact h.modDom.setF.refreshDom

protected theorem Kept.execGmChangeHoldEnd {k : Fin 2} (h : Kept c r s) : Leaves c r (execGmChangeHoldEnd k s) :=
  Kept.ite h.refreshDom h

protected theorem Kept.execPdelayReqSend {n : Fin 4} (h : Kept c r s) : Leaves c r (execPdelayReqSend n s) :=
  Kept.ite ((h.pdelayAt fun k => tabSet_rising _ _ _ _ k.pdelayAt).same.emit) h

protected theorem Kept.execPdelayReqReceive {n : Fin 4} (h : Kept c r s) : Leaves c r (execPdelayReqReceive n s) :=
  Kept.ite h.emit h.dropUnnamed

protected theorem Kept.execPdelayRespReceive {n : Fin 4} {x : PeerDelay} (h : Kept c r s) :
    Leaves c r (execPdelayRespReceive n x s) := by
  unfold Machine.execPdelayRespReceive
  extract_lets d mpd2 s1 s2 k5 s3
  have hs1 : Kept c r s1 := h.bump
  have hs2 : Kept c r s2 := ((hs1.mpd fun k => tabSet_rising _ _ _ _ k.mpd).mpdAt fun k => tabSet_rising _ _ _ _ k.mpdAt).same
  have hs3 : Kept c r s3 := .ite hs2.setReg hs2
  exact .ite h hs3.refreshDom

protected theorem Kept.execPeerDelayTimeout {n : Fin 4} (h : Kept c r s) : Leaves c r (execPeerDelayTimeout n s) := h.refreshDom

protected theorem Kept.execPpsEdge (h : Kept c r s) : Leaves c r (execPpsEdge s) := by
  unfold Machine.execPpsEdge
  extract_lets c1 inWin o j s1 s2 s3 s4
  have hs1 : Kept c r s1 := .ite h.addSat h
  have hs2 : Kept c r s2 := hs1.jumpFault
  have hs3 : Kept c r s3 := hs2.modTime.setReg
  have hs4 : Kept c r s4 := hs3.setUsable.reselect
  exact (Kept.ite hs4.trackLock.servoRate hs4).postDelayed.syncPps

protected theorem Kept.execPpsEdgeMissing (h : Kept c r s) : Leaves c r (execPpsEdgeMissing s) := by
  unfold Machine.execPpsEdgeMissing
  split
  · exact .ite h h.addSat.modTime.setUsable.reselect
  · exact h

protected theorem Kept.irigError (h : Kept c r s) : Kept c r (irigError s) := .ite h.addSat.setUsable h.addSat.setBit.timeFault

protected theorem Kept.irigGood {f : Irig} {tai o : Int} (h : Kept c r s) : Kept c r (irigGood f tai o s) := by
  unfold Machine.irigGood
  extract_lets j s1 s2 s3 s4 s5
  have hs1 : Kept c r s1 := h.jumpFault
  have hs2 : Kept c r s2 := hs1.modTime
  have hs3 : Kept c r s3 := hs2.setReg
  have hs4 : Kept c r s4 := .ite hs3.takeLeap hs3
  have hs5 : Kept c r s5 := hs4.setUsable.noteSeconds.reselect
  exact .ite hs5.trackLock.servoRate hs5

protected theorem Kept.irigBreak (h : Kept c r s) : Kept c r (irigBreak s) := h.modTime

protected theorem Kept.irigTake {p : Nat × Nat} {f : Option Irig} (h : Kept c r s) : Kept c r (irigTake p f s) := by
  unfold Machine.irigTake
  split
  · extract_lets tai next
    exact .ite ((Kept.ite h h.irigBreak).irigGood) h.irigBreak.setUsable
  · exact h.irigBreak.irigError

protected theorem Kept.execIrigFrame {widths : List Nat} (h : Kept c r s) : Leaves c r (execIrigFrame widths s) := by
  unfold Machine.execIrigFrame
  extract_lets t u
  have ht1 : Kept c r t := by
    unfold t
    split
    · exact h.irigTake
    · exact h
  have ht2 : Kept c r u := ht1.modTime
  exact ht2.reselect.postDelayed

protected theorem Kept.execIrigSignalLoss (h : Kept c r s) : Leaves c r (execIrigSignalLoss s) := h.modTime.setUsable.reselect
protected theorem Kept.execPpsOutputEdge (h : Kept c r s) : Leaves c r (execPpsOutputEdge s) := .ite h (.ite h.emit h)

protected theorem Kept.execSourceRevert (h : Kept c r s) : Leaves c r (execSourceRevert s) := by
  unfold Machine.execSourceRevert
  split
  · exact h
  · split
    · exact h.switchSrc
    · exact h

protected theorem Kept.execHoldLongEntry (h : Kept c r s) : Leaves c r (execHoldLongEntry s) := by
  unfold Machine.execHoldLongEntry
  split
  · exact .ite h.setTimeState.setBit.timeFault h
  · exact h

protected theorem Kept.execTrendLearned (h : Kept c r s) : Leaves c r (execTrendLearned s) := Kept.ite h.setBit h

protected theorem Kept.execLeapApply (h : Kept .module r s) : Leaves .module r (execLeapApply s) := by
  unfold Machine.execLeapApply
  extract_lets a leap v t u
  split
  · exact h
  · have ht : Kept .module r t := h.clearLeap.setF.sameTables
    have hu : Kept .module r u := ht.same
    exact hu.setBit.timeFault

protected theorem Kept.execFarSourceReport {src : Fin 6} (h : Kept c r s) : Leaves c r (execFarSourceReport src s) :=
  .ite ((h.far fun k => tabSet_rising _ _ _ _ k.far).same.setBit.timeFault) h

protected theorem Kept.execTimeWaitExpiry (h : Kept c r s) : Leaves c r (execTimeWaitExpiry s) := by
  unfold Machine.execTimeWaitExpiry
  extract_lets s1
  have hs1 : Kept c r s1 := by
    unfold s1
    split
    · exact h.putClock
    · exact h.modTime
  exact .ite h hs1.setTimeState.timeFault

/-! The faceplate (R459 to R462). -/

protected theorem Kept.writePanel {ws : List (Nat × Word)} (h : Kept c r s) : Kept c r (writePanel ws s) :=
  h.panel fun k => tabSetAll_rising _ id ws _ k.panel

protected theorem Kept.execFaceplatePassStart (h : Kept c r s) : Leaves c r (execFaceplatePassStart s) :=
  .ite h h.modFpd.bump.setBit

protected theorem Kept.execFaceplatePassComplete (h : Kept c r s) : Leaves c r (execFaceplatePassComplete s) := by
  unfold Machine.execFaceplatePassComplete
  split
  · next ws _ =>
    split
    · exact h
    · have hp : Kept c r (modFpd (fun x => { x with pass := none, abandoned := 0, redo := [] }) (Machine.writePanel ws s)) :=
        h.writePanel.same
      exact hp.setBit.addSat.emit
  · exact h

protected theorem Kept.execFaceplatePassAbandon (h : Kept c r s) : Leaves c r (execFaceplatePassAbandon s) := by
  unfold Machine.execFaceplatePassAbandon
  extract_lets n
  split
  · extract_lets s1 s2
    have hs1 : Kept c r s1 := h.modFpd
    have hs2 : Kept c r s2 := hs1.setBit.setBit.raise
    exact Kept.ite hs2.setBit.raise hs2
  · exact h

protected theorem Kept.sundownPage {ws : List (Nat × Word)} (h : Kept c r s) : Kept c r (sundownPage ws s) := by
  have hp : Kept c r (modFpd (fun x => { x with pass := none, redo := [] }) (Machine.emit (.faceplate ws)
    (Machine.writePanel ws s))) :=
    (h.writePanel.emit (a := .faceplate ws)).same
  exact hp.setBit

protected theorem Kept.cutPage {n : Nat} {ws : List (Nat × Word)} (h : Kept c r s) : Kept c r (cutPage n ws s) :=
  h.sundownPage.same

/-! The feeds, the hold-up store and the temperatures of the power stage (R533 to R545). -/

protected theorem Kept.showFeed {k : Nat} (h : Kept c r s) : Kept c r (showFeed k s) := h.setBit.setBit.setF

protected theorem Kept.setFeed {k : Nat} {mv : Int} {off : Bool} (h : Kept c r s) : Kept c r (setFeed k mv off s) :=
  h.modPwr.modPwr.showFeed.showFeed

protected theorem Kept.feedFault {code k : Nat} (h : Kept c r s) : Kept c r (feedFault code k s) := h.raise

protected theorem Kept.feedAt {k : Nat} {mv : Int} {off : Bool} (h : Kept c r s) : Kept c r (feedAt k mv off s) := by
  unfold Machine.feedAt
  extract_lets fell s1 s2
  have hs1 : Kept c r s1 := h.setFeed
  have hs2 : Kept c r s2 := .ite hs1.setBit.feedFault hs1
  exact .ite hs2.setBit.feedFault hs2

protected theorem Kept.execFeedDrop {k : Fin 2} {millivolt : Int} (h : Kept c r s) : Leaves c r (execFeedDrop k millivolt s) :=
  .ite trivial (.ite h.feedAt h)

protected theorem Kept.execFeedReturn {k : Fin 2} {millivolt : Int} (h : Kept c r s) :
    Leaves c r (execFeedReturn k millivolt s) :=
  .ite h.setFeed h

protected theorem Kept.execFeedOvervoltage {k : Fin 2} {millivolt : Int} (h : Kept c r s) :
    Leaves c r (execFeedOvervoltage k millivolt s) :=
  .ite trivial (.ite h.setFeed.setBit.feedFault h)

protected theorem Kept.execFeedReconnect {k : Fin 2} {millivolt : Int} (h : Kept c r s) :
    Leaves c r (execFeedReconnect k millivolt s) :=
  .ite h.feedAt h

protected theorem Kept.execFeedReverse {k : Fin 2} {millivolt : Int} (h : Kept c r s) :
    Leaves c r (execFeedReverse k millivolt s) :=
  .ite trivial (.ite h.feedAt h)

protected theorem Kept.setCharge {charge : Nat} (h : Kept c r s) : Kept c r (setCharge charge s) := by
  unfold Machine.setCharge
  extract_lets was new t
  have ht : Kept c r t := h.setF.setF
  split
  · exact ht
  · generalize new = n
    rcases n with _ | _ | _ | n
    · exact ht.setBit.raise
    · exact ht
    · exact ht.raise
    · exact ht

protected theorem Kept.execStoreStateChange {charge : Fin 1001} (h : Kept c r s) : Leaves c r (execStoreStateChange charge s) :=
  .ite h h.setCharge

protected theorem Kept.execStoreCapacityTest {tenthJoule : BitVec 12} (h : Kept c r s) :
    Leaves c r (execStoreCapacityTest tenthJoule s) :=
  (Kept.ite h.setF.setBit.raise h.setF).setCharge

protected theorem Kept.noteWarmth {celsius : Int} (h : Kept c r s) : Kept c r (noteWarmth celsius s) := by
  unfold Machine.noteWarmth
  extract_lets t
  have ht : Kept c r t := .ite h.same h
  exact ht.modPwr

protected theorem Kept.execInterfaceOvertemp {celsius : BitVec 9} (h : Kept c r s) :
    Leaves c r (execInterfaceOvertemp celsius s) :=
  .ite h.setF.noteWarmth.setBit.raise h.setF.noteWarmth

/-! The triple store (R222 to R226). -/

protected theorem Kept.tsWrite {off : Nat} {v : Word} (h : Kept c r s) : Kept c r (tsWrite off v s) := h.setTs.same

protected theorem Kept.queueRepair {off : Nat} {v : Word} (h : Kept c r s) : Kept c r (queueRepair off v s) :=
  .ite h (.ite h.same h.setBit.raise)

protected theorem Kept.tsWriteRaw {k off : Nat} {v : Word} (h : Kept c r s) : Kept c r (tsWriteRaw k off v s) := h.setTs

protected theorem Kept.tsReadRaw {k off : Nat} (h : Kept c r s) : Kept c r (tsReadRaw k off s).2 := by
  unfold Machine.tsReadRaw
  extract_lets c1
  split
  · exact h.setBit.addSat.raise
  · exact h

protected theorem Kept.execTripleStoreRepair (h : Kept c r s) : Leaves c r (execTripleStoreRepair s) := by
  unfold Machine.execTripleStoreRepair
  split
  · exact .ite h h.same.setTs.addSat.grantBackground
  · exact h

/-! Local field I/O (R440 to R458). -/

protected theorem Kept.lioFault {code kind n : Nat} (h : Kept c r s) : Kept c r (lioFault code kind n s) := h.raise
protected theorem Kept.freezeChan {l : Nat} {t : Option Nat} (h : Kept c r s) : Kept c r (freezeChan l t s) := h.modChan
protected theorem Kept.freezeUnloaded {l t : Nat} (h : Kept c r s) : Kept c r (freezeUnloaded l t s) := h.modChan

protected theorem Kept.loadUpdate (h : Kept c r s) : Kept c r (loadUpdate s) :=
  .ite h (.ite h.modLio (h.modLio.forUpto (fun _ _ ht => ht.freezeUnloaded)))

protected theorem Kept.edgeEvent {l : Nat} {rising : Bool} (h : Kept c r s) : Kept c r (edgeEvent l rising s) := h.postDelayed

protected theorem Kept.clearReadback {l : Nat} (h : Kept c r s) : Kept c r (clearReadback l s) :=
  .ite ((Kept.ite h.setBit h.setBit).setBit.setBit) ((Kept.ite h.setBit h.setBit).setBit)

protected theorem Kept.noteCrossing {l : Nat} {rising : Bool} (h : Kept c r s) : Kept c r (noteCrossing l rising s) := h.modChan
protected theorem Kept.noteOn {l : Nat} (h : Kept c r s) : Kept c r (noteOn l s) := h.modChan

protected theorem Kept.execInputCrossing {l : Fin 24} {millivolt : Int} (h : Kept c r s) :
    Leaves c r (execInputCrossing l millivolt s) := by
  unfold Machine.execInputCrossing
  extract_lets c1 up down raw s1 s2 s3
  have hs1 : Kept c r s1 := h.modChan
  have hs2 : Kept c r s2 := (Kept.ite hs1.noteCrossing hs1).noteOn
  have hs3 : Kept c r s3 := hs2.clearReadback
  exact Kept.ite hs3.edgeEvent hs3

protected theorem Kept.takeBand {l : Nat} {event : Bool} (h : Kept c r s) : Kept c r (takeBand l event s) :=
  .ite h.setF.edgeEvent h.setF

protected theorem Kept.execFilteredBandChange {l : Fin 24} (h : Kept c r s) : Leaves c r (execFilteredBandChange l s) :=
  Kept.ite h.takeBand h

protected theorem Kept.execFreezeEnd {l : Fin 24} (h : Kept c r s) : Leaves c r (execFreezeEnd l s) := by
  unfold Machine.execFreezeEnd
  extract_lets s1
  have hs1 : Kept c r s1 := h.modChan.noteOn
  split
  · exact .ite h (Kept.ite hs1.takeBand hs1)
  · exact h

protected theorem Kept.execLoadingSettle (h : Kept c r s) : Leaves c r (execLoadingSettle s) := by
  unfold Machine.execLoadingSettle
  split
  · exact .ite (h.modLio.forUpto (fun _ _ ht => ht.takeBand)) h
  · exact h

protected theorem Kept.setDriven {l v : Nat} (h : Kept c r s) : Kept c r (setDriven l v s) := h.modChan.clearReadback

protected theorem Kept.tryDrive {l v : Nat} (h : Kept c r s) : Kept c r (tryDrive l v s) := by
  unfold Machine.tryDrive
  split
  · exact .ite h.modChan.setBit.setDriven (.ite h.modChan.setDriven h)
  · exact h.setDriven

protected theorem Kept.lioOutWrite {l v : Nat} (h : Kept c r s) : Kept c r (lioOutWrite l v s) := .ite h h.modChan.setReg

protected theorem Kept.execLioOutWrite {l : Fin 24} {v : BitVec 10} (h : Kept c r s) : Leaves c r (execLioOutWrite l v s) :=
  h.noteWrote.lioOutWrite

protected theorem Kept.execPwmReload {l : Fin 24} (h : Kept c r s) : Leaves c r (execPwmReload l s) := Kept.ite h.setDriven h

protected theorem Kept.execOutputOverload {l : Fin 24} (h : Kept c r s) : Leaves c r (execOutputOverload l s) :=
  .ite h h.setBit.setBit.modChan.setDriven.lioFault

protected theorem Kept.execOpenLoad {l : Fin 24} (h : Kept c r s) : Leaves c r (execOpenLoad l s) :=
  .ite h h.setBit.setBit.lioFault

protected theorem Kept.execGroupFieldSupplyChange {g : Fin 3} {inRange : Bool} (h : Kept c r s) :
    Leaves c r (execGroupFieldSupplyChange g inRange s) :=
  Kept.ite h.setBit.setBit.lioFault h.setBit

protected theorem Kept.execTestSupplyOverload {k : Fin 4} (h : Kept c r s) : Leaves c r (execTestSupplyOverload k s) :=
  .ite h ((h.tovlAt fun k => tabSet_rising _ _ _ _ k.tovlAt).same.setBit.setBit.lioFault)

protected theorem Kept.execTestSupplyRetry {k : Fin 4} (h : Kept c r s) : Leaves c r (execTestSupplyRetry k s) :=
  Kept.ite ((h.tovlAt fun k => tabSet_rising _ _ _ _ k.tovlAt).same.setBit) h

protected theorem Kept.execLoopSample {a : Fin 8} {microamp : Int} {atLimit : Bool} (h : Kept c r s) :
    Leaves c r (execLoopSample a microamp atLimit s) :=
  (h.loops fun k => tabSet_rising _ _ _ _ k.loops).same

protected theorem Kept.loopMidnight {a : Nat} (h : Kept c r s) : Kept c r (loopMidnight a s) := by
  unfold Machine.loopMidnight
  extract_lets xs was sum st s1 s2
  have hs1 : Kept c r s1 := .ite h.bump.setReg h.setReg
  have hs2 : Kept c r s2 := hs1.setReg
  split
  · exact .ite hs2 hs2.setBit.lioFault
  · exact hs2

protected theorem Kept.loadReadback (h : Kept c r s) : Kept c r (loadReadback s) :=
  h.foldl fun _ _ ht => .ite ht.hwField.setDriven ht.hwField

protected theorem Kept.sampleChan {l : Nat} (h : Kept c r s) : Kept c r (sampleChan l s) :=
  .ite h.setF.setF.modChan.setBit.lioFault h.setF.setF.modChan

protected theorem Kept.applyCaptured {leaves : Bool} {l : Nat} (h : Kept c r s) : Kept c r (applyCaptured leaves l s) :=
  h.tryDrive

protected theorem Kept.refreshChan {l : Nat} (h : Kept c r s) : Kept c r (refreshChan l s) := by
  unfold Machine.refreshChan
  extract_lets c1 n tmo s1 s2
  have hs1 : Kept c r s1 := h.modChan
  have hs2 : Kept c r s2 := .ite hs1 hs1.tryDrive
  exact .ite (.ite hs2 hs2.setBit.setBit.lioFault) hs1

protected theorem Kept.outputMidnight {beat : Bool} {l : Nat} (h : Kept c r s) : Kept c r (outputMidnight beat l s) := by
  unfold Machine.outputMidnight
  extract_lets leaves s1 s2 s3
  have hs1 : Kept c r s1 := .ite h.setBit h
  have hs2 : Kept c r s2 := .ite hs1 hs1.applyCaptured
  have hs3 : Kept c r s3 := .ite hs2.refreshChan hs2
  exact .ite h hs3.modChan

/-! The safety monitor (R224 to R228, R409 to R439). -/

protected theorem Kept.safFault {code d ch i : Nat} (h : Kept c r s) : Kept c r (safFault code d ch i s) := h.raise
protected theorem Kept.torqueOff {d : Nat} (h : Kept c r s) : Kept c r (torqueOff d s) := .ite h.setDriven h

protected theorem Kept.setCoil {d : Nat} {v : Bool} (h : Kept c r s) : Kept c r (setCoil d v s) :=
  .ite h (.ite h.tryDrive h.setDriven)

protected theorem Kept.enterSto {d : Nat} (h : Kept c r s) : Kept c r (enterSto d s) :=
  .ite h.setF.setF.torqueOff.modDrive.safFault h.setF.setF.torqueOff.modDrive

protected theorem Kept.forceSto {d cause : Nat} (h : Kept c r s) : Kept c r (forceSto d cause s) := by
  unfold Machine.forceSto
  split
  · exact h.setF.enterSto
  · exact h.setF.enterSto
  · exact h.setF.modDrive
  · exact h

protected theorem Kept.forceLockout {d cause : Nat} (h : Kept c r s) : Kept c r (forceLockout d cause s) :=
  .ite h h.setF.setF.setF.torqueOff.modDrive.setCoil

/-- A word noted as split (R224). -/
protected theorem Kept.noteSplit {off : Nat} (h : Kept c r s) :
    Kept c r { s with tsSplit := if s.tsSplit.contains off then s.tsSplit else s.tsSplit ++ [off] } := h.same

protected theorem Kept.tsSplitFound {off : Nat} (h : Kept c r s) : Kept c r (tsSplitFound off s) := by
  unfold Machine.tsSplitFound
  exact (h.setBit.setF.addSat.noteSplit (off := off)).raise.foldl fun _ _ h => h.forceSto

protected theorem Kept.tsRead {off : Nat} (h : Kept c r s) : Kept c r (tsRead off s).2 := by
  unfold Machine.tsRead
  split
  · exact .ite h.queueRepair.raise h
  · exact h.setBit.queueRepair.raise
  · exact h.setBit.addSat.queueRepair.raise
  · exact h.tsSplitFound

protected theorem Kept.execTripleStoreScrub {off : Fin 65536} {found : Option (Fin 3 × Word × Chk)} (h : Kept c r s) :
    Leaves c r (execTripleStoreScrub off found s) :=
  Kept.ite h.setTs.grantBackground.tsRead h.setTs

protected theorem Kept.startSs1 {d : Nat} (h : Kept c r s) : Kept c r (startSs1 d s) := h.setF.setF.modDrive

protected theorem Kept.takeCommand {d cmd : Nat} (h : Kept c r s) : Kept c r (takeCommand d cmd s) := by
  unfold Machine.takeCommand
  split
  · exact h
  · exact .ite h.startSs1 h.enterSto
  · exact h.modDrive
  · exact h.enterSto
  · exact h.enterSto
  · exact h.modDrive

protected theorem Kept.drvCmdWrite {d cmd : Nat} (h : Kept c r s) : Kept c r (drvCmdWrite d cmd s) :=
  .ite h (.ite h.setReg.modDrive.takeCommand h.setReg.modDrive)

protected theorem Kept.execSafDrvCmdWrite {d : Fin 64} {cmd : BitVec 2} (h : Kept c r s) :
    Leaves c r (execSafDrvCmdWrite d cmd s) :=
  h.drvCmdWrite

protected theorem Kept.connRxWrite {i j : Nat} {v : Word} (h : Kept c r s) : Kept c r (connRxWrite i j v s) :=
  .ite h h.setReg.modConn

protected theorem Kept.execSafConnRxWrite {i : Fin 128} {j : Fin 6} {v : Word} (h : Kept c r s) :
    Leaves c r (execSafConnRxWrite i j v s) :=
  h.connRxWrite

protected theorem Kept.execContactorFeedbackTimeout {d : Fin 64} (h : Kept c r s) :
    Leaves c r (execContactorFeedbackTimeout d s) :=
  .ite h h.setBit.setBit.forceLockout.safFault

protected theorem Kept.unlock {d : Nat} (h : Kept c r s) : Kept c r (unlock d s) :=
  .ite h.setF (.ite h.setF h.setF.setF.enterSto.safFault)

protected theorem Kept.execSafUnlockGo {d : Fin 64} (h : Kept c r s) : Leaves c r (execSafUnlockGo d s) := h.unlock

protected theorem Kept.teleFault {bad : Bool} {code i : Nat} (h : Kept c r s) : Kept c r (teleFault bad code i s) :=
  .ite h.setBit.safFault h

protected theorem Kept.checkConn {i : Nat} (h : Kept c r s) : Kept c r (checkConn i s) :=
  .ite h (.ite h.teleFault.teleFault.teleFault.modConn h.teleFault.teleFault.teleFault)

protected theorem Kept.composeTx {d : Nat} (h : Kept c r s) : Kept c r (composeTx d s) :=
  .ite h ((Kept.ite h h.modConn).bump.foldl (fun _ _ ht => ht.setReg))

protected theorem Kept.compareSpeeds {d : Nat} {v v2 : Option Word} (h : Kept c r s) : Kept c r (compareSpeeds d v v2 s) := by
  unfold Machine.compareSpeeds
  split
  · extract_lets far n s1
    have hs1 : Kept c r s1 := h.modDrive
    exact .ite hs1.setBit.forceSto.safFault hs1
  · exact h

protected theorem Kept.noonSs1 {d : Nat} {v : Option Word} (h : Kept c r s) : Kept c r (noonSs1 d v s) := by
  unfold Machine.noonSs1
  extract_lets k s1 s2
  have hs1 : Kept c r s1 := h.setF
  have hs2 : Kept c r s2 := .ite hs1.modDrive hs1
  split
  · extract_lets s3
    have hs3 : Kept c r s3 := .ite hs2 hs2.setBit
    exact hs3.bump.forceSto.safFault
  · exact hs2.bump

protected theorem Kept.resumeWrite {d : Nat} {snap : Word} (h : Kept c r s) : Kept c r (resumeWrite d snap s) := by
  unfold Machine.resumeWrite
  extract_lets t
  have ht : Kept c r t := h.modDrive
  split
  · exact h
  · split
    · exact ht
    · split
      · exact ht.setF
      · exact ht.setF
      · exact ht.setF
      · exact ht.setF.setCoil
      · exact ht

protected theorem Kept.execSafResumeWrite {d : Fin 64} {snap : Word} (h : Kept c r s) :
    Leaves c r (execSafResumeWrite d snap s) :=
  h.resumeWrite

protected theorem Kept.noonSto {d : Nat} (h : Kept c r s) : Kept c r (noonSto d s) := by
  unfold Machine.noonSto
  exact h.setBit.modDrive

protected theorem Kept.noonDrive {d : Nat} (h : Kept c r s) : Kept c r (noonDrive d s) := by
  unfold Machine.noonDrive
  extract_lets a b v s1 s2
  have hs1 : Kept c r s1 := h.modDrive
  have hs2 : Kept c r s2 := .ite hs1.compareSpeeds hs1
  split
  · exact h
  · split
    · exact hs2.noonSs1
    · exact hs2.noonSto
    · exact hs2

protected theorem Kept.readBlock {d : Nat} (h : Kept c r s) : Kept c r (readBlock d s) :=
  .ite (h.forUpto (fun _ _ ht => ht.tsRead)) h

protected theorem Kept.execNoonEvaluation (h : Kept c r s) : Leaves c r (execNoonEvaluation s) := by
  unfold Machine.execNoonEvaluation
  exact .ite h (((h.modDay.forUpto (fun _ _ ht => ht.readBlock)).forUpto (fun _ _ hu => hu.checkConn)).forUpto
    (fun _ _ hv => hv.noonDrive))

protected theorem Kept.defaultSto {d : Nat} (h : Kept c r s) : Kept c r (defaultSto d s) := .ite h.takeCommand h

protected theorem Kept.resumeDeadline {d : Nat} (h : Kept c r s) : Kept c r (resumeDeadline d s) :=
  .ite h.setBit.forceSto.safFault h

protected theorem Kept.safAfternoon (h : Kept c r s) : Kept c r (safAfternoon s) := by
  unfold Machine.safAfternoon
  exact .ite (((h.forUpto (fun _ _ ht => ht.composeTx)).forUpto (fun _ _ hu => hu.defaultSto)).forUpto
    (fun _ _ hv => hv.resumeDeadline)) h

protected theorem Kept.guardRestart {d : Nat} (h : Kept c r s) : Kept c r (guardRestart d s) := h.modDrive.setBit.safFault

protected theorem Kept.guardTest {d : Nat} {rise : Bool} (h : Kept c r s) : Kept c r (guardTest d rise s) := by
  unfold Machine.guardTest
  extract_lets g x n
  exact .ite h (.ite h.guardRestart (.ite h.modDrive (.ite (.ite h.modDrive h) (.ite h.guardRestart (.ite h.modDrive h)))))

protected theorem Kept.restartSamples {d : Nat} (h : Kept c r s) : Kept c r (restartSamples d s) :=
  .ite h.modDrive.guardTest h.modDrive

protected theorem Kept.countConn {i : Nat} (h : Kept c r s) : Kept c r (countConn i s) := .ite h.modConn (.ite h.modConn h)

protected theorem Kept.timeExpect {d : Nat} (h : Kept c r s) : Kept c r (timeExpect d s) := by
  unfold Machine.timeExpect
  split
  · exact .ite h h.modDrive.setBit.forceSto.safFault
  · exact h.modDrive

protected theorem Kept.drivesMidnight {d : Nat} (h : Kept c r s) : Kept c r (drivesMidnight d s) :=
  .ite h (.ite ((Kept.ite h.setF h).modDrive.setCoil.tryDrive) ((Kept.ite h.setF h).modDrive.setCoil))

protected theorem Kept.changedDrives (h : Kept c r s) : Kept c r (changedDrives s) := h.foldl fun _ _ ht => ht.forceSto

protected theorem Kept.safMidnight (h : Kept c r s) : Kept c r (safMidnight s) := by
  unfold Machine.safMidnight
  exact .ite ((((h.forUpto (fun _ _ ht => ht.countConn)).forUpto (fun _ _ hu => hu.timeExpect)).forUpto
    (fun _ _ hv => hv.restartSamples)).forUpto (fun _ _ hw => hw.drivesMidnight)) h

protected theorem Kept.safTakeover (h : Kept c r s) : Kept c r (safTakeover s) :=
  (h.modSaf.forUpto (fun _ _ ht => ht.modDrive)).forUpto fun _ _ hu => .ite hu.modConn hu

protected theorem Kept.startDrives (h : Kept c r s) : Kept c r (startDrives s) := h.forUpto fun _ _ ht => ht.setReg.modDrive

protected theorem Kept.superviseChanged (h : Kept c r s) : Kept c r (superviseChanged s) :=
  h.foldl fun _ _ ht => .ite ht.setReg.modDrive ht

protected theorem Kept.unsuperviseChanged (h : Kept c r s) : Kept c r (unsuperviseChanged s) :=
  h.foldl fun _ _ ht => .ite ht.setReg ht

protected theorem Kept.execTestPulseStart {k : Fin 4} (h : Kept c r s) : Leaves c r (execTestPulseStart k s) := by
  unfold Machine.execTestPulseStart
  extract_lets s1
  have hs1 : Kept c r s1 := (h.pulse fun k => tabSet_rising _ _ _ _ k.pulse).same
  exact .ite h (hs1.forUpto (fun _ _ ht => .ite ht.modInTest.freezeChan ht.modInTest))

protected theorem Kept.failInput {l : Nat} (h : Kept c r s) : Kept c r (failInput l s) :=
  .ite h.modInTest (h.modInTest.setBit.setBit.safFault.forUpto (fun _ _ ht => .ite ht.forceSto ht))

protected theorem Kept.closePeriod {l : Nat} (h : Kept c r s) : Kept c r (closePeriod l s) := .ite h.modInTest.setBit h.modInTest

protected theorem Kept.checkInput {k l : Nat} (h : Kept c r s) : Kept c r (checkInput k l s) :=
  .ite h (.ite ((Kept.ite h.failInput h).closePeriod) (.ite h.failInput h))

protected theorem Kept.execTestPulseCheck {k : Fin 4} (h : Kept c r s) : Leaves c r (execTestPulseCheck k s) :=
  .ite h (h.modSaf.forUpto (fun _ _ ht => ht.checkInput))

protected theorem Kept.execTestPulseEnd {k : Fin 4} (h : Kept c r s) : Leaves c r (execTestPulseEnd k s) :=
  .ite h ((h.pulse fun k => tabSet_rising _ _ _ _ k.pulse).same.forUpto (fun _ _ ht => .ite ht.freezeChan ht))

protected theorem Kept.outputStuck {l : Nat} (h : Kept c r s) : Kept c r (outputStuck l s) := by
  unfold Machine.outputStuck
  split
  · exact h.setBit.setBit.forceLockout.safFault
  · exact h.setBit.setBit.forceLockout.safFault
  · exact h

protected theorem Kept.execDarkTest {l : Fin 24} {pulse readsOn : Bool} (h : Kept c r s) :
    Leaves c r (execDarkTest l pulse readsOn s) :=
  Kept.ite h.outputStuck h

protected theorem Kept.execOutputReadbackFault {l : Fin 24} (h : Kept c r s) : Leaves c r (execOutputReadbackFault l s) := by
  unfold Machine.execOutputReadbackFault
  extract_lets on rb s1
  have hs1 : Kept c r s1 := h.setBit.setBit.lioFault
  exact .ite h (.ite h.setBit.setBit.lioFault (Kept.ite hs1.outputStuck hs1))

protected theorem Kept.monitorFault {code : Nat} (h : Kept c r s) : Kept c r (monitorFault code s) := by
  unfold Machine.monitorFault
  extract_lets s1
  have hs1 : Kept c r s1 := h.setBit.raise
  split
  · exact hs1.safetySignal.setBit.breach
  · exact hs1.setBit
  · exact hs1

protected theorem Kept.execMonitorDiscrepancy (h : Kept c r s) : Leaves c r (execMonitorDiscrepancy s) := h.monitorFault

protected theorem Kept.execForcingPathTest {ok : Bool} (h : Kept c r s) : Leaves c r (execForcingPathTest ok s) :=
  Kept.ite h h.monitorFault

/-! The Zilco ports (R230 to R300). -/

protected theorem Kept.portFault {code p : Nat} {k : optParam Nat 0} (h : Kept c r s) : Kept c r (portFault code p k s) := h.raise
protected theorem Kept.portCount {p k : Nat} (h : Kept c r s) : Kept c r (portCount p k s) := h.addSat.modTelem
protected theorem Kept.advanceGet {p : Nat} (h : Kept c r s) : Kept c r (advanceGet p s) := h.setF.modPort

protected theorem Kept.writeEnd {e : TxEnd} (h : Kept c r s) : Kept c r (writeEnd e s) :=
  (Kept.ite h.mRead.mWrite.mWrite h.mRead.mWrite).mRead.mWrite

protected theorem Kept.endDesc {e : TxEnd} (h : Kept c r s) : Kept c r (endDesc e s) :=
  .ite ((h.untouched.writeEnd.ownFault (fun _ ht => ht.portFault)).settle) h.same.waitFor

protected theorem Kept.retryEnds (h : Kept c r s) : Kept c r (retryEnds s) := h.same.foldl fun _ _ ht => ht.endDesc
protected theorem Kept.endHead {p st sent : Nat} (h : Kept c r s) : Kept c r (endHead p st sent s) := h.endDesc.advanceGet
protected theorem Kept.skipHead {p : Nat} (h : Kept c r s) : Kept c r (skipHead p s) := h.modPort.advanceGet

protected theorem Kept.skipAll {p n : Nat} (h : Kept c r s) : Kept c r (skipAll p n s) := by
  induction n generalizing s with
  | zero => exact h
  | succ n ih => exact .ite (ih h.skipHead) h

protected theorem Kept.failHead {p : Nat} (h : Kept c r s) : Kept c r (failHead p s) := .ite h.skipHead h.endHead

protected theorem Kept.failPosted {p n : Nat} (h : Kept c r s) : Kept c r (failPosted p n s) := by
  induction n generalizing s with
  | zero => exact h
  | succ n ih => exact .ite h (ih h.failHead)

protected theorem Kept.noteLoop {p : Nat} {loopd : Option (BitVec 9)} (h : Kept c r s) : Kept c r (noteLoop p loopd s) := by
  unfold Machine.noteLoop
  split
  · exact .ite h.setF h
  · exact h

protected theorem Kept.failAll {p : Nat} (h : Kept c r s) : Kept c r (failAll p s) := by
  unfold Machine.failAll
  exact (Kept.ite h.noteLoop.bump.bump h).modPort.failPosted

protected theorem Kept.fetchDesc {p : Nat} (h : Kept c r s) : Kept c r (fetchDesc p s).2 := h.mReads
protected theorem Kept.endInvalid {p k : Nat} (h : Kept c r s) : Kept c r (endInvalid p k s) := h.writeEnd.advanceGet.portFault

protected theorem Kept.startFrame {p : Nat} {what : Sending} {f : TxFrame} (h : Kept c r s) : Kept c r (startFrame p what f s) :=
  h.modPort

protected theorem Kept.contend {p : Nat} {how : Attempt} {d : TxDesc} {ws : List Word} (h : Kept c r s) :
    Kept c r (contend p how d ws s) := by
  unfold Machine.contend
  extract_lets s1
  have hs1 : Kept c r s1 := h.modPort
  split
  · exact hs1.portCount
  · exact hs1.startFrame

protected theorem Kept.attempt {p : Nat} {how : Attempt} (h : Kept c r s) : Kept c r (attempt p how s) := by
  unfold Machine.attempt
  extract_lets s1 r2
  have hs1 : Kept c r s1 := h.skipAll
  have hr2 : Kept c r r2.2 := hs1.fetchDesc
  split
  · exact hs1
  · split
    · exact hr2.endInvalid
    · extract_lets q
      have hq : Kept c r q.2 := hr2.mReads
      split
      · exact hr2.endInvalid
      · split
        · exact hs1
        · split
          · exact hq.endInvalid
          · exact hq.contend

protected theorem Kept.frameEnd {p : Nat} (h : Kept c r s) : Kept c r (frameEnd p s) := by
  unfold Machine.frameEnd
  exact .ite h.modPort.setBit.failAll h.modPort

protected theorem Kept.busIdle {p : Nat} (h : Kept c r s) : Kept c r (busIdle p s) := .ite h.frameEnd h

protected theorem Kept.execTransmitAttempt {p : Fin 256} {how : Attempt} (h : Kept c r s) :
    Leaves c r (execTransmitAttempt p how s) :=
  Kept.ite (h.busIdle.ifFree (fun _ ht => ht.attempt)) h.busIdle

protected theorem Kept.startRecovery {p : Nat} (h : Kept c r s) : Kept c r (startRecovery p s) := h.setF.modPort

protected theorem Kept.enterBusOff {p : Nat} (h : Kept c r s) : Kept c r (enterBusOff p s) :=
  .ite h.setF.setBit.portFault.failAll h.setF.setBit.portFault.failAll.startRecovery

protected theorem Kept.confine {p : Nat} (h : Kept c r s) : Kept c r (confine p s) :=
  .ite h (.ite h.enterBusOff (.ite (.ite h.setF.setBit.portFault h) h.setF))

protected theorem Kept.changeCounts {p : Nat} {tec rec' : Nat → Nat} (h : Kept c r s) : Kept c r (changeCounts p tec rec' s) :=
  .ite h h.setF.setF.confine

protected theorem Kept.duskLate {p : Nat} {x : Port} (h : Kept c r s) : Kept c r (duskLate p x s) :=
  .ite h.setBit.raise.portCount h

protected theorem Kept.sentWhat {p : Nat} {x : Port} (h : Kept c r s) : Kept c r (sentWhat p x s) := by
  unfold Machine.sentWhat
  split
  · exact h.emit.endHead
  · exact h.emit.portCount
  · exact h.emit
  · exact h.emit
  · exact h

protected theorem Kept.attemptFailed {p cls : Nat} (h : Kept c r s) : Kept c r (attemptFailed p cls s) := by
  unfold Machine.attemptFailed
  extract_lets x s1 s2 s3
  have hs1 : Kept c r s1 := h.modPort.duskLate
  have hs2 : Kept c r s2 := .ite hs1 hs1.portCount
  have hs3 : Kept c r s3 := hs2.modPort
  split
  · exact .ite hs3 hs3.endHead.portFault
  · exact hs2.portFault
  · exact hs2.modPort.portFault
  · exact hs2
  · exact hs2

protected theorem Kept.noteError {p cls : Nat} {fast : Bool} (h : Kept c r s) : Kept c r (noteError p cls fast s) := by
  unfold Machine.noteError
  extract_lets s1
  have hs1 : Kept c r s1 := h.setF.setF
  exact .ite h (.ite hs1.setBit.setBit.portFault (.ite hs1.setBit (.ite hs1.setBit.portCount hs1.setBit.portCount)))

protected theorem Kept.countRow {p : Nat} {row : ErrRow} (h : Kept c r s) : Kept c r (countRow p row s) := by
  unfold Machine.countRow
  split
  · exact h.changeCounts
  · exact h.changeCounts
  · exact h.changeCounts
  · exact h
  · exact h.changeCounts
  · exact h.changeCounts
  · exact h.changeCounts
  · exact h.changeCounts

protected theorem Kept.portError {p cls : Nat} {fast : Bool} {row : ErrRow} (h : Kept c r s) :
    Kept c r (portError p cls fast row s) := by
  unfold Machine.portError
  exact (Kept.ite h.noteError.attemptFailed h.noteError).countRow.modPort

protected theorem Kept.execErrorDetected {p : Fin 256} {cls : Fin 9} {fast : Bool} {row : ErrRow} {loopd : Option (BitVec 9)}
    (h : Kept c r s) :
    Leaves c r (execErrorDetected p cls fast row loopd s) :=
  .ite h h.noteLoop.portError

protected theorem Kept.execTransmitSuccess {p : Fin 256} {loopd : BitVec 9} (h : Kept c r s) :
    Leaves c r (execTransmitSuccess p loopd s) :=
  .ite h (.ite h.noteLoop.portError h.noteLoop.portCount.duskLate.sentWhat.modPort.changeCounts.frameEnd)

protected theorem Kept.execBusOffRecoveryComplete {p : Fin 256} {driverHolds : Bool} (h : Kept c r s) :
    Leaves c r (execBusOffRecoveryComplete p driverHolds s) :=
  .ite h h.setReg.modPort.portFault.busIdle

protected theorem Kept.execIntegrationComplete {p : Fin 256} (h : Kept c r s) : Leaves c r (execIntegrationComplete p s) :=
  Kept.ite h h.modPort.busIdle

protected theorem Kept.execProtocolException {p : Fin 256} (h : Kept c r s) : Leaves c r (execProtocolException p s) :=
  .ite h h.setBit.modPort.portFault

protected theorem Kept.execDominantTimeout {p : Fin 256} (h : Kept c r s) : Leaves c r (execDominantTimeout p s) :=
  .ite h h.setBit.portFault.setF.confine

protected theorem Kept.execDriverCurrentLimit {p : Fin 256} (h : Kept c r s) : Leaves c r (execDriverCurrentLimit p s) :=
  .ite h h.setBit.portFault.modPort.enterBusOff

protected theorem Kept.execDriverDisable {p : Fin 256} (h : Kept c r s) : Leaves c r (execDriverDisable p s) :=
  .ite h (.ite h.failAll h.setBit.portFault.failAll)

protected theorem Kept.execGroupSupplyFail {g : Fin 32} (h : Kept c r s) : Leaves c r (execGroupSupplyFail g s) :=
  h.foldl fun _ _ ht => .ite ht ht.modPort.setBit.portFault.failAll.frameEnd

protected theorem Kept.execGroupSupplyReturn {g : Fin 32} (h : Kept c r s) : Leaves c r (execGroupSupplyReturn g s) :=
  h.foldl fun _ _ ht => .ite ht.modPort ht

protected theorem Kept.countIntrusion {p k : Nat} (h : Kept c r s) : Kept c r (countIntrusion p k s) :=
  h.setBit.portCount.portFault

protected theorem Kept.adoptMutes {p : Nat} {f : RxFrame} (h : Kept c r s) : Kept c r (adoptMutes p f s) :=
  .ite (h.forUpto (fun _ _ ht => ht.setBit)) h

protected theorem Kept.awaitDeposit {p : Nat} {f : RxFrame} {intr : Bool} (h : Kept c r s) : Kept c r (awaitDeposit p f intr s) :=
  .ite h.modPort h.portCount.portFault

protected theorem Kept.takeFrame {p : Nat} {f : RxFrame} (h : Kept c r s) : Kept c r (takeFrame p f s) := by
  unfold Machine.takeFrame
  extract_lets s1 i s2
  have hs1 : Kept c r s1 := (Kept.ite h h.changeCounts).adoptMutes
  have hs2 : Kept c r s2 := .ite hs1.countIntrusion hs1
  exact .ite hs2 hs2.awaitDeposit

protected theorem Kept.execFrameValid {p : Fin 256} {f : RxFrame} (h : Kept c r s) : Leaves c r (execFrameValid p f s) :=
  .ite (Kept.ite h.busIdle h) ((Kept.ite h.busIdle h).portCount.takeFrame.busIdle)

protected theorem Kept.noteArrival {p : Nat} {f : RxFrame} (h : Kept c r s) : Kept c r (noteArrival p f s) := by
  unfold Machine.noteArrival
  extract_lets id s1
  split
  · exact h
  · split
    · exact h.same
    · exact h

protected theorem Kept.deposit {p d : Nat} {w : Await} (h : Kept c r s) : Kept c r (deposit p d w s) := by
  unfold Machine.deposit
  extract_lets bufw idx a trunc s1 s2 s3 s4 s5 s6 s7 s8
  have hs1 : Kept c r s1 := .ite h.portCount.portFault h
  have hs2 : Kept c r s2 := hs1.mWrites
  have hs3 : Kept c r s3 := hs2.mWrite
  have hs4 : Kept c r s4 := hs3.mWrite
  have hs5 : Kept c r s5 := hs4.mWrite
  have hs6 : Kept c r s6 := hs5.mWrite
  have hs7 : Kept c r s7 := hs6.modPort
  have hs8 : Kept c r s8 := hs7.setF.setF
  exact hs8.noteArrival.postEvent

protected theorem Kept.depositBegins {p : Nat} {w : Await} {t : List Await} (h : Kept c r s) : Kept c r (depositBegins p w t s) :=
  h.same.modPort

protected theorem Kept.beginDeposit {p : Nat} (h : Kept c r s) : Kept c r (beginDeposit p s) := by
  unfold Machine.beginDeposit
  split
  · exact h
  · exact .ite h (.ite h.modPort h.depositBegins)

protected theorem Kept.decideDeposit {p : Nat} (h : Kept c r s) : Kept c r (decideDeposit p s) := by
  unfold Machine.decideDeposit
  split
  · exact h
  · exact .ite h (.ite h.modPort.portCount.portFault h.depositBegins)

protected theorem Kept.finishDeposit {p : Nat} (h : Kept c r s) : Kept c r (finishDeposit p s) := by
  unfold Machine.finishDeposit
  split
  · exact h
  · next w t _ =>
    extract_lets a u
    have hu : Kept c r u := Kept.ownFault h.modPort.deposit fun _ h1 => h1.portFault
    clear_value u
    have hs : Kept c r { u with served := tabSet 0 s.served (pointOf (word a)) (s.now + 1) } :=
      ⟨fun hr => (hu.served fun _ => tabSet_rising _ _ _ _ (h.canonical hr).served).wf hr, hu.custody⟩
    exact .ite h (.ite h.waitFor hs.same)

protected theorem Kept.depositTick {p : Nat} (h : Kept c r s) : Kept c r (depositTick p s) :=
  .ite h (.ite h.finishDeposit h.finishDeposit.modPort)

protected theorem Kept.endPorts (h : Kept c r s) : Kept c r (endPorts s) :=
  (h.foldl (fun _ _ ht => ht.depositTick.decideDeposit)).serveOwed

protected theorem Kept.execFrameDeposit {p : Fin 256} {d : DepositStep} (h : Kept c r s) :
    Leaves c r (execFrameDeposit p d s) := by
  unfold Machine.execFrameDeposit
  split
  · exact h.beginDeposit
  · exact h.finishDeposit

protected theorem Kept.txptrWrite {p put : Nat} (h : Kept c r s) : Kept c r (txptrWrite p put s) := by
  unfold Machine.txptrWrite
  exact h.setF.modPort

protected theorem Kept.portTick {p : Nat} (h : Kept c r s) : Kept c r (portTick p s) := .ite h h.failPosted

protected theorem Kept.execTxptrWrite {p : Fin 256} {put : BitVec 8} (h : Kept c r s) : Leaves c r (execTxptrWrite p put s) :=
  h.txptrWrite

protected theorem Kept.txcanCancel {p i : Nat} (h : Kept c r s) : Kept c r (txcanCancel p i s) :=
  .ite h.setF (.ite h.setF (.ite h.setF.endHead h.setF.endDesc.modPort))

protected theorem Kept.execTxcanCancel {p : Fin 256} {index : BitVec 8} (h : Kept c r s) :
    Leaves c r (execTxcanCancel p index s) :=
  h.txcanCancel

protected theorem Kept.rxack {p count : Nat} (h : Kept c r s) : Kept c r (rxack p count s) := (Kept.ite h.portFault h).setF
protected theorem Kept.execRxack {p : Fin 256} {count : BitVec 9} (h : Kept c r s) : Leaves c r (execRxack p count s) := h.rxack

protected theorem Kept.cfgEnter {p : Nat} (h : Kept c r s) : Kept c r (cfgEnter p s) :=
  .ite h.setBit (.ite h.setBit.modPort.bump h.setBit.setBit.failAll.bump)

protected theorem Kept.execCfgEnter {p : Fin 256} (h : Kept c r s) : Leaves c r (execCfgEnter p s) := h.cfgEnter

protected theorem Kept.cfgLeave {p : Nat} (h : Kept c r s) : Kept c r (cfgLeave p s) :=
  .ite h.setBit.modPort (.ite h.setBit.setBit.modPort h.setBit.portFault)

protected theorem Kept.execCfgLeave {p : Fin 256} (h : Kept c r s) : Leaves c r (execCfgLeave p s) := h.cfgLeave
protected theorem Kept.loreqSet {p : Nat} (h : Kept c r s) : Kept c r (loreqSet p s) := .ite h h.setBit.modPort.bump
protected theorem Kept.execLoreqSet {p : Fin 256} (h : Kept c r s) : Leaves c r (execLoreqSet p s) := h.loreqSet
protected theorem Kept.loreqClear {p : Nat} (h : Kept c r s) : Kept c r (loreqClear p s) := h.setBit.modPort
protected theorem Kept.execLoreqClear {p : Fin 256} (h : Kept c r s) : Leaves c r (execLoreqClear p s) := h.loreqClear
protected theorem Kept.borec {p : Nat} (h : Kept c r s) : Kept c r (borec p s) := .ite h.startRecovery h
protected theorem Kept.execBorec {p : Fin 256} (h : Kept c r s) : Leaves c r (execBorec p s) := h.borec
protected theorem Kept.unmute {p k : Nat} (h : Kept c r s) : Kept c r (unmute p k s) := h.setF
protected theorem Kept.execUnmute {p : Fin 256} {k : Fin 32} (h : Kept c r s) : Leaves c r (execUnmute p k s) := h.unmute

protected theorem Kept.execBeaconSend {p sub : Fin 256} (h : Kept c r s) : Leaves c r (execBeaconSend p sub s) :=
  .ite h.busIdle h.busIdle.modPort.setReg.startFrame

protected theorem Kept.execBeaconMissed {p : Fin 256} (h : Kept c r s) : Leaves c r (execBeaconMissed p s) :=
  .ite h.modPort.portFault h

protected theorem Kept.execEchoRequestSend {p : Fin 256} (h : Kept c r s) : Leaves c r (execEchoRequestSend p s) := by
  unfold Machine.execEchoRequestSend
  extract_lets s1 e
  have hs1 : Kept c r s1 := h.busIdle
  split
  · exact .ite hs1.bump.modPort.startFrame hs1
  · exact h

protected theorem Kept.execEchoReplyReceive {p : Fin 256} {k : Fin 32} {e q : Word} {m : Nat} (h : Kept c r s) :
    Leaves c r (execEchoReplyReceive p k e q m s) := by
  unfold Machine.execEchoReplyReceive
  extract_lets s1 twice
  have hs1 : Kept c r s1 := h.modPort
  split
  · exact h
  · exact .ite hs1.bump.setReg.modPort hs1.portFault

protected theorem Kept.execDelayNoticeSend {p : Fin 256} (h : Kept c r s) : Leaves c r (execDelayNoticeSend p s) := by
  unfold Machine.execDelayNoticeSend
  extract_lets s1
  have hs1 : Kept c r s1 := h.busIdle
  split
  · exact .ite hs1.modPort.startFrame hs1
  · exact h

protected theorem Kept.stationMidnight {p k : Nat} (h : Kept c r s) : Kept c r (stationMidnight p k s) := by
  unfold Machine.stationMidnight
  extract_lets a n was s1 s2 s3 s4
  have hs1 : Kept c r s1 := h.setBit
  have hs2 : Kept c r s2 := hs1.setF
  have hs3 : Kept c r s3 := .ite hs2.portFault hs2
  have hs4 : Kept c r s4 := .ite hs3.setBit.portFault hs3
  exact .ite hs1 hs4.setBit

protected theorem Kept.delayMidnight {p k : Nat} (h : Kept c r s) : Kept c r (delayMidnight p k s) := .ite h.addSat h

protected theorem Kept.portMidnight {p : Nat} (h : Kept c r s) : Kept c r (portMidnight p s) := by
  unfold Machine.portMidnight
  extract_lets due s1 s2 s3
  have hs1 : Kept c r s1 := .ite h h.modPort
  have hs2 : Kept c r s2 := by
    unfold s2
    split
    · exact hs1.portFault
    · exact hs1
  have hs3 : Kept c r s3 := hs2.modPort
  exact .ite hs1 (hs3.forUpto (fun _ _ ht => ht.stationMidnight.delayMidnight))

protected theorem Kept.portTakeover {p : Nat} (h : Kept c r s) : Kept c r (portTakeover p s) := h.forUpto fun _ _ ht => ht.setF

/-! The signal chain unit (R333 to R355). -/

protected theorem Kept.chClear {i : Nat} (h : Kept c r s) : Kept c r (chClear i s) := h.setF.modSigChan

protected theorem Kept.chStart {i : Nat} (h : Kept c r s) : Kept c r (chStart i s) :=
  .ite h (.ite h.setF.setBit.raise (.ite h.setF.setBit.raise h.setReg.chClear.modSigChan))

protected theorem Kept.chStop {i : Nat} (h : Kept c r s) : Kept c r (chStop i s) := .ite h.setF h
protected theorem Kept.execChannelGo {i : Fin 2048} (h : Kept c r s) : Leaves c r (execChannelGo i s) := h.chStart
protected theorem Kept.execChannelStop {i : Fin 2048} (h : Kept c r s) : Leaves c r (execChannelStop i s) := h.chStop
protected theorem Kept.stopChains (h : Kept c r s) : Kept c r (stopChains s) := h.forUpto fun _ _ ht => ht.chStop
protected theorem Kept.autoStart (h : Kept c r s) : Kept c r (autoStart s) := h.forUpto fun _ _ ht => .ite ht.chStart ht

protected theorem Kept.thresholdEvent {i k sec o : Nat} (h : Kept c r s) : Kept c r (thresholdEvent i k sec o s) :=
  .ite h.postEvent h

protected theorem Kept.setHigh {i sec o : Nat} {v : Bool} (h : Kept c r s) : Kept c r (setHigh i sec o v s) :=
  .ite h h.modSigChan.thresholdEvent

protected theorem Kept.setLow {i sec o : Nat} {v : Bool} (h : Kept c r s) : Kept c r (setLow i sec o v s) :=
  .ite h h.modSigChan.thresholdEvent

protected theorem Kept.thresholds {i sec o : Nat} {z : Word} (h : Kept c r s) : Kept c r (thresholds i sec o z s) :=
  .ite h.setLow.setHigh h.setHigh.setLow

protected theorem Kept.noteSat {i : Nat} (h : Kept c r s) : Kept c r (noteSat i s) :=
  .ite h.setBit.addSat h.setBit.addSat.modSigChan.raise

protected theorem Kept.formOutput {i sec idx : Nat} (h : Kept c r s) : Kept c r (formOutput i sec idx s) := by
  unfold Machine.formOutput
  extract_lets ys y z sat' o bad settle a s1 s2 s3 s4
  have hs1 : Kept c r s1 := h.mWrite.mWrite
  have hs2 : Kept c r s2 := hs1.setF
  have hs3 : Kept c r s3 := .ite hs2.noteSat hs2
  have hs4 : Kept c r s4 := .ite hs3 hs3.setF
  exact .ite hs4 hs4.thresholds

protected theorem Kept.takePosition {i sec idx : Nat} {w : Word} {filled : Bool} (h : Kept c r s) :
    Kept c r (takePosition i sec idx w filled s) :=
  .ite h.modSigChan (.ite h.modSigChan.modSigChan.formOutput h.modSigChan.modSigChan)

protected theorem Kept.fillGap {i sec idx n : Nat} (h : Kept c r s) : Kept c r (fillGap i sec idx n s) := by
  induction n generalizing sec idx s with
  | zero => exact h
  | succ n ih => exact ih h.takePosition

protected theorem Kept.takeSync {i sec idx : Nat} (h : Kept c r s) : Kept c r (takeSync i sec idx s) := by
  unfold Machine.takeSync
  split
  · exact .ite h.setF.modSigChan h
  · exact h

protected theorem Kept.acceptSample {i sec idx : Nat} {w : Word} (h : Kept c r s) : Kept c r (acceptSample i sec idx w s) := by
  unfold Machine.acceptSample
  exact h.takeSync.takePosition.modSigChan

protected theorem Kept.takeSample {i sec idx : Nat} {w : Word} (h : Kept c r s) : Kept c r (takeSample i sec idx w s) := by
  unfold Machine.takeSample
  split
  · exact h
  · split
    · exact h.acceptSample
    · extract_lets d s1
      have hs1 : Kept c r s1 := h.setBit.addSat.raise
      exact .ite h.setBit.addSat.raise (.ite h.acceptSample (.ite hs1.fillGap.acceptSample h.setBit.chClear.raise.acceptSample))

protected theorem Kept.feedptrWrite {put : Nat} (h : Kept c r s) : Kept c r (feedptrWrite put s) := by
  unfold Machine.feedptrWrite
  extract_lets was s1
  have hs1 : Kept c r s1 := h.setF
  exact hs1.modSig

protected theorem Kept.execFeedptrWrite {put : BitVec 8} (h : Kept c r s) : Leaves c r (execFeedptrWrite put s) := h.feedptrWrite

protected theorem Kept.fetchFeed (h : Kept c r s) : Kept c r (fetchFeed s).2 := by
  unfold Machine.fetchFeed
  extract_lets a d
  have hd : Kept c r d.2 := h.mReads
  split
  · extract_lets e r5
    have hr5 : Kept c r r5.2 := hd.mReads
    exact hr5
  · exact hd

protected theorem Kept.takeFeed {f : Feed} {ws : List Word} (h : Kept c r s) : Kept c r (takeFeed f ws s) :=
  h.forUpto fun _ _ ht => ht.takeSample

protected theorem Kept.endFeed {reason : Nat} (h : Kept c r s) : Kept c r (endFeed reason s) :=
  .ite h.mRead.mWrite.modSig.setF.setBit.raise h.mRead.mWrite.modSig.setF

protected theorem Kept.refuseFeed {reason : Nat} (h : Kept c r s) : Kept c r (refuseFeed reason s) := h.setBit.raise.endFeed

protected theorem Kept.processFeed (h : Kept c r s) : Kept c r (processFeed s) := by
  unfold Machine.processFeed
  extract_lets r1
  have hr1 : Kept c r r1.2 := h.fetchFeed
  split
  · exact hr1.refuseFeed
  · extract_lets q
    have hq : Kept c r q.2 := hr1.mReads
    split
    · exact hr1.refuseFeed
    · split
      · exact hq.refuseFeed
      · exact hq.takeFeed.endFeed.ownFault fun _ ht => ht.raise

protected theorem Kept.execFeedProcess (h : Kept c r s) : Leaves c r (execFeedProcess s) :=
  Kept.ite (h.ifFree (fun _ ht => ht.processFeed)) h

protected theorem Kept.armPps (h : Kept c r s) : Kept c r (armPps s) := h.setF.modSig
protected theorem Kept.execSyncArmNextPps (h : Kept c r s) : Leaves c r (execSyncArmNextPps s) := h.noteWrote.armPps
protected theorem Kept.armMidnight (h : Kept c r s) : Kept c r (armMidnight s) := .ite h.setF.modSig.failSync h.setF.modSig
protected theorem Kept.execSyncArmMidnight (h : Kept c r s) : Leaves c r (execSyncArmMidnight s) := h.noteWrote.armMidnight
protected theorem Kept.execSyncArmFail (h : Kept c r s) : Leaves c r (execSyncArmFail s) := .ite h.failSync (.ite h.failSync h)
protected theorem Kept.inUse {i : Nat} (h : Kept c r s) : Kept c r (inUse i s) := h.setBit.raise

protected theorem Kept.writeThreshold {i j : Nat} {v : Word} (h : Kept c r s) : Kept c r (writeThreshold i j v s) :=
  .ite h.inUse h.modSigChan.setReg

protected theorem Kept.changedChannels {cs : List Nat} (h : Kept c r s) : Kept c r (changedChannels cs s) :=
  (h.foldl (fun _ _ ht => ht.chStop)).modSig

protected theorem Kept.restartChannels (h : Kept c r s) : Kept c r (restartChannels s) :=
  (h.foldl (fun _ _ ht => .ite ht.chStart ht)).modSig

/-! What a granted access does (R9 to R12, R35, R223, R497). -/

protected theorem Kept.popLate (h : Kept c r s) : Kept c r (popLate s) := by
  unfold Machine.popLate
  split
  · exact h.same.setReg.setReg
  · exact h

protected theorem Kept.popOvr (h : Kept c r s) : Kept c r (popOvr s) := h.same

protected theorem Kept.popMism (h : Kept c r s) : Kept c r (popMism s) := by
  unfold Machine.popMism
  split
  · exact h.same.setReg.setReg
  · exact h

protected theorem Kept.popViol (h : Kept c r s) : Kept c r (popViol s) := by
  unfold Machine.popViol
  split
  · exact h.same.setReg.setReg
  · exact h

protected theorem Kept.popTrace (h : Kept c r s) : Kept c r (popTrace s) := .ite h (.ite h.modTrace h.modTrace)
protected theorem Kept.latchDay {m : Nat} (h : Kept c r s) : Kept c r (latchDay m s) := h.latchWord
protected theorem Kept.latchClock {m : Nat} (h : Kept c r s) : Kept c r (latchClock m s) := h.latchWord.latchWord

protected theorem Kept.clearRc {a : Nat} (h : Kept c r s) : Kept c r (clearRc a s) := by
  unfold Machine.clearRc
  extract_lets s1
  split
  · extract_lets kept s2
    have hs2 : Kept c r s2 := h.setReg
    exact .ite h hs2.same
  · exact h

protected theorem Kept.popUnlessBorn {a : Nat} {f : State → State} (h : Kept c r s) (hf : ∀ x, Kept c r x → Kept c r (f x)) :
    Kept c r (popUnlessBorn a f s) :=
  .ite h (hf _ h)

protected theorem Kept.reseed (h : Kept c r s) : Kept c r (reseed s) := h.same.addSat
protected theorem Kept.drawn (h : Kept c r s) : Kept c r (drawn s) := .ite ((Kept.ite h.reseed h).same) h

protected theorem Kept.readEffect {m a : Nat} (h : Kept c r s) : Kept c r (readEffect m a s) := by
  unfold Machine.readEffect
  exact .ite (h.popUnlessBorn (fun _ ht => ht.popLate)) (.ite (h.popUnlessBorn (fun _ hu => hu.popOvr))
    (.ite (h.popUnlessBorn (fun _ hv => hv.popMism)) (.ite (h.popUnlessBorn (fun _ hw => hw.popViol))
    (.ite (h.popUnlessBorn (fun _ hx => hx.popTrace)) (.ite h.latchDay (.ite h.latchClock (.ite h.drawn h.clearRc)))))))

protected theorem Kept.readReg {m : Nat} {peek : Bool} {a : Nat} (h : Kept c r s) : Kept c r (readReg m peek a s).2 := by
  unfold Machine.readReg
  split
  · exact h.bump
  · exact h.bump.readEffect

protected theorem Kept.readMapped {m : Nat} {plant : Option (Nat × Nat)} {peek : Bool} {a : Nat} (h : Kept c r s) :
    Kept c r (readMapped m plant peek a s).2 := by
  unfold Machine.readMapped
  split
  · split
    · exact h
    · exact h.memRead
  · split
    · split
      · exact h
      · exact h.tsRead
    · split
      · split
        · exact h
        · exact h.tsReadRaw
      · exact h.readReg

protected theorem Kept.writeFields {d : RegDesc} {a : Nat} {v : Word} (h : Kept c r s) : Kept c r (writeFields d a v s) :=
  h.setReg

protected theorem Kept.writePlain {a : Nat} {v : Word} (h : Kept c r s) : Kept c r (writePlain a v s) := by
  unfold Machine.writePlain
  split
  · exact h.writeFields
  · exact h

protected theorem Kept.writeLater {a : Nat} {v : Word} (h : Kept c r s) : Kept c r (writeLater a v s) := by
  unfold Machine.writeLater
  split
  · exact h.modDay
  · exact h

protected theorem Kept.applyLater (h : Kept c r s) : Kept c r (applyLater s) := by
  unfold Machine.applyLater
  extract_lets s1
  have hs1 : Kept c r s1 := h.foldl fun _ _ ht => ht.writePlain
  exact hs1.modDay

protected theorem Kept.writeMode {p : Nat} {v : Word} (h : Kept c r s) : Kept c r (writeMode p v s) := by
  unfold Machine.writeMode
  extract_lets s1 s2 s3 s4
  have hs1 : Kept c r s1 := .ite h.setF h
  have hs2 : Kept c r s2 := hs1.setBit
  have hs3 : Kept c r s3 := .ite (.ite hs2 hs2.loreqSet) hs2.loreqClear
  have hs4 : Kept c r s4 := .ite hs3.borec hs3
  exact .ite hs4.cfgEnter hs4.cfgLeave

protected theorem Kept.writeZp {a : Nat} {v : Word} (h : Kept c r s) : Kept c r (writeZp a v s) := by
  unfold Machine.writeZp
  extract_lets p off
  exact .ite h.writeMode (.ite (.ite h.writePlain h.portFault) (.ite (.ite h.writePlain h.portFault)
    (.ite h.txptrWrite (.ite (.ite h.txcanCancel h)
    (.ite h.rxack (.ite h.writeLater (.ite ((Kept.ite h.unmute h).writeLater) h.writePlain)))))))

protected theorem Kept.writeTim {a : Nat} {v : Word} (h : Kept c r s) : Kept c r (writeTim a v s) := by
  unfold Machine.writeTim
  exact .ite h.setReg (.ite h.writePlain.reselect (.ite h.writePlain.refreshDom (.ite h.writePlain.refreshDom h.writePlain)))

protected theorem Kept.writeCtl {i : Nat} {v : Word} (h : Kept c r s) : Kept c r (writeCtl i v s) :=
  .ite ((Kept.ite h.writePlain.chStart h.writePlain).chStop) (.ite h.writePlain.chStart h.writePlain)

protected theorem Kept.writeSync {v : Word} (h : Kept c r s) : Kept c r (writeSync v s) := by
  unfold Machine.writeSync
  extract_lets s1
  have hs1 : Kept c r s1 := h.setReg
  split
  · exact hs1.setF
  · exact hs1.armPps
  · exact hs1.armMidnight
  · exact hs1

protected theorem Kept.writeSig {a : Nat} {v : Word} (h : Kept c r s) : Kept c r (writeSig a v s) := by
  unfold Machine.writeSig
  extract_lets c1 j
  exact .ite (.ite h.writePlain h) (.ite (.ite h.writePlain h.inUse)
    (.ite h.feedptrWrite (.ite h.writeSync (.ite h.writePlain (.ite (.ite h.writePlain h.inUse)
    (.ite h.writeCtl (.ite h.writeThreshold (.ite h.writePlain (.ite h.writePlain h.inUse)))))))))

protected theorem Kept.writeSaf {a : Nat} {v : Word} (h : Kept c r s) : Kept c r (writeSaf a v s) :=
  .ite (.ite h.unlock h) (.ite h.drvCmdWrite (.ite h.resumeWrite (.ite h.connRxWrite h.writePlain)))

protected theorem Kept.writeLio {a : Nat} {v : Word} (h : Kept c r s) : Kept c r (writeLio a v s) :=
  .ite h.lioOutWrite (.ite h.writeLater h.writePlain)

protected theorem Kept.setPref {b : Bool} (h : Kept c r s) : Kept c r (setPref b s) := .ite h h.setBit.setBit.raise

theorem gateR_low (n j : Nat) : 0x040C1000 ≤ gateR n j := by unfold gateR; omega

protected theorem Kept.regionWrite {m n j : Nat} {v : Word} (h : Kept c r s) (hn : gateR n j < 0x040D0000) :
    Kept c r (regionWrite m n j v s) := by
  have hf (k : Canonical s) (w : Nat × Word) (hw : w ∈ s.day.midRegions.filter (·.1 != gateR n j)) :
      0x040C1000 ≤ w.1 ∧ w.1 < 0x040D0000 := k.midRegions w (List.mem_of_mem_filter hw)
  unfold Machine.regionWrite
  extract_lets u
  split
  · exact h.setBit.raise
  · split
    · refine h.midRegions fun k w hw => ?_
      rcases List.mem_append.1 hw with hw | hw
      · exact hf k w hw
      · rw [List.mem_singleton.1 hw]
        exact ⟨gateR_low n j, hn⟩
    · exact (h.midRegions hf).same

protected theorem Kept.applyRegions (h : Kept c r s) : Kept c r (applyRegions s) :=
  Kept.midRegions (l := []) (h.foldl fun _ _ h1 => h1.setReg) (by simp)

theorem gateR_of_block {a : Nat} (hb : a / 0x10000 - 0x400 = 12) (ha : 0x040C1000 ≤ a) :
    gateR ((a - 0x040C1000) / 4) ((a - 0x040C1000) % 4) < 0x040D0000 := by
  unfold gateR; omega

protected theorem Kept.writeReg {m a : Nat} {v : Word} (h : Kept c r s) : Kept c r (writeReg m a v s) := by
  unfold Machine.writeReg
  extract_lets u
  have hu : Kept c r u := h.noteWrote
  split
  · exact hu.writeZp
  · exact hu.writeTim
  · exact hu.writeSig
  · exact hu.writeSaf
  · exact hu.writeLio
  · exact .ite hu.setPref hu.writePlain
  · next hb =>
    split
    · next ha => exact hu.regionWrite (gateR_of_block hb ha)
    · exact hu.writePlain
  · exact .ite hu.writeLater hu.writePlain
  · exact hu.writePlain

protected theorem Kept.writeMapped {m a : Nat} {v : Word} (h : Kept c r s) : Kept c r (writeMapped m a v s) :=
  .ite h.memWrite (.ite ((Kept.ite h.markWrite h).tsWrite) (.ite h.tsWriteRaw h.writeReg))

protected theorem Kept.gatedRead {m : Nat} {secure : Bool} {plant : Option (Nat × Nat)} {walk : Bool} {a : Word}
    (h : Kept c r s) :
    Kept c r (gatedRead m secure plant walk a s).2 := by
  unfold Machine.gatedRead
  extract_lets s1 r2
  have hs1 : Kept c r s1 := h.touch
  have hr2 : Kept c r r2.2 := hs1.readMapped
  split
  · exact hs1.violate
  · exact hr2

protected theorem Kept.gatedWrite {m : Nat} {secure : Bool} {a v : Word} (h : Kept c r s) :
    Kept c r (gatedWrite m secure a v s).2 := by
  unfold Machine.gatedWrite
  extract_lets s1
  have hs1 : Kept c r s1 := h.touch
  split
  · exact hs1.violate
  · exact hs1.writeMapped

protected theorem Kept.readCommand {m : Nat} {a : Word} (h : Kept c r s) : Leaves c r (readCommand m a s) :=
  h.ifFree fun _ ht => ht.gatedRead.emit

protected theorem Kept.execFabLateRead {master : Fin 1032} {secure : Bool} (h : Kept c r s) :
    Leaves c r (execFabLateRead master secure s) :=
  h.readCommand

protected theorem Kept.execDayOvrRead {master : Fin 1032} {secure : Bool} (h : Kept c r s) :
    Leaves c r (execDayOvrRead master secure s) :=
  h.readCommand

protected theorem Kept.execCmpMismRead {master : Fin 1032} {secure : Bool} (h : Kept c r s) :
    Leaves c r (execCmpMismRead master secure s) :=
  h.readCommand

protected theorem Kept.execGateViolRead {master : Fin 1032} {secure : Bool} (h : Kept c r s) :
    Leaves c r (execGateViolRead master secure s) :=
  h.readCommand

protected theorem Kept.execDbgTrrdRead {master : Fin 1032} {secure : Bool} (h : Kept c r s) :
    Leaves c r (execDbgTrrdRead master secure s) :=
  h.readCommand

protected theorem Kept.execDayNumlRead {master : Fin 1032} {secure : Bool} (h : Kept c r s) :
    Leaves c r (execDayNumlRead master secure s) :=
  h.readCommand

protected theorem Kept.execTimClknsRead {master : Fin 1032} {secure : Bool} (h : Kept c r s) :
    Leaves c r (execTimClknsRead master secure s) :=
  h.readCommand

protected theorem Kept.execCounterReadClear {master : Fin 1032} {secure : Bool} {a : Word} (h : Kept c r s) :
    Leaves c r (execCounterReadClear master secure a s) :=
  h.readCommand

protected theorem Kept.execSecRngRead (h : Kept c r s) : Leaves c r (execSecRngRead s) := h.readReg.emit

protected theorem Kept.execGateRegionWrite {master : Fin 1032} {secure : Bool} {n : Fin 256} {j : Fin 3} {v : Word}
    (h : Kept c r s) :
    Leaves c r (execGateRegionWrite master secure n j v s) :=
  h.ifFree fun _ ht => ht.gatedWrite

protected theorem Kept.execRegisterWrite {master : Fin 1032} {secure : Bool} {a v : Word} (h : Kept c r s) :
    Leaves c r (execRegisterWrite master secure a v s) :=
  h.ifFree fun _ ht => ht.gatedWrite

/-! The translated accesses of supervisor engines and their exceptions (R37, R115, R499 to R503). -/

protected theorem Kept.enterHandler {e cause level seq : Nat} {va epc : Word} (h : Kept c r s) :
    Kept c r (enterHandler e cause level seq va epc s) :=
  h.modSup

protected theorem Kept.except {e cause level seq : Nat} {va : Word} (h : Kept c r s) : Kept c r (except e cause level seq va s) :=
  h.enterHandler

protected theorem Kept.walkRead {e level : Nat} {priv : Bool} {a : Nat} (h : Kept c r s) : Kept c r
    (walkRead e level priv a s).2 := by
  unfold Machine.walkRead
  split
  · exact h
  · split
    · exact h.setBit.raise
    · have hg : Kept c r (Machine.gatedRead e (supOf s e).secure none true (word a) s).2 := h.gatedRead
      generalize Machine.gatedRead e (supOf s e).secure none true (word a) s = u at hg ⊢
      obtain ⟨_ | w, t⟩ := u
      · exact hg.setBit.raise
      · exact hg

protected theorem Kept.walk {e va : Nat} (h : Kept c r s) : Kept c r (walk e va s).2 := by
  unfold Machine.walk
  extract_lets u ttb
  have h1 : Kept c r (Machine.walkRead e 1 (ttb.getLsbD 35) (slice ttb.toNat 31 0 + slice va 31 22) s).2 := h.walkRead
  generalize Machine.walkRead e 1 (ttb.getLsbD 35) (slice ttb.toNat 31 0 + slice va 31 22) s = x at h1 ⊢
  obtain ⟨w | t, s1⟩ := x
  · dsimp only
    split
    · exact h1
    · have h2 : Kept c r (Machine.walkRead e 2 (w.getLsbD 30) (pfn w * 4096 + slice va 21 12) s1).2 := Kept.walkRead h1
      generalize Machine.walkRead e 2 (w.getLsbD 30) (pfn w * 4096 + slice va 21 12) s1 = y at h2 ⊢
      obtain ⟨v | t, s2⟩ := y
      · exact h2
      · exact h2
  · exact h1

protected theorem Kept.translate {e : Nat} {n : Need} {va : Nat} (h : Kept c r s) : Kept c r (translate e n va s).2 := by
  unfold Machine.translate
  extract_lets u
  split
  · exact h
  · have hw : Kept c r (Machine.walk e va s).2 := h.walk
    generalize Machine.walk e va s = v at hw ⊢
    obtain ⟨w | t, q⟩ := v
    · dsimp only at hw ⊢
      exact hw.modSup
    · exact hw

protected theorem Kept.badTrans {e : Nat} {t : Trans} {va : Word} (h : Kept c r s) : Kept c r (badTrans e t va s) := by
  unfold Machine.badTrans
  split
  · exact h.except
  · exact h

protected theorem Kept.exceptRec {e cause : Nat} {va : Word} (h : Kept c r s) : Kept c r (exceptRec e cause va s) := h.except

protected theorem Kept.supRead {e : Nat} {va : Word} (h : Kept c r s) : Kept c r (supRead e va s).2 := by
  unfold Machine.supRead
  split
  · exact h.violate.exceptRec
  · have ht : Kept c r (Machine.translate e { rd := true } va.toNat s).2 := h.translate
    generalize Machine.translate e { rd := true } va.toNat s = x at ht ⊢
    obtain ⟨⟨_ | _, a⟩ | _, t⟩ := x
    · have hg : Kept c r (Machine.gatedRead e (supOf t e).secure none false (word a) t).2 := Kept.gatedRead ht
      dsimp only
      generalize Machine.gatedRead e (supOf t e).secure none false (word a) t = y at hg ⊢
      obtain ⟨_ | w, u⟩ := y
      · exact Kept.exceptRec hg
      · exact hg
    · exact ht
    · dsimp only at ht ⊢
      exact ht.badTrans

protected theorem Kept.noteWrite {e : Nat} (h : Kept c r s) : Kept c r (noteWrite e s) := h.modSup

protected theorem Kept.supWrite {e : Nat} {va v : Word} (h : Kept c r s) : Kept c r (supWrite e va v s) := by
  unfold Machine.supWrite
  split
  · exact h.violate.noteWrite
  · have ht : Kept c r (Machine.translate e { wr := true } va.toNat s).2 := h.translate
    generalize Machine.translate e { wr := true } va.toNat s = x at ht ⊢
    obtain ⟨⟨_ | _, a⟩ | _, t⟩ := x
    · have hg : Kept c r (Machine.gatedWrite e (supOf t e).secure (word a) v t).2 := Kept.gatedWrite ht
      dsimp only
      generalize Machine.gatedWrite e (supOf t e).secure (word a) v t = y at hg ⊢
      obtain ⟨_ | _, u⟩ := y
      · exact Kept.noteWrite hg
      · exact hg
    · exact Kept.privSet ht
    · exact Kept.badTrans ht

protected theorem Kept.sharedCas {e : Nat} {secure : Bool} {va : Word} {a : Nat} {b d : Word} (h : Kept c r s) :
    Kept c r (sharedCas e secure va a b d s).2 := by
  unfold Machine.sharedCas
  extract_lets r1
  have hr1 : Kept c r r1.2 := h.readMapped
  split
  · exact h.violate.exceptRec
  · exact .ite hr1.writeMapped hr1

protected theorem Kept.supCas {e : Nat} {va b d : Word} (h : Kept c r s) : Kept c r (supCas e va b d s).2 := by
  unfold Machine.supCas
  extract_lets secure
  split
  · exact h.violate.exceptRec
  · have ht : Kept c r (Machine.translate e { rd := true, wr := true } va.toNat s).2 := h.translate
    generalize Machine.translate e { rd := true, wr := true } va.toNat s = x at ht ⊢
    obtain ⟨⟨_ | _, a⟩ | _, t⟩ := x
    · exact (Kept.touch ht).sharedCas
    · exact Kept.ite (Kept.privSet ht) ht
    · dsimp only at ht ⊢
      exact ht.badTrans

protected theorem Kept.holdBanks {e : Nat} {held : Bool} (h : Kept c r s) : Kept c r (holdBanks e held s) := .ite h.modSup h

/-! The release of an instruction by a plant engine on its schedule (R67 to R72, R121 to R134). -/

protected theorem Kept.haltEngine {e : Nat} (h : Kept c r s) : Kept c r (haltEngine e s) := h.modEngine.traceRest

protected theorem Kept.released {e n : Nat} (h : Kept c r s) : Kept c r (released e n s) :=
  h.modEngine fun _ => ((stepPos_arch _ _).trans (countStep_arch _)).1

protected theorem Kept.lateRelease {e delta : Nat} (h : Kept c r s) : Kept c r (lateRelease e delta s) := .ite h.lateEvent h
protected theorem Kept.fetchFault {e : Nat} (h : Kept c r s) : Kept c r (fetchFault e s) := .ite h.addSat.modTelem.raise h
protected theorem Kept.reservedReached {e : Nat} (h : Kept c r s) : Kept c r (reservedReached e s) := h.fetchFault.lateEvent

/-- Both bodies of an instruction keep what its release has to keep. -/
def Issue.Keeps (c : Scope) (r : State) (k : Issue) : Prop :=
  ∀ x t, Kept c r t → Kept c r (k.body x t).1 ∧ Kept c r (k.onFalse x t).1

theorem Issue.Keeps.idle {k : Issue} (hk : k.Keeps c r) : k.idle.Keeps c r := fun x t h => ⟨(hk x t h).2, (hk x t h).2⟩

protected theorem Kept.execBody {e : Nat} {k : Issue} (h : Kept c r s) (hk : k.Keeps c r) : Kept c r (execBody e k s) := by
  unfold Machine.execBody
  extract_lets pos b held
  have hb : Kept c r b.1 := (hk (engine s e) s h).1
  refine hb.modEngine fun x => ?_
  have hx : (takeUnit s.now held k.unit x).w = x.w := (takeUnit_arch s.now held k.unit x).1
  dsimp only
  split
  · exact hx
  · exact hx

protected theorem Kept.countIf {i : Bool} {e pos : Nat} (h : Kept c r s) : Kept c r (countIf i e pos s) := .ite h.countLock h

protected theorem Kept.plantRelease {e : Nat} {ok : Bool} {q : Sources} {delta : Nat} {neg : Bool} {pred : BitVec 3} {k : Issue}
    (h : Kept c r s) (hk : k.Keeps c r) : Kept c r (plantRelease e ok q delta neg pred k s) := by
  unfold Machine.plantRelease
  split
  · exact h
  · split
    · exact h.haltEngine
    · extract_lets x n b t u
      have ht : Kept c r t := h.lateRelease
      have hu : Kept c r u := by
        unfold u
        split
        · exact ht.reservedReached
        · split
          · exact ht.reservedReached.execBody hk.idle
          · split
            · exact ht.execBody hk
            · exact ht.execBody hk.idle
      exact hu.countIf.released

protected theorem Kept.supExecute {e : Nat} {neg : Bool} {pred : BitVec 3} {k : Issue} (h : Kept c r s) (hk : k.Keeps c r) :
    Kept c r (supExecute e neg pred k s) := by
  unfold Machine.supExecute
  extract_lets a t x b
  have ht : Kept c r t := Kept.modSup h.modEngine
  have hb : Kept c r b.1 := by
    unfold b
    split
    · exact (hk x t ht).1
    · exact (hk x t ht).2
  exact hb.applyAll

protected theorem Kept.supReleased {e pos : Nat} {b : Bool} (h : Kept c r s) : Kept c r (supReleased e pos b s) := by
  unfold Machine.supReleased
  extract_lets a t
  have hm : Kept c r (modEngine e (fun x => countStep { x with
      ord := x.ord + 1, entry := none, loops := a.2.1, pos := a.1, fly := [] }) s) := h.modEngine fun x => (countStep_arch _).1
  have ht : Kept c r t := hm.modSup
  exact ht.applyAll.countIf

protected theorem Kept.supFetch {e : Nat} (h : Kept c r s) : Kept c r (supFetch e s).2 := by
  unfold Machine.supFetch
  extract_lets pc enter
  have he {t : State} (ht : Kept c r t) : Kept c r (enter t) := ht.enterHandler
  split
  · exact he h.violate
  · have ht : Kept c r (Machine.translate e { ex := true } pc.toNat s).2 := h.translate
    generalize Machine.translate e { ex := true } pc.toNat s = x at ht ⊢
    obtain ⟨⟨_ | _, a⟩ | _, t⟩ := x
    · have hg : Kept c r (Machine.gatedRead e (supOf t e).secure none false (word a) t).2 := Kept.gatedRead ht
      dsimp only
      generalize Machine.gatedRead e (supOf t e).secure none false (word a) t = y at hg ⊢
      obtain ⟨_ | w, u⟩ := y
      · exact he hg
      · exact hg
    · exact ht
    · exact Kept.enterHandler ht

protected theorem Kept.supRelease {e : Nat} {neg : Bool} {pred : BitVec 3} {k : Issue} (h : Kept c r s) (hk : k.Keeps c r) :
    Kept c r (supRelease e neg pred k s) := by
  unfold Machine.supRelease
  split
  · exact h
  · split
    · exact h.haltEngine
    · split
      · exact h.modSup.enterHandler
      · extract_lets held b
        have hf : Kept c r (Machine.supFetch e s).2 := h.supFetch
        generalize Machine.supFetch e s = x at hf ⊢
        obtain ⟨_ | _, t⟩ := x
        · exact Kept.holdBanks hf
        · exact (Kept.supExecute hf hk).supReleased.holdBanks

protected theorem Kept.release {e : Fin 1028} {i : Instr} {delta : Nat} {neg : Bool} {pred : BitVec 3} {k : Issue}
    (h : Kept c r s) (hk : k.Keeps c r) : Leaves c r (release e i delta neg pred k s) := by
  unfold Machine.release
  split
  · exact h.plantRelease hk
  · split
    · exact Kept.ifFree h fun _ h1 => h1.supRelease hk
    · trivial

protected theorem Kept.releaseR {e : Fin 1028} {i : Instr} {f : RegForm} {k : Issue} (h : Kept c r s) (hk : k.Keeps c r) :
    Leaves c r (releaseR e i f k s) := h.release hk

protected theorem Kept.releaseI {e : Fin 1028} {i : Instr} {f : ImmForm} {k : Issue} (h : Kept c r s) (hk : k.Keeps c r) :
    Leaves c r (releaseI e i f k s) := h.release hk

/-! The class A arithmetic, logic, conversion, constant and predicate instructions (R74 to R88). -/

protected theorem Kept.execNop {e : Fin 1028} {f : RegForm} (h : Kept c r s) : Leaves c r (execNop e f s) :=
  h.releaseR fun _ _ ht => ⟨ht, ht⟩

protected theorem Kept.execAdd {e : Fin 1028} {f : RegForm} (h : Kept c r s) : Leaves c r (execAdd e f s) :=
  h.releaseR fun _ _ ht => ⟨ht, ht⟩

protected theorem Kept.execAdds {e : Fin 1028} {f : RegForm} (h : Kept c r s) : Leaves c r (execAdds e f s) :=
  h.releaseR fun _ _ ht => ⟨ht, ht⟩

protected theorem Kept.execSub {e : Fin 1028} {f : RegForm} (h : Kept c r s) : Leaves c r (execSub e f s) :=
  h.releaseR fun _ _ ht => ⟨ht, ht⟩

protected theorem Kept.execSubs {e : Fin 1028} {f : RegForm} (h : Kept c r s) : Leaves c r (execSubs e f s) :=
  h.releaseR fun _ _ ht => ⟨ht, ht⟩

protected theorem Kept.execAnd {e : Fin 1028} {f : RegForm} (h : Kept c r s) : Leaves c r (execAnd e f s) :=
  h.releaseR fun _ _ ht => ⟨ht, ht⟩

protected theorem Kept.execOr {e : Fin 1028} {f : RegForm} (h : Kept c r s) : Leaves c r (execOr e f s) :=
  h.releaseR fun _ _ ht => ⟨ht, ht⟩

protected theorem Kept.execXor {e : Fin 1028} {f : RegForm} (h : Kept c r s) : Leaves c r (execXor e f s) :=
  h.releaseR fun _ _ ht => ⟨ht, ht⟩

protected theorem Kept.execAndn {e : Fin 1028} {f : RegForm} (h : Kept c r s) : Leaves c r (execAndn e f s) :=
  h.releaseR fun _ _ ht => ⟨ht, ht⟩

protected theorem Kept.execNeg {e : Fin 1028} {f : RegForm} (h : Kept c r s) : Leaves c r (execNeg e f s) :=
  h.releaseR fun _ _ ht => ⟨ht, ht⟩

protected theorem Kept.execNegs {e : Fin 1028} {f : RegForm} (h : Kept c r s) : Leaves c r (execNegs e f s) :=
  h.releaseR fun _ _ ht => ⟨ht, ht⟩

protected theorem Kept.execAbs {e : Fin 1028} {f : RegForm} (h : Kept c r s) : Leaves c r (execAbs e f s) :=
  h.releaseR fun _ _ ht => ⟨ht, ht⟩

protected theorem Kept.execAbss {e : Fin 1028} {f : RegForm} (h : Kept c r s) : Leaves c r (execAbss e f s) :=
  h.releaseR fun _ _ ht => ⟨ht, ht⟩

protected theorem Kept.execMin {e : Fin 1028} {f : RegForm} (h : Kept c r s) : Leaves c r (execMin e f s) :=
  h.releaseR fun _ _ ht => ⟨ht, ht⟩

protected theorem Kept.execMax {e : Fin 1028} {f : RegForm} (h : Kept c r s) : Leaves c r (execMax e f s) :=
  h.releaseR fun _ _ ht => ⟨ht, ht⟩

protected theorem Kept.execSel {e : Fin 1028} {f : RegForm} (h : Kept c r s) : Leaves c r (execSel e f s) :=
  h.releaseR fun _ _ ht => ⟨ht, ht⟩

protected theorem Kept.execCls {e : Fin 1028} {f : RegForm} (h : Kept c r s) : Leaves c r (execCls e f s) :=
  h.releaseR fun _ _ ht => ⟨ht, ht⟩

protected theorem Kept.execShl {e : Fin 1028} {f : RegForm} (h : Kept c r s) : Leaves c r (execShl e f s) :=
  h.releaseR fun _ _ ht => ⟨ht, ht⟩

protected theorem Kept.execShls {e : Fin 1028} {f : RegForm} (h : Kept c r s) : Leaves c r (execShls e f s) :=
  h.releaseR fun _ _ ht => ⟨ht, ht⟩

protected theorem Kept.execShr {e : Fin 1028} {f : RegForm} (h : Kept c r s) : Leaves c r (execShr e f s) :=
  h.releaseR fun _ _ ht => ⟨ht, ht⟩

protected theorem Kept.execSar {e : Fin 1028} {f : RegForm} (h : Kept c r s) : Leaves c r (execSar e f s) :=
  h.releaseR fun _ _ ht => ⟨ht, ht⟩

protected theorem Kept.execRot {e : Fin 1028} {f : RegForm} (h : Kept c r s) : Leaves c r (execRot e f s) :=
  h.releaseR fun _ _ ht => ⟨ht, ht⟩

protected theorem Kept.execExt {e : Fin 1028} {f : RegForm} (h : Kept c r s) : Leaves c r (execExt e f s) :=
  h.releaseR fun _ _ ht => ⟨ht, ht⟩

protected theorem Kept.execIns {e : Fin 1028} {f : RegForm} (h : Kept c r s) : Leaves c r (execIns e f s) :=
  h.releaseR fun _ _ ht => ⟨ht, ht⟩

protected theorem Kept.execCvt {e : Fin 1028} {f : RegForm} (h : Kept c r s) : Leaves c r (execCvt e f s) :=
  h.releaseR fun _ _ ht => ⟨ht, ht⟩

protected theorem Kept.execLdi {e : Fin 1028} {f : ImmForm} (h : Kept c r s) : Leaves c r (execLdi e f s) :=
  h.releaseI fun _ _ ht => ⟨ht, ht⟩

protected theorem Kept.execShi {e : Fin 1028} {f : ImmForm} (h : Kept c r s) : Leaves c r (execShi e f s) :=
  h.releaseI fun _ _ ht => ⟨ht, ht⟩

protected theorem Kept.execAddi {e : Fin 1028} {f : ImmForm} (h : Kept c r s) : Leaves c r (execAddi e f s) :=
  h.releaseI fun _ _ ht => ⟨ht, ht⟩

protected theorem Kept.execCmp {e : Fin 1028} {f : RegForm} (h : Kept c r s) : Leaves c r (execCmp e f s) :=
  h.releaseR fun _ _ ht => ⟨ht, ht⟩

protected theorem Kept.execPlog {e : Fin 1028} {f : RegForm} (h : Kept c r s) : Leaves c r (execPlog e f s) :=
  h.releaseR fun _ _ ht => ⟨ht, ht⟩

protected theorem Kept.execRdf {e : Fin 1028} {f : RegForm} (h : Kept c r s) : Leaves c r (execRdf e f s) :=
  h.releaseR fun _ _ ht => ⟨ht, ht⟩

protected theorem Kept.execClrf {e : Fin 1028} {f : RegForm} (h : Kept c r s) : Leaves c r (execClrf e f s) :=
  h.releaseR fun _ _ ht => ⟨ht, ht⟩

protected theorem Kept.execPmov {e : Fin 1028} {f : RegForm} (h : Kept c r s) : Leaves c r (execPmov e f s) :=
  h.releaseR fun _ _ ht => ⟨ht, ht⟩

protected theorem Kept.execPopc {e : Fin 1028} {f : RegForm} (h : Kept c r s) : Leaves c r (execPopc e f s) :=
  h.releaseR fun _ _ ht => ⟨ht, ht⟩

protected theorem Kept.execLim {e : Fin 1028} {f : RegForm} (h : Kept c r s) : Leaves c r (execLim e f s) :=
  h.releaseR fun _ _ ht => ⟨ht, ht⟩

protected theorem Kept.execSrr {e : Fin 1028} {f : RegForm} (h : Kept c r s) : Leaves c r (execSrr e f s) :=
  h.releaseR fun _ _ ht => ⟨ht, ht⟩

/-! C37.118.2 output streams and remote streams (R362 to R368). -/

protected theorem Kept.c37Command {i : Nat} {peer : BitVec 32} {f : State → State} (h : Kept c r s)
    (hf : ∀ x, Kept c r x → Kept c r (f x)) :
    Kept c r (c37Command i peer f s) :=
  .ite (hf _ h) h.raise.dropSomewhere

protected theorem Kept.sendConfig {i kind cmd : Nat} (h : Kept c r s) : Kept c r (sendConfig i kind cmd s) := h.emit

protected theorem Kept.execC37ConnectionAccept {stream : Fin 8} {peer : BitVec 32} {port : BitVec 16} (h : Kept c r s) :
    Leaves c r (execC37ConnectionAccept stream peer port s) :=
  .ite h.dropSomewhere (h.c37Command (fun _ ht => ht.modStream))

protected theorem Kept.execC37DataOff {stream : Fin 8} {peer : BitVec 32} (h : Kept c r s) :
    Leaves c r (execC37DataOff stream peer s) :=
  h.c37Command fun _ ht => ht.modStream

protected theorem Kept.execC37DataOn {stream : Fin 8} {peer : BitVec 32} (h : Kept c r s) :
    Leaves c r (execC37DataOn stream peer s) :=
  h.c37Command fun _ ht => ht.modStream

protected theorem Kept.execC37SendHeader {stream : Fin 8} {peer : BitVec 32} (h : Kept c r s) :
    Leaves c r (execC37SendHeader stream peer s) :=
  h.c37Command fun _ ht => ht.sendConfig

protected theorem Kept.execC37SendCfg2 {stream : Fin 8} {peer : BitVec 32} (h : Kept c r s) :
    Leaves c r (execC37SendCfg2 stream peer s) :=
  h.c37Command fun _ ht => ht.sendConfig

protected theorem Kept.execC37SendCfg3 {stream : Fin 8} {peer : BitVec 32} (h : Kept c r s) :
    Leaves c r (execC37SendCfg3 stream peer s) :=
  h.c37Command fun _ ht => ht.sendConfig

protected theorem Kept.execC37Cfg1Ignored {stream : Fin 8} {peer : BitVec 32} (h : Kept c r s) :
    Leaves c r (execC37Cfg1Ignored stream peer s) :=
  h.raise

protected theorem Kept.execC37ExtendedFrameIgnored {stream : Fin 8} {peer : BitVec 32} (h : Kept c r s) :
    Leaves c r (execC37ExtendedFrameIgnored stream peer s) :=
  h.c37Command fun _ h1 => h1

protected theorem Kept.noteInvalid {k : Nat} (h : Kept c r s) : Kept c r (noteInvalid k s) :=
  .ite h ((h.invalid fun k => tabSet_rising _ _ _ _ k.invalid).same.raise)

protected theorem Kept.noteResults (h : Kept c r s) : Kept c r (noteResults s) := .ite h (h.foldl (fun _ _ ht => ht.noteInvalid))

protected theorem Kept.sendData {i : Nat} {ws : List Word} (h : Kept c r s) : Kept c r (sendData i ws s) := by
  unfold Machine.sendData
  split
  · extract_lets t
    have ht : Kept c r t := .ite h.emit h
    exact .ite ht.emit ht
  · exact h

protected theorem Kept.noteInstant {i sec j : Nat} (h : Kept c r s) : Kept c r (noteInstant i sec j s) :=
  h.foldl fun _ _ ht => ht.noteInvalid

protected theorem Kept.execC37DataFrameSend {stream : Fin 8} {sec j : Nat} (h : Kept c r s) :
    Leaves c r (execC37DataFrameSend stream sec j s) := by
  unfold Machine.execC37DataFrameSend
  split
  · exact .ite h.noteInstant.sendData h.noteInstant
  · exact h

protected theorem Kept.execC37FrameTimeout {stream : Fin 8} {sec j : Nat} (h : Kept c r s) :
    Leaves c r (execC37FrameTimeout stream sec j s) :=
  .ite h.raise h

protected theorem Kept.armStreams {change : List Word} (h : Kept c r s) : Kept c r (armStreams change s) :=
  h.forUpto fun _ _ ht => .ite ht ht.modStream

protected theorem Kept.activateStreams (h : Kept c r s) : Kept c r (activateStreams s) :=
  h.forUpto fun _ _ ht => .ite ht.modStream ht

protected theorem Kept.askRemote {k kind : Nat} (h : Kept c r s) : Kept c r (askRemote k kind s) := h.emit
protected theorem Kept.requestCfg2 {k : Nat} (h : Kept c r s) : Kept c r (requestCfg2 k s) := h.modRemote.askRemote

protected theorem Kept.execRemoteCfg2Receive {k : Fin 16} {cfgCnt : Nat} {fmt : BitVec 4} (h : Kept c r s) :
    Leaves c r (execRemoteCfg2Receive k cfgCnt fmt s) :=
  .ite h (Kept.ite h.modRemote.raise h.modRemote.askRemote)

protected theorem Kept.locate {q : Nat} {far : List (Word × Word)} {f : RemoteData} {k : Nat} {l : LineCfg} (h : Kept c r s) :
    Kept c r (locate q far f k l s) := by
  unfold Machine.locate
  split
  · exact h
  · split
    · exact h
    · extract_lets near q2 s1
      have hs1 : Kept c r s1 := h.same.mWrites
      split
      · exact hs1.raise
      · exact hs1

protected theorem Kept.takeRemote {i : Nat} {d : RemoteCfg} {f : RemoteData} (h : Kept c r s) : Kept c r (takeRemote i d f s) :=
    by
  unfold Machine.takeRemote
  extract_lets bad vs ws far m u v w
  have hm : Kept c r m := h.modRemote
  have hu : Kept c r u := hm.same
  have hv : Kept c r v := hu.mWrites
  have hw : Kept c r w := .ite hv.raise hv
  exact hw.foldl fun _ _ h1 => h1.locate

protected theorem Kept.execRemoteDataFrameReceive {k : Fin 16} {f : RemoteData} (h : Kept c r s) :
    Leaves c r (execRemoteDataFrameReceive k f s) := by
  unfold Machine.execRemoteDataFrameReceive
  split
  · exact h
  · exact .ite h (h.ifFree (fun _ ht => ht.takeRemote))

protected theorem Kept.execRemoteStreamLost {k : Fin 16} (h : Kept c r s) : Leaves c r (execRemoteStreamLost k s) :=
  .ite h.modRemote.raise h

protected theorem Kept.execRemoteCfg2Rerequest {k : Fin 16} (h : Kept c r s) : Leaves c r (execRemoteCfg2Rerequest k s) :=
  .ite h.requestCfg2 h

/-! The plan image (R118, R161 to R169, R202, R203). -/

protected theorem Kept.writeRun {f : Nat → Word → State → State} {a : Nat} {ws : List Word} (h : Kept c r s)
    (hf : ∀ x y z, Kept c r z → Kept c r (f x y z)) :
    Kept c r (writeRun f a ws s) :=
  h.foldl fun _ _ ht => hf _ _ _ ht

protected theorem Kept.loadEntry {tab : List Word} {e : Nat} (h : Kept c r s) : Kept c r (loadEntry tab e s) :=
  .ite h.modEngine h.modEngine

protected theorem Kept.loadPlanMem {tab code : List Word} {e : Nat} (h : Kept c r s) : Kept c r (loadPlanMem tab code e s) :=
  h.writeRun fun _ _ _ ht => ht.memSet

protected theorem Kept.initWord {tab : List Word} {a : Nat} {v : Word} (h : Kept c r s) : Kept c r (initWord tab a v s) :=
  .ite h.tsWrite (.ite h.memSet.memSet h.memSet)

protected theorem Kept.loadInit {tab init : List Word} (h : Kept c r s) : Kept c r (loadInit tab init s) :=
  h.foldl fun _ _ ht => ht.writeRun (fun _ _ _ hu => hu.initWord)

protected theorem Kept.loadPair {tab : List Word} {k : Nat} (h : Kept c r s) : Kept c r (loadPair tab k s) := h.setPair

protected theorem Kept.loadIdentity {img : List Word} (h : Kept c r s) : Kept c r (loadIdentity img s) :=
  h.tsWrite.forUpto fun _ _ ht => ht.setReg.tsWrite

protected theorem Kept.loadTelemetry {ws : List Word} (h : Kept c r s) : Kept c r (loadTelemetry ws s) :=
  .ite h.writePlain.writePlain.writePlain h

protected theorem Kept.loadTables {img : List Word} (h : Kept .module r s) : Kept .module r (loadTables img s) :=
  h.sameTables.loadTelemetry

protected theorem Kept.loadPlan {img : List Word} (h : Kept .module r s) : Kept .module r (loadPlan img s) := by
  unfold Machine.loadPlan
  extract_lets tab s1
  have hs1 : Kept .module r s1 := h.forUpto fun _ _ ht => ht.loadEntry.loadPlanMem
  exact (((hs1.forUpto (fun _ _ hu => hu.loadPair)).loadIdentity).loadInit).loadTables

/-! Containers (R469, R470). -/

protected theorem Kept.loadContent {ws : List Word} (h : Kept c r s) : Kept c r (loadContent ws s) :=
  h.foldl fun _ _ ht => ht.tsWrite

protected theorem Kept.loadSettings {ws : List Word} (h : Kept c r s) : Kept c r (loadSettings ws s) :=
  (h.foldl (fun _ _ ht => ht.writeReg)).applyLater

protected theorem Kept.loadRegions {ws : List Word} (h : Kept c r s) : Kept c r (loadRegions ws s) := by
  unfold Machine.loadRegions
  extract_lets s1
  have hs1 : Kept c r s1 := h.forUpto (fun _ _ ht => (ht.forUpto (fun _ _ hu => hu.setReg)).setBit)
  exact .ite hs1 (hs1.foldl (fun _ _ hv => hv.setReg))

protected theorem Kept.loadImage {img : List Word} (h : Kept .module r s) : Kept .module r (loadImage img s) := by
  unfold Machine.loadImage
  extract_lets t u v w
  have ht : Kept .module r t := h.loadPlan.modDay
  have hu : Kept .module r u := ht.modLink
  have hv : Kept .module r v := hu.loadContent
  have hw : Kept .module r w := hv.modBoot
  exact hw.loadRegions.loadSettings.startDrives

/-! Online change (R195 to R199, R219, R220, R355, R365, R391, R415). -/

protected theorem Kept.doneNotice {k : Nat × BitVec 20} {status : Nat} {ws : List Word} (h : Kept c r s) :
    Kept c r (doneNotice k status ws s) :=
  .ite h.emit h

protected theorem Kept.stateNotices (h : Kept c r s) : Kept c r (stateNotices s) := h.foldl fun _ _ ht => ht.emit
protected theorem Kept.stopLoader (h : Kept c r s) : Kept c r (stopLoader s) := h.same

protected theorem Kept.settingsAfter {img : List Word} (h : Kept c r s) : Kept c r (settingsAfter s img) :=
  h.foldl fun _ _ ht => ht.setReg

protected theorem Kept.refuseChange {reason : Nat} (h : Kept c r s) : Kept c r (refuseChange reason s) := h.setF.setF.raise

protected theorem Kept.armChange {a : Nat} (h : Kept c r s) : Kept c r (armChange a s) :=
  (Kept.ite h.modDay.armStreams h.modDay).setF.setReg

protected theorem Kept.cancelChange (h : Kept c r s) : Kept c r (cancelChange s) := by
  unfold Machine.cancelChange
  extract_lets s1 s2
  have hs1 : Kept c r s1 := h.modDay.forUpto fun _ _ ht => ht.modStream
  have hs2 : Kept c r s2 := hs1.setF.raise
  split
  · exact h
  · split
    · exact hs2.same.doneNotice
    · exact hs2

protected theorem Kept.discardStaged (h : Kept .module r s) : Kept .module r (discardStaged s) :=
  .ite h.cancelChange.modBoot.setF h.cancelChange.modBoot

protected theorem Kept.startMirror {img : List Word} {k : Nat} (h : Kept c r s) : Kept c r (startMirror img k s) :=
  .ite h.modPair h

protected theorem Kept.beginChange (h : Kept c r s) : Kept c r (beginChange s) := by
  unfold Machine.beginChange
  extract_lets img t u v w
  have ht : Kept c r t := h.same
  have hu : Kept c r u := ht.setBit.setF
  have hv : Kept c r v := hu.changedChannels.activateStreams
  have hw : Kept c r w := hv.modSaf
  exact hw.changedDrives.forUpto fun _ _ h1 => h1.startMirror

protected theorem Kept.copyEngine {k : Nat} (h : Kept c r s) : Kept c r (copyEngine k s) :=
  (h.forUpto (fun _ _ ht => ht.memSet)).forUpto fun _ _ hu => hu.memSet

protected theorem Kept.writeChange {img : List Word} (h : Kept c r s) : Kept c r (writeChange img s) := by
  unfold Machine.writeChange
  extract_lets tab joins s1 s2
  have hs1 : Kept c r s1 := h.forUpto fun _ _ ht => ht.loadPlanMem
  have hs2 : Kept c r s2 := .ite (hs1.loadInit.foldl (fun _ _ hu => hu.copyEngine)) h
  exact hs2.loadContent

protected theorem Kept.changeLoaded (h : Kept c r s) : Kept c r (changeLoaded s) := by
  unfold Machine.changeLoaded
  extract_lets ident s1 s2
  have hs1 : Kept c r s1 := h.forUpto fun _ _ ht => ht.setReg
  have hs2 : Kept c r s2 := hs1.modDay.setF.raise
  split
  · exact hs2.same.doneNotice
  · exact hs2

protected theorem Kept.composePair {tab : List Word} {k : Nat} (h : Kept c r s) : Kept c r (composePair tab k s) :=
  .ite h.loadPair.modPair h.loadPair.modPair.modEngine

protected theorem Kept.endMirrors (h : Kept c r s) : Kept c r (endMirrors s) := h.forUpto fun _ _ ht => ht.modPair

protected theorem Kept.finishChange (h : Kept .module r s) : Kept .module r (finishChange s) := by
  unfold Machine.finishChange
  extract_lets t img tab a u v w x
  have ht : Kept .module r t := h.setBit.stopLoader
  split
  · exact ht.modDay.endMirrors.restartChannels
  · have ha : Kept .module r a := (ht.forUpto fun _ _ h1 => h1.loadEntry).forUpto fun _ _ h1 => h1.composePair
    have hu : Kept .module r u := .ite ha.loadIdentity.loadTables ht
    have hv : Kept .module r v := hu.loadSettings
    have hw : Kept .module r w := hv.modDay
    have hx : Kept .module r x := hw.modBoot
    exact hx.unsuperviseChanged.restartChannels.modSaf

protected theorem Kept.overrun {code master pos : Nat} (h : Kept c r s) : Kept c r (overrun code master pos s) :=
  .ite h.setBit.raise.noteBorn.same h.setBit.raise.addSat

protected theorem Kept.overrunBreach (h : Kept c r s) : Kept c r (overrunBreach s) := .ite h.breach h

protected theorem Kept.loaderOverrun (h : Kept c r s) : Kept c r (loaderOverrun s) := by
  unfold Machine.loaderOverrun
  extract_lets s1 s2
  have hs1 : Kept c r s1 := h.modDay.stopLoader
  have hs2 : Kept c r s2 := by
    unfold s2
    split
    · exact hs1.same.doneNotice
    · exact hs1
  exact .ite hs2.overrun.overrunBreach hs2

protected theorem Kept.execChangeLoaderComplete (h : Kept c r s) : Leaves c r (execChangeLoaderComplete s) :=
  .ite h (.ite h (.ite h.writeChange.superviseChanged.changeLoaded h.loaderOverrun))

/-! Loops, brackets, waits, time stamps, landings and the comparison of pairs (R101 to R114, R123 to R129, R207 to R218). -/

protected theorem Kept.openLoop {e : Nat} {dead : Bool} {f : ImmForm} (h : Kept c r s) : Kept c r (openLoop e dead f s) :=
  h.modEngine fun x => by split <;> rfl

protected theorem Kept.execLoop {e : Fin 1028} {f : ImmForm} (h : Kept c r s) : Leaves c r (execLoop e f s) :=
  h.releaseI fun _ _ ht => ⟨ht.openLoop, ht.openLoop⟩

protected theorem Kept.freeBanks {e : Nat} (h : Kept c r s) : Kept c r (freeBanks e s) := .ite h h.modSup

protected theorem Kept.execLock {e : Fin 1028} {f : RegForm} (h : Kept c r s) : Leaves c r (execLock e f s) :=
  h.releaseR fun _ _ ht => ⟨.ite ht ht.modEngine.freeBanks, ht⟩

protected theorem Kept.execUnlock {e : Fin 1028} {f : RegForm} (h : Kept c r s) : Leaves c r (execUnlock e f s) :=
  h.releaseR fun _ _ ht => ⟨ht.modEngine.freeBanks, ht⟩

protected theorem Kept.restDone {e : Nat} (h : Kept c r s) : Kept c r (restDone e s) := h.modEngine.addTx.traceRest

protected theorem Kept.execDone {e : Fin 1028} {f : RegForm} (h : Kept c r s) : Leaves c r (execDone e f s) :=
  h.releaseR fun _ _ ht => ⟨.ite ht.restDone ht, ht⟩

protected theorem Kept.execTstamp {e : Fin 1028} {f : RegForm} (h : Kept c r s) : Leaves c r (execTstamp e f s) := by
  refine h.releaseR fun x t ht => ⟨?_, ht⟩
  dsimp only
  split
  · exact ht
  · exact ht.bump.bump

protected theorem Kept.reachWait {e : Nat} {x : Engine} (h : Kept c r s) : Kept c r (reachWait e x s) := h.modEngine

protected theorem Kept.beginWaitT {e t : Nat} {x : Engine} (h : Kept c r s) : Kept c r (beginWaitT e t x s) := by
  unfold Machine.beginWaitT
  extract_lets s1 s2
  have hs1 : Kept c r s1 := h.reachWait
  have hs2 : Kept c r s2 := hs1.modEngine
  exact .ite (.ite hs2.lateEvent hs2) (.ite hs1.modEngine.traceRest ((Kept.ite hs1.lateEvent hs1).capture))

protected theorem Kept.execWaitt {e : Fin 1028} {f : RegForm} (h : Kept c r s) : Leaves c r (execWaitt e f s) :=
  h.release fun _ _ ht => ⟨ht.addTx.beginWaitT, ht⟩

theorem waitResult_rising (now ord : Nat) (event : Bool) (d m : Nat) (w : Word) (x : Engine) (h : rising x.w) :
    rising (waitResult now ord event d m w x).w := by
  unfold waitResult noteLanded
  rw [pSet_w]
  exact wSet_rising _ _ _ h

/-- A wait that ends with its result. -/
protected theorem Kept.endWith {e now d m : Nat} {event : Bool} {w : Word} {n : Engine → Nat} {f : Engine → Engine}
    (h : Kept c r s)
    (hf : ∀ x, (f x).w = x.w := by exact fun _ => rfl) :
    Kept c r (modEngine e (fun x => waitResult now (n x) event d m w (f x)) s) :=
  h.modEngineW fun x hx => waitResult_rising _ _ _ _ _ _ _ ((hf x).symm ▸ hx)

protected theorem Kept.beginWaitEv {e : Nat} {any : Bool} {src deadline d m : Nat} {x : Engine} (h : Kept c r s) :
    Kept c r (beginWaitEv e any src deadline d m x s) := by
  unfold Machine.beginWaitEv
  extract_lets u rest
  have hu : Kept c r u := h.reachWait
  have hr : Kept c r rest := hu.modEngine
  cases findEvent u e any src u.now with
  | none => exact .ite hr (.ite hu.endWith.capture hr.traceRest)
  | some v => exact .ite hr hu.endWith.capture

protected theorem Kept.execWaitev {e : Fin 1028} {f : RegForm} (h : Kept c r s) : Leaves c r (execWaitev e f s) :=
  h.release fun _ _ ht => ⟨ht.addTx.beginWaitEv, ht⟩

protected theorem Kept.endWait {e t cause : Nat} (h : Kept c r s) : Kept c r (endWait e t cause s) := h.modEngine.traceRest

protected theorem Kept.execWaittTargetReached {e : Fin 1028} (h : Kept c r s) : Leaves c r (execWaittTargetReached e s) := by
  unfold Machine.execWaittTargetReached
  split
  · exact .ite h.endWait.capture h
  · exact h

protected theorem Kept.execEventWake {e : Fin 1028} (h : Kept c r s) : Leaves c r (execEventWake e s) := by
  unfold Machine.execEventWake
  cases (engine s e.val).rest with
  | waitEv any src dl d m =>
    dsimp only
    cases findEvent s e.val any src dl with
    | none => exact h
    | some v => exact Leaves.ite h.endWith.endWait.capture h
  | _ => exact h

protected theorem Kept.execWaitDeadline {e : Fin 1028} (h : Kept c r s) : Leaves c r (execWaitDeadline e s) := by
  unfold Machine.execWaitDeadline
  cases (engine s e.val).rest with
  | waitEv any src dl d m => exact Leaves.ite h.endWith.endWait.capture h
  | _ => exact h

protected theorem Kept.noteSlack {e cls slack : Nat} (h : Kept c r s) : Kept c r (noteSlack e cls slack s) := by
  unfold Machine.noteSlack
  extract_lets u
  have hu : Kept c r u := h.modEngine fun x => by split <;> rfl
  exact .ite hu.same hu

protected theorem Kept.captureLanding {e : Nat} {l : Landing} (h : Kept c r s) : Kept c r (captureLanding e l s) := by
  unfold Machine.captureLanding
  split
  · exact h
  · split
    · exact h.captureDue
    · extract_lets ws
      exact h.captureDue
    · exact h

protected theorem Kept.land {e late slack : Nat} {l : Landing} (h : Kept c r s) : Kept c r (land e late slack l s) :=
  (((Kept.ite (.ite h h.lateEvent) ((Kept.ite h h.lateEvent).noteSlack)).applyAll).modEngine).captureLanding

protected theorem Kept.execResultLanding {e : Fin 1028} {late slack : Nat} (h : Kept c r s) :
    Leaves c r (execResultLanding e late slack s) := by
  unfold Machine.execResultLanding
  extract_lets fly
  split
  · exact h.modEngine.land
  · exact h

theorem landed_rising (fs : List Effect) (x : Engine) (h : rising x.w) :
    rising (fs.foldl (fun x f => match f with | .reg d v => wSet d v x | _ => x) x).w := by
  induction fs generalizing x with
  | nil => exact h
  | cons f fs ih =>
    refine ih _ ?_
    cases f with
    | reg d v => exact wSet_rising _ _ _ h
    | pred _ _ => exact h
    | flag _ => exact h
    | clear _ => exact h
    | mac _ _ _ _ => exact h
    | acm _ _ _ => exact h
    | load _ _ => exact h
    | store _ _ => exact h

theorem deliver_rising (t ord : Nat) (inp : Input) (x : Engine) (h : rising x.w) : rising (deliver t ord inp x).w := by
  cases inp with
  | lds d v => exact landed_rising _ _ h
  | tstamp d ws => exact landed_rising _ _ h
  | waitT => exact h
  | waitEv event d m v => exact waitResult_rising _ _ _ _ _ _ _ h

protected theorem Kept.execPairInputReplay {k : Fin 512} {uncor : Bool} (h : Kept c r s) : Leaves c r
    (execPairInputReplay k uncor s) := by
  unfold Machine.execPairInputReplay
  extract_lets p
  split
  · split
    · extract_lets inp u v
      have hu : Kept c r u := h.setPair
      have hv : Kept c r v := by
        have hf : Kept c r { u with fresh := u.fresh + 4 } := hu.same
        exact .ite hf.setBit.raise.mismRecord.mismatchResponse hu
      exact hv.modEngineW fun y hy => deliver_rising _ _ _ _ hy
    · exact h
  · exact h

protected theorem Kept.mismatch {k kind pos : Nat} {lead trail : Word} (h : Kept c r s) :
    Kept c r (mismatch k kind pos lead trail s) :=
  h.setBit.raise.mismRecord.traceEngine.mismatchResponse

protected theorem Kept.compareTx {k : Nat} {a b : Tx} (h : Kept c r s) : Kept c r (compareTx k a b s) := by
  unfold Machine.compareTx
  extract_lets l t
  split
  · exact .ite h h.mismatch
  · split
    · exact h.mismatch
    · split
      · exact h
      · exact h.mismatch

protected theorem Kept.missingLead {k : Nat} {b : Tx} (h : Kept c r s) : Kept c r (missingLead k b s) := h.bump.mismatch

protected theorem Kept.compareNext {k : Nat} {p : Pair} (h : Kept c r s) : Kept c r (compareNext k p s) := by
  unfold Machine.compareNext
  split
  · exact .ite (.ite h.setPair.missingLead h) (.ite h (.ite h.setPair.mismatch (.ite h h.setPair.compareTx)))
  · exact .ite h.setPair.mismatch h
  · exact .ite h.setPair.missingLead h
  · exact h

protected theorem Kept.execComparatorCheck {k : Fin 512} (h : Kept c r s) : Leaves c r (execComparatorCheck k s) :=
  Kept.ite h.compareNext h

protected theorem Kept.execComparatorSelfTest {k : Fin 512} {reported : Bool} {lead trail : Word} (h : Kept c r s) :
    Leaves c r (execComparatorSelfTest k reported lead trail s) :=
  .ite h h.setBit.raise.mismRecord.mismatchResponse

protected theorem Kept.execDetectorSelfTest {i : Fin 64} {reported : Bool} (h : Kept c r s) :
    Leaves c r (execDetectorSelfTest i reported s) :=
  .ite h h.setBit.lateEvent

theorem copyWord_rising (i : Nat) (l x : Engine) (h : rising x.w) : rising (copyWord i l x).w := by
  unfold copyWord
  split
  · exact wSet_rising _ _ _ h
  · split
    · exact h
    · split
      · exact h
      · exact h

protected theorem Kept.copyRegs {k : Nat} (h : Kept c r s) : Kept c r (copyRegs k s) :=
  .ite (h.modEngineW fun _ hy => copyWord_rising _ _ _ hy) h

protected theorem Kept.execComparatorArm {k : Fin 512} (h : Kept c r s) : Leaves c r (execComparatorArm k s) := .ite h.modPair h

protected theorem Kept.execTmark {e : Fin 1028} {f : RegForm} (h : Kept c r s) : Leaves c r (execTmark e f s) :=
  h.releaseR fun _ _ ht => ⟨ht.addTx.traceEngine, ht⟩

/-! The mandate loops and presence, claims, notices, the decision of a takeover and the planned switchover (R372 to R382, R394
to R401, R405, R406's entry). -/

protected theorem Kept.linkFault {code bit : Nat} (h : Kept c r s) : Kept c r (linkFault code bit s) := h.setBit.raise
protected theorem Kept.clearReady (h : Kept c r s) : Kept c r (clearReady s) := h.setBit.modLink.linkFault
protected theorem Kept.unknownFault (h : Kept c r s) : Kept c r (unknownFault s) := h.modLink.linkFault

protected theorem Kept.decideTakeover {was : State} (h : Kept c r s) : Kept c r (decideTakeover was s) :=
  .ite h (.ite (.ite h (.ite h.modLink h.linkFault)) (.ite h.unknownFault h))

protected theorem Kept.decideQuietly (h : Kept c r s) : Kept c r (decideQuietly s) := .ite h.decideTakeover h

protected theorem Kept.decideAtMidnight {anew : Bool} (h : Kept c r s) : Kept c r (decideAtMidnight anew s) :=
  .ite h.decideTakeover h.decideQuietly

protected theorem Kept.tryJoin (h : Kept .module r s) : Kept .module r (tryJoin s) := .ite h.modLink.modBoot.sendFrame h
protected theorem Kept.setLatch (h : Kept .module r s) : Kept .module r (setLatch s) := h.sameTables.loadUpdate
protected theorem Kept.clearLatch (h : Kept .module r s) : Kept .module r (clearLatch s) := h.sameTables.loadUpdate
protected theorem Kept.dropClaim (h : Kept .module r s) : Kept .module r (dropClaim s) := h.clearLatch.sameTables.tryJoin
protected theorem Kept.yieldClaim (h : Kept .module r s) : Kept .module r (yieldClaim s) := .ite h.clearLatch.modLink h

protected theorem Kept.partnerLoopChanged {was : State} (h : Kept .module r s) : Kept .module r (partnerLoopChanged was s) :=
  (Kept.ite h.modLink h).yieldClaim.decideTakeover

protected theorem Kept.execMandateLoopStateChange {partner : Bool} {tenthMilliamp : BitVec 9} (h : Kept .module r s) :
    Leaves .module r (execMandateLoopStateChange partner tenthMilliamp s) :=
  .ite (Kept.ite h.sameTables h.sameTables.partnerLoopChanged) h.sameTables

protected theorem Kept.execPresenceChange {partner inserted : Bool} (h : Kept .module r s) :
    Leaves .module r (execPresenceChange partner inserted s) := by
  unfold Machine.execPresenceChange
  split
  · split
    · exact h
    · have hp : Kept .module r (modLink (fun l => { l with partner := inserted }) s) := h.same
      exact hp.loadUpdate.decideTakeover
  · split
    · exact h
    · extract_lets u
      have hu : Kept .module r u := h.same
      split
      · exact hu
      · exact hu.clearLatch.same

protected theorem Kept.execPartnerLoopUnknownRepeat (h : Kept c r s) : Leaves c r (execPartnerLoopUnknownRepeat s) :=
  .ite h.unknownFault h

protected theorem Kept.execClaimLatchSet (h : Kept .module r s) : Leaves .module r (execClaimLatchSet s) :=
  .ite ((Kept.ite h.modLink h).setLatch) h

protected theorem Kept.execYieldRecheck (h : Kept .module r s) : Leaves .module r (execYieldRecheck s) := by
  unfold Machine.execYieldRecheck
  split
  · exact .ite h (.ite h.setLatch h.dropClaim.linkFault)
  · exact h.yieldClaim

protected theorem Kept.execClaimConfirmation (h : Kept .module r s) : Leaves .module r (execClaimConfirmation s) :=
  .ite h (.ite h.sameTables (Kept.ite h.dropClaim.linkFault h.dropClaim))

protected theorem Kept.execLoopError {path : Bool} (h : Kept c r s) : Leaves c r (execLoopError path s) := .ite h.linkFault h

protected theorem Kept.refuseSwitch {reason : Nat} (h : Kept c r s) : Kept c r (refuseSwitch reason s) :=
  (Kept.ite h.setF.setF h.setF).raise

protected theorem Kept.armSwitch {w : Nat} (h : Kept c r s) : Kept c r (armSwitch w s) := h.setReg.setF
protected theorem Kept.runSwitch (h : Kept .module r s) : Kept .module r (runSwitch s) := h.sameTables.setF
protected theorem Kept.endSwitch {st : Nat} (h : Kept .module r s) : Kept .module r (endSwitch st s) := h.sameTables.setReg.setF
protected theorem Kept.execSwitchoverReadback (h : Kept c r s) : Leaves c r (execSwitchoverReadback s) := .ite h.modLink h

protected theorem Kept.execSwitchoverRelease (h : Kept .module r s) : Leaves .module r (execSwitchoverRelease s) :=
  .ite h.clearLatch.sameTables h

protected theorem Kept.execSwitchoverFallbackCheck (h : Kept .module r s) : Leaves .module r (execSwitchoverFallbackCheck s) :=
  .ite h.setLatch.modLink h

protected theorem Kept.execNoticeSend {lane : Fin 2} (h : Kept c r s) : Leaves c r (execNoticeSend lane s) :=
  .ite h h.sendFrame.modLink

protected theorem Kept.laneHeard {lane : Nat} (h : Kept c r s) : Kept c r (laneHeard lane s) :=
  (h.laneAt fun k => tabSet_rising _ _ _ _ k.laneAt).same

protected theorem Kept.acceptFrame {ty lane : Nat} {f : PairFrame} {act : State → State} (h : Kept c r s)
    (hf : ∀ x, Kept c r x → Kept c r (act x)) :
    Kept c r (acceptFrame ty lane f act s) :=
  .ite h.modLink (.ite (hf _ h.laneHeard) h.laneHeard)

protected theorem Kept.partnerOffset {ofs : Int} (h : Kept c r s) : Kept c r (partnerOffset ofs s) := by
  unfold Machine.partnerOffset
  extract_lets j
  exact h.jumpFault.modTime

protected theorem Kept.heardNotice {n : Notice} {ofs : Int} (h : Kept .module r s) : Kept .module r (heardNotice n ofs s) := by
  unfold Machine.heardNotice
  extract_lets left u v w
  have hc : Kept .module r (modLink (fun l => { l with cloneTx := if n.state = 1 then l.cloneTx else [] }) s) :=
    h.cloneTx fun k => by split <;> [exact k.cloneTx; exact .nil]
  have hu : Kept .module r u := hc.same
  have hv : Kept .module r v := hu.partnerOffset.noteSeconds.reselect
  have hw : Kept .module r w := .ite hv.trackLock.servoRate hv
  exact .ite hw.tryJoin hw

protected theorem Kept.execNoticeReceive {lane : Fin 2} {f : PairFrame} {ofs : Int} (h : Kept .module r s) :
    Leaves .module r (execNoticeReceive lane f ofs s) :=
  h.acceptFrame fun _ ht => ht.heardNotice

protected theorem Kept.execLaneDown {lane : Fin 2} (h : Kept c r s) : Leaves c r (execLaneDown lane s) := by
  unfold Machine.execLaneDown
  extract_lets t u
  have ht1 : Kept c r t := (h.laneAt fun k => tabSet_rising _ _ _ _ k.laneAt).same.linkFault
  have ht2 : Kept c r u := .ite ht1 ht1.linkFault
  exact .ite h ht2.reselect.decideTakeover

protected theorem Kept.execFinalReceive {lane : Fin 2} {f : PairFrame} (h : Kept c r s) :
    Leaves c r (execFinalReceive lane f s) :=
  h.acceptFrame fun _ ht => ht.modLink.linkFault

protected theorem Kept.acceptJoin {j : Join} (h : Kept c r s) : Kept c r (acceptJoin j s) := h.modLink.same

protected theorem Kept.execJoinReceive {lane : Fin 2} {f : PairFrame} (h : Kept c r s) : Leaves c r (execJoinReceive lane f s) :=
  h.acceptFrame fun _ ht => .ite ht (.ite ht.acceptJoin ht.linkFault)

/-! The checkpoint (R177, R383 to R392, R221). -/

protected theorem Kept.execEngineImageCapture {e : Fin 1024} (h : Kept c r s) : Leaves c r (execEngineImageCapture e s) :=
  .ite ((h.images fun k => tabSet_rising _ _ _ _ k.images).same) h

theorem imgMerge_rising (new old : List (Nat × List Word)) (h : rising old) : rising (imgMerge new old) :=
  tabSetAll_rising _ id new _ h

theorem allImages_rising {l : Link} (h : rising l.frozenImg) : rising (allImages l) := imgMerge_rising _ _ h

protected theorem Kept.freeze (h : Kept c r s) : Kept c r (freeze s) := by
  have hf {l : Link} (k : rising l.frozenImg) : rising (imgMerge l.images (allImages l)) :=
    imgMerge_rising _ _ (allImages_rising k)
  have hi : Kept c r (modLink (fun l => { l with
      images := if l.swRunning then imgMerge l.images (allImages l) else []
      frozenImg := if l.swRunning then [] else imgMerge l.images (allImages l) }) s) :=
    ⟨fun hr => have k := h.canonical hr; wf_iff_canonical _ |>.2 { k with
        images := by dsimp only [modLink]; split <;> [exact hf k.frozenImg; exact .nil]
        frozenImg := by dsimp only [modLink]; split <;> [exact .nil; exact hf k.frozenImg] }, h.custody⟩
  exact hi.same

protected theorem Kept.overC (h : Kept c r s) : Kept c r (overC s) :=
  (h.abandonCheckpoint.linkFault.frozenImg (l := []) fun _ => .nil).same

protected theorem Kept.cutDelta (h : Kept c r s) : Kept c r (cutDelta s) := by
  unfold Machine.cutDelta
  extract_lets s1 spans tooLong s2
  have hs1 : Kept c r s1 := h.freeze
  have hs2 : Kept c r s2 := .ite hs1.linkFault hs1
  exact .ite hs2.overC (.ite hs2.abandonCheckpoint hs2)

protected theorem Kept.execCheckpointCut (h : Kept c r s) : Leaves c r (execCheckpointCut s) :=
  .ite h (.ite h.modDay.safAfternoon (Kept.ite h.modDay.safAfternoon.cutDelta h.modDay.safAfternoon))

protected theorem Kept.readFrozen {a : Nat} (h : Kept c r s) : Kept c r (readFrozen a s).2 := by
  unfold Machine.readFrozen
  split
  · exact h
  · exact h.gatedRead

protected theorem Kept.readRun {f : Nat → State → Option Word × State} {a n : Nat} (h : Kept c r s)
    (hf : ∀ a t, Kept c r t → Kept c r (f a t).2) : Kept c r (readRun f a n s).2 := by
  induction n generalizing a s with
  | zero => exact h
  | succ n ih => exact ih (hf _ _ h)

protected theorem Kept.readRuns {f : Nat → State → Option Word × State} {l : List (Nat × Nat)} (h : Kept c r s)
    (hf : ∀ a t, Kept c r t → Kept c r (f a t).2) : Kept c r (readRuns f l s).2 := by
  induction l generalizing s with
  | nil => exact h
  | cons x l ih => exact ih (h.readRun hf)

protected theorem Kept.captureFault (h : Kept c r s) : Kept c r (captureFault s) := h.linkFault.abandonCheckpoint

theorem rising_drop {α : Type} {l : List (Nat × α)} (n : Nat) (h : rising l) : rising (l.drop n) := by
  unfold rising
  rw [List.map_drop]
  exact List.Pairwise.drop h

protected theorem Kept.deltaFrame {lane : Nat} (h : Kept c r s) : Kept c r (deltaFrame lane s) := by
  unfold Machine.deltaFrame
  extract_lets f q
  have hq : Kept c r q.2 := h.readRuns fun a t ht => ht.readFrozen
  split
  · exact hq.captureFault
  · next ws _ =>
    extract_lets vs
    have hs : Kept c r (Machine.sendFrame lane 2 s.link.blocks vs q.2) := hq.sendFrame
    have hi : Kept c r (modLink (fun l => { l with frozenImg := f.leftImgs }) (Machine.sendFrame lane 2 s.link.blocks vs q.2)) :=
      ⟨fun hr => (hs.frozenImg fun _ => rising_drop _ (h.canonical hr).frozenImg).wf hr, hs.custody⟩
    exact hi.same

protected theorem Kept.execDeltaFrameSend {lane : Fin 2} (h : Kept c r s) : Leaves c r (execDeltaFrameSend lane s) :=
  .ite h (h.ifFree (fun _ ht => ht.deltaFrame))

protected theorem Kept.execEndFrameSend {lane : Fin 2} (h : Kept c r s) : Leaves c r (execEndFrameSend lane s) := by
  unfold Machine.execEndFrameSend
  extract_lets l n s1 s2 s3
  have hs1 : Kept c r s1 := h.sendFrame
  have hs2 : Kept c r s2 := by
    unfold s2
    split
    · exact hs1.emit
    · exact hs1
  have hs3 : Kept c r s3 := hs2.setReg.modTelem
  exact .ite hs3.modLink h

protected theorem Kept.sweepFrame {lane : Nat} (h : Kept c r s) : Kept c r (sweepFrame lane s) := by
  unfold Machine.sweepFrame
  extract_lets l at' addrs runs q
  have hq : Kept c r q.2 := h.readRuns fun a t ht => ht.gatedRead
  split
  · have hl : Kept c r (modLink (fun l => { l with sweepLeft := 0, sweepBlk := 0 }) q.2) := hq.modLink
    exact hl.linkFault
  · next ws _ =>
    have hs : Kept c r (Machine.sendFrame lane 3 l.sweepBlk ws q.2) := hq.sendFrame
    exact hs.modLink

protected theorem Kept.execSweepFrameSend {lane : Fin 2} (h : Kept c r s) : Leaves c r (execSweepFrameSend lane s) :=
  .ite h (h.ifFree (fun _ ht => ht.sweepFrame))

protected theorem Kept.takeAck {day : Word} (h : Kept c r s) : Kept c r (takeAck day s) := .ite h.modLink.setReg h

protected theorem Kept.execAckReceive {lane : Fin 2} {f : PairFrame} (h : Kept c r s) : Leaves c r (execAckReceive lane f s) :=
  h.acceptFrame fun _ ht => ht.takeAck

protected theorem Kept.streamed {act : State → State} (h : Kept c r s) (hf : ∀ x, Kept c r x → Kept c r (act x)) :
    Kept c r (streamed act s) :=
  .ite (hf _ h.modLink) h

protected theorem Kept.tryComplete {lane : Nat} (h : Kept c r s) : Kept c r (tryComplete lane s) :=
  .ite h.sendFrame.setReg.modTelem.modLink h

protected theorem Kept.execDeltaReceive {lane : Fin 2} {f : PairFrame} (h : Kept c r s) :
    Leaves c r (execDeltaReceive lane f s) := by
  unfold Machine.execDeltaReceive
  exact h.acceptFrame (fun _ ht => ht.streamed (fun _ hu => (hu.rx fun k => tabSet_rising _ _ _ _ k.rx).same.tryComplete))

protected theorem Kept.execSweepReceive {lane : Fin 2} {f : PairFrame} (h : Kept c r s) :
    Leaves c r (execSweepReceive lane f s) := by
  unfold Machine.execSweepReceive
  exact h.acceptFrame (fun _ ht => ht.streamed
    (fun _ hu => (hu.rxSweep fun k => tabSet_rising _ _ _ _ k.rxSweep).same.tryComplete))

protected theorem Kept.compareDay {day : Word} (h : Kept c r s) : Kept c r (compareDay day s) := .ite h.setBit.raise h

protected theorem Kept.cannotFollow (h : Kept c r s) : Kept c r (cannotFollow s) :=
  .ite h.modLink.clearReady h.modLink.modLink.linkFault

protected theorem Kept.followChange {i : Named} (h : Kept c r s) : Kept c r (followChange i s) :=
  .ite h (.ite (.ite h h.cannotFollow) (.ite h.cannotFollow (.ite h.armChange h)))

protected theorem Kept.execEndReceive {lane : Fin 2} {f : PairFrame} {change : Option Named} (h : Kept c r s) :
    Leaves c r (execEndReceive lane f change s) := by
  unfold Machine.execEndReceive
  extract_lets w
  refine h.acceptFrame ?_
  intro t ht
  refine ht.streamed ?_
  intro u hu
  extract_lets s1
  have hs1 : Kept c r s1 := hu.compareDay.modLink
  refine .tryComplete ?_
  split
  · exact hs1.followChange
  · exact hs1

protected theorem Kept.execAbandonReceive {lane : Fin 2} {f : PairFrame} (h : Kept c r s) : Leaves c r
    (execAbandonReceive lane f s) := by
  refine Kept.acceptFrame h fun t ht => ?_
  split
  · exact ht
  · extract_lets u
    have hu : Kept c r u := ht.compareDay.same
    split
    · have hv : Kept c r (modLink (fun l => { l with sweepPos := 0 }) u) := hu.same
      exact hv.clearReady
    · exact hu

protected theorem Kept.commitWord {a : Nat} {v : Word} (h : Kept c r s) : Kept c r (commitWord a v s) := by
  unfold Machine.commitWord
  extract_lets e s1
  have hs1 : Kept c r s1 := h.memSet
  split
  · exact h.violate
  · exact .ite h.tsWrite (.ite hs1.memSet hs1)

theorem imageInto_rising (now : Nat) (ws : List Word) (x : Engine) (h : rising x.w) : rising (imageInto now ws x).w := by
  unfold imageInto
  generalize List.range 64 = l
  dsimp only
  induction l generalizing x with
  | nil => exact h
  | cons d l ih => exact ih _ (wSet_rising _ _ _ h)

protected theorem Kept.commitImage {i : Nat × List Word} (h : Kept c r s) : Kept c r (commitImage i s) := by
  unfold Machine.commitImage
  extract_lets t
  have ht : Kept c r t := h.modEngineW (imageInto_rising _ _)
  exact .ite (ht.modEngineW (imageInto_rising _ _)) ht

protected theorem Kept.countCommit {day : Nat} (h : Kept c r s) : Kept c r (countCommit day s) :=
  .ite h.setReg.modLink.setBit.raise h.setReg.modLink

protected theorem Kept.abandonCommit (h : Kept c r s) : Kept c r (abandonCommit s) := h.modLink.linkFault

protected theorem Kept.finishCommit (h : Kept c r s) : Kept c r (finishCommit s) := by
  unfold Machine.finishCommit
  split
  · extract_lets t
    have ht : Kept c r t := h.foldl fun _ _ hu => hu.commitWord
    exact .ite (((ht.foldl (fun _ _ hv => hv.commitImage)).countCommit).decideQuietly) ht.abandonCommit.decideQuietly
  · exact h

protected theorem Kept.execCommitComplete (h : Kept c r s) : Leaves c r (execCommitComplete s) := Kept.ite h.finishCommit h

protected theorem Kept.startCommit (h : Kept c r s) : Kept c r (startCommit s) := by
  unfold Machine.startCommit
  extract_lets a b ws
  exact h.same.modLink

protected theorem Kept.discardCheckpoint (h : Kept c r s) : Kept c r (discardCheckpoint s) :=
  .ite h.modLink.linkFault.clearReady h.modLink.linkFault

protected theorem Kept.standbyDusk (h : Kept c r s) : Kept c r (standbyDusk s) := by
  unfold Machine.standbyDusk
  extract_lets s1 expects s2
  have hs1 : Kept c r s1 := h.finishCommit
  have hs2 : Kept c r s2 := .ite hs1.startCommit (.ite hs1.discardCheckpoint hs1)
  exact ((hs2.rx (l := []) fun _ => .nil).rxSweep (l := []) fun _ => .nil).same

protected theorem Kept.activeDusk (h : Kept c r s) : Kept c r (activeDusk s) := by
  unfold Machine.activeDusk
  extract_lets t u
  have ht : Kept c r t := by
    have hl : Kept c r (modLink (fun l => { l with stream := false }) s) := h.same
    exact .ite h hl.setBit.raise
  have hu : Kept c r u := .ite ht ht.linkFault
  exact hu.same

protected theorem Kept.execDuskStart (h : Kept c r s) : Leaves c r (execDuskStart s) :=
  .ite h (.ite h.standbyDusk (.ite h.activeDusk h))

protected theorem Kept.execCloneFrameSend {lane ty : Fin 2} {theirs : Word} (h : Kept c r s) :
    Leaves c r (execCloneFrameSend lane ty theirs s) := by
  unfold Machine.execCloneFrameSend
  extract_lets x k2 asked wanted
  split
  · exact .ite ((h.sendFrame.cloneTx fun k => tabSet_rising _ _ _ _ k.cloneTx).same) h
  · exact h

protected theorem Kept.refuseClone {ty : Nat} (h : Kept c r s) : Kept c r (refuseClone ty s) := h.modLink.linkFault

protected theorem Kept.execCloneReceive {lane : Fin 2} {f : PairFrame} {ty : Fin 2} {k : RawHeader} (h : Kept c r s) :
    Leaves c r (execCloneReceive lane f ty k s) :=
  h.acceptFrame fun _ ht => .ite ht (.ite ht.modLink.refuseClone ht.modLink)

/-! Telemetry, the event log in flash, trace memory and the memory scrubber (R568 to R574, R577). -/

protected theorem Kept.logWrite {l : LogEnt} (h : Kept c r s) : Kept c r (logWrite l s) := by
  unfold Machine.logWrite
  extract_lets n log
  have hl : Kept c r { Machine.setReg s midLogSeq (word (n + 1)) with log := log } := h.setReg.same
  exact hl.modTelem

protected theorem Kept.execLogEntryWrite (h : Kept c r s) : Leaves c r (execLogEntryWrite s) := by
  unfold Machine.execLogEntryWrite
  split
  · exact .ite h h.same.logWrite
  · exact h

protected theorem Kept.execTelemetryCollection (h : Kept c r s) : Leaves c r (execTelemetryCollection s) := .ite h h.bump.modTelem

protected theorem Kept.traceStore {k : List Word} (h : Kept c r s) : Kept c r (traceStore s k) :=
  .ite h.modTrace.noteBorn (.ite h.modTrace.addSat h.modTrace)

protected theorem Kept.traceLost (h : Kept c r s) : Kept c r (traceLost s) := .ite h h.modTrace

protected theorem Kept.execTraceWrite (h : Kept c r s) : Leaves c r (execTraceWrite s) :=
  .ite h ((h.modTrace.foldl (fun _ _ ht => ht.traceStore)).traceLost)

protected theorem Kept.execMemoryScrub {a : BitVec 32} {found : Chk} (h : Kept c r s) :
    Leaves c r (execMemoryScrub a found s) := by
  unfold Machine.execMemoryScrub
  extract_lets s1 s2 s3
  have hs1 : Kept c r s1 := h.grantBackground
  have hs2 : Kept c r s2 := hs1.addSat.modTelem
  have hs3 : Kept c r s3 := hs1.addSat.modTelem
  exact .ite h (.ite ((hs2.chk fun k => tabSet_rising _ _ _ _ k.chk).same.raise)
    (.ite ((hs3.chk fun k => tabSet_rising _ _ _ _ k.chk).same.raise) hs1))

protected theorem Kept.execAnalogueRecalibration {input : Fin 32} (h : Kept c r s) :
    Leaves c r (execAnalogueRecalibration input s) :=
  h

/-! The Nightwatch (R25 to R28, R402, R534, R541, R545, R581). -/

protected theorem Kept.endGrant (h : Kept .module r s) : Kept .module r (endGrant s) := by
  unfold Machine.endGrant
  extract_lets free
  have hg : Kept .module r { s with grant := none, eng := s.eng.foldl (fun t p => tabSet {} t p.1 (free p.2)) [] } :=
    (h.mapEngines (f := free) fun x => by unfold free; split <;> rfl).sameTables
  exact hg.setF

theorem rising_filter {α : Type} {l : List (Nat × α)} (p : Nat × α → Bool) (h : rising l) : rising (l.filter p) :=
  List.Pairwise.sublist (List.filter_sublist.map _) h

protected theorem Kept.dropSess {n : Nat} (h : Kept .module r s) : Kept .module r (dropSess n s) := by
  unfold Machine.dropSess
  extract_lets u v w
  have hu : Kept .module r u := (h.sess (l := s.sess.filter (·.1 != n)) fun k => rising_filter _ k.sess).sameTables
  have hv : Kept .module r v := hu.same
  have hw : Kept .module r w := hv.sameTables
  split
  · split
    · exact hw.endGrant
    · exact hw
  · exact hw

protected theorem Kept.closeSess {reason n : Nat} (h : Kept .module r s) : Kept .module r (closeSess reason n s) :=
  h.emit.dropSess

protected theorem Kept.closeAll {reason : Nat} (h : Kept .module r s) : Kept .module r (closeAll reason s) :=
  h.foldl fun _ _ ht => ht.closeSess

theorem reset_canonical : Canonical State.reset := (wf_iff_canonical _).1 reset_wf

protected theorem Kept.resetCore (h : Kept .module r s) : Kept .module r (resetCore s) := by
  unfold Machine.resetCore
  extract_lets w t
  have ht : Kept .module r t :=
    ⟨fun hr => have k := h.canonical hr; wf_iff_canonical _ |>.2 { reset_canonical with
        regs := rising_filter _ k.regs
        ports := tabSetAll_rising {} (fun p : Nat × Port => (p.1, ({ groupFail := p.2.groupFail } : Port))) _ _ .nil
        chans := tabSetAll_rising {} (fun p : Nat × Chan => (p.1, resetChan s.now p.2)) _ _ .nil
        panel := k.panel
        loops := k.loops
        slots := k.slots }, fun hc => nomatch hc⟩
  exact ht.setReg.setReg

protected theorem Kept.internalReset (h : Kept .module r s) : Kept .module r (internalReset s) :=
  .ite h.raise.resetCore.setF.setBit h.resetCore

protected theorem Kept.restart (h : Kept .module r s) : Kept .module r (restart s) := h.applyHw.closeAll.internalReset.sameTables
protected theorem Kept.releaseReset (h : Kept .module r s) : Kept .module r (releaseReset s) := h.sameTables
protected theorem Kept.tryStart (h : Kept .module r s) : Kept .module r (tryStart s) := .ite h.releaseReset h
protected theorem Kept.execPresenceDebounceEnd (h : Kept .module r s) : Leaves .module r (execPresenceDebounceEnd s) := h.tryStart

protected theorem Kept.execStartThresholdReached (h : Kept .module r s) : Leaves .module r (execStartThresholdReached s) :=
  .ite h.modPwr.tryStart h

protected theorem Kept.execColdStartRelease (h : Kept .module r s) : Leaves .module r (execColdStartRelease s) := by
  unfold Machine.execColdStartRelease
  extract_lets s1
  have hs1 : Kept .module r s1 := h.modPwr
  split
  · exact .ite h hs1.modPwr.tryStart
  · exact h

protected theorem Kept.permitFalls (h : Kept .module r s) : Kept .module r (permitFalls s) := by
  have hp : Kept .module r (modNwt (fun n => { n with permit := false }) s) := h.sameTables
  exact hp.clearLatch.sameTables

protected theorem Kept.trip {code : Nat} (h : Kept .module r s) : Kept .module r (trip code s) :=
  .ite h ((h.modNwt.setLastF.setF.addSat.foldl (fun _ _ ht => ht.setReg)).permitFalls)

protected theorem Kept.execDayHeartbeatTimeout (h : Kept .module r s) : Leaves .module r (execDayHeartbeatTimeout s) := by
  unfold Machine.execDayHeartbeatTimeout
  split
  · exact .ite h.trip h
  · exact h

protected theorem Kept.execSupervisorHeartbeatTimeout (h : Kept .module r s) :
    Leaves .module r (execSupervisorHeartbeatTimeout s) :=
  .ite h.trip h

protected theorem Kept.execFabricRailFault (h : Kept .module r s) : Leaves .module r (execFabricRailFault s) := h.modNwt.trip
protected theorem Kept.execInternalRailFault (h : Kept .module r s) : Leaves .module r (execInternalRailFault s) := h.modNwt.trip
protected theorem Kept.execFeedsLost (h : Kept .module r s) : Leaves .module r (execFeedsLost s) := .ite h (.ite h h.trip.modNwt)

protected theorem Kept.execNightwatchRailLoss (h : Kept .module r s) : Leaves .module r (execNightwatchRailLoss s) :=
  .ite h.modNwt.permitFalls.setLastF h

protected theorem Kept.cutHeader {t : Nat} (h : Kept .module r s) : Kept .module r (cutHeader t s) := by
  unfold Machine.cutHeader
  split
  · exact .ite ((h.slots fun k => tabSet_rising _ _ _ _ k.slots).sameTables.bump) h.bump
  · exact h

protected theorem Kept.cutFlash {n trip : Nat} {t : LogEnt} (h : Kept .module r s) : Kept .module r (cutFlash n trip t s).1 := by
  unfold Machine.cutFlash
  split
  · exact h.same
  · split
    · exact h.bump
    · exact .ite h.cutHeader h

protected theorem Kept.sundownSteps {n : Nat} {t : LogEnt} (h : Kept c r s) : Kept c r (sundownSteps n t s) := by
  unfold Machine.sundownSteps
  extract_lets ws s1 s2
  have hs1 : Kept c r s1 := .ite h.sendFrame h
  have hs2 : Kept c r s2 := .ite hs1.logWrite hs1
  exact .ite hs2 (.ite hs2.sundownPage hs2.cutPage)

protected theorem Kept.execSundown {complete : Bool} (h : Kept .module r s) : Leaves .module r (execSundown complete s) := by
  unfold Machine.execSundown
  extract_lets done
  split
  · extract_lets full n c s1
    have hc : Kept .module r c.1 := h.bump.cutFlash
    have hs1 : Kept .module r s1 := hc.sundownSteps
    exact .ite h hs1.modNwt.modBoot
  · exact h

protected theorem Kept.execResetAssert (h : Kept .module r s) : Leaves .module r (execResetAssert s) := by
  unfold Machine.execResetAssert
  split
  · exact .ite h h.closeAll.internalReset.modNwt
  · exact h

protected theorem Kept.execResetRelease (h : Kept .module r s) : Leaves .module r (execResetRelease s) := by
  unfold Machine.execResetRelease
  split
  · split
    · exact h
    · have hm : Kept .module r { Machine.releaseReset s with mst := .daybreak, mlast := mstCode s.mst } :=
      h.releaseReset.sameTables
      exact hm.sameTables
  · exact h

/-! Daybreak (R321, R406, R464 to R477, R527, R528, R540, R541, R545). -/

protected theorem Kept.failStart {f : StartFail} (h : Kept .module r s) : Kept .module r (failStart f s) := by
  unfold Machine.failStart
  extract_lets t u v w x
  have ht : Kept .module r t := h.raise
  have hu : Kept .module r u := ht.raise
  have hv : Kept .module r v := hu.setF.addSat
  have hw : Kept .module r w := hv.clearLatch.sameTables
  clear_value w
  have hx : Kept .module r x := hw.sameTables
  exact hx.sameTables

protected theorem Kept.startReports (h : Kept .module r s) : Kept .module r (startReports s) := by
  unfold Machine.startReports
  extract_lets s1 s2 s3
  have hs1 : Kept .module r s1 := .ite h h.setBit.raise.modBoot
  have hs2 : Kept .module r s2 := by
    unfold s2
    split
    · exact hs1.raise.modNwt
    · exact hs1
  have hs3 : Kept .module r s3 := .ite hs2.raise.modNwt hs2
  exact .ite hs3.setBit.raise.modPwr hs3

protected theorem Kept.startAttempt (h : Kept .module r s) : Kept .module r (startAttempt s) := by
  unfold Machine.startAttempt
  extract_lets b s1
  have hs1 : Kept .module r s1 := h.startReports.setBit.setBit
  exact hs1.modBoot

protected theorem Kept.readCarrier {v : DayView} (h : Kept .module r s) : Kept .module r (readCarrier v s) := by
  unfold Machine.readCarrier
  extract_lets s1 s2
  have hs1 : Kept .module r s1 := h.setReg
  have hs2 : Kept .module r s2 := .ite hs1 hs1.modBoot
  split
  · exact hs2.forUpto fun _ _ ht => ht.setReg
  · exact (hs2.forUpto (fun _ _ hu => hu.setReg)).raise

protected theorem Kept.bootPage {page cause : Nat} (h : Kept c r s) : Kept c r (bootPage page cause s) := by
  unfold Machine.bootPage
  extract_lets ws
  have hp : Kept c r (modFpd (fun x => { x with page := some (page, cause) }) s) := h.same
  exact hp.writePanel.emit

protected theorem Kept.bootPages {f : StartFail} (h : Kept c r s) : Kept c r (bootPages f s) :=
  .ite h.bootPage (.ite h.bootPage h)

protected theorem Kept.enterFirmware (h : Kept .module r s) : Kept .module r (enterFirmware s) := by
  unfold Machine.enterFirmware
  extract_lets x ht s1 s2 s3 s4
  have hs1 : Kept .module r s1 := h.setReg
  have hs2 : Kept .module r s2 := hs1.setReg
  have hs3 : Kept .module r s3 := hs2.foldl fun _ _ hu => hu.privSet
  have hs4 : Kept .module r s4 := hs3.forUpto fun _ _ hv => hv.modSup
  exact hs4.modBoot

protected theorem Kept.startUtc {img : List Word} (h : Kept c r s) : Kept c r (startUtc img s) := by
  unfold Machine.startUtc
  split
  · exact h
  · split
    · exact h.setF.setBit.setF
    · exact h.setF.setBit.setF

protected theorem Kept.loadConfig (h : Kept .module r s) : Kept .module r (loadConfig s) :=
  h.loadImage.startUtc.forUpto fun _ _ ht => ht.setReg

protected theorem Kept.comparatorFailed {k : Nat} (h : Kept c r s) : Kept c r (comparatorFailed k s) :=
  h.same.setBit.raise.mismRecord.mismatchResponse

protected theorem Kept.detectorFailed {i : Nat} (h : Kept c r s) : Kept c r (detectorFailed i s) := h.setBit.lateEvent

protected theorem Kept.selfTests {v : DayView} (h : Kept c r s) : Kept c r (selfTests v s) := by
  unfold Machine.selfTests
  extract_lets s1 s2
  have hs1 : Kept c r s1 := h.foldl fun _ _ ht => ht.comparatorFailed
  have hs2 : Kept c r s2 := hs1.foldl fun _ _ hu => hu.detectorFailed
  exact .ite hs2 hs2.monitorFault

protected theorem Kept.loadModule {v : DayView} (h : Kept .module r s) : Kept .module r (loadModule v s) := by
  unfold Machine.loadModule
  extract_lets s1
  have hs1 : Kept .module r s1 := h.loadConfig.selfTests
  split
  · exact h.failStart
  · split
    · exact hs1.failStart
    · exact hs1.modBoot

protected theorem Kept.beginStart {v : DayView} (h : Kept .module r s) : Kept .module r (beginStart v s) := by
  unfold Machine.beginStart
  extract_lets s1
  have hs1 : Kept .module r s1 := h.startAttempt.readCarrier
  split
  · exact hs1.bootPages.failStart
  · exact hs1.enterFirmware.loadModule

protected theorem Kept.decideStart (h : Kept .module r s) : Kept .module r (decideStart s) :=
  .ite h.modBoot.tryJoin.setBit.raise h.modBoot.tryJoin

protected theorem Kept.execDaybreak {v : DayView} (h : Kept .module r s) : Leaves .module r (execDaybreak v s) :=
  .ite h.beginStart (.ite h.decideStart h)

protected theorem Kept.timeoutCarrier (h : Kept .module r s) : Kept .module r (timeoutCarrier s) := h.same.readCarrier

protected theorem Kept.execDaybreakStepTimeout {step : Fin 8} (h : Kept .module r s) :
    Leaves .module r (execDaybreakStepTimeout step s) := by
  unfold Machine.execDaybreakStepTimeout
  extract_lets k s1 s2 s3
  have hs1 : Kept .module r s1 := .ite h.startAttempt h
  have hs2 : Kept .module r s2 := .ite hs1.timeoutCarrier hs1
  have hs3 : Kept .module r s3 := .ite hs2.enterFirmware hs2
  exact .ite h hs3.failStart

protected theorem Kept.retryStart (h : Kept .module r s) : Kept .module r (retryStart s) :=
  h.sameTables.stateNotices.internalReset

protected theorem Kept.execRetryWaitExpiry (h : Kept .module r s) : Leaves .module r (execRetryWaitExpiry s) := by
  unfold Machine.execRetryWaitExpiry
  split
  · exact .ite h.retryStart h
  · exact h

protected theorem Kept.writeBoth {slot : Nat} {d : Header} {ws : List Word} (h : Kept .module r s) :
    Kept .module r (writeBoth slot d ws s) :=
  h.slots fun k => tabSet_rising _ _ _ _ (tabSet_rising _ _ _ _ k.slots)

protected theorem Kept.execCloneComplete (h : Kept .module r s) : Leaves .module r (execCloneComplete s) := by
  unfold Machine.execCloneComplete
  extract_lets s1
  have hs1 : Kept .module r s1 := by
    unfold s1
    split
    · exact h.writeBoth
    · exact h
  split
  · exact h
  · split
    · exact h
    · exact .ite h (.ite h.refuseClone hs1.writeBoth.raise.restart)

/-! The day (R17, R21 to R23, R26, R155 to R160, R173, R182, R183, R190 to R194, R396 to R401, R452). -/

protected theorem Kept.noteHot {i : Nat} {tj : Option (BitVec 9)} (h : Kept c r s) : Kept c r (modDay (noteHot i tj) s) := by
  cases tj with
  | none => exact h.same
  | some t =>
    unfold modDay noteHot
    dsimp only
    split
    · exact h.same
    · exact h.same

protected theorem Kept.execSpeedMeasurement {i : Fin 64} {idx : Option (BitVec 12)} {tj : Option (BitVec 9)} (h : Kept c r s) :
    Leaves c r (execSpeedMeasurement i idx tj s) := by
  unfold Machine.execSpeedMeasurement
  extract_lets l shown t u v w
  have ht : Kept c r t := (h.speeds fun k => tabSet_rising _ _ _ _ k.speeds).setF
  have hu : Kept c r u := by
    unfold u
    split
    · exact ht.setF.modTelem
    · exact ht
  have hv : Kept c r v := hu.noteHot
  have hw : Kept c r w := .ite hv.modTelem hv
  exact Kept.ite hw.setBit.raise hw

protected theorem Kept.abandonWork {e : Nat} (h : Kept c r s) : Kept c r (abandonWork e s) :=
  .ite h.modEngine.traceRest h.modEngine

protected theorem Kept.watchEngine {e : Nat} (h : Kept c r s) : Kept c r (watchEngine e s) := by
  unfold Machine.watchEngine
  extract_lets x beyond s1 s2
  have hs1 : Kept c r s1 := h.overrun
  have hs2 : Kept c r s2 := .ite hs1.overrun hs1
  split
  · exact h
  · split
    · exact hs2.breach
    · exact hs2.abandonWork
    · exact hs2

protected theorem Kept.watchLoader (h : Kept c r s) : Kept c r (watchLoader s) := .ite h.loaderOverrun h

protected theorem Kept.execDayWatchdogCheck (h : Kept c r s) : Leaves c r (execDayWatchdogCheck s) :=
  .ite h ((h.modDay.forUpto (fun _ _ ht => ht.watchEngine)).watchLoader)

protected theorem Kept.minSlack {n e : Nat} (h : Kept c r s) : Kept c r { s with dayMin := n, dayMinEng := e } := h.same

protected theorem Kept.slackMidnight (h : Kept c r s) : Kept c r (slackMidnight s) := by
  unfold Machine.slackMidnight
  extract_lets t u v
  have ht : Kept c r t := h.forUpto fun _ _ h1 => h1.setReg
  have hu : Kept c r u := ht.setReg
  have hv : Kept c r v := hu.modTelem
  exact hv.minSlack

protected theorem Kept.indicate {b code : Nat} {unit : Option Nat} (h : Kept c r s) : Kept c r (indicate b code unit s) := by
  unfold Machine.indicate
  split
  · exact .ite h h.setBit.raise
  · exact h

protected theorem Kept.indications (h : Kept c r s) : Kept c r (indications s) := by
  unfold Machine.indications
  extract_lets s1 s2 s3 s4
  have hs1 : Kept c r s1 := h.indicate
  have hs2 : Kept c r s2 := hs1.indicate
  have hs3 : Kept c r s3 := hs2.indicate
  have hs4 : Kept c r s4 := hs3.indicate
  exact hs4.indicate.modDay

protected theorem Kept.autoSwitch (h : Kept c r s) : Kept c r (autoSwitch s) := by
  unfold Machine.autoSwitch
  split
  · exact h.armSwitch
  · exact h.refuseSwitch

protected theorem Kept.alarms (h : Kept c r s) : Kept c r (alarms s) := .ite h.indications.autoSwitch h.indications

protected theorem Kept.steer (h : Kept c r s) : Kept c r (steer s) :=
  .ite h (.ite h.bump.setF.setBit.setBit.timeFault h.bump.setF.setBit)

protected theorem Kept.alignMidnight (h : Kept c r s) : Kept c r (alignMidnight s) :=
  .ite h.steer.setF.modTelem.setBit.raise h.steer.setF.modTelem

protected theorem Kept.newDay (h : Kept c r s) : Kept c r (newDay s) := h.modDay.same

protected theorem Kept.enterState {m : MState} (h : Kept .module r s) : Kept .module r (enterState m s) :=
  .ite h.discardStaged.sameTables.reselect.endGrant h.discardStaged.sameTables.reselect

protected theorem Kept.watchDay (h : Kept c r s) : Kept c r (watchDay s) := h.modNwt
protected theorem Kept.startDone (h : Kept .module r s) : Kept .module r (startDone s) := h.setF.modBoot.raise

protected theorem Kept.dropStop {status : Nat} {ws : List Word} (h : Kept .module r s) :
    Kept .module r (dropStop status ws s) := by
  unfold Machine.dropStop
  split
  · exact h.sameTables.doneNotice
  · exact h.sameTables

protected theorem Kept.switchDone {status : Nat} {ws : List Word} (h : Kept c r s) : Kept c r (switchDone status ws s) := by
  unfold Machine.switchDone
  split
  · exact h.doneNotice
  · exact h

protected theorem Kept.dropSwitch (h : Kept .module r s) : Kept .module r (dropSwitch s) := .ite h h.switchDone.endSwitch

/-- A checkpoint dropped; the blocks of the sweep may stay. -/
protected theorem Kept.clearCheckpoint {f : Link → Link} {b : Bool} (h : Kept .module r s)
    (hf : ∀ l, f l = { clearCheckpoint l with
        rxSweep := if b then l.rxSweep else [], joinAccepted := (f l).joinAccepted, partVer := (f l).partVer }) :
    Kept .module r (modLink f s) :=
  ⟨fun hr => by
    have k := h.canonical hr
    have hx : rising (if b then s.link.rxSweep else []) := by split <;> [exact k.rxSweep; exact .nil]
    unfold modLink
    rw [hf]
    exact wf_iff_canonical _ |>.2 { k with images := .nil, frozenImg := .nil, rx := .nil, rxSweep := hx },
   fun hc => nomatch hc⟩

protected theorem Kept.enterStandby (h : Kept .module r s) : Kept .module r (enterStandby s) := by
  unfold Machine.enterStandby
  exact (h.enterState.stopChains.setBit.clearCheckpoint (b := s.mst == .daybreak) fun _ => rfl).watchDay

protected theorem Kept.enterActive (h : Kept .module r s) : Kept .module r (enterActive s) :=
  h.enterState.modLio.watchDay.autoStart

protected theorem Kept.dayFault {code : Nat} (h : Kept c r s) : Kept c r (dayFault code s) := h.raise
protected theorem Kept.recordEvent {day count : Nat} (h : Kept c r s) : Kept c r (recordEvent day count s) := h.tsWrite.tsWrite

protected theorem Kept.mapChans {f : Chan → Chan} (h : Kept c r s) :
    Kept c r (modLio (fun x => { x with chans := x.chans.foldl (fun t p => tabSet {} t p.1 (f p.2)) [] }) s) :=
  h.chans fun _ => tabSetAll_rising {} (fun p : Nat × Chan => (p.1, f p.2)) _ _ .nil

theorem restoreCounts_w (now : Nat) (x : Engine) : (restoreCounts now x).w = x.w := by
  unfold restoreCounts; split <;> rfl

protected theorem Kept.takeOver (h : Kept c r s) : Kept c r (takeOver s) := by
  unfold Machine.takeOver
  extract_lets t u v
  have ht : Kept c r t := h.loadReadback.safTakeover
  clear_value t
  have hu : Kept c r u := ht.mapEngines (f := restoreCounts t.now) (restoreCounts_w _)
  clear_value u
  have hv : Kept c r v := hu.forUpto fun _ _ h1 => h1.portTakeover
  clear_value v
  exact hv.mapChans (f := fun x => { x with refresh := 0 })

protected theorem Kept.transition6 {planned : Bool} (h : Kept .module r s) : Kept .module r (transition6 planned s) := by
  unfold Machine.transition6
  extract_lets t u v
  have hu : Kept .module r u := h.setBit.enterActive.takeOver
  have hv : Kept .module r v := hu.clearCheckpoint (b := false) fun _ => rfl
  exact .ite hv.recordEvent.dayFault hv.recordEvent.dayFault

protected theorem Kept.dayStops (h : Kept .module r s) : Kept .module r (modDay (fun d => { d with run := false }) s) :=
    h.sameTables

protected theorem Kept.enterStopped (h : Kept .module r s) : Kept .module r (enterStopped s) := by
  unfold Machine.enterStopped
  extract_lets t u v
  have ht : Kept .module r t := h.dropSwitch.enterState.stopChains
  have hu : Kept .module r u := ht.clearLatch.clearCheckpoint (b := false) fun _ => rfl
  have hv : Kept .module r v := hu.mapEngines
    (f := fun x => { x with rest := if x.rest == .idle then .idle else .done, loops := [], lockOpen := false, lockCnt := 0 })
      fun _ => rfl
  exact hv.dayStops.modNwt

protected theorem Kept.stopModule (h : Kept .module r s) : Kept .module r (stopModule s) := by
  unfold Machine.stopModule
  extract_lets act d t u v
  have hs : Kept .module r { s with stopReq := none, stopActivate := false } := h.sameTables
  have ht : Kept .module r t := hs.enterStopped
  have hu : Kept .module r u := by
    unfold u
    cases d with
    | none => exact ht
    | some d => exact ht.doneNotice
  have hv : Kept .module r v := hu.stateNotices
  exact .ite hv.restart hv

protected theorem Kept.switchOut (h : Kept .module r s) : Kept .module r (switchOut s) := by
  unfold Machine.switchOut
  extract_lets made s1 s2 s3 s4 s5
  have hs1 : Kept .module r s1 := h.bump
  have hs2 : Kept .module r s2 := .ite hs1.switchDone hs1.switchDone
  have hs3 : Kept .module r s3 := hs2.clearLatch.endSwitch
  have hs4 : Kept .module r s4 := .ite hs3.dayFault.recordEvent hs3
  have hs5 : Kept .module r s5 := .ite hs4.dropStop hs4
  split
  · exact hs5.stopModule
  · exact hs5.enterStandby.stateNotices

protected theorem Kept.switchBack (h : Kept .module r s) : Kept .module r (switchBack s) :=
  (Kept.ite h.switchDone.dropStop h.switchDone.dropStop).sameTables.endSwitch.dayFault

protected theorem Kept.switchBegin (h : Kept .module r s) : Kept .module r (switchBegin s) := (Kept.ite h.dropStop h).runSwitch
protected theorem Kept.joined (h : Kept c r s) : Kept c r (joined s) := h.modLink.same

protected theorem Kept.leaveDaybreak (h : Kept .module r s) : Kept .module r (leaveDaybreak s) := by
  unfold Machine.leaveDaybreak
  exact .ite h (.ite h.enterState.startDone.autoStart.stateNotices (.ite h.joined.enterStandby.startDone.stateNotices
    (.ite h.sameTables.startDone.enterActive.stateNotices h)))

protected theorem Kept.leaveStandby {old : Nat} (h : Kept .module r s) : Kept .module r (leaveStandby old s) :=
  h.dropStop.transition6.stateNotices

protected theorem Kept.transitions {old : Nat} (h : Kept .module r s) : Kept .module r (transitions old s) := by
  unfold Machine.transitions
  split
  · exact h.leaveDaybreak
  · exact .ite h.leaveStandby (.ite h.stopModule h)
  · exact .ite (.ite h.switchBack h.switchOut) (.ite h.switchBegin (.ite h.stopModule h))
  · exact .ite h.stopModule h
  · exact h

protected theorem Kept.changeMidnight {before : State} (h : Kept c r s) : Kept c r (changeMidnight before s) :=
  .ite h (.ite h.cancelChange h.beginChange)

protected theorem Kept.heartbeat (h : Kept c r s) : Kept c r (heartbeat s) := .ite h.modNwt h
protected theorem Kept.latchSafe {l : Nat} (h : Kept c r s) : Kept c r (latchSafe l s) := .ite h.tsRead h.tsRead.modChan

protected theorem Kept.outputsMidnight (h : Kept c r s) : Kept c r (outputsMidnight s) :=
  .ite h (h.forUpto (fun _ _ ht => ht.outputMidnight))

protected theorem Kept.startEngine {e : Nat} (h : Kept c r s) : Kept c r (startEngine e s) := by
  unfold Machine.startEngine
  extract_lets x d t
  have ht : Kept c r t := .ite h.traceRest h
  exact ht.modEngine

protected theorem Kept.engineMidnight {e : Nat} (h : Kept c r s) : Kept c r (engineMidnight e s) := .ite h.startEngine h.modEngine
protected theorem Kept.mandateWord {off : Nat} {v : Word} (h : Kept c r s) : Kept c r (mandateWord off v s) := .ite h h.tsWrite
protected theorem Kept.mandateRecord (h : Kept c r s) : Kept c r (mandateRecord s) := h.foldl fun _ _ ht => ht.mandateWord
protected theorem Kept.traceMidnight (h : Kept c r s) : Kept c r (traceMidnight s) := .ite h.traceRec h

protected theorem Kept.dropReceived (h : Kept c r s) :
    Kept c r (modLink (fun l => { l with acked := false, rx := [], rxEnd := none, rxBad := false, complete := none }) s) :=
  (h.rx (l := []) fun _ => .nil).same

protected theorem Kept.dayStart {anew : Bool} (h : Kept c r s) : Kept c r (dayStart anew s) := by
  unfold Machine.dayStart
  extract_lets t u v w x y
  have ht : Kept c r t := h.heartbeat
  have hu : Kept c r u := ((ht.forUpto fun _ _ h1 => h1.sampleChan).forUpto fun _ _ h1 => h1.latchSafe).outputsMidnight
  have hv : Kept c r v := (hu.forUpto fun _ _ h1 => h1.loopMidnight).safMidnight
  have hw : Kept c r w := (hv.forUpto fun _ _ h1 => h1.portMidnight).syncMidnight
  have hx : Kept c r x := hw.traceMidnight.postEvent
  have hy : Kept c r y := (hx.forUpto fun _ _ h1 => h1.engineMidnight).mandateRecord
  have hl : Kept c r (modLink (fun l => { l with acked := false, rx := [], rxEnd := none, rxBad := false, complete := none })
      (Machine.loadUpdate y)) := hy.loadUpdate.dropReceived
  exact hl.decideAtMidnight

protected theorem Kept.grantDay (h : Kept .module r s) : Kept .module r (grantDay s) := by
  unfold Machine.grantDay
  split
  · exact .ite h.endGrant h
  · exact h

protected theorem Kept.endDay (h : Kept .module r s) : Kept .module r (endDay s) := by
  unfold Machine.endDay
  extract_lets s1 s2
  have hs1 : Kept .module r s1 := h.newDay.slackMidnight.alarms.alignMidnight
  have hs2 : Kept .module r s2 := hs1.applyRegions.applyLater.grantDay
  exact .ite hs2.finishChange hs2

protected theorem Kept.execMidnight (h : Kept .module r s) : Leaves .module r (execMidnight s) :=
  .ite h (Kept.ite h.endDay.transitions.changeMidnight.dayStart h.endDay.transitions)

/-! Host sessions and how a request is served (R551 to R562, R508 to R511). -/

theorem mem_insertSess {n : Nat} {x : HostSess} {l : List (Nat × HostSess)} {p : Nat × HostSess} (h : p ∈ insertSess n x l) :
    p = (n, x) ∨ p ∈ l := by
  induction l with
  | nil => exact .inl (List.mem_singleton.1 h)
  | cons y l ih =>
    simp only [insertSess] at h
    split at h
    · exact List.mem_cons.1 h
    · split at h
      · rcases List.mem_cons.1 h with h | h
        · exact .inl h
        · exact .inr (List.mem_cons_of_mem _ h)
      · rcases List.mem_cons.1 h with h | h
        · exact .inr (h ▸ List.mem_cons_self)
        · exact (ih h).imp_right (List.mem_cons_of_mem _)

theorem insertSess_rising (n : Nat) (x : HostSess) (l : List (Nat × HostSess)) (h : rising l) : rising (insertSess n x l) := by
  induction l with
  | nil => exact List.pairwise_singleton _ _
  | cons y l ih =>
    obtain ⟨hy, hl⟩ := (rising_cons _ _ _).1 h
    simp only [insertSess]
    split
    · next hn =>
      refine (rising_cons _ _ _).2 ⟨fun p hp => ?_, h⟩
      rcases List.mem_cons.1 hp with rfl | hp
      · exact hn
      · exact hn.trans (hy p hp)
    · split
      · next hn => exact (rising_cons _ _ _).2 ⟨fun p hp => hn ▸ hy p hp, hl⟩
      · next hn hne =>
        refine (rising_cons _ _ _).2 ⟨fun p hp => ?_, ih hl⟩
        rcases mem_insertSess hp with rfl | hp
        · exact lt_of_le_of_ne (not_lt.1 hn) (Ne.symm hne)
        · exact hy p hp

protected theorem Kept.putSess {n : Nat} {x : HostSess} (h : Kept .module r s) : Kept .module r (putSess n x s) :=
  h.sess fun k => insertSess_rising _ _ _ k.sess

protected theorem Kept.tlsFailed {peer : BitVec 32} (h : Kept c r s) : Kept c r (tlsFailed peer s) :=
  .ite ((h.setBit.tlsAt fun k => tabSet_rising _ _ _ _ k.tlsAt).same.raise) h.setBit

protected theorem Kept.openSess {port : Nat} {roles : List Role} (h : Kept .module r s) :
    Kept .module r (openSess port roles s) := by
  unfold Machine.openSess
  split
  · exact h.putSess.emit
  · exact h.emit

protected theorem Kept.execHostConnection {port : Fin 4} {peer : BitVec 32} {dial : Dial} {chain : List Cert}
    (h : Kept .module r s) :
    Leaves .module r (execHostConnection port peer dial chain s) := by
  unfold Machine.execHostConnection
  extract_lets recent s1 s2 s3
  have hs2 : Kept .module r s2 := h.same
  have hs3 : Kept .module r s3 := hs2.drawn
  split
  · exact h
  · split
    · exact h.dropTraffic
    · split
      · exact hs2.tlsFailed
      · split
        · exact hs3.openSess
        · split
          · exact hs3.openSess
          · exact hs3.setBit.raise

protected theorem Kept.closeIf {reason n : Nat} (h : Kept .module r s) : Kept .module r (closeIf reason n s) := .ite h.closeSess h

protected theorem Kept.execSessionIdleTimeout {sess : Fin 8} (h : Kept .module r s) :
    Leaves .module r (execSessionIdleTimeout sess s) := by
  unfold Machine.execSessionIdleTimeout
  split
  · exact .ite h.closeSess h
  · exact h

protected theorem Kept.execTlsFailure {sess : Fin 8} (h : Kept .module r s) : Leaves .module r (execTlsFailure sess s) :=
  h.closeIf

protected theorem Kept.execKeyUpdate {sess : Fin 8} (h : Kept .module r s) : Leaves .module r (execKeyUpdate sess s) := by
  unfold Machine.execKeyUpdate
  split
  · exact Kept.ite h.putSess.emit h
  · exact h

protected theorem Kept.execNetworkFrameDrop {port : Fin 4} {peer : BitVec 32} (h : Kept c r s) :
    Leaves c r (execNetworkFrameDrop port peer s) :=
  h.dropTraffic

protected theorem Kept.execIcmpEcho {port : Fin 4} {ident : Nat} (h : Kept c r s) : Leaves c r (execIcmpEcho port ident s) :=
  .ite ((h.echoes fun k => tabSet_rising _ _ _ _ k.echoes).same.emit) h.dropUnnamed

protected theorem Kept.execRngReady (h : Kept c r s) : Leaves c r (execRngReady s) := .ite h h.same.setReg.raise
protected theorem Kept.execRngHealthFail (h : Kept c r s) : Leaves c r (execRngHealthFail s) := .ite h.setReg.setBit.raise h
protected theorem Kept.execDrbgReseed (h : Kept c r s) : Leaves c r (execDrbgReseed s) := Kept.ite h.reseed h

protected theorem Kept.execGrantExpiry (h : Kept .module r s) : Leaves .module r (execGrantExpiry s) := by
  unfold Machine.execGrantExpiry
  split
  · exact .ite h.endGrant h
  · exact h

protected theorem Kept.execUpdateSessionLoss (h : Kept .module r s) : Leaves .module r (execUpdateSessionLoss s) := by
  unfold Machine.execUpdateSessionLoss
  split
  · split
    · exact .ite h.modBoot.setF.setBit.raise h
    · exact h
  · exact h

protected theorem Kept.respond {q : Rq} {code status : Nat} {ws : List Word} (h : Kept c r s) :
    Kept c r (respond q code status ws s) :=
  h.emit

protected theorem Kept.serveRequest {q : Rq} {h' : HostReq} {v : Service} {body : State → State} (h : Kept c r s)
    (hf : ∀ x, Kept c r x → Kept c r (body x)) :
    Kept c r (serveRequest q h' v body s) := by
  unfold Machine.serveRequest
  split
  · exact h
  · split
    · exact h.respond
    · exact hf _ (.ite h.drawn h)

protected theorem Kept.serveMisformed {q : Rq} {code : Nat} (h : Kept c r s) : Kept c r (serveMisformed q code s) :=
  h.serveRequest fun _ ht => ht.respond

protected theorem Kept.serveClash {q : Rq} {code : Nat} (h : Kept c r s) : Kept c r (serveClash q code s) := h.respond
protected theorem Kept.queueReq {q : Rq} {h' : HostReq} (h : Kept c r s) : Kept c r (queueReq q h' s) := h.same

protected theorem Kept.received {q : Rq} {x : HostSess} (h : Kept .module r s) : Kept .module r (received q x s) :=
  (Kept.ite h.same h).putSess

protected theorem Kept.arrive {q : Rq} {h' : HostReq} {serve : State → State} (h : Kept .module r s)
    (hf : ∀ x, Kept .module r x → Kept .module r (serve x)) :
    Leaves .module r (arrive q h' serve s) := by
  unfold Machine.arrive
  extract_lets clash
  split
  · exact h
  · extract_lets early s1
    have hs1 : Kept .module r s1 := h.received
    exact .ite hs1.respond (.ite hs1.queueReq (Kept.ite hs1.serveClash (hf _ hs1)))

protected theorem Kept.execHostFramingError {sess : Fin 8} {w0 w1 : Word} (h : Kept .module r s) :
    Leaves .module r (execHostFramingError sess w0 w1 s) :=
  .ite h.closeIf (h.arrive (fun _ ht => ht.serveMisformed))

/-! The host commands that read, stop, switch and arm (R22, R195, R398, R419, R475, R563, R564, R570, R574). -/

protected theorem Kept.refused {q : Rq} {code fault reason : Nat} (h : Kept c r s) : Kept c r (refused q code fault reason s) :=
  h.respond

protected theorem Kept.runIdent {q : Rq} (h : Kept c r s) : Kept c r (runIdent q s) := h.serveRequest fun _ ht => ht.respond

protected theorem Kept.execIdent {q : Rq} (h : Kept .module r s) : Leaves .module r (execIdent q s) :=
  h.arrive fun _ ht => ht.runIdent

protected theorem Kept.runEcho {q : Rq} {payload : List Word} (h : Kept c r s) : Kept c r (runEcho q payload s) :=
  h.serveRequest fun _ ht => ht.respond

protected theorem Kept.execEcho {q : Rq} {payload : List Word} (h : Kept .module r s) : Leaves .module r (execEcho q payload s) :=
  h.arrive fun _ ht => ht.runEcho

protected theorem Kept.runStatus {q : Rq} (h : Kept c r s) : Kept c r (runStatus q s) := h.serveRequest fun _ ht => ht.respond

protected theorem Kept.execStatus {q : Rq} (h : Kept .module r s) : Leaves .module r (execStatus q s) :=
  h.arrive fun _ ht => ht.runStatus

protected theorem Kept.memRequest {w : HostWait} {m : Nat} {f : State → State} (h : Kept c r s)
    (hf : ∀ t, Kept c r t → Kept c r (f t)) : Kept c r (memRequest w m f s) := by
  unfold Machine.memRequest
  extract_lets t
  have ht : Kept c r t := hf _ h.untouched
  have hw : Kept c r (Machine.waitFor m 0 t.tk.touched s) := h.waitFor
  exact .ite ht.settle hw.same

protected theorem Kept.readWords {m : Nat} {secure peek : Bool} {n : Nat} {a : Word} (h : Kept c r s) :
    Kept c r (readWords m secure peek n a s).2 := by
  induction n generalizing a s with
  | zero => exact h
  | succ n ih =>
    refine ih ?_
    dsimp only
    split
    · exact h.touch.violate
    · exact h.touch.readMapped

protected theorem Kept.serveRead {q : Rq} {a : Word} {count : Nat} (h : Kept c r s) : Kept c r (serveRead q a count s) :=
  h.readWords.respond

protected theorem Kept.runRead {q : Rq} {a : Word} {count : Nat} (h : Kept c r s) : Kept c r (runRead q a count s) :=
  h.serveRequest fun _ ht => ht.memRequest (fun _ hu => hu.serveRead)

protected theorem Kept.execRead {q : Rq} {a : Word} {count : Nat} (h : Kept .module r s) :
    Leaves .module r (execRead q a count s) :=
  h.arrive fun _ ht => ht.runRead

protected theorem Kept.runLog {q : Rq} {first : Word} {count : Nat} (h : Kept c r s) : Kept c r (runLog q first count s) :=
  h.serveRequest fun _ ht => ht.respond

protected theorem Kept.execLog {q : Rq} {first : Word} {count : Nat} (h : Kept .module r s) :
    Leaves .module r (execLog q first count s) :=
  h.arrive fun _ ht => ht.runLog

protected theorem Kept.runTelem {q : Rq} (h : Kept c r s) : Kept c r (runTelem q s) := h.serveRequest fun _ ht => ht.respond

protected theorem Kept.execTelem {q : Rq} (h : Kept .module r s) : Leaves .module r (execTelem q s) :=
  h.arrive fun _ ht => ht.runTelem

protected theorem Kept.runPmucfg {q : Rq} {stream : Nat} (h : Kept c r s) : Kept c r (runPmucfg q stream s) :=
  h.serveRequest fun _ ht => ht.respond

protected theorem Kept.execPmucfg {q : Rq} {stream : Nat} (h : Kept .module r s) : Leaves .module r (execPmucfg q stream s) :=
  h.arrive fun _ ht => ht.runPmucfg

protected theorem Kept.acceptStop {forced activate : Bool} {q : Rq} (h : Kept .module r s) :
    Kept .module r (acceptStop forced activate q s) :=
  h.dropStop.sameTables

protected theorem Kept.stopBySwitch {activate : Bool} {q : Rq} (h : Kept .module r s) :
    Kept .module r (stopBySwitch activate q s) :=
  (Kept.ite h.armSwitch h).acceptStop

protected theorem Kept.serveStop {code : Nat} {forced activate : Bool} {q : Rq} (h : Kept .module r s) :
    Kept .module r (serveStop code forced activate q s) :=
  .ite (.ite h.stopBySwitch.respond h.refuseSwitch.refused) h.acceptStop.respond

protected theorem Kept.runStop {q : Rq} {flags : Word} (h : Kept .module r s) : Kept .module r (runStop q flags s) :=
  h.serveRequest fun _ ht => ht.serveStop

protected theorem Kept.execStop {q : Rq} {flags : Word} (h : Kept .module r s) : Leaves .module r (execStop q flags s) :=
  h.arrive fun _ ht => ht.runStop

protected theorem Kept.runRestart {q : Rq} (h : Kept .module r s) : Kept .module r (runRestart q s) :=
  h.serveRequest fun _ ht => .ite ht.respond.restart ht.respond.retryStart

protected theorem Kept.execRestart {q : Rq} (h : Kept .module r s) : Leaves .module r (execRestart q s) :=
  h.arrive fun _ ht => ht.runRestart

protected theorem Kept.runSwitchReq {q : Rq} {day : Word} (h : Kept c r s) : Kept c r (runSwitchReq q day s) := by
  refine h.serveRequest fun t ht => ?_
  generalize switchReason t (fullDay t day) = o
  rcases o with _ | _ | _ | n
  · exact ht.armSwitch.modLink.respond
  · exact ht.refuseSwitch.refused
  · exact ht.refuseSwitch.respond
  · exact ht.refuseSwitch.refused

protected theorem Kept.execSwitch {q : Rq} {day : Word} (h : Kept .module r s) : Leaves .module r (execSwitch q day s) :=
  h.arrive fun _ ht => ht.runSwitchReq

protected theorem Kept.runUnlock {q : Rq} {drive : Nat} (h : Kept c r s) : Kept c r (runUnlock q drive s) :=
  h.serveRequest fun _ ht => .ite ht.unlock.respond ht.unlock.bump.refused

protected theorem Kept.execHostUnlock {q : Rq} {drive : Nat} (h : Kept .module r s) :
    Leaves .module r (execHostUnlock q drive s) :=
  h.arrive fun _ ht => ht.runUnlock

protected theorem Kept.runFpline {q : Rq} {line : Nat} {words : List Word} (h : Kept c r s) :
    Kept c r (runFpline q line words s) :=
  h.serveRequest (fun _ ht => (ht.foldl (fun _ _ hu => hu.setReg)).respond)

protected theorem Kept.execFpline {q : Rq} {line : Nat} {words : List Word} (h : Kept .module r s) :
    Leaves .module r (execFpline q line words s) :=
  h.arrive fun _ ht => ht.runFpline

protected theorem Kept.armOwner {o : Option (Nat × BitVec 20)} (h : Kept c r s) : Kept c r { s with armReq := o } := h.same

protected theorem Kept.serveArm {q : Rq} {day : Word} (h : Kept c r s) : Kept c r (serveArm q day s) := by
  unfold Machine.serveArm
  extract_lets same served t
  have ht : Kept c r t := h.bump
  generalize (if t.boot.staged.isNone then some (if served then 7 else 6) else armReason t (fullDay t day) same) = o
  cases o with
  | none =>
    exact ht.armChange.armOwner.respond
  | some n => exact .ite ht.refuseChange.refused ht.refuseChange.respond

protected theorem Kept.runArm {q : Rq} {day : Word} (h : Kept c r s) : Kept c r (runArm q day s) :=
  h.serveRequest fun _ ht => ht.serveArm

protected theorem Kept.execArm {q : Rq} {day : Word} (h : Kept .module r s) : Leaves .module r (execArm q day s) :=
  h.arrive fun _ ht => ht.runArm

/-! Update sessions, copies, rollback floors and activation (R478 to R488). -/

protected theorem Kept.slotAt {bank slot : Nat} {x : Slot} (h : Kept .module r s) : Kept .module r (slotAt s bank slot x) :=
  (h.slots fun k => tabSet_rising _ _ _ _ k.slots).sameTables

protected theorem Kept.noteRefusal {reason bank slot : Nat} (h : Kept c r s) : Kept c r (noteRefusal reason bank slot s) :=
  h.setF.setBit.raise

protected theorem Kept.checkFault {fault bank slot : Nat} (h : Kept c r s) : Kept c r (checkFault fault bank slot s) :=
  .ite h h.raise

protected theorem Kept.refuseUpdate {q : Rq} {code reason fault bank slot : Nat} (h : Kept c r s) :
    Kept c r (refuseUpdate q code reason fault bank slot s) :=
  h.checkFault.noteRefusal.refused

protected theorem Kept.showSess {cls bank slot st : Nat} (h : Kept c r s) : Kept c r (showSess cls bank slot st s) :=
  h.setF.setF.setF.setF

protected theorem Kept.endSess {st : Nat} (h : Kept .module r s) : Kept .module r (endSess st s) := h.modBoot.setF

protected theorem Kept.openUpdate {sess cls bank slot : Nat} {h' : Header} {ty f : Nat} (h : Kept .module r s) :
    Kept .module r (openUpdate sess cls bank slot h' ty f s) := by
  unfold Machine.openUpdate
  extract_lets kept s1 s2 s3
  have hs1 : Kept .module r s1 := .ite h.slotAt h
  have hs2 : Kept .module r s2 := .ite hs1.discardStaged hs1
  exact hs2.showSess.modBoot

protected theorem Kept.runUopen {q : Rq} {cls bank slot : Nat} {k : RawHeader} {ty floor : Nat} (h : Kept .module r s) :
    Kept .module r (runUopen q cls bank slot k ty floor s) := by
  unfold Machine.runUopen
  extract_lets ht inRange
  refine h.serveRequest ?_
  intro t hu
  split
  · extract_lets s1
    have hs1 : Kept .module r s1 := hu.refuseUpdate
    exact .ite hs1 hs1.showSess
  · exact hu.openUpdate.respond

protected theorem Kept.execUopen {q : Rq} {cls bank slot : Nat} {k : RawHeader} {ty floor : Nat} (h : Kept .module r s) :
    Leaves .module r (execUopen q cls bank slot k ty floor s) :=
  h.arrive fun _ ht => ht.runUopen

protected theorem Kept.addBlock {u : Session} {k : Nat} {ws : List Word} (h : Kept .module r s) :
    Kept .module r (addBlock u k ws s) :=
  .ite h.modBoot.slotAt h.modBoot

protected theorem Kept.runUblock {q : Rq} {offset : Nat} {words : List Word} (h : Kept .module r s) :
    Kept .module r (runUblock q offset words s) := by
  unfold Machine.runUblock
  refine h.serveRequest ?_
  intro t ht
  split
  · exact ht
  · split
    · exact ht.refuseUpdate
    · exact ht.addBlock.respond

protected theorem Kept.execUblock {q : Rq} {offset : Nat} {words : List Word} (h : Kept .module r s) :
    Leaves .module r (execUblock q offset words s) :=
  h.arrive fun _ ht => ht.runUblock

protected theorem Kept.committed {u : Session} (h : Kept .module r s) : Kept .module r (committed u s) := h.endSess.setBit.raise

protected theorem Kept.commit {u : Session} (h : Kept .module r s) : Kept .module r (commit u s) := by
  unfold Machine.commit
  extract_lets ws s1
  have hs1 : Kept .module r s1 := .ite h.setF h.setF
  split
  · exact h.slotAt.modBoot.committed
  · exact h.modBoot.setF.committed
  · exact hs1.setBit.raise.committed

protected theorem Kept.refuseClose {q : Rq} {u : Session} {k : Nat × Nat} (h : Kept .module r s) :
    Kept .module r (refuseClose q u k s) :=
  .ite ((Kept.ite h.refuseUpdate.slotAt h.refuseUpdate).endSess) h.refuseUpdate

protected theorem Kept.runUclose {q : Rq} (h : Kept .module r s) : Kept .module r (runUclose q s) := by
  unfold Machine.runUclose
  refine h.serveRequest ?_
  intro t ht
  split
  · exact ht
  · split
    · exact ht.refuseClose
    · exact ht.commit.respond

protected theorem Kept.execUclose {q : Rq} (h : Kept .module r s) : Leaves .module r (execUclose q s) :=
  h.arrive fun _ ht => ht.runUclose

protected theorem Kept.runUcopy {q : Rq} {slot : Nat} (h : Kept .module r s) : Kept .module r (runUcopy q slot s) := by
  unfold Machine.runUcopy
  refine h.serveRequest ?_
  intro t ht
  extract_lets s1
  split
  · extract_lets s2 s3
    have hs2 : Kept .module r s2 := ht.refuseUpdate
    have hs3 : Kept .module r s3 := .ite hs2.slotAt hs2
    exact .ite hs3 hs3.showSess
  · exact ht.showSess.commit.respond

protected theorem Kept.execUcopy {q : Rq} {slot : Nat} (h : Kept .module r s) : Leaves .module r (execUcopy q slot s) :=
  h.arrive fun _ ht => ht.runUcopy

protected theorem Kept.activateBank {bank : Nat} {keep : Bool} (h : Kept c r s) : Kept c r (activateBank bank keep s) :=
  h.hwField.setBit.setBit.raise

protected theorem Kept.activateNow {q : Rq} (h : Kept .module r s) : Kept .module r (activateNow q s) := by
  unfold Machine.activateNow
  split
  · exact h.serveStop
  · exact h.modBoot.setF.respond
  · exact h.respond.restart

protected theorem Kept.runActivate {q : Rq} {bank : Nat} {keep : Bool} (h : Kept .module r s) :
    Kept .module r (runActivate q bank keep s) := by
  unfold Machine.runActivate
  refine h.serveRequest ?_
  intro t ht
  split
  · exact ht.checkFault.noteRefusal.refused
  · exact .ite ht.activateBank.respond (.ite ht.serveStop ht.activateBank.activateNow)

protected theorem Kept.execActivate {q : Rq} {bank : Nat} {keep : Bool} (h : Kept .module r s) :
    Leaves .module r (execActivate q bank keep s) :=
  h.arrive fun _ ht => ht.runActivate

/-! The key vault, zeroisation, commissioning and debug grants as host commands (R506, R507, R513, R563 to R565). -/

protected theorem Kept.putItem {n : Nat} {x : VaultItem} (h : Kept .module r s) : Kept .module r (putItem n x s) := h.sameTables

protected theorem Kept.install {q : Rq} {h' : HostReq} {lo hi slot : Nat} {x : VaultItem} (h : Kept .module r s) :
    Kept .module r (install q h' lo hi slot x s) :=
  h.serveRequest fun _ ht => ht.putItem.respond

protected theorem Kept.runDeviceKey {q : Rq} (h : Kept .module r s) : Kept .module r (runDeviceKey q s) :=
  h.serveRequest fun _ ht => ht.bump.putItem.respond

protected theorem Kept.execVaultGenerateDeviceKey {q : Rq} (h : Kept .module r s) :
    Leaves .module r (execVaultGenerateDeviceKey q s) :=
  h.arrive fun _ ht => ht.runDeviceKey

protected theorem Kept.runDeviceCert {q : Rq} {item : VaultItem} (h : Kept .module r s) :
    Kept .module r (runDeviceCert q item s) :=
  h.serveRequest fun _ ht => ht.putItem.respond

protected theorem Kept.execVaultInstallDeviceCert {q : Rq} {item : VaultItem} (h : Kept .module r s) :
    Leaves .module r (execVaultInstallDeviceCert q item s) :=
  h.arrive fun _ ht => ht.runDeviceCert

protected theorem Kept.execVaultInstallConfigKey {q : Rq} {slot : Nat} {item : VaultItem} (h : Kept .module r s) :
    Leaves .module r (execVaultInstallConfigKey q slot item s) :=
  h.arrive fun _ ht => ht.install

protected theorem Kept.execVaultInstallTrustAnchor {q : Rq} {slot : Nat} {item : VaultItem} (h : Kept .module r s) :
    Leaves .module r (execVaultInstallTrustAnchor q slot item s) :=
  h.arrive fun _ ht => ht.install

protected theorem Kept.execVaultInstallDebugKeys {q : Rq} {slot : Nat} {item : VaultItem} (h : Kept .module r s) :
    Leaves .module r (execVaultInstallDebugKeys q slot item s) :=
  h.arrive fun _ ht => ht.install

protected theorem Kept.execVaultInstallAccessAnchor {q : Rq} {slot : Nat} {item : VaultItem} (h : Kept .module r s) :
    Leaves .module r (execVaultInstallAccessAnchor q slot item s) :=
  h.arrive fun _ ht => ht.install

protected theorem Kept.runCrl {q : Rq} {item : VaultItem} (h : Kept .module r s) : Kept .module r (runCrl q item s) :=
  h.serveRequest fun _ ht => ht.putItem.respond

protected theorem Kept.execVaultReplaceCrl {q : Rq} {item : VaultItem} (h : Kept .module r s) :
    Leaves .module r (execVaultReplaceCrl q item s) :=
  h.arrive fun _ ht => ht.runCrl

protected theorem Kept.runDeleteSlot {q : Rq} {slot : Nat} (h : Kept .module r s) : Kept .module r (runDeleteSlot q slot s) :=
  h.serveRequest fun _ ht => ht.sameTables.respond

protected theorem Kept.execVaultDeleteSlot {q : Rq} {slot : Nat} (h : Kept .module r s) :
    Leaves .module r (execVaultDeleteSlot q slot s) :=
  h.arrive fun _ ht => ht.runDeleteSlot

protected theorem Kept.runListSlots {q : Rq} (h : Kept c r s) : Kept c r (runListSlots q s) :=
  h.serveRequest fun _ ht => ht.respond

protected theorem Kept.execVaultListSlots {q : Rq} (h : Kept .module r s) : Leaves .module r (execVaultListSlots q s) :=
  h.arrive fun _ ht => ht.runListSlots

protected theorem Kept.runZeroise {q : Rq} {serial : List Word} (h : Kept .module r s) : Kept .module r (runZeroise q serial s) :=
    by
  refine h.serveRequest fun t ht => ?_
  have hb : Kept .module r (modBoot (fun b => { b with slots := tabSet {} (tabSet {} b.slots 1 {}) 3 {} }) t) :=
    ht.slots fun k => tabSet_rising _ _ _ _ (tabSet_rising _ _ _ _ k.slots)
  have hv : Kept .module r { modBoot (fun b => { b with slots := tabSet {} (tabSet {} b.slots 1 {}) 3 {} }) t with vault :=
    [] } :=
    hb.sameTables
  exact hv.setBit.raise.respond.closeAll

protected theorem Kept.execZeroise {q : Rq} {serial : List Word} (h : Kept .module r s) :
    Leaves .module r (execZeroise q serial s) :=
  h.arrive fun _ ht => ht.runZeroise

protected theorem Kept.runCommission {q : Rq} {key anchor access : VaultItem} (h : Kept .module r s) :
    Kept .module r (runCommission q key anchor access s) :=
  h.serveRequest fun _ ht => ht.putItem.putItem.putItem.respond.closeAll

protected theorem Kept.execCommission {q : Rq} {key anchor access : VaultItem} (h : Kept .module r s) :
    Leaves .module r (execCommission q key anchor access s) :=
  h.arrive fun _ ht => ht.runCommission

theorem rising_mapAt {α : Type} (n : Nat) (f : α → α) {l : List (Nat × α)} (h : rising l) :
    rising (l.map fun x => if x.1 = n then (x.1, f x.2) else x) := by
  have hm : ((l.map fun x => if x.1 = n then (x.1, f x.2) else x).map (·.1)) = l.map (·.1) := by
    rw [List.map_map]
    refine List.map_congr_left fun x _ => ?_
    dsimp only [Function.comp]
    split <;> rfl
  unfold rising
  rw [hm]
  exact h

protected theorem Kept.runDbgchal {q : Rq} (h : Kept .module r s) : Kept .module r (runDbgchal q s) := by
  refine h.serveRequest fun t ht => ?_
  have hs : Kept .module r { t with sess := t.sess.map fun x =>
      if x.1 = q.sess.val then (x.1, { x.2 with challenge := some (Config.freeChallenge t.fresh) }) else x } :=
    ht.sess fun k => rising_mapAt q.sess.val (fun y => { y with challenge := some (Config.freeChallenge t.fresh) }) k.sess
  exact hs.bump.respond

protected theorem Kept.execDbgchal {q : Rq} (h : Kept .module r s) : Leaves .module r (execDbgchal q s) :=
  h.arrive fun _ ht => ht.runDbgchal

protected theorem Kept.runDbggrant {q : Rq} {g : Grant} (h : Kept .module r s) : Kept .module r (runDbggrant q g s) :=
  h.serveRequest fun _ ht => .ite ht.sameTables.setF.raise.respond ht.setBit.raise.bump.respond

protected theorem Kept.execDbggrant {q : Rq} {g : Grant} (h : Kept .module r s) : Leaves .module r (execDbggrant q g s) :=
  h.arrive fun _ ht => ht.runDbggrant

/-! Debug commands (R12, R206, R512, R578 to R580). -/

protected theorem Kept.answer {q : Rq} {st seq : Nat} {ws : List Word} (h : Kept c r s) : Kept c r (answer q st seq ws s) :=
  h.respond

protected theorem Kept.answerRead {q : Rq} {u : List (Option Word) × State} (h : Kept c r u.2) : Kept c r (answerRead q u) :=
    h.answer

protected theorem Kept.servePeek {q : Rq} {a : Word} {count level : Nat} (h : Kept c r s) : Kept c r
    (servePeek q a count level s) :=
  h.readWords.answerRead

protected theorem Kept.debugAccess {q : Rq} {h' : HostReq} {range : Bool} {m : Nat → MemReq} {f : Nat → State → State}
    (h : Kept c r s) (hf : ∀ x y, Kept c r y → Kept c r (f x y)) :
    Kept c r (debugAccess q h' range m f s) :=
  h.serveRequest fun _ ht => ht.memRequest (fun _ hu => hf _ _ hu)

protected theorem Kept.runPeek {q : Rq} {a : Word} {count : Nat} (h : Kept c r s) : Kept c r (runPeek q a count s) :=
  h.debugAccess fun _ _ ht => ht.servePeek

protected theorem Kept.execPeek {q : Rq} {a : Word} {count : Nat} (h : Kept .module r s) :
    Leaves .module r (execPeek q a count s) :=
  h.arrive fun _ ht => ht.runPeek

protected theorem Kept.serveTake {q : Rq} {a : Word} {count level : Nat} (h : Kept c r s) : Kept c r
    (serveTake q a count level s) :=
  .ite h.answer (.ite h.answer h.readWords.answerRead)

protected theorem Kept.runTake {q : Rq} {a : Word} {count : Nat} (h : Kept c r s) : Kept c r (runTake q a count s) :=
  h.debugAccess fun _ _ ht => ht.serveTake

protected theorem Kept.execTake {q : Rq} {a : Word} {count : Nat} (h : Kept .module r s) :
    Leaves .module r (execTake q a count s) :=
  h.arrive fun _ ht => ht.runTake

protected theorem Kept.servePoke {q : Rq} {a : Word} {words : List Word} {level : Nat} (h : Kept c r s) :
    Kept c r (servePoke q a words level s) := by
  unfold Machine.servePoke
  extract_lets secure
  split
  · exact h.answer
  · split
    · exact h.answer
    · split
      · exact h.answer
      · split
        · extract_lets t
          have ht : Kept c r t := h.touch.violate
          exact ht.answer
        · exact (h.foldl (fun _ _ hu => hu.touch.writeMapped)).answer

protected theorem Kept.runPoke {q : Rq} {a : Word} {words : List Word} (h : Kept c r s) : Kept c r (runPoke q a words s) :=
  h.debugAccess fun _ _ ht => ht.servePoke

protected theorem Kept.execPoke {q : Rq} {a : Word} {words : List Word} (h : Kept .module r s) :
    Leaves .module r (execPoke q a words s) :=
  h.arrive fun _ ht => ht.runPoke

protected theorem Kept.onEngine {q : Rq} {h' : HostReq} {e : Nat} {range : Bool} {body : State → State} (h : Kept c r s)
    (hf : ∀ x, Kept c r x → Kept c r (body x)) :
    Kept c r (onEngine q h' e range body s) := by
  unfold Machine.onEngine
  refine h.serveRequest ?_
  intro t ht
  split
  · exact ht.answer
  · exact hf _ ht

protected theorem Kept.runHalt {q : Rq} {e : Nat} (h : Kept c r s) : Kept c r (runHalt q e s) :=
  h.onEngine fun _ ht => (ht.modEngine fun x => by split <;> rfl).answer

protected theorem Kept.execHalt {q : Rq} {e : Nat} (h : Kept .module r s) : Leaves .module r (execHalt q e s) :=
  h.arrive fun _ ht => ht.runHalt

protected theorem Kept.releaseHalted {e n : Nat} (h : Kept c r s) : Kept c r (releaseHalted e n s) :=
  .ite ((Kept.ite h.traceRest h).modEngine.modEngine) ((Kept.ite h.traceRest h).modEngine)

protected theorem Kept.runResume {q : Rq} {e : Nat} (h : Kept c r s) : Kept c r (runResume q e s) :=
  h.onEngine fun _ ht => ht.releaseHalted.answer

protected theorem Kept.execResume {q : Rq} {e : Nat} (h : Kept .module r s) : Leaves .module r (execResume q e s) :=
  h.arrive fun _ ht => ht.runResume

protected theorem Kept.runStep {q : Rq} {e n : Nat} (h : Kept c r s) : Kept c r (runStep q e n s) :=
  h.onEngine fun _ ht => ht.releaseHalted.answer

protected theorem Kept.execStep {q : Rq} {e n : Nat} (h : Kept .module r s) : Leaves .module r (execStep q e n s) :=
  h.arrive fun _ ht => ht.runStep

protected theorem Kept.serveRegs {q : Rq} {e since : Nat} (h : Kept c r s) : Kept c r (serveRegs q e since s) :=
  .ite h.answer (.ite h.answer h.same)

protected theorem Kept.runRegs {q : Rq} {e : Nat} (h : Kept c r s) : Kept c r (runRegs q e s) :=
  h.serveRequest fun _ ht => ht.serveRegs

protected theorem Kept.execRegs {q : Rq} {e : Nat} (h : Kept .module r s) : Leaves .module r (execRegs q e s) :=
  h.arrive fun _ ht => ht.runRegs

protected theorem Kept.serveMem {w : HostWait} {k : MemReq} (h : Kept c r s) : Kept c r (serveMem w k s) := by
  unfold Machine.serveMem
  split
  · exact h.memRequest fun _ ht => ht.serveRead
  · exact h.memRequest fun _ hu => hu.servePeek
  · exact h.memRequest fun _ hv => hv.serveTake
  · exact h.memRequest fun _ hw => hw.servePoke

protected theorem Kept.serveWait {w : HostWait} (h : Kept .module r s) : Kept .module r (serveWait w s) := by
  unfold Machine.serveWait
  cases w.req with
  | ident => exact h.runIdent
  | echo _ => exact h.runEcho
  | status => exact h.runStatus
  | read _ _ => exact h.runRead
  | log _ _ => exact h.runLog
  | telem => exact h.runTelem
  | pmucfg _ => exact h.runPmucfg
  | stop _ => exact h.runStop
  | restart => exact h.runRestart
  | switch _ => exact h.runSwitchReq
  | unlock _ => exact h.runUnlock
  | fpline _ _ => exact h.runFpline
  | uopen _ _ _ _ _ _ => exact h.runUopen
  | ublock _ _ => exact h.runUblock
  | uclose => exact h.runUclose
  | ucopy _ => exact h.runUcopy
  | activate _ _ => exact h.runActivate
  | arm _ => exact h.runArm
  | deviceKey => exact h.runDeviceKey
  | deviceCert _ => exact h.runDeviceCert
  | configKey _ _ => exact h.install
  | trustAnchor _ _ => exact h.install
  | debugKeys _ _ => exact h.install
  | accessAnchor _ _ => exact h.install
  | crl _ => exact h.runCrl
  | deleteSlot _ => exact h.runDeleteSlot
  | listSlots => exact h.runListSlots
  | zeroise _ => exact h.runZeroise
  | commission _ _ _ => exact h.runCommission
  | dbgchal => exact h.runDbgchal
  | dbggrant _ => exact h.runDbggrant
  | peek _ _ => exact h.runPeek
  | take _ _ => exact h.runTake
  | poke _ _ => exact h.runPoke
  | halt _ => exact h.runHalt
  | resume _ => exact h.runResume
  | step _ _ => exact h.runStep
  | regs _ => exact h.runRegs
  | misformed _ => exact h.serveMisformed
  | clash _ => exact h.serveClash
  | held _ => exact h.serveMem
  | resting _ _ => exact h.serveRegs

protected theorem Kept.serveOrphan {w : HostWait} (h : Kept .module r s) :
    Kept .module r (serveOrphan w s) :=
  .ite h.serveWait.same h.serveWait

protected theorem Kept.inOrder {w : HostWait} (h : Kept .module r s) :
    Kept .module r (inOrder w s) :=
  .ite h.same h.serveWait

protected theorem Kept.takeTurn {w : HostWait} (h : Kept .module r s) :
    Kept .module r (takeTurn s w) := by
  unfold Machine.takeTurn
  split
  · exact h.inOrder
  · split
    · exact h.serveOrphan
    · exact h

protected theorem Kept.execClockTick (h : Kept .module r s) :
    Leaves .module r (execClockTick s) := by
  unfold Machine.execClockTick
  extract_lets s4 s5
  have h6 : Kept .module r s4 := h.endPorts.passTick.retryEnds
  have h7 : Kept .module r s5 := h6.same.foldl (fun _ _ h8 => h8.takeTurn)
  exact ((h7.foldl (fun _ _ h11 => h11.portTick)).foldl (fun _ _ h12 => h12.copyRegs)).noteResults

/-! Loads, stores, software events and their service (R97). -/

protected theorem Kept.execLd {e : Fin 1028} {f : RegForm} (h : Kept c r s) : Leaves c r (execLd e f s) :=
  h.releaseR fun _ _ ht => ⟨ht.addTx, ht⟩

protected theorem Kept.execSt {e : Fin 1028} {f : RegForm} (h : Kept c r s) : Leaves c r (execSt e f s) :=
  h.releaseR fun _ _ ht => ⟨ht.addTx, ht⟩

protected theorem Kept.execLdl {e : Fin 1028} {f : ImmForm} (h : Kept c r s) : Leaves c r (execLdl e f s) :=
  h.releaseI fun _ _ ht => ⟨ht.addTx, ht⟩

protected theorem Kept.execStl {e : Fin 1028} {f : ImmForm} (h : Kept c r s) : Leaves c r (execStl e f s) :=
  h.releaseI fun _ _ ht => ⟨ht.addTx, ht⟩

protected theorem Kept.addReq {e : Nat} {a : Word} {op : ReqOp} {x : Engine} (h : Kept c r s) : Kept c r (addReq e a op x s) :=
  h.same

protected theorem Kept.request {e kind : Nat} {fields : List Word} {a : Word} {op : ReqOp} {x : Engine} (h : Kept c r s) :
    Kept c r (request e kind fields a op x s) :=
  .ite h.addTx h.addTx.addReq

protected theorem Kept.execLds {e : Fin 1028} {f : RegForm} (h : Kept c r s) : Leaves c r (execLds e f s) := by
  refine h.releaseR fun x t ht => ⟨?_, ht⟩
  dsimp only
  split
  · exact ht.request
  · have hr : Kept c r (Machine.supRead e.val (sharedAddr x f) t).2 := ht.supRead
    generalize Machine.supRead e.val (sharedAddr x f) t = u at hr ⊢
    obtain ⟨_ | v, u⟩ := u
    · exact hr
    · exact hr

protected theorem Kept.execSts {e : Fin 1028} {f : RegForm} (h : Kept c r s) : Leaves c r (execSts e f s) :=
  h.releaseR fun _ _ ht => ⟨by split <;> [exact ht.request; exact ht.supWrite], ht⟩

protected theorem Kept.postSoft {m : Nat} {secure : Bool} {target src payload : Nat} (h : Kept c r s) :
    Kept c r (postSoft m secure target src payload s) := by
  unfold Machine.postSoft
  extract_lets s1
  have hs1 : Kept c r s1 := h.touch
  split
  · exact hs1.violate
  · exact hs1.enqueue

protected theorem Kept.supEvs {e target src payload : Nat} (h : Kept c r s) : Kept c r (supEvs e target src payload s) := by
  unfold Machine.supEvs
  extract_lets t
  have ht : Kept c r t := h.postSoft
  split
  · exact ht.noteWrite
  · exact ht

protected theorem Kept.execEvs {e : Fin 1028} {f : RegForm} (h : Kept c r s) : Leaves c r (execEvs e f s) := by
  refine h.releaseR fun x t ht => ⟨?_, ht⟩
  dsimp only
  split
  · exact ht.request
  · exact ht.supEvs

protected theorem Kept.lateService {k : Req} (h : Kept c r s) : Kept c r (lateService k s) := .ite h h.lateEvent

protected theorem Kept.landReq {land : Nat} {k : Req} {fs : List Effect} (h : Kept c r s) : Kept c r (landReq land k fs s) :=
  h.modEngine

protected theorem Kept.serve {k : Req} (h : Kept c r s) : Kept c r (serve k s) := by
  unfold Machine.serve
  extract_lets land s1 x
  have hs1 : Kept c r s1 := h.same.lateService
  have hx : Kept c r x.2 := hs1.gatedRead
  split
  · exact hx.landReq
  · exact hs1.gatedWrite.landReq
  · exact hs1.postSoft.landReq

protected theorem Kept.execSharedAccessService {point : Nat} (h : Kept c r s) : Leaves c r (execSharedAccessService point s) := by
  unfold Machine.execSharedAccessService
  split
  · exact h
  · split
    · exact h.serve.untouched
    · exact h

/-! Multiplication, accumulators, division and CORDIC (R78, R89 to R96). -/

protected theorem Kept.execMul {e : Fin 1028} {f : RegForm} (h : Kept c r s) : Leaves c r (execMul e f s) :=
  h.releaseR fun _ _ ht => ⟨ht, ht⟩

protected theorem Kept.execMuls {e : Fin 1028} {f : RegForm} (h : Kept c r s) : Leaves c r (execMuls e f s) :=
  h.releaseR fun _ _ ht => ⟨ht, ht⟩

protected theorem Kept.execPmul {e : Fin 1028} {f : RegForm} (h : Kept c r s) : Leaves c r (execPmul e f s) :=
  h.releaseR fun _ _ ht => ⟨ht, ht⟩

protected theorem Kept.execMulh {e : Fin 1028} {f : RegForm} (h : Kept c r s) : Leaves c r (execMulh e f s) :=
  h.releaseR fun _ _ ht => ⟨ht, ht⟩

protected theorem Kept.execTmul {e : Fin 1028} {f : RegForm} (h : Kept c r s) : Leaves c r (execTmul e f s) :=
  h.releaseR fun _ _ ht => ⟨ht, ht⟩

protected theorem Kept.execMac {e : Fin 1028} {f : RegForm} (h : Kept c r s) : Leaves c r (execMac e f s) :=
  h.releaseR fun _ _ ht => ⟨ht, ht⟩

protected theorem Kept.execAcx {e : Fin 1028} {f : RegForm} (h : Kept c r s) : Leaves c r (execAcx e f s) :=
  h.releaseR fun _ _ ht => ⟨ht, ht⟩

protected theorem Kept.execAcm {e : Fin 1028} {f : RegForm} (h : Kept c r s) : Leaves c r (execAcm e f s) :=
  h.releaseR fun _ _ ht => ⟨ht, ht⟩

protected theorem Kept.execDiv {e : Fin 1028} {f : RegForm} (h : Kept c r s) : Leaves c r (execDiv e f s) :=
  h.releaseR fun _ _ ht => ⟨ht, ht⟩

protected theorem Kept.execRem {e : Fin 1028} {f : RegForm} (h : Kept c r s) : Leaves c r (execRem e f s) :=
  h.releaseR fun _ _ ht => ⟨ht, ht⟩

protected theorem Kept.execPdiv {e : Fin 1028} {f : RegForm} (h : Kept c r s) : Leaves c r (execPdiv e f s) :=
  h.releaseR fun _ _ ht => ⟨ht, ht⟩

protected theorem Kept.execSincos {e : Fin 1028} {f : RegForm} (h : Kept c r s) : Leaves c r (execSincos e f s) :=
  h.releaseR fun _ _ ht => ⟨ht, ht⟩

protected theorem Kept.execVrot {e : Fin 1028} {f : RegForm} (h : Kept c r s) : Leaves c r (execVrot e f s) :=
  h.releaseR fun _ _ ht => ⟨ht, ht⟩

protected theorem Kept.execAtan2 {e : Fin 1028} {f : RegForm} (h : Kept c r s) : Leaves c r (execAtan2 e f s) :=
  h.releaseR fun _ _ ht => ⟨ht, ht⟩

protected theorem Kept.execMag {e : Fin 1028} {f : RegForm} (h : Kept c r s) : Leaves c r (execMag e f s) :=
  h.releaseR fun _ _ ht => ⟨ht, ht⟩

protected theorem Kept.execSqrt {e : Fin 1028} {f : RegForm} (h : Kept c r s) : Leaves c r (execSqrt e f s) :=
  h.releaseR fun _ _ ht => ⟨ht, ht⟩

/-! The SYS extensions of supervisor engines (R116, R117, R503). -/

protected theorem Kept.exceptFree {e cause seq : Nat} (h : Kept c r s) : Kept c r (exceptFree e cause seq s) := h.bump.except
protected theorem Kept.wrongWorld {e : Nat} (h : Kept c r s) : Kept c r (wrongWorld e s) := h.exceptFree

protected theorem Kept.inWorld {secure : Bool} {e : Nat} {f : State → State × List Effect} (h : Kept c r s)
    (hf : ∀ t, Kept c r t → Kept c r (f t).1) : Kept c r (inWorld secure e f s).1 := by
  unfold Machine.inWorld
  split
  · exact hf _ h
  · exact h.wrongWorld

protected theorem Kept.execJmp {e : Fin 1028} {f : RegForm} (h : Kept c r s) : Leaves c r (execJmp e f s) := by
  refine h.releaseR fun x t ht => ⟨?_, ht⟩
  dsimp only
  exact ht.modSup

protected theorem Kept.execCall {e : Fin 1028} {f : RegForm} (h : Kept c r s) : Leaves c r (execCall e f s) := by
  refine h.releaseR fun x t ht => ⟨?_, ht⟩
  dsimp only
  exact ht.modSup

protected theorem Kept.execEret {e : Fin 1028} {f : RegForm} (h : Kept c r s) : Leaves c r (execEret e f s) := by
  refine h.releaseR fun x t ht => ⟨?_, ht⟩
  dsimp only
  exact ht.modSup

protected theorem Kept.execTrap {e : Fin 1028} {f : RegForm} (h : Kept c r s) : Leaves c r (execTrap e f s) :=
  h.releaseR fun _ _ ht => ⟨ht.exceptFree, ht⟩

protected theorem Kept.execMfsr {e : Fin 1028} {f : RegForm} (h : Kept c r s) : Leaves c r (execMfsr e f s) :=
  h.releaseR fun _ _ ht => ⟨ht, ht⟩

protected theorem Kept.sysWrite {e n : Nat} {v : Word} (h : Kept c r s) : Kept c r (sysWrite e n v s) := h.modSup

protected theorem Kept.execMtsr {e : Fin 1028} {f : RegForm} (h : Kept c r s) : Leaves c r (execMtsr e f s) := by
  refine h.releaseR fun x t ht => ⟨?_, ht⟩
  dsimp only
  split
  · exact ht.inWorld fun _ h1 => h1.sysWrite
  · exact ht.sysWrite

protected theorem Kept.execTlbi {e : Fin 1028} {f : RegForm} (h : Kept c r s) : Leaves c r (execTlbi e f s) := by
  refine h.releaseR fun x t ht => ⟨ht.inWorld fun u hu => ?_, ht⟩
  dsimp only
  exact hu.modSup

protected theorem Kept.execFence {e : Fin 1028} {f : RegForm} (h : Kept c r s) : Leaves c r (execFence e f s) :=
  h.releaseR fun _ _ ht => ⟨ht, ht⟩

protected theorem Kept.execCas {e : Fin 1028} {f : RegForm} (h : Kept c r s) : Leaves c r (execCas e f s) := by
  refine h.releaseR fun x t ht => ⟨?_, ht⟩
  have hr : Kept c r (Machine.supCas e.val (opA x f) (opB x f) (opD x f) t).2 := ht.supCas
  dsimp only
  generalize Machine.supCas e.val (opA x f) (opB x f) (opD x f) t = u at hr ⊢
  obtain ⟨_ | v, u⟩ := u
  · exact hr
  · exact hr

protected theorem Kept.execIdle {e : Fin 1028} {f : RegForm} (h : Kept c r s) : Leaves c r (execIdle e f s) := by
  refine h.releaseR fun x t ht => ⟨?_, ht⟩
  dsimp only
  exact ht.modEngine

protected theorem Kept.execBeat {e : Fin 1028} {f : RegForm} (h : Kept c r s) : Leaves c r (execBeat e f s) := by
  refine h.releaseR fun x t ht => ⟨?_, ht⟩
  dsimp only
  exact ht.modNwt

protected theorem Kept.execSwc {e : Fin 1028} {f : RegForm} (h : Kept c r s) : Leaves c r (execSwc e f s) := by
  refine h.releaseR fun x t ht => ⟨ht.inWorld fun u hu => ?_, ht⟩
  dsimp only
  exact hu.modSup

protected theorem Kept.execSwr {e : Fin 1028} {f : RegForm} (h : Kept c r s) : Leaves c r (execSwr e f s) := by
  refine h.releaseR fun x t ht => ⟨ht.inWorld fun u hu => ?_, ht⟩
  dsimp only
  exact hu.modSup

/-! The dispatch. -/

/-- The instructions, which have no way to what the module keeps from its engines (R66). -/
protected theorem Kept.instruction {i : Instr} (h : Kept c r s) (hi : instrForm i ≠ none) : Leaves c r (exec i s) := by
  cases i with
  | nop => exact h.execNop
  | waitt => exact h.execWaitt
  | waitev => exact h.execWaitev
  | loop => exact h.execLoop
  | lock => exact h.execLock
  | unlock => exact h.execUnlock
  | done => exact h.execDone
  | tstamp => exact h.execTstamp
  | add => exact h.execAdd
  | adds => exact h.execAdds
  | sub => exact h.execSub
  | subs => exact h.execSubs
  | and => exact h.execAnd
  | or => exact h.execOr
  | xor => exact h.execXor
  | andn => exact h.execAndn
  | neg => exact h.execNeg
  | negs => exact h.execNegs
  | abs => exact h.execAbs
  | abss => exact h.execAbss
  | min => exact h.execMin
  | max => exact h.execMax
  | sel => exact h.execSel
  | cls => exact h.execCls
  | shl => exact h.execShl
  | shls => exact h.execShls
  | shr => exact h.execShr
  | sar => exact h.execSar
  | rot => exact h.execRot
  | ext => exact h.execExt
  | ins => exact h.execIns
  | cvt => exact h.execCvt
  | ldi => exact h.execLdi
  | shi => exact h.execShi
  | addi => exact h.execAddi
  | cmp => exact h.execCmp
  | plog => exact h.execPlog
  | pmov => exact h.execPmov
  | rdf => exact h.execRdf
  | clrf => exact h.execClrf
  | mul => exact h.execMul
  | muls => exact h.execMuls
  | mulh => exact h.execMulh
  | pmul => exact h.execPmul
  | tmul => exact h.execTmul
  | mac => exact h.execMac
  | acx => exact h.execAcx
  | acm => exact h.execAcm
  | div => exact h.execDiv
  | rem => exact h.execRem
  | pdiv => exact h.execPdiv
  | sincos => exact h.execSincos
  | vrot => exact h.execVrot
  | atan2 => exact h.execAtan2
  | mag => exact h.execMag
  | sqrt => exact h.execSqrt
  | ld => exact h.execLd
  | st => exact h.execSt
  | lds => exact h.execLds
  | sts => exact h.execSts
  | ldl => exact h.execLdl
  | stl => exact h.execStl
  | evs => exact h.execEvs
  | popc => exact h.execPopc
  | tmark => exact h.execTmark
  | lim => exact h.execLim
  | srr => exact h.execSrr
  | jmp => exact h.execJmp
  | call => exact h.execCall
  | eret => exact h.execEret
  | trap => exact h.execTrap
  | mfsr => exact h.execMfsr
  | mtsr => exact h.execMtsr
  | tlbi => exact h.execTlbi
  | fence => exact h.execFence
  | cas => exact h.execCas
  | idle => exact h.execIdle
  | beat => exact h.execBeat
  | swc => exact h.execSwc
  | swr => exact h.execSwr
  | _ => exact absurd rfl hi

protected theorem Kept.exec {i : Instr} (h : Kept .module r s) : Leaves .module r (exec i s) := by
  cases i with
  | resultLanding => exact h.execResultLanding
  | sharedAccessService => exact h.execSharedAccessService
  | waittTargetReached => exact h.execWaittTargetReached
  | eventWake => exact h.execEventWake
  | waitDeadline => exact h.execWaitDeadline
  | pairInputReplay => exact h.execPairInputReplay
  | comparatorCheck => exact h.execComparatorCheck
  | comparatorSelfTest => exact h.execComparatorSelfTest
  | detectorSelfTest => exact h.execDetectorSelfTest
  | comparatorArm => exact h.execComparatorArm
  | engineImageCapture => exact h.execEngineImageCapture
  | tripleStoreRepair => exact h.execTripleStoreRepair
  | tripleStoreScrub => exact h.execTripleStoreScrub
  | memoryScrub => exact h.execMemoryScrub
  | speedMeasurement => exact h.execSpeedMeasurement
  | analogueRecalibration l => exact h.execAnalogueRecalibration (input := l)
  | midnight => exact h.execMidnight
  | dayWatchdogCheck => exact h.execDayWatchdogCheck
  | checkpointCut => exact h.execCheckpointCut
  | deltaFrameSend => exact h.execDeltaFrameSend
  | endFrameSend => exact h.execEndFrameSend
  | duskStart => exact h.execDuskStart
  | commitComplete => exact h.execCommitComplete
  | sweepFrameSend => exact h.execSweepFrameSend
  | noonEvaluation => exact h.execNoonEvaluation
  | changeLoaderComplete => exact h.execChangeLoaderComplete
  | beaconSend => exact h.execBeaconSend
  | beaconMissed => exact h.execBeaconMissed
  | echoRequestSend => exact h.execEchoRequestSend
  | echoReplyReceive => exact h.execEchoReplyReceive
  | delayNoticeSend => exact h.execDelayNoticeSend
  | transmitAttempt => exact h.execTransmitAttempt
  | transmitSuccess => exact h.execTransmitSuccess
  | errorDetected => exact h.execErrorDetected
  | busOffRecoveryComplete => exact h.execBusOffRecoveryComplete
  | integrationComplete => exact h.execIntegrationComplete
  | protocolException => exact h.execProtocolException
  | dominantTimeout => exact h.execDominantTimeout
  | driverCurrentLimit => exact h.execDriverCurrentLimit
  | driverDisable => exact h.execDriverDisable
  | groupSupplyFail => exact h.execGroupSupplyFail
  | frameValid => exact h.execFrameValid
  | frameDeposit => exact h.execFrameDeposit
  | txptrWrite => exact h.execTxptrWrite
  | txcanCancel => exact h.execTxcanCancel
  | rxack => exact h.execRxack
  | cfgEnter => exact h.execCfgEnter
  | cfgLeave => exact h.execCfgLeave
  | loreqSet => exact h.execLoreqSet
  | loreqClear => exact h.execLoreqClear
  | borec => exact h.execBorec
  | unmute => exact h.execUnmute
  | clockTick => exact h.execClockTick
  | clockStep => exact h.execClockStep
  | daySequencerStart => exact h.execDaySequencerStart
  | pllUnlock => exact h.execPllUnlock
  | ptpSyncReceive => exact h.execPtpSyncReceive
  | ptpAnnounceReceive => exact h.execPtpAnnounceReceive
  | pdelayReqSend => exact h.execPdelayReqSend
  | pdelayReqReceive => exact h.execPdelayReqReceive
  | pdelayRespReceive => exact h.execPdelayRespReceive
  | announceTimeout => exact h.execAnnounceTimeout
  | gmChangeHoldEnd => exact h.execGmChangeHoldEnd
  | ppsEdge => exact h.execPpsEdge
  | irigFrame => exact h.execIrigFrame
  | sourceRevert => exact h.execSourceRevert
  | lockAcquired => exact h.execLockAcquired
  | holdLongEntry => exact h.execHoldLongEntry
  | trendLearned => exact h.execTrendLearned
  | leapApply => exact h.execLeapApply
  | farSourceReport => exact h.execFarSourceReport
  | timeWaitExpiry => exact h.execTimeWaitExpiry
  | ppsOutputEdge => exact h.execPpsOutputEdge
  | feedptrWrite => exact h.execFeedptrWrite
  | feedProcess => exact h.execFeedProcess
  | channelGo => exact h.execChannelGo
  | channelStop => exact h.execChannelStop
  | syncArmNextPps => exact h.execSyncArmNextPps
  | syncArmMidnight => exact h.execSyncArmMidnight
  | syncArmFail => exact h.execSyncArmFail
  | c37ConnectionAccept => exact h.execC37ConnectionAccept
  | c37DataOff => exact h.execC37DataOff
  | c37DataOn => exact h.execC37DataOn
  | c37SendHeader => exact h.execC37SendHeader
  | c37SendCfg2 => exact h.execC37SendCfg2
  | c37SendCfg3 => exact h.execC37SendCfg3
  | c37Cfg1Ignored _ p => exact h.execC37Cfg1Ignored (peer := p)
  | c37ExtendedFrameIgnored => exact h.execC37ExtendedFrameIgnored
  | c37DataFrameSend => exact h.execC37DataFrameSend
  | c37FrameTimeout => exact h.execC37FrameTimeout
  | remoteCfg2Receive => exact h.execRemoteCfg2Receive
  | remoteDataFrameReceive => exact h.execRemoteDataFrameReceive
  | remoteStreamLost => exact h.execRemoteStreamLost
  | remoteCfg2Rerequest => exact h.execRemoteCfg2Rerequest
  | mandateLoopStateChange => exact h.execMandateLoopStateChange
  | presenceChange => exact h.execPresenceChange
  | presenceDebounceEnd => exact h.execPresenceDebounceEnd
  | claimLatchSet => exact h.execClaimLatchSet
  | yieldRecheck => exact h.execYieldRecheck
  | claimConfirmation => exact h.execClaimConfirmation
  | loopError => exact h.execLoopError
  | switchoverReadback => exact h.execSwitchoverReadback
  | switchoverRelease => exact h.execSwitchoverRelease
  | switchoverFallbackCheck => exact h.execSwitchoverFallbackCheck
  | noticeSend => exact h.execNoticeSend
  | noticeReceive => exact h.execNoticeReceive
  | laneDown => exact h.execLaneDown
  | deltaReceive => exact h.execDeltaReceive
  | sweepReceive => exact h.execSweepReceive
  | endReceive => exact h.execEndReceive
  | abandonReceive => exact h.execAbandonReceive
  | ackReceive => exact h.execAckReceive
  | joinReceive => exact h.execJoinReceive
  | cloneReceive => exact h.execCloneReceive
  | cloneComplete => exact h.execCloneComplete
  | finalReceive => exact h.execFinalReceive
  | dayHeartbeatTimeout => exact h.execDayHeartbeatTimeout
  | supervisorHeartbeatTimeout => exact h.execSupervisorHeartbeatTimeout
  | fabricRailFault => exact h.execFabricRailFault
  | internalRailFault => exact h.execInternalRailFault
  | feedsLost => exact h.execFeedsLost
  | nightwatchRailLoss => exact h.execNightwatchRailLoss
  | sundown => exact h.execSundown
  | resetAssert => exact h.execResetAssert
  | resetRelease => exact h.execResetRelease
  | startThresholdReached => exact h.execStartThresholdReached
  | daybreak => exact h.execDaybreak
  | daybreakStepTimeout => exact h.execDaybreakStepTimeout
  | retryWaitExpiry => exact h.execRetryWaitExpiry
  | coldStartRelease => exact h.execColdStartRelease
  | safDrvCmdWrite => exact h.execSafDrvCmdWrite
  | safConnRxWrite => exact h.execSafConnRxWrite
  | safResumeWrite => exact h.execSafResumeWrite
  | safUnlockGo => exact h.execSafUnlockGo
  | testPulseStart => exact h.execTestPulseStart
  | testPulseCheck => exact h.execTestPulseCheck
  | testPulseEnd => exact h.execTestPulseEnd
  | darkTest => exact h.execDarkTest
  | contactorFeedbackTimeout => exact h.execContactorFeedbackTimeout
  | monitorDiscrepancy => exact h.execMonitorDiscrepancy
  | forcingPathTest => exact h.execForcingPathTest
  | inputCrossing => exact h.execInputCrossing
  | filteredBandChange => exact h.execFilteredBandChange
  | freezeEnd => exact h.execFreezeEnd
  | loadingSettle => exact h.execLoadingSettle
  | lioOutWrite => exact h.execLioOutWrite
  | pwmReload => exact h.execPwmReload
  | outputOverload => exact h.execOutputOverload
  | outputReadbackFault => exact h.execOutputReadbackFault
  | openLoad => exact h.execOpenLoad
  | groupFieldSupplyChange => exact h.execGroupFieldSupplyChange
  | testSupplyOverload => exact h.execTestSupplyOverload
  | testSupplyRetry => exact h.execTestSupplyRetry
  | loopSample => exact h.execLoopSample
  | faceplatePassStart => exact h.execFaceplatePassStart
  | faceplatePassComplete => exact h.execFaceplatePassComplete
  | faceplatePassAbandon => exact h.execFaceplatePassAbandon
  | feedDrop => exact h.execFeedDrop
  | feedOvervoltage => exact h.execFeedOvervoltage
  | feedReconnect => exact h.execFeedReconnect
  | feedReverse => exact h.execFeedReverse
  | storeStateChange => exact h.execStoreStateChange
  | storeCapacityTest => exact h.execStoreCapacityTest
  | interfaceOvertemp => exact h.execInterfaceOvertemp
  | hostConnection => exact h.execHostConnection
  | sessionIdleTimeout => exact h.execSessionIdleTimeout
  | tlsFailure => exact h.execTlsFailure
  | keyUpdate => exact h.execKeyUpdate
  | hostFramingError => exact h.execHostFramingError
  | networkFrameDrop => exact h.execNetworkFrameDrop
  | icmpEcho => exact h.execIcmpEcho
  | rngReady => exact h.execRngReady
  | rngHealthFail => exact h.execRngHealthFail
  | drbgReseed => exact h.execDrbgReseed
  | secRngRead => exact h.execSecRngRead
  | grantExpiry => exact h.execGrantExpiry
  | updateSessionLoss => exact h.execUpdateSessionLoss
  | ident => exact h.execIdent
  | echo => exact h.execEcho
  | status => exact h.execStatus
  | read => exact h.execRead
  | log => exact h.execLog
  | telem => exact h.execTelem
  | pmucfg => exact h.execPmucfg
  | stop => exact h.execStop
  | restart => exact h.execRestart
  | switch => exact h.execSwitch
  | hostUnlock => exact h.execHostUnlock
  | fpline => exact h.execFpline
  | uopen => exact h.execUopen
  | ublock => exact h.execUblock
  | uclose => exact h.execUclose
  | ucopy => exact h.execUcopy
  | activate => exact h.execActivate
  | arm => exact h.execArm
  | vaultGenerateDeviceKey => exact h.execVaultGenerateDeviceKey
  | vaultInstallDeviceCert => exact h.execVaultInstallDeviceCert
  | vaultInstallConfigKey => exact h.execVaultInstallConfigKey
  | vaultInstallTrustAnchor => exact h.execVaultInstallTrustAnchor
  | vaultInstallDebugKeys => exact h.execVaultInstallDebugKeys
  | vaultInstallAccessAnchor => exact h.execVaultInstallAccessAnchor
  | vaultReplaceCrl => exact h.execVaultReplaceCrl
  | vaultDeleteSlot => exact h.execVaultDeleteSlot
  | vaultListSlots => exact h.execVaultListSlots
  | zeroise => exact h.execZeroise
  | commission => exact h.execCommission
  | dbgchal => exact h.execDbgchal
  | dbggrant => exact h.execDbggrant
  | peek => exact h.execPeek
  | take => exact h.execTake
  | poke => exact h.execPoke
  | halt => exact h.execHalt
  | resume => exact h.execResume
  | step => exact h.execStep
  | regs => exact h.execRegs
  | fabLateRead _ b => exact h.execFabLateRead (secure := b)
  | dayOvrRead _ b => exact h.execDayOvrRead (secure := b)
  | cmpMismRead _ b => exact h.execCmpMismRead (secure := b)
  | gateViolRead _ b => exact h.execGateViolRead (secure := b)
  | dbgTrrdRead _ b => exact h.execDbgTrrdRead (secure := b)
  | dayNumlRead _ b => exact h.execDayNumlRead (secure := b)
  | timClknsRead _ b => exact h.execTimClknsRead (secure := b)
  | counterReadClear _ b _ => exact h.execCounterReadClear (secure := b)
  | gateRegionWrite _ b _ _ _ => exact h.execGateRegionWrite (secure := b)
  | registerWrite _ b _ _ => exact h.execRegisterWrite (secure := b)
  | telemetryCollection => exact h.execTelemetryCollection
  | logEntryWrite => exact h.execLogEntryWrite
  | traceWrite => exact h.execTraceWrite
  | feedReturn => exact h.execFeedReturn
  | syncMissing => exact h.execSyncMissing
  | peerDelayTimeout => exact h.execPeerDelayTimeout
  | ppsEdgeMissing => exact h.execPpsEdgeMissing
  | irigSignalLoss => exact h.execIrigSignalLoss
  | partnerLoopUnknownRepeat => exact h.execPartnerLoopUnknownRepeat
  | cloneFrameSend => exact h.execCloneFrameSend
  | groupSupplyReturn => exact h.execGroupSupplyReturn
  | pllRelock => exact h.execPllRelock
  | _ => exact h.instruction (by simp [instrForm])

/-! One step. -/

protected theorem Kept.step (h : Kept .module r s) : Leaves .module r (step s) := by
  unfold Machine.step
  split
  · exact h
  · exact h.sameTables.exec

end Sys2Proof.Machine
end

section
/-! The two statements (R35, R66). -/
namespace Sys2Proof.Machine

theorem exec_wf {i : Instr} {s t : State} (hw : s.wf) (h : exec i s = .next t) : t.wf := by
  have hk : Leaves .module s (exec i s) := (Kept.refl .module s).exec
  rw [h] at hk
  exact hk.wf hw

/-- Settles O3: the queue's front command leaves the canonical form, command by command. -/
theorem everyStepKeepsTheCanonicalForm : Obligations.EveryStepKeepsTheCanonicalForm := by
  intro s t hw h
  cases hp : s.pending with
  | nil =>
    rw [step_nil hp] at h
    cases h
    exact hw
  | cons i rest =>
    rw [step_cons hp] at h
    exact exec_wf (s := { s with pending := rest }) hw h

/-- Settles O6: every instruction keeps the part of the state that holds these fields. -/
theorem noInstructionReachesMandateOrVault : Obligations.NoInstructionReachesMandateOrVault := by
  intro i s t e delta neg pred u hi h
  have hk : Leaves .engine s (exec i s) := (Kept.refl .engine s).instruction (by rw [hi]; exact Option.some_ne_none _)
  rw [h] at hk
  have hc : custody t = custody s := hk.custody rfl
  exact ⟨congrArg (·.mst) hc, congrArg (·.link.latch) hc, congrArg (·.link.own) hc, congrArg (·.link.part) hc,
    congrArg (·.nwt.permit) hc, congrArg (·.vault) hc, congrArg (·.grant) hc, congrArg (·.sess) hc,
    congrArg (·.boot.slots) hc, congrArg (·.pending) hc⟩

end Sys2Proof.Machine
end

section
/-! SUPPORT. A raised fault (R571) and the triple store (R222 to R228). -/

namespace Sys2Proof.Machine

theorem mem_logInsert_self (x : LogEnt) (l : List LogEnt) : x ∈ logInsert x l := by
  induction l with
  | nil => simp [logInsert]
  | cons y t ih =>
    simp only [logInsert]
    split
    · exact List.mem_cons_self
    · exact List.mem_cons_of_mem _ ih

theorem logPush_entry (code detail : Nat) (s : State) (h : s.logQ.length < 256) :
    ∃ l ∈ (logPush code detail s).logQ, l.code = code ∧ l.detail = detail ∧ l.sec = s.time.sec := by
  unfold logPush
  split
  · next hany =>
    obtain ⟨l, hl, hf⟩ := List.any_eq_true.1 hany
    refine ⟨{ l with rep := Nat.min (l.rep + 1) 4095 }, List.mem_map.2 ⟨l, hl, if_pos hf⟩, ?_⟩
    simpa [LogEnt.folds, and_assoc] using hf
  · exact ⟨_, mem_logInsert_self _ _, rfl, rfl, rfl⟩

/-- A fault raised on a state whose second and log queue are those of `s`. -/
theorem raise_raised {s u : State} (code detail : Nat) (hr : rising u.regs) (ht : u.time.sec = s.time.sec) (hq : u.logQ = s.logQ) :
    raised code detail s (raise code detail u) :=
  ⟨raise_lastF _ _ _ hr, (raise_lastFSec _ _ _).trans ht, fun hl => by
    have h := logPush_entry code detail (setLastF code u) (by rw [show (setLastF code u).logQ = u.logQ from rfl, hq]; exact hl)
    rwa [show (setLastF code u).time.sec = s.time.sec from ht] at h⟩

theorem bitOf_congr {s t : State} {a : Nat} (h : reg t a = reg s a) (b : Nat) : bitOf t a b = bitOf s a b := by
  rw [bitOf, bitOf, getF, getF, h]

theorem getF_congr {s t : State} {a : Nat} (h : reg t a = reg s a) (hi lo : Nat) : getF t a hi lo = getF s a hi lo := by
  rw [getF, getF, h]

theorem tsWord_setTs_same {s : State} (h : rising s.ts) (off : Nat) (w : TsWord) : tsWord (setTs off w s) off = w :=
  tabGet_tabSet_same _ _ _ _ h

theorem tsWord_setTs_ne {s : State} (h : rising s.ts) {off o : Nat} (w : TsWord) (ho : o ≠ off) : tsWord (setTs off w s) o = tsWord s o :=
  tabGet_tabSet_other _ _ _ _ _ _ h ho

theorem tsWord_setTs_self {s : State} (h : rising s.ts) (off o : Nat) : tsWord (setTs off (tsWord s off) s) o = tsWord s o := by
  by_cases ho : o = off
  · rw [ho, tsWord_setTs_same h]
  · exact tsWord_setTs_ne h _ ho

theorem vote_equal (v : Word) : vote { c1 := v, c2 := v, c3 := v } = .same v false := by simp [vote, chkIntact, voteThree]

theorem vote_odd {v w : Word} (h : w ≠ v) : vote { c1 := v, c2 := v, c3 := w } = .odd v := by
  simp [vote, chkIntact, voteThree, h.symm]

theorem vote_split {x y z : Word} (hxy : x ≠ y) (hxz : x ≠ z) (hyz : y ≠ z) : vote { c1 := x, c2 := y, c3 := z } = .split := by
  simp [vote, chkIntact, voteThree, hxy, hxz, hyz]

/-- The state in which a granted visit reads word `off`, found as `w` (R225). -/
def visited (off : Nat) (w : TsWord) (s : State) : State := grantBackground 0x03000000 (setTs off w s)

theorem visited_served {s : State} (h : rising s.served) (off : Nat) (w : TsWord) : tabGet 0 (visited off w s).served 1088 = s.now + 1 :=
  tabGet_tabSet_same _ _ _ _ h

theorem visited_vote {s : State} (h : rising s.ts) {off : Nat} (hs : s.tsSplit.contains off = false) (w : TsWord) :
    tsVoteOf (visited off w s) off = vote w := by
  have hw : tsWord (visited off w s) off = w := tsWord_setTs_same h off w
  have hc : (visited off w s).tsSplit.contains off = false := hs
  rw [tsVoteOf, hc, hw]
  rfl

theorem scrub_intact {s : State} (hw : s.wf) (hf : backgroundFree s 0x03000000 = true) (off : Fin 65536) (v : Word)
    (hs : s.tsSplit.contains off.val = false) (hv : tsWord s off = { c1 := v, c2 := v, c3 := v }) :
    exec (.tripleStoreScrub off none) s = .next (visited off (tsWord s off) s) := by
  have hvote : tsVoteOf (visited off (tsWord s off) s) off = .same v false := by
    rw [visited_vote ((wf_iff_canonical s).1 hw).ts hs, hv, vote_equal]
  show Host.Outcome.next (if backgroundFree s 0x03000000 then (tsRead off (visited off (tsWord s off) s)).2 else _) = _
  rw [if_pos hf, tsRead, hvote]
  rfl

theorem scrub_odd {s : State} (hw : s.wf) (hf : backgroundFree s 0x03000000 = true) (off : Fin 65536) {v w : Word}
    (hs : s.tsSplit.contains off.val = false) (hv : tsWord s off = { c1 := v, c2 := v, c3 := v }) (hne : w ≠ v) :
    exec (.tripleStoreScrub off (some (2, w, .ok))) s
      = .next (raise 0x310 off (queueRepair off v (setBit (visited off { c1 := v, c2 := v, c3 := w } s) cmpTsStat 1))) := by
  have hvote : tsVoteOf (visited off { c1 := v, c2 := v, c3 := w } s) off = .odd v := by
    rw [visited_vote ((wf_iff_canonical s).1 hw).ts hs, vote_odd hne]
  show Host.Outcome.next (if backgroundFree s 0x03000000 then (tsRead off (visited off { tsWord s off with c3 := w, k3 := .ok } s)).2
    else _) = _
  rw [if_pos hf, hv, tsRead, hvote]

theorem scrub_split {s : State} (hw : s.wf) (hf : backgroundFree s 0x03000000 = true) (off : Fin 65536) {x y z : Word}
    (hxy : x ≠ y) (hxz : x ≠ z) (hyz : y ≠ z) (hs : s.tsSplit.contains off.val = false)
    (hv : tsWord s off = { c1 := x, c2 := y, c3 := z }) :
    exec (.tripleStoreScrub off none) s = .next (tsSplitFound off (visited off (tsWord s off) s)) := by
  have hvote : tsVoteOf (visited off (tsWord s off) s) off = .split := by
    rw [visited_vote ((wf_iff_canonical s).1 hw).ts hs, hv, vote_split hxy hxz hyz]
  show Host.Outcome.next (if backgroundFree s 0x03000000 then (tsRead off (visited off (tsWord s off) s)).2 else _) = _
  rw [if_pos hf, tsRead, hvote]

theorem scrub_intact_keeps {s : State} (hw : s.wf) (hf : backgroundFree s 0x03000000 = true) (off : Fin 65536) (v : Word)
    (hs : s.tsSplit.contains off.val = false) (hv : tsWord s off = { c1 := v, c2 := v, c3 := v }) :
    ∃ t, exec (.tripleStoreScrub off none) s = .next t ∧ tsWord t off = tsWord s off
      ∧ t = { s with ts := t.ts, served := t.served, tk := t.tk } ∧ tabGet 0 t.served 1088 = s.now + 1
      ∧ ∀ o, o ≠ off.val → tsWord t o = tsWord s o := by
  have k := (wf_iff_canonical s).1 hw
  exact ⟨_, scrub_intact hw hf off v hs hv, tsWord_setTs_same k.ts _ _, rfl, visited_served k.served _ _,
    fun o ho => tsWord_setTs_ne k.ts _ ho⟩

theorem queueRepair_room {u : State} {off : Nat} (v : Word) (hq : u.tsRepairs.any (·.1 == off) = false) (hl : u.tsRepairs.length < 8) :
    queueRepair off v u = { u with tsRepairs := u.tsRepairs ++ [(off, v)] } := by
  rw [queueRepair, if_neg (by rw [hq]; decide), if_pos hl]

/-- A fault raised on a state that differs from `b` in the repair queue alone. -/
theorem raise_repair {b : State} (code : Nat) {off : Nat} (q : List (Nat × Word)) (hr : rising b.regs) :
    let t := raise code off { b with tsRepairs := q }
    t.tsRepairs = q ∧ raised code off b t ∧ tsWord t off = tsWord b off ∧ ∀ a, a ≠ midLastF → a ≠ midLog → reg t a = reg b a :=
  ⟨raise_tsRepairs _ _ _, raise_raised _ _ hr rfl rfl, congrArg (tabGet _ · off) (raise_ts _ _ _), fun a h1 h2 =>
    raise_reg _ _ { b with tsRepairs := q } hr a h1 h2⟩

/-- A copy found odd is reported, and its repair queued (R224). -/
theorem odd_reported {u : State} (hr : rising u.regs) {off : Nat} (v : Word) (hq : u.tsRepairs.any (·.1 == off) = false)
    (hl : u.tsRepairs.length < 8) :
    let t := raise 0x310 off (queueRepair off v (setBit u cmpTsStat 1))
    t.tsRepairs = u.tsRepairs ++ [(off, v)] ∧ bitOf t cmpTsStat 1 = true ∧ raised 0x310 off u t ∧ tsWord t off = tsWord u off
      ∧ regsKeptF [cmpTsStat] u t := by
  rw [queueRepair_room (u := setBit u cmpTsStat 1) v hq hl]
  obtain ⟨hqueue, hraised, hword, hreg⟩ :=
    raise_repair 0x310 (off := off) ((setBit u cmpTsStat 1).tsRepairs ++ [(off, v)]) (setBit_rising u cmpTsStat 1 true hr)
  refine ⟨hqueue, ?_, hraised, hword, fun a ha h1 h2 => ?_⟩
  · rw [bitOf_congr (hreg _ (by decide) (by decide))]
    exact bitOf_setBit_same _ _ _ _ hr (by decide)
  · rw [hreg _ h1 h2]
    exact reg_setBit_ne _ _ _ _ _ hr (by simpa using ha)

theorem scrub_odd_repairs {s : State} (hw : s.wf) (hf : backgroundFree s 0x03000000 = true) (off : Fin 65536) {v w : Word}
    (hs : s.tsSplit.contains off.val = false) (hv : tsWord s off = { c1 := v, c2 := v, c3 := v }) (hne : w ≠ v)
    (hq : s.tsRepairs.any (·.1 == off.val) = false) (hl : s.tsRepairs.length < 8) :
    ∃ t, exec (.tripleStoreScrub off (some (2, w, .ok))) s = .next t ∧ t.tsRepairs = s.tsRepairs ++ [(off.val, v)]
      ∧ bitOf t cmpTsStat 1 = true ∧ raised 0x310 off s t ∧ tsWord t off = { c1 := v, c2 := v, c3 := w }
      ∧ regsKeptF [cmpTsStat] s t := by
  have k := (wf_iff_canonical s).1 hw
  obtain ⟨hqueue, hbit, hraised, hword, hregs⟩ :=
    odd_reported (u := visited off { c1 := v, c2 := v, c3 := w } s) k.regs v hq hl
  exact ⟨_, scrub_odd hw hf off hs hv hne, hqueue, hbit, hraised, hword.trans (tsWord_setTs_same k.ts _ _), hregs⟩

theorem tsPeek_of_split {t : State} {off : Nat} (h : t.tsSplit.contains off = true) : tsPeek t off = poison := by
  rw [tsPeek, tsVoteOf, if_pos h]
  rfl

/-- The marks and counts of a word found split. -/
def splitNoted (off : Nat) (u : State) : State := addSat (setF (setBit u cmpTsStat 0) cmpTsStat 19 4 off) cmpTsCnt 35 24 1

theorem splitNoted_rising {u : State} (hr : rising u.regs) (off : Nat) : rising (splitNoted off u).regs :=
  addSat_rising _ cmpTsCnt 35 24 1 (setF_rising _ cmpTsStat 19 4 off (setBit_rising u cmpTsStat 0 true hr))

theorem splitNoted_stat {u : State} (hr : rising u.regs) {off : Nat} (hlt : off < 65536) :
    bitOf (splitNoted off u) cmpTsStat 0 = true ∧ getF (splitNoted off u) cmpTsStat 19 4 = off := by
  have hb := setBit_rising u cmpTsStat 0 true hr
  have hkeep : reg (splitNoted off u) cmpTsStat = reg (setF (setBit u cmpTsStat 0) cmpTsStat 19 4 off) cmpTsStat :=
    reg_addSat_ne _ _ _ _ _ _ (setF_rising _ cmpTsStat 19 4 off hb) (by decide)
  constructor
  · rw [bitOf_congr hkeep, bitOf, getF_setF_other _ _ _ _ _ _ _ hb (by decide) (by decide) (by decide) (by decide)]
    exact bitOf_setBit_same _ _ _ _ hr (by decide)
  · rw [getF_congr hkeep, getF_setF_same _ _ _ _ _ hb (by decide) (by decide)]
    exact Nat.mod_eq_of_lt hlt

def markSplit (off : Nat) (u : State) : State :=
  { u with tsSplit := if u.tsSplit.contains off then u.tsSplit else u.tsSplit ++ [off] }

/-- A word that no safe output is made of, found split, drives nothing. -/
theorem tsSplitFound_plain {off : Nat} (ho : 0x8400 ≤ off) (u : State) :
    tsSplitFound off u = raise 0x313 off (markSplit off (splitNoted off u)) := by
  have hd : splitDrives off = [] := by
    rw [splitDrives, if_neg (by omega), if_neg (by omega)]
  rw [tsSplitFound, hd, List.foldl_nil]
  rfl

theorem mem_markSplit (off : Nat) (u : State) : (markSplit off u).tsSplit.contains off = true := by
  dsimp only [markSplit]
  split
  · assumption
  · simp

/-- A fault raised on a state that differs from `b` in the list of split words alone. -/
theorem raise_markSplit {u b : State} (code off : Nat) (hr : rising b.regs) (ht : b.time.sec = u.time.sec) (hq : b.logQ = u.logQ) :
    let t := raise code off (markSplit off b)
    t.tsSplit.contains off = true ∧ t.tsRepairs = b.tsRepairs ∧ raised code off u t
      ∧ ∀ a, a ≠ midLastF → a ≠ midLog → reg t a = reg b a :=
  ⟨(congrArg (·.contains off) (raise_tsSplit _ _ _)).trans (mem_markSplit off b), raise_tsRepairs _ _ _, raise_raised _ _ hr ht hq,
    fun a h1 h2 => raise_reg _ _ (markSplit off b) hr a h1 h2⟩

theorem splitNoted_tsRepairs (off : Nat) (u : State) : (splitNoted off u).tsRepairs = u.tsRepairs := rfl

/-- A word that no safe output is made of, found split, is reported and marked (R224). -/
theorem split_reported {u : State} (hr : rising u.regs) {off : Nat} (ho : 0x8400 ≤ off) (hlt : off < 65536) :
    let t := tsSplitFound off u
    bitOf t cmpTsStat 0 = true ∧ getF t cmpTsStat 19 4 = off ∧ t.tsSplit.contains off = true ∧ t.tsRepairs = u.tsRepairs
      ∧ raised 0x313 off u t := by
  obtain ⟨hbit, hoff⟩ := splitNoted_stat hr hlt
  obtain ⟨hsplit, hqueue, hraised, hreg⟩ := raise_markSplit (u := u) 0x313 off (splitNoted_rising hr off) rfl rfl
  have hstat := hreg cmpTsStat (by decide) (by decide)
  rw [tsSplitFound_plain ho]
  exact ⟨(bitOf_congr hstat 0).trans hbit, (getF_congr hstat 19 4).trans hoff, hsplit,
    hqueue.trans (splitNoted_tsRepairs off u), hraised⟩

theorem scrub_split_reported {s : State} (hw : s.wf) (hf : backgroundFree s 0x03000000 = true) (off : Fin 65536) {x y z : Word}
    (hxy : x ≠ y) (hxz : x ≠ z) (hyz : y ≠ z) (ho : 0x8400 ≤ off.val) (hs : s.tsSplit.contains off.val = false)
    (hv : tsWord s off = { c1 := x, c2 := y, c3 := z }) :
    ∃ t, exec (.tripleStoreScrub off none) s = .next t ∧ bitOf t cmpTsStat 0 = true ∧ getF t cmpTsStat 19 4 = off.val
      ∧ t.tsSplit.contains off.val = true ∧ t.tsRepairs = s.tsRepairs ∧ raised 0x313 off s t ∧ tsPeek t off = poison := by
  obtain ⟨hbit, hoff, hsplit, hqueue, hraised⟩ :=
    split_reported (u := visited off (tsWord s off) s) ((wf_iff_canonical s).1 hw).regs ho off.isLt
  exact ⟨_, scrub_split hw hf off hxy hxz hyz hs hv, hbit, hoff, hsplit, hqueue, hraised, tsPeek_of_split hsplit⟩

theorem execTripleStoreRepair_granted {s : State} (hf : backgroundFree s 0x03000000 = true) {off : Nat} {v : Word}
    {rs : List (Nat × Word)} (hq : s.tsRepairs = (off, v) :: rs) :
    exec .tripleStoreRepair s = .next (grantBackground 0x03000000
      (addSat (setTs off { c1 := v, c2 := v, c3 := v } { s with tsRepairs := rs }) cmpTsCnt 11 0 1)) := by
  show execTripleStoreRepair s = _
  rw [execTripleStoreRepair, hq, hf]
  rfl

theorem repair_made {s : State} (hw : s.wf) (hf : backgroundFree s 0x03000000 = true) {off : Nat} {v : Word} {rs : List (Nat × Word)}
    (hq : s.tsRepairs = (off, v) :: rs) :
    ∃ t, exec .tripleStoreRepair s = .next t ∧ tsWord t off = { c1 := v, c2 := v, c3 := v } ∧ t.tsRepairs = rs
      ∧ regsKept [cmpTsCnt] s t ∧ getF t cmpTsCnt 11 0 = Nat.min (getF s cmpTsCnt 11 0 + 1) 4095
      ∧ tabGet 0 t.served 1088 = s.now + 1 ∧ ∀ o, o ≠ off → tsWord t o = tsWord s o := by
  have k := (wf_iff_canonical s).1 hw
  refine ⟨_, execTripleStoreRepair_granted hf hq, tabGet_tabSet_same _ _ _ _ k.ts, rfl, fun a ha => ?_, ?_, ?_, fun o ho => ?_⟩
  · exact reg_addSat_ne _ _ _ _ _ _ k.regs (by simpa using ha)
  · exact getF_addSat _ _ _ _ _ k.regs (by decide) (by decide)
  · exact tabGet_tabSet_same _ _ _ _ k.served
  · exact tabGet_tabSet_other _ _ _ _ _ _ k.ts ho

theorem repair_barred {s : State} (hf : backgroundFree s 0x03000000 = false) : exec .tripleStoreRepair s = .next s := by
  show execTripleStoreRepair s = _
  rw [execTripleStoreRepair]
  split
  · rw [hf]; rfl
  · rfl

theorem scrub_barred {s : State} (hw : s.wf) (hf : backgroundFree s 0x03000000 = false) (off : Fin 65536) :
    ∃ t, exec (.tripleStoreScrub off none) s = .next t ∧ t = { s with ts := t.ts } ∧ ∀ o, tsWord t o = tsWord s o := by
  refine ⟨setTs off (tsWord s off) s, ?_, rfl, tsWord_setTs_self ((wf_iff_canonical s).1 hw).ts _⟩
  show Host.Outcome.next (if backgroundFree s 0x03000000 then _ else setTs off (tsWord s off) s) = _
  rw [hf]
  rfl

/-! The memory scrubber (R569). -/

theorem memoryScrub_barred {s : State} (a : BitVec 32) (found : Chk) (hf : backgroundFree s a.toNat = false) :
    exec (.memoryScrub a found) s = .next s := by
  show execMemoryScrub a found s = _
  rw [execMemoryScrub, hf, Bool.and_false]
  rfl

/-- The report of an error found in the word at `a`: a count in FAB_MEMERR and in the telemetry, and the word's check (R569). -/
def errorNoted (a hi lo : Nat) (c : Chk) (f : Telem → Telem) (u : State) : State :=
  { modTelem f (addSat u fabMemErr hi lo 1) with chk := tabSet .ok u.chk a c }

/-- What a granted visit to the word at `a` makes of what it found. -/
def scrubFound (a : Nat) (found : Chk) (u : State) : State :=
  match found with
  | .ok => u
  | .single => raise 0x130 a (errorNoted a 35 18 .ok (fun t => { t with corr := t.corr + 1 }) u)
  | .uncor => raise 0x131 a (errorNoted a 17 0 .uncor (fun t => { t with uncor := t.uncor + 1 }) u)

/-- The word at `a` stands without an error. -/
theorem execMemoryScrub_granted {s : State} (a : BitVec 32) (ha : isShared a.toNat = true) (hf : backgroundFree s a.toNat = true)
    (hc : chkOf s a.toNat = .ok) (found : Chk) :
    exec (.memoryScrub a found) s = .next (scrubFound a.toNat found (grantBackground a.toNat s)) := by
  have hs : scrubFree s a.toNat = true := by rw [scrubFree, ha, Bool.true_or]
  have hg : chkOf (grantBackground a.toNat s) a.toNat = .ok := hc
  show execMemoryScrub a found s = _
  rw [execMemoryScrub, hs, hf, if_neg (by decide)]
  generalize grantBackground a.toNat s = u at hg ⊢
  dsimp only
  rw [hg]
  cases found <;> rfl

theorem raise_errorNoted {u : State} (hr : rising u.regs) (hk : rising u.chk) (a code : Nat) {hi lo : Nat} (c : Chk) (f : Telem → Telem) :
    let t := raise code a (errorNoted a hi lo c f u)
    raised code a u t ∧ chkOf t a = c ∧ t.mem = u.mem ∧ regsKeptF [fabMemErr] u t := by
  have hb : rising (errorNoted a hi lo c f u).regs := addSat_rising u fabMemErr hi lo 1 hr
  refine ⟨raise_raised _ _ hb rfl rfl, ?_, raise_mem _ _ _, fun b hbne h1 h2 => ?_⟩
  · rw [chkOf, raise_chk]
    exact tabGet_tabSet_same _ _ _ _ hk
  · rw [raise_reg _ _ _ hb _ h1 h2]
    exact reg_addSat_ne _ _ _ _ _ _ hr (by simpa using hbne)

theorem memoryScrub_clean {s : State} (hw : s.wf) (a : BitVec 32) (ha : isShared a.toNat = true) (hc : chkOf s a.toNat = .ok)
    (hf : backgroundFree s a.toNat = true) :
    ∃ t, exec (.memoryScrub a .ok) s = .next t ∧ t = { s with served := t.served, tk := t.tk }
      ∧ tabGet 0 t.served (pointOf (word a.toNat)) = s.now + 1 :=
  ⟨_, execMemoryScrub_granted a ha hf hc .ok, rfl, tabGet_tabSet_same _ _ _ _ ((wf_iff_canonical s).1 hw).served⟩

theorem memoryScrub_single {s : State} (hw : s.wf) (a : BitVec 32) (ha : isShared a.toNat = true) (hc : chkOf s a.toNat = .ok)
    (hf : backgroundFree s a.toNat = true) :
    ∃ t, exec (.memoryScrub a .single) s = .next t ∧ raised 0x130 a.toNat s t ∧ chkOf t a.toNat = .ok ∧ t.mem = s.mem
      ∧ regsKeptF [fabMemErr] s t :=
  have k := (wf_iff_canonical s).1 hw
  ⟨_, execMemoryScrub_granted a ha hf hc .single, raise_errorNoted (u := grantBackground a.toNat s) k.regs k.chk _ _ _ _⟩

theorem memoryScrub_uncor {s : State} (hw : s.wf) (a : BitVec 32) (ha : isShared a.toNat = true) (hc : chkOf s a.toNat = .ok)
    (hf : backgroundFree s a.toNat = true) :
    ∃ t, exec (.memoryScrub a .uncor) s = .next t ∧ raised 0x131 a.toNat s t ∧ chkOf t a.toNat = .uncor ∧ t.mem = s.mem
      ∧ regsKeptF [fabMemErr] s t :=
  have k := (wf_iff_canonical s).1 hw
  ⟨_, execMemoryScrub_granted a ha hf hc .uncor, raise_errorNoted (u := grantBackground a.toNat s) k.regs k.chk _ _ _ _⟩

/-- Settles O26: by the vote of the visited word, the state of the point and what the scrubber found. -/
theorem tripleStoreAndScrubbing : Obligations.TripleStoreAndScrubbing := by
  intro s hw
  refine ⟨fun hf => ⟨fun off v => scrub_intact_keeps hw hf off v, fun off v w hs hv hne => scrub_odd_repairs hw hf off hs hv hne,
      fun off x y z hxy hxz hyz ho hs hv => scrub_split_reported hw hf off hxy hxz hyz ho hs hv,
      fun off v rs hq => repair_made hw hf hq⟩,
    fun hf => ⟨repair_barred hf, scrub_barred hw hf⟩, fun a found => memoryScrub_barred a found, fun a ha hc hf => ?_, fun i => rfl⟩
  exact ⟨memoryScrub_clean hw a ha hc hf, memoryScrub_single hw a ha hc hf, memoryScrub_uncor hw a ha hc hf⟩

end Sys2Proof.Machine
end

section
/-! SUPPORT. The refutation of O34. The pool has channels 0 to 2047, and a list of channels to restart that names 2049 (which the
canonical form admits) reaches PAIR_SWDAY: the restart, at the end of a change, moves the day of a switchover armed for today. -/

namespace Sys2Proof.Machine

/-- ACTIVE at T, with a switchover armed for the day that begins; a change is in its last day, and channel 2049 is to be restarted. -/
def strayRestart : State :=
  { mst := .active, regs := [(dayStatus, 128), (pairSwDay, 8589934592)], sig := { restart := [2049] }
    day := { dayAt 250000 with n := 8589934591 } }

theorem strayRestart_wf : strayRestart.wf := (wf_iff_canonical _).2 (by constructor <;> decide)

theorem sigCh_stray : sigCh 2049 0 = pairSwDay := by decide

/-- The day that begins, with nothing left for its midnight. -/
def strayDay : Day := (newDay strayRestart).day

/-- What the end of the day keeps of `strayRestart` until the change is finished; `busy` is DAY_STATUS bit 7. -/
structure Awaits (busy : Bool) (s : State) : Prop where
  kept : Kept .engine strayRestart s
  swDay : reg s pairSwDay = 8589934592
  change : bitOf s dayStatus 7 = busy
  restart : s.sig.restart = [2049]
  day : s.day = { strayDay with hot := s.day.hot }
  heard : s.link.heard = none

section
variable {b : Bool} {s t : State}

theorem Awaits.rising (h : Awaits b s) : rising s.regs := ((wf_iff_canonical s).1 (h.kept.wf strayRestart_wf)).regs

/-- An operation on registers other than PAIR_SWDAY and DAY_STATUS. -/
theorem Awaits.regs (h : Awaits b s) (hk : Kept .engine strayRestart t) (hr : ∀ a, a = pairSwDay ∨ a = dayStatus → reg t a = reg s a)
    (hs : t.sig.restart = s.sig.restart) (hd : t.day = s.day) (hl : t.link.heard = s.link.heard) : Awaits b t :=
  ⟨hk, (hr _ (.inl rfl)).trans h.swDay, (bitOf_congr (hr _ (.inr rfl)) 7).trans h.change, hs.trans h.restart, by rw [hd, ← h.day],
    hl.trans h.heard⟩

theorem Awaits.setReg {a : Nat} {v : Word} (h : Awaits b s) (ha : pairSwDay ≠ a ∧ dayStatus ≠ a := by decide) :
    Awaits b (setReg s a v) :=
  h.regs h.kept.setReg (fun x hx => reg_setReg_ne _ _ _ _ h.rising (by rcases hx with rfl | rfl; exacts [ha.1, ha.2])) rfl rfl rfl

theorem Awaits.setF {a hi lo v : Nat} (h : Awaits b s) (ha : pairSwDay ≠ a ∧ dayStatus ≠ a := by decide) :
    Awaits b (setF s a hi lo v) := h.setReg ha

theorem Awaits.setBit {a n : Nat} {v : Bool} (h : Awaits b s) (ha : pairSwDay ≠ a ∧ dayStatus ≠ a := by decide) :
    Awaits b (setBit s a n v) :=
  (h.setF ha).regs h.kept.setBit (fun _ _ => rfl) rfl rfl rfl

theorem Awaits.setDayBit {n : Nat} {v : Bool} (h : Awaits b s) (hn : n < 36 ∧ 7 ≠ n := by decide) :
    Awaits b (Machine.setBit s dayStatus n v) :=
  ⟨h.kept.setBit, (reg_setBit_ne _ _ _ _ _ h.rising (by decide)).trans h.swDay,
    (bitOf_setBit_other _ _ _ _ _ h.rising hn.1 hn.2).trans h.change, h.restart, h.day, h.heard⟩

theorem Awaits.changeEnds (h : Awaits b s) : Awaits false (Machine.setBit s dayStatus 7 false) :=
  ⟨h.kept.setBit, (reg_setBit_ne _ _ _ _ _ h.rising (by decide)).trans h.swDay,
    bitOf_setBit_same _ _ _ _ h.rising (by decide), h.restart, h.day, h.heard⟩

theorem Awaits.raise {code detail : Nat} (h : Awaits b s) : Awaits b (raise code detail s) :=
  h.regs h.kept.raise
    (fun x hx => raise_reg _ _ _ h.rising _ (by rcases hx with rfl | rfl <;> decide) (by rcases hx with rfl | rfl <;> decide))
    (by rw [raise_sig]) (by rw [raise_day]) (by rw [raise_link])

theorem Awaits.modTelem {f : Telem → Telem} (h : Awaits b s) : Awaits b (modTelem f s) :=
  h.regs h.kept.modTelem (fun _ _ => rfl) rfl rfl rfl

theorem Awaits.bump (h : Awaits b s) : Awaits b (bump s) := h.regs h.kept.bump (fun _ _ => rfl) rfl rfl rfl

theorem Awaits.ite {p : Prop} [Decidable p] (hs : Awaits b s) (ht : Awaits b t) : Awaits b (if p then s else t) := by
  split <;> assumption

theorem Awaits.forUpto {f : Nat → State → State} {n : Nat} (h : Awaits b s) (hf : ∀ i < n, ∀ u, Awaits b u → Awaits b (f i u)) :
    Awaits b (forUpto n f s) := by
  have hfold : ∀ (l : List Nat) (u : State), (∀ i ∈ l, i < n) → Awaits b u → Awaits b (l.foldl (fun t i => f i t) u) := by
    intro l
    induction l with
    | nil => exact fun _ _ hu => hu
    | cons i l ih =>
      exact fun u hl hu => ih _ (fun j hj => hl j (List.mem_cons_of_mem _ hj)) (hf i (hl i List.mem_cons_self) u hu)
  exact hfold _ _ (fun i hi => List.mem_range.1 hi) h

theorem Awaits.modDay {f : Day → Day} (h : Awaits b s) (hf : ∀ d, (f d).held = d.held)
    (hd : ∀ l, f { strayDay with hot := l } = { strayDay with hot := (f { strayDay with hot := l }).hot }) : Awaits b (modDay f s) :=
  ⟨h.kept.modDay hf, h.swDay, h.change, h.restart, by
    rw [Machine.modDay, h.day]
    exact hd _, h.heard⟩

theorem awaits_newDay : Awaits true (newDay strayRestart) where
  kept := (Kept.refl _ _).newDay
  swDay := by decide
  change := by decide
  restart := rfl
  day := rfl
  heard := rfl

theorem fabSlack_other (e : Nat) (he : e < 1024) : pairSwDay ≠ fabSlack e ∧ dayStatus ≠ fabSlack e := by
  simp only [fabSlack, show pairSwDay = 0x04070010 from rfl, show dayStatus = 0x04020000 from rfl]
  omega

theorem Awaits.minSlack {n e : Nat} (h : Awaits b s) : Awaits b { s with dayMin := n, dayMinEng := e } :=
  h.regs h.kept.minSlack (fun _ _ => rfl) rfl rfl rfl

theorem Awaits.slackMidnight (h : Awaits b s) : Awaits b (slackMidnight s) := by
  unfold Machine.slackMidnight
  extract_lets t1 t2 t3
  have h1 : Awaits b t1 := h.forUpto fun e he _ hu => hu.setReg (fabSlack_other e he)
  clear_value t1
  have h2 : Awaits b t2 := h1.setReg
  clear_value t2
  have h3 : Awaits b t3 := h2.modTelem
  clear_value t3
  exact h3.minSlack

theorem Awaits.indicate {n code : Nat} {unit : Option Nat} (h : Awaits b s) : Awaits b (indicate n code unit s) := by
  unfold Machine.indicate
  split
  · exact .ite h h.setBit.raise
  · exact h

theorem Awaits.indications (h : Awaits b s) : Awaits b (indications s) := by
  unfold Machine.indications
  extract_lets s1 s2 s3 s4
  have h1 : Awaits b s1 := h.indicate
  have h2 : Awaits b s2 := h1.indicate
  have h3 : Awaits b s3 := h2.indicate
  have h4 : Awaits b s4 := h3.indicate
  exact h4.indicate.modDay (fun _ => rfl) fun _ => rfl

/-- Without a partner heard no alarm asks for a switchover. -/
theorem Awaits.alarms (h : Awaits b s) : Awaits b (alarms s) := by
  have hp : partnerReady s = false := by rw [partnerReady, h.heard, Bool.and_false]
  rw [Machine.alarms, hp, Bool.and_false]
  exact h.indications

theorem Awaits.steer (h : Awaits b s) : Awaits b (steer s) := by
  unfold Machine.steer
  extract_lets v lim was t
  have ht : Awaits b t := (h.bump.setF (a := timOsc)).setBit
  exact .ite h (.ite (ht.setBit (a := timStatus)).raise ht)

theorem Awaits.alignMidnight (h : Awaits b s) : Awaits b (alignMidnight s) := by
  unfold Machine.alignMidnight
  extract_lets t o u v
  have hv : Awaits b v := (h.steer.setF (a := dayAlign)).modTelem
  exact .ite (hv.setDayBit (n := 3)).raise hv

/-! The change ends. -/

theorem Awaits.modPair {k : Nat} {f : Pair → Pair} (h : Awaits b s) : Awaits b (modPair k f s) :=
  h.regs h.kept.modPair (fun _ _ => rfl) rfl rfl rfl

theorem Awaits.endMirrors (h : Awaits b s) : Awaits b (endMirrors s) := h.forUpto fun _ _ _ hu => hu.modPair

theorem Awaits.stopLoader (h : Awaits b s) : Awaits b (stopLoader s) := h.regs h.kept.stopLoader (fun _ _ => rfl) rfl rfl rfl

theorem chStart_day (c : Nat) (s : State) : (chStart c s).day = s.day := by
  unfold chStart
  split
  · rfl
  · split
    · exact raise_day _ _ _
    · split
      · exact raise_day _ _ _
      · rfl

theorem sigCh_other (c : Nat) : sigCh c 0 ≠ midLastF ∧ sigCh c 0 ≠ midLog ∧ sigCh c 0 ≠ sigStatus := by
  simp only [sigCh, midLastF, midLog, sigStatus]
  omega

theorem chState_setF {c v : Nat} (hr : Machine.rising s.regs) : chState (setF s (sigCh c 0) 35 34 v) c = v % 4 :=
  getF_setF_same _ _ _ _ _ hr (by decide) (by decide)

theorem chState_modSigChan (c : Nat) (f : SigCh → SigCh) (s : State) : chState (modSigChan c f s) c = chState s c := rfl

theorem chState_chClear {c : Nat} (hr : Machine.rising s.regs) : chState (chClear c s) c = 1 :=
  (chState_modSigChan _ _ _).trans (chState_setF hr)

theorem chState_faulty {c v code n : Nat} (hr : Machine.rising s.regs) :
    chState (raise code c (setBit (setF s (sigCh c 0) 35 34 v) sigStatus n)) c = v % 4 := by
  have hr1 := setF_rising s (sigCh c 0) 35 34 v hr
  obtain ⟨h1, h2, h3⟩ := sigCh_other c
  rw [chState, getF_congr (raise_reg _ _ _ (setBit_rising _ _ _ _ hr1) _ h1 h2), getF_congr (reg_setBit_ne _ _ _ _ _ hr1 h3)]
  exact chState_setF hr

theorem chState_started {c : Nat} {f : SigCh → SigCh} (hr : Machine.rising s.regs) :
    chState (modSigChan c f (chClear c (setReg s (sigCh c 11) 0))) c = 1 :=
  (chState_modSigChan _ _ _).trans (chState_chClear (setReg_rising _ _ _ hr))

/-- A start shows the channel active or faulty. -/
theorem chState_chStart {c : Nat} (hr : Machine.rising s.regs) (hc : chState s c = 0) (hm : s.mst ≠ .standby) :
    chState (chStart c s) c ≠ 0 := by
  have hidle : (chActive s c || s.mst == .standby) = false := by
    rw [chActive, hc]
    simpa using hm
  rw [chStart, hidle, if_neg (by decide)]
  split
  · rw [chState_faulty hr]; decide
  · split
    · rw [chState_faulty hr]; decide
    · rw [chState_started hr]; decide

theorem switchesOn_of_chState (h : chState s 2049 ≠ 0) : switchesOn s 8589934592 = false := by
  have hne : reg s pairSwDay ≠ word (8589934592 % 2 ^ 36) := by
    intro he
    rw [chState, sigCh_stray, getF, he] at h
    exact h (by decide)
  rw [switchesOn, beq_eq_false_iff_ne.2 hne, Bool.and_false]

theorem Awaits.mst (h : Awaits b s) : s.mst = .active := congrArg State.mst (h.kept.custody rfl)

/-- The restart of channel 2049 writes into PAIR_SWDAY. -/
theorem Awaits.restartChannels (h : Awaits b s) :
    switchesOn (restartChannels s) 8589934592 = false ∧ (restartChannels s).day = s.day := by
  have hon : bitOf s (sigCh 2049 0) 33 = true := by rw [sigCh_stray, bitOf, getF, h.swDay]; decide
  have hoff : chState s 2049 = 0 := by rw [chState, sigCh_stray, getF, h.swDay]; decide
  have hx : Machine.restartChannels s = modSig (fun x => { x with restart := [] }) (chStart 2049 s) := by
    rw [Machine.restartChannels, h.restart, List.foldl_cons, List.foldl_nil, if_pos hon]
  rw [hx]
  have hstart : chState (chStart 2049 s) 2049 ≠ 0 := chState_chStart h.rising hoff (by rw [h.mst]; decide)
  exact ⟨switchesOn_of_chState (s := modSig _ (chStart 2049 s)) hstart, chStart_day 2049 s⟩

theorem modDay_self {f : Day → Day} (h : f s.day = s.day) : modDay f s = s := by rw [modDay, h]

theorem Awaits.applyRegions (h : Awaits b s) : Awaits b (applyRegions s) := by
  have hnone : s.day.midRegions = [] := by rw [h.day]; rfl
  rw [Machine.applyRegions, hnone, List.foldl_nil, modDay_self]
  · exact h
  · rw [h.day]
    rfl

theorem Awaits.applyLater (h : Awaits b s) : Awaits b (applyLater s) := by
  rw [Machine.applyLater, show s.day.midWrites = [] by rw [h.day]; rfl]
  exact Awaits.modDay h (fun _ => rfl) fun _ => rfl

theorem Awaits.grantDay (h : Awaits b s) : Awaits b (grantDay s) := by
  rw [Machine.grantDay, show s.grant = none from congrArg State.grant (h.kept.custody rfl)]
  exact h

theorem finishChange_unloaded (h : (stopLoader (setBit s dayStatus 7 false)).day.changeDone = false) :
    finishChange s = restartChannels (endMirrors (modDay (fun d => { d with changeDay := none })
      (stopLoader (setBit s dayStatus 7 false)))) := by
  rw [finishChange]
  exact if_pos (by rw [h]; rfl)

/-- The change ends unloaded, and its restart moves the day of the switchover. -/
theorem Awaits.finishChange (h : Awaits true s) :
    Kept .engine strayRestart (finishChange s) ∧ switchesOn (finishChange s) (finishChange s).day.n = false := by
  have h1 := h.changeEnds.stopLoader
  have h2 := (h1.modDay (f := fun d => { d with changeDay := none }) (fun _ => rfl) fun _ => rfl).endMirrors
  obtain ⟨hoff, hday⟩ := h2.restartChannels
  rw [finishChange_unloaded (by rw [h1.day]; rfl)]
  refine ⟨h2.kept.restartChannels, ?_⟩
  rw [hday, h2.day]
  exact hoff

theorem endDay_of_change {u : State}
    (hu : grantDay (applyLater (applyRegions (alignMidnight (alarms (slackMidnight (newDay s)))))) = u)
    (hc : bitOf u dayStatus 7 = true) : endDay s = finishChange u := by
  rw [← hu] at hc ⊢
  exact if_pos hc

theorem custody_of_kept (h : Kept .engine strayRestart s) : s.mst = .active ∧ s.link.swReleased = false ∧ s.stopReq = none :=
  have hc := h.custody rfl
  ⟨congrArg State.mst hc, congrArg (·.link.swReleased) hc, congrArg State.stopReq hc⟩

theorem endDay_strayRestart : Kept .engine strayRestart (endDay strayRestart)
    ∧ switchesOn (endDay strayRestart) (endDay strayRestart).day.n = false := by
  have h := awaits_newDay.slackMidnight.alarms.alignMidnight.applyRegions.applyLater.grantDay
  rw [endDay_of_change rfl h.change]
  exact h.finishChange

/-- A midnight of ACTIVE on which no switchover begins or ends and no stop waits. -/
theorem transitions_active {old : Nat} (hm : s.mst = .active) (hr : s.link.swReleased = false) (hs : switchesOn s s.day.n = false)
    (hq : s.stopReq = none) : transitions old s = s := by
  have hf : forcedStop s = false := by rw [forcedStop, hq]
  simp only [transitions, hm, hr, hs, hf, Bool.false_eq_true, if_false]

theorem execMidnight_due (hrun : s.day.run = true) (hpos : 0 < dayT s) (hdue : dayT s ≤ s.day.tick) :
    exec .midnight s = .next (let t := transitions s.day.n (endDay s)
      if t.day.run then dayStart (s.mst != t.mst || partnerSwitches s) (changeMidnight s t) else t) := by
  show execMidnight s = _
  rw [execMidnight, if_neg (by rw [hrun]; simp; omega)]

end

theorem midnight_strayRestart : ∃ t, exec .midnight strayRestart = .next t ∧ Kept .engine strayRestart t := by
  obtain ⟨hk, hs⟩ := endDay_strayRestart
  obtain ⟨hm, hr, hq⟩ := custody_of_kept hk
  have ht : transitions strayRestart.day.n (endDay strayRestart) = endDay strayRestart := transitions_active hm hr hs hq
  refine ⟨_, execMidnight_due rfl (by decide) (by decide), ?_⟩
  dsimp only
  rw [ht]
  exact .ite hk.changeMidnight.dayStart hk

/-- Refutes O34: ACTIVE reaches the day of its armed switchover, but the change that ends at this midnight restarts a channel beyond the
pool, whose status word is PAIR_SWDAY; the switchover does not begin. -/
theorem not_midnightTakesOneTransition : ¬ Obligations.MidnightTakesOneTransition := by
  unfold Obligations.MidnightTakesOneTransition
  intro h
  obtain ⟨t, ht, -, -, -, -, -, -, -, -, hswitch, -⟩ := h strayRestart strayRestart_wf rfl (by decide) (by decide)
  obtain ⟨u, hu, hk⟩ := midnight_strayRestart
  obtain rfl : t = u := by
    rw [ht] at hu
    exact Host.Outcome.next.inj hu
  obtain ⟨-, hrun, -⟩ := hswitch rfl rfl rfl (by decide)
  have hidle : t.link.swRunning = false := congrArg (·.link.swRunning) (hk.custody rfl)
  rw [hidle] at hrun
  cases hrun

end Sys2Proof.Machine
end

section
/-! SUPPORT. The commanding requests (R561 to R563): stops, restarts, switchovers, unlocking, the faceplate and arming a change. -/

namespace Sys2Proof.Machine

/-! A request whose service looks at the module's state. -/

section
variable {q : Rq} {h : HostReq} {s : State} {excl : Bool}

/-- What serves a request looks at the state after the bookkeeping of its session. -/
theorem arrive_congr {f g : State → State} (hfg : ∀ se ne, f (bookkept se ne s) = g (bookkept se ne s)) :
    arrive q h f s = arrive q h g s := by
  unfold arrive
  split
  · rfl
  · next x _ =>
    obtain ⟨se, ne, hu⟩ := received_frame q x s
    dsimp only
    rw [hu, hfg]

/-- A request whose format, state and range are good is served. -/
theorem arrive_served_in {v : State → Service} (body : State → State) (hm : mayServe s q h.roles excl)
    (he : h.excl = true → excl = true) (hv : ∀ se ne, v (bookkept se ne s) = { form := true, range := true }) :
    ∃ se ne, arrive q h (fun u => serveRequest q h (v u) body u) s = .next (body (bookkept se ne s)) := by
  rw [arrive_congr (g := serveRequest q h { form := true, range := true } body) fun se ne => by rw [hv]]
  exact arrive_served true true body hm he rfl rfl

end

/-! STOP (R396, R562). -/

/-- The state in which a stop waits. -/
def stopAsked (forced activate : Bool) (q : Rq) (u : State) : State :=
  { u with stopReq := some (forced, q.sess.val, q.tag), stopActivate := activate }

theorem acceptStop_first {u : State} (hq : u.stopReq = none) (forced activate : Bool) (q : Rq) :
    acceptStop forced activate q u = stopAsked forced activate q u := by
  rw [acceptStop, dropStop, hq]
  rfl

theorem stopDay_active {u : State} (hm : u.mst = .active) : stopDay false u = reg u pairSwDay + 1 := if_pos ⟨hm, rfl⟩

theorem not_bySwitch {u : State} {forced : Bool} (hm : u.mst ≠ .active ∨ forced = true) :
    ¬ (u.mst = .active ∧ (!forced) = true) := by
  rintro ⟨h1, h2⟩
  rcases hm with h | rfl
  · exact h h1
  · cases h2

/-- Outside ACTIVE, and where it is forced, a stop is accepted for the next midnight. -/
theorem serveStop_midnight {u : State} {code : Nat} {forced activate : Bool} {q : Rq} (hm : u.mst ≠ .active ∨ forced = true)
    (hq : u.stopReq = none) :
    serveStop code forced activate q u
      = respond q code stAccepted [word ((u.day.n + 1) % 2 ^ 36)] (stopAsked forced activate q u) := by
  rw [serveStop, if_neg (not_bySwitch hm), acceptStop_first hq]
  dsimp only
  rw [stopDay, if_neg (not_bySwitch (u := stopAsked forced activate q u) hm)]
  rfl

/-- In ACTIVE it arms a switchover. -/
theorem serveStop_switch {u : State} {code : Nat} {q : Rq} (hm : u.mst = .active) (hp : partnerReady u = true)
    (hd : reg u pairSwDay = 0) (hq : u.stopReq = none) :
    serveStop code false false q u = respond q code stAccepted [reg (armSwitch (u.day.n + 2) u) pairSwDay + 1]
      (stopAsked false false q (armSwitch (u.day.n + 2) u)) := by
  have hs : stopBySwitch false q u = stopAsked false false q (armSwitch (u.day.n + 2) u) := by
    rw [stopBySwitch, if_pos hd, acceptStop_first (u := armSwitch (u.day.n + 2) u) hq]
  rw [serveStop, if_pos ⟨hm, rfl⟩, if_pos hp, hs]
  dsimp only
  rw [stopDay_active (u := stopAsked false false q (armSwitch (u.day.n + 2) u)) hm]
  rfl

/-- Without a ready partner it is refused. -/
theorem serveStop_alone {u : State} {code : Nat} {q : Rq} (hm : u.mst = .active) (hp : partnerReady u = false) :
    serveStop code false false q u = refused q code 0x712 2 (refuseSwitch 2 u) := by
  rw [serveStop, if_pos ⟨hm, rfl⟩, if_neg (by rw [hp]; decide)]

/-! SWITCH (R396, R398). -/

theorem armSwitch_reads {u : State} (hr : rising u.regs) (w : Nat) :
    reg (armSwitch w u) pairSwDay = word (w % 2 ^ 36) ∧ getF (armSwitch w u) pairSwSt 3 0 = 1
      ∧ regsKept [pairSwDay, pairSwSt] u (armSwitch w u) := by
  have hr1 := setReg_rising u pairSwDay (word (w % 2 ^ 36)) hr
  refine ⟨?_, getF_setF_same _ _ _ _ _ hr1 (by decide) (by decide), fun a ha => ?_⟩
  · rw [armSwitch, reg_setF_ne _ _ _ _ _ _ hr1 (by decide), reg_setReg_same _ _ _ hr]
  · simp only [List.mem_cons, List.not_mem_nil, or_false, not_or] at ha
    rw [armSwitch, reg_setF_ne _ _ _ _ _ _ hr1 ha.2, reg_setReg_ne _ _ _ _ hr ha.1]

/-- PAIR_SWST with the reason of a refusal. -/
def switchRefused (r : Nat) (u : State) : State :=
  if reg u pairSwDay = 0 then setF (setF u pairSwSt 11 4 r) pairSwSt 3 0 4 else setF u pairSwSt 11 4 r

theorem refuseSwitch_eq {u : State} (hr : rising u.regs) (r : Nat) :
    refuseSwitch r u = raise 0x712 (dayN u % 2 ^ 36) (switchRefused r u) := by
  have hkeep : reg (setF u pairSwSt 11 4 r) pairSwDay = reg u pairSwDay := reg_setF_ne _ _ _ _ _ _ hr (by decide)
  rw [refuseSwitch, switchRefused, hkeep]
  rfl

theorem switchRefused_regs {u : State} (hr : rising u.regs) {r : Nat} (hlt : r < 256) :
    rising (switchRefused r u).regs ∧ getF (switchRefused r u) pairSwSt 11 4 = r
      ∧ reg (switchRefused r u) pairSwDay = reg u pairSwDay := by
  have hr1 := setF_rising u pairSwSt 11 4 r hr
  have hread : getF (setF u pairSwSt 11 4 r) pairSwSt 11 4 = r :=
    (getF_setF_same _ _ _ _ _ hr (by decide) (by decide)).trans (Nat.mod_eq_of_lt hlt)
  have hkeep : reg (setF u pairSwSt 11 4 r) pairSwDay = reg u pairSwDay := reg_setF_ne _ _ _ _ _ _ hr (by decide)
  unfold switchRefused
  split
  · exact ⟨setF_rising _ _ _ _ _ hr1, (getF_setF_other _ _ _ _ _ _ _ hr1 (by decide) (by decide) (by decide) (by decide)).trans hread,
      (reg_setF_ne _ _ _ _ _ _ hr1 (by decide)).trans hkeep⟩
  · exact ⟨hr1, hread, hkeep⟩

/-- Outside the registers a refusal changes nothing. -/
theorem switchRefused_frame (r : Nat) (u : State) :
    let t := switchRefused r u
    t.out = u.out ∧ t.link = u.link ∧ t.stopReq = u.stopReq ∧ t.time = u.time ∧ t.logQ = u.logQ := by
  unfold switchRefused
  split <;> exact ⟨rfl, rfl, rfl, rfl, rfl⟩

theorem refuseSwitch_reports {u : State} (hr : rising u.regs) {r : Nat} (hlt : r < 256) :
    let t := refuseSwitch r u
    raised 0x712 (dayN u % 2 ^ 36) u t ∧ getF t pairSwSt 11 4 = r ∧ reg t pairSwDay = reg u pairSwDay
      ∧ t.out = u.out ∧ t.link = u.link ∧ t.stopReq = u.stopReq := by
  obtain ⟨hr1, hread, hkeep⟩ := switchRefused_regs hr hlt
  obtain ⟨hout, hlink, hstop, htime, hlog⟩ := switchRefused_frame r u
  rw [refuseSwitch_eq hr]
  have hreg (a : Nat) (h1 : a ≠ midLastF) (h2 : a ≠ midLog) := raise_reg 0x712 (dayN u % 2 ^ 36) _ hr1 a h1 h2
  exact ⟨raise_raised _ _ hr1 (congrArg Time.sec htime) hlog, (getF_congr (hreg _ (by decide) (by decide)) 11 4).trans hread,
    (hreg _ (by decide) (by decide)).trans hkeep, (raise_out _ _ _).trans hout, (raise_link _ _ _).trans hlink,
    (raise_stopReq _ _ _).trans hstop⟩

theorem switchReason_lt {u : State} {w r : Nat} (h : switchReason u w = some r) : r < 256 := by
  simp only [switchReason] at h
  split_ifs at h <;> cases h <;> decide

theorem switchReason_active {u : State} {w r : Nat} (hm : u.mst = .active) (h : switchReason u w = some r) : r ≠ 1 := by
  rw [switchReason, if_neg (by rw [hm]; decide)] at h
  split_ifs at h <;> cases h <;> decide

theorem word_fullDay (u : State) (w : Word) : word (fullDay u w % 2 ^ 36) = w := by
  rw [fullDay, Nat.mul_add_mod_self_right, Nat.mod_eq_of_lt w.isLt]
  exact BitVec.ofNat_toNat _ _

/-! UNLOCK (R419). -/

/-- From `u` to `t` no register below the local I/O was written, and nothing left the module. -/
structure OnlyLio (u t : State) : Prop where
  rise : rising t.regs
  regs : ∀ a, a < 0x04090000 → reg t a = reg u a
  out : t.out = u.out

section
variable {u v : State} {l d : Nat}

theorem OnlyLio.setBit (h : OnlyLio u v) (n : Nat) (b : Bool) : OnlyLio u (setBit v (lioIn l) n b) :=
  ⟨setBit_rising _ _ _ _ h.rise,
    fun a ha => (reg_setBit_ne _ _ _ _ _ h.rise (by simp only [lioIn]; omega)).trans (h.regs a ha), h.out⟩

theorem OnlyLio.ite {p : Prop} [Decidable p] {t : State} (ht : OnlyLio u t) (hv : OnlyLio u v) : OnlyLio u (if p then t else v) := by
  split <;> assumption

theorem OnlyLio.modLio (h : OnlyLio u v) (f : Lio → Lio) : OnlyLio u (modLio f v) := ⟨h.rise, h.regs, h.out⟩

theorem OnlyLio.clearReadback (h : OnlyLio u v) : OnlyLio u (clearReadback l v) :=
  have h1 := OnlyLio.ite (h.setBit 7 false) (h.setBit 8 false)
  .ite ((h1.setBit 7 false).setBit 9 false) (h1.setBit 8 false)

theorem OnlyLio.setDriven (h : OnlyLio u v) (n : Nat) : OnlyLio u (setDriven l n v) := (h.modLio _).clearReadback

theorem OnlyLio.torqueOff (h : OnlyLio u v) : OnlyLio u (torqueOff d v) := .ite (h.setDriven 0) h

theorem OnlyLio.modDrive (h : OnlyLio u v) (f : Drive → Drive) : OnlyLio u (modDrive d f v) := ⟨h.rise, h.regs, h.out⟩

theorem OnlyLio.refl (hr : rising u.regs) : OnlyLio u u := ⟨hr, fun _ _ => rfl, rfl⟩

end

theorem safState_bounds (d : Nat) (hd : d < 64) :
    safState d ≠ safUnlock ∧ safState d < 0x04090000 ∧ safState d ≠ midLastF ∧ safState d ≠ midLog := by
  simp only [safState, safUnlock, midLastF, midLog]
  omega

/-- The two ways in which a drive is not unlocked. -/
theorem unlock_of_free {u : State} {d : Nat} (h : drvState u d ≠ 4) : unlock d u = setF u safUnlock 7 6 3 := if_pos h

theorem unlock_of_cause {u : State} {d : Nat} (h : drvState u d = 4) (hc : causePersists u d = true) :
    unlock d u = setF u safUnlock 7 6 2 := by
  rw [unlock, if_neg (by rw [h]; decide), if_pos hc]

/-- SAF_UNLOCK shows a result and nothing else changes. -/
theorem unlock_result {u : State} (hr : rising u.regs) {d n : Nat} (hd : d < 64) (hn : n < 4) :
    let t := setF u safUnlock 7 6 n
    getF t safUnlock 7 6 = n ∧ drvState t d = drvState u d ∧ regsKept [safUnlock] u t :=
  ⟨(getF_setF_same _ _ _ _ _ hr (by decide) (by decide)).trans (Nat.mod_eq_of_lt hn),
    getF_congr (reg_setF_ne _ _ _ _ _ _ hr (safState_bounds d hd).1) 2 0,
    fun a ha => reg_setF_ne _ _ _ _ _ _ hr (by simpa using ha)⟩

/-- The registers of an unlocked drive before its torque is taken off (R419). -/
def unlocking (d : Nat) (u : State) : State := setF (setF u safUnlock 7 6 1) (safState d) 4 3 0

/-- A locked drive enters STO without a fault of its own. -/
theorem enterSto_locked {u : State} (hr : rising u.regs) {d : Nat} (h : drvState u d = 4) :
    OnlyLio (setF (setF u (safState d) 5 5 0) (safState d) 2 0 3) (enterSto d u) := by
  have hx := (OnlyLio.refl (setF_rising _ (safState d) 2 0 3 (setF_rising _ (safState d) 5 5 0 hr))).torqueOff (d := d)
  rw [enterSto, h, if_neg (by decide)]
  exact hx.modDrive _

theorem unlocking_reads {u : State} (hr : rising u.regs) {d : Nat} (hd : d < 64) (h : drvState u d = 4) :
    rising (unlocking d u).regs ∧ getF (unlocking d u) safUnlock 7 6 = 1 ∧ drvState (unlocking d u) d = 4 := by
  obtain ⟨hne, -⟩ := safState_bounds d hd
  have h1 := setF_rising u safUnlock 7 6 1 hr
  refine ⟨setF_rising _ _ _ _ _ h1, ?_, ?_⟩
  · rw [unlocking, getF_setF_ne _ _ _ _ _ _ _ _ h1 hne.symm]
    exact getF_setF_same _ _ _ _ _ hr (by decide) (by decide)
  · rw [unlocking, drvState, getF_setF_other _ _ _ _ _ _ _ h1 (by decide) (by decide) (by decide) (by decide),
      getF_setF_ne _ _ _ _ _ _ _ _ hr hne]
    exact h

/-- R419: a drive whose cause is gone is unlocked into STO. -/
theorem unlock_releases {u : State} (hr : rising u.regs) {d : Nat} (hd : d < 64) (h : drvState u d = 4) (hc : causePersists u d = false) :
    let t := unlock d u
    t.out = u.out ∧ getF t safUnlock 7 6 = 1 ∧ drvState t d = 3 := by
  obtain ⟨hne, hlt, hl1, hl2⟩ := safState_bounds d hd
  obtain ⟨h1, hres, hst⟩ := unlocking_reads hr hd h
  have h2 := setF_rising _ (safState d) 5 5 0 h1
  have hx : unlock d u = safFault 0x841 d 0 0 (enterSto d (unlocking d u)) := by
    rw [unlock, if_neg (by rw [h]; decide), if_neg (by rw [hc]; decide)]
    rfl
  have hlio := enterSto_locked h1 hst
  rw [hx, safFault]
  generalize enterSto d (unlocking d u) = v at hlio ⊢
  have hreg (a : Nat) (ha : a < 0x04090000) (ha1 : a ≠ midLastF) (ha2 : a ≠ midLog) :=
    (raise_reg 0x841 (d % 64 + 0 % 128 * 2 ^ 6 + 0 % 128 * 2 ^ 13) v hlio.rise a ha1 ha2).trans (hlio.regs a ha)
  refine ⟨(raise_out _ _ _).trans hlio.out, ?_, ?_⟩
  · exact (getF_congr (hreg safUnlock (by decide) (by decide) (by decide)) 7 6).trans
      ((getF_setF_ne _ _ _ _ _ _ _ _ h2 hne.symm).trans ((getF_setF_ne _ _ _ _ _ _ _ _ h1 hne.symm).trans hres))
  · exact (getF_congr (hreg (safState d) hlt hl1 hl2) 2 0).trans (getF_setF_same _ _ _ _ _ h2 (by decide) (by decide))

/-! FPLINE (R459). -/

/-- Words written to distinct registers. -/
theorem writeLine_reads (ws : List Word) : ∀ (adr : Nat → Nat) (u : State), Function.Injective adr → rising u.regs →
    let t := (ws.mapIdx fun j w => (adr j, w)).foldl (fun t x => setReg t x.1 x.2) u
    (∀ j < ws.length, reg t (adr j) = ws.getD j 0) ∧ (∀ a, (∀ j < ws.length, a ≠ adr j) → reg t a = reg u a)
      ∧ t.out = u.out ∧ t.mem = u.mem := by
  induction ws with
  | nil => exact fun _ _ _ _ => ⟨nofun, fun _ _ => rfl, rfl, rfl⟩
  | cons w ws ih =>
    intro adr u hadr hr
    obtain ⟨hread, hkeep, hout, hmem⟩ := ih (fun j => adr (j + 1)) (setReg u (adr 0) w) (fun i j hij => Nat.succ.inj (hadr hij))
      (setReg_rising _ _ _ hr)
    rw [List.mapIdx_cons, List.foldl_cons]
    refine ⟨fun j hj => ?_, fun a ha => ?_, hout, hmem⟩
    · cases j with
      | zero =>
        rw [hkeep _ fun j _ hj => absurd (hadr hj) (by omega), reg_setReg_same _ _ _ hr]
        rfl
      | succ j => exact hread j (by simpa using hj)
    · rw [hkeep _ fun j hj => ha (j + 1) (by simpa using hj), reg_setReg_ne _ _ _ _ hr (ha 0 (by simp))]

/-! ARM (R195). -/

theorem refuseChange_reports {u : State} (hr : rising u.regs) {r : Nat} (hlt : r < 256) :
    let t := refuseChange r u
    raised 0x230 0 u t ∧ getF t dayChg 3 0 = 5 ∧ getF t dayChg 11 4 = r ∧ t.day = u.day ∧ t.out = u.out := by
  have h1 := setF_rising u dayChg 11 4 r hr
  have h2 := setF_rising _ dayChg 3 0 5 h1
  have hreg := raise_reg 0x230 0 _ h2 dayChg (by decide) (by decide)
  refine ⟨raise_raised _ _ h2 rfl rfl, (getF_congr hreg 3 0).trans (getF_setF_same _ _ _ _ _ h1 (by decide) (by decide)), ?_,
    raise_day _ _ _, raise_out _ _ _⟩
  rw [refuseChange, getF_congr hreg 11 4, getF_setF_other _ _ _ _ _ _ _ h1 (by decide) (by decide) (by decide) (by decide),
    getF_setF_same _ _ _ _ _ hr (by decide) (by decide)]
  exact Nat.mod_eq_of_lt hlt

theorem armReason_lt {u : State} {a r : Nat} {same : Bool} (h : armReason u a same = some r) : r < 256 := by
  simp only [armReason] at h
  split_ifs at h <;> cases h <;> decide

/-- Outside ACTIVE and BENCH there is a reason. -/
theorem armReason_unserved {u : State} (hm : u.mst ≠ .active) (hb : u.mst ≠ .bench) (a : Nat) (same : Bool) :
    ∃ r, armReason u a same = some r := by
  have hs : (!(u.mst == .active || u.mst == .bench)) = true := by simp [hm, hb]
  simp only [armReason]
  split_ifs <;> exact ⟨_, rfl⟩

/-- Arming streams changes no register, no day and nothing that leaves the module. -/
theorem armStreams_frame (ws : List Word) (u : State) :
    (armStreams ws u).regs = u.regs ∧ (armStreams ws u).day = u.day ∧ (armStreams ws u).out = u.out := by
  unfold armStreams forUpto
  generalize List.range 8 = l
  induction l generalizing u with
  | nil => exact ⟨rfl, rfl, rfl⟩
  | cons i l ih =>
    rw [List.foldl_cons]
    obtain ⟨h1, h2, h3⟩ := ih (if (Config.phasorSection ws).streams[i]? = streamCfg u i then u
      else modStream i (fun x => { x with armedAt := true }) u)
    rw [h1, h2, h3]
    split <;> exact ⟨rfl, rfl, rfl⟩

/-- The state in which day `a` is the change day. -/
def changeSet (a : Nat) (u : State) : State := modDay (fun d => { d with changeDay := some a, changeDone := false }) u

theorem armChange_reads {u : State} (hr : rising u.regs) (a : Nat) :
    let t := armChange a u
    t.out = u.out ∧ t.day.changeDay = some a ∧ getF t dayChg 3 0 = 2 ∧ reg t dayChgDay = word (a % 2 ^ 36)
      ∧ regsKept [dayChg, dayChgDay] u t := by
  have hstreams : ∃ v, armChange a u = setReg (setF v dayChg 3 0 2) dayChgDay (word (a % 2 ^ 36)) ∧ v.regs = u.regs ∧ v.out = u.out
      ∧ v.day.changeDay = some a := by
    refine ⟨_, rfl, ?_⟩
    obtain ⟨h1, h2, h3⟩ := armStreams_frame (cfgSection (changeImg (changeSet a u)) 7) (changeSet a u)
    split
    · exact ⟨h1, h3, congrArg Day.changeDay h2⟩
    · exact ⟨rfl, rfl, rfl⟩
  obtain ⟨v, hx, hregs, hout, hday⟩ := hstreams
  have h1 : rising v.regs := by rw [hregs]; exact hr
  have h2 := setF_rising v dayChg 3 0 2 h1
  rw [hx]
  refine ⟨hout, hday, ?_, reg_setReg_same _ _ _ h2, fun b hb => ?_⟩
  · exact (getF_congr (reg_setReg_ne _ _ _ _ h2 (by decide)) 3 0).trans (getF_setF_same _ _ _ _ _ h1 (by decide) (by decide))
  · simp only [List.mem_cons, List.not_mem_nil, or_false, not_or] at hb
    rw [reg_setReg_ne _ _ _ _ h2 hb.2, reg_setF_ne _ _ _ _ _ _ h1 hb.1]
    exact congrFun (reg_congr hregs) b

section
variable (se : List (Nat × HostSess)) (ne : NetUse) (u : State)

/-- The state of a served request after a free value has been drawn. -/
def drawing : State := bump (bookkept se ne u)

theorem altersLength_drawing (img : List Word) : altersLength (drawing se ne u) img = altersLength u img := rfl
theorem loaderLimit_drawing : loaderLimit (drawing se ne u) = loaderLimit u := rfl
theorem clusterContent_drawing (img : List Word) (c : Nat) : clusterContent (drawing se ne u) img c = clusterContent u img c := rfl
theorem partnerReady_drawing : partnerReady (drawing se ne u) = partnerReady u := rfl
theorem changeRefused_drawing (img : List Word) : changeRefused (drawing se ne u) img = changeRefused u img := rfl
theorem altersStore_drawing (img : List Word) (lo hi : Nat) : altersStore (drawing se ne u) img lo hi = altersStore u img lo hi := rfl
theorem ratesNow_drawing (t : List Word) : ratesNow (drawing se ne u) t = ratesNow u t := rfl
theorem budgetsOk_drawing (maps t : List Word) : budgetsOk (drawing se ne u) maps t = budgetsOk u maps t := rfl

theorem settingsAfter_drawing (img : List Word) : settingsAfter (drawing se ne u) img = drawing se ne (settingsAfter u img) := by
  unfold settingsAfter
  induction (recordWords (cfgSection img 4)).getD [] generalizing u with
  | nil => rfl
  | cons x l ih => exact ih (setReg u x.1 x.2)

theorem changeTableBad_drawing (img : List Word) : changeTableBad (drawing se ne u) img = changeTableBad u img := by
  unfold changeTableBad
  simp only [settingsAfter_drawing, budgetsOk_drawing, ratesNow_drawing]
  rfl

/-- Why a change is refused depends on neither sessions nor free values. -/
theorem armReason_drawing (a : Nat) (same : Bool) : armReason (drawing se ne u) a same = armReason u a same := by
  unfold armReason
  simp only [altersLength_drawing, loaderLimit_drawing, clusterContent_drawing, partnerReady_drawing, changeRefused_drawing,
    altersStore_drawing, changeTableBad_drawing, show changeImg (drawing se ne u) = changeImg u from rfl]
  rfl
end

/-! RESTART (R475). -/

/-- The module state is that of `u`, and what has left the module since went after what had left it. -/
def LeavesAfter (u t : State) : Prop := t.mst = u.mst ∧ ∃ o, t.out = u.out ++ o

theorem LeavesAfter.refl (u : State) : LeavesAfter u u := ⟨rfl, [], (List.append_nil _).symm⟩

theorem LeavesAfter.emit {u t : State} (h : LeavesAfter u t) (x : Out) : LeavesAfter u (emit x t) := by
  obtain ⟨hm, o, ho⟩ := h
  exact ⟨hm, o ++ [x], by rw [Machine.emit, ho, List.append_assoc]⟩

theorem LeavesAfter.foldl {α : Type} {f : State → α → State} (hf : ∀ u t a, LeavesAfter u t → LeavesAfter u (f t a))
    (l : List α) : ∀ {u t : State}, LeavesAfter u t → LeavesAfter u (l.foldl f t) := by
  induction l with
  | nil => exact fun h => h
  | cons a l ih => exact fun h => ih (hf _ _ a h)

theorem endGrant_out (s : State) : (endGrant s).mst = s.mst ∧ (endGrant s).out = s.out := ⟨rfl, rfl⟩

theorem dropSess_out (n : Nat) (s : State) : (dropSess n s).mst = s.mst ∧ (dropSess n s).out = s.out := by
  unfold dropSess
  extract_lets s1 s2 s3
  have h3 : s3.mst = s.mst ∧ s3.out = s.out := ⟨rfl, rfl⟩
  clear_value s3
  split
  · split
    · exact ⟨(endGrant_out s3).1.trans h3.1, (endGrant_out s3).2.trans h3.2⟩
    · exact h3
  · exact h3

theorem LeavesAfter.closeSess {u t : State} (h : LeavesAfter u t) (r n : Nat) : LeavesAfter u (closeSess r n t) := by
  obtain ⟨hm, o, ho⟩ := h.emit (.notice n 2 0 0 [word r])
  obtain ⟨hm1, ho1⟩ := dropSess_out n (Machine.emit (.notice n 2 0 0 [word r]) t)
  exact ⟨hm1.trans hm, o, ho1.trans ho⟩

theorem closeAll_leaves (r : Nat) (u : State) : LeavesAfter u (closeAll r u) :=
  LeavesAfter.foldl (fun _ _ x h => h.closeSess r x.1) _ (LeavesAfter.refl u)

theorem stateNotices_leaves (u : State) : LeavesAfter u (stateNotices u) :=
  LeavesAfter.foldl (fun _ _ _ h => h.emit _) _ (LeavesAfter.refl u)

theorem applyHw_leaves (u : State) : LeavesAfter u (applyHw u) := by
  have h : LeavesAfter u (u.tk.hw.foldl (fun t x =>
      if u.tk.wrote.contains x.1 then setReg t x.1 ((reg t x.1 &&& ~~~x.2.1) ||| x.2.2) else t) u) :=
    LeavesAfter.foldl (fun _ _ _ h => by split; exacts [h, h]) _ (LeavesAfter.refl u)
  exact h

/-- What a reset clears (R475), with the module state, the state before and what has left the module. -/
structure Restarted (u t : State) : Prop where
  mst : t.mst = u.mst
  mlast : t.mlast = u.mlast
  out : t.out = u.out
  sess : t.sess = []
  run : t.day.run = false
  mem : t.mem = []
  eng : t.eng = []
  waitEnd : t.boot.waitEnd = none

theorem resetCore_restarted (u : State) : Restarted u (resetCore u) := ⟨rfl, rfl, rfl, rfl, rfl, rfl, rfl, rfl⟩

theorem internalReset_restarted (u : State) : Restarted u (internalReset u) := by
  unfold internalReset
  split
  · obtain ⟨hm, hl, ho, hs, hd, hme, he, hw⟩ := resetCore_restarted (raise 0xA23 (sessDetail u) u)
    generalize resetCore (raise 0xA23 (sessDetail u) u) = v at *
    exact ⟨hm.trans (raise_mst _ _ _), hl.trans (raise_mlast _ _ _), ho.trans (raise_out _ _ _), hs, hd, hme, he, hw⟩
  · exact resetCore_restarted u

theorem restart_restarted (u : State) : Restarted { closeAll 5 (applyHw u) with mst := .daybreak, mlast := mstCode u.mst } (restart u) := by
  have hm : (closeAll 5 (applyHw u)).mst = u.mst := (closeAll_leaves 5 _).1.trans (applyHw_leaves u).1
  obtain ⟨-, -, ho, hs, hd, hme, he, hw⟩ := internalReset_restarted (closeAll 5 (applyHw u))
  rw [restart]
  exact ⟨rfl, congrArg mstCode hm, ho, hs, hd, hme, he, hw⟩

theorem retryStart_restarted (u : State) : Restarted (stateNotices { u with mst := .daybreak, mlast := 1 }) (retryStart u) :=
  internalReset_restarted _

theorem stateNotices_mlast (u : State) : (stateNotices u).mlast = u.mlast := by
  have hm := congrArg State.mlast ((Kept.refl .engine u).stateNotices.custody rfl)
  exact hm

theorem LeavesAfter.trans {u v t : State} (h : LeavesAfter u v) (h' : LeavesAfter v t) : LeavesAfter u t := by
  obtain ⟨hm, o, ho⟩ := h
  obtain ⟨hm', o', ho'⟩ := h'
  exact ⟨hm'.trans hm, o ++ o', by rw [ho', ho, List.append_assoc]⟩

/-! The requests. -/

section
variable {q : Rq} {s : State}

theorem stop_served {flags : Word} (hm : mayServe s q (HostReq.stop flags).roles true) (hf : flags.toNat < 2) (hin : inService s = true) :
    ∃ se ne, exec (.stop q flags) s = .next (serveStop 0x020 (flags == 1) false q (bookkept se ne s)) :=
  arrive_served_in (h := .stop flags) (v := fun u => { form := flags.toNat < 2, inState := inService u }) _ hm (fun _ => rfl)
    fun se ne => by rw [show inService (bookkept se ne s) = true from hin, decide_eq_true hf]

/-- A stop for the next midnight. -/
theorem stop_midnight {flags : Word} (hm : mayServe s q (HostReq.stop flags).roles true) (hf : flags.toNat < 2) (hin : inService s = true)
    (hact : s.mst ≠ .active ∨ (flags == 1) = true) (hq : s.stopReq = none) :
    ∃ t, exec (.stop q flags) s = .next t ∧ answered s t q 0x020 1 [word ((s.day.n + 1) % 2 ^ 36)]
      ∧ t.stopReq = some (flags == 1, q.sess.val, q.tag) ∧ t.stopActivate = false ∧ t.regs = s.regs ∧ t.mst = s.mst := by
  obtain ⟨se, ne, hexec⟩ := stop_served hm hf hin
  rw [serveStop_midnight (u := bookkept se ne s) hact hq] at hexec
  exact ⟨_, hexec, rfl, rfl, rfl, rfl, rfl⟩

theorem stop_alone (hw : s.wf) (hm : mayServe s q [.operator] true) (hact : s.mst = .active) (hp : partnerReady s = false) :
    ∃ t, exec (.stop q 0) s = .next t ∧ answered s t q 0x020 0x030 [word 0x712, 2]
      ∧ t.stopReq = s.stopReq ∧ raised 0x712 (dayN s % 2 ^ 36) s t ∧ getF t pairSwSt 11 4 = 2 := by
  obtain ⟨se, ne, hexec⟩ := stop_served (flags := 0) hm (by decide) (by rw [inService, hact]; rfl)
  rw [show ((0 : Word) == 1) = false from rfl, serveStop_alone (u := bookkept se ne s) hact hp] at hexec
  obtain ⟨hraised, hread, -, hout, -, hstop⟩ :=
    refuseSwitch_reports (u := bookkept se ne s) ((wf_iff_canonical s).1 hw).regs (r := 2) (by decide)
  exact ⟨_, hexec, congrArg (· ++ [_]) hout, hstop, hraised, hread⟩

theorem stop_switches (hw : s.wf) (hm : mayServe s q [.operator] true) (hact : s.mst = .active) (hp : partnerReady s = true)
    (hd : reg s pairSwDay = 0) (hq : s.stopReq = none) :
    ∃ t, exec (.stop q 0) s = .next t ∧ answered s t q 0x020 1 [word ((s.day.n + 2) % 2 ^ 36) + 1]
      ∧ reg t pairSwDay = word ((s.day.n + 2) % 2 ^ 36) ∧ getF t pairSwSt 3 0 = 1 ∧ t.stopReq = some (false, q.sess.val, q.tag)
      ∧ regsKept [pairSwDay, pairSwSt] s t := by
  obtain ⟨se, ne, hexec⟩ := stop_served (flags := 0) hm (by decide) (by rw [inService, hact]; rfl)
  obtain ⟨hday, hst, hregs⟩ := armSwitch_reads (u := bookkept se ne s) ((wf_iff_canonical s).1 hw).regs (s.day.n + 2)
  rw [show ((0 : Word) == 1) = false from rfl, serveStop_switch (u := bookkept se ne s) hact hp hd hq] at hexec
  refine ⟨_, hexec, ?_, hday, hst, rfl, hregs⟩
  exact congrArg (fun w => s.out ++ [Out.response q.sess q.tag 0x020 1 [w + 1]]) hday

theorem switch_served (hm : mayServe s q [.operator] true) (w : Word) :
    ∃ se ne, exec (.switch q w) s = .next (match switchReason s (fullDay s w) with
      | some 1 => respond q 0x022 stState [] (refuseSwitch 1 (bookkept se ne s))
      | some r => refused q 0x022 0x712 r (refuseSwitch r (bookkept se ne s))
      | none => respond q 0x022 stAccepted [w + 1]
        (modLink (fun l => { l with swOwner := some (q.sess.val, q.tag) }) (armSwitch (fullDay s w) (bookkept se ne s)))) :=
  arrive_served (h := .switch w) true true _ hm (fun _ => rfl) rfl rfl

theorem switch_armed (hw : s.wf) (hm : mayServe s q [.operator] true) (w : Word) (hr : switchReason s (fullDay s w) = none) :
    ∃ t, exec (.switch q w) s = .next t ∧ answered s t q 0x022 1 [w + 1] ∧ reg t pairSwDay = w ∧ getF t pairSwSt 3 0 = 1
      ∧ t.link.swOwner = some (q.sess.val, q.tag) ∧ regsKept [pairSwDay, pairSwSt] s t := by
  obtain ⟨se, ne, hexec⟩ := switch_served hm w
  obtain ⟨hday, hst, hregs⟩ := armSwitch_reads (u := bookkept se ne s) ((wf_iff_canonical s).1 hw).regs (fullDay s w)
  rw [hr] at hexec
  exact ⟨_, hexec, rfl, hday.trans (word_fullDay s w), hst, rfl, hregs⟩

theorem switch_refused (hw : s.wf) (hm : mayServe s q [.operator] true) (w : Word) (r : Nat) (hact : s.mst = .active)
    (hr : switchReason s (fullDay s w) = some r) :
    ∃ t, exec (.switch q w) s = .next t ∧ answered s t q 0x022 0x030 [word 0x712, word r] ∧ reg t pairSwDay = reg s pairSwDay
      ∧ raised 0x712 (dayN s % 2 ^ 36) s t ∧ t.link = s.link := by
  obtain ⟨se, ne, hexec⟩ := switch_served hm w
  obtain ⟨hraised, -, hday, hout, hlink, -⟩ :=
    refuseSwitch_reports (u := bookkept se ne s) ((wf_iff_canonical s).1 hw).regs (switchReason_lt hr)
  have hne := switchReason_active hact hr
  rw [hr] at hexec
  split at hexec
  · next h => exact absurd (Option.some.inj h) hne
  · next h =>
    obtain rfl := Option.some.inj h
    exact ⟨_, hexec, congrArg (· ++ [_]) hout, hday, hraised, hlink⟩
  · next h => cases h

theorem switch_elsewhere (hw : s.wf) (hm : mayServe s q [.operator] true) (w : Word) (hact : s.mst ≠ .active) :
    ∃ t, exec (.switch q w) s = .next t ∧ answered s t q 0x022 0x011 [] ∧ raised 0x712 (dayN s % 2 ^ 36) s t
      ∧ getF t pairSwSt 11 4 = 1 ∧ reg t pairSwDay = reg s pairSwDay ∧ t.link = s.link := by
  obtain ⟨se, ne, hexec⟩ := switch_served hm w
  obtain ⟨hraised, hread, hday, hout, hlink, -⟩ :=
    refuseSwitch_reports (u := bookkept se ne s) ((wf_iff_canonical s).1 hw).regs (r := 1) (by decide)
  have hr : switchReason s (fullDay s w) = some 1 := if_pos (by simpa using hact)
  rw [hr] at hexec
  exact ⟨_, hexec, congrArg (· ++ [_]) hout, hraised, hread, hday, hlink⟩

/-- R475: RESTART is served in STOPPED and between attempts. -/
def restartable (u : State) : Bool := u.mst == .stopped || (u.mst == .daybreak && u.boot.waitEnd.isSome)

theorem restart_served (hm : mayServe s q [.operator] true) (hin : restartable s = true) :
    ∃ se ne, exec (.restart q) s = .next (if s.mst = .stopped then restart (respond q 0x021 stOk [] (bookkept se ne s))
      else retryStart (respond q 0x021 stOk [] (bookkept se ne s))) :=
  arrive_served_in (h := .restart) (v := fun u => { inState := restartable u }) _ hm (fun _ => rfl)
    fun se ne => by rw [show restartable (bookkept se ne s) = true from hin]

/-- What has left the module after `u` answered and what followed. -/
theorem answered_first {u t : State} {x : Out} (hu : u.out = s.out ++ [x]) (h : ∃ o, t.out = u.out ++ o) :
    ∃ o, t.out = s.out ++ x :: o := by
  obtain ⟨o, ho⟩ := h
  exact ⟨o, by rw [ho, hu, List.append_assoc]; rfl⟩

theorem restart_stopped (hm : mayServe s q [.operator] true) (hst : s.mst = .stopped) :
    ∃ t, exec (.restart q) s = .next t ∧ t.mst = .daybreak ∧ t.mlast = 5 ∧ t.sess = []
      ∧ (∃ o, t.out = s.out ++ .response q.sess q.tag 0x021 0 [] :: o) ∧ t.day.run = false ∧ t.mem = [] ∧ t.eng = [] := by
  obtain ⟨se, ne, hexec⟩ := restart_served hm (by rw [restartable, hst]; rfl)
  rw [if_pos hst] at hexec
  have hr := restart_restarted (respond q 0x021 stOk [] (bookkept se ne s))
  have hl := (applyHw_leaves (respond q 0x021 stOk [] (bookkept se ne s))).trans (closeAll_leaves 5 _)
  refine ⟨_, hexec, hr.mst, hr.mlast.trans (congrArg mstCode hst), hr.sess, ?_, hr.run, hr.mem, hr.eng⟩
  obtain ⟨o, ho⟩ := hl.2
  exact answered_first rfl ⟨o, hr.out.trans ho⟩

theorem restart_waiting (hm : mayServe s q [.operator] true) (hst : s.mst = .daybreak) (hwait : s.boot.waitEnd ≠ none) :
    ∃ t, exec (.restart q) s = .next t ∧ t.mst = .daybreak ∧ t.mlast = 1 ∧ t.sess = []
      ∧ (∃ o, t.out = s.out ++ .response q.sess q.tag 0x021 0 [] :: o) ∧ t.day.run = false ∧ t.boot.waitEnd = none := by
  obtain ⟨se, ne, hexec⟩ := restart_served hm (by rw [restartable, hst, Option.isSome_iff_ne_none.2 hwait]; rfl)
  rw [if_neg (by rw [hst]; decide)] at hexec
  have hr := retryStart_restarted (respond q 0x021 stOk [] (bookkept se ne s))
  have hl := stateNotices_leaves { respond q 0x021 stOk [] (bookkept se ne s) with mst := .daybreak, mlast := 1 }
  refine ⟨_, hexec, hr.mst.trans hl.1, hr.mlast.trans (stateNotices_mlast _), hr.sess, ?_, hr.run, hr.waitEnd⟩
  obtain ⟨o, ho⟩ := hl.2
  exact answered_first rfl ⟨o, hr.out.trans ho⟩

/-- The answer to UNLOCK after the attempt that led to `t`. -/
def unlockAnswer (q : Rq) (t : State) : State :=
  if getF t safUnlock 7 6 = 1 then respond q 0x023 stOk [] t
  else refused q 0x023 (Config.freeNat t.fresh % 4096) (getF t safUnlock 7 6) (bump t)

theorem unlock_served (hm : mayServe s q [.operator] true) (hact : s.mst = .active ∨ s.mst = .bench) {d : Nat} (hd : d < 64) :
    ∃ se ne, exec (.hostUnlock q d) s = .next (unlockAnswer q (unlock d (bookkept se ne s))) :=
  arrive_served_in (h := .unlock d) (v := fun u => { inState := u.mst == .active || u.mst == .bench, range := d < 64 })
    (fun u => unlockAnswer q (unlock d u)) hm (fun _ => rfl) fun se ne => by
      rw [show ((bookkept se ne s).mst == .active || (bookkept se ne s).mst == .bench) = true by
        rcases hact with h | h <;> rw [show (bookkept se ne s).mst = s.mst from rfl, h] <;> rfl, decide_eq_true hd]

theorem unlock_granted (hw : s.wf) (hm : mayServe s q [.operator] true) (hact : s.mst = .active ∨ s.mst = .bench) {d : Nat} (hd : d < 64)
    (h4 : drvState s d = 4) (hc : causePersists s d = false) :
    ∃ t, exec (.hostUnlock q d) s = .next t ∧ answered s t q 0x023 0 [] ∧ drvState t d = 3 ∧ getF t safUnlock 7 6 = 1 := by
  obtain ⟨se, ne, hexec⟩ := unlock_served hm hact hd
  obtain ⟨hout, hres, hst⟩ := unlock_releases (u := bookkept se ne s) ((wf_iff_canonical s).1 hw).regs hd h4 hc
  rw [unlockAnswer, if_pos hres] at hexec
  exact ⟨_, hexec, congrArg (· ++ [_]) hout, hst, hres⟩

/-- The answer where SAF_UNLOCK shows another result. -/
theorem unlock_denied (hw : s.wf) (hm : mayServe s q [.operator] true) (hact : s.mst = .active ∨ s.mst = .bench) {d n : Nat} (hd : d < 64)
    (hn : n < 4) (h1 : n ≠ 1) (hx : ∀ se ne, unlock d (bookkept se ne s) = setF (bookkept se ne s) safUnlock 7 6 n) :
    ∃ t f, exec (.hostUnlock q d) s = .next t ∧ answered s t q 0x023 0x030 [f, word n] ∧ drvState t d = drvState s d
      ∧ getF t safUnlock 7 6 = n ∧ regsKept [safUnlock] s t := by
  obtain ⟨se, ne, hexec⟩ := unlock_served hm hact hd
  obtain ⟨hres, hst, hregs⟩ := unlock_result (u := bookkept se ne s) ((wf_iff_canonical s).1 hw).regs hd hn
  rw [unlockAnswer, hx, if_neg (by rw [hres]; exact h1), hres] at hexec
  exact ⟨_, _, hexec, rfl, hst, hres, hregs⟩

/-! FPLINE. -/

theorem fpdLine_injective (n : Nat) : Function.Injective (fpdLine n) := by
  intro i j h
  simp only [fpdLine] at h
  omega

theorem fpline_written (hw : s.wf) (hm : mayServe s q [.operator] true) {n : Nat} {ws : List Word} (hlen : ws.length = 8)
    (hch : ∀ w ∈ ws, w &&& ~~~(word fpdChars) = 0) (h4 : 4 ≤ n) (h11 : n ≤ 11) :
    ∃ t, exec (.fpline q n ws) s = .next t ∧ answered s t q 0x024 0 [] ∧ (∀ j < 8, reg t (fpdLine n j) = ws.getD j 0)
      ∧ regsKept ((List.range 8).map (fpdLine n)) s t ∧ t.mem = s.mem := by
  obtain ⟨se, ne, hexec⟩ := arrive_served (h := .fpline n ws) (ws.length == 8 && ws.all (fun w => w &&& ~~~(word fpdChars) == 0))
    (4 ≤ n && n ≤ 11) _ hm (fun _ => rfl) (by simpa [hlen] using hch) (by simp [h4, h11])
  obtain ⟨hread, hkeep, hout, hmem⟩ :=
    writeLine_reads ws (fpdLine n) (bookkept se ne s) (fpdLine_injective n) ((wf_iff_canonical s).1 hw).regs
  refine ⟨_, hexec, congrArg (· ++ [_]) hout, fun j hj => hread j (by omega), fun a ha => ?_, hmem⟩
  exact hkeep a fun j hj he => ha (List.mem_map.2 ⟨j, List.mem_range.2 (by omega), he.symm⟩)

theorem fpline_outOfRange (hm : mayServe s q [.operator] true) {n : Nat} {ws : List Word} (hlen : ws.length = 8)
    (hch : ∀ w ∈ ws, w &&& ~~~(word fpdChars) = 0) (hn : n < 4 ∨ 11 < n) :
    ∃ t, exec (.fpline q n ws) s = .next t ∧ onlyAnswers s t ∧ answered s t q 0x024 0x022 [] := by
  obtain ⟨se, ne, hexec⟩ := arrive_outOfRange (h := .fpline n ws) (ws.length == 8 && ws.all (fun w => w &&& ~~~(word fpdChars) == 0))
    (4 ≤ n && n ≤ 11) _ hm (fun _ => rfl) (by simpa [hlen] using hch) (by simp; omega)
  exact ⟨_, hexec, respond_answers ..⟩

theorem fpline_misformed (hm : mayServe s q [.operator] true) {n : Nat} {ws : List Word}
    (hbad : ws.length ≠ 8 ∨ ∃ w ∈ ws, w &&& ~~~(word fpdChars) ≠ 0) :
    ∃ t, exec (.fpline q n ws) s = .next t ∧ onlyAnswers s t ∧ answered s t q 0x024 0x020 [] := by
  have hform : (ws.length == 8 && ws.all (fun w => w &&& ~~~(word fpdChars) == 0)) = false := by
    rw [Bool.and_eq_false_iff, List.all_eq_false]
    exact hbad.imp (by simp) fun ⟨w, hw, h⟩ => ⟨w, hw, by simpa using h⟩
  obtain ⟨se, ne, hexec⟩ := arrive_misformed (h := .fpline n ws) _ (4 ≤ n && n ≤ 11) _ hm (fun _ => rfl) hform
  exact ⟨_, hexec, respond_answers ..⟩

/-! ARM. -/

theorem arm_served (hm : mayServe s q [.engineer] true) (w : Word) :
    ∃ se ne, exec (.arm q w) s = .next (serveArm q w (bookkept se ne s)) :=
  arrive_served (h := .arm w) true true _ hm (fun _ => rfl) rfl rfl

/-- The reason against the change that ARM names, if there is one. -/
def armVerdict (w : Word) (u : State) : Option Nat :=
  if u.boot.staged.isNone then some (if u.mst == .active || u.mst == .bench then 7 else 6)
  else armReason (bump u) (fullDay u w) (Config.freeNat u.fresh % 2 == 1)

theorem serveArm_refused {u : State} {w : Word} {r : Nat} (hr : armVerdict w u = some r) :
    serveArm q w u = if u.mst == .active || u.mst == .bench then refused q 0x035 0x230 r (refuseChange r (bump u))
      else respond q 0x035 stState [] (refuseChange r (bump u)) := by
  show (match armVerdict w u with | some _ => _ | none => _) = _
  rw [hr]

theorem serveArm_armed {u : State} {w : Word} (hr : armVerdict w u = none) :
    serveArm q w u = respond q 0x035 stAccepted [w]
      { armChange (fullDay u w) (bump u) with armReq := some (q.sess.val, q.tag) } := by
  show (match armVerdict w u with | some _ => _ | none => _) = _
  rw [hr]
  rfl

theorem armVerdict_elsewhere {u : State} (h1 : u.mst ≠ .active) (h2 : u.mst ≠ .bench) (w : Word) :
    ∃ r < 256, armVerdict w u = some r := by
  unfold armVerdict
  split
  · exact ⟨_, by split <;> decide, rfl⟩
  · obtain ⟨r, hr⟩ := armReason_unserved (u := bump u) h1 h2 (fullDay u w) (Config.freeNat u.fresh % 2 == 1)
    exact ⟨r, armReason_lt hr, hr⟩

theorem armVerdict_unstaged {u : State} (hact : u.mst = .active ∨ u.mst = .bench) (hst : u.boot.staged = none) (w : Word) :
    armVerdict w u = some 7 := by
  rw [armVerdict, hst]
  rcases hact with h | h <;> rw [h] <;> rfl

theorem arm_elsewhere (hw : s.wf) (hm : mayServe s q [.engineer] true) (h1 : s.mst ≠ .active) (h2 : s.mst ≠ .bench) (w : Word) :
    ∃ t, exec (.arm q w) s = .next t ∧ answered s t q 0x035 0x011 [] ∧ raised 0x230 0 s t ∧ getF t dayChg 3 0 = 5
      ∧ t.day.changeDay = s.day.changeDay := by
  obtain ⟨se, ne, hexec⟩ := arm_served hm w
  obtain ⟨r, hlt, hr⟩ := armVerdict_elsewhere (u := bookkept se ne s) h1 h2 w
  obtain ⟨hraised, hst, -, hday, hout⟩ := refuseChange_reports (u := bump (bookkept se ne s)) ((wf_iff_canonical s).1 hw).regs hlt
  have hserved : ¬ ((bookkept se ne s).mst == .active || (bookkept se ne s).mst == .bench) = true := by simpa using ⟨h1, h2⟩
  rw [serveArm_refused hr, if_neg hserved] at hexec
  exact ⟨_, hexec, congrArg (· ++ [_]) hout, hraised, hst, congrArg Day.changeDay hday⟩

theorem arm_unstaged (hw : s.wf) (hm : mayServe s q [.engineer] true) (hact : s.mst = .active ∨ s.mst = .bench) (w : Word)
    (hst : s.boot.staged = none) :
    ∃ t, exec (.arm q w) s = .next t ∧ answered s t q 0x035 0x030 [word 0x230, 7] ∧ raised 0x230 0 s t ∧ getF t dayChg 3 0 = 5
      ∧ getF t dayChg 11 4 = 7 ∧ t.day.changeDay = s.day.changeDay := by
  obtain ⟨se, ne, hexec⟩ := arm_served hm w
  obtain ⟨hraised, hchg, hreason, hday, hout⟩ :=
    refuseChange_reports (u := bump (bookkept se ne s)) ((wf_iff_canonical s).1 hw).regs (r := 7) (by decide)
  have hserved : ((bookkept se ne s).mst == .active || (bookkept se ne s).mst == .bench) = true := by
    rcases hact with h | h <;> rw [show (bookkept se ne s).mst = s.mst from rfl, h] <;> rfl
  rw [serveArm_refused (armVerdict_unstaged (u := bookkept se ne s) hact hst w), if_pos hserved] at hexec
  exact ⟨_, hexec, congrArg (· ++ [_]) hout, hraised, hchg, hreason, congrArg Day.changeDay hday⟩

theorem armVerdict_none {w : Word} (hst : s.boot.staged ≠ none) (hr : ∀ b, armReason s (fullDay s w) b = none)
    (se : List (Nat × HostSess)) (ne : NetUse) : armVerdict w (bookkept se ne s) = none := by
  have hsome : (bookkept se ne s).boot.staged.isNone = false := Option.isNone_eq_false_iff.2 (Option.isSome_iff_ne_none.2 hst)
  rw [armVerdict, hsome, if_neg (by decide)]
  exact (armReason_drawing se ne s _ _).trans (hr _)

theorem arm_armed (hw : s.wf) (hm : mayServe s q [.engineer] true) (w : Word) (hst : s.boot.staged ≠ none)
    (hr : ∀ b, armReason s (fullDay s w) b = none) :
    ∃ t, exec (.arm q w) s = .next t ∧ answered s t q 0x035 1 [w] ∧ t.day.changeDay = some (fullDay s w) ∧ getF t dayChg 3 0 = 2
      ∧ reg t dayChgDay = word (fullDay s w % 2 ^ 36) ∧ t.armReq = some (q.sess.val, q.tag) ∧ regsKept [dayChg, dayChgDay] s t := by
  obtain ⟨se, ne, hexec⟩ := arm_served hm w
  obtain ⟨hout, hday, hchg, hchgDay, hregs⟩ :=
    armChange_reads (u := bump (bookkept se ne s)) ((wf_iff_canonical s).1 hw).regs (fullDay s w)
  rw [serveArm_armed (armVerdict_none hst hr se ne)] at hexec
  rw [show fullDay (bookkept se ne s) w = fullDay s w from rfl] at hexec
  generalize armChange (fullDay s w) (bump (bookkept se ne s)) = v at hexec hout hday hchg hchgDay hregs
  exact ⟨_, hexec, congrArg (· ++ [_]) hout, hday, hchg, hchgDay, rfl, hregs⟩

end

/-- Settles O41: each command is served after the bookkeeping of its session, by the state, the partner and the reason it finds. -/
theorem commandingRequestsAct : Obligations.CommandingRequestsAct := by
  unfold Obligations.CommandingRequestsAct
  intro q s hw
  refine ⟨fun hm => ⟨?_, stop_alone hw hm, stop_switches hw hm, restart_stopped hm, ?_, switch_refused hw hm,
    switch_elsewhere hw hm, restart_waiting hm, fun d hd hact => ⟨unlock_granted hw hm hact hd, ?_, ?_⟩⟩, ?_,
    fun hm n ws => ⟨fun hlen hch => ⟨fpline_written hw hm hlen hch, fpline_outOfRange hm hlen hch⟩, fpline_misformed hm⟩,
    arm_elsewhere hw, fun hm hact w => ⟨fun p hp hr => arm_armed hw hm w (by rw [hp]; nofun) hr, arm_unstaged hw hm hact w⟩⟩
  · intro hst hq
    have hin : inService s = true := by rcases hst with h | h <;> rw [inService, h] <;> rfl
    exact stop_midnight (flags := 0) hm (by decide) hin (.inl (by rcases hst with h | h <;> rw [h] <;> decide)) hq
  · exact fun w _ hr => switch_armed hw hm w hr
  · intro h4 hc
    obtain ⟨t, f, hexec, hans, hst, hres, hregs⟩ := unlock_denied hw hm hact hd (n := 2) (by decide) (by decide)
      fun se ne => unlock_of_cause (u := bookkept se ne s) h4 hc
    exact ⟨t, f, hexec, hans, hst.trans h4, hres, hregs⟩
  · exact fun h4 => unlock_denied hw hm hact hd (n := 3) (by decide) (by decide) fun se ne => unlock_of_free (u := bookkept se ne s) h4
  · intro hm hact hq
    obtain ⟨t, hexec, hans, hstop, -, hregs, -⟩ :=
      stop_midnight (flags := 1) hm (by decide) (by rw [inService, hact]; rfl) (.inr rfl) hq
    exact ⟨t, hexec, hans, hstop, hregs⟩

end Sys2Proof.Machine
end

section
/-! SUPPORT. Rounding to a power of two (R47). -/

namespace Sys2Proof.Machine

/-- R47: a rounded quotient is the one below or the one above. -/
theorem roundShift_bounds (floor : Bool) (v : Int) (n : Nat) :
    v / 2 ^ n ≤ roundShift floor v n ∧ roundShift floor v n ≤ v / 2 ^ n + 1 := by
  unfold roundShift
  extract_lets q r
  split
  · omega
  · split
    · omega
    · split
      · omega
      · split <;> omega

/-- R47: without floor, what is rounded away is at most half a unit. -/
theorem roundShift_nearest (v : Int) (n : Nat) :
    2 * (v - roundShift false v n * 2 ^ n) ≤ 2 ^ n ∧ -(2 ^ n : Int) ≤ 2 * (v - roundShift false v n * 2 ^ n) := by
  have hpos : (0 : Int) < 2 ^ n := by positivity
  have hv := Int.mul_ediv_add_emod v (2 ^ n)
  have hr := Int.emod_nonneg v hpos.ne'
  have hlt := Int.emod_lt_of_pos v hpos
  unfold roundShift
  rw [if_neg Bool.false_ne_true]
  split
  · constructor <;> nlinarith
  · split
    · constructor <;> nlinarith
    · split
      · constructor <;> nlinarith
      · constructor <;> nlinarith

/-- R47: a tie goes to the even neighbour. -/
theorem roundShift_tie_even (v : Int) (n : Nat)
    (h : 2 * (v - roundShift false v n * 2 ^ n) = 2 ^ n ∨ 2 * (v - roundShift false v n * 2 ^ n) = -(2 ^ n : Int)) :
    roundShift false v n % 2 = 0 := by
  have hpos : (0 : Int) < 2 ^ n := by positivity
  have hv := Int.mul_ediv_add_emod v (2 ^ n)
  have hr := Int.emod_nonneg v hpos.ne'
  have hlt := Int.emod_lt_of_pos v hpos
  have hup : (v / 2 ^ n + 1) * 2 ^ n = 2 ^ n * (v / 2 ^ n) + 2 ^ n := by ring
  revert h
  unfold roundShift
  rw [if_neg Bool.false_ne_true]
  split
  · rw [mul_comm (v / 2 ^ n)]; omega
  · split
    · rw [hup]; omega
    · split
      · omega
      · omega

/-- Settles O8: the quotient below or above by the remainder, and at a tie the even one; with floor the quotient of the
Euclidean division. -/
theorem roundingIsHalfToEven : Obligations.RoundingIsHalfToEven := by
  unfold Obligations.RoundingIsHalfToEven
  intro v n
  have hpos : (0 : Int) < 2 ^ n := by positivity
  exact ⟨roundShift_nearest v n, fun _ => roundShift_tie_even v n, Int.ediv_mul_le v hpos.ne', Int.lt_ediv_add_one_mul_self v hpos⟩

end Sys2Proof.Machine
end

section
/-! SUPPORT. Integers as words, the results of instructions (R40, R41) and the sums (R53). -/

namespace Sys2Proof.Machine

/-- R40: an integer within the limits is kept by its word. -/
theorem wordI_toInt {v : Int} (h : -2 ^ 35 ≤ v) (h' : v < 2 ^ 35) : (wordI v).toInt = v := by
  rw [wordI, BitVec.toInt_ofInt]; exact Int.bmod_eq_of_le (by omega) (by omega)

theorem wordI_clamp_toInt (v : Int) : (wordI (clamp v)).toInt = clamp v :=
  wordI_toInt (by unfold clamp; omega) (by unfold clamp; omega)

theorem outside_iff (v : Int) : outside v = true ↔ v < -2 ^ 35 ∨ 2 ^ 35 - 1 < v := by simp [outside]

theorem word_toInt_bounds (a : Word) : -2 ^ 35 ≤ a.toInt ∧ a.toInt < 2 ^ 35 :=
  ⟨BitVec.le_toInt a, BitVec.toInt_lt⟩

theorem satWith_eq (k : Fin 3) (v : Int) : satWith k v = (wordI (clamp v), if outside v then some k else none) := by
  unfold satWith maxN maxP
  split
  · next h => rw [if_pos ((outside_iff v).2 (.inl h)), show clamp v = -2 ^ 35 by unfold clamp; omega]
  · next h =>
    split
    · next h' => rw [if_pos ((outside_iff v).2 (.inr h')), show clamp v = 2 ^ 35 - 1 by unfold clamp; omega]
    · next h' => rw [if_neg fun ho => by rw [outside_iff] at ho; omega, show clamp v = v by unfold clamp; omega]

theorem wrap_eq (v : Int) : wrap v = (wordI v, if outside v then some 0 else none) := by
  unfold wrap maxN maxP
  simp only [outside_iff]

theorem resEffects_setsIf (d : BitVec 6) (v : Word) (k : Fin 3) (c : Bool) :
    resEffects d (v, if c then some k else none) = setsIf d v k c := by cases c <;> rfl

theorem resEffects_sat (d : BitVec 6) (k : Fin 3) (v : Int) :
    resEffects d (satWith k v) = setsIf d (wordI (clamp v)) k (outside v) := by rw [satWith_eq, resEffects_setsIf]

theorem resEffects_wrap (d : BitVec 6) (v : Int) : resEffects d (wrap v) = setsIf d (wordI v) 0 (outside v) := by
  rw [wrap_eq, resEffects_setsIf]

/-! The sums (R53). -/

theorem wordI_add (a b : Word) : wordI (a.toInt + b.toInt) = a + b := by simp [wordI, BitVec.ofInt_add]
theorem wordI_sub (a b : Word) : wordI (a.toInt - b.toInt) = a - b := by
  simp [wordI, Int.sub_eq_add_neg, BitVec.ofInt_add, BitVec.ofInt_neg, BitVec.sub_eq_add_neg]
theorem wordI_neg (a : Word) : wordI (-a.toInt) = -a := by simp [wordI, BitVec.ofInt_neg]
theorem wordI_mul (a b : Word) : wordI (a.toInt * b.toInt) = a * b := by simp [wordI, BitVec.ofInt_mul]

theorem outside_add (a b : Word) : outside (a.toInt + b.toInt) = a.saddOverflow b := by
  rw [Bool.eq_iff_iff, outside_iff]; simp [BitVec.saddOverflow]; omega
theorem outside_sub (a b : Word) : outside (a.toInt - b.toInt) = a.ssubOverflow b := by
  rw [Bool.eq_iff_iff, outside_iff]; simp [BitVec.ssubOverflow]; omega
theorem outside_mul (a b : Word) : outside (a.toInt * b.toInt) = a.smulOverflow b := by
  rw [Bool.eq_iff_iff, outside_iff]; simp [BitVec.smulOverflow]; omega

theorem toInt_eq_min_iff (a : Word) : a.toInt = -2 ^ 35 ↔ a = 0x800000000#36 := by
  rw [← BitVec.toInt_inj]; rfl

theorem outside_neg (a : Word) : outside (-a.toInt) = (a == 0x800000000#36) := by
  have := word_toInt_bounds a
  rw [Bool.eq_iff_iff, outside_iff, beq_iff_eq, ← toInt_eq_min_iff]; omega

theorem outside_natAbs (a : Word) : outside a.toInt.natAbs = (a == 0x800000000#36) := by
  have := word_toInt_bounds a
  rw [Bool.eq_iff_iff, outside_iff, beq_iff_eq, ← toInt_eq_min_iff]; omega

theorem wordI_natAbs (a : Word) : wordI a.toInt.natAbs = if a.slt 0 then -a else a := by
  have hneg : a.slt 0 = true ↔ a.toInt < 0 := BitVec.slt_iff_toInt_lt
  split
  · next h => rw [← wordI_neg, Int.ofNat_natAbs_of_nonpos (hneg.1 h).le]
  · next h => rw [Int.natAbs_of_nonneg (not_lt.1 (mt hneg.2 h)), wordI, BitVec.ofInt_toInt]

/-! Instructions whose result is a function of their engine (R71, R115). -/

/-- A computing instruction whose result is a list of register, predicate and flag effects. -/
theorem computes_plain {s : State} {e : Fin 1028} {i : Instr} {delta : Nat} {neg : Bool} {pred : BitVec 3} {u : UnitKind} {cls dur : Nat}
    {F : Engine → List Effect} {P : Engine → List Effect → Prop}
    (hx : exec i s = release e i delta neg pred { unit := u, cls := cls, dur := dur, body := resultOf F } s)
    (hF : ∀ p x, F (supEngine p x) = F x) (hp : ∀ x, ∀ f ∈ F x, plainEffect f = true) (hne : ∀ x, (F x).isEmpty = false)
    (hP : wellFormed i = true → ∀ x, P x (F x)) : computes s e i delta neg pred u cls dur P :=
  computes_of s e i delta neg pred _ F P hx rfl hF hp hne hP

theorem resEffects_plain (d : BitVec 6) (r : Res) : ∀ f ∈ resEffects d r, plainEffect f = true := by
  obtain ⟨v, _ | k⟩ := r <;> simp [resEffects, plainEffect]

theorem resEffects_nonempty (d : BitVec 6) (r : Res) : (resEffects d r).isEmpty = false := by
  obtain ⟨v, _ | k⟩ := r <;> rfl

/-- A computing instruction whose result is a word with the flag that it sets. -/
theorem computes_res {s : State} {e : Fin 1028} {i : Instr} {delta : Nat} {neg : Bool} {pred : BitVec 3} {u : UnitKind} {cls dur : Nat}
    {d : BitVec 6} {R : Engine → Res} {P : Engine → List Effect → Prop}
    (hx : exec i s = release e i delta neg pred { unit := u, cls := cls, dur := dur, body := resultOf fun x => resEffects d (R x) } s)
    (hR : ∀ p x, R (supEngine p x) = R x)
    (hP : wellFormed i = true → ∀ x, P x (resEffects d (R x))) : computes s e i delta neg pred u cls dur P :=
  computes_plain hx (fun p x => by rw [hR]) (fun _ => resEffects_plain _ _) (fun _ => resEffects_nonempty _ _) hP

/-- A computing instruction whose result is a word without a flag. -/
theorem computes_reg {s : State} {e : Fin 1028} {i : Instr} {delta : Nat} {neg : Bool} {pred : BitVec 3} {u : UnitKind} {cls dur : Nat}
    {d : BitVec 6} {V : Engine → Word} {P : Engine → List Effect → Prop}
    (hx : exec i s = release e i delta neg pred { unit := u, cls := cls, dur := dur, body := resultOf fun x => [.reg d.toNat (V x)] } s)
    (hV : ∀ p x, V (supEngine p x) = V x)
    (hP : wellFormed i = true → ∀ x, P x [.reg d.toNat (V x)]) : computes s e i delta neg pred u cls dur P :=
  computes_res (R := fun x => plainRes (V x)) hx (fun p x => by rw [hV]) hP

/-- The same for a plant engine alone, whatever the effects. -/
theorem computesPlant_of {s : State} {e : Fin 1028} {i : Instr} {delta : Nat} {neg : Bool} {pred : BitVec 3} {u : UnitKind} {cls dur : Nat}
    {F : Engine → List Effect} {P : Engine → List Effect → Prop}
    (hx : exec i s = release e i delta neg pred { unit := u, cls := cls, dur := dur, body := resultOf F } s)
    (hne : ∀ x, (F x).isEmpty = false) (hP : ∀ x, P x (F x)) : computesPlant s e i delta neg pred u cls dur P := fun hw hc hr =>
  let ⟨t, ht, hi⟩ := plant_issued s e i delta neg pred _ F hx rfl (hne _) hw hr hc
  ⟨t, _, ht, hP _, hi⟩

/-- Settles O12: a wrapping result is the exact one as a word, a saturated one the nearest of the range. -/
theorem sumsWrapOrSaturate : Obligations.SumsWrapOrSaturate := by
  unfold Obligations.SumsWrapOrSaturate
  refine ⟨fun e f g s => ⟨?add, ?sub, ?neg, ?abs, ?addi⟩, fun e f s => ⟨?adds, ?subs, ?negs, ?abss⟩⟩
  case add =>
    refine computes_res rfl (fun _ _ => rfl) fun _ x => ?_
    rw [aluAdd, resEffects_wrap, wordI_add, outside_add]
  case sub =>
    refine computes_res rfl (fun _ _ => rfl) fun _ x => ?_
    rw [aluSub, resEffects_wrap, wordI_sub, outside_sub]
  case neg =>
    refine computes_res rfl (fun _ _ => rfl) fun _ x => ?_
    rw [aluNeg, resEffects_wrap, wordI_neg, outside_neg]
  case abs =>
    refine computes_res rfl (fun _ _ => rfl) fun _ x => ?_
    rw [aluAbs, resEffects_wrap, wordI_natAbs, outside_natAbs]
  case addi =>
    refine computes_res rfl (fun _ _ => rfl) fun _ x => ?_
    rw [aluAdd, resEffects_wrap, wordI_add, outside_add]
  case adds => exact computes_res rfl (fun _ _ => rfl) fun _ x => ⟨_, wordI_clamp_toInt _, resEffects_sat ..⟩
  case subs => exact computes_res rfl (fun _ _ => rfl) fun _ x => ⟨_, wordI_clamp_toInt _, resEffects_sat ..⟩
  case negs => exact computes_res rfl (fun _ _ => rfl) fun _ x => ⟨_, wordI_clamp_toInt _, resEffects_sat ..⟩
  case abss =>
    refine computes_res rfl (fun _ _ => rfl) fun _ x => ?_
    rw [Int.abs_eq_natAbs]
    exact ⟨_, wordI_clamp_toInt _, resEffects_sat ..⟩

end Sys2Proof.Machine
end

section
/-! SUPPORT. What a supervisor instruction leaves whose result is no plain one: a CLRF, a MAC or an accumulator's part (R88 to R92, R115). -/

namespace Sys2Proof.Machine

/-- Effects on registers alone leave the engine's accumulators and predicates. -/
theorem applyAll_regs_keeps {e land pos : Nat} {fs : List Effect} (hfs : ∀ f ∈ fs, ∃ d v, f = .reg d v) {s : State} (h : rising s.eng) :
    rising (applyAll e land pos fs s).eng ∧ (engine (applyAll e land pos fs s) e).ac0 = (engine s e).ac0
      ∧ (engine (applyAll e land pos fs s) e).ac1 = (engine s e).ac1 ∧ (engine (applyAll e land pos fs s) e).p = (engine s e).p := by
  induction fs generalizing s with
  | nil => exact ⟨h, rfl, rfl, rfl⟩
  | cons f t ih =>
    obtain ⟨d, v, rfl⟩ := hfs _ List.mem_cons_self
    have hw (x : Engine) : (wSet d v x).ac0 = x.ac0 ∧ (wSet d v x).ac1 = x.ac1 ∧ (wSet d v x).p = x.p := by
      unfold wSet; split <;> exact ⟨rfl, rfl, rfl⟩
    obtain ⟨hr, i0, i1, ip⟩ := ih (fun f hf => hfs f (List.mem_cons_of_mem _ hf)) (modEngine_rising e (wSet d v) s h)
    rw [engine_modEngine_same _ _ _ h] at i0 i1 ip
    obtain ⟨h0, h1, hp⟩ := hw (engine s e)
    exact ⟨hr, i0.trans h0, i1.trans h1, ip.trans hp⟩

/-- The bookkeeping of a supervisor instruction leaves its engine's accumulators and predicates. -/
theorem supReleased_keeps (s : State) (e pos : Nat) (c : Bool) (h : rising s.eng) :
    (engine (supReleased e pos c s) e).ac0 = (engine s e).ac0 ∧ (engine (supReleased e pos c s) e).ac1 = (engine s e).ac1
      ∧ (engine (supReleased e pos c s) e).p = (engine s e).p := by
  unfold supReleased
  extract_lets a t
  have hidx : ∀ f ∈ a.2.2, ∃ d v, f = .reg d v := fun f hf => by
    obtain ⟨l, -, v, rfl⟩ := advanceIn_effects _ _ _ f hf; exact ⟨_, _, rfl⟩
  have ht : t.eng = (modEngine e (fun x => countStep { x with
      ord := x.ord + 1, entry := none, loops := a.2.1, pos := a.1, fly := [] }) s).eng := rfl
  have hrise : rising t.eng := ht ▸ modEngine_rising _ _ _ h
  have hte := (engine_congr ht e).trans (engine_modEngine_same _ _ _ h)
  obtain ⟨-, k0, k1, kp, -⟩ := countStep_arch { engine s e with
    ord := (engine s e).ord + 1, entry := none, loops := a.2.1, pos := a.1, fly := [] }
  rw [← hte] at k0 k1 kp
  obtain ⟨hr, i0, i1, ip⟩ := applyAll_regs_keeps (e := e) (land := s.now) (pos := pos) hidx hrise
  obtain ⟨-, c0, c1, cp, -⟩ := countIf_engine c e pos _ hr
  exact ⟨c0.trans (i0.trans k0), c1.trans (i1.trans k1), cp.trans (ip.trans kp)⟩

/-- Engine `y` is what the instruction of supervisor engine `e` makes of it in state `u`, and state `t` holds it (R115): but for the
indices that open loops write then, its registers, accumulators, predicates and flags are in place, the counter has moved on, and
memory, requests and the other engines are as before. -/
structure SupLeaves (u t : State) (e : Nat) (y : Engine) : Prop where
  w : ∀ r, (∀ l ∈ (engine u e).loops, l.idx % 64 ≠ r % 64) → r % 64 ≠ 0 → wGet (engine t e) r = wGet y r
  ac0 : (engine t e).ac0 = y.ac0
  ac1 : (engine t e).ac1 = y.ac1
  p : (engine t e).p = y.p
  fV : (engine t e).fV = y.fV
  fS : (engine t e).fS = y.fS
  fD : (engine t e).fD = y.fD
  others : ∀ j, j ≠ e → engine t j = engine u j
  mem : t.mem = u.mem
  reqs : t.reqs = u.reqs
  pc : (supOf t e).pc = word (advanceSup (engine u e).loops ((supOf u e).pc + 1).toNat).1

/-- R115: a ready supervisor instruction executes, and its release is booked. -/
theorem exec_supReady {s u v : State} {e : Fin 1028} {i : Instr} {delta : Nat} {neg : Bool} {pred : BitVec 3} {k : Issue}
    (hx : exec i s = release e i delta neg pred k s) (hr : supReady s e i u) (hv : supExecute e neg pred k u = v)
    (he : rising v.eng) (hs : rising v.sup) (hw : rising (engine v e).w) (ht : v.tk.touched = u.tk.touched) :
    ∃ c, exec i s = .next (settle e 0 s.tk.touched (holdBanks e (engine s e).lockOpen (supReleased e (engine u e).pos c v))) := by
  obtain ⟨hsup, hwell, hwaits, hhalts, hnotices, hfetch, hfree⟩ := hr
  refine ⟨condHolds (engine s e) neg pred || k.counts, ?_⟩
  obtain ⟨-, -, -, -, -, -, -, -, -, htouched, hrs⟩ :=
    supReleased_effect v e (engine u e).pos (condHolds (engine s e) neg pred || k.counts) he hs hw
  obtain ⟨-, -, -, htk, -⟩ := holdBanks_keeps e (engine s e).lockOpen _ hrs
  have hrun : supRelease e neg pred k (untouched s) =
      holdBanks e (engine s e).lockOpen (supReleased e (engine u e).pos (condHolds (engine s e) neg pred || k.counts) v) := by
    have hwaits' : supWaits (engine (untouched s) e) = false := hwaits
    have hhalts' : haltsNow (untouched s) e = false := hhalts
    have hnotices' : (supOf (untouched s) e).notices = [] := hnotices
    rw [supRelease, hwaits', hhalts', hnotices', hfetch, ← hv]
    rfl
  have hff : freeFor e 0 s (holdBanks e (engine s e).lockOpen
      (supReleased e (engine u e).pos (condHolds (engine s e) neg pred || k.counts) v)) = true := by
    rw [freeFor, htk, htouched, ht]; exact hfree
  rw [hx, release, if_neg (by omega), if_pos hwell, ifFree, hrun]
  simp only [hff, if_true]

/-- Supervisor engine `e` as its instruction executes: every earlier result is in place, and the counter names the next address. -/
def supBegun (e : Nat) (u : State) : State :=
  modSup e (fun y => { y with pc := y.pc + 1 }) (modEngine e (supEngine (supOf u e).pc.toNat) u)

theorem engine_supBegun {u : State} (h : Canonical u) (e : Nat) : engine (supBegun e u) e = supEngine (supOf u e).pc.toNat (engine u e) :=
  (engine_congr (modSup_eng ..) e).trans (engine_modEngine_same _ _ _ h.eng)

theorem engine_supBegun_ne {u : State} (h : Canonical u) {e j : Nat} (hj : j ≠ e) : engine (supBegun e u) j = engine u j :=
  (engine_congr (modSup_eng ..) j).trans (engine_modEngine_ne _ _ _ _ h.eng hj)

theorem supOf_supBegun {u : State} (h : Canonical u) (e : Nat) : supOf (supBegun e u) e = { supOf u e with pc := (supOf u e).pc + 1 } :=
  tabGet_tabSet_same _ _ _ _ h.sup

theorem supExecute_result {u : State} (h : Canonical u) {e : Nat} {neg : Bool} {pred : BitVec 3} {k : Issue} {F : Engine → List Effect}
    (hb : k.body = resultOf F) (hc : condHolds (engine u e) neg pred = true) :
    supExecute e neg pred k u = applyAll e u.now (supOf u e).pc.toNat (F (supEngine (supOf u e).pc.toNat (engine u e))) (supBegun e u) := by
  have hcb : condHolds (engine (supBegun e u) e) neg pred = true := by rw [engine_supBegun h]; exact hc
  have hexec : supExecute e neg pred k u = applyAll e u.now (engine (supBegun e u) e).pos
      ((if condHolds (engine (supBegun e u) e) neg pred then k.body else k.onFalse) (engine (supBegun e u) e) (supBegun e u)).2
      ((if condHolds (engine (supBegun e u) e) neg pred then k.body else k.onFalse) (engine (supBegun e u) e) (supBegun e u)).1 := rfl
  rw [hexec, if_pos hcb, hb, engine_supBegun h]
  rfl

/-- R115: a ready supervisor instruction whose one result makes `g` of its engine. -/
theorem exec_supLeaves {s u : State} {e : Fin 1028} {i : Instr} {delta : Nat} {neg : Bool} {pred : BitVec 3} {k : Issue}
    {f : Engine → Effect} {g : Engine → Engine} (hx : exec i s = release e i delta neg pred k s)
    (hb : k.body = resultOf fun x => [f x])
    (hg : ∀ v pos, applyEffect e u.now pos (f (supEngine (supOf u e).pc.toNat (engine u e))) v = modEngine e g v)
    (hkeep : ∀ x, (g x).w = x.w ∧ (g x).loops = x.loops)
    (hr : supReady s e i u) (hw : u.wf) (hc : condHolds (engine u e) neg pred = true) :
    ∃ t, exec i s = .next t ∧ SupLeaves u t e (g (supEngine (supOf u e).pc.toNat (engine u e))) := by
  have hcan := (wf_iff_canonical u).1 hw
  have hrun : supExecute e neg pred k u = modEngine e g (supBegun e u) := (supExecute_result hcan hb hc).trans (hg _ _)
  have hve := engine_supBegun hcan e
  have hvr : rising (supBegun e u).eng := modEngine_rising _ _ _ hcan.eng
  have hvs : rising (supBegun e u).sup := tabSet_rising _ _ _ _ hcan.sup
  have hge : engine (modEngine e g (supBegun e u)) e = g (supEngine (supOf u e).pc.toNat (engine u e)) := by
    rw [engine_modEngine_same _ _ _ hvr, hve]
  generalize hy : supEngine (supOf u e).pc.toNat (engine u e) = x at hve hge ⊢
  obtain ⟨hgw, hgl⟩ := hkeep x
  have hmr := modEngine_rising e g _ hvr
  have hmw : rising (engine (modEngine e g (supBegun e u)) e).w := by rw [hge, hgw, ← hy]; exact engine_w hcan e
  obtain ⟨c, hexec⟩ := exec_supReady hx hr hrun hmr hvs hmw rfl
  obtain ⟨hregs, -, hfV, hfS, hfD, hothers, hmem, hreqs, hsup, -, hrs⟩ := supReleased_effect _ e (engine u e).pos c hmr hvs hmw
  obtain ⟨hac0, hac1, hp⟩ := supReleased_keeps _ e (engine u e).pos c hmr
  obtain ⟨heng, hmem', hreqs', -, hpc⟩ := holdBanks_keeps e (engine s e).lockOpen _ hrs
  have hend (j : Nat) := engine_congr (e := j) (show (settle e 0 s.tk.touched (holdBanks e (engine s e).lockOpen
    (supReleased e (engine u e).pos c (modEngine e g (supBegun e u))))).eng = _ from heng)
  rw [hge] at hregs hfV hfS hfD hac0 hac1 hp hsup
  have hloops : (g x).loops = (engine u e).loops := by rw [hgl, ← hy]; rfl
  refine ⟨_, hexec, ?_⟩
  constructor
  case w => exact fun r hl hr => (congrArg (wGet · r) (hend e)).trans (hregs r hr (hloops ▸ hl))
  case ac0 => rw [hend, hac0]
  case ac1 => rw [hend, hac1]
  case p => rw [hend, hp]
  case fV => rw [hend, hfV]
  case fS => rw [hend, hfS]
  case fD => rw [hend, hfD]
  case others =>
    intro j hj
    rw [hend, hothers j hj, engine_modEngine_ne _ _ _ _ hvr hj, engine_supBegun_ne hcan hj]
  case mem => exact hmem'.trans hmem
  case reqs => exact hreqs'.trans hreqs
  case pc =>
    refine hpc.trans ?_
    rw [hsup, hloops, show supOf (modEngine e g (supBegun e u)) e = supOf (supBegun e u) e from rfl, supOf_supBegun hcan]

end Sys2Proof.Machine
end

section
/-! SUPPORT. Bit fields, conversions, comparisons, predicates and flags (R56, R65, R81 to R88). -/

namespace Sys2Proof.Machine

/-! Fields (R81). -/

theorem word_getLsbD (n k : Nat) : (word n).getLsbD k = (decide (k < 36) && n.testBit k) := BitVec.getLsbD_ofNat ..

/-- The bits of a number with a field replaced. -/
theorem splice_testBit {v hi lo x : Nat} (h : lo ≤ hi) (k : Nat) :
    (splice v hi lo x).testBit k = if lo ≤ k ∧ k ≤ hi then x.testBit (k - lo) else v.testBit k := by
  have hinner : x % 2 ^ (hi + 1 - lo) * 2 ^ lo + v % 2 ^ lo < 2 ^ (hi + 1) := by
    calc x % 2 ^ (hi + 1 - lo) * 2 ^ lo + v % 2 ^ lo
        < (x % 2 ^ (hi + 1 - lo) + 1) * 2 ^ lo := by
          rw [add_mul, one_mul]; exact Nat.add_lt_add_left (Nat.mod_lt _ (by positivity)) _
      _ ≤ 2 ^ (hi + 1 - lo) * 2 ^ lo := Nat.mul_le_mul_right _ (Nat.mod_lt _ (by positivity))
      _ = 2 ^ (hi + 1) := by rw [← pow_add, Nat.sub_add_cancel (by omega)]
  rw [splice, add_assoc, mul_comm (v / _), Nat.testBit_two_pow_mul_add _ hinner, mul_comm _ (2 ^ lo),
    Nat.testBit_two_pow_mul_add _ (Nat.mod_lt _ (by positivity)), Nat.testBit_mod_two_pow, Nat.testBit_mod_two_pow,
    Nat.testBit_div_two_pow]
  by_cases hk : k < lo
  · rw [if_pos (by omega), if_pos hk, if_neg (by omega), decide_eq_true hk, Bool.true_and]
  · by_cases hk' : k < hi + 1
    · rw [if_pos hk', if_neg hk, if_pos (by omega), decide_eq_true (by omega), Bool.true_and]
    · rw [if_neg hk', if_neg (by omega), Nat.sub_add_cancel (by omega)]

theorem fieldLen_le (b : Word) : fieldPos b + fieldLen b ≤ 36 ∨ fieldLen b = 0 := by
  have : fieldLen b ≤ 36 - fieldPos b := Nat.min_le_right _ _
  omega

/-- The bits of an `e`-bit field at position `p`. -/
theorem field_testBit (a p e k : Nat) : (a / 2 ^ p % 2 ^ e).testBit k = (decide (k < e) && a.testBit (p + k)) := by
  rw [Nat.testBit_mod_two_pow, Nat.testBit_div_two_pow, add_comm]

/-- The top bit of an `e`-bit number. -/
theorem div_pow_pred_eq_one {v e : Nat} (he : e ≠ 0) (hv : v < 2 ^ e) : (v / 2 ^ (e - 1) == 1) = v.testBit (e - 1) := by
  have hlt : v / 2 ^ (e - 1) < 2 := by
    rw [Nat.div_lt_iff_lt_mul (by positivity), ← pow_succ', Nat.sub_add_cancel (by omega)]; exact hv
  rw [Nat.testBit_eq_decide_div_mod_eq, Nat.mod_eq_of_lt hlt]; rfl

/-- An `e`-bit number less 2^e, as a word: its bits, and above them ones. -/
theorem wordI_sub_pow_getLsbD {v e k : Nat} (hv : v < 2 ^ e) (he : e ≤ 36) (hk : k < 36) :
    (wordI ((v : Int) - 2 ^ e)).getLsbD k = if k < e then v.testBit k else true := by
  have h36 : (2 : Int) ^ 36 = 2 ^ e * 2 ^ (36 - e) := by rw [← pow_add, Nat.add_sub_cancel' he]
  have hval : wordI ((v : Int) - 2 ^ e) = word (2 ^ e * (2 ^ (36 - e) - 1) + v) := by
    rw [wordI, word, ← BitVec.ofInt_natCast]
    apply BitVec.eq_of_toInt_eq
    rw [BitVec.toInt_ofInt, BitVec.toInt_ofInt, ← Int.add_bmod_right (v - 2 ^ e : Int)]
    congr 1
    have : ((2 ^ (36 - e) - 1 : Nat) : Int) = 2 ^ (36 - e) - 1 := by
      push_cast [Nat.one_le_two_pow]; rfl
    rw [Nat.cast_add, Nat.cast_mul, this]
    push_cast
    linarith [mul_sub (2 ^ e : Int) (2 ^ (36 - e)) 1]
  rw [hval, word_getLsbD, Nat.testBit_two_pow_mul_add _ hv, Nat.testBit_two_pow_sub_one]
  simp only [hk, decide_true, Bool.true_and]
  split
  · rfl
  · simp; omega

/-- R81: the bits of EXT. -/
theorem aluExt_getLsbD (signed : Bool) (a b : Word) {k : Nat} (hk : k < 36) :
    (aluExt signed a b).getLsbD k = if k < fieldLen b then a.getLsbD (fieldPos b + k)
      else signed && decide (fieldLen b ≠ 0) && a.getLsbD (fieldPos b + fieldLen b - 1) := by
  unfold aluExt
  extract_lets e v
  have hv : v < 2 ^ e := Nat.mod_lt _ (by positivity)
  have hbit (j : Nat) : v.testBit j = (decide (j < e) && a.getLsbD (fieldPos b + j)) := field_testBit _ _ _ _
  change _ = if k < e then _ else signed && decide (e ≠ 0) && a.getLsbD (fieldPos b + e - 1)
  by_cases he : e = 0
  · have : v = 0 := by rw [he] at hv; omega
    simp [he, this, word]
  · have htop : v.testBit (e - 1) = a.getLsbD (fieldPos b + e - 1) := by
      rw [hbit, decide_eq_true (by omega), Bool.true_and, Nat.add_sub_assoc (by omega)]
    rw [div_pow_pred_eq_one he hv, htop]
    split
    · next h =>
      rw [wordI_sub_pow_getLsbD hv (by have := fieldLen_le b; omega) hk, hbit]
      simp only [Bool.and_eq_true, bne_iff_ne] at h
      obtain ⟨⟨hs, -⟩, ha⟩ := h
      split
      · next hke => rw [decide_eq_true hke, Bool.true_and]
      · rw [hs, ha, decide_eq_true he]; rfl
    · next h =>
      rw [word_getLsbD, decide_eq_true hk, Bool.true_and, hbit]
      split
      · next hke => rw [decide_eq_true hke, Bool.true_and]
      · next hke => rw [decide_eq_false hke, Bool.false_and]; simpa [he] using h

/-- R81: the bits of INS. -/
theorem aluIns_getLsbD (a b d : Word) {k : Nat} (hk : k < 36) :
    (aluIns a b d).getLsbD k = if fieldPos b ≤ k ∧ k < fieldPos b + fieldLen b then a.getLsbD (k - fieldPos b) else d.getLsbD k := by
  unfold aluIns
  split
  · rw [if_neg (by omega)]
  · rw [word_getLsbD, decide_eq_true hk, Bool.true_and, splice_testBit (by omega)]
    exact if_congr (by omega) rfl rfl

/-! Conversions (R56, R82). -/

/-- A number with the factor that a shift of the word leaves out. -/
theorem word_mul_two_pow (a : Word) (n : Nat) : word (a.toNat * 2 ^ n) = a <<< n := by
  rw [word, ← BitVec.toNat_inj, BitVec.toNat_ofNat, BitVec.toNat_shiftLeft, Nat.shiftLeft_eq]

theorem word_toNat_lt (a : Word) : (a.toNat : Int) < 2 ^ 36 := by exact_mod_cast a.isLt

/-- R56: an angle rounded to 30 bits, modulo a turn. -/
theorem aluCvt_angle (floor : Bool) (a : Word) :
    ∃ v, aluCvt floor 3 a = plainRes v ∧ v.toInt = roundShift floor a.toNat 6 % 2 ^ 30 := by
  obtain ⟨hlo, hhi⟩ := roundShift_bounds floor a.toNat 6
  have ha := word_toNat_lt a
  refine ⟨_, rfl, ?_⟩
  split
  · next h => rw [h]; rfl
  · next h => rw [wordI_toInt (by omega) (by omega), Int.emod_eq_of_lt (by omega) (by omega)]

/-- R56: a rounded value is a word. -/
theorem wordI_roundShift_toInt (floor : Bool) (a : Word) :
    (wordI (roundShift floor a.toInt 30)).toInt = roundShift floor a.toInt 30 := by
  obtain ⟨hlo, hhi⟩ := roundShift_bounds floor a.toInt 30
  have ha := word_toInt_bounds a
  exact wordI_toInt (by omega) (by omega)

/-- R56: a 24-bit value times 2^7 is a word. -/
theorem wordI_single_toInt (a : Word) :
    (wordI ((BitVec.ofNat 24 a.toNat).toInt * 2 ^ 7)).toInt = (a.truncate 24).toInt * 2 ^ 7 := by
  have h1 := BitVec.le_toInt (BitVec.ofNat 24 a.toNat)
  have h2 : (BitVec.ofNat 24 a.toNat).toInt < _ := BitVec.toInt_lt
  rw [wordI_toInt (by omega) (by omega), BitVec.truncate, BitVec.ofNat_toNat]

/-! Predicates and flags (R65, R85 to R88). -/

/-- R65: the bits of the word PMOV reads the predicates to. -/
theorem predWord_getLsbD (x : Engine) {k : Nat} (hk : k < 36) : (predWord x).getLsbD k = (decide (k < 8) && pGet x k) := by
  rw [predWord, word_getLsbD, decide_eq_true hk, Bool.true_and]
  cases k with
  | zero => simp [pGet, Nat.testBit_zero]
  | succ n =>
    rw [Nat.testBit_succ, show (x.p.toNat / 2 * 2 + 1) / 2 = x.p.toNat / 2 by omega, ← Nat.testBit_succ, BitVec.testBit_toNat]
    by_cases hn : n + 1 < 8
    · simp [pGet, hn, Nat.mod_eq_of_lt hn]
    · rw [decide_eq_false hn, Bool.false_and, BitVec.getLsbD_of_ge _ _ (by omega)]

/-- R65: the bits of the word RDF reads the flags to. -/
theorem flagWord_getLsbD (x : Engine) : (flagWord x).getLsbD 0 = x.fV ∧ (flagWord x).getLsbD 1 = x.fS ∧ (flagWord x).getLsbD 2 = x.fD
    ∧ ∀ k, 3 ≤ k → (flagWord x).getLsbD k = false := by
  unfold flagWord
  generalize x.fV = v
  generalize x.fS = s
  generalize x.fD = d
  have hlt : (if v then 1 else 0) + (if s then 2 else 0) + (if d then 4 else 0) < 2 ^ 3 := by revert v s d; decide
  refine ⟨by revert v s d; decide, by revert v s d; decide, by revert v s d; decide, fun k hk => ?_⟩
  rw [word_getLsbD, Nat.testBit_lt_two_pow (hlt.trans_le (Nat.pow_le_pow_right (by decide) hk)), Bool.and_false]

/-- R87: what PMOV leaves in predicate `n`. -/
theorem pAfter_predEffects (a : Word) {n : Nat} (h0 : 0 < n) (h8 : n < 8) (old : Bool) : pAfter (predEffects a) n old = a.getLsbD n := by
  obtain ⟨i, rfl⟩ : ∃ i : Fin 7, n = i + 1 := ⟨⟨n - 1, by omega⟩, by simp; omega⟩
  fin_cases i <;> rfl

/-- What a CLRF leaves of a flag. -/
theorem fAfter_clear (m : BitVec 4) (g : Fin 3) (old : Bool) : fAfter [.clear m.toNat] g old = (old && !m.getLsbD g.val) := by
  have hbit : (m.toNat / 2 ^ g.val % 2 == 0) = !m.getLsbD g.val := by revert m g; decide
  exact congrArg (old && ·) hbit

/-- R88: a CLRF clears the flags it names, where none was set in its tick. -/
theorem clearFlags_unset {m : BitVec 4} {n : Nat} {x : Engine} (hV : x.setV = 0) (hS : x.setS = 0) (hD : x.setD = 0) :
    (clearFlags m.toNat n x).fV = (x.fV && !m.getLsbD 0) ∧ (clearFlags m.toNat n x).fS = (x.fS && !m.getLsbD 1)
      ∧ (clearFlags m.toNat n x).fD = (x.fD && !m.getLsbD 2) := by
  have hbits : (m.toNat % 2 == 1) = m.getLsbD 0 ∧ (m.toNat / 2 % 2 == 1) = m.getLsbD 1 ∧ (m.toNat / 4 % 2 == 1) = m.getLsbD 2 := by
    revert m; decide
  obtain ⟨h0, h1, h2⟩ := hbits
  simp [clearFlags, hV, hS, hD, h0, h1, h2]

/-- R88, R115: a supervisor engine's CLRF clears at once, as every flag counts as set before. -/
theorem SupLeaves.applied_clear {u t : State} {e n p : Nat} {m : BitVec 4}
    (h : SupLeaves u t e (clearFlags m.toNat n (supEngine p (engine u e)))) : applied u t e [.clear m.toNat] := by
  obtain ⟨hV, hS, hD⟩ := clearFlags_unset (m := m) (n := n) (x := supEngine p (engine u e)) rfl rfl rfl
  exact ⟨fun r hr hl => h.w r hl hr, fun n _ => by rw [pGet, h.p]; rfl, h.fV.trans (hV.trans (fAfter_clear m 0 _).symm),
    h.fS.trans (hS.trans (fAfter_clear m 1 _).symm), h.fD.trans (hD.trans (fAfter_clear m 2 _).symm), h.others, h.mem, h.reqs, h.pc⟩

/-- R88: CLRF, whose effect is in flight on a plant engine and in place on a supervisor engine. -/
theorem clrf_computes (e : Fin 1028) (f : RegForm) (s : State) {P : Engine → List Effect → Prop}
    (hP : ∀ x, P x [.clear f.m.toNat]) :
    computes s e (.clrf e f) f.delta.toNat f.neg f.pred .none 0 1 P := by
  refine ⟨computesPlant_of rfl (fun _ => rfl) hP, fun u hr hw hc => ?_⟩
  obtain ⟨t, hexec, ht⟩ := exec_supLeaves (g := clearFlags f.m.toNat u.now) rfl rfl (fun _ _ => rfl) (fun _ => ⟨rfl, rfl⟩) hr hw hc
  exact ⟨t, _, hexec, hP _, ht.applied_clear⟩

/-- R85: the condition that each modifier of CMP names. -/
theorem cmpCond_cases (m : BitVec 4) (a b : Word) :
    (m = 0 → cmpCond m.toNat a b = (a == b)) ∧ (m = 1 → cmpCond m.toNat a b = (a != b))
      ∧ (m = 2 → cmpCond m.toNat a b = a.slt b) ∧ (m = 3 → cmpCond m.toNat a b = !a.slt b)
      ∧ (m = 4 → cmpCond m.toNat a b = a.sle b) ∧ (m = 5 → cmpCond m.toNat a b = !a.sle b)
      ∧ (m = 6 → cmpCond m.toNat a b = a.ult b) ∧ (m = 7 → cmpCond m.toNat a b = !a.ult b)
      ∧ (m = 8 → cmpCond m.toNat a b = (a - b).getLsbD 35) ∧ (m = 9 → cmpCond m.toNat a b = !(a - b).getLsbD 35)
      ∧ (m = 10 → cmpCond m.toNat a b = (a &&& b != 0)) ∧ (m = 11 → cmpCond m.toNat a b = (a &&& b == 0)) := by
  have hnot {p q : Prop} [Decidable p] [Decidable q] (h : p ↔ ¬ q) : decide p = !decide q := by
    rw [← decide_not]; exact decide_eq_decide.2 h
  have hmsb : decide ((a - b).toInt < 0) = (a - b).getLsbD 35 := BitVec.msb_eq_toInt.symm.trans (BitVec.msb_eq_getLsbD_last _)
  refine ⟨?_, ?_, ?_, ?_, ?_, ?_, ?_, ?_, ?_, ?_, ?_, ?_⟩ <;> rintro rfl
  · rfl
  · rfl
  · rfl
  · exact hnot not_lt.symm
  · rfl
  · exact hnot not_le.symm
  · rfl
  · exact hnot not_lt.symm
  · exact hmsb
  · exact (hnot not_lt.symm).trans (congrArg _ hmsb)
  · rfl
  · rfl

theorem cmp_wellFormed {e : Fin 1028} {f : RegForm} (h : wellFormed (.cmp e f) = true) : f.d.toNat % 8 = f.d.toNat := by
  simp [wellFormed, RegForm.fits] at h
  omega

theorem plog_wellFormed {e : Fin 1028} {f : RegForm} (h : wellFormed (.plog e f) = true) : f.d.toNat % 8 = f.d.toNat := by
  simp [wellFormed, RegForm.fits] at h
  omega

theorem plogOperand_eq (x : Engine) (a : BitVec 6) : plogOperand x a = (pGet x (a.toNat % 8) ^^ a.getLsbD 3) := congrFun₂ Bool.bne_eq_xor _ _

/-- R86: the logic that each modifier of PLOG names. -/
theorem plogOf_cases (m : BitVec 4) (p q : Bool) :
    (m = 0 → plogOf m.toNat p q = (p && q)) ∧ (m = 1 → plogOf m.toNat p q = (p || q)) ∧ (m = 2 → plogOf m.toNat p q = (p ^^ q))
      ∧ (m = 3 → plogOf m.toNat p q = p) := by
  refine ⟨?_, ?_, ?_, ?_⟩ <;> rintro rfl <;> rfl

/-- R87: PMOV's effects, the word that holds the predicates or the seven predicates that it sets. -/
theorem pmov_effects (x : Engine) (f : RegForm) (P : List Effect → Prop) (hword : P [.reg f.d.toNat (predWord x)])
    (hpreds : P (predEffects (opA x f))) : P (if f.m = 0 then [.reg f.d.toNat (predWord x)] else predEffects (opA x f)) := by
  split
  · exact hword
  · exact hpreds

/-- Settles O15: each result bit by bit, and a CLRF by the flags that it leaves. -/
theorem bitFieldsAndPredicates : Obligations.BitFieldsAndPredicates := by
  unfold Obligations.BitFieldsAndPredicates
  refine ⟨fun e f s => ⟨?ext, ?ins, ?cvt⟩, fun e f s => ⟨?cmp, ?plog, ?pmov, ?rdf, ?clrf⟩⟩
  case ext => exact computes_reg rfl (fun _ _ => rfl) fun _ x => ⟨_, fun k hk => aluExt_getLsbD _ _ _ hk, rfl⟩
  case ins => exact computes_reg rfl (fun _ _ => rfl) fun _ x => ⟨_, fun k hk => aluIns_getLsbD _ _ _ hk, rfl⟩
  case cvt =>
    refine computes_res rfl (fun _ _ => rfl) fun _ x => ?_
    refine ⟨fun h => ?_, fun h => ?_, fun h => ?_, fun h => ?_, fun h => ?_⟩
    all_goals rw [h]
    · exact ⟨_, wordI_clamp_toInt _, resEffects_sat ..⟩
    · exact ⟨_, wordI_roundShift_toInt _ _, rfl⟩
    · exact congrArg (fun v => [Effect.reg f.d.toNat v]) (word_mul_two_pow _ 6)
    · obtain ⟨v, hv, hval⟩ := aluCvt_angle (floorOf f) (opA x f)
      exact ⟨v, by rw [hv]; rfl, hval⟩
    · exact ⟨_, wordI_single_toInt _, rfl⟩
  case cmp =>
    refine computes_plain rfl (fun _ _ => rfl) (fun _ => by simp [plainEffect]) (fun _ => rfl)
      fun hwf x => ⟨_, ?_, cmpCond_cases f.m _ _⟩
    rw [cmp_wellFormed hwf]
  case plog =>
    refine computes_plain rfl (fun _ _ => rfl) (fun _ => by simp [plainEffect]) (fun _ => rfl)
      fun hwf x => ⟨_, ?_, plogOf_cases f.m _ _⟩
    rw [plog_wellFormed hwf, plogOperand_eq, plogOperand_eq]
  case pmov =>
    refine computes_plain rfl (fun _ _ => rfl) (fun x => ?_) (fun x => ?_) fun hwf x => ⟨fun h => ?_, fun h => ?_⟩
    · exact pmov_effects x f (∀ g ∈ ·, plainEffect g = true) (by simp [plainEffect]) (by simp [predEffects, plainEffect])
    · exact pmov_effects x f (·.isEmpty = false) rfl rfl
    · exact ⟨_, if_pos h, fun k hk => predWord_getLsbD x hk⟩
    · intro n h0 h8 old
      rw [if_neg (by rw [h]; decide)]
      exact pAfter_predEffects _ h0 h8 old
  case rdf => exact computes_reg rfl (fun _ _ => rfl) fun _ x => ⟨_, rfl, flagWord_getLsbD x⟩
  case clrf => exact clrf_computes e f s fun _ => fAfter_clear f.m

end Sys2Proof.Machine
end

section
/-! SUPPORT. Products and accumulators (R45, R46, R78, R89 to R92). -/

namespace Sys2Proof.Machine

theorem word_mul_bounds (a b : Word) : -2 ^ 70 ≤ a.toInt * b.toInt ∧ a.toInt * b.toInt ≤ 2 ^ 70 := by
  obtain ⟨ha, ha'⟩ := word_toInt_bounds a
  obtain ⟨hb, hb'⟩ := word_toInt_bounds b
  constructor <;> nlinarith

/-- R78: the upper part of a product fits a word. -/
theorem aluMulh_toInt (a b : Word) : (aluMulh a b).toInt = a.toInt * b.toInt / 2 ^ 36 := by
  obtain ⟨hlo, hhi⟩ := word_mul_bounds a b
  exact wordI_toInt (by omega) (by omega)

theorem wordI_toNat (v : Int) : ((wordI v).toNat : Int) = v % 2 ^ 36 := by
  rw [wordI, BitVec.toNat_ofInt, Int.toNat_of_nonneg (Int.emod_nonneg _ (by decide))]; rfl

/-- R46: a bit of a word of an accumulator, the sign bit beyond its end. -/
theorem accWord_getLsbD (a : BitVec 80) {part k : Nat} (hp : part < 3) (hk : k < 36) :
    (accWord a part).getLsbD k = a.getLsbD (min (36 * part + k) 79) := by
  match part, hp with
  | 0, _ =>
    rw [show min (36 * 0 + k) 79 = k by omega]
    simp [accWord, hk]
  | 1, _ =>
    rw [show min (36 * 1 + k) 79 = 36 + k by omega]
    simp [accWord, hk]
  | 2, _ =>
    change (((a >>> 72).setWidth 8).signExtend 36).getLsbD k = _
    rw [BitVec.getLsbD_signExtend, BitVec.msb_eq_getLsbD_last]
    by_cases h8 : k < 8
    · rw [show min (36 * 2 + k) 79 = 72 + k by omega]
      simp [hk, h8]
    · rw [show min (36 * 2 + k) 79 = 79 by omega]
      simp [hk, h8]

/-- R92: a bit of an accumulator with one part written. -/
theorem accSet_getLsbD (a : BitVec 80) {part k : Nat} (v : Word) (hp : part < 3) (hk : k < 80) :
    (accSet a part v).getLsbD k = if k / 36 = part then v.getLsbD (k % 36) else a.getLsbD k := by
  have hbits (hi lo : Nat) (h : lo ≤ hi) : (BitVec.ofNat 80 (splice a.toNat hi lo v.toNat)).getLsbD k =
      if lo ≤ k ∧ k ≤ hi then v.getLsbD (k - lo) else a.getLsbD k := by
    rw [BitVec.getLsbD_ofNat, decide_eq_true hk, Bool.true_and, splice_testBit h]; rfl
  match part, hp with
  | 0, _ =>
    refine (hbits 35 0 (by decide)).trans (ite_congr (by rw [eq_iff_iff]; omega) (fun h => ?_) fun _ => rfl)
    rw [show k % 36 = k - 0 by omega]
  | 1, _ =>
    refine (hbits 71 36 (by decide)).trans (ite_congr (by rw [eq_iff_iff]; omega) (fun h => ?_) fun _ => rfl)
    rw [show k % 36 = k - 36 by omega]
  | 2, _ =>
    refine (hbits 79 72 (by decide)).trans (ite_congr (by rw [eq_iff_iff]; omega) (fun h => ?_) fun _ => rfl)
    rw [show k % 36 = k - 72 by omega]

theorem accOf_accPut (one : Bool) (v : BitVec 80) (x : Engine) : accOf (accPut one v x) one = v := by cases one <;> rfl
theorem accOf_accPut_not (one : Bool) (v : BitVec 80) (x : Engine) : accOf (accPut one v x) (!one) = accOf x (!one) := by
  cases one <;> rfl

/-- What a write of an accumulator leaves. -/
theorem accPut_registers (one : Bool) (v : BitVec 80) (x : Engine) : (accPut one v x).w = x.w ∧ (accPut one v x).loops = x.loops := by
  cases one <;> exact ⟨rfl, rfl⟩

theorem accPut_flags (one : Bool) (v : BitVec 80) (x : Engine) :
    (accPut one v x).fV = x.fV ∧ (accPut one v x).fS = x.fS ∧ (accPut one v x).fD = x.fD ∧ (accPut one v x).p = x.p := by
  cases one <;> exact ⟨rfl, rfl, rfl, rfl⟩

/-- R45, R89: the exact sum within the bounds of an accumulator, and otherwise the nearer bound. -/
theorem accAdd_eq (a : BitVec 80) (zero neg : Bool) (prod v : Int)
    (hv : v = (if zero then 0 else a.toInt) + (if neg then -prod else prod)) :
    (accAdd a zero neg prod).1.toInt = max (-2 ^ 79) (min (2 ^ 79 - 1) v)
      ∧ (accAdd a zero neg prod).2 = (decide (v < -2 ^ 79) || decide (2 ^ 79 - 1 < v)) := by
  have hof {n : Int} (h : -2 ^ 79 ≤ n) (h' : n < 2 ^ 79) : (BitVec.ofInt 80 n).toInt = n := by
    rw [BitVec.toInt_ofInt]; exact Int.bmod_eq_of_le (by omega) (by omega)
  unfold accAdd accMin accMax
  rw [← hv]
  simp only
  split
  · next h => exact ⟨by rw [hof (by decide) (by decide)]; omega, by rw [decide_eq_true h, Bool.true_or]⟩
  · next h =>
    split
    · next h' => exact ⟨by rw [hof (by decide) (by decide)]; omega, by rw [decide_eq_true h', Bool.or_true]⟩
    · next h' => exact ⟨by rw [hof (by omega) (by omega)]; omega, by rw [decide_eq_false h, decide_eq_false h', Bool.or_false]⟩

/-- R45, R89: what a multiply-accumulate makes of an engine. -/
theorem landMac_accumulates (one zero neg : Bool) (prod : Int) (land : Nat) (x : Engine) :
    accumulates x (landMac one zero neg prod land x) one zero neg prod := by
  obtain ⟨hsum, hsat⟩ := accAdd_eq (accOf x one) zero neg prod _ rfl
  obtain ⟨hV, hS, hD, hp⟩ := accPut_flags one (accAdd (accOf x one) zero neg prod).1 x
  have hacc : (accOf (accPut one (accAdd (accOf x one) zero neg prod).1 x) one).toInt = _ := (congrArg _ (accOf_accPut ..)).trans hsum
  have hother := accOf_accPut_not one (accAdd (accOf x one) zero neg prod).1 x
  unfold landMac accumulates
  extract_lets r v
  rw [Bool.or_assoc, ← hsat]
  split
  · next hr => exact ⟨hacc, by rw [hr, Bool.or_true]; rfl, hother, hV, hD, hp⟩
  · next hr => exact ⟨hacc, by rw [eq_false_of_ne_true hr, Bool.or_false, hS], hother, hV, hD, hp⟩

theorem landMac_keeps (one zero neg : Bool) (prod : Int) (land : Nat) (x : Engine) :
    (landMac one zero neg prod land x).w = x.w ∧ (landMac one zero neg prod land x).loops = x.loops := by
  obtain ⟨hw, hl⟩ := accPut_registers one (accAdd (accOf x one) zero neg prod).1 x
  unfold landMac
  extract_lets r
  split
  · exact ⟨hw, hl⟩
  · exact ⟨hw, hl⟩

theorem SupLeaves.acc {u t : State} {e : Nat} {y : Engine} (h : SupLeaves u t e y) (one : Bool) : accOf (engine t e) one = accOf y one := by
  rw [accOf, h.ac0, h.ac1]; rfl

/-- R89, R115: a multiply-accumulate of a supervisor engine is in place. -/
theorem SupLeaves.accumulates {u t : State} {e p : Nat} {y : Engine} {one zero neg : Bool} {prod : Int} (h : SupLeaves u t e y)
    (hy : Machine.accumulates (supEngine p (engine u e)) y one zero neg prod) :
    Machine.accumulates (engine u e) (engine t e) one zero neg prod := by
  obtain ⟨hsum, hS, hother, hV, hD, hp⟩ := hy
  exact ⟨(congrArg _ (h.acc one)).trans hsum, h.fS.trans hS, (h.acc _).trans hother, h.fV.trans hV, h.fD.trans hD, h.p.trans hp⟩

/-- R69, R92: no well-formed ACM names a fourth part. -/
theorem acm_wellFormed {e : Fin 1028} {f : RegForm} (h : wellFormed (.acm e f) = true) : f.m.toNat / 2 % 4 < 3 := by
  simp [wellFormed, RegForm.fits] at h
  omega

/-- R92, R115: an accumulator's part written by a supervisor engine is in place. -/
theorem SupLeaves.writesPart {u t : State} {e p part : Nat} {one : Bool} {v : Word} (hp : part < 3)
    (h : SupLeaves u t e (accPut one (accSet (accOf (supEngine p (engine u e)) one) part v) (supEngine p (engine u e)))) :
    Machine.writesPart (engine u e) (engine t e) one part v := by
  obtain ⟨kV, kS, kD, kp⟩ := accPut_flags one (accSet (accOf (supEngine p (engine u e)) one) part v) (supEngine p (engine u e))
  refine ⟨fun k hk => ?_, ?_, h.fV.trans kV, h.fS.trans kS, h.fD.trans kD, h.p.trans kp⟩
  · rw [h.acc, accOf_accPut, accSet_getLsbD _ _ hp hk]; rfl
  · rw [h.acc, accOf_accPut_not]; rfl

theorem exec_acm_read {e : Fin 1028} {f : RegForm} (h : f.m.getLsbD 3 = false) (s : State) :
    exec (.acm e f) s = release e (.acm e f) f.delta.toNat f.neg f.pred
      { cls := 1, dur := 2, body := resultOf fun x => [.reg f.d.toNat (accWord (accOf x (f.m.getLsbD 0)) (f.m.toNat / 2 % 4))] } s := by
  change execAcm e f s = _
  simp only [execAcm, h, Bool.false_eq_true, if_false]
  rfl

theorem exec_acm_write {e : Fin 1028} {f : RegForm} (h : f.m.getLsbD 3 = true) (s : State) :
    exec (.acm e f) s = release e (.acm e f) f.delta.toNat f.neg f.pred
      { cls := 1, dur := 2, body := resultOf fun x => [.acm (f.m.getLsbD 0) (f.m.toNat / 2 % 4) (opA x f)] } s := by
  change execAcm e f s = _
  simp only [execAcm, h, if_true]
  rfl

/-- Settles O16: products are exact integers before they are kept, shifted or rounded; a supervisor engine's MAC and ACM act on its
accumulator at once. -/
theorem productsAndAccumulators : Obligations.ProductsAndAccumulators := by
  unfold Obligations.ProductsAndAccumulators
  refine ⟨fun e f s => ⟨?mul, ?muls, ?mulh, ?pmul, ?tmul⟩, fun e f s => ⟨?mac, ?macSup, ?acx, ?acmRead, ?acmWrite, ?acmSup⟩⟩
  case mul =>
    refine computes_res rfl (fun _ _ => rfl) fun _ x => ?_
    rw [aluMul, resEffects_wrap, wordI_mul, outside_mul]
  case muls => exact computes_res rfl (fun _ _ => rfl) fun _ x => ⟨_, wordI_clamp_toInt _, resEffects_sat ..⟩
  case mulh => exact computes_reg rfl (fun _ _ => rfl) fun _ x => ⟨_, aluMulh_toInt _ _, rfl⟩
  case pmul => exact computes_res rfl (fun _ _ => rfl) fun _ x => ⟨_, wordI_clamp_toInt _, resEffects_sat ..⟩
  case tmul => exact computes_reg rfl (fun _ _ => rfl) fun _ x => ⟨_, wordI_toNat _, rfl⟩
  case mac => exact computesPlant_of rfl (fun _ => rfl) fun _ => rfl
  case macSup =>
    intro u hr hw hc
    obtain ⟨t, hexec, ht⟩ := exec_supLeaves (g := landMac (f.m.getLsbD 0) (f.m.getLsbD 2) (f.m.getLsbD 1)
      ((opA (engine u e) f).toInt * (opB (engine u e) f).toInt) u.now) rfl rfl (fun _ _ => rfl) (landMac_keeps _ _ _ _ _) hr hw hc
    exact ⟨t, hexec, ht.accumulates (landMac_accumulates ..), ht.mem⟩
  case acx =>
    refine computes_res rfl (fun _ _ => rfl) fun _ x => ⟨fun h => ?_, fun h => ?_⟩
    · rw [h]; exact ⟨_, wordI_clamp_toInt _, resEffects_sat ..⟩
    · rw [h]; exact ⟨_, wordI_clamp_toInt _, resEffects_sat ..⟩
  case acmRead =>
    intro h
    exact computes_reg (exec_acm_read h s) (fun _ _ => rfl)
      fun hwf x => ⟨_, rfl, fun k hk => accWord_getLsbD _ (acm_wellFormed hwf) hk⟩
  case acmWrite => exact fun h => computesPlant_of (exec_acm_write h s) (fun _ => rfl) fun _ => rfl
  case acmSup =>
    intro h u hr hw hc
    obtain ⟨t, hexec, ht⟩ := exec_supLeaves (g := fun x => accPut (f.m.getLsbD 0) (accSet (accOf x (f.m.getLsbD 0)) (f.m.toNat / 2 % 4)
      (opA (engine u e) f)) x) (exec_acm_write h s) rfl (fun _ _ => rfl)
      (fun x => accPut_registers _ _ x) hr hw hc
    exact ⟨t, hexec, ht.writesPart (acm_wellFormed hr.2.1), ht.mem⟩

end Sys2Proof.Machine
end

section
/-! SUPPORT. Division, the square root and the rotations (R54, R94 to R96). -/

namespace Sys2Proof.Machine

/-! Division (R54). -/

/-- R54: what division by zero gives. -/
theorem divZero_toInt (a : Word) : (if a = 0 then 0 else if a.toInt < 0 then wordI maxN else wordI maxP : Word).toInt =
    if a = 0 then 0 else if a.toInt < 0 then -2 ^ 35 else 2 ^ 35 - 1 := by
  split
  · rfl
  · split <;> rfl

/-- R54: a quotient `q`, saturated with D, or the result of a zero divisor with D. -/
theorem resEffects_quotient (d : BitVec 6) (a b : Word) (q : Int) :
    ∃ v : Word,
      resEffects d (if b = 0 then (if a = 0 then 0 else if a.toInt < 0 then wordI maxN else wordI maxP, some 2) else satWith 2 q)
        = setsIf d v 2 (b == 0 || outside q)
      ∧ (b ≠ 0 → v.toInt = clamp q)
      ∧ (b = 0 → v.toInt = if a = 0 then 0 else if a.toInt < 0 then -2 ^ 35 else 2 ^ 35 - 1) := by
  by_cases hb : b = 0
  · exact ⟨_, by rw [if_pos hb, beq_iff_eq.2 hb]; rfl, fun h => absurd hb h, fun _ => divZero_toInt a⟩
  · exact ⟨_, by rw [if_neg hb, resEffects_sat, beq_eq_false_iff_ne.2 hb, Bool.false_or], fun _ => wordI_clamp_toInt q,
      fun h => absurd h hb⟩

theorem aluDiv_flag (a b : Word) : (aluDiv a b).2 = if b == 0 || outside (a.toInt.tdiv b.toInt) then some 2 else none := by
  unfold aluDiv
  by_cases hb : b = 0
  · rw [if_pos hb, beq_iff_eq.2 hb]; rfl
  · rw [if_neg hb, satWith_eq, beq_eq_false_iff_ne.2 hb, Bool.false_or]

/-- R54: the remainder, which for a zero divisor is the dividend. -/
theorem aluRem_toInt (a b : Word) : (aluRem a b).1.toInt = a.toInt - a.toInt.tdiv b.toInt * b.toInt := by
  have hmod : a.toInt - a.toInt.tdiv b.toInt * b.toInt = a.toInt.tmod b.toInt := by
    rw [Int.tmod_def, mul_comm]
  rw [hmod]
  unfold aluRem
  split
  · next hb => rw [hb]; exact (Int.tmod_zero _).symm
  · next hb =>
    have hb0 : 0 < b.toInt.natAbs := Int.natAbs_pos.2 fun h => hb (BitVec.toInt_inj.1 h)
    have hlt : (a.toInt.tmod b.toInt).natAbs < b.toInt.natAbs := Int.natAbs_tmod a.toInt b.toInt ▸ Nat.mod_lt _ hb0
    obtain ⟨hlo, hhi⟩ := word_toInt_bounds b
    exact wordI_toInt (by omega) (by omega)

/-! The square root (R96). -/

/-- The bits of the root below 2^n, from the bits above. -/
theorem isqrtBits_spec (v n r : Nat) (hlo : r * r ≤ v) (hhi : v < (r + 2 ^ n) * (r + 2 ^ n)) :
    isqrtBits v n r * isqrtBits v n r ≤ v ∧ v < (isqrtBits v n r + 1) * (isqrtBits v n r + 1) := by
  induction n generalizing r with
  | zero => exact ⟨hlo, pow_zero 2 ▸ hhi⟩
  | succ n ih =>
    rw [isqrtBits]
    split
    · next h => exact ih _ h (by rw [add_assoc, ← two_mul, ← pow_succ']; exact hhi)
    · next h => exact ih _ hlo (not_le.1 h)

/-- R96: the root to the nearest integer. -/
theorem nearest_root {v r : Nat} (hlo : r * r ≤ v) (hhi : v < (r + 1) * (r + 1)) {n : Nat}
    (hn : n = if r * r + r < v then r + 1 else r) :
    (n ≠ 0 → (2 * (n : Int) - 1) ^ 2 ≤ 4 * v) ∧ 4 * (v : Int) < (2 * (n : Int) + 1) ^ 2 := by
  subst hn
  split
  · next h =>
    have h1 : (r * r + r + 1 : Int) ≤ v := by exact_mod_cast h
    have h2 : (v : Int) < (r + 1) * (r + 1) := by exact_mod_cast hhi
    push_cast
    exact ⟨fun _ => by linarith, by nlinarith⟩
  · next h =>
    have h1 : (v : Int) ≤ r * r + r := by exact_mod_cast not_lt.1 h
    have h2 : (r * r : Int) ≤ v := by exact_mod_cast hlo
    refine ⟨fun h0 => ?_, by linarith⟩
    have : (1 : Int) ≤ r := by exact_mod_cast Nat.one_le_iff_ne_zero.2 h0
    linarith

/-- R96: the root of a word times 2^30, which no word exceeds; 0 with S for a negative operand. -/
theorem cordSqrt_spec (a : Word) : ∃ v : Word, cordSqrt a = (v, if decide (a.toInt < 0) then some 1 else none) ∧ 0 ≤ v.toInt
    ∧ (a.toInt < 0 → v = 0)
    ∧ (0 ≤ a.toInt → (v ≠ 0 → (2 * v.toInt - 1) ^ 2 ≤ 4 * (a.toInt * 2 ^ 30))
      ∧ 4 * (a.toInt * 2 ^ 30) < (2 * v.toInt + 1) ^ 2) := by
  unfold cordSqrt
  by_cases hneg : a.toInt < 0
  · exact ⟨0, by rw [if_pos hneg, decide_eq_true hneg]; rfl, le_rfl, fun _ => rfl, fun h => absurd hneg h.not_gt⟩
  · have hnat : (a.toNat : Int) = a.toInt := (BitVec.toInt_eq_toNat_of_lt (by rw [BitVec.toInt_neg_iff] at hneg; omega)).symm
    have hbound := (word_toInt_bounds a).2
    rw [if_neg hneg, decide_eq_false hneg]
    extract_lets v r
    obtain ⟨hlo, hhi⟩ : r * r ≤ v ∧ v < (r + 1) * (r + 1) := isqrtBits_spec v 36 0 (Nat.zero_le _) (by omega)
    clear_value r
    have hr : r < 2 ^ 33 := by by_contra hge; have : 2 ^ 33 * 2 ^ 33 ≤ r * r := Nat.mul_le_mul (by omega) (by omega); omega
    obtain ⟨n, hn⟩ : ∃ n, n = if r * r + r < v then r + 1 else r := ⟨_, rfl⟩
    have hn34 : n < 2 ^ 34 := by rw [hn]; split <;> omega
    have hval : (word n).toInt = n := by
      rw [BitVec.toInt_eq_toNat_of_lt] <;> rw [word_toNat _ (by omega)]; omega
    have hv : (v : Int) = a.toInt * 2 ^ 30 := by rw [← hnat]; push_cast; rfl
    obtain ⟨hbelow, habove⟩ := nearest_root hlo hhi hn
    rw [hv] at hbelow habove
    refine ⟨word n, by rw [hn]; rfl, by rw [hval]; omega, fun h => absurd h hneg,
      fun _ => ⟨fun h0 => ?_, by rw [hval]; exact habove⟩⟩
    rw [hval]
    exact hbelow fun h => h0 (by rw [h]; rfl)

/-! The rotations (R94, R95). -/

theorem wAfter_append (fs gs : List Effect) (r : Nat) (old : Word) : wAfter (fs ++ gs) r old = wAfter gs r (wAfter fs r old) :=
  List.foldl_append

theorem fAfter_append (fs gs : List Effect) (k : Fin 3) (old : Bool) : fAfter (fs ++ gs) k old = fAfter gs k (fAfter fs k old) :=
  List.foldl_append

theorem wAfter_resEffects (d : BitVec 6) (v : Res) (r : Nat) (old : Word) :
    wAfter (resEffects d v) r old = if d.toNat = r % 64 then v.1 else old := by
  have hd : d.toNat % 64 = d.toNat := Nat.mod_eq_of_lt d.isLt
  obtain ⟨w, _ | k⟩ := v <;> simp [resEffects, wAfter, hd]

theorem fAfter_resEffects (d : BitVec 6) (v : Res) (k : Fin 3) (old : Bool) :
    fAfter (resEffects d v) k old = (old || v.2 == some k) := by
  obtain ⟨w, _ | j⟩ := v <;> simp [resEffects, fAfter]

theorem wAfter_pairEffects (d : BitVec 6) (v : Res × Res) (r : Nat) (old : Word) :
    wAfter (pairEffects d v) r old = if (d.toNat + 1) % 64 = r % 64 then v.2.1 else if d.toNat = r % 64 then v.1.1 else old := by
  rw [pairEffects, wAfter_append, wAfter_resEffects, wAfter_resEffects]
  rfl

theorem fAfter_pairEffects (d : BitVec 6) (v : Res × Res) (k : Fin 3) (old : Bool) :
    fAfter (pairEffects d v) k old = (old || v.1.2 == some k || v.2.2 == some k) := by
  rw [pairEffects, fAfter_append, fAfter_resEffects, fAfter_resEffects]

theorem pairEffects_plain (d : BitVec 6) (v : Res × Res) : ∀ f ∈ pairEffects d v, plainEffect f = true := fun f hf =>
  (List.mem_append.1 hf).elim (resEffects_plain _ _ f) (resEffects_plain _ _ f)

theorem pairEffects_nonempty (d : BitVec 6) (v : Res × Res) : (pairEffects d v).isEmpty = false := by
  obtain ⟨⟨w, _ | k⟩, r⟩ := v <;> rfl

/-- A computing instruction whose two results go to wd and w(d+1). -/
theorem computes_pair {s : State} {e : Fin 1028} {i : Instr} {delta : Nat} {neg : Bool} {pred : BitVec 3} {u : UnitKind} {cls dur : Nat}
    {d : BitVec 6} {R : Engine → Res × Res} {P : Engine → List Effect → Prop}
    (hx : exec i s = release e i delta neg pred { unit := u, cls := cls, dur := dur, body := resultOf fun x => pairEffects d (R x) } s)
    (hR : ∀ p x, R (supEngine p x) = R x)
    (hP : ∀ x, P x (pairEffects d (R x))) : computes s e i delta neg pred u cls dur P :=
  computes_plain hx (fun p x => by rw [hR]) (fun _ => pairEffects_plain _ _) (fun _ => pairEffects_nonempty _ _) fun _ => hP

/-- Settles O17: a quotient is saturated with D, the root is found bit by bit, and two results of a rotation go to two registers. -/
theorem divisionAndCordic : Obligations.DivisionAndCordic := by
  unfold Obligations.DivisionAndCordic
  refine ⟨fun e f s => ⟨?div, ?rem, ?pdiv, ?sqrt⟩, fun e f s => ⟨?sincos, ?vrot, ?atan2, ?mag⟩⟩
  case div => exact computes_res rfl (fun _ _ => rfl) fun _ x => resEffects_quotient f.d (opA x f) (opB x f) _
  case rem =>
    refine computes_res rfl (fun _ _ => rfl) fun _ x => ⟨_, ?_, aluRem_toInt _ _⟩
    rw [← resEffects_setsIf, ← aluDiv_flag]
    rfl
  case pdiv => exact computes_res rfl (fun _ _ => rfl) fun _ x => resEffects_quotient f.d (opA x f) (opB x f) _
  case sqrt =>
    refine computes_res rfl (fun _ _ => rfl) fun _ x => ?_
    obtain ⟨v, hv, hroot⟩ := cordSqrt_spec (opA x f)
    exact ⟨v, by rw [hv, resEffects_setsIf], hroot⟩
  case sincos => exact computes_pair rfl (fun _ _ => rfl) fun x r old _ => by rw [wAfter_pairEffects]
  case vrot =>
    exact computes_pair rfl (fun _ _ => rfl)
      fun x => ⟨fun r old _ => by rw [wAfter_pairEffects, vrotOf], fun k old => by rw [fAfter_pairEffects, vrotOf]⟩
  case atan2 => exact computes_reg rfl (fun _ _ => rfl) fun _ _ => rfl
  case mag => exact computes_res rfl (fun _ _ => rfl) fun _ x => ⟨wAfter_resEffects f.d _, fAfter_resEffects f.d _⟩

end Sys2Proof.Machine
end

section
/-! SUPPORT. Releases without effect: a false condition, what is not yet due, and reserved encodings (R67 to R70, R119, R149). -/

namespace Sys2Proof.Machine

/-! What a release leaves alone. -/

theorem archKept.refl (x : Engine) : archKept x x := ⟨rfl, rfl, rfl, rfl, rfl, rfl, rfl, rfl⟩

theorem restKept.trans {s t u : State} (h : restKept s t) (k : restKept t u) : restKept s u := by
  obtain ⟨a1, a2, a3, a4, a5, a6, a7, a8, a9, a10, a11, a12, a13, a14, hregs⟩ := h
  obtain ⟨b1, b2, b3, b4, b5, b6, b7, b8, b9, b10, b11, b12, b13, b14, kregs⟩ := k
  exact ⟨b1.trans a1, b2.trans a2, b3.trans a3, b4.trans a4, b5.trans a5, b6.trans a6, b7.trans a7, b8.trans a8, b9.trans a9,
    b10.trans a10, b11.trans a11, b12.trans a12, b13.trans a13, b14.trans a14,
    fun a ha h1 h2 => (kregs a ha h1 h2).trans (hregs a ha h1 h2)⟩

/-- A change of the engines' table alone. -/
theorem restKept_of_eng {s t : State} (h : t = { s with eng := t.eng }) : restKept s t := by
  rw [h]; exact ⟨rfl, rfl, rfl, rfl, rfl, rfl, rfl, rfl, rfl, rfl, rfl, rfl, rfl, rfl, fun _ _ _ _ => rfl⟩

theorem onlyEng_trans {s t u : State} (h : t = { s with eng := t.eng }) (k : u = { t with eng := u.eng }) :
    u = { s with eng := u.eng } := k.trans (congrArg (fun v : State => { v with eng := u.eng }) h)

theorem countIf_restKept (c : Bool) (e pos : Nat) (s : State) (h : rising s.regs) : restKept s (countIf c e pos s) := by
  unfold countIf
  split
  · exact ⟨countLock_mem .., countLock_chk .., countLock_ts .., countLock_priv .., countLock_sup ..,
      countLock_reqs .., countLock_ports .., countLock_time .., countLock_lio .., countLock_sig ..,
      countLock_saf .., countLock_boot .., countLock_mst .., countLock_pending ..,
      fun a _ h1 h2 => countLock_reg e pos s h a h1 h2⟩
  · exact restKept_of_eng rfl

theorem lateWith_restKept (code e pos sch act detail : Nat) (s : State) (h : rising s.regs) :
    restKept s (lateWith code e pos sch act detail s) :=
  ⟨lateWith_mem .., lateWith_chk .., lateWith_ts .., lateWith_priv .., lateWith_sup ..,
    lateWith_reqs .., lateWith_ports .., lateWith_time .., lateWith_lio .., lateWith_sig ..,
    lateWith_saf .., lateWith_boot .., lateWith_mst .., lateWith_pending ..,
    fun a ha h1 h2 => lateWith_reg _ _ _ _ _ _ s h a (List.ne_of_not_mem_cons ha) h1 h2
      (List.ne_of_not_mem_cons (List.not_mem_of_not_mem_cons ha))⟩

theorem lateRelease_restKept (e delta : Nat) (s : State) (h : rising s.regs) : restKept s (lateRelease e delta s) := by
  simp only [lateRelease]
  split
  · exact lateWith_restKept _ _ _ _ _ _ _ h
  · exact restKept_of_eng rfl

/-- State `t` is state `s` after an operation of engine `e` on its own timing state: position, loops, wait, unit and schedule (R101, R133). -/
structure Timed (e : Nat) (s t : State) : Prop where
  frame : t = { s with eng := t.eng }
  rise : rising t.eng
  others : ∀ j, j ≠ e → engine t j = engine s j
  arch : archKept (engine s e) (engine t e)
  lockOpen : (engine t e).lockOpen = (engine s e).lockOpen
  lockCnt : (engine t e).lockCnt = (engine s e).lockCnt

theorem Timed.trans {e : Nat} {s t u : State} (h : Timed e s t) (k : Timed e t u) : Timed e s u where
  frame := onlyEng_trans h.frame k.frame
  rise := k.rise
  others j hj := (k.others j hj).trans (h.others j hj)
  arch := h.arch.trans k.arch
  lockOpen := k.lockOpen.trans h.lockOpen
  lockCnt := k.lockCnt.trans h.lockCnt

theorem timed_modEngine {e : Nat} {s : State} {f : Engine → Engine} (h : rising s.eng) (ha : ∀ x, archKept x (f x))
    (hl : ∀ x, (f x).lockOpen = x.lockOpen ∧ (f x).lockCnt = x.lockCnt) : Timed e s (modEngine e f s) where
  frame := rfl
  rise := modEngine_rising _ _ _ h
  others j hj := engine_modEngine_ne _ _ _ _ h hj
  arch := by rw [engine_modEngine_same _ _ _ h]; exact ha _
  lockOpen := by rw [engine_modEngine_same _ _ _ h]; exact (hl _).1
  lockCnt := by rw [engine_modEngine_same _ _ _ h]; exact (hl _).2

theorem timed_takeUnit {e now : Nat} {held : List Nat} {u : UnitKind} {s : State} (h : rising s.eng) :
    Timed e s (modEngine e (takeUnit now held u) s) :=
  timed_modEngine h (takeUnit_arch _ _ _) fun x => by cases u <;> exact ⟨rfl, rfl⟩

theorem timed_openLoop {e : Nat} {dead : Bool} {f : ImmForm} {s : State} (h : rising s.eng) : Timed e s (openLoop e dead f s) :=
  timed_modEngine h (fun x => by split <;> exact archKept.refl _) fun x => by split <;> exact ⟨rfl, rfl⟩

/-- R70, R126: an engine whose release is booked. -/
def booked (now r : Nat) (x : Engine) : Engine :=
  countStep (stepPos now { x with prev := r, ord := x.ord + 1, entry := none, ran := true, lastRel := now + 1 })

theorem released_eq (e r : Nat) (s : State) : released e r s = modEngine e (booked s.now r) s := rfl

theorem countStep_timing (x : Engine) : (countStep x).lockOpen = x.lockOpen ∧ (countStep x).lockCnt = x.lockCnt
    ∧ (countStep x).pos = x.pos ∧ (countStep x).prev = x.prev ∧ (countStep x).rest = x.rest := by
  unfold countStep; split <;> exact ⟨rfl, rfl, rfl, rfl, rfl⟩

theorem stepPos_timing (now : Nat) (x : Engine) : (stepPos now x).lockOpen = x.lockOpen ∧ (stepPos now x).lockCnt = x.lockCnt
    ∧ (stepPos now x).pos = (advance x.loops (x.pos + 1)).1 ∧ (stepPos now x).prev = x.prev ∧ (stepPos now x).rest = x.rest := by
  unfold stepPos
  extract_lets a y
  split <;> exact ⟨rfl, rfl, rfl, rfl, rfl⟩

/-- R101: what a plan position's advance puts in flight is a loop's index, 1 tick later. -/
theorem mem_stepPos_fly {now : Nat} {x : Engine} {l : Landing} (h : l ∈ (stepPos now x).fly) :
    l ∈ x.fly ∨ (l.land = now + 1 ∧ l.effs = (advance x.loops (x.pos + 1)).2.2) := by
  revert h
  unfold stepPos
  extract_lets a y
  split
  · exact .inl
  · intro h
    rcases (addLanding_fly ..).1 h with rfl | hl
    · exact .inr ⟨rfl, rfl⟩
    · exact .inl hl

theorem booked_arch (now r : Nat) (x : Engine) : archKept x (booked now r x) :=
  archKept.trans (y := { x with prev := r, ord := x.ord + 1, entry := none, ran := true, lastRel := now + 1 }) (archKept.refl x)
    ((stepPos_arch _ _).trans (countStep_arch _))

theorem booked_timing (now r : Nat) (x : Engine) : (booked now r x).lockOpen = x.lockOpen ∧ (booked now r x).lockCnt = x.lockCnt
    ∧ (booked now r x).pos = (advance x.loops (x.pos + 1)).1 ∧ (booked now r x).prev = r ∧ (booked now r x).rest = x.rest := by
  obtain ⟨c1, c2, c3, c4, c5⟩ := countStep_timing (stepPos now { x with
    prev := r, ord := x.ord + 1, entry := none, ran := true, lastRel := now + 1 })
  obtain ⟨p1, p2, p3, p4, p5⟩ := stepPos_timing now { x with prev := r, ord := x.ord + 1, entry := none, ran := true, lastRel := now + 1 }
  exact ⟨c1.trans p1, c2.trans p2, c3.trans p3, c4.trans p4, c5.trans p5⟩

theorem mem_booked_fly {now r : Nat} {x : Engine} {l : Landing} (h : l ∈ (booked now r x).fly) :
    l ∈ x.fly ∨ (l.land = now + 1 ∧ l.effs = (advance x.loops (x.pos + 1)).2.2) := by
  rw [booked, countStep_fly] at h
  have hl := mem_stepPos_fly h
  exact hl

theorem timed_released {e r : Nat} {s : State} (h : rising s.eng) : Timed e s (released e r s) :=
  timed_modEngine h (booked_arch _ _) fun x => ⟨(booked_timing _ _ x).1, (booked_timing _ _ x).2.1⟩

/-! The instructions. -/

/-- What an instruction does under a false condition: nothing, but for a LOOP, which opens its body disabled (R68, R104). -/
def idles (i : Instr) (e : Nat) (k : Issue) : Prop :=
  k.onFalse = nothing ∨ ∃ a g, i = .loop a g ∧ k.onFalse = fun _ s => (openLoop e true g s, [])

/-- R66, R106, R107, R133: every instruction is released as its word gives it. -/
theorem exec_instruction {i : Instr} {e : Fin 1028} {delta : Nat} {neg : Bool} {pred : BitVec 3} {u : UnitKind}
    (h : instrForm i = some (e, delta, neg, pred, u)) (s : State) :
    ∃ k, exec i s = release e i delta neg pred k s ∧ k.unit = u ∧ k.wait = isWait i ∧ idles i e k := by
  cases i with
  | loop a g => cases h; exact ⟨_, rfl, rfl, rfl, .inr ⟨_, _, rfl, rfl⟩⟩
  | _ => cases h <;> exact ⟨_, rfl, rfl, rfl, .inl rfl⟩

theorem idle_unit (k : Issue) : k.idle.unit = if k.unit = .shared then .none else k.unit :=
  if_congr beq_iff_eq rfl rfl

/-- R68, R133: an instruction that does nothing only takes its unit. -/
theorem execBody_nothing {k : Issue} (h : k.onFalse = nothing) (e : Nat) (s : State) :
    execBody e k.idle s = modEngine e (takeUnit s.now (portHeld s e) k.idle.unit) s := by
  have hb : k.idle.body = nothing := h
  simp only [execBody, hb]
  rfl

theorem timed_idle {i : Instr} {e : Nat} {k : Issue} (h : idles i e k) {s : State} (hr : rising s.eng) :
    Timed e s (execBody e k.idle s) := by
  obtain h | ⟨_, g, -, h⟩ := h
  · rw [execBody_nothing h]; exact timed_takeUnit hr
  · have hb : k.idle.body = fun _ s => (openLoop e true g s, []) := h
    have hrun : execBody e k.idle s =
        modEngine e (takeUnit s.now (portHeld s e) k.idle.unit) (openLoop e true g s) := by
      simp only [execBody, hb]
      rfl
    rw [hrun]
    exact (timed_openLoop hr).trans (timed_takeUnit (timed_openLoop hr).rise)

/-! A bracket's count (R114). -/

theorem countIf_rising (c : Bool) (e pos : Nat) (s : State) (h : rising s.eng) : rising (countIf c e pos s).eng := by
  unfold countIf; split
  · exact countLock_rising _ _ _ h
  · exact h

theorem countIf_open (c : Bool) (e pos : Nat) (s : State) (h : (engine s e).lockOpen = true → (engine s e).lockCnt < 31) :
    countIf c e pos s = { s with eng := (countIf c e pos s).eng } := by
  unfold countIf; split
  · exact countLock_open _ _ _ h
  · rfl

theorem countIf_timing (c : Bool) (e pos : Nat) (s : State) (h : rising s.eng) :
    (engine (countIf c e pos s) e).fly = (engine s e).fly ∧ (engine (countIf c e pos s) e).pos = (engine s e).pos
      ∧ (engine (countIf c e pos s) e).loops = (engine s e).loops ∧ (engine (countIf c e pos s) e).rest = (engine s e).rest := by
  unfold countIf; split
  · obtain ⟨-, hfly, -, hpos, hloops⟩ := countLock_engine e pos s h
    refine ⟨hfly, hpos, hloops, ?_⟩
    unfold countLock
    extract_lets x
    split
    · split
      · rw [engine_setEngine_same _ _ _ h]
      · rw [engine_congr (raise_eng _ _ _), engine_setEngine_same _ _ _ h]
    · rfl
  · exact ⟨rfl, rfl, rfl, rfl⟩

/-- A release that follows an operation of its engine on its own timing state: what it leaves alone. -/
theorem Timed.release {e r pos : Nat} {c : Bool} {v w : State} (h : Timed e v w) (hregs : rising v.regs) :
    archKept (engine v e) (engine (released e r (countIf c e pos w)) e)
      ∧ (∀ j, j ≠ e → engine (released e r (countIf c e pos w)) j = engine v j) ∧ restKept v (released e r (countIf c e pos w)) := by
  have hc := countIf_rising c e pos w h.rise
  have hwr : rising w.regs := by rw [h.frame]; exact hregs
  refine ⟨(h.arch.trans (countIf_engine c e pos w h.rise)).trans (timed_released hc).arch, fun j hj => ?_, ?_⟩
  · rw [(timed_released hc).others j hj, countIf_engine_ne _ _ _ _ _ h.rise hj, h.others j hj]
  · exact ((restKept_of_eng h.frame).trans (countIf_restKept _ _ _ _ hwr)).trans (restKept_of_eng rfl)

/-- And when the 32nd instruction of a bracket is not reached, it changes the engines' table alone. -/
theorem Timed.release_open {e r pos : Nat} {c : Bool} {v w : State} (h : Timed e v w)
    (hk : (engine v e).lockOpen = true → (engine v e).lockCnt < 31) :
    released e r (countIf c e pos w) = { v with eng := (released e r (countIf c e pos w)).eng } :=
  onlyEng_trans (onlyEng_trans h.frame (countIf_open _ _ _ _ (by rw [h.lockOpen, h.lockCnt]; exact hk))) rfl

/-! A false condition (R68). -/

theorem takeUnit_timing (now : Nat) (held : List Nat) (u : UnitKind) (x : Engine) : (takeUnit now held u x).pos = x.pos
    ∧ (takeUnit now held u x).loops = x.loops ∧ (takeUnit now held u x).rest = x.rest := by cases u <;> exact ⟨rfl, rfl, rfl⟩

theorem countIf_now (c : Bool) (e pos : Nat) (s : State) : (countIf c e pos s).now = s.now := by unfold countIf; split <;> simp

theorem countIf_late (c : Bool) (e pos : Nat) (s : State) : (countIf c e pos s).late = s.late := by unfold countIf; split <;> simp

theorem countIf_reg (c : Bool) (e pos : Nat) (s : State) (h : rising s.regs) (a : Nat) (h1 : a ≠ midLastF) (h2 : a ≠ midLog) :
    reg (countIf c e pos s) a = reg s a := by
  unfold countIf; split
  · exact countLock_reg _ _ _ h a h1 h2
  · rfl

theorem countIf_pairs (c : Bool) (e pos : Nat) (s : State) : (countIf c e pos s).pairs = s.pairs := by unfold countIf; split <;> simp

/-- R70, R101: the timing state of an engine whose release is booked, with the instruction counted in a bracket or not. -/
theorem release_timing {e r pos : Nat} {c : Bool} {w : State} (h : rising w.eng) {y : Engine}
    (hy : y = engine (released e r (countIf c e pos w)) e) :
    y.pos = (advance (engine w e).loops ((engine w e).pos + 1)).1 ∧ y.prev = r ∧ y.rest = (engine w e).rest
      ∧ (∀ l ∈ (engine w e).fly, l ∈ y.fly)
      ∧ ∀ l ∈ y.fly, l ∈ (engine w e).fly
        ∨ (l.land = w.now + 1 ∧ l.effs = (advance (engine w e).loops ((engine w e).pos + 1)).2.2) := by
  have hc := countIf_rising c e pos w h
  obtain ⟨kfly, kpos, kloops, krest⟩ := countIf_timing c e pos w h
  have hsub := (released_engine e r _ hc).2
  rw [released_eq, engine_modEngine_same _ _ _ hc, countIf_now] at hy
  rw [released_eq, engine_modEngine_same _ _ _ hc, countIf_now, ← hy, kfly] at hsub
  obtain ⟨-, -, bpos, bprev, brest⟩ := booked_timing w.now r (engine (countIf c e pos w) e)
  rw [← hy] at bpos bprev brest
  rw [kloops, kpos] at bpos
  refine ⟨bpos, bprev, brest.trans krest, hsub, fun l hl => ?_⟩
  rw [hy] at hl
  have hmem := mem_booked_fly hl
  rwa [kfly, kloops, kpos] at hmem

/-- R68, R101: an instruction that only takes its unit is released quietly. -/
theorem release_quietly {s : State} {e : Fin 1028} {delta r : Nat} {c : Bool} {u : UnitKind} {held : List Nat} (hw : s.wf) :
    quietly s (released e r (countIf c e (engine s e).pos (modEngine e (takeUnit s.now held u) (lateRelease e delta s)))) e delta r := by
  have hcan := (wf_iff_canonical s).1 hw
  have hlate : (lateRelease e delta s).eng = s.eng := lateRelease_eng _ _ _
  have he (j : Nat) : engine (lateRelease e delta s) j = engine s j := engine_congr hlate j
  have ht : Timed e (lateRelease e delta s) (modEngine e (takeUnit s.now held u) (lateRelease e delta s)) :=
    timed_takeUnit (hlate ▸ hcan.eng)
  obtain ⟨harch, hothers, hrest⟩ := ht.release (r := r) (pos := (engine s e).pos) (c := c) (lateRelease_rising _ _ _ hcan.regs)
  obtain ⟨hpos, hprev, hwait, hfly, hnew⟩ := release_timing (r := r) (pos := (engine s e).pos) (c := c) ht.rise rfl
  obtain ⟨upos, uloops, urest⟩ := takeUnit_timing s.now held u (engine s e)
  rw [engine_modEngine_same _ _ _ (hlate ▸ hcan.eng), he] at hpos hwait hfly hnew
  rw [upos, uloops] at hpos
  rw [urest] at hwait
  rw [takeUnit_fly] at hfly
  rw [takeUnit_fly, upos, uloops, modEngine_now, lateRelease_now] at hnew
  rw [he] at harch
  refine ⟨harch, ⟨fun j hj => (hothers j hj).trans (he j), ?_, (lateRelease_restKept e delta s hcan.regs).trans hrest, ?_⟩,
    hpos, hprev, hwait, hfly, fun l hl => (hnew l hl).imp id .inr⟩
  · rw [released_pairs, countIf_pairs, modEngine_pairs, lateRelease_pairs]
  · rintro ⟨hp, hk⟩
    have h := ht.release_open (r := r) (pos := (engine s e).pos) (c := c) (by rw [he]; exact hk)
    rw [lateRelease_punctual e delta s hp] at h ⊢
    exact h

/-! What may not be released, and reserved encodings (R69, R70, R119). -/

/-- R70: what may not be released yet leaves the state as it is. -/
theorem plantRelease_held {s : State} {e : Nat} {ok : Bool} {q : Sources} {delta : Nat} {neg : Bool} {pred : BitVec 3} {k : Issue}
    (h : mayIssue s e ok q delta k = false) : plantRelease e ok q delta neg pred k s = s := by
  rw [plantRelease, h]; rfl

theorem mayIssue_sound {s : State} {e : Nat} {q : Sources} {delta : Nat} {k : Issue} (hf : fetchBad s e = false) :
    mayIssue s e true q delta k = mayRelease s e q delta k.unit := by
  simp [mayIssue, reservedHere, hf]

theorem mayIssue_reserved {s : State} {e : Nat} {ok : Bool} {q : Sources} {delta : Nat} {k : Issue} (h : ok = false ∨ fetchBad s e = true) :
    mayIssue s e ok q delta k = mayRelease s e {} delta (if k.unit = .shared then .none else k.unit) := by
  have hres : reservedHere s e ok = true := by rcases h with h | h <;> simp [reservedHere, h]
  rw [mayIssue, if_pos hres, idle_unit]

theorem mayRelease_due {s : State} {e : Nat} {q : Sources} {delta : Nat} {u : UnitKind} (h : mayRelease s e q delta u = true) :
    (engine s e).prev + delta ≤ s.now := by
  simp only [mayRelease, Bool.and_eq_true, decide_eq_true_eq] at h
  obtain ⟨⟨⟨⟨⟨-, hdue⟩, -⟩, -⟩, -⟩, -⟩ := h
  exact hdue

/-- R119: a punctual reserved encoding that may be released does what it would under a false condition, after its late event. -/
theorem plantRelease_reserved {s : State} {e : Nat} {q : Sources} {delta : Nat} {neg : Bool} {pred : BitVec 3} {k : Issue}
    (hm : mayRelease s e {} delta (if k.unit = .shared then .none else k.unit) = true) (hh : haltsNow s e = false)
    (hf : fetchBad s e = false) (hp : s.now ≤ (engine s e).prev + delta) :
    plantRelease e false q delta neg pred k s = released e ((engine s e).prev + delta)
      (countIf k.counts e (engine s e).pos (execBody e k.idle (reservedReached e s))) := by
  have hnow : (if k.wait then s.now else (engine s e).prev + delta) = (engine s e).prev + delta := by
    have := mayRelease_due hm
    split <;> omega
  have hmay : mayIssue s e false q delta k = true := (mayIssue_reserved (.inl rfl)).trans hm
  simp [plantRelease, hmay, reservedHere, hh, hf, hnow, lateRelease_punctual e delta s hp]

/-! The late event of a reserved encoding (R149). -/

/-- R149: a late event marks the day as broken. -/
theorem lateRecord_broken {code master pos sch act : Nat} {s : State} (h : rising s.regs) :
    bitOf (lateRecord code master pos sch act s) fabStatus 0 = true := by
  have hset := bitOf_setBit_same s fabStatus 0 true h (by decide)
  unfold lateRecord
  extract_lets t
  split
  · exact hset
  · rw [bitOf, getF, reg_addSat, ← getF,
      getF_setF_other _ _ _ _ _ _ _ (setBit_rising _ _ _ _ h) (by decide) (by decide) (by decide) (by decide)]
    exact hset

theorem lateWith_broken {code master pos sch act detail : Nat} {s : State} (h : rising s.regs) :
    bitOf (lateWith code master pos sch act detail s) fabStatus 0 = true := by
  have hr := lateRecord_rising code master pos (sch % 2 ^ 28) (act % 2 ^ 28) s h
  have hreg : reg (lateWith code master pos sch act detail s) fabStatus =
      reg (lateRecord code master pos (sch % 2 ^ 28) (act % 2 ^ 28) s) fabStatus := by
    rw [lateWith, reg, breach_regs, ← reg, traceEngine_reg _ _ _ _ _ _ (raise_rising _ _ _ hr) _ (by decide),
      raise_reg _ _ _ hr _ (by decide) (by decide)]
  rw [bitOf_congr hreg]
  exact lateRecord_broken h

/-- R149: the record of a late event, while there is room. -/
theorem lateWith_late {code master pos sch act detail : Nat} {s : State} (h : s.late.length < 16) :
    (lateWith code master pos sch act detail s).late =
      s.late ++ [(word (code * 2 ^ 24 + master % 2048 * 2 ^ 13 + pos % 4096), sch % 2 ^ 28, act % 2 ^ 28)] := by
  rw [lateWith, breach_late, traceEngine_late, raise_late, lateRecord]
  exact congrArg State.late (if_pos h)

theorem reservedReached_eq {e : Nat} {s : State} (hf : fetchBad s e = false) : reservedReached e s =
    lateWith 0x181 e (engine s e).pos (dayTick s) (dayTick s) (detailEngine e (engine s e).pos) s := by
  simp [reservedReached, fetchFault, hf, lateEvent]

/-- A reserved encoding that a plant engine releases: it has no effect and is a late event, logged while the queue has room. -/
theorem reserved_released {s : State} {e : Fin 1028} {i : Instr} {k : Issue} {r : Nat} (hw : s.wf) (he : e.val < 1024)
    (hk : idles i e k) (hf : fetchBad s e = false) {t : State}
    (ht : t = released e r (countIf k.counts e (engine s e).pos (execBody e k.idle (reservedReached e s)))) :
    archKept (engine s e) (engine t e) ∧ (∀ j, j ≠ e.val → engine t j = engine s j) ∧ restKept s t ∧ bitOf t fabStatus 0 = true
      ∧ (s.late.length < 16 → ∃ n m, t.late = s.late
          ++ [(word (0x181 * 2 ^ 24 + e.val * 2 ^ 13 + (engine s e).pos % 4096), n, m)])
      ∧ (engine t e).prev = r := by
  have hcan := (wf_iff_canonical s).1 hw
  obtain ⟨v, hv⟩ : ∃ v, v = reservedReached e s := ⟨_, rfl⟩
  have hvl := hv.trans (reservedReached_eq hf)
  have hve : v.eng = s.eng := by rw [hvl]; exact lateWith_eng ..
  have hvr : rising v.regs := by rw [hvl]; exact lateWith_rising _ _ _ _ _ _ _ hcan.regs
  have hsv : restKept s v := by rw [hvl]; exact lateWith_restKept _ _ _ _ _ _ _ hcan.regs
  have hbit : bitOf v fabStatus 0 = true := by rw [hvl]; exact lateWith_broken hcan.regs
  rw [← hv] at ht
  have hbody : Timed e v (execBody e k.idle v) := timed_idle hk (hve ▸ hcan.eng)
  generalize execBody e k.idle v = w at hbody ht
  have hwl : w.late = v.late := by rw [hbody.frame]
  have hwr : w.regs = v.regs := by rw [hbody.frame]
  obtain ⟨harch, hothers, hrest⟩ := hbody.release (r := r) (pos := (engine s e).pos) (c := k.counts) hvr
  obtain ⟨-, hprev, -⟩ := release_timing (r := r) (pos := (engine s e).pos) (c := k.counts) hbody.rise (congrArg (engine · e) ht)
  rw [← ht, engine_congr hve] at harch
  rw [← ht] at hothers hrest
  have hreg : reg t fabStatus = reg v fabStatus := by
    rw [ht, reg, released_regs, ← reg, countIf_reg _ _ _ _ (hwr ▸ hvr) _ (by decide) (by decide), reg, hwr, reg]
  refine ⟨harch, fun j hj => (hothers j hj).trans (engine_congr hve j), hsv.trans hrest, (bitOf_congr hreg 0).trans hbit, fun hl => ?_, ?_⟩
  · have hmod : e.val % 2048 = e.val := Nat.mod_eq_of_lt (by omega)
    have hvlate := lateWith_late (code := 0x181) (master := e) (pos := (engine s e).pos) (sch := dayTick s) (act := dayTick s)
      (detail := detailEngine e (engine s e).pos) hl
    rw [← hvl, hmod] at hvlate
    exact ⟨_, _, by rw [ht, released_late, countIf_late, hwl, hvlate]⟩
  · exact hprev

/-- Settles O18: every instruction is released as its word gives it, so the cases of a release decide; under a false condition it only
takes its unit, and as a reserved encoding it is a late event besides. -/
theorem releasesWithoutEffect : Obligations.ReleasesWithoutEffect := by
  unfold Obligations.ReleasesWithoutEffect
  refine ⟨fun i s e delta neg pred u hi hloop hw hr hc => ?_, fun i s e delta neg pred u hi hw => ⟨?held, ?heldReserved, ?reserved, ?sup⟩⟩
  · obtain ⟨k, hexec, hunit, hwait, hidle | ⟨a, g, rfl, -⟩⟩ := exec_instruction hi s
    · subst hunit
      refine ⟨_, by rw [hexec, release, if_pos hr.1, plantRelease_false _ _ _ _ _ _ _ hr hc], ?_⟩
      rw [execBody_nothing hidle, hwait, lateRelease_now]
      exact release_quietly hw
    · cases hi
      exact absurd rfl (hloop g)
  all_goals obtain ⟨k, hexec, rfl, -, hidle⟩ := exec_instruction hi s
  case held =>
    intro he hwf hf hm
    rw [hexec, release, if_pos he, hwf, plantRelease_held ((mayIssue_sound hf).trans hm)]
  case heldReserved =>
    intro he hbad hm
    rw [hexec, release, if_pos he, plantRelease_held ((mayIssue_reserved hbad).trans hm)]
  case reserved =>
    intro he hwf hm hh hf hp
    refine ⟨_, ?_, reserved_released hw he hidle hf rfl⟩
    rw [hexec, release, if_pos he, hwf, plantRelease_reserved hm hh hf hp]
  case sup =>
    intro he hwf
    rw [hexec, release, if_neg (by omega), if_neg (by rw [hwf]; decide)]

end Sys2Proof.Machine
end

section
/-! SUPPORT. What every command leaves of the queues: each of them within the bound the spec gives it (R102, R109, R114, R149, R190, R210,
R213, R225, R498, R573, R577). One lemma says of each operation and command that it keeps the bounds; those of the operations that
write a queue hold the arguments. The lemmas are elaborated one after another, as those of the canonical form are. -/

set_option Elab.async false

namespace Sys2Proof.Machine

/-- R102, R109, R114: an engine's event queue, loop stack and bracket are within their bounds. -/
def Engine.bounded (x : Engine) : Prop := x.evq.length ≤ 16 ∧ x.loops.length ≤ 4 ∧ x.lockCnt < 32

/-- R210: a pair's input buffer is within its bound. -/
def Pair.bounded (p : Pair) : Prop := bufHeld p ≤ 64

/-- R577: the trace intake and the trace memory are within their bounds. -/
def Trace.bounded (t : Trace) : Prop := t.intake.length ≤ 1024 ∧ t.mem.length ≤ 16384

/-- The state with nothing but what the bounds speak of. -/
def queues (s : State) : State :=
  { late := s.late, ovr := s.ovr, mism := s.mism, viol := s.viol, tsRepairs := s.tsRepairs, logQ := s.logQ, eng := s.eng
    pairs := s.pairs, trace := { intake := s.trace.intake, mem := s.trace.mem } }

/-- The bounds, of every listed engine and pair. -/
structure Within (s : State) : Prop where
  lateMax : s.late.length ≤ 16
  ovrMax : s.ovr.length ≤ 16
  mismMax : s.mism.length ≤ 16
  violMax : s.viol.length ≤ 32
  repairsMax : s.tsRepairs.length ≤ 8
  logMax : s.logQ.length ≤ 256
  traceMax : s.trace.bounded
  engMax : ∀ p ∈ s.eng, p.2.bounded
  pairMax : ∀ p ∈ s.pairs, p.2.bounded

theorem engine_default_bounded : ({} : Engine).bounded := ⟨Nat.zero_le _, Nat.zero_le _, Nat.zero_lt_succ _⟩

theorem pair_default_bounded : ({} : Pair).bounded := Nat.zero_le _

theorem tabGet_of_mem {α : Type} {d : α} {l : List (Nat × α)} (hl : rising l) {x : Nat × α} (hx : x ∈ l) : tabGet d l x.1 = x.2 := by
  induction l with
  | nil => cases hx
  | cons y l ih =>
    obtain ⟨hbelow, htail⟩ := (rising_cons y.1 y.2 l).1 hl
    rcases List.mem_cons.1 hx with rfl | hx
    · simp [tabGet]
    · have := hbelow x hx
      simp only [tabGet]
      rw [if_neg (by omega), if_neg (by omega), ih htail hx]

theorem forall_mem_iff_tabGet {α : Type} {p : α → Prop} {d : α} {l : List (Nat × α)} (hl : rising l) (hd : p d) :
    (∀ x ∈ l, p x.2) ↔ ∀ k, p (tabGet d l k) :=
  ⟨fun h k => tabGet_all d l k hd h, fun h x hx => tabGet_of_mem hl hx ▸ h x.1⟩

/-- In a state of canonical form the bounds of the listed engines and pairs are those of all of them. -/
theorem bounded_iff_within {s : State} (hw : s.wf) : s.bounded ↔ Within s := by
  have hcan := (wf_iff_canonical s).1 hw
  have heng := forall_mem_iff_tabGet (p := Engine.bounded) (d := {}) hcan.eng engine_default_bounded
  have hpairs := forall_mem_iff_tabGet (p := Pair.bounded) (d := {}) hcan.pairs pair_default_bounded
  constructor
  · rintro ⟨h1, h2, h3, h4, h5, h6, h7, h8, he, hp⟩
    exact ⟨h1, h2, h3, h4, h5, h6, ⟨h7, h8⟩, heng.2 he, hpairs.2 hp⟩
  · intro h
    exact ⟨h.lateMax, h.ovrMax, h.mismMax, h.violMax, h.repairsMax, h.logMax, h.traceMax.1, h.traceMax.2, heng.1 h.engMax,
      hpairs.1 h.pairMax⟩

/-- After reset every queue is empty. -/
theorem resetWithin : Within State.reset := (bounded_iff_within reset_wf).1 reset_bounded

variable {s t : State}

theorem Within.of_queues (h : Within (queues s)) : Within s :=
  ⟨h.lateMax, h.ovrMax, h.mismMax, h.violMax, h.repairsMax, h.logMax, h.traceMax, h.engMax, h.pairMax⟩

protected theorem Within.queues (h : Within s) : Within (queues s) :=
  ⟨h.lateMax, h.ovrMax, h.mismMax, h.violMax, h.repairsMax, h.logMax, h.traceMax, h.engMax, h.pairMax⟩

/-- An operation that leaves the queues keeps the bounds. -/
protected theorem Within.same (h : Within s) (e : Machine.queues t = Machine.queues s := by rfl) : Within t :=
  .of_queues (e ▸ h.queues)

protected theorem Within.bump (h : Within s) : Within (bump s) := h.same
protected theorem Within.emit {a : Out} (h : Within s) : Within (emit a s) := h.same
protected theorem Within.noteBorn {a : Nat} {b : Bool} (h : Within s) : Within (noteBorn a b s) := h.same
protected theorem Within.noteWrote {a : Nat} (h : Within s) : Within (noteWrote a s) := h.same
protected theorem Within.modTelem {f : Telem → Telem} (h : Within s) : Within (modTelem f s) := h.same
protected theorem Within.modPwr {f : Pwr → Pwr} (h : Within s) : Within (modPwr f s) := h.same
protected theorem Within.modLink {f : Link → Link} (h : Within s) : Within (modLink f s) := h.same
protected theorem Within.modTime {f : Time → Time} (h : Within s) : Within (modTime f s) := h.same
protected theorem Within.modLio {f : Lio → Lio} (h : Within s) : Within (modLio f s) := h.same
protected theorem Within.modSaf {f : Saf → Saf} (h : Within s) : Within (modSaf f s) := h.same
protected theorem Within.modFpd {f : Fpd → Fpd} (h : Within s) : Within (modFpd f s) := h.same
protected theorem Within.modSig {f : Sig → Sig} (h : Within s) : Within (modSig f s) := h.same
protected theorem Within.modNwt {f : Watch → Watch} (h : Within s) : Within (modNwt f s) := h.same
protected theorem Within.modDay {f : Day → Day} (h : Within s) : Within (modDay f s) := h.same
protected theorem Within.modBoot {f : Boot → Boot} (h : Within s) : Within (modBoot f s) := h.same
protected theorem Within.modTrace {f : Trace → Trace} (h : Within s) (hf : (f s.trace).bounded := by exact h.traceMax) :
    Within (modTrace f s) := { h with traceMax := hf }

/-! Tables of engines and pairs. -/

protected theorem Within.engine (h : Within s) (e : Nat) : (engine s e).bounded :=
  tabGet_all _ _ _ engine_default_bounded h.engMax

protected theorem Within.pairOf (h : Within s) (k : Nat) : (pairOf s k).bounded := tabGet_all _ _ _ pair_default_bounded h.pairMax

protected theorem Within.setEngine {e : Nat} {x : Engine} (h : Within s) (hx : x.bounded) : Within (setEngine s e x) :=
  { h with engMax := tabSet_all (p := Engine.bounded) _ _ _ _ h.engMax hx }

protected theorem Within.modEngine {e : Nat} {f : Engine → Engine} (h : Within s)
    (hf : ∀ x, x.bounded → (f x).bounded := by exact fun _ hx => hx) : Within (modEngine e f s) := h.setEngine (hf _ (h.engine e))

protected theorem Within.setPair {k : Nat} {p : Pair} (h : Within s) (hp : p.bounded) : Within (setPair s k p) :=
  { h with pairMax := tabSet_all (p := Pair.bounded) _ _ _ _ h.pairMax hp }

protected theorem Within.modPair {k : Nat} {f : Pair → Pair} (h : Within s)
    (hf : ∀ p, p.bounded → (f p).bounded := by exact fun _ hp => hp) : Within (modPair k f s) := h.setPair (hf _ (h.pairOf k))

/-- Every engine changed by `f`. -/
protected theorem Within.mapEngines {f : Engine → Engine} (h : Within s) (hf : ∀ x, x.bounded → (f x).bounded) :
    Within { s with eng := s.eng.foldl (fun t p => tabSet {} t p.1 (f p.2)) [] } :=
  { h with
    engMax := tabSetAll_all (p := Engine.bounded) {} (fun p : Nat × Engine => (p.1, f p.2)) s.eng [] (by simp)
      fun b hb => hf _ (h.engMax b hb) }

/-- The next state, where there is one, is within the bounds. -/
def WithinNext : Host.Outcome State Fault Refusal → Prop
  | .next t => Within t
  | _ => True


/-! What lengthens a queue. -/

theorem length_snoc_le {α : Type} {l : List α} {x : α} {n : Nat} (h : l.length < n) : (l ++ [x]).length ≤ n := by
  rw [List.length_append]; exact h

theorem length_logInsert (x : LogEnt) (l : List LogEnt) : (logInsert x l).length = l.length + 1 := by
  induction l with
  | nil => rfl
  | cons y l ih =>
    rw [logInsert]
    split
    · rfl
    · rw [List.length_cons, ih, List.length_cons]

theorem Trace.bounded.take {tr : Trace} {now : Nat} {r : List Word} (h : tr.bounded) (hroom : tr.intake.length < 1024) :
    (tr.take now r).bounded := ⟨length_snoc_le hroom, h.2⟩

/-! What an engine's own operations leave of its queue, loops and bracket. -/

theorem wSet_bounded (r : Nat) (v : Word) (x : Engine) : (wSet r v x).bounded ↔ x.bounded := by
  unfold wSet; split <;> exact Iff.rfl

theorem pSet_bounded (n : Nat) (v : Bool) (x : Engine) : (pSet n v x).bounded ↔ x.bounded := by
  unfold pSet; split <;> exact Iff.rfl

theorem setFlag_bounded (f : Fin 3) (land : Nat) (x : Engine) : (setFlag f land x).bounded ↔ x.bounded := by
  unfold setFlag; split <;> exact Iff.rfl

theorem accPut_bounded (one : Bool) (v : BitVec 80) (x : Engine) : (accPut one v x).bounded ↔ x.bounded := by
  cases one <;> exact Iff.rfl

theorem landMac_bounded (one zero neg : Bool) (prod : Int) (land : Nat) (x : Engine) :
    (landMac one zero neg prod land x).bounded ↔ x.bounded := by
  unfold landMac
  extract_lets v
  split
  · exact (setFlag_bounded _ _ _).trans (accPut_bounded _ _ _)
  · exact accPut_bounded _ _ _

theorem countStep_bounded (x : Engine) : (countStep x).bounded ↔ x.bounded := by
  unfold countStep; split <;> exact Iff.rfl

theorem takeUnit_bounded (now : Nat) (held : List Nat) (u : UnitKind) (x : Engine) : (takeUnit now held u x).bounded ↔ x.bounded := by
  cases u <;> exact Iff.rfl

/-- R101 to R103: an instruction at the end of a body leaves the loop stack or closes loops. -/
theorem advanceIn_length (n : Nat) (ls : List LoopEnt) (p : Nat) : (advanceIn n ls p).2.1.length ≤ ls.length := by
  induction ls with
  | nil => exact le_rfl
  | cons l ls ih =>
    rw [advanceIn]
    split
    · split
      · exact le_rfl
      · exact ih.trans (Nat.le_succ _)
    · exact le_rfl

theorem stepPos_bounded {now : Nat} {x : Engine} (h : x.bounded) : (stepPos now x).bounded := by
  have hx : ({ x with pos := (advance x.loops (x.pos + 1)).1, loops := (advance x.loops (x.pos + 1)).2.1 } : Engine).bounded :=
    ⟨h.1, (advanceIn_length _ _ _).trans h.2.1, h.2.2⟩
  unfold stepPos
  extract_lets a y
  split
  · exact hx
  · exact hx

/-- R107: the outcome of a wait leaves the queue, the loops and the bracket. -/
theorem waitResult_bounded (now ord : Nat) (event : Bool) (d m : Nat) (w : Word) (x : Engine) :
    (waitResult now ord event d m w x).bounded ↔ x.bounded := (pSet_bounded _ _ _).trans (wSet_bounded _ _ _)

theorem wPut_bounded (t ord : Nat) (ws : List (Nat × Word)) (x : Engine) : (wPut t ord ws x).bounded ↔ x.bounded := by
  unfold wPut
  extract_lets fs
  have hfold (l : List Effect) (y : Engine) :
      (l.foldl (fun x f => match f with | .reg r v => wSet r v x | _ => x) y).bounded ↔ y.bounded := by
    induction l generalizing y with
    | nil => exact Iff.rfl
    | cons f l ih =>
      rw [List.foldl_cons, ih]
      split
      · exact wSet_bounded _ _ _
      · exact Iff.rfl
  exact hfold _ _

theorem deliver_bounded (t ord : Nat) (inp : Input) (x : Engine) : (deliver t ord inp x).bounded ↔ x.bounded := by
  cases inp with
  | lds d v => exact wPut_bounded _ _ _ _
  | tstamp d ws => exact wPut_bounded _ _ _ _
  | waitT => exact Iff.rfl
  | waitEv event d m v => exact waitResult_bounded _ _ _ _ _ _ _

theorem copyWord_bounded (i : Nat) (l x : Engine) : (copyWord i l x).bounded ↔ x.bounded := by
  unfold copyWord
  split
  · exact wSet_bounded _ _ _
  · split
    · exact Iff.rfl
    · split <;> exact Iff.rfl

/-- R386: an image holds 16 events at most, and its engine is restored outside any loop or bracket. -/
theorem imageInto_bounded (now : Nat) (ws : List Word) (x : Engine) : (imageInto now ws x).bounded :=
  ⟨by rw [imageInto, List.length_map, List.length_range]; exact Nat.min_le_right _ _, Nat.zero_le _, Nat.zero_lt_succ _⟩

theorem restoreCounts_bounded (now : Nat) (x : Engine) : (restoreCounts now x).bounded ↔ x.bounded := by
  unfold restoreCounts
  split
  · exact Iff.rfl
  · rw [Engine.bounded, Engine.bounded, List.length_map]

/-- R112: an engine outside any loop and bracket is bounded where its queue is. -/
theorem bounded_rest {x y : Engine} (h : x.bounded) (hev : y.evq = x.evq := by rfl) (hloops : y.loops = [] := by rfl)
    (hlock : y.lockCnt = 0 ∨ y.lockCnt = x.lockCnt := by first | exact .inl rfl | exact .inr rfl) : y.bounded :=
  ⟨hev ▸ h.1, hloops ▸ Nat.zero_le _, hlock.elim (· ▸ Nat.zero_lt_succ _) (· ▸ h.2.2)⟩

/-! What shortens a queue. -/

theorem tail_le {α : Type} {l m : List α} {x : α} {n : Nat} (he : l = x :: m) (h : l.length ≤ n) : m.length ≤ n :=
  (Nat.le_succ _).trans ((congrArg List.length he).ge.trans h)

/-! The entries of a pair's input buffer (R210). -/

/-- The entries that an input takes. -/
def BufEnt.taken (b : BufEnt) : Nat := if b.lost then 0 else b.n

theorem bufHeld_eq_sum (p : Pair) : bufHeld p = (p.buf.map BufEnt.taken).sum := by
  have hfold (l : List BufEnt) (n : Nat) : l.foldl (fun n b => if b.lost then n else n + b.n) n = n + (l.map BufEnt.taken).sum := by
    induction l generalizing n with
    | nil => rfl
    | cons b l ih =>
      rw [List.foldl_cons, ih, List.map_cons, List.sum_cons, BufEnt.taken]
      split
      · rw [Nat.zero_add]
      · rw [Nat.add_assoc]
  exact (hfold p.buf 0).trans (Nat.zero_add _)

theorem bufHeld_snoc (p : Pair) (b : BufEnt) : bufHeld { p with buf := p.buf ++ [b] } = bufHeld p + b.taken := by
  rw [bufHeld_eq_sum, bufHeld_eq_sum, List.map_append, List.sum_append]; rfl

/-- R107: the event that ends a wait leaves the queue. -/
theorem dropEvent_bounded {s : State} {e : Nat} {any : Bool} {src latest : Nat} {x : Engine} (h : x.bounded) :
    (dropEvent s e any src latest x).bounded := ⟨(List.eraseP_sublist).length_le.trans h.1, h.2⟩

/-- R577: ordering the records of a tick keeps their number. -/
theorem length_traceOrder (l : List (List Word)) : (traceOrder l).length = l.length := by
  have hinsert (r : List Word) (m : List (List Word)) : (traceInsert r m).length = m.length + 1 := by
    induction m with
    | nil => rfl
    | cons x m ih =>
      rw [traceInsert]
      split
      · rw [List.length_cons, ih, List.length_cons]
      · rfl
  induction l with
  | nil => rfl
  | cons r l ih => rw [traceOrder, List.foldr_cons, ← traceOrder, hinsert, ih, List.length_cons]

theorem bufHeld_tail {p : Pair} {b : BufEnt} {l : List BufEnt} (h : p.buf = b :: l) : bufHeld { p with buf := l } ≤ bufHeld p := by
  rw [bufHeld_eq_sum, bufHeld_eq_sum, h, List.map_cons, List.sum_cons]
  exact Nat.le_add_left _ _

protected theorem Within.ite {p : Prop} [Decidable p] {a b : State} (ha : Within a) (hb : Within b) :
    Within (if p then a else b) := by split <;> assumption
protected theorem WithinNext.ite {p : Prop} [Decidable p] {a b : Host.Outcome State Fault Refusal} (ha : WithinNext a)
    (hb : WithinNext b) : WithinNext (if p then a else b) := by split <;> assumption
protected theorem Within.foldl {α : Type} {f : State → α → State} {l : List α} (h : Within s) (hf : ∀ a t, Within t → Within
    (f t a)) :
    Within (l.foldl f s) := by
  induction l generalizing s with
  | nil => exact h
  | cons a l ih => exact ih (hf a s h)
protected theorem Within.forUpto {n : Nat} {f : Nat → State → State} (h : Within s) (hf : ∀ i t, Within t → Within (f i t)) :
    Within (forUpto n f s) := h.foldl hf

protected theorem Within.setReg {a : Nat} {v : Word} (h : Within s) : Within (setReg s a v) := h.same
protected theorem Within.setF {a hi lo v : Nat} (h : Within s) : Within (setF s a hi lo v) := h.same
protected theorem Within.setBit {a b : Nat} {v : Bool} (h : Within s) : Within (setBit s a b v) := h.same
protected theorem Within.addSat {a hi lo n : Nat} (h : Within s) : Within (addSat s a hi lo n) := h.same
protected theorem Within.rcMax {a hi lo v : Nat} (h : Within s) : Within (rcMax s a hi lo v) := h.same
protected theorem Within.hwField {a hi lo v : Nat} (h : Within s) : Within (hwField s a hi lo v) := by
  unfold hwField
  split
  · exact h.same
  · exact h.same
protected theorem Within.applyHw (h : Within s) : Within (applyHw s) := by
  unfold applyHw
  extract_lets t
  have h1 : Within t := h.foldl fun _ _ h1 => .ite h1.setReg h1
  exact h1.same
protected theorem Within.setSup {e : Nat} {x : Sup} (h : Within s) : Within (setSup s e x) := h.same
protected theorem Within.setPort {e : Nat} {x : Port} (h : Within s) : Within (setPort s e x) := h.same
protected theorem Within.modChan {l : Nat} {f : Chan → Chan} (h : Within s) : Within (modChan l f s) := h.same
protected theorem Within.modDrive {l : Nat} {f : Drive → Drive} (h : Within s) : Within (modDrive l f s) := h.same
protected theorem Within.modConn {l : Nat} {f : Conn → Conn} (h : Within s) : Within (modConn l f s) := h.same
protected theorem Within.modInTest {l : Nat} {f : InTest → InTest} (h : Within s) : Within (modInTest l f s) := h.same
protected theorem Within.modSigChan {l : Nat} {f : SigCh → SigCh} (h : Within s) : Within (modSigChan l f s) := h.same
protected theorem Within.modStream {l : Nat} {f : Stream → Stream} (h : Within s) : Within (modStream l f s) := h.same
protected theorem Within.modRemote {l : Nat} {f : Remote → Remote} (h : Within s) : Within (modRemote l f s) := h.same
protected theorem Within.memSet {a : Nat} {v : Word} (h : Within s) : Within (memSet s a v) := h.same
protected theorem Within.touch {a : Nat} (h : Within s) : Within (touch a s) := h.same
protected theorem Within.setTs {off : Nat} {w : TsWord} (h : Within s) : Within (setTs off w s) := h.same
protected theorem Within.privSet {a : Nat} {w : Word} (h : Within s) : Within (privSet a w s) := h.same
protected theorem Within.latchWord {m n : Nat} {w : Word} (h : Within s) : Within (latchWord m n w s) := h.same

/-! The named operations over the state. -/

protected theorem Within.modSup {e : Nat} {f : Sup → Sup} (h : Within s) : Within (modSup e f s) := h.setSup
protected theorem Within.modPort {p : Nat} {f : Port → Port} (h : Within s) : Within (modPort p f s) := h.setPort
protected theorem Within.setLastF {code : Nat} (h : Within s) : Within (setLastF code s) := h.same

/-- R573: a raise folds into an entry that waits, joins a queue with room, or is counted lost. -/
protected theorem Within.logPush {code detail : Nat} (h : Within s) : Within (logPush code detail s) := by
  unfold Machine.logPush
  split
  · exact { h with logMax := (List.length_map _).trans_le h.logMax }
  · split
    · next hroom => exact { h with logMax := (length_logInsert _ _).trans_le hroom }
    · exact h.addSat.modTelem

protected theorem Within.raise {code detail : Nat} (h : Within s) : Within (raise code detail s) := h.setLastF.logPush

/-- R577: a record enters an intake with room, or is counted. -/
protected theorem Within.traceRec {ty kind master value pos : Nat} (h : Within s) :
    Within (traceRec ty kind master value pos s) := by
  unfold Machine.traceRec
  split
  · next hroom => exact h.modTrace (h.traceMax.take hroom)
  · exact h.modTrace.addSat

protected theorem Within.traceEngine {e ty kind value pos : Nat} (h : Within s) : Within (traceEngine e ty kind value pos s) :=
  .ite h.traceRec h

protected theorem Within.traceRest {e ty value pos : Nat} (h : Within s) : Within (traceRest e ty value pos s) :=
  .ite h.traceEngine h

protected theorem Within.sendFrame {lane ty seq : Nat} {ws : List Word} (h : Within s) : Within (sendFrame lane ty seq ws s) :=
  h.emit

protected theorem Within.abandonCheckpoint {reason : Nat} (h : Within s) : Within (abandonCheckpoint reason s) :=
  .ite (.ite h.modLink.sendFrame h.modLink) h

protected theorem Within.breach (h : Within s) : Within (breach s) := by
  unfold Machine.breach
  split
  · exact h.modDay
  · exact h

protected theorem Within.breachTick (h : Within s) : Within (breachTick s) := .ite h.abandonCheckpoint h

/-- R149: a late record joins a queue with room, or is counted. -/
protected theorem Within.lateRecord {code master pos sch act : Nat} (h : Within s) :
    Within (lateRecord code master pos sch act s) := by
  unfold Machine.lateRecord
  extract_lets t
  have ht : Within t := h.setBit
  split
  · next hroom => exact { ht with lateMax := length_snoc_le hroom }
  · exact ht.addSat

protected theorem Within.lateWith {code master pos sch act detail : Nat} (h : Within s) :
    Within (lateWith code master pos sch act detail s) :=
  h.lateRecord.raise.traceEngine.breach

protected theorem Within.lateEvent {code master pos sch act : Nat} (h : Within s) :
    Within (lateEvent code master pos sch act s) :=
  h.lateWith

protected theorem Within.safetySignal {code detail : Nat} (h : Within s) : Within (safetySignal code detail s) :=
  h.same.setBit.raise

protected theorem Within.mismatchResponse {k : Nat} (h : Within s) : Within (mismatchResponse k s) := by
  unfold Machine.mismatchResponse
  split
  · exact (Within.ite h.safetySignal h).setBit.breach
  · exact h.setBit
  · exact h

/-- R213: a mismatch record joins a queue with room, or is counted. -/
protected theorem Within.mismRecord {code k kind pos : Nat} {lead trail : Word} (h : Within s) :
    Within (mismRecord code k kind pos lead trail s) := by
  unfold Machine.mismRecord
  split
  · next hroom => exact { h with mismMax := length_snoc_le hroom }
  · exact h.addSat

protected theorem Within.enqueue {e : Nat} {w : Word} (h : Within s) : Within (enqueue e w s) := by
  obtain ⟨hev, hloops, hlock⟩ := h.engine e
  unfold Machine.enqueue
  extract_lets x
  split
  · next hroom => exact h.setEngine ⟨length_snoc_le hroom, hloops, hlock⟩
  · have hx : Within (Machine.setEngine s e { x with discards := x.discards + 1 }) := h.setEngine ⟨hev, hloops, hlock⟩
    exact hx.bump.raise

protected theorem Within.postEvent {src payload : Nat} (h : Within s) : Within (postEvent src payload s) := by
  unfold Machine.postEvent
  split
  · exact h.enqueue
  · exact h

/-! Engine registers and predicates, results in flight and their landing, loops and brackets, memory as an engine reaches it
(R64 to R73, R101 to R104, R113 to R115, R121 to R134). -/

protected theorem Within.markWrite {a : Nat} {old : Word} (h : Within s) : Within (markWrite a old s) :=
  .ite h (.ite (.ite h.modLink.modLink h.modLink.setBit.raise.abandonCheckpoint) h.modLink)

protected theorem Within.memWrite {master a : Nat} {v : Word} (h : Within s) : Within (memWrite master a v s) := by
  unfold Machine.memWrite
  extract_lets t u e
  have ht : Within t := .ite h.markWrite h
  have hu : Within u := ht.memSet
  split
  · exact hu.same
  · exact hu

protected theorem Within.memRead {plant : Option (Nat × Nat)} {a : Nat} (h : Within s) : Within (memRead plant a s).2 := by
  unfold Machine.memRead
  have hu : Within (modTelem (fun t => { t with uncor := t.uncor + 1 }) (Machine.addSat s fabMemErr 17 0 1)) := h.same
  split
  · exact h
  · have hc : Within (Machine.raise 0x130 a (Machine.addSat { s with chk := tabSet .ok s.chk a .ok } fabMemErr 35 18 1)) :=
      .raise h.same
    exact hc.same
  · rcases plant with _ | ⟨e, pos⟩
    · exact hu.raise
    · exact hu.lateWith

protected theorem Within.applyEffect {e land pos : Nat} {f : Effect} (h : Within s) : Within (applyEffect e land pos f s) := by
  cases f with
  | reg d v => exact h.modEngine fun x => (wSet_bounded d v x).2
  | pred n v => exact h.modEngine fun x => (pSet_bounded n v x).2
  | flag g => exact h.modEngine fun x => (setFlag_bounded g land x).2
  | clear m => exact h.modEngine
  | mac ac zero neg prod => exact h.modEngine fun x => (landMac_bounded ac zero neg prod land x).2
  | acm ac part v => exact h.modEngine (f := fun x => accPut ac (accSet (accOf x ac) part v) x) fun x => (accPut_bounded ac _ x).2
  | load off d => exact h.memRead.modEngine fun x => (wSet_bounded d _ x).2
  | store off v => exact h.memWrite

protected theorem Within.applyAll {e land pos : Nat} {fs : List Effect} (h : Within s) : Within (applyAll e land pos fs s) :=
  h.foldl fun _ _ ht => ht.applyEffect

/-- R114: the 32nd instruction of a bracket closes it. -/
protected theorem Within.countLock {e pos : Nat} (h : Within s) : Within (countLock e pos s) := by
  obtain ⟨hev, hloops, -⟩ := h.engine e
  unfold Machine.countLock
  extract_lets x
  split
  · split
    · next hroom => exact h.setEngine ⟨hev, hloops, hroom⟩
    · have hx : Within (Machine.setEngine s e { x with lockOpen := false, lockCnt := 0 }) := h.setEngine ⟨hev, hloops, Nat.zero_lt_succ _⟩
      exact hx.raise
  · exact h

protected theorem Within.addTx {e kind pos : Nat} {fields : List Word} (h : Within s) : Within (addTx e kind pos fields s) :=
  .ite h.modPair (.ite h.modPair h)

/-- R210: an input that does not fit is lost and takes no entry. -/
protected theorem Within.captureDue {e n due pos ord : Nat} {inp : Input} (h : Within s) :
    Within (captureDue e n due pos ord inp s) := by
  unfold Machine.captureDue
  extract_lets k p t u
  split
  · exact h
  · split
    · next hroom =>
      have ht : Within t := h.setPair (by rw [Pair.bounded, bufHeld_snoc]; exact hroom)
      exact ht.rcMax
    · have hu : Within u := h.setPair (by rw [Pair.bounded, bufHeld_snoc]; exact h.pairOf k)
      exact hu.setBit.raise.mismRecord.mismatchResponse

protected theorem Within.capture {e n ord : Nat} {inp : Input} (h : Within s) : Within (capture e n ord inp s) := h.captureDue

/-! The gates (R490 to R498). -/

/-- R498: a record joins those of its tick, and the last of them is lost where the queue is full. -/
protected theorem Within.queueViol {w : Word} {a : Nat} (h : Within s) : Within (queueViol w a s) := by
  unfold Machine.queueViol
  extract_lets k x tail new m all t u v
  have hv : Within v := { h with violMax := List.length_take_le _ _ }
  exact .ite hv hv.addSat

protected theorem Within.violate {m : Nat} {secure write : Bool} {v : Nat × Nat} {walk : Bool} {a : Word} (h : Within s) :
    Within (violate m secure write v walk a s) := by
  unfold Machine.violate
  extract_lets q u n w
  have hu : Within u := h.queueViol.setBit.addSat.modTelem
  have hn : Within n := hu.same
  have hw : Within w := .ite hn.setBit.raise hn
  split
  · exact hw
  · have hm : Within { w with violMasters := w.violMasters ++ [m] } := hw.same
    exact hm.raise

protected theorem Within.untouched (h : Within s) : Within (untouched s) := h.same
protected theorem Within.grantBackground {a : Nat} (h : Within s) : Within (grantBackground a s) := h.same

protected theorem Within.waitFor {m sub : Nat} {as : List Nat} (h : Within s) : Within (waitFor m sub as s) := h.same
protected theorem Within.settle {m sub : Nat} {as : List Nat} (h : Within s) : Within (settle m sub as s) := h.same
protected theorem Within.serveOwed (h : Within s) : Within (serveOwed s) := h.same

protected theorem Within.ifFree {m sub : Nat} {f : State → State} (h : Within s) (hf : ∀ x, Within x → Within (f x)) :
    Within (ifFree m sub f s) :=
  .ite ((hf _ h.untouched).settle) h.waitFor

protected theorem Within.mRead {m a : Nat} (h : Within s) : Within (mRead m a s).2 := by
  unfold Machine.mRead
  extract_lets s1 r2
  have hs1 : Within s1 := h.touch
  have hr2 : Within r2.2 := hs1.memRead
  split
  · exact hs1.violate
  · split
    · exact hr2
    · exact hs1

protected theorem Within.mWrite {m a : Nat} {v : Word} (h : Within s) : Within (mWrite m a v s) := by
  unfold Machine.mWrite
  extract_lets s1
  have hs1 : Within s1 := h.touch
  split
  · exact hs1.violate
  · exact .ite hs1.memWrite hs1

protected theorem Within.ownFault {fault : State → State} {t : State} (h : Within t) (hf : ∀ x, Within x → Within (fault x)) :
    Within (ownFault fault s t) :=
  .ite h (hf _ h)

protected theorem Within.mReads {m a n : Nat} (h : Within s) : Within (mReads m a n s).2 := by
  induction n generalizing a s with
  | zero => exact h
  | succ n ih => exact ih h.mRead

protected theorem Within.mWrites {m a : Nat} {ws : List Word} (h : Within s) : Within (mWrites m a ws s) :=
  h.foldl fun _ _ ht => ht.mWrite

/-! Synchronous reset of the signal channels (R348, R349). -/

protected theorem Within.applySync {sec us : Nat} (h : Within s) : Within (applySync sec us s) :=
  (((h.forUpto (fun _ _ ht => .ite ht.modSigChan ht)).hwField).setBit).raise

protected theorem Within.failSync (h : Within s) : Within (failSync s) := h.hwField.setBit.raise
protected theorem Within.syncPps (h : Within s) : Within (syncPps s) := .ite h.applySync h
protected theorem Within.syncMidnight (h : Within s) : Within (syncMidnight s) := .ite h.applySync h

/-! The time unit (R301 to R332). -/

protected theorem Within.dropTraffic {port : Nat} {peer : BitVec 32} (h : Within s) : Within (dropTraffic port peer s) :=
  .ite h.same.raise h.addSat

protected theorem Within.dropSomewhere {peer : BitVec 32} (h : Within s) : Within (dropSomewhere peer s) := h.bump.dropTraffic
protected theorem Within.dropUnnamed {port : Nat} (h : Within s) : Within (dropUnnamed port s) := h.bump.dropTraffic
protected theorem Within.timeFault {code src : Nat} (h : Within s) : Within (timeFault code src s) := h.raise

protected theorem Within.modDom {k : Nat} {f : Dom → Dom} (h : Within s) : Within (modDom k f s) := h.same

protected theorem Within.leaveLock (h : Within s) : Within (leaveLock s) := h.modTime

protected theorem Within.noteBound (h : Within s) : Within (noteBound s) := by
  unfold Machine.noteBound
  split
  · exact h.setF
  · exact h

protected theorem Within.setTimeState {code : Nat} (h : Within s) : Within (setTimeState code s) := by
  unfold Machine.setTimeState
  extract_lets s1 s2
  have hs1 : Within s1 := .ite h.leaveLock h
  have hs2 : Within s2 := hs1.setF
  exact .ite hs2.setF (.ite hs2.bump.setF (.ite hs2.bump.modTime.noteBound hs2.noteBound))

protected theorem Within.selectSrc {src : Nat} (h : Within s) : Within (selectSrc src s) := by
  have ht : Within (modTime (fun t => { t with holdAt := none }) (Machine.setF s timState 15 12 src)) := h.same
  exact ht.setTimeState.same

protected theorem Within.switchSrc {src : Nat} (h : Within s) : Within (switchSrc src s) := h.selectSrc.modTime.setBit.timeFault
protected theorem Within.enterHold (h : Within s) : Within (enterHold s) := h.hwField.setF.modTime.setTimeState.setBit.timeFault

protected theorem Within.reselect (h : Within s) : Within (reselect s) := by
  unfold Machine.reselect
  extract_lets cur
  split
  · exact h.modTime
  · split
    · exact .ite h.selectSrc h.switchSrc
    · exact .ite h h.enterHold

protected theorem Within.setUsable {src : Nat} {v : Bool} (h : Within s) : Within (setUsable src v s) := by
  unfold Machine.setUsable
  extract_lets was s1 s2
  have hs1 : Within s1 := h.setBit
  have hs2 : Within s2 := by
    unfold s2
    split
    · exact hs1.setBit
    · exact hs1.setBit
    · exact hs1.setBit
    · exact hs1.setBit
  split
  · split
    · exact hs2.setBit.timeFault
    · exact hs2.setBit.timeFault
    · exact hs2.setBit.timeFault
    · exact hs2.setBit.timeFault
  · exact hs2

protected theorem Within.noteSeconds (h : Within s) : Within (noteSeconds s) := .ite h.modTime h
protected theorem Within.refreshDom {k : Nat} (h : Within s) : Within (refreshDom k s) := h.setUsable.noteSeconds.reselect
protected theorem Within.secondCarry (h : Within s) : Within (secondCarry s) := h.modTime.noteBound.noteSeconds
protected theorem Within.applyMirrors (h : Within s) : Within (applyMirrors s) := h.same.foldl fun _ _ ht => ht.memSet

protected theorem Within.postDelayed {delay src payload : Nat} (h : Within s) : Within (postDelayed delay src payload s) :=
  .ite h.bump.postEvent h.bump.same

protected theorem Within.arriveEvents (h : Within s) : Within (arriveEvents s) := h.same.foldl fun _ _ ht => ht.postEvent

protected theorem Within.passTick (h : Within s) : Within (passTick s) := by
  unfold Machine.passTick
  extract_lets t carry d u v
  have hu : Within u := by
    unfold u d
    split
    · exact h.same
    · exact h.same
  have hw : Within { u with waiters := u.waiters.filter fun w => u.now ≤ w.tick } := hu.same
  have hv : Within v := hw.applyHw.breachTick.applyMirrors.arriveEvents
  exact .ite hv.secondCarry hv

protected theorem Within.putClock {sec ns64 : Nat} (h : Within s) : Within (putClock sec ns64 s) := h.same

protected theorem Within.execClockStep {src : Fin 6} {sec ns64 : Nat} (h : Within s) :
    WithinNext (execClockStep src sec ns64 s) :=
  .ite h h.putClock.timeFault

protected theorem Within.execDaySequencerStart (h : Within s) : WithinNext (execDaySequencerStart s) :=
  .ite h h.same

protected theorem Within.execPllUnlock (h : Within s) : WithinNext (execPllUnlock s) := h.same.timeFault
protected theorem Within.execPllRelock (h : Within s) : WithinNext (execPllRelock s) := h.modTime

protected theorem Within.trackLock {ofs : Int} (h : Within s) : Within (trackLock ofs s) :=
  .ite (.ite h.setTimeState.modTime h) (.ite h.modTime h.modTime)

protected theorem Within.servoRate {ofs : Int} (h : Within s) : Within (servoRate ofs s) := h.bump.hwField

protected theorem Within.setBracket {e : Nat} {b : Bool} (h : Within s) :
    Within (modEngine e (fun x => { x with lockOpen := b, lockCnt := 0 }) s) :=
  h.modEngine fun _ hx => ⟨hx.1, hx.2.1, Nat.zero_lt_succ _⟩

protected theorem Within.execLockAcquired (h : Within s) : WithinNext (execLockAcquired s) := by
  unfold Machine.execLockAcquired
  split
  · exact .ite h.setTimeState.modTime h
  · exact h

protected theorem Within.jumpFault {src : Nat} {was now' : Bool} (h : Within s) : Within (jumpFault src was now' s) :=
  .ite h.setBit.timeFault h

protected theorem Within.disagree (h : Within s) : Within (disagree s) := .ite h.setBit.timeFault h

protected theorem Within.execPtpSyncReceive {k : Fin 2} {domain : BitVec 8} {interval t u corr : Int} (h : Within s) :
    WithinNext (execPtpSyncReceive k domain interval t u corr s) := by
  unfold Machine.execPtpSyncReceive
  extract_lets src o bad s1 j s2 s3 s4
  have hs1 : Within s1 := h.modDom
  have hs2 : Within s2 := hs1.jumpFault
  have hs3 : Within s3 := hs2.modDom.setReg
  have hs4 : Within s4 := hs3.refreshDom.disagree
  exact .ite h (.ite hs1.refreshDom (Within.ite hs4.trackLock.servoRate hs4))

protected theorem Within.execSyncMissing {k : Fin 2} (h : Within s) : WithinNext (execSyncMissing k s) :=
  .ite h h.addSat.modDom.refreshDom

protected theorem Within.setUtc {from' ofs : Nat} (h : Within s) : Within (setUtc from' ofs s) := by
  unfold Machine.setUtc
  extract_lets s1
  have hs1 : Within s1 := h.setF.setBit.setF
  exact hs1.modBoot

protected theorem Within.takeUtc {src : Nat} {ofs : Int} (h : Within s) : Within (takeUtc src ofs s) :=
  .ite h.setUtc.setBit.timeFault h.setUtc

protected theorem Within.markLeap {src : Nat} {insert : Bool} (h : Within s) : Within (markLeap src insert s) :=
  .ite h h.setReg.setReg.setF.modTime.setBit.timeFault

protected theorem Within.clearLeap (h : Within s) : Within (clearLeap s) := h.same

protected theorem Within.withdrawLeap {src : Nat} (h : Within s) : Within (withdrawLeap src s) := .ite h.clearLeap h

protected theorem Within.takeLeap {src : Nat} {ins del : Bool} (h : Within s) : Within (takeLeap src ins del s) :=
  .ite h.markLeap (.ite h.markLeap h.withdrawLeap)

protected theorem Within.takeGm {k : Nat} {a : Announce} (h : Within s) : Within (takeGm k a s) := by
  unfold Machine.takeGm
  extract_lets changed u v
  have hu : Within u := .ite h.modDom.setBit h
  exact hu.setReg.setReg.modDom

protected theorem Within.execPtpAnnounceReceive {k lan : Fin 2} {a : Announce} (h : Within s) :
    WithinNext (execPtpAnnounceReceive k lan a s) := by
  unfold Machine.execPtpAnnounceReceive
  extract_lets s1 s2 s3 s4 s5
  have hs1 : Within s1 := h.modDom.setF
  have hs2 : Within s2 := hs1.takeGm.setF.setF
  have hs3 : Within s3 := hs2.setReg
  have hs4 : Within s4 := hs3.refreshDom
  have hs5 : Within s5 := .ite hs4.takeUtc hs4
  exact .ite h (.ite h.modDom (.ite (Within.ite hs4 hs4.withdrawLeap) hs5.takeLeap))

protected theorem Within.execAnnounceTimeout {k : Fin 2} (h : Within s) : WithinNext (execAnnounceTimeout k s) := by
  unfold Machine.execAnnounceTimeout
  split
  · exact h
  · split
    · exact h
    · split
      · exact .ite h.modDom.setF.refreshDom h.modDom.setF.refreshDom
      · exact h.modDom.setF.refreshDom

protected theorem Within.execGmChangeHoldEnd {k : Fin 2} (h : Within s) : WithinNext (execGmChangeHoldEnd k s) :=
  Within.ite h.refreshDom h

protected theorem Within.execPdelayReqSend {n : Fin 4} (h : Within s) : WithinNext (execPdelayReqSend n s) :=
  Within.ite (h.same.emit) h

protected theorem Within.execPdelayReqReceive {n : Fin 4} (h : Within s) : WithinNext (execPdelayReqReceive n s) :=
  Within.ite h.emit h.dropUnnamed

protected theorem Within.execPdelayRespReceive {n : Fin 4} {x : PeerDelay} (h : Within s) :
    WithinNext (execPdelayRespReceive n x s) := by
  unfold Machine.execPdelayRespReceive
  extract_lets d mpd2 s1 s2 k5 s3
  have hs1 : Within s1 := h.bump
  have hs2 : Within s2 := hs1.same
  have hs3 : Within s3 := .ite hs2.setReg hs2
  exact .ite h hs3.refreshDom

protected theorem Within.execPeerDelayTimeout {n : Fin 4} (h : Within s) : WithinNext (execPeerDelayTimeout n s) := h.refreshDom

protected theorem Within.execPpsEdge (h : Within s) : WithinNext (execPpsEdge s) := by
  unfold Machine.execPpsEdge
  extract_lets c1 inWin o j s1 s2 s3 s4
  have hs1 : Within s1 := .ite h.addSat h
  have hs2 : Within s2 := hs1.jumpFault
  have hs3 : Within s3 := hs2.modTime.setReg
  have hs4 : Within s4 := hs3.setUsable.reselect
  exact (Within.ite hs4.trackLock.servoRate hs4).postDelayed.syncPps

protected theorem Within.execPpsEdgeMissing (h : Within s) : WithinNext (execPpsEdgeMissing s) := by
  unfold Machine.execPpsEdgeMissing
  split
  · exact .ite h h.addSat.modTime.setUsable.reselect
  · exact h

protected theorem Within.irigError (h : Within s) : Within (irigError s) := .ite h.addSat.setUsable h.addSat.setBit.timeFault

protected theorem Within.irigGood {f : Irig} {tai o : Int} (h : Within s) : Within (irigGood f tai o s) := by
  unfold Machine.irigGood
  extract_lets j s1 s2 s3 s4 s5
  have hs1 : Within s1 := h.jumpFault
  have hs2 : Within s2 := hs1.modTime
  have hs3 : Within s3 := hs2.setReg
  have hs4 : Within s4 := .ite hs3.takeLeap hs3
  have hs5 : Within s5 := hs4.setUsable.noteSeconds.reselect
  exact .ite hs5.trackLock.servoRate hs5

protected theorem Within.irigBreak (h : Within s) : Within (irigBreak s) := h.modTime

protected theorem Within.irigTake {p : Nat × Nat} {f : Option Irig} (h : Within s) : Within (irigTake p f s) := by
  unfold Machine.irigTake
  split
  · extract_lets tai next
    exact .ite ((Within.ite h h.irigBreak).irigGood) h.irigBreak.setUsable
  · exact h.irigBreak.irigError

protected theorem Within.execIrigFrame {widths : List Nat} (h : Within s) : WithinNext (execIrigFrame widths s) := by
  unfold Machine.execIrigFrame
  extract_lets t u
  have ht1 : Within t := by
    unfold t
    split
    · exact h.irigTake
    · exact h
  have ht2 : Within u := ht1.modTime
  exact ht2.reselect.postDelayed

protected theorem Within.execIrigSignalLoss (h : Within s) : WithinNext (execIrigSignalLoss s) := h.modTime.setUsable.reselect
protected theorem Within.execPpsOutputEdge (h : Within s) : WithinNext (execPpsOutputEdge s) := .ite h (.ite h.emit h)

protected theorem Within.execSourceRevert (h : Within s) : WithinNext (execSourceRevert s) := by
  unfold Machine.execSourceRevert
  split
  · exact h
  · split
    · exact h.switchSrc
    · exact h

protected theorem Within.execHoldLongEntry (h : Within s) : WithinNext (execHoldLongEntry s) := by
  unfold Machine.execHoldLongEntry
  split
  · exact .ite h.setTimeState.setBit.timeFault h
  · exact h

protected theorem Within.execTrendLearned (h : Within s) : WithinNext (execTrendLearned s) := Within.ite h.setBit h

protected theorem Within.execLeapApply (h : Within s) : WithinNext (execLeapApply s) := by
  unfold Machine.execLeapApply
  extract_lets a leap v t u
  split
  · exact h
  · have ht : Within t := h.clearLeap.setF.modBoot
    have hu : Within u := ht.modTime
    exact hu.setBit.timeFault

protected theorem Within.execFarSourceReport {src : Fin 6} (h : Within s) : WithinNext (execFarSourceReport src s) :=
  .ite (h.same.setBit.timeFault) h

protected theorem Within.execTimeWaitExpiry (h : Within s) : WithinNext (execTimeWaitExpiry s) := by
  unfold Machine.execTimeWaitExpiry
  extract_lets s1
  have hs1 : Within s1 := by
    unfold s1
    split
    · exact h.putClock
    · exact h.modTime
  exact .ite h hs1.setTimeState.timeFault

/-! The faceplate (R459 to R462). -/

protected theorem Within.writePanel {ws : List (Nat × Word)} (h : Within s) : Within (writePanel ws s) := h.same

protected theorem Within.execFaceplatePassStart (h : Within s) : WithinNext (execFaceplatePassStart s) :=
  .ite h h.modFpd.bump.setBit

protected theorem Within.execFaceplatePassComplete (h : Within s) : WithinNext (execFaceplatePassComplete s) := by
  unfold Machine.execFaceplatePassComplete
  split
  · next ws _ =>
    split
    · exact h
    · have hp : Within (modFpd (fun x => { x with pass := none, abandoned := 0, redo := [] }) (Machine.writePanel ws s)) :=
        h.same
      exact hp.setBit.addSat.emit
  · exact h

protected theorem Within.execFaceplatePassAbandon (h : Within s) : WithinNext (execFaceplatePassAbandon s) := by
  unfold Machine.execFaceplatePassAbandon
  extract_lets n
  split
  · extract_lets s1 s2
    have hs1 : Within s1 := h.modFpd
    have hs2 : Within s2 := hs1.setBit.setBit.raise
    exact Within.ite hs2.setBit.raise hs2
  · exact h

protected theorem Within.sundownPage {ws : List (Nat × Word)} (h : Within s) : Within (sundownPage ws s) := h.same

protected theorem Within.cutPage {n : Nat} {ws : List (Nat × Word)} (h : Within s) : Within (cutPage n ws s) :=
  h.sundownPage.same

/-! The feeds, the hold-up store and the temperatures of the power stage (R533 to R545). -/

protected theorem Within.showFeed {k : Nat} (h : Within s) : Within (showFeed k s) := h.setBit.setBit.setF

protected theorem Within.setFeed {k : Nat} {mv : Int} {off : Bool} (h : Within s) : Within (setFeed k mv off s) :=
  h.modPwr.modPwr.showFeed.showFeed

protected theorem Within.feedFault {code k : Nat} (h : Within s) : Within (feedFault code k s) := h.raise

protected theorem Within.feedAt {k : Nat} {mv : Int} {off : Bool} (h : Within s) : Within (feedAt k mv off s) := by
  unfold Machine.feedAt
  extract_lets fell s1 s2
  have hs1 : Within s1 := h.setFeed
  have hs2 : Within s2 := .ite hs1.setBit.feedFault hs1
  exact .ite hs2.setBit.feedFault hs2

protected theorem Within.execFeedDrop {k : Fin 2} {millivolt : Int} (h : Within s) : WithinNext (execFeedDrop k millivolt s) :=
  .ite trivial (.ite h.feedAt h)

protected theorem Within.execFeedReturn {k : Fin 2} {millivolt : Int} (h : Within s) :
    WithinNext (execFeedReturn k millivolt s) :=
  .ite h.setFeed h

protected theorem Within.execFeedOvervoltage {k : Fin 2} {millivolt : Int} (h : Within s) :
    WithinNext (execFeedOvervoltage k millivolt s) :=
  .ite trivial (.ite h.setFeed.setBit.feedFault h)

protected theorem Within.execFeedReconnect {k : Fin 2} {millivolt : Int} (h : Within s) :
    WithinNext (execFeedReconnect k millivolt s) :=
  .ite h.feedAt h

protected theorem Within.execFeedReverse {k : Fin 2} {millivolt : Int} (h : Within s) :
    WithinNext (execFeedReverse k millivolt s) :=
  .ite trivial (.ite h.feedAt h)

protected theorem Within.setCharge {charge : Nat} (h : Within s) : Within (setCharge charge s) := by
  unfold Machine.setCharge
  extract_lets was new t
  have ht : Within t := h.setF.setF
  split
  · exact ht
  · generalize new = n
    rcases n with _ | _ | _ | n
    · exact ht.setBit.raise
    · exact ht
    · exact ht.raise
    · exact ht

protected theorem Within.execStoreStateChange {charge : Fin 1001} (h : Within s) : WithinNext (execStoreStateChange charge s) :=
  .ite h h.setCharge

protected theorem Within.execStoreCapacityTest {tenthJoule : BitVec 12} (h : Within s) :
    WithinNext (execStoreCapacityTest tenthJoule s) :=
  (Within.ite h.setF.setBit.raise h.setF).setCharge

protected theorem Within.noteWarmth {celsius : Int} (h : Within s) : Within (noteWarmth celsius s) := by
  unfold Machine.noteWarmth
  extract_lets t
  have ht : Within t := .ite h.same h
  exact ht.modPwr

protected theorem Within.execInterfaceOvertemp {celsius : BitVec 9} (h : Within s) :
    WithinNext (execInterfaceOvertemp celsius s) :=
  .ite h.setF.noteWarmth.setBit.raise h.setF.noteWarmth

/-! The triple store (R222 to R226). -/

/-- R225: a voted write cancels a repair. -/
protected theorem Within.tsWrite {off : Nat} {v : Word} (h : Within s) : Within (tsWrite off v s) :=
  { h with repairsMax := (List.length_filter_le _ _).trans h.repairsMax }

/-- R225: a repair joins a queue with room, or is dropped. -/
protected theorem Within.queueRepair {off : Nat} {v : Word} (h : Within s) : Within (queueRepair off v s) := by
  unfold Machine.queueRepair
  split
  · exact h
  · split
    · next hroom => exact { h with repairsMax := length_snoc_le hroom }
    · exact h.setBit.raise

protected theorem Within.tsWriteRaw {k off : Nat} {v : Word} (h : Within s) : Within (tsWriteRaw k off v s) := h.setTs

protected theorem Within.tsReadRaw {k off : Nat} (h : Within s) : Within (tsReadRaw k off s).2 := by
  unfold Machine.tsReadRaw
  extract_lets c1
  split
  · exact h.setBit.addSat.raise
  · exact h

/-- R225: a repair that is made leaves the queue. -/
protected theorem Within.execTripleStoreRepair (h : Within s) : WithinNext (execTripleStoreRepair s) := by
  unfold Machine.execTripleStoreRepair
  split
  · next off v l he =>
    have hl : Within { s with tsRepairs := l } := { h with repairsMax := tail_le he h.repairsMax }
    exact .ite h hl.setTs.addSat.grantBackground
  · exact h

/-! Local field I/O (R440 to R458). -/

protected theorem Within.lioFault {code kind n : Nat} (h : Within s) : Within (lioFault code kind n s) := h.raise
protected theorem Within.freezeChan {l : Nat} {t : Option Nat} (h : Within s) : Within (freezeChan l t s) := h.modChan
protected theorem Within.freezeUnloaded {l t : Nat} (h : Within s) : Within (freezeUnloaded l t s) := h.modChan

protected theorem Within.loadUpdate (h : Within s) : Within (loadUpdate s) :=
  .ite h (.ite h.modLio (h.modLio.forUpto (fun _ _ ht => ht.freezeUnloaded)))

protected theorem Within.edgeEvent {l : Nat} {rising : Bool} (h : Within s) : Within (edgeEvent l rising s) := h.postDelayed

protected theorem Within.clearReadback {l : Nat} (h : Within s) : Within (clearReadback l s) :=
  .ite ((Within.ite h.setBit h.setBit).setBit.setBit) ((Within.ite h.setBit h.setBit).setBit)

protected theorem Within.noteCrossing {l : Nat} {rising : Bool} (h : Within s) : Within (noteCrossing l rising s) := h.modChan
protected theorem Within.noteOn {l : Nat} (h : Within s) : Within (noteOn l s) := h.modChan

protected theorem Within.execInputCrossing {l : Fin 24} {millivolt : Int} (h : Within s) :
    WithinNext (execInputCrossing l millivolt s) := by
  unfold Machine.execInputCrossing
  extract_lets c1 up down raw s1 s2 s3
  have hs1 : Within s1 := h.modChan
  have hs2 : Within s2 := (Within.ite hs1.noteCrossing hs1).noteOn
  have hs3 : Within s3 := hs2.clearReadback
  exact Within.ite hs3.edgeEvent hs3

protected theorem Within.takeBand {l : Nat} {event : Bool} (h : Within s) : Within (takeBand l event s) :=
  .ite h.setF.edgeEvent h.setF

protected theorem Within.execFilteredBandChange {l : Fin 24} (h : Within s) : WithinNext (execFilteredBandChange l s) :=
  Within.ite h.takeBand h

protected theorem Within.execFreezeEnd {l : Fin 24} (h : Within s) : WithinNext (execFreezeEnd l s) := by
  unfold Machine.execFreezeEnd
  extract_lets s1
  have hs1 : Within s1 := h.modChan.noteOn
  split
  · exact .ite h (Within.ite hs1.takeBand hs1)
  · exact h

protected theorem Within.execLoadingSettle (h : Within s) : WithinNext (execLoadingSettle s) := by
  unfold Machine.execLoadingSettle
  split
  · exact .ite (h.modLio.forUpto (fun _ _ ht => ht.takeBand)) h
  · exact h

protected theorem Within.setDriven {l v : Nat} (h : Within s) : Within (setDriven l v s) := h.modChan.clearReadback

protected theorem Within.tryDrive {l v : Nat} (h : Within s) : Within (tryDrive l v s) := by
  unfold Machine.tryDrive
  split
  · exact .ite h.modChan.setBit.setDriven (.ite h.modChan.setDriven h)
  · exact h.setDriven

protected theorem Within.lioOutWrite {l v : Nat} (h : Within s) : Within (lioOutWrite l v s) := .ite h h.modChan.setReg

protected theorem Within.execLioOutWrite {l : Fin 24} {v : BitVec 10} (h : Within s) : WithinNext (execLioOutWrite l v s) :=
  h.noteWrote.lioOutWrite

protected theorem Within.execPwmReload {l : Fin 24} (h : Within s) : WithinNext (execPwmReload l s) := Within.ite h.setDriven h

protected theorem Within.execOutputOverload {l : Fin 24} (h : Within s) : WithinNext (execOutputOverload l s) :=
  .ite h h.setBit.setBit.modChan.setDriven.lioFault

protected theorem Within.execOpenLoad {l : Fin 24} (h : Within s) : WithinNext (execOpenLoad l s) :=
  .ite h h.setBit.setBit.lioFault

protected theorem Within.execGroupFieldSupplyChange {g : Fin 3} {inRange : Bool} (h : Within s) :
    WithinNext (execGroupFieldSupplyChange g inRange s) :=
  Within.ite h.setBit.setBit.lioFault h.setBit

protected theorem Within.execTestSupplyOverload {k : Fin 4} (h : Within s) : WithinNext (execTestSupplyOverload k s) :=
  .ite h (h.same.setBit.setBit.lioFault)

protected theorem Within.execTestSupplyRetry {k : Fin 4} (h : Within s) : WithinNext (execTestSupplyRetry k s) :=
  Within.ite (h.same.setBit) h

protected theorem Within.execLoopSample {a : Fin 8} {microamp : Int} {atLimit : Bool} (h : Within s) :
    WithinNext (execLoopSample a microamp atLimit s) :=
  h.same

protected theorem Within.loopMidnight {a : Nat} (h : Within s) : Within (loopMidnight a s) := by
  unfold Machine.loopMidnight
  extract_lets xs was sum st s1 s2
  have hs1 : Within s1 := .ite h.bump.setReg h.setReg
  have hs2 : Within s2 := hs1.setReg
  split
  · exact .ite hs2 hs2.setBit.lioFault
  · exact hs2

protected theorem Within.loadReadback (h : Within s) : Within (loadReadback s) :=
  h.foldl fun _ _ ht => .ite ht.hwField.setDriven ht.hwField

protected theorem Within.sampleChan {l : Nat} (h : Within s) : Within (sampleChan l s) :=
  .ite h.setF.setF.modChan.setBit.lioFault h.setF.setF.modChan

protected theorem Within.applyCaptured {leaves : Bool} {l : Nat} (h : Within s) : Within (applyCaptured leaves l s) :=
  h.tryDrive

protected theorem Within.refreshChan {l : Nat} (h : Within s) : Within (refreshChan l s) := by
  unfold Machine.refreshChan
  extract_lets c1 n tmo s1 s2
  have hs1 : Within s1 := h.modChan
  have hs2 : Within s2 := .ite hs1 hs1.tryDrive
  exact .ite (.ite hs2 hs2.setBit.setBit.lioFault) hs1

protected theorem Within.outputMidnight {beat : Bool} {l : Nat} (h : Within s) : Within (outputMidnight beat l s) := by
  unfold Machine.outputMidnight
  extract_lets leaves s1 s2 s3
  have hs1 : Within s1 := .ite h.setBit h
  have hs2 : Within s2 := .ite hs1 hs1.applyCaptured
  have hs3 : Within s3 := .ite hs2.refreshChan hs2
  exact .ite h hs3.modChan

/-! The safety monitor (R224 to R228, R409 to R439). -/

protected theorem Within.safFault {code d ch i : Nat} (h : Within s) : Within (safFault code d ch i s) := h.raise
protected theorem Within.torqueOff {d : Nat} (h : Within s) : Within (torqueOff d s) := .ite h.setDriven h

protected theorem Within.setCoil {d : Nat} {v : Bool} (h : Within s) : Within (setCoil d v s) :=
  .ite h (.ite h.tryDrive h.setDriven)

protected theorem Within.enterSto {d : Nat} (h : Within s) : Within (enterSto d s) :=
  .ite h.setF.setF.torqueOff.modDrive.safFault h.setF.setF.torqueOff.modDrive

protected theorem Within.forceSto {d cause : Nat} (h : Within s) : Within (forceSto d cause s) := by
  unfold Machine.forceSto
  split
  · exact h.setF.enterSto
  · exact h.setF.enterSto
  · exact h.setF.modDrive
  · exact h

protected theorem Within.forceLockout {d cause : Nat} (h : Within s) : Within (forceLockout d cause s) :=
  .ite h h.setF.setF.setF.torqueOff.modDrive.setCoil

/-- A word noted as split (R224). -/
protected theorem Within.noteSplit {off : Nat} (h : Within s) :
    Within { s with tsSplit := if s.tsSplit.contains off then s.tsSplit else s.tsSplit ++ [off] } := h.same

protected theorem Within.tsSplitFound {off : Nat} (h : Within s) : Within (tsSplitFound off s) := by
  unfold Machine.tsSplitFound
  exact (h.setBit.setF.addSat.noteSplit (off := off)).raise.foldl fun _ _ h => h.forceSto

protected theorem Within.tsRead {off : Nat} (h : Within s) : Within (tsRead off s).2 := by
  unfold Machine.tsRead
  split
  · exact .ite h.queueRepair.raise h
  · exact h.setBit.queueRepair.raise
  · exact h.setBit.addSat.queueRepair.raise
  · exact h.tsSplitFound

protected theorem Within.execTripleStoreScrub {off : Fin 65536} {found : Option (Fin 3 × Word × Chk)} (h : Within s) :
    WithinNext (execTripleStoreScrub off found s) :=
  Within.ite h.setTs.grantBackground.tsRead h.setTs

protected theorem Within.startSs1 {d : Nat} (h : Within s) : Within (startSs1 d s) := h.same

protected theorem Within.takeCommand {d cmd : Nat} (h : Within s) : Within (takeCommand d cmd s) := by
  unfold Machine.takeCommand
  split
  · exact h
  · exact .ite h.startSs1 h.enterSto
  · exact h.modDrive
  · exact h.enterSto
  · exact h.enterSto
  · exact h.modDrive

protected theorem Within.drvCmdWrite {d cmd : Nat} (h : Within s) : Within (drvCmdWrite d cmd s) :=
  .ite h (.ite h.setReg.modDrive.takeCommand h.setReg.modDrive)

protected theorem Within.execSafDrvCmdWrite {d : Fin 64} {cmd : BitVec 2} (h : Within s) :
    WithinNext (execSafDrvCmdWrite d cmd s) :=
  h.drvCmdWrite

protected theorem Within.connRxWrite {i j : Nat} {v : Word} (h : Within s) : Within (connRxWrite i j v s) :=
  .ite h h.setReg.modConn

protected theorem Within.execSafConnRxWrite {i : Fin 128} {j : Fin 6} {v : Word} (h : Within s) :
    WithinNext (execSafConnRxWrite i j v s) :=
  h.connRxWrite

protected theorem Within.execContactorFeedbackTimeout {d : Fin 64} (h : Within s) :
    WithinNext (execContactorFeedbackTimeout d s) :=
  .ite h h.setBit.setBit.forceLockout.safFault

protected theorem Within.unlock {d : Nat} (h : Within s) : Within (unlock d s) :=
  .ite h.setF (.ite h.setF h.setF.setF.enterSto.safFault)

protected theorem Within.execSafUnlockGo {d : Fin 64} (h : Within s) : WithinNext (execSafUnlockGo d s) := h.unlock

protected theorem Within.teleFault {bad : Bool} {code i : Nat} (h : Within s) : Within (teleFault bad code i s) :=
  .ite h.setBit.safFault h

protected theorem Within.checkConn {i : Nat} (h : Within s) : Within (checkConn i s) :=
  .ite h (.ite h.teleFault.teleFault.teleFault.modConn h.teleFault.teleFault.teleFault)

protected theorem Within.composeTx {d : Nat} (h : Within s) : Within (composeTx d s) :=
  .ite h ((Within.ite h h.modConn).bump.foldl (fun _ _ ht => ht.setReg))

protected theorem Within.compareSpeeds {d : Nat} {v v2 : Option Word} (h : Within s) : Within (compareSpeeds d v v2 s) := by
  unfold Machine.compareSpeeds
  split
  · extract_lets far n s1
    have hs1 : Within s1 := h.modDrive
    exact .ite hs1.setBit.forceSto.safFault hs1
  · exact h

protected theorem Within.noonSs1 {d : Nat} {v : Option Word} (h : Within s) : Within (noonSs1 d v s) := by
  unfold Machine.noonSs1
  extract_lets k s1 s2
  have hs1 : Within s1 := h.setF
  have hs2 : Within s2 := .ite hs1.modDrive hs1
  split
  · extract_lets s3
    have hs3 : Within s3 := .ite hs2 hs2.setBit
    exact hs3.bump.forceSto.safFault
  · exact hs2.bump

protected theorem Within.resumeWrite {d : Nat} {snap : Word} (h : Within s) : Within (resumeWrite d snap s) := by
  unfold Machine.resumeWrite
  extract_lets t
  have ht : Within t := h.modDrive
  split
  · exact h
  · split
    · exact ht
    · split
      · exact ht.setF
      · exact ht.setF
      · exact ht.setF
      · exact ht.setF.setCoil
      · exact ht

protected theorem Within.execSafResumeWrite {d : Fin 64} {snap : Word} (h : Within s) :
    WithinNext (execSafResumeWrite d snap s) :=
  h.resumeWrite

protected theorem Within.noonSto {d : Nat} (h : Within s) : Within (noonSto d s) := h.same

protected theorem Within.noonDrive {d : Nat} (h : Within s) : Within (noonDrive d s) := by
  unfold Machine.noonDrive
  extract_lets a b v s1 s2
  have hs1 : Within s1 := h.modDrive
  have hs2 : Within s2 := .ite hs1.compareSpeeds hs1
  split
  · exact h
  · split
    · exact hs2.noonSs1
    · exact hs2.noonSto
    · exact hs2

protected theorem Within.readBlock {d : Nat} (h : Within s) : Within (readBlock d s) :=
  .ite (h.forUpto (fun _ _ ht => ht.tsRead)) h

protected theorem Within.execNoonEvaluation (h : Within s) : WithinNext (execNoonEvaluation s) := by
  unfold Machine.execNoonEvaluation
  exact .ite h (((h.modDay.forUpto (fun _ _ ht => ht.readBlock)).forUpto (fun _ _ hu => hu.checkConn)).forUpto
    (fun _ _ hv => hv.noonDrive))

protected theorem Within.defaultSto {d : Nat} (h : Within s) : Within (defaultSto d s) := .ite h.takeCommand h

protected theorem Within.resumeDeadline {d : Nat} (h : Within s) : Within (resumeDeadline d s) :=
  .ite h.setBit.forceSto.safFault h

protected theorem Within.safAfternoon (h : Within s) : Within (safAfternoon s) := by
  unfold Machine.safAfternoon
  exact .ite (((h.forUpto (fun _ _ ht => ht.composeTx)).forUpto (fun _ _ hu => hu.defaultSto)).forUpto
    (fun _ _ hv => hv.resumeDeadline)) h

protected theorem Within.guardRestart {d : Nat} (h : Within s) : Within (guardRestart d s) := h.modDrive.setBit.safFault

protected theorem Within.guardTest {d : Nat} {rise : Bool} (h : Within s) : Within (guardTest d rise s) := by
  unfold Machine.guardTest
  extract_lets g x n
  exact .ite h (.ite h.guardRestart (.ite h.modDrive (.ite (.ite h.modDrive h) (.ite h.guardRestart (.ite h.modDrive h)))))

protected theorem Within.restartSamples {d : Nat} (h : Within s) : Within (restartSamples d s) :=
  .ite h.modDrive.guardTest h.modDrive

protected theorem Within.countConn {i : Nat} (h : Within s) : Within (countConn i s) := .ite h.modConn (.ite h.modConn h)

protected theorem Within.timeExpect {d : Nat} (h : Within s) : Within (timeExpect d s) := by
  unfold Machine.timeExpect
  split
  · exact .ite h h.modDrive.setBit.forceSto.safFault
  · exact h.modDrive

protected theorem Within.drivesMidnight {d : Nat} (h : Within s) : Within (drivesMidnight d s) :=
  .ite h (.ite ((Within.ite h.setF h).modDrive.setCoil.tryDrive) ((Within.ite h.setF h).modDrive.setCoil))

protected theorem Within.changedDrives (h : Within s) : Within (changedDrives s) := h.foldl fun _ _ ht => ht.forceSto

protected theorem Within.safMidnight (h : Within s) : Within (safMidnight s) := by
  unfold Machine.safMidnight
  exact .ite ((((h.forUpto (fun _ _ ht => ht.countConn)).forUpto (fun _ _ hu => hu.timeExpect)).forUpto
    (fun _ _ hv => hv.restartSamples)).forUpto (fun _ _ hw => hw.drivesMidnight)) h

protected theorem Within.safTakeover (h : Within s) : Within (safTakeover s) :=
  (h.modSaf.forUpto (fun _ _ ht => ht.modDrive)).forUpto fun _ _ hu => .ite hu.modConn hu

protected theorem Within.startDrives (h : Within s) : Within (startDrives s) := h.forUpto fun _ _ ht => ht.setReg.modDrive

protected theorem Within.superviseChanged (h : Within s) : Within (superviseChanged s) :=
  h.foldl fun _ _ ht => .ite ht.setReg.modDrive ht

protected theorem Within.unsuperviseChanged (h : Within s) : Within (unsuperviseChanged s) :=
  h.foldl fun _ _ ht => .ite ht.setReg ht

protected theorem Within.execTestPulseStart {k : Fin 4} (h : Within s) : WithinNext (execTestPulseStart k s) := by
  unfold Machine.execTestPulseStart
  extract_lets s1
  have hs1 : Within s1 := h.same
  exact .ite h (hs1.forUpto (fun _ _ ht => .ite ht.modInTest.freezeChan ht.modInTest))

protected theorem Within.failInput {l : Nat} (h : Within s) : Within (failInput l s) :=
  .ite h.modInTest (h.modInTest.setBit.setBit.safFault.forUpto (fun _ _ ht => .ite ht.forceSto ht))

protected theorem Within.closePeriod {l : Nat} (h : Within s) : Within (closePeriod l s) := .ite h.modInTest.setBit h.modInTest

protected theorem Within.checkInput {k l : Nat} (h : Within s) : Within (checkInput k l s) :=
  .ite h (.ite ((Within.ite h.failInput h).closePeriod) (.ite h.failInput h))

protected theorem Within.execTestPulseCheck {k : Fin 4} (h : Within s) : WithinNext (execTestPulseCheck k s) :=
  .ite h (h.modSaf.forUpto (fun _ _ ht => ht.checkInput))

protected theorem Within.execTestPulseEnd {k : Fin 4} (h : Within s) : WithinNext (execTestPulseEnd k s) :=
  .ite h (h.same.forUpto (fun _ _ ht => .ite ht.freezeChan ht))

protected theorem Within.outputStuck {l : Nat} (h : Within s) : Within (outputStuck l s) := by
  unfold Machine.outputStuck
  split
  · exact h.setBit.setBit.forceLockout.safFault
  · exact h.setBit.setBit.forceLockout.safFault
  · exact h

protected theorem Within.execDarkTest {l : Fin 24} {pulse readsOn : Bool} (h : Within s) :
    WithinNext (execDarkTest l pulse readsOn s) :=
  Within.ite h.outputStuck h

protected theorem Within.execOutputReadbackFault {l : Fin 24} (h : Within s) : WithinNext (execOutputReadbackFault l s) := by
  unfold Machine.execOutputReadbackFault
  extract_lets on rb s1
  have hs1 : Within s1 := h.setBit.setBit.lioFault
  exact .ite h (.ite h.setBit.setBit.lioFault (Within.ite hs1.outputStuck hs1))

protected theorem Within.monitorFault {code : Nat} (h : Within s) : Within (monitorFault code s) := by
  unfold Machine.monitorFault
  extract_lets s1
  have hs1 : Within s1 := h.setBit.raise
  split
  · exact hs1.safetySignal.setBit.breach
  · exact hs1.setBit
  · exact hs1

protected theorem Within.execMonitorDiscrepancy (h : Within s) : WithinNext (execMonitorDiscrepancy s) := h.monitorFault

protected theorem Within.execForcingPathTest {ok : Bool} (h : Within s) : WithinNext (execForcingPathTest ok s) :=
  Within.ite h h.monitorFault

/-! The Zilco ports (R230 to R300). -/

protected theorem Within.portFault {code p : Nat} {k : optParam Nat 0} (h : Within s) : Within (portFault code p k s) := h.raise
protected theorem Within.portCount {p k : Nat} (h : Within s) : Within (portCount p k s) := h.same

protected theorem Within.advanceGet {p : Nat} (h : Within s) : Within (advanceGet p s) := h.same

protected theorem Within.writeEnd {e : TxEnd} (h : Within s) : Within (writeEnd e s) :=
  (Within.ite h.mRead.mWrite.mWrite h.mRead.mWrite).mRead.mWrite

protected theorem Within.endDesc {e : TxEnd} (h : Within s) : Within (endDesc e s) :=
  .ite ((h.untouched.writeEnd.ownFault (fun _ ht => ht.portFault)).settle) h.same.waitFor

protected theorem Within.retryEnds (h : Within s) : Within (retryEnds s) := h.same.foldl fun _ _ ht => ht.endDesc
protected theorem Within.endHead {p st sent : Nat} (h : Within s) : Within (endHead p st sent s) := h.endDesc.advanceGet
protected theorem Within.skipHead {p : Nat} (h : Within s) : Within (skipHead p s) := h.same

protected theorem Within.skipAll {p n : Nat} (h : Within s) : Within (skipAll p n s) := by
  induction n generalizing s with
  | zero => exact h
  | succ n ih => exact .ite (ih h.skipHead) h

protected theorem Within.failHead {p : Nat} (h : Within s) : Within (failHead p s) := .ite h.skipHead h.endHead

protected theorem Within.failPosted {p n : Nat} (h : Within s) : Within (failPosted p n s) := by
  induction n generalizing s with
  | zero => exact h
  | succ n ih => exact .ite h (ih h.failHead)

protected theorem Within.noteLoop {p : Nat} {loopd : Option (BitVec 9)} (h : Within s) : Within (noteLoop p loopd s) := by
  unfold Machine.noteLoop
  split
  · exact .ite h.setF h
  · exact h

protected theorem Within.failAll {p : Nat} (h : Within s) : Within (failAll p s) := by
  unfold Machine.failAll
  exact (Within.ite h.noteLoop.bump.bump h).modPort.failPosted

protected theorem Within.fetchDesc {p : Nat} (h : Within s) : Within (fetchDesc p s).2 := h.mReads
protected theorem Within.endInvalid {p k : Nat} (h : Within s) : Within (endInvalid p k s) := h.writeEnd.advanceGet.portFault

protected theorem Within.startFrame {p : Nat} {what : Sending} {f : TxFrame} (h : Within s) : Within (startFrame p what f s) :=
  h.modPort

protected theorem Within.contend {p : Nat} {how : Attempt} {d : TxDesc} {ws : List Word} (h : Within s) :
    Within (contend p how d ws s) := by
  unfold Machine.contend
  extract_lets s1
  have hs1 : Within s1 := h.modPort
  split
  · exact hs1.portCount
  · exact hs1.startFrame

protected theorem Within.attempt {p : Nat} {how : Attempt} (h : Within s) : Within (attempt p how s) := by
  unfold Machine.attempt
  extract_lets s1 r2
  have hs1 : Within s1 := h.skipAll
  have hr2 : Within r2.2 := hs1.fetchDesc
  split
  · exact hs1
  · split
    · exact hr2.endInvalid
    · extract_lets q
      have hq : Within q.2 := hr2.mReads
      split
      · exact hr2.endInvalid
      · split
        · exact hs1
        · split
          · exact hq.endInvalid
          · exact hq.contend

protected theorem Within.frameEnd {p : Nat} (h : Within s) : Within (frameEnd p s) := by
  unfold Machine.frameEnd
  exact .ite h.modPort.setBit.failAll h.modPort

protected theorem Within.busIdle {p : Nat} (h : Within s) : Within (busIdle p s) := .ite h.frameEnd h

protected theorem Within.execTransmitAttempt {p : Fin 256} {how : Attempt} (h : Within s) :
    WithinNext (execTransmitAttempt p how s) :=
  Within.ite (h.busIdle.ifFree (fun _ ht => ht.attempt)) h.busIdle

protected theorem Within.startRecovery {p : Nat} (h : Within s) : Within (startRecovery p s) := h.same

protected theorem Within.enterBusOff {p : Nat} (h : Within s) : Within (enterBusOff p s) :=
  .ite h.setF.setBit.portFault.failAll h.setF.setBit.portFault.failAll.startRecovery

protected theorem Within.confine {p : Nat} (h : Within s) : Within (confine p s) :=
  .ite h (.ite h.enterBusOff (.ite (.ite h.setF.setBit.portFault h) h.setF))

protected theorem Within.changeCounts {p : Nat} {tec rec' : Nat → Nat} (h : Within s) : Within (changeCounts p tec rec' s) :=
  .ite h h.setF.setF.confine

protected theorem Within.duskLate {p : Nat} {x : Port} (h : Within s) : Within (duskLate p x s) :=
  .ite h.setBit.raise.portCount h

protected theorem Within.sentWhat {p : Nat} {x : Port} (h : Within s) : Within (sentWhat p x s) := by
  unfold Machine.sentWhat
  split
  · exact h.emit.endHead
  · exact h.emit.portCount
  · exact h.emit
  · exact h.emit
  · exact h

protected theorem Within.attemptFailed {p cls : Nat} (h : Within s) : Within (attemptFailed p cls s) := by
  unfold Machine.attemptFailed
  extract_lets x s1 s2 s3
  have hs1 : Within s1 := h.modPort.duskLate
  have hs2 : Within s2 := .ite hs1 hs1.portCount
  have hs3 : Within s3 := hs2.modPort
  split
  · exact .ite hs3 hs3.endHead.portFault
  · exact hs2.portFault
  · exact hs2.modPort.portFault
  · exact hs2
  · exact hs2

protected theorem Within.noteError {p cls : Nat} {fast : Bool} (h : Within s) : Within (noteError p cls fast s) := by
  unfold Machine.noteError
  extract_lets s1
  have hs1 : Within s1 := h.setF.setF
  exact .ite h (.ite hs1.setBit.setBit.portFault (.ite hs1.setBit (.ite hs1.setBit.portCount hs1.setBit.portCount)))

protected theorem Within.countRow {p : Nat} {row : ErrRow} (h : Within s) : Within (countRow p row s) := by
  unfold Machine.countRow
  split
  · exact h.changeCounts
  · exact h.changeCounts
  · exact h.changeCounts
  · exact h
  · exact h.changeCounts
  · exact h.changeCounts
  · exact h.changeCounts
  · exact h.changeCounts

protected theorem Within.portError {p cls : Nat} {fast : Bool} {row : ErrRow} (h : Within s) :
    Within (portError p cls fast row s) := by
  unfold Machine.portError
  exact (Within.ite h.noteError.attemptFailed h.noteError).countRow.modPort

protected theorem Within.execErrorDetected {p : Fin 256} {cls : Fin 9} {fast : Bool} {row : ErrRow} {loopd : Option (BitVec 9)}
    (h : Within s) :
    WithinNext (execErrorDetected p cls fast row loopd s) :=
  .ite h h.noteLoop.portError

protected theorem Within.execTransmitSuccess {p : Fin 256} {loopd : BitVec 9} (h : Within s) :
    WithinNext (execTransmitSuccess p loopd s) :=
  .ite h (.ite h.noteLoop.portError h.noteLoop.portCount.duskLate.sentWhat.modPort.changeCounts.frameEnd)

protected theorem Within.execBusOffRecoveryComplete {p : Fin 256} {driverHolds : Bool} (h : Within s) :
    WithinNext (execBusOffRecoveryComplete p driverHolds s) :=
  .ite h h.setReg.modPort.portFault.busIdle

protected theorem Within.execIntegrationComplete {p : Fin 256} (h : Within s) : WithinNext (execIntegrationComplete p s) :=
  Within.ite h h.modPort.busIdle

protected theorem Within.execProtocolException {p : Fin 256} (h : Within s) : WithinNext (execProtocolException p s) :=
  .ite h h.setBit.modPort.portFault

protected theorem Within.execDominantTimeout {p : Fin 256} (h : Within s) : WithinNext (execDominantTimeout p s) :=
  .ite h h.setBit.portFault.setF.confine

protected theorem Within.execDriverCurrentLimit {p : Fin 256} (h : Within s) : WithinNext (execDriverCurrentLimit p s) :=
  .ite h h.setBit.portFault.modPort.enterBusOff

protected theorem Within.execDriverDisable {p : Fin 256} (h : Within s) : WithinNext (execDriverDisable p s) :=
  .ite h (.ite h.failAll h.setBit.portFault.failAll)

protected theorem Within.execGroupSupplyFail {g : Fin 32} (h : Within s) : WithinNext (execGroupSupplyFail g s) :=
  h.foldl fun _ _ ht => .ite ht ht.modPort.setBit.portFault.failAll.frameEnd

protected theorem Within.execGroupSupplyReturn {g : Fin 32} (h : Within s) : WithinNext (execGroupSupplyReturn g s) :=
  h.foldl fun _ _ ht => .ite ht.modPort ht

protected theorem Within.countIntrusion {p k : Nat} (h : Within s) : Within (countIntrusion p k s) :=
  h.setBit.portCount.portFault

protected theorem Within.adoptMutes {p : Nat} {f : RxFrame} (h : Within s) : Within (adoptMutes p f s) :=
  .ite (h.forUpto (fun _ _ ht => ht.setBit)) h

protected theorem Within.awaitDeposit {p : Nat} {f : RxFrame} {intr : Bool} (h : Within s) : Within (awaitDeposit p f intr s) :=
  .ite h.modPort h.portCount.portFault

protected theorem Within.takeFrame {p : Nat} {f : RxFrame} (h : Within s) : Within (takeFrame p f s) := by
  unfold Machine.takeFrame
  extract_lets s1 i s2
  have hs1 : Within s1 := (Within.ite h h.changeCounts).adoptMutes
  have hs2 : Within s2 := .ite hs1.countIntrusion hs1
  exact .ite hs2 hs2.awaitDeposit

protected theorem Within.execFrameValid {p : Fin 256} {f : RxFrame} (h : Within s) : WithinNext (execFrameValid p f s) :=
  .ite (Within.ite h.busIdle h) ((Within.ite h.busIdle h).portCount.takeFrame.busIdle)

protected theorem Within.noteArrival {p : Nat} {f : RxFrame} (h : Within s) : Within (noteArrival p f s) := by
  unfold Machine.noteArrival
  extract_lets id s1
  split
  · exact h
  · split
    · exact h.same
    · exact h

protected theorem Within.deposit {p d : Nat} {w : Await} (h : Within s) : Within (deposit p d w s) := by
  unfold Machine.deposit
  extract_lets bufw idx a trunc s1 s2 s3 s4 s5 s6 s7 s8
  have hs1 : Within s1 := .ite h.portCount.portFault h
  have hs2 : Within s2 := hs1.mWrites
  have hs3 : Within s3 := hs2.mWrite
  have hs4 : Within s4 := hs3.mWrite
  have hs5 : Within s5 := hs4.mWrite
  have hs6 : Within s6 := hs5.mWrite
  have hs7 : Within s7 := hs6.modPort
  have hs8 : Within s8 := hs7.setF.setF
  exact hs8.noteArrival.postEvent

protected theorem Within.depositBegins {p : Nat} {w : Await} {t : List Await} (h : Within s) : Within (depositBegins p w t s) := h.same

protected theorem Within.beginDeposit {p : Nat} (h : Within s) : Within (beginDeposit p s) := by
  unfold Machine.beginDeposit
  split
  · exact h
  · exact .ite h (.ite h.modPort h.depositBegins)

protected theorem Within.decideDeposit {p : Nat} (h : Within s) : Within (decideDeposit p s) := by
  unfold Machine.decideDeposit
  split
  · exact h
  · exact .ite h (.ite h.modPort.portCount.portFault h.depositBegins)

protected theorem Within.finishDeposit {p : Nat} (h : Within s) : Within (finishDeposit p s) := by
  unfold Machine.finishDeposit
  split
  · exact h
  · next w t _ =>
    extract_lets a u
    have hu : Within u := Within.ownFault h.modPort.deposit fun _ h1 => h1.portFault
    have hs : Within { u with served := tabSet 0 s.served (pointOf (word a)) (s.now + 1) } := hu.same
    exact .ite h (.ite h.waitFor hs.same)

protected theorem Within.depositTick {p : Nat} (h : Within s) : Within (depositTick p s) :=
  .ite h (.ite h.finishDeposit h.finishDeposit.modPort)

protected theorem Within.endPorts (h : Within s) : Within (endPorts s) :=
  (h.foldl (fun _ _ ht => ht.depositTick.decideDeposit)).serveOwed

protected theorem Within.execFrameDeposit {p : Fin 256} {d : DepositStep} (h : Within s) :
    WithinNext (execFrameDeposit p d s) := by
  unfold Machine.execFrameDeposit
  split
  · exact h.beginDeposit
  · exact h.finishDeposit

protected theorem Within.txptrWrite {p put : Nat} (h : Within s) : Within (txptrWrite p put s) := h.same

protected theorem Within.portTick {p : Nat} (h : Within s) : Within (portTick p s) := .ite h h.failPosted

protected theorem Within.execTxptrWrite {p : Fin 256} {put : BitVec 8} (h : Within s) : WithinNext (execTxptrWrite p put s) :=
  h.txptrWrite

protected theorem Within.txcanCancel {p i : Nat} (h : Within s) : Within (txcanCancel p i s) :=
  .ite h.setF (.ite h.setF (.ite h.setF.endHead h.setF.endDesc.modPort))

protected theorem Within.execTxcanCancel {p : Fin 256} {index : BitVec 8} (h : Within s) :
    WithinNext (execTxcanCancel p index s) :=
  h.txcanCancel

protected theorem Within.rxack {p count : Nat} (h : Within s) : Within (rxack p count s) := (Within.ite h.portFault h).setF
protected theorem Within.execRxack {p : Fin 256} {count : BitVec 9} (h : Within s) : WithinNext (execRxack p count s) := h.rxack

protected theorem Within.cfgEnter {p : Nat} (h : Within s) : Within (cfgEnter p s) :=
  .ite h.setBit (.ite h.setBit.modPort.bump h.setBit.setBit.failAll.bump)

protected theorem Within.execCfgEnter {p : Fin 256} (h : Within s) : WithinNext (execCfgEnter p s) := h.cfgEnter

protected theorem Within.cfgLeave {p : Nat} (h : Within s) : Within (cfgLeave p s) :=
  .ite h.setBit.modPort (.ite h.setBit.setBit.modPort h.setBit.portFault)

protected theorem Within.execCfgLeave {p : Fin 256} (h : Within s) : WithinNext (execCfgLeave p s) := h.cfgLeave
protected theorem Within.loreqSet {p : Nat} (h : Within s) : Within (loreqSet p s) := .ite h h.setBit.modPort.bump
protected theorem Within.execLoreqSet {p : Fin 256} (h : Within s) : WithinNext (execLoreqSet p s) := h.loreqSet
protected theorem Within.loreqClear {p : Nat} (h : Within s) : Within (loreqClear p s) := h.same

protected theorem Within.execLoreqClear {p : Fin 256} (h : Within s) : WithinNext (execLoreqClear p s) := h.loreqClear
protected theorem Within.borec {p : Nat} (h : Within s) : Within (borec p s) := .ite h.startRecovery h
protected theorem Within.execBorec {p : Fin 256} (h : Within s) : WithinNext (execBorec p s) := h.borec
protected theorem Within.unmute {p k : Nat} (h : Within s) : Within (unmute p k s) := h.setF
protected theorem Within.execUnmute {p : Fin 256} {k : Fin 32} (h : Within s) : WithinNext (execUnmute p k s) := h.unmute

protected theorem Within.execBeaconSend {p sub : Fin 256} (h : Within s) : WithinNext (execBeaconSend p sub s) :=
  .ite h.busIdle h.busIdle.modPort.setReg.startFrame

protected theorem Within.execBeaconMissed {p : Fin 256} (h : Within s) : WithinNext (execBeaconMissed p s) :=
  .ite h.modPort.portFault h

protected theorem Within.execEchoRequestSend {p : Fin 256} (h : Within s) : WithinNext (execEchoRequestSend p s) := by
  unfold Machine.execEchoRequestSend
  extract_lets s1 e
  have hs1 : Within s1 := h.busIdle
  split
  · exact .ite hs1.bump.modPort.startFrame hs1
  · exact h

protected theorem Within.execEchoReplyReceive {p : Fin 256} {k : Fin 32} {e q : Word} {m : Nat} (h : Within s) :
    WithinNext (execEchoReplyReceive p k e q m s) := by
  unfold Machine.execEchoReplyReceive
  extract_lets s1 twice
  have hs1 : Within s1 := h.modPort
  split
  · exact h
  · exact .ite hs1.bump.setReg.modPort hs1.portFault

protected theorem Within.execDelayNoticeSend {p : Fin 256} (h : Within s) : WithinNext (execDelayNoticeSend p s) := by
  unfold Machine.execDelayNoticeSend
  extract_lets s1
  have hs1 : Within s1 := h.busIdle
  split
  · exact .ite hs1.modPort.startFrame hs1
  · exact h

protected theorem Within.stationMidnight {p k : Nat} (h : Within s) : Within (stationMidnight p k s) := by
  unfold Machine.stationMidnight
  extract_lets a n was s1 s2 s3 s4
  have hs1 : Within s1 := h.setBit
  have hs2 : Within s2 := hs1.setF
  have hs3 : Within s3 := .ite hs2.portFault hs2
  have hs4 : Within s4 := .ite hs3.setBit.portFault hs3
  exact .ite hs1 hs4.setBit

protected theorem Within.delayMidnight {p k : Nat} (h : Within s) : Within (delayMidnight p k s) := .ite h.addSat h

protected theorem Within.portMidnight {p : Nat} (h : Within s) : Within (portMidnight p s) := by
  unfold Machine.portMidnight
  extract_lets due s1 s2 s3
  have hs1 : Within s1 := .ite h h.modPort
  have hs2 : Within s2 := by
    unfold s2
    split
    · exact hs1.portFault
    · exact hs1
  have hs3 : Within s3 := hs2.modPort
  exact .ite hs1 (hs3.forUpto (fun _ _ ht => ht.stationMidnight.delayMidnight))

protected theorem Within.portTakeover {p : Nat} (h : Within s) : Within (portTakeover p s) := h.forUpto fun _ _ ht => ht.setF

/-! The signal chain unit (R333 to R355). -/

protected theorem Within.chClear {i : Nat} (h : Within s) : Within (chClear i s) := h.same

protected theorem Within.chStart {i : Nat} (h : Within s) : Within (chStart i s) :=
  .ite h (.ite h.setF.setBit.raise (.ite h.setF.setBit.raise h.setReg.chClear.modSigChan))

protected theorem Within.chStop {i : Nat} (h : Within s) : Within (chStop i s) := .ite h.setF h
protected theorem Within.execChannelGo {i : Fin 2048} (h : Within s) : WithinNext (execChannelGo i s) := h.chStart
protected theorem Within.execChannelStop {i : Fin 2048} (h : Within s) : WithinNext (execChannelStop i s) := h.chStop
protected theorem Within.stopChains (h : Within s) : Within (stopChains s) := h.forUpto fun _ _ ht => ht.chStop
protected theorem Within.autoStart (h : Within s) : Within (autoStart s) := h.forUpto fun _ _ ht => .ite ht.chStart ht

protected theorem Within.thresholdEvent {i k sec o : Nat} (h : Within s) : Within (thresholdEvent i k sec o s) :=
  .ite h.postEvent h

protected theorem Within.setHigh {i sec o : Nat} {v : Bool} (h : Within s) : Within (setHigh i sec o v s) :=
  .ite h h.modSigChan.thresholdEvent

protected theorem Within.setLow {i sec o : Nat} {v : Bool} (h : Within s) : Within (setLow i sec o v s) :=
  .ite h h.modSigChan.thresholdEvent

protected theorem Within.thresholds {i sec o : Nat} {z : Word} (h : Within s) : Within (thresholds i sec o z s) :=
  .ite h.setLow.setHigh h.setHigh.setLow

protected theorem Within.noteSat {i : Nat} (h : Within s) : Within (noteSat i s) :=
  .ite h.setBit.addSat h.setBit.addSat.modSigChan.raise

protected theorem Within.formOutput {i sec idx : Nat} (h : Within s) : Within (formOutput i sec idx s) := by
  unfold Machine.formOutput
  extract_lets ys y z sat' o bad settle a s1 s2 s3 s4
  have hs1 : Within s1 := h.mWrite.mWrite
  have hs2 : Within s2 := hs1.setF
  have hs3 : Within s3 := .ite hs2.noteSat hs2
  have hs4 : Within s4 := .ite hs3 hs3.setF
  exact .ite hs4 hs4.thresholds

protected theorem Within.takePosition {i sec idx : Nat} {w : Word} {filled : Bool} (h : Within s) :
    Within (takePosition i sec idx w filled s) :=
  .ite h.modSigChan (.ite h.modSigChan.modSigChan.formOutput h.modSigChan.modSigChan)

protected theorem Within.fillGap {i sec idx n : Nat} (h : Within s) : Within (fillGap i sec idx n s) := by
  induction n generalizing sec idx s with
  | zero => exact h
  | succ n ih => exact ih h.takePosition

protected theorem Within.takeSync {i sec idx : Nat} (h : Within s) : Within (takeSync i sec idx s) := by
  unfold Machine.takeSync
  split
  · exact .ite h.setF.modSigChan h
  · exact h

protected theorem Within.acceptSample {i sec idx : Nat} {w : Word} (h : Within s) : Within (acceptSample i sec idx w s) := by
  unfold Machine.acceptSample
  exact h.takeSync.takePosition.modSigChan

protected theorem Within.takeSample {i sec idx : Nat} {w : Word} (h : Within s) : Within (takeSample i sec idx w s) := by
  unfold Machine.takeSample
  split
  · exact h
  · split
    · exact h.acceptSample
    · extract_lets d s1
      have hs1 : Within s1 := h.setBit.addSat.raise
      exact .ite h.setBit.addSat.raise (.ite h.acceptSample (.ite hs1.fillGap.acceptSample h.setBit.chClear.raise.acceptSample))

protected theorem Within.feedptrWrite {put : Nat} (h : Within s) : Within (feedptrWrite put s) := h.same

protected theorem Within.execFeedptrWrite {put : BitVec 8} (h : Within s) : WithinNext (execFeedptrWrite put s) := h.same

protected theorem Within.fetchFeed (h : Within s) : Within (fetchFeed s).2 := by
  unfold Machine.fetchFeed
  extract_lets a d
  have hd : Within d.2 := h.mReads
  split
  · extract_lets e r5
    have hr5 : Within r5.2 := hd.mReads
    exact hr5
  · exact hd

protected theorem Within.takeFeed {f : Feed} {ws : List Word} (h : Within s) : Within (takeFeed f ws s) :=
  h.forUpto fun _ _ ht => ht.takeSample

protected theorem Within.endFeed {reason : Nat} (h : Within s) : Within (endFeed reason s) :=
  .ite h.mRead.mWrite.modSig.setF.setBit.raise h.mRead.mWrite.modSig.setF

protected theorem Within.refuseFeed {reason : Nat} (h : Within s) : Within (refuseFeed reason s) := h.setBit.raise.endFeed

protected theorem Within.processFeed (h : Within s) : Within (processFeed s) := by
  unfold Machine.processFeed
  extract_lets r1
  have hr1 : Within r1.2 := h.fetchFeed
  split
  · exact hr1.refuseFeed
  · extract_lets q
    have hq : Within q.2 := hr1.mReads
    split
    · exact hr1.refuseFeed
    · split
      · exact hq.refuseFeed
      · exact hq.takeFeed.endFeed.ownFault fun _ ht => ht.raise

protected theorem Within.execFeedProcess (h : Within s) : WithinNext (execFeedProcess s) :=
  Within.ite (h.ifFree (fun _ ht => ht.processFeed)) h

protected theorem Within.armPps (h : Within s) : Within (armPps s) := h.same

protected theorem Within.execSyncArmNextPps (h : Within s) : WithinNext (execSyncArmNextPps s) := h.same

protected theorem Within.armMidnight (h : Within s) : Within (armMidnight s) := .ite h.setF.modSig.failSync h.setF.modSig
protected theorem Within.execSyncArmMidnight (h : Within s) : WithinNext (execSyncArmMidnight s) := h.noteWrote.armMidnight
protected theorem Within.execSyncArmFail (h : Within s) : WithinNext (execSyncArmFail s) := .ite h.failSync (.ite h.failSync h)
protected theorem Within.inUse {i : Nat} (h : Within s) : Within (inUse i s) := h.setBit.raise

protected theorem Within.writeThreshold {i j : Nat} {v : Word} (h : Within s) : Within (writeThreshold i j v s) :=
  .ite h.inUse h.modSigChan.setReg

protected theorem Within.changedChannels {cs : List Nat} (h : Within s) : Within (changedChannels cs s) :=
  (h.foldl (fun _ _ ht => ht.chStop)).modSig

protected theorem Within.restartChannels (h : Within s) : Within (restartChannels s) :=
  (h.foldl (fun _ _ ht => .ite ht.chStart ht)).modSig

/-! What a granted access does (R9 to R12, R35, R223, R497). -/

protected theorem Within.popLate (h : Within s) : Within (popLate s) := by
  unfold Machine.popLate
  split
  · next r l he =>
    have ht : Within { s with late := l } := { h with lateMax := tail_le he h.lateMax }
    exact ht.setReg.setReg
  · exact h

protected theorem Within.popOvr (h : Within s) : Within (popOvr s) :=
  { h with ovrMax := (List.tail_sublist _).length_le.trans h.ovrMax }

protected theorem Within.popMism (h : Within s) : Within (popMism s) := by
  unfold Machine.popMism
  split
  · next r l he =>
    have ht : Within { s with mism := l } := { h with mismMax := tail_le he h.mismMax }
    exact ht.setReg.setReg
  · exact h

protected theorem Within.popViol (h : Within s) : Within (popViol s) := by
  unfold Machine.popViol
  split
  · next r l he =>
    have ht : Within { s with viol := l } := { h with violMax := tail_le he h.violMax }
    exact ht.setReg.setReg
  · exact h

protected theorem Within.popTrace (h : Within s) : Within (popTrace s) :=
  .ite h (.ite h.modTrace (h.modTrace ⟨h.traceMax.1, (List.tail_sublist _).length_le.trans h.traceMax.2⟩))
protected theorem Within.latchDay {m : Nat} (h : Within s) : Within (latchDay m s) := h.latchWord
protected theorem Within.latchClock {m : Nat} (h : Within s) : Within (latchClock m s) := h.same

protected theorem Within.clearRc {a : Nat} (h : Within s) : Within (clearRc a s) := by
  unfold Machine.clearRc
  extract_lets s1
  split
  · extract_lets kept s2
    have hs2 : Within s2 := h.setReg
    exact .ite h hs2.same
  · exact h

protected theorem Within.popUnlessBorn {a : Nat} {f : State → State} (h : Within s) (hf : ∀ x, Within x → Within (f x)) :
    Within (popUnlessBorn a f s) :=
  .ite h (hf _ h)

protected theorem Within.reseed (h : Within s) : Within (reseed s) := h.same

protected theorem Within.drawn (h : Within s) : Within (drawn s) := .ite ((Within.ite h.reseed h).same) h

protected theorem Within.readEffect {m a : Nat} (h : Within s) : Within (readEffect m a s) := by
  unfold Machine.readEffect
  exact .ite (h.popUnlessBorn (fun _ ht => ht.popLate)) (.ite (h.popUnlessBorn (fun _ hu => hu.popOvr))
    (.ite (h.popUnlessBorn (fun _ hv => hv.popMism)) (.ite (h.popUnlessBorn (fun _ hw => hw.popViol))
    (.ite (h.popUnlessBorn (fun _ hx => hx.popTrace)) (.ite h.latchDay (.ite h.latchClock (.ite h.drawn h.clearRc)))))))

protected theorem Within.readReg {m : Nat} {peek : Bool} {a : Nat} (h : Within s) : Within (readReg m peek a s).2 := by
  unfold Machine.readReg
  split
  · exact h.bump
  · exact h.bump.readEffect

protected theorem Within.readMapped {m : Nat} {plant : Option (Nat × Nat)} {peek : Bool} {a : Nat} (h : Within s) :
    Within (readMapped m plant peek a s).2 := by
  unfold Machine.readMapped
  split
  · split
    · exact h
    · exact h.memRead
  · split
    · split
      · exact h
      · exact h.tsRead
    · split
      · split
        · exact h
        · exact h.tsReadRaw
      · exact h.readReg

protected theorem Within.writeFields {d : RegDesc} {a : Nat} {v : Word} (h : Within s) : Within (writeFields d a v s) :=
  h.setReg

protected theorem Within.writePlain {a : Nat} {v : Word} (h : Within s) : Within (writePlain a v s) := by
  unfold Machine.writePlain
  split
  · exact h.writeFields
  · exact h

protected theorem Within.writeLater {a : Nat} {v : Word} (h : Within s) : Within (writeLater a v s) := by
  unfold Machine.writeLater
  split
  · exact h.modDay
  · exact h

protected theorem Within.applyLater (h : Within s) : Within (applyLater s) := by
  unfold Machine.applyLater
  extract_lets s1
  have hs1 : Within s1 := h.foldl fun _ _ ht => ht.writePlain
  exact hs1.modDay

protected theorem Within.writeMode {p : Nat} {v : Word} (h : Within s) : Within (writeMode p v s) := by
  unfold Machine.writeMode
  extract_lets s1 s2 s3 s4
  have hs1 : Within s1 := .ite h.setF h
  have hs2 : Within s2 := hs1.setBit
  have hs3 : Within s3 := .ite (.ite hs2 hs2.loreqSet) hs2.loreqClear
  have hs4 : Within s4 := .ite hs3.borec hs3
  exact .ite hs4.cfgEnter hs4.cfgLeave

protected theorem Within.writeZp {a : Nat} {v : Word} (h : Within s) : Within (writeZp a v s) := by
  unfold Machine.writeZp
  extract_lets p off
  exact .ite h.writeMode (.ite (.ite h.writePlain h.portFault) (.ite (.ite h.writePlain h.portFault)
    (.ite h.txptrWrite (.ite (.ite h.txcanCancel h)
    (.ite h.rxack (.ite h.writeLater (.ite ((Within.ite h.unmute h).writeLater) h.writePlain)))))))

protected theorem Within.writeTim {a : Nat} {v : Word} (h : Within s) : Within (writeTim a v s) := by
  unfold Machine.writeTim
  exact .ite h.setReg (.ite h.writePlain.reselect (.ite h.writePlain.refreshDom (.ite h.writePlain.refreshDom h.writePlain)))

protected theorem Within.writeCtl {i : Nat} {v : Word} (h : Within s) : Within (writeCtl i v s) :=
  .ite ((Within.ite h.writePlain.chStart h.writePlain).chStop) (.ite h.writePlain.chStart h.writePlain)

protected theorem Within.writeSync {v : Word} (h : Within s) : Within (writeSync v s) := by
  unfold Machine.writeSync
  extract_lets s1
  have hs1 : Within s1 := h.setReg
  split
  · exact hs1.setF
  · exact hs1.armPps
  · exact hs1.armMidnight
  · exact hs1

protected theorem Within.writeSig {a : Nat} {v : Word} (h : Within s) : Within (writeSig a v s) := by
  unfold Machine.writeSig
  extract_lets c1 j
  exact .ite (.ite h.writePlain h) (.ite (.ite h.writePlain h.inUse)
    (.ite h.feedptrWrite (.ite h.writeSync (.ite h.writePlain (.ite (.ite h.writePlain h.inUse)
    (.ite h.writeCtl (.ite h.writeThreshold (.ite h.writePlain (.ite h.writePlain h.inUse)))))))))

protected theorem Within.writeSaf {a : Nat} {v : Word} (h : Within s) : Within (writeSaf a v s) :=
  .ite (.ite h.unlock h) (.ite h.drvCmdWrite (.ite h.resumeWrite (.ite h.connRxWrite h.writePlain)))

protected theorem Within.writeLio {a : Nat} {v : Word} (h : Within s) : Within (writeLio a v s) :=
  .ite h.lioOutWrite (.ite h.writeLater h.writePlain)

protected theorem Within.setPref {b : Bool} (h : Within s) : Within (setPref b s) := .ite h h.setBit.setBit.raise

protected theorem Within.regionWrite {m n j : Nat} {v : Word} (h : Within s) : Within (regionWrite m n j v s) := by
  unfold Machine.regionWrite
  extract_lets u
  exact .ite h.setBit.raise (.ite h.same h.same)

protected theorem Within.applyRegions (h : Within s) : Within (applyRegions s) := by
  have ht : Within (s.day.midRegions.foldl (fun t w => Machine.setReg t w.1 w.2) s) := h.foldl fun _ _ h1 => h1.setReg
  exact ht.modDay

protected theorem Within.writeReg {m a : Nat} {v : Word} (h : Within s) : Within (writeReg m a v s) := by
  unfold Machine.writeReg
  extract_lets u
  have hu : Within u := h.noteWrote
  split
  · exact hu.writeZp
  · exact hu.writeTim
  · exact hu.writeSig
  · exact hu.writeSaf
  · exact hu.writeLio
  · exact .ite hu.setPref hu.writePlain
  · exact .ite hu.regionWrite hu.writePlain
  · exact .ite hu.writeLater hu.writePlain
  · exact hu.writePlain

protected theorem Within.writeMapped {m a : Nat} {v : Word} (h : Within s) : Within (writeMapped m a v s) :=
  .ite h.memWrite (.ite ((Within.ite h.markWrite h).tsWrite) (.ite h.tsWriteRaw h.writeReg))

protected theorem Within.gatedRead {m : Nat} {secure : Bool} {plant : Option (Nat × Nat)} {walk : Bool} {a : Word}
    (h : Within s) :
    Within (gatedRead m secure plant walk a s).2 := by
  unfold Machine.gatedRead
  extract_lets s1 r2
  have hs1 : Within s1 := h.touch
  have hr2 : Within r2.2 := hs1.readMapped
  split
  · exact hs1.violate
  · exact hr2

protected theorem Within.gatedWrite {m : Nat} {secure : Bool} {a v : Word} (h : Within s) :
    Within (gatedWrite m secure a v s).2 := by
  unfold Machine.gatedWrite
  extract_lets s1
  have hs1 : Within s1 := h.touch
  split
  · exact hs1.violate
  · exact hs1.writeMapped

protected theorem Within.readCommand {m : Nat} {a : Word} (h : Within s) : WithinNext (readCommand m a s) :=
  h.ifFree fun _ ht => ht.gatedRead.emit

protected theorem Within.execFabLateRead {master : Fin 1032} {secure : Bool} (h : Within s) :
    WithinNext (execFabLateRead master secure s) :=
  h.readCommand

protected theorem Within.execDayOvrRead {master : Fin 1032} {secure : Bool} (h : Within s) :
    WithinNext (execDayOvrRead master secure s) :=
  h.readCommand

protected theorem Within.execCmpMismRead {master : Fin 1032} {secure : Bool} (h : Within s) :
    WithinNext (execCmpMismRead master secure s) :=
  h.readCommand

protected theorem Within.execGateViolRead {master : Fin 1032} {secure : Bool} (h : Within s) :
    WithinNext (execGateViolRead master secure s) :=
  h.readCommand

protected theorem Within.execDbgTrrdRead {master : Fin 1032} {secure : Bool} (h : Within s) :
    WithinNext (execDbgTrrdRead master secure s) :=
  h.readCommand

protected theorem Within.execDayNumlRead {master : Fin 1032} {secure : Bool} (h : Within s) :
    WithinNext (execDayNumlRead master secure s) :=
  h.readCommand

protected theorem Within.execTimClknsRead {master : Fin 1032} {secure : Bool} (h : Within s) :
    WithinNext (execTimClknsRead master secure s) :=
  h.readCommand

protected theorem Within.execCounterReadClear {master : Fin 1032} {secure : Bool} {a : Word} (h : Within s) :
    WithinNext (execCounterReadClear master secure a s) :=
  h.readCommand

protected theorem Within.execSecRngRead (h : Within s) : WithinNext (execSecRngRead s) := h.readReg.emit

protected theorem Within.execGateRegionWrite {master : Fin 1032} {secure : Bool} {n : Fin 256} {j : Fin 3} {v : Word}
    (h : Within s) :
    WithinNext (execGateRegionWrite master secure n j v s) :=
  h.ifFree fun _ ht => ht.gatedWrite

protected theorem Within.execRegisterWrite {master : Fin 1032} {secure : Bool} {a v : Word} (h : Within s) :
    WithinNext (execRegisterWrite master secure a v s) :=
  h.ifFree fun _ ht => ht.gatedWrite

/-! The translated accesses of supervisor engines and their exceptions (R37, R115, R499 to R503). -/

protected theorem Within.enterHandler {e cause level seq : Nat} {va epc : Word} (h : Within s) :
    Within (enterHandler e cause level seq va epc s) :=
  h.modSup

protected theorem Within.except {e cause level seq : Nat} {va : Word} (h : Within s) : Within (except e cause level seq va s) := h.same

protected theorem Within.walkRead {e level : Nat} {priv : Bool} {a : Nat} (h : Within s) : Within
    (walkRead e level priv a s).2 := by
  unfold Machine.walkRead
  split
  · exact h
  · split
    · exact h.setBit.raise
    · have hg : Within (Machine.gatedRead e (supOf s e).secure none true (word a) s).2 := h.gatedRead
      generalize Machine.gatedRead e (supOf s e).secure none true (word a) s = u at hg ⊢
      obtain ⟨_ | w, t⟩ := u
      · exact hg.setBit.raise
      · exact hg

protected theorem Within.walk {e va : Nat} (h : Within s) : Within (walk e va s).2 := by
  unfold Machine.walk
  extract_lets u ttb
  have h1 : Within (Machine.walkRead e 1 (ttb.getLsbD 35) (slice ttb.toNat 31 0 + slice va 31 22) s).2 := h.walkRead
  generalize Machine.walkRead e 1 (ttb.getLsbD 35) (slice ttb.toNat 31 0 + slice va 31 22) s = x at h1 ⊢
  obtain ⟨w | t, s1⟩ := x
  · dsimp only
    split
    · exact h1
    · have h2 : Within (Machine.walkRead e 2 (w.getLsbD 30) (pfn w * 4096 + slice va 21 12) s1).2 := Within.walkRead h1
      generalize Machine.walkRead e 2 (w.getLsbD 30) (pfn w * 4096 + slice va 21 12) s1 = y at h2 ⊢
      obtain ⟨v | t, s2⟩ := y
      · exact h2
      · exact h2
  · exact h1

protected theorem Within.translate {e : Nat} {n : Need} {va : Nat} (h : Within s) : Within (translate e n va s).2 := by
  unfold Machine.translate
  extract_lets u
  split
  · exact h
  · have hw : Within (Machine.walk e va s).2 := h.walk
    generalize Machine.walk e va s = v at hw ⊢
    obtain ⟨w | t, q⟩ := v
    · dsimp only at hw ⊢
      exact hw.modSup
    · exact hw

protected theorem Within.badTrans {e : Nat} {t : Trans} {va : Word} (h : Within s) : Within (badTrans e t va s) := by
  unfold Machine.badTrans
  split
  · exact h.except
  · exact h

protected theorem Within.exceptRec {e cause : Nat} {va : Word} (h : Within s) : Within (exceptRec e cause va s) := h.except

protected theorem Within.supRead {e : Nat} {va : Word} (h : Within s) : Within (supRead e va s).2 := by
  unfold Machine.supRead
  split
  · exact h.violate.exceptRec
  · have ht : Within (Machine.translate e { rd := true } va.toNat s).2 := h.translate
    generalize Machine.translate e { rd := true } va.toNat s = x at ht ⊢
    obtain ⟨⟨_ | _, a⟩ | _, t⟩ := x
    · have hg : Within (Machine.gatedRead e (supOf t e).secure none false (word a) t).2 := Within.gatedRead ht
      dsimp only
      generalize Machine.gatedRead e (supOf t e).secure none false (word a) t = y at hg ⊢
      obtain ⟨_ | w, u⟩ := y
      · exact Within.exceptRec hg
      · exact hg
    · exact ht
    · dsimp only at ht ⊢
      exact ht.badTrans

protected theorem Within.noteWrite {e : Nat} (h : Within s) : Within (noteWrite e s) := h.modSup

protected theorem Within.supWrite {e : Nat} {va v : Word} (h : Within s) : Within (supWrite e va v s) := by
  unfold Machine.supWrite
  split
  · exact h.violate.noteWrite
  · have ht : Within (Machine.translate e { wr := true } va.toNat s).2 := h.translate
    generalize Machine.translate e { wr := true } va.toNat s = x at ht ⊢
    obtain ⟨⟨_ | _, a⟩ | _, t⟩ := x
    · have hg : Within (Machine.gatedWrite e (supOf t e).secure (word a) v t).2 := Within.gatedWrite ht
      dsimp only
      generalize Machine.gatedWrite e (supOf t e).secure (word a) v t = y at hg ⊢
      obtain ⟨_ | _, u⟩ := y
      · exact Within.noteWrite hg
      · exact hg
    · exact Within.privSet ht
    · exact Within.badTrans ht

protected theorem Within.sharedCas {e : Nat} {secure : Bool} {va : Word} {a : Nat} {b d : Word} (h : Within s) :
    Within (sharedCas e secure va a b d s).2 := by
  unfold Machine.sharedCas
  extract_lets r1
  have hr1 : Within r1.2 := h.readMapped
  split
  · exact h.violate.exceptRec
  · exact .ite hr1.writeMapped hr1

protected theorem Within.supCas {e : Nat} {va b d : Word} (h : Within s) : Within (supCas e va b d s).2 := by
  unfold Machine.supCas
  extract_lets secure
  split
  · exact h.violate.exceptRec
  · have ht : Within (Machine.translate e { rd := true, wr := true } va.toNat s).2 := h.translate
    generalize Machine.translate e { rd := true, wr := true } va.toNat s = x at ht ⊢
    obtain ⟨⟨_ | _, a⟩ | _, t⟩ := x
    · exact (Within.touch ht).sharedCas
    · exact Within.ite (Within.privSet ht) ht
    · dsimp only at ht ⊢
      exact ht.badTrans

protected theorem Within.holdBanks {e : Nat} {held : Bool} (h : Within s) : Within (holdBanks e held s) := .ite h.modSup h

/-! The release of an instruction by a plant engine on its schedule (R67 to R72, R121 to R134). -/

protected theorem Within.haltEngine {e : Nat} (h : Within s) : Within (haltEngine e s) := h.modEngine.traceRest

protected theorem Within.released {e n : Nat} (h : Within s) : Within (released e n s) :=
  h.modEngine fun _ hx => (countStep_bounded _).2 (stepPos_bounded hx)

protected theorem Within.lateRelease {e delta : Nat} (h : Within s) : Within (lateRelease e delta s) := .ite h.lateEvent h
protected theorem Within.fetchFault {e : Nat} (h : Within s) : Within (fetchFault e s) := .ite h.addSat.modTelem.raise h
protected theorem Within.reservedReached {e : Nat} (h : Within s) : Within (reservedReached e s) := h.fetchFault.lateEvent

/-- Both bodies of an instruction keep what its release has to keep. -/
def Issue.KeepsBounds (k : Issue) : Prop :=
  ∀ x t, Within t → Within (k.body x t).1 ∧ Within (k.onFalse x t).1

theorem Issue.KeepsBounds.idle {k : Issue} (hk : k.KeepsBounds) : k.idle.KeepsBounds := fun x t h => ⟨(hk x t h).2, (hk x t h).2⟩

protected theorem Within.execBody {e : Nat} {k : Issue} (h : Within s) (hk : k.KeepsBounds) : Within (execBody e k s) := by
  unfold Machine.execBody
  extract_lets pos b held
  have hb : Within b.1 := (hk (engine s e) s h).1
  refine hb.modEngine fun x hx => ?_
  have ht : (takeUnit s.now held k.unit x).bounded := (takeUnit_bounded _ _ _ _).2 hx
  dsimp only
  split
  · exact ht
  · exact ht

protected theorem Within.countIf {i : Bool} {e pos : Nat} (h : Within s) : Within (countIf i e pos s) := .ite h.countLock h

protected theorem Within.plantRelease {e : Nat} {ok : Bool} {q : Sources} {delta : Nat} {neg : Bool} {pred : BitVec 3} {k : Issue}
    (h : Within s) (hk : k.KeepsBounds) : Within (plantRelease e ok q delta neg pred k s) := by
  unfold Machine.plantRelease
  split
  · exact h
  · split
    · exact h.haltEngine
    · extract_lets x n b t u
      have ht : Within t := h.lateRelease
      have hu : Within u := by
        unfold u
        split
        · exact ht.reservedReached
        · split
          · exact ht.reservedReached.execBody hk.idle
          · split
            · exact ht.execBody hk
            · exact ht.execBody hk.idle
      exact hu.countIf.released

protected theorem Within.supExecute {e : Nat} {neg : Bool} {pred : BitVec 3} {k : Issue} (h : Within s) (hk : k.KeepsBounds) :
    Within (supExecute e neg pred k s) := by
  unfold Machine.supExecute
  extract_lets a t x b
  have ht : Within t := Within.modSup h.modEngine
  have hb : Within b.1 := by
    unfold b
    split
    · exact (hk x t ht).1
    · exact (hk x t ht).2
  exact hb.applyAll

protected theorem Within.supReleased {e pos : Nat} {b : Bool} (h : Within s) : Within (supReleased e pos b s) := by
  unfold Machine.supReleased
  extract_lets a t
  have hm : Within (modEngine e (fun x => countStep { x with
      ord := x.ord + 1, entry := none, loops := a.2.1, pos := a.1, fly := [] }) s) :=
    h.modEngine fun _ hx => (countStep_bounded _).2 ⟨hx.1, (advanceIn_length _ _ _).trans (h.engine e).2.1, hx.2.2⟩
  have ht : Within t := hm.modSup
  exact ht.applyAll.countIf

protected theorem Within.supFetch {e : Nat} (h : Within s) : Within (supFetch e s).2 := by
  unfold Machine.supFetch
  extract_lets pc enter
  have he {t : State} (ht : Within t) : Within (enter t) := ht.enterHandler
  split
  · exact he h.violate
  · have ht : Within (Machine.translate e { ex := true } pc.toNat s).2 := h.translate
    generalize Machine.translate e { ex := true } pc.toNat s = x at ht ⊢
    obtain ⟨⟨_ | _, a⟩ | _, t⟩ := x
    · have hg : Within (Machine.gatedRead e (supOf t e).secure none false (word a) t).2 := Within.gatedRead ht
      dsimp only
      generalize Machine.gatedRead e (supOf t e).secure none false (word a) t = y at hg ⊢
      obtain ⟨_ | w, u⟩ := y
      · exact he hg
      · exact hg
    · exact ht
    · exact Within.enterHandler ht

protected theorem Within.supRelease {e : Nat} {neg : Bool} {pred : BitVec 3} {k : Issue} (h : Within s) (hk : k.KeepsBounds) :
    Within (supRelease e neg pred k s) := by
  unfold Machine.supRelease
  split
  · exact h
  · split
    · exact h.haltEngine
    · split
      · exact h.modSup.enterHandler
      · extract_lets held b
        have hf : Within (Machine.supFetch e s).2 := h.supFetch
        generalize Machine.supFetch e s = x at hf ⊢
        obtain ⟨_ | _, t⟩ := x
        · exact Within.holdBanks hf
        · exact (Within.supExecute hf hk).supReleased.holdBanks

protected theorem Within.release {e : Fin 1028} {i : Instr} {delta : Nat} {neg : Bool} {pred : BitVec 3} {k : Issue}
    (h : Within s) (hk : k.KeepsBounds) : WithinNext (release e i delta neg pred k s) := by
  unfold Machine.release
  split
  · exact h.plantRelease hk
  · split
    · exact Within.ifFree h fun _ h1 => h1.supRelease hk
    · trivial

protected theorem Within.releaseR {e : Fin 1028} {i : Instr} {f : RegForm} {k : Issue} (h : Within s) (hk : k.KeepsBounds) :
    WithinNext (releaseR e i f k s) := h.release hk

protected theorem Within.releaseI {e : Fin 1028} {i : Instr} {f : ImmForm} {k : Issue} (h : Within s) (hk : k.KeepsBounds) :
    WithinNext (releaseI e i f k s) := h.release hk

/-! The class A arithmetic, logic, conversion, constant and predicate instructions (R74 to R88). -/

protected theorem Within.execNop {e : Fin 1028} {f : RegForm} (h : Within s) : WithinNext (execNop e f s) :=
  h.releaseR fun _ _ ht => ⟨ht, ht⟩

protected theorem Within.execAdd {e : Fin 1028} {f : RegForm} (h : Within s) : WithinNext (execAdd e f s) :=
  h.releaseR fun _ _ ht => ⟨ht, ht⟩

protected theorem Within.execAdds {e : Fin 1028} {f : RegForm} (h : Within s) : WithinNext (execAdds e f s) :=
  h.releaseR fun _ _ ht => ⟨ht, ht⟩

protected theorem Within.execSub {e : Fin 1028} {f : RegForm} (h : Within s) : WithinNext (execSub e f s) :=
  h.releaseR fun _ _ ht => ⟨ht, ht⟩

protected theorem Within.execSubs {e : Fin 1028} {f : RegForm} (h : Within s) : WithinNext (execSubs e f s) :=
  h.releaseR fun _ _ ht => ⟨ht, ht⟩

protected theorem Within.execAnd {e : Fin 1028} {f : RegForm} (h : Within s) : WithinNext (execAnd e f s) :=
  h.releaseR fun _ _ ht => ⟨ht, ht⟩

protected theorem Within.execOr {e : Fin 1028} {f : RegForm} (h : Within s) : WithinNext (execOr e f s) :=
  h.releaseR fun _ _ ht => ⟨ht, ht⟩

protected theorem Within.execXor {e : Fin 1028} {f : RegForm} (h : Within s) : WithinNext (execXor e f s) :=
  h.releaseR fun _ _ ht => ⟨ht, ht⟩

protected theorem Within.execAndn {e : Fin 1028} {f : RegForm} (h : Within s) : WithinNext (execAndn e f s) :=
  h.releaseR fun _ _ ht => ⟨ht, ht⟩

protected theorem Within.execNeg {e : Fin 1028} {f : RegForm} (h : Within s) : WithinNext (execNeg e f s) :=
  h.releaseR fun _ _ ht => ⟨ht, ht⟩

protected theorem Within.execNegs {e : Fin 1028} {f : RegForm} (h : Within s) : WithinNext (execNegs e f s) :=
  h.releaseR fun _ _ ht => ⟨ht, ht⟩

protected theorem Within.execAbs {e : Fin 1028} {f : RegForm} (h : Within s) : WithinNext (execAbs e f s) :=
  h.releaseR fun _ _ ht => ⟨ht, ht⟩

protected theorem Within.execAbss {e : Fin 1028} {f : RegForm} (h : Within s) : WithinNext (execAbss e f s) :=
  h.releaseR fun _ _ ht => ⟨ht, ht⟩

protected theorem Within.execMin {e : Fin 1028} {f : RegForm} (h : Within s) : WithinNext (execMin e f s) :=
  h.releaseR fun _ _ ht => ⟨ht, ht⟩

protected theorem Within.execMax {e : Fin 1028} {f : RegForm} (h : Within s) : WithinNext (execMax e f s) :=
  h.releaseR fun _ _ ht => ⟨ht, ht⟩

protected theorem Within.execSel {e : Fin 1028} {f : RegForm} (h : Within s) : WithinNext (execSel e f s) :=
  h.releaseR fun _ _ ht => ⟨ht, ht⟩

protected theorem Within.execCls {e : Fin 1028} {f : RegForm} (h : Within s) : WithinNext (execCls e f s) :=
  h.releaseR fun _ _ ht => ⟨ht, ht⟩

protected theorem Within.execShl {e : Fin 1028} {f : RegForm} (h : Within s) : WithinNext (execShl e f s) :=
  h.releaseR fun _ _ ht => ⟨ht, ht⟩

protected theorem Within.execShls {e : Fin 1028} {f : RegForm} (h : Within s) : WithinNext (execShls e f s) :=
  h.releaseR fun _ _ ht => ⟨ht, ht⟩

protected theorem Within.execShr {e : Fin 1028} {f : RegForm} (h : Within s) : WithinNext (execShr e f s) :=
  h.releaseR fun _ _ ht => ⟨ht, ht⟩

protected theorem Within.execSar {e : Fin 1028} {f : RegForm} (h : Within s) : WithinNext (execSar e f s) :=
  h.releaseR fun _ _ ht => ⟨ht, ht⟩

protected theorem Within.execRot {e : Fin 1028} {f : RegForm} (h : Within s) : WithinNext (execRot e f s) :=
  h.releaseR fun _ _ ht => ⟨ht, ht⟩

protected theorem Within.execExt {e : Fin 1028} {f : RegForm} (h : Within s) : WithinNext (execExt e f s) :=
  h.releaseR fun _ _ ht => ⟨ht, ht⟩

protected theorem Within.execIns {e : Fin 1028} {f : RegForm} (h : Within s) : WithinNext (execIns e f s) :=
  h.releaseR fun _ _ ht => ⟨ht, ht⟩

protected theorem Within.execCvt {e : Fin 1028} {f : RegForm} (h : Within s) : WithinNext (execCvt e f s) :=
  h.releaseR fun _ _ ht => ⟨ht, ht⟩

protected theorem Within.execLdi {e : Fin 1028} {f : ImmForm} (h : Within s) : WithinNext (execLdi e f s) :=
  h.releaseI fun _ _ ht => ⟨ht, ht⟩

protected theorem Within.execShi {e : Fin 1028} {f : ImmForm} (h : Within s) : WithinNext (execShi e f s) :=
  h.releaseI fun _ _ ht => ⟨ht, ht⟩

protected theorem Within.execAddi {e : Fin 1028} {f : ImmForm} (h : Within s) : WithinNext (execAddi e f s) :=
  h.releaseI fun _ _ ht => ⟨ht, ht⟩

protected theorem Within.execCmp {e : Fin 1028} {f : RegForm} (h : Within s) : WithinNext (execCmp e f s) :=
  h.releaseR fun _ _ ht => ⟨ht, ht⟩

protected theorem Within.execPlog {e : Fin 1028} {f : RegForm} (h : Within s) : WithinNext (execPlog e f s) :=
  h.releaseR fun _ _ ht => ⟨ht, ht⟩

protected theorem Within.execRdf {e : Fin 1028} {f : RegForm} (h : Within s) : WithinNext (execRdf e f s) :=
  h.releaseR fun _ _ ht => ⟨ht, ht⟩

protected theorem Within.execClrf {e : Fin 1028} {f : RegForm} (h : Within s) : WithinNext (execClrf e f s) :=
  h.releaseR fun _ _ ht => ⟨ht, ht⟩

protected theorem Within.execPmov {e : Fin 1028} {f : RegForm} (h : Within s) : WithinNext (execPmov e f s) :=
  h.releaseR fun _ _ ht => ⟨ht, ht⟩

protected theorem Within.execPopc {e : Fin 1028} {f : RegForm} (h : Within s) : WithinNext (execPopc e f s) :=
  h.releaseR fun _ _ ht => ⟨ht, ht⟩

protected theorem Within.execLim {e : Fin 1028} {f : RegForm} (h : Within s) : WithinNext (execLim e f s) :=
  h.releaseR fun _ _ ht => ⟨ht, ht⟩

protected theorem Within.execSrr {e : Fin 1028} {f : RegForm} (h : Within s) : WithinNext (execSrr e f s) :=
  h.releaseR fun _ _ ht => ⟨ht, ht⟩

/-! C37.118.2 output streams and remote streams (R362 to R368). -/

protected theorem Within.c37Command {i : Nat} {peer : BitVec 32} {f : State → State} (h : Within s)
    (hf : ∀ x, Within x → Within (f x)) :
    Within (c37Command i peer f s) :=
  .ite (hf _ h) h.raise.dropSomewhere

protected theorem Within.sendConfig {i kind cmd : Nat} (h : Within s) : Within (sendConfig i kind cmd s) := h.emit

protected theorem Within.execC37ConnectionAccept {stream : Fin 8} {peer : BitVec 32} {port : BitVec 16} (h : Within s) :
    WithinNext (execC37ConnectionAccept stream peer port s) :=
  .ite h.dropSomewhere (h.c37Command (fun _ ht => ht.modStream))

protected theorem Within.execC37DataOff {stream : Fin 8} {peer : BitVec 32} (h : Within s) :
    WithinNext (execC37DataOff stream peer s) :=
  h.c37Command fun _ ht => ht.modStream

protected theorem Within.execC37DataOn {stream : Fin 8} {peer : BitVec 32} (h : Within s) :
    WithinNext (execC37DataOn stream peer s) :=
  h.c37Command fun _ ht => ht.modStream

protected theorem Within.execC37SendHeader {stream : Fin 8} {peer : BitVec 32} (h : Within s) :
    WithinNext (execC37SendHeader stream peer s) :=
  h.c37Command fun _ ht => ht.sendConfig

protected theorem Within.execC37SendCfg2 {stream : Fin 8} {peer : BitVec 32} (h : Within s) :
    WithinNext (execC37SendCfg2 stream peer s) :=
  h.c37Command fun _ ht => ht.sendConfig

protected theorem Within.execC37SendCfg3 {stream : Fin 8} {peer : BitVec 32} (h : Within s) :
    WithinNext (execC37SendCfg3 stream peer s) :=
  h.c37Command fun _ ht => ht.sendConfig

protected theorem Within.execC37Cfg1Ignored {stream : Fin 8} {peer : BitVec 32} (h : Within s) :
    WithinNext (execC37Cfg1Ignored stream peer s) :=
  h.raise

protected theorem Within.execC37ExtendedFrameIgnored {stream : Fin 8} {peer : BitVec 32} (h : Within s) :
    WithinNext (execC37ExtendedFrameIgnored stream peer s) :=
  h.c37Command fun _ h1 => h1

protected theorem Within.noteInvalid {k : Nat} (h : Within s) : Within (noteInvalid k s) :=
  .ite h (h.same.raise)

protected theorem Within.noteResults (h : Within s) : Within (noteResults s) := .ite h (h.foldl (fun _ _ ht => ht.noteInvalid))

protected theorem Within.sendData {i : Nat} {ws : List Word} (h : Within s) : Within (sendData i ws s) := by
  unfold Machine.sendData
  split
  · extract_lets t
    have ht : Within t := .ite h.emit h
    exact .ite ht.emit ht
  · exact h

protected theorem Within.noteInstant {i sec j : Nat} (h : Within s) : Within (noteInstant i sec j s) :=
  h.foldl fun _ _ ht => ht.noteInvalid

protected theorem Within.execC37DataFrameSend {stream : Fin 8} {sec j : Nat} (h : Within s) :
    WithinNext (execC37DataFrameSend stream sec j s) := by
  unfold Machine.execC37DataFrameSend
  split
  · exact .ite h.noteInstant.sendData h.noteInstant
  · exact h

protected theorem Within.execC37FrameTimeout {stream : Fin 8} {sec j : Nat} (h : Within s) :
    WithinNext (execC37FrameTimeout stream sec j s) :=
  .ite h.raise h

protected theorem Within.armStreams {change : List Word} (h : Within s) : Within (armStreams change s) :=
  h.forUpto fun _ _ ht => .ite ht ht.modStream

protected theorem Within.activateStreams (h : Within s) : Within (activateStreams s) :=
  h.forUpto fun _ _ ht => .ite ht.modStream ht

protected theorem Within.askRemote {k kind : Nat} (h : Within s) : Within (askRemote k kind s) := h.emit
protected theorem Within.requestCfg2 {k : Nat} (h : Within s) : Within (requestCfg2 k s) := h.same

protected theorem Within.execRemoteCfg2Receive {k : Fin 16} {cfgCnt : Nat} {fmt : BitVec 4} (h : Within s) :
    WithinNext (execRemoteCfg2Receive k cfgCnt fmt s) :=
  .ite h (Within.ite h.modRemote.raise h.modRemote.askRemote)

protected theorem Within.locate {q : Nat} {far : List (Word × Word)} {f : RemoteData} {k : Nat} {l : LineCfg} (h : Within s) :
    Within (locate q far f k l s) := by
  unfold Machine.locate
  split
  · exact h
  · split
    · exact h
    · extract_lets near q2 s1
      have hs1 : Within s1 := h.same.mWrites
      split
      · exact hs1.raise
      · exact hs1

protected theorem Within.takeRemote {i : Nat} {d : RemoteCfg} {f : RemoteData} (h : Within s) : Within (takeRemote i d f s) :=
    by
  unfold Machine.takeRemote
  extract_lets bad vs ws far m u v w
  have hm : Within m := h.modRemote
  have hu : Within u := hm.same
  have hv : Within v := hu.mWrites
  have hw : Within w := .ite hv.raise hv
  exact hw.foldl fun _ _ h1 => h1.locate

protected theorem Within.execRemoteDataFrameReceive {k : Fin 16} {f : RemoteData} (h : Within s) :
    WithinNext (execRemoteDataFrameReceive k f s) := by
  unfold Machine.execRemoteDataFrameReceive
  split
  · exact h
  · exact .ite h (h.ifFree (fun _ ht => ht.takeRemote))

protected theorem Within.execRemoteStreamLost {k : Fin 16} (h : Within s) : WithinNext (execRemoteStreamLost k s) :=
  .ite h.modRemote.raise h

protected theorem Within.execRemoteCfg2Rerequest {k : Fin 16} (h : Within s) : WithinNext (execRemoteCfg2Rerequest k s) :=
  .ite h.requestCfg2 h

/-! The plan image (R118, R161 to R169, R202, R203). -/

protected theorem Within.writeRun {f : Nat → Word → State → State} {a : Nat} {ws : List Word} (h : Within s)
    (hf : ∀ x y z, Within z → Within (f x y z)) :
    Within (writeRun f a ws s) :=
  h.foldl fun _ _ ht => hf _ _ _ ht

protected theorem Within.loadEntry {tab : List Word} {e : Nat} (h : Within s) : Within (loadEntry tab e s) :=
  .ite h.modEngine h.modEngine

protected theorem Within.loadPlanMem {tab code : List Word} {e : Nat} (h : Within s) : Within (loadPlanMem tab code e s) :=
  h.writeRun fun _ _ _ ht => ht.memSet

protected theorem Within.initWord {tab : List Word} {a : Nat} {v : Word} (h : Within s) : Within (initWord tab a v s) :=
  .ite h.tsWrite (.ite h.memSet.memSet h.memSet)

protected theorem Within.loadInit {tab init : List Word} (h : Within s) : Within (loadInit tab init s) :=
  h.foldl fun _ _ ht => ht.writeRun (fun _ _ _ hu => hu.initWord)

protected theorem Within.loadPair {tab : List Word} {k : Nat} (h : Within s) : Within (loadPair tab k s) := h.setPair (Nat.zero_le _)

protected theorem Within.loadIdentity {img : List Word} (h : Within s) : Within (loadIdentity img s) :=
  h.tsWrite.forUpto fun _ _ ht => ht.setReg.tsWrite

protected theorem Within.loadTelemetry {ws : List Word} (h : Within s) : Within (loadTelemetry ws s) :=
  .ite h.writePlain.writePlain.writePlain h

protected theorem Within.loadTables {img : List Word} (h : Within s) : Within (loadTables img s) :=
  h.same.loadTelemetry

protected theorem Within.loadPlan {img : List Word} (h : Within s) : Within (loadPlan img s) := by
  unfold Machine.loadPlan
  extract_lets tab s1
  have hs1 : Within s1 := h.forUpto fun _ _ ht => ht.loadEntry.loadPlanMem
  exact (((hs1.forUpto (fun _ _ hu => hu.loadPair)).loadIdentity).loadInit).loadTables

/-! Containers (R469, R470). -/

protected theorem Within.loadContent {ws : List Word} (h : Within s) : Within (loadContent ws s) :=
  h.foldl fun _ _ ht => ht.tsWrite

protected theorem Within.loadSettings {ws : List Word} (h : Within s) : Within (loadSettings ws s) :=
  (h.foldl (fun _ _ ht => ht.writeReg)).applyLater

protected theorem Within.loadRegions {ws : List Word} (h : Within s) : Within (loadRegions ws s) := by
  unfold Machine.loadRegions
  extract_lets s1
  have hs1 : Within s1 := h.forUpto (fun _ _ ht => (ht.forUpto (fun _ _ hu => hu.setReg)).setBit)
  exact .ite hs1 (hs1.foldl (fun _ _ hv => hv.setReg))

protected theorem Within.loadImage {img : List Word} (h : Within s) : Within (loadImage img s) := by
  unfold Machine.loadImage
  extract_lets t u v w
  have ht : Within t := h.loadPlan.modDay
  have hu : Within u := ht.modLink
  have hv : Within v := hu.loadContent
  have hw : Within w := hv.modBoot
  exact hw.loadRegions.loadSettings.startDrives

/-! Online change (R195 to R199, R219, R220, R355, R365, R391, R415). -/

protected theorem Within.doneNotice {k : Nat × BitVec 20} {status : Nat} {ws : List Word} (h : Within s) :
    Within (doneNotice k status ws s) :=
  .ite h.emit h

protected theorem Within.stateNotices (h : Within s) : Within (stateNotices s) := h.foldl fun _ _ ht => ht.emit
protected theorem Within.stopLoader (h : Within s) : Within (stopLoader s) := h.same

protected theorem Within.refuseChange {reason : Nat} (h : Within s) : Within (refuseChange reason s) := h.setF.setF.raise

protected theorem Within.armChange {a : Nat} (h : Within s) : Within (armChange a s) :=
  (Within.ite h.modDay.armStreams h.modDay).setF.setReg

protected theorem Within.cancelChange (h : Within s) : Within (cancelChange s) := by
  unfold Machine.cancelChange
  extract_lets s1 s2
  have hs1 : Within s1 := h.modDay.forUpto fun _ _ ht => ht.modStream
  have hs2 : Within s2 := hs1.setF.raise
  split
  · exact h
  · split
    · exact hs2.same.doneNotice
    · exact hs2

protected theorem Within.discardStaged (h : Within s) : Within (discardStaged s) :=
  .ite h.cancelChange.modBoot.setF h.cancelChange.modBoot

protected theorem Within.startMirror {img : List Word} {k : Nat} (h : Within s) : Within (startMirror img k s) :=
  .ite h.modPair h

protected theorem Within.beginChange (h : Within s) : Within (beginChange s) := by
  unfold Machine.beginChange
  extract_lets img t u v w
  have ht : Within t := h.same
  have hu : Within u := ht.setBit.setF
  have hv : Within v := hu.changedChannels.activateStreams
  have hw : Within w := hv.modSaf
  exact hw.changedDrives.forUpto fun _ _ h1 => h1.startMirror

protected theorem Within.copyEngine {k : Nat} (h : Within s) : Within (copyEngine k s) :=
  (h.forUpto (fun _ _ ht => ht.memSet)).forUpto fun _ _ hu => hu.memSet

protected theorem Within.writeChange {img : List Word} (h : Within s) : Within (writeChange img s) := by
  unfold Machine.writeChange
  extract_lets tab joins s1 s2
  have hs1 : Within s1 := h.forUpto fun _ _ ht => ht.loadPlanMem
  have hs2 : Within s2 := .ite (hs1.loadInit.foldl (fun _ _ hu => hu.copyEngine)) h
  exact hs2.loadContent

protected theorem Within.changeLoaded (h : Within s) : Within (changeLoaded s) := by
  unfold Machine.changeLoaded
  extract_lets ident s1 s2
  have hs1 : Within s1 := h.forUpto fun _ _ ht => ht.setReg
  have hs2 : Within s2 := hs1.modDay.setF.raise
  split
  · exact hs2.same.doneNotice
  · exact hs2

protected theorem Within.composePair {tab : List Word} {k : Nat} (h : Within s) : Within (composePair tab k s) :=
  .ite h.loadPair.modPair (h.loadPair.modPair.modEngine fun _ hx => ⟨Nat.zero_le _, hx.2⟩)

protected theorem Within.endMirrors (h : Within s) : Within (endMirrors s) := h.forUpto fun _ _ ht => ht.modPair

protected theorem Within.finishChange (h : Within s) : Within (finishChange s) := by
  unfold Machine.finishChange
  extract_lets t img tab a u v w x
  have ht : Within t := h.setBit.stopLoader
  split
  · exact ht.modDay.endMirrors.restartChannels
  · have ha : Within a := (ht.forUpto fun _ _ h1 => h1.loadEntry).forUpto fun _ _ h1 => h1.composePair
    have hu : Within u := .ite ha.loadIdentity.loadTables ht
    have hv : Within v := hu.loadSettings
    have hw : Within w := hv.modDay
    have hx : Within x := hw.modBoot
    exact hx.unsuperviseChanged.restartChannels.modSaf

/-- R190: an overrun record joins a queue with room, or is counted. -/
protected theorem Within.overrun {code master pos : Nat} (h : Within s) : Within (overrun code master pos s) := by
  unfold Machine.overrun
  extract_lets t
  have ht : Within t := h.setBit.raise
  split
  · next hroom => exact { ht with ovrMax := length_snoc_le hroom }
  · exact ht.addSat

protected theorem Within.overrunBreach (h : Within s) : Within (overrunBreach s) := .ite h.breach h

protected theorem Within.loaderOverrun (h : Within s) : Within (loaderOverrun s) := by
  unfold Machine.loaderOverrun
  extract_lets s1 s2
  have hs1 : Within s1 := h.modDay.stopLoader
  have hs2 : Within s2 := by
    unfold s2
    split
    · exact hs1.same.doneNotice
    · exact hs1
  exact .ite hs2.overrun.overrunBreach hs2

protected theorem Within.execChangeLoaderComplete (h : Within s) : WithinNext (execChangeLoaderComplete s) :=
  .ite h (.ite h (.ite h.writeChange.superviseChanged.changeLoaded h.loaderOverrun))

/-! Loops, brackets, waits, time stamps, landings and the comparison of pairs (R101 to R114, R123 to R129, R207 to R218). -/

/-- R101: at the depth of 4 no further body opens. -/
protected theorem Within.openLoop {e : Nat} {dead : Bool} {f : ImmForm} (h : Within s) : Within (openLoop e dead f s) :=
  h.modEngine fun x hx => by
    split
    · next hroom => exact ⟨hx.1, hroom, hx.2.2⟩
    · exact hx

protected theorem Within.execLoop {e : Fin 1028} {f : ImmForm} (h : Within s) : WithinNext (execLoop e f s) :=
  h.releaseI fun _ _ ht => ⟨ht.openLoop, ht.openLoop⟩

protected theorem Within.freeBanks {e : Nat} (h : Within s) : Within (freeBanks e s) := .ite h h.modSup

protected theorem Within.execLock {e : Fin 1028} {f : RegForm} (h : Within s) : WithinNext (execLock e f s) :=
  h.releaseR fun _ _ ht => ⟨.ite ht ht.setBracket.freeBanks, ht⟩

protected theorem Within.execUnlock {e : Fin 1028} {f : RegForm} (h : Within s) : WithinNext (execUnlock e f s) :=
  h.releaseR fun _ _ ht => ⟨ht.setBracket.freeBanks, ht⟩

protected theorem Within.restDone {e : Nat} (h : Within s) : Within (restDone e s) :=
  (h.modEngine fun _ hx => bounded_rest hx).addTx.traceRest

protected theorem Within.execDone {e : Fin 1028} {f : RegForm} (h : Within s) : WithinNext (execDone e f s) :=
  h.releaseR fun _ _ ht => ⟨.ite ht.restDone ht, ht⟩

protected theorem Within.execTstamp {e : Fin 1028} {f : RegForm} (h : Within s) : WithinNext (execTstamp e f s) := by
  refine h.releaseR fun x t ht => ⟨?_, ht⟩
  dsimp only
  split
  · exact ht
  · exact ht.bump.bump

protected theorem Within.reachWait {e : Nat} {x : Engine} (h : Within s) : Within (reachWait e x s) := h.modEngine

protected theorem Within.beginWaitT {e t : Nat} {x : Engine} (h : Within s) : Within (beginWaitT e t x s) := by
  unfold Machine.beginWaitT
  extract_lets s1 s2
  have hs1 : Within s1 := h.reachWait
  have hs2 : Within s2 := hs1.modEngine
  exact .ite (.ite hs2.lateEvent hs2) (.ite hs1.modEngine.traceRest ((Within.ite hs1.lateEvent hs1).capture))

protected theorem Within.execWaitt {e : Fin 1028} {f : RegForm} (h : Within s) : WithinNext (execWaitt e f s) :=
  h.release fun _ _ ht => ⟨ht.addTx.beginWaitT, ht⟩

protected theorem Within.endWith {e now d m : Nat} {event : Bool} {w : Word} {n : Engine → Nat} {f : Engine → Engine}
    (h : Within s) (hf : ∀ x, x.bounded → (f x).bounded := by exact fun _ hx => hx) :
    Within (modEngine e (fun x => waitResult now (n x) event d m w (f x)) s) :=
  h.modEngine fun x hx => (waitResult_bounded _ _ _ _ _ _ _).2 (hf x hx)

protected theorem Within.endWithEvent {e e' now d m src latest : Nat} {any : Bool} {w : Word} {n k : Engine → Nat} {r : State}
    (h : Within s) : Within (modEngine e (fun x => waitResult now (n x) true d m w
      { dropEvent r e' any src latest x with waitCnt := k x }) s) :=
  h.modEngine fun _ hx => (waitResult_bounded _ _ _ _ _ _ _).2 (dropEvent_bounded hx)

protected theorem Within.beginWaitEv {e : Nat} {any : Bool} {src deadline d m : Nat} {x : Engine} (h : Within s) :
    Within (beginWaitEv e any src deadline d m x s) := by
  unfold Machine.beginWaitEv
  extract_lets u rest
  have hu : Within u := h.reachWait
  have hr : Within rest := hu.modEngine
  cases findEvent u e any src u.now with
  | none => exact .ite hr (.ite hu.endWith.capture hr.traceRest)
  | some v => exact .ite hr hu.endWithEvent.capture

protected theorem Within.execWaitev {e : Fin 1028} {f : RegForm} (h : Within s) : WithinNext (execWaitev e f s) :=
  h.release fun _ _ ht => ⟨ht.addTx.beginWaitEv, ht⟩

protected theorem Within.endWait {e t cause : Nat} (h : Within s) : Within (endWait e t cause s) := h.modEngine.traceRest

protected theorem Within.execWaittTargetReached {e : Fin 1028} (h : Within s) : WithinNext (execWaittTargetReached e s) := by
  unfold Machine.execWaittTargetReached
  split
  · exact .ite h.endWait.capture h
  · exact h

protected theorem Within.execEventWake {e : Fin 1028} (h : Within s) : WithinNext (execEventWake e s) := by
  unfold Machine.execEventWake
  cases (engine s e.val).rest with
  | waitEv any src dl d m =>
    dsimp only
    cases findEvent s e.val any src dl with
    | none => exact h
    | some v =>
      have hw : Within (modEngine e.val (fun x => waitResult s.now (x.ord - 1) true d m v.word
          { dropEvent s e.val any src dl x with waitCnt := 0, entry := some v }) s) :=
        h.modEngine fun _ hx => (waitResult_bounded _ _ _ _ _ _ _).2 (dropEvent_bounded hx)
      exact WithinNext.ite hw.endWait.capture h
  | _ => exact h

protected theorem Within.execWaitDeadline {e : Fin 1028} (h : Within s) : WithinNext (execWaitDeadline e s) := by
  unfold Machine.execWaitDeadline
  cases (engine s e.val).rest with
  | waitEv any src dl d m => exact WithinNext.ite h.endWith.endWait.capture h
  | _ => exact h

protected theorem Within.noteSlack {e cls slack : Nat} (h : Within s) : Within (noteSlack e cls slack s) := by
  unfold Machine.noteSlack
  extract_lets u
  have hu : Within u := h.modEngine fun x hx => by split <;> exact hx
  exact .ite hu.same hu

protected theorem Within.captureLanding {e : Nat} {l : Landing} (h : Within s) : Within (captureLanding e l s) := by
  unfold Machine.captureLanding
  split
  · exact h
  · split
    · exact h.captureDue
    · extract_lets ws
      exact h.captureDue
    · exact h

protected theorem Within.land {e late slack : Nat} {l : Landing} (h : Within s) : Within (land e late slack l s) :=
  (((Within.ite (.ite h h.lateEvent) ((Within.ite h h.lateEvent).noteSlack)).applyAll).modEngine).captureLanding

protected theorem Within.execResultLanding {e : Fin 1028} {late slack : Nat} (h : Within s) :
    WithinNext (execResultLanding e late slack s) := by
  unfold Machine.execResultLanding
  extract_lets fly
  split
  · exact h.modEngine.land
  · exact h

protected theorem Within.execPairInputReplay {k : Fin 512} {uncor : Bool} (h : Within s) : WithinNext
    (execPairInputReplay k uncor s) := by
  unfold Machine.execPairInputReplay
  extract_lets p
  split
  · next b l hbuf =>
    split
    · extract_lets inp u v
      have hu : Within u := h.setPair ((bufHeld_tail hbuf).trans (h.pairOf k.val))
      have hv : Within v := by
        have hf : Within { u with fresh := u.fresh + 4 } := hu.same
        exact .ite hf.setBit.raise.mismRecord.mismatchResponse hu
      exact hv.modEngine fun _ => (deliver_bounded _ _ _ _).2
    · exact h
  · exact h

protected theorem Within.mismatch {k kind pos : Nat} {lead trail : Word} (h : Within s) :
    Within (mismatch k kind pos lead trail s) :=
  h.setBit.raise.mismRecord.traceEngine.mismatchResponse

protected theorem Within.compareTx {k : Nat} {a b : Tx} (h : Within s) : Within (compareTx k a b s) := by
  unfold Machine.compareTx
  extract_lets l t
  split
  · exact .ite h h.mismatch
  · split
    · exact h.mismatch
    · split
      · exact h
      · exact h.mismatch

protected theorem Within.missingLead {k : Nat} {b : Tx} (h : Within s) : Within (missingLead k b s) := h.bump.mismatch

protected theorem Within.compareNext {k : Nat} (h : Within s) : Within (compareNext k (Machine.pairOf s k) s) := by
  have hp := h.pairOf k
  have hl (l : List Tx) : Within (Machine.setPair s k { Machine.pairOf s k with lead := l }) := h.setPair hp
  have ht (l : List Tx) : Within (Machine.setPair s k { Machine.pairOf s k with trail := l }) := h.setPair hp
  have hlt (l m : List Tx) : Within (Machine.setPair s k { Machine.pairOf s k with lead := l, trail := m }) := h.setPair hp
  unfold Machine.compareNext
  split
  · exact .ite (.ite (ht _).missingLead h) (.ite h (.ite (hl _).mismatch (.ite h (hlt _ _).compareTx)))
  · exact .ite (hl _).mismatch h
  · exact .ite (ht _).missingLead h
  · exact h

protected theorem Within.execComparatorCheck {k : Fin 512} (h : Within s) : WithinNext (execComparatorCheck k s) :=
  Within.ite h.compareNext h

protected theorem Within.execComparatorSelfTest {k : Fin 512} {reported : Bool} {lead trail : Word} (h : Within s) :
    WithinNext (execComparatorSelfTest k reported lead trail s) :=
  .ite h h.setBit.raise.mismRecord.mismatchResponse

protected theorem Within.execDetectorSelfTest {i : Fin 64} {reported : Bool} (h : Within s) :
    WithinNext (execDetectorSelfTest i reported s) :=
  .ite h h.setBit.lateEvent

protected theorem Within.copyRegs {k : Nat} (h : Within s) : Within (copyRegs k s) :=
  .ite (h.modEngine fun _ => (copyWord_bounded _ _ _).2) h

protected theorem Within.execComparatorArm {k : Fin 512} (h : Within s) : WithinNext (execComparatorArm k s) :=
  .ite (h.modPair fun _ _ => Nat.zero_le _) h

protected theorem Within.execTmark {e : Fin 1028} {f : RegForm} (h : Within s) : WithinNext (execTmark e f s) :=
  h.releaseR fun _ _ ht => ⟨ht.addTx.traceEngine, ht⟩

/-! The mandate loops and presence, claims, notices, the decision of a takeover and the planned switchover (R372 to R382, R394
to R401, R405, R406's entry). -/

protected theorem Within.linkFault {code bit : Nat} (h : Within s) : Within (linkFault code bit s) := h.setBit.raise
protected theorem Within.clearReady (h : Within s) : Within (clearReady s) := h.setBit.modLink.linkFault
protected theorem Within.unknownFault (h : Within s) : Within (unknownFault s) := h.modLink.linkFault

protected theorem Within.decideTakeover {was : State} (h : Within s) : Within (decideTakeover was s) :=
  .ite h (.ite (.ite h (.ite h.modLink h.linkFault)) (.ite h.unknownFault h))

protected theorem Within.decideQuietly (h : Within s) : Within (decideQuietly s) := .ite h.decideTakeover h

protected theorem Within.decideAtMidnight {anew : Bool} (h : Within s) : Within (decideAtMidnight anew s) :=
  .ite h.decideTakeover h.decideQuietly

protected theorem Within.tryJoin (h : Within s) : Within (tryJoin s) := .ite h.modLink.modBoot.sendFrame h
protected theorem Within.setLatch (h : Within s) : Within (setLatch s) := h.same.loadUpdate
protected theorem Within.clearLatch (h : Within s) : Within (clearLatch s) := h.same.loadUpdate
protected theorem Within.dropClaim (h : Within s) : Within (dropClaim s) := h.clearLatch.same.tryJoin
protected theorem Within.yieldClaim (h : Within s) : Within (yieldClaim s) := .ite h.clearLatch.modLink h

protected theorem Within.partnerLoopChanged {was : State} (h : Within s) : Within (partnerLoopChanged was s) :=
  (Within.ite h.modLink h).yieldClaim.decideTakeover

protected theorem Within.execMandateLoopStateChange {partner : Bool} {tenthMilliamp : BitVec 9} (h : Within s) :
    WithinNext (execMandateLoopStateChange partner tenthMilliamp s) :=
  .ite (Within.ite h.same h.same.partnerLoopChanged) h.same

protected theorem Within.execPresenceChange {partner inserted : Bool} (h : Within s) :
    WithinNext (execPresenceChange partner inserted s) := by
  unfold Machine.execPresenceChange
  split
  · split
    · exact h
    · have hp : Within (modLink (fun l => { l with partner := inserted }) s) := h.same
      exact hp.loadUpdate.decideTakeover
  · split
    · exact h
    · extract_lets u
      have hu : Within u := h.same
      split
      · exact hu
      · exact hu.clearLatch.same

protected theorem Within.execPartnerLoopUnknownRepeat (h : Within s) : WithinNext (execPartnerLoopUnknownRepeat s) :=
  .ite h.unknownFault h

protected theorem Within.execClaimLatchSet (h : Within s) : WithinNext (execClaimLatchSet s) :=
  .ite ((Within.ite h.modLink h).setLatch) h

protected theorem Within.execYieldRecheck (h : Within s) : WithinNext (execYieldRecheck s) := by
  unfold Machine.execYieldRecheck
  split
  · exact .ite h (.ite h.setLatch h.dropClaim.linkFault)
  · exact h.yieldClaim

protected theorem Within.execClaimConfirmation (h : Within s) : WithinNext (execClaimConfirmation s) :=
  .ite h (.ite h.same (Within.ite h.dropClaim.linkFault h.dropClaim))

protected theorem Within.execLoopError {path : Bool} (h : Within s) : WithinNext (execLoopError path s) := .ite h.linkFault h

protected theorem Within.refuseSwitch {reason : Nat} (h : Within s) : Within (refuseSwitch reason s) :=
  (Within.ite h.setF.setF h.setF).raise

protected theorem Within.armSwitch {w : Nat} (h : Within s) : Within (armSwitch w s) := h.same

protected theorem Within.runSwitch (h : Within s) : Within (runSwitch s) := h.same.setF
protected theorem Within.endSwitch {st : Nat} (h : Within s) : Within (endSwitch st s) := h.same

protected theorem Within.execSwitchoverReadback (h : Within s) : WithinNext (execSwitchoverReadback s) := .ite h.modLink h

protected theorem Within.execSwitchoverRelease (h : Within s) : WithinNext (execSwitchoverRelease s) :=
  .ite h.clearLatch.same h

protected theorem Within.execSwitchoverFallbackCheck (h : Within s) : WithinNext (execSwitchoverFallbackCheck s) :=
  .ite h.setLatch.modLink h

protected theorem Within.execNoticeSend {lane : Fin 2} (h : Within s) : WithinNext (execNoticeSend lane s) :=
  .ite h h.sendFrame.modLink

protected theorem Within.laneHeard {lane : Nat} (h : Within s) : Within (laneHeard lane s) :=
  h.same

protected theorem Within.acceptFrame {ty lane : Nat} {f : PairFrame} {act : State → State} (h : Within s)
    (hf : ∀ x, Within x → Within (act x)) :
    Within (acceptFrame ty lane f act s) :=
  .ite h.modLink (.ite (hf _ h.laneHeard) h.laneHeard)

protected theorem Within.partnerOffset {ofs : Int} (h : Within s) : Within (partnerOffset ofs s) := by
  unfold Machine.partnerOffset
  extract_lets j
  exact h.jumpFault.modTime

protected theorem Within.heardNotice {n : Notice} {ofs : Int} (h : Within s) : Within (heardNotice n ofs s) := by
  unfold Machine.heardNotice
  extract_lets left u v w
  have hu : Within u := h.same
  have hv : Within v := hu.partnerOffset.noteSeconds.reselect
  have hw : Within w := .ite hv.trackLock.servoRate hv
  exact .ite hw.tryJoin hw

protected theorem Within.execNoticeReceive {lane : Fin 2} {f : PairFrame} {ofs : Int} (h : Within s) :
    WithinNext (execNoticeReceive lane f ofs s) :=
  h.acceptFrame fun _ ht => ht.heardNotice

protected theorem Within.execLaneDown {lane : Fin 2} (h : Within s) : WithinNext (execLaneDown lane s) := by
  unfold Machine.execLaneDown
  extract_lets t u
  have ht1 : Within t := h.same.linkFault
  have ht2 : Within u := .ite ht1 ht1.linkFault
  exact .ite h ht2.reselect.decideTakeover

protected theorem Within.execFinalReceive {lane : Fin 2} {f : PairFrame} (h : Within s) :
    WithinNext (execFinalReceive lane f s) :=
  h.acceptFrame fun _ ht => ht.modLink.linkFault

protected theorem Within.acceptJoin {j : Join} (h : Within s) : Within (acceptJoin j s) := h.same

protected theorem Within.execJoinReceive {lane : Fin 2} {f : PairFrame} (h : Within s) : WithinNext (execJoinReceive lane f s) :=
  h.acceptFrame fun _ ht => .ite ht (.ite ht.acceptJoin ht.linkFault)

/-! The checkpoint (R177, R383 to R392, R221). -/

protected theorem Within.execEngineImageCapture {e : Fin 1024} (h : Within s) : WithinNext (execEngineImageCapture e s) :=
  .ite (h.same) h

protected theorem Within.freeze (h : Within s) : Within (freeze s) := h.same

protected theorem Within.overC (h : Within s) : Within (overC s) := by
  unfold Machine.overC
  exact h.abandonCheckpoint.linkFault.modLink

protected theorem Within.cutDelta (h : Within s) : Within (cutDelta s) := by
  unfold Machine.cutDelta
  extract_lets s1 spans tooLong s2
  have hs1 : Within s1 := h.freeze
  have hs2 : Within s2 := .ite hs1.linkFault hs1
  exact .ite hs2.overC (.ite hs2.abandonCheckpoint hs2)

protected theorem Within.execCheckpointCut (h : Within s) : WithinNext (execCheckpointCut s) :=
  .ite h (.ite h.modDay.safAfternoon (Within.ite h.modDay.safAfternoon.cutDelta h.modDay.safAfternoon))

protected theorem Within.readFrozen {a : Nat} (h : Within s) : Within (readFrozen a s).2 := by
  unfold Machine.readFrozen
  split
  · exact h
  · exact h.gatedRead

protected theorem Within.readRun {f : Nat → State → Option Word × State} {a n : Nat} (h : Within s)
    (hf : ∀ a t, Within t → Within (f a t).2) : Within (readRun f a n s).2 := by
  induction n generalizing a s with
  | zero => exact h
  | succ n ih => exact ih (hf _ _ h)

protected theorem Within.readRuns {f : Nat → State → Option Word × State} {l : List (Nat × Nat)} (h : Within s)
    (hf : ∀ a t, Within t → Within (f a t).2) : Within (readRuns f l s).2 := by
  induction l generalizing s with
  | nil => exact h
  | cons x l ih => exact ih (h.readRun hf)

protected theorem Within.captureFault (h : Within s) : Within (captureFault s) := h.linkFault.abandonCheckpoint

protected theorem Within.deltaFrame {lane : Nat} (h : Within s) : Within (deltaFrame lane s) := by
  unfold Machine.deltaFrame
  extract_lets f q
  have hq : Within q.2 := h.readRuns fun a t ht => ht.readFrozen
  split
  · exact hq.captureFault
  · exact hq.sendFrame.modLink

protected theorem Within.execDeltaFrameSend {lane : Fin 2} (h : Within s) : WithinNext (execDeltaFrameSend lane s) :=
  .ite h (h.ifFree (fun _ ht => ht.deltaFrame))

protected theorem Within.execEndFrameSend {lane : Fin 2} (h : Within s) : WithinNext (execEndFrameSend lane s) := by
  unfold Machine.execEndFrameSend
  extract_lets l n s1 s2 s3
  have hs1 : Within s1 := h.sendFrame
  have hs2 : Within s2 := by
    unfold s2
    split
    · exact hs1.emit
    · exact hs1
  have hs3 : Within s3 := hs2.setReg.modTelem
  exact .ite hs3.modLink h

protected theorem Within.sweepFrame {lane : Nat} (h : Within s) : Within (sweepFrame lane s) := by
  unfold Machine.sweepFrame
  extract_lets l at' addrs runs q
  have hq : Within q.2 := h.readRuns fun a t ht => ht.gatedRead
  split
  · have hl : Within (modLink (fun l => { l with sweepLeft := 0, sweepBlk := 0 }) q.2) := hq.modLink
    exact hl.linkFault
  · next ws _ =>
    have hs : Within (Machine.sendFrame lane 3 l.sweepBlk ws q.2) := hq.sendFrame
    exact hs.modLink

protected theorem Within.execSweepFrameSend {lane : Fin 2} (h : Within s) : WithinNext (execSweepFrameSend lane s) :=
  .ite h (h.ifFree (fun _ ht => ht.sweepFrame))

protected theorem Within.takeAck {day : Word} (h : Within s) : Within (takeAck day s) := .ite h.modLink.setReg h

protected theorem Within.execAckReceive {lane : Fin 2} {f : PairFrame} (h : Within s) : WithinNext (execAckReceive lane f s) :=
  h.acceptFrame fun _ ht => ht.takeAck

protected theorem Within.streamed {act : State → State} (h : Within s) (hf : ∀ x, Within x → Within (act x)) :
    Within (streamed act s) :=
  .ite (hf _ h.modLink) h

protected theorem Within.tryComplete {lane : Nat} (h : Within s) : Within (tryComplete lane s) :=
  .ite h.sendFrame.setReg.modTelem.modLink h

protected theorem Within.execDeltaReceive {lane : Fin 2} {f : PairFrame} (h : Within s) :
    WithinNext (execDeltaReceive lane f s) := by
  unfold Machine.execDeltaReceive
  exact h.acceptFrame (fun _ ht => ht.streamed (fun _ hu => hu.same.tryComplete))

protected theorem Within.execSweepReceive {lane : Fin 2} {f : PairFrame} (h : Within s) :
    WithinNext (execSweepReceive lane f s) := by
  unfold Machine.execSweepReceive
  exact h.acceptFrame (fun _ ht => ht.streamed
    (fun _ hu => hu.same.tryComplete))

protected theorem Within.compareDay {day : Word} (h : Within s) : Within (compareDay day s) := .ite h.setBit.raise h

protected theorem Within.cannotFollow (h : Within s) : Within (cannotFollow s) :=
  .ite h.modLink.clearReady h.modLink.modLink.linkFault

protected theorem Within.followChange {i : Named} (h : Within s) : Within (followChange i s) :=
  .ite h (.ite (.ite h h.cannotFollow) (.ite h.cannotFollow (.ite h.armChange h)))

protected theorem Within.execEndReceive {lane : Fin 2} {f : PairFrame} {change : Option Named} (h : Within s) :
    WithinNext (execEndReceive lane f change s) := by
  unfold Machine.execEndReceive
  extract_lets w
  refine h.acceptFrame ?_
  intro t ht
  refine ht.streamed ?_
  intro u hu
  extract_lets s1
  have hs1 : Within s1 := hu.compareDay.modLink
  refine .tryComplete ?_
  split
  · exact hs1.followChange
  · exact hs1

protected theorem Within.execAbandonReceive {lane : Fin 2} {f : PairFrame} (h : Within s) : WithinNext
    (execAbandonReceive lane f s) := by
  refine Within.acceptFrame h fun t ht => ?_
  split
  · exact ht
  · extract_lets u
    have hu : Within u := ht.compareDay.same
    split
    · have hv : Within (modLink (fun l => { l with sweepPos := 0 }) u) := hu.same
      exact hv.clearReady
    · exact hu

protected theorem Within.commitWord {a : Nat} {v : Word} (h : Within s) : Within (commitWord a v s) := by
  unfold Machine.commitWord
  extract_lets e s1
  have hs1 : Within s1 := h.memSet
  split
  · exact h.violate
  · exact .ite h.tsWrite (.ite hs1.memSet hs1)

protected theorem Within.commitImage {i : Nat × List Word} (h : Within s) : Within (commitImage i s) := by
  unfold Machine.commitImage
  extract_lets t
  have ht : Within t := h.modEngine fun x _ => imageInto_bounded _ _ x
  exact .ite (ht.modEngine fun x _ => imageInto_bounded _ _ x) ht

protected theorem Within.countCommit {day : Nat} (h : Within s) : Within (countCommit day s) :=
  .ite h.setReg.modLink.setBit.raise h.setReg.modLink

protected theorem Within.abandonCommit (h : Within s) : Within (abandonCommit s) := h.modLink.linkFault

protected theorem Within.finishCommit (h : Within s) : Within (finishCommit s) := by
  unfold Machine.finishCommit
  split
  · extract_lets t
    have ht : Within t := h.foldl fun _ _ hu => hu.commitWord
    exact .ite (((ht.foldl (fun _ _ hv => hv.commitImage)).countCommit).decideQuietly) ht.abandonCommit.decideQuietly
  · exact h

protected theorem Within.execCommitComplete (h : Within s) : WithinNext (execCommitComplete s) := Within.ite h.finishCommit h

protected theorem Within.startCommit (h : Within s) : Within (startCommit s) := h.same

protected theorem Within.discardCheckpoint (h : Within s) : Within (discardCheckpoint s) :=
  .ite h.modLink.linkFault.clearReady h.modLink.linkFault

protected theorem Within.standbyDusk (h : Within s) : Within (standbyDusk s) := by
  unfold Machine.standbyDusk
  extract_lets s1 expects s2
  have hs1 : Within s1 := h.finishCommit
  have hs2 : Within s2 := .ite hs1.startCommit (.ite hs1.discardCheckpoint hs1)
  exact hs2.modLink

protected theorem Within.activeDusk (h : Within s) : Within (activeDusk s) := by
  unfold Machine.activeDusk
  extract_lets t u
  have ht : Within t := by
    have hl : Within (modLink (fun l => { l with stream := false }) s) := h.same
    exact .ite h hl.setBit.raise
  have hu : Within u := .ite ht ht.linkFault
  exact hu.same

protected theorem Within.execDuskStart (h : Within s) : WithinNext (execDuskStart s) :=
  .ite h (.ite h.standbyDusk (.ite h.activeDusk h))

protected theorem Within.execCloneFrameSend {lane ty : Fin 2} {theirs : Word} (h : Within s) :
    WithinNext (execCloneFrameSend lane ty theirs s) := by
  unfold Machine.execCloneFrameSend
  extract_lets x k2 asked wanted
  split
  · exact .ite h.sendFrame.modLink h
  · exact h

protected theorem Within.refuseClone {ty : Nat} (h : Within s) : Within (refuseClone ty s) := h.modLink.linkFault

protected theorem Within.execCloneReceive {lane : Fin 2} {f : PairFrame} {ty : Fin 2} {k : RawHeader} (h : Within s) :
    WithinNext (execCloneReceive lane f ty k s) :=
  h.acceptFrame fun _ ht => .ite ht (.ite ht.modLink.refuseClone ht.modLink)

/-! Telemetry, the event log in flash, trace memory and the memory scrubber (R568 to R574, R577). -/

protected theorem Within.logWrite {l : LogEnt} (h : Within s) : Within (logWrite l s) := h.same

/-- R571: an entry that is written leaves the queue. -/
protected theorem Within.execLogEntryWrite (h : Within s) : WithinNext (execLogEntryWrite s) := by
  unfold Machine.execLogEntryWrite
  split
  · next e l he =>
    have hl : Within { s with logQ := l } := { h with logMax := tail_le he h.logMax }
    exact .ite h hl.logWrite
  · exact h

protected theorem Within.execTelemetryCollection (h : Within s) : WithinNext (execTelemetryCollection s) := .ite h h.bump.modTelem

/-- R577: trace memory with room takes a record; a full one loses its oldest for it, or has stopped. -/
protected theorem Within.traceStore {k : List Word} (h : Within s) : Within (traceStore s k) := by
  obtain ⟨hin, hmem⟩ := h.traceMax
  unfold Machine.traceStore
  split
  · next hroom => exact (h.modTrace ⟨hin, length_snoc_le hroom⟩).noteBorn
  · exact .ite h.modTrace.addSat (h.modTrace ⟨hin, by
      rw [List.length_append, List.length_tail, List.length_singleton]; omega⟩)

/-- R577: the lost record enters an intake with room. -/
protected theorem Within.traceLost (h : Within s) : Within (traceLost s) := by
  unfold Machine.traceLost
  split
  · exact h
  · next hno =>
    have hroom : s.trace.intake.length < 1024 := by
      simp only [Bool.or_eq_true, not_or, beq_iff_eq] at hno
      have := h.traceMax.1
      omega
    exact h.modTrace (h.traceMax.take (now := s.now) hroom)

/-- R577: the records that trace memory takes leave the intake. -/
protected theorem Within.execTraceWrite (h : Within s) : WithinNext (execTraceWrite s) := by
  obtain ⟨hin, hmem⟩ := h.traceMax
  have hrest (n : Nat) : ((traceOrder (s.trace.intake.take n)).drop 8 ++ s.trace.intake.drop n).length ≤ 1024 := by
    rw [List.length_append, List.length_drop, length_traceOrder, List.length_take, List.length_drop]; omega
  exact .ite h ((Within.foldl (h.modTrace ⟨hrest _, hmem⟩) (fun _ _ ht => ht.traceStore)).traceLost)

protected theorem Within.execMemoryScrub {a : BitVec 32} {found : Chk} (h : Within s) :
    WithinNext (execMemoryScrub a found s) := by
  unfold Machine.execMemoryScrub
  extract_lets s1 s2 s3
  have hs1 : Within s1 := h.grantBackground
  have hs2 : Within s2 := hs1.addSat.modTelem
  have hs3 : Within s3 := hs1.addSat.modTelem
  exact .ite h (.ite (hs2.same.raise)
    (.ite (hs3.same.raise) hs1))

protected theorem Within.execAnalogueRecalibration {input : Fin 32} (h : Within s) :
    WithinNext (execAnalogueRecalibration input s) :=
  h

/-! The Nightwatch (R25 to R28, R402, R534, R541, R545, R581). -/

protected theorem Within.endGrant (h : Within s) : Within (endGrant s) := by
  unfold Machine.endGrant
  extract_lets free
  have he : Within { s with eng := s.eng.foldl (fun t p => tabSet {} t p.1 (free p.2)) [] } :=
    h.mapEngines fun x hx => by unfold free; split <;> exact hx
  exact he.same

protected theorem Within.dropSess {n : Nat} (h : Within s) : Within (dropSess n s) := by
  unfold Machine.dropSess
  extract_lets u v w
  have hu : Within u := h.same
  have hv : Within v := hu.same
  have hw : Within w := hv.same
  split
  · split
    · exact hw.endGrant
    · exact hw
  · exact hw

protected theorem Within.closeSess {reason n : Nat} (h : Within s) : Within (closeSess reason n s) :=
  h.emit.dropSess

protected theorem Within.closeAll {reason : Nat} (h : Within s) : Within (closeAll reason s) :=
  h.foldl fun _ _ ht => ht.closeSess

/-- A reset leaves the log's queue and empties every other. -/
protected theorem Within.resetCore (h : Within s) : Within (resetCore s) := by
  unfold Machine.resetCore
  extract_lets w t
  have ht : Within t := { resetWithin with logMax := h.logMax }
  exact ht.setReg.setReg

protected theorem Within.internalReset (h : Within s) : Within (internalReset s) :=
  .ite h.raise.resetCore.setF.setBit h.resetCore

protected theorem Within.restart (h : Within s) : Within (restart s) := h.applyHw.closeAll.internalReset.same
protected theorem Within.releaseReset (h : Within s) : Within (releaseReset s) := h.same
protected theorem Within.tryStart (h : Within s) : Within (tryStart s) := .ite h.releaseReset h
protected theorem Within.execPresenceDebounceEnd (h : Within s) : WithinNext (execPresenceDebounceEnd s) := h.tryStart

protected theorem Within.execStartThresholdReached (h : Within s) : WithinNext (execStartThresholdReached s) :=
  .ite h.modPwr.tryStart h

protected theorem Within.execColdStartRelease (h : Within s) : WithinNext (execColdStartRelease s) := by
  unfold Machine.execColdStartRelease
  extract_lets s1
  have hs1 : Within s1 := h.modPwr
  split
  · exact .ite h hs1.modPwr.tryStart
  · exact h

protected theorem Within.permitFalls (h : Within s) : Within (permitFalls s) := by
  have hp : Within (modNwt (fun n => { n with permit := false }) s) := h.same
  exact hp.clearLatch.same

protected theorem Within.trip {code : Nat} (h : Within s) : Within (trip code s) :=
  .ite h ((h.modNwt.setLastF.setF.addSat.foldl (fun _ _ ht => ht.setReg)).permitFalls)

protected theorem Within.execDayHeartbeatTimeout (h : Within s) : WithinNext (execDayHeartbeatTimeout s) := by
  unfold Machine.execDayHeartbeatTimeout
  split
  · exact .ite h.trip h
  · exact h

protected theorem Within.execSupervisorHeartbeatTimeout (h : Within s) :
    WithinNext (execSupervisorHeartbeatTimeout s) :=
  .ite h.trip h

protected theorem Within.execFabricRailFault (h : Within s) : WithinNext (execFabricRailFault s) := h.modNwt.trip
protected theorem Within.execInternalRailFault (h : Within s) : WithinNext (execInternalRailFault s) := h.modNwt.trip
protected theorem Within.execFeedsLost (h : Within s) : WithinNext (execFeedsLost s) := .ite h (.ite h h.trip.modNwt)

protected theorem Within.execNightwatchRailLoss (h : Within s) : WithinNext (execNightwatchRailLoss s) :=
  .ite h.modNwt.permitFalls.setLastF h

protected theorem Within.cutHeader {t : Nat} (h : Within s) : Within (cutHeader t s) := by
  unfold Machine.cutHeader
  split
  · exact .ite (h.same.bump) h.bump
  · exact h

protected theorem Within.cutFlash {n trip : Nat} {t : LogEnt} (h : Within s) : Within (cutFlash n trip t s).1 := by
  unfold Machine.cutFlash
  split
  · exact h.same
  · split
    · exact h.bump
    · exact .ite h.cutHeader h

protected theorem Within.sundownSteps {n : Nat} {t : LogEnt} (h : Within s) : Within (sundownSteps n t s) := by
  unfold Machine.sundownSteps
  extract_lets ws s1 s2
  have hs1 : Within s1 := .ite h.sendFrame h
  have hs2 : Within s2 := .ite hs1.logWrite hs1
  exact .ite hs2 (.ite hs2.sundownPage hs2.cutPage)

protected theorem Within.execSundown {complete : Bool} (h : Within s) : WithinNext (execSundown complete s) := by
  unfold Machine.execSundown
  extract_lets done
  split
  · extract_lets full n c s1
    have hc : Within c.1 := h.bump.cutFlash
    have hs1 : Within s1 := hc.sundownSteps
    exact .ite h hs1.modNwt.modBoot
  · exact h

protected theorem Within.execResetAssert (h : Within s) : WithinNext (execResetAssert s) := by
  unfold Machine.execResetAssert
  split
  · exact .ite h h.closeAll.internalReset.modNwt
  · exact h

protected theorem Within.execResetRelease (h : Within s) : WithinNext (execResetRelease s) := by
  unfold Machine.execResetRelease
  split
  · split
    · exact h
    · have hm : Within { Machine.releaseReset s with mst := .daybreak, mlast := mstCode s.mst } :=
      h.releaseReset.same
      exact hm.same
  · exact h

/-! Daybreak (R321, R406, R464 to R477, R527, R528, R540, R541, R545). -/

protected theorem Within.failStart {f : StartFail} (h : Within s) : Within (failStart f s) := by
  unfold Machine.failStart
  extract_lets t u v w x
  have ht : Within t := h.raise
  have hu : Within u := ht.raise
  have hv : Within v := hu.setF.addSat
  have hw : Within w := hv.clearLatch.same
  clear_value w
  have hx : Within x := hw.same
  exact hx.same

protected theorem Within.startReports (h : Within s) : Within (startReports s) := by
  unfold Machine.startReports
  extract_lets s1 s2 s3
  have hs1 : Within s1 := .ite h h.setBit.raise.modBoot
  have hs2 : Within s2 := by
    unfold s2
    split
    · exact hs1.raise.modNwt
    · exact hs1
  have hs3 : Within s3 := .ite hs2.raise.modNwt hs2
  exact .ite hs3.setBit.raise.modPwr hs3

protected theorem Within.startAttempt (h : Within s) : Within (startAttempt s) := by
  unfold Machine.startAttempt
  extract_lets b s1
  have hs1 : Within s1 := h.startReports.setBit.setBit
  exact hs1.modBoot

protected theorem Within.readCarrier {v : DayView} (h : Within s) : Within (readCarrier v s) := by
  unfold Machine.readCarrier
  extract_lets s1 s2
  have hs1 : Within s1 := h.setReg
  have hs2 : Within s2 := .ite hs1 hs1.modBoot
  split
  · exact hs2.forUpto fun _ _ ht => ht.setReg
  · exact (hs2.forUpto (fun _ _ hu => hu.setReg)).raise

protected theorem Within.bootPage {page cause : Nat} (h : Within s) : Within (bootPage page cause s) := by
  unfold Machine.bootPage
  extract_lets ws
  have hp : Within (modFpd (fun x => { x with page := some (page, cause) }) s) := h.same
  exact hp.writePanel.emit

protected theorem Within.bootPages {f : StartFail} (h : Within s) : Within (bootPages f s) :=
  .ite h.bootPage (.ite h.bootPage h)

protected theorem Within.enterFirmware (h : Within s) : Within (enterFirmware s) := by
  unfold Machine.enterFirmware
  extract_lets x ht s1 s2 s3 s4
  have hs1 : Within s1 := h.setReg
  have hs2 : Within s2 := hs1.setReg
  have hs3 : Within s3 := hs2.foldl fun _ _ hu => hu.privSet
  have hs4 : Within s4 := hs3.forUpto fun _ _ hv => hv.modSup
  exact hs4.modBoot

protected theorem Within.startUtc {img : List Word} (h : Within s) : Within (startUtc img s) := by
  unfold Machine.startUtc
  split
  · exact h
  · split
    · exact h.setF.setBit.setF
    · exact h.setF.setBit.setF

protected theorem Within.loadConfig (h : Within s) : Within (loadConfig s) :=
  h.loadImage.startUtc.forUpto fun _ _ ht => ht.setReg

protected theorem Within.comparatorFailed {k : Nat} (h : Within s) : Within (comparatorFailed k s) :=
  h.same.setBit.raise.mismRecord.mismatchResponse

protected theorem Within.detectorFailed {i : Nat} (h : Within s) : Within (detectorFailed i s) := h.setBit.lateEvent

protected theorem Within.selfTests {v : DayView} (h : Within s) : Within (selfTests v s) := by
  unfold Machine.selfTests
  extract_lets s1 s2
  have hs1 : Within s1 := h.foldl fun _ _ ht => ht.comparatorFailed
  have hs2 : Within s2 := hs1.foldl fun _ _ hu => hu.detectorFailed
  exact .ite hs2 hs2.monitorFault

protected theorem Within.loadModule {v : DayView} (h : Within s) : Within (loadModule v s) := by
  unfold Machine.loadModule
  extract_lets s1
  have hs1 : Within s1 := h.loadConfig.selfTests
  split
  · exact h.failStart
  · split
    · exact hs1.failStart
    · exact hs1.modBoot

protected theorem Within.beginStart {v : DayView} (h : Within s) : Within (beginStart v s) := by
  unfold Machine.beginStart
  extract_lets s1
  have hs1 : Within s1 := h.startAttempt.readCarrier
  split
  · exact hs1.bootPages.failStart
  · exact hs1.enterFirmware.loadModule

protected theorem Within.decideStart (h : Within s) : Within (decideStart s) :=
  .ite h.modBoot.tryJoin.setBit.raise h.modBoot.tryJoin

protected theorem Within.execDaybreak {v : DayView} (h : Within s) : WithinNext (execDaybreak v s) :=
  .ite h.beginStart (.ite h.decideStart h)

protected theorem Within.timeoutCarrier (h : Within s) : Within (timeoutCarrier s) := h.same.readCarrier

protected theorem Within.execDaybreakStepTimeout {step : Fin 8} (h : Within s) :
    WithinNext (execDaybreakStepTimeout step s) := by
  unfold Machine.execDaybreakStepTimeout
  extract_lets k s1 s2 s3
  have hs1 : Within s1 := .ite h.startAttempt h
  have hs2 : Within s2 := .ite hs1.timeoutCarrier hs1
  have hs3 : Within s3 := .ite hs2.enterFirmware hs2
  exact .ite h hs3.failStart

protected theorem Within.retryStart (h : Within s) : Within (retryStart s) :=
  h.same.stateNotices.internalReset

protected theorem Within.execRetryWaitExpiry (h : Within s) : WithinNext (execRetryWaitExpiry s) := by
  unfold Machine.execRetryWaitExpiry
  split
  · exact .ite h.retryStart h
  · exact h

protected theorem Within.writeBoth {slot : Nat} {d : Header} {ws : List Word} (h : Within s) :
    Within (writeBoth slot d ws s) := h.same

protected theorem Within.execCloneComplete (h : Within s) : WithinNext (execCloneComplete s) := by
  unfold Machine.execCloneComplete
  extract_lets s1
  have hs1 : Within s1 := by
    unfold s1
    split
    · exact h.writeBoth
    · exact h
  split
  · exact h
  · split
    · exact h
    · exact .ite h (.ite h.refuseClone hs1.writeBoth.raise.restart)

/-! The day (R17, R21 to R23, R26, R155 to R160, R173, R182, R183, R190 to R194, R396 to R401, R452). -/

protected theorem Within.noteHot {i : Nat} {tj : Option (BitVec 9)} (h : Within s) : Within (modDay (noteHot i tj) s) := h.same

protected theorem Within.execSpeedMeasurement {i : Fin 64} {idx : Option (BitVec 12)} {tj : Option (BitVec 9)} (h : Within s) :
    WithinNext (execSpeedMeasurement i idx tj s) := by
  unfold Machine.execSpeedMeasurement
  extract_lets l shown t u v w
  have ht : Within t := h.same.setF
  have hu : Within u := by
    unfold u
    split
    · exact ht.setF.modTelem
    · exact ht
  have hv : Within v := hu.noteHot
  have hw : Within w := .ite hv.modTelem hv
  exact Within.ite hw.setBit.raise hw

protected theorem Within.abandonWork {e : Nat} (h : Within s) : Within (abandonWork e s) := by
  unfold Machine.abandonWork
  extract_lets x t
  have ht : Within t := h.modEngine fun _ hx => bounded_rest hx
  exact .ite ht.traceRest ht

protected theorem Within.watchEngine {e : Nat} (h : Within s) : Within (watchEngine e s) := by
  unfold Machine.watchEngine
  extract_lets x beyond s1 s2
  have hs1 : Within s1 := h.overrun
  have hs2 : Within s2 := .ite hs1.overrun hs1
  split
  · exact h
  · split
    · exact hs2.breach
    · exact hs2.abandonWork
    · exact hs2

protected theorem Within.watchLoader (h : Within s) : Within (watchLoader s) := .ite h.loaderOverrun h

protected theorem Within.execDayWatchdogCheck (h : Within s) : WithinNext (execDayWatchdogCheck s) :=
  .ite h ((h.modDay.forUpto (fun _ _ ht => ht.watchEngine)).watchLoader)

protected theorem Within.minSlack {n e : Nat} (h : Within s) : Within { s with dayMin := n, dayMinEng := e } := h.same

protected theorem Within.slackMidnight (h : Within s) : Within (slackMidnight s) := by
  unfold Machine.slackMidnight
  extract_lets t u v
  have ht : Within t := h.forUpto fun _ _ h1 => h1.setReg
  have hu : Within u := ht.setReg
  have hv : Within v := hu.modTelem
  exact hv.minSlack

protected theorem Within.indicate {b code : Nat} {unit : Option Nat} (h : Within s) : Within (indicate b code unit s) := by
  unfold Machine.indicate
  split
  · exact .ite h h.setBit.raise
  · exact h

protected theorem Within.indications (h : Within s) : Within (indications s) := by
  unfold Machine.indications
  extract_lets s1 s2 s3 s4
  have hs1 : Within s1 := h.indicate
  have hs2 : Within s2 := hs1.indicate
  have hs3 : Within s3 := hs2.indicate
  have hs4 : Within s4 := hs3.indicate
  exact hs4.indicate.modDay

protected theorem Within.autoSwitch (h : Within s) : Within (autoSwitch s) := by
  unfold Machine.autoSwitch
  split
  · exact h.armSwitch
  · exact h.refuseSwitch

protected theorem Within.alarms (h : Within s) : Within (alarms s) := .ite h.indications.autoSwitch h.indications

protected theorem Within.steer (h : Within s) : Within (steer s) :=
  .ite h (.ite h.bump.setF.setBit.setBit.timeFault h.bump.setF.setBit)

protected theorem Within.alignMidnight (h : Within s) : Within (alignMidnight s) :=
  .ite h.steer.setF.modTelem.setBit.raise h.steer.setF.modTelem

protected theorem Within.newDay (h : Within s) : Within (newDay s) := h.same

protected theorem Within.enterState {m : MState} (h : Within s) : Within (enterState m s) :=
  .ite h.discardStaged.same.reselect.endGrant h.discardStaged.same.reselect

protected theorem Within.watchDay (h : Within s) : Within (watchDay s) := h.modNwt
protected theorem Within.startDone (h : Within s) : Within (startDone s) := h.setF.modBoot.raise

protected theorem Within.dropStop {status : Nat} {ws : List Word} (h : Within s) :
    Within (dropStop status ws s) := by
  unfold Machine.dropStop
  split
  · exact h.same.doneNotice
  · exact h.same

protected theorem Within.switchDone {status : Nat} {ws : List Word} (h : Within s) : Within (switchDone status ws s) := by
  unfold Machine.switchDone
  split
  · exact h.doneNotice
  · exact h

protected theorem Within.dropSwitch (h : Within s) : Within (dropSwitch s) := .ite h h.switchDone.endSwitch

protected theorem Within.enterStandby (h : Within s) : Within (enterStandby s) := h.enterState.stopChains.setBit.modLink.watchDay

protected theorem Within.enterActive (h : Within s) : Within (enterActive s) :=
  h.enterState.modLio.watchDay.autoStart

protected theorem Within.dayFault {code : Nat} (h : Within s) : Within (dayFault code s) := h.raise
protected theorem Within.recordEvent {day count : Nat} (h : Within s) : Within (recordEvent day count s) := h.tsWrite.tsWrite

protected theorem Within.takeOver (h : Within s) : Within (takeOver s) := by
  unfold Machine.takeOver
  extract_lets t u v
  have ht : Within t := h.loadReadback.safTakeover
  have hu : Within u := ht.mapEngines fun x => (restoreCounts_bounded _ x).2
  have hv : Within v := hu.forUpto fun _ _ h1 => h1.portTakeover
  exact hv.modLio

protected theorem Within.transition6 {planned : Bool} (h : Within s) : Within (transition6 planned s) := by
  unfold Machine.transition6
  extract_lets t u v
  have hu : Within u := h.setBit.enterActive.takeOver
  have hv : Within v := hu.modLink
  exact .ite hv.recordEvent.dayFault hv.recordEvent.dayFault

protected theorem Within.dayStops (h : Within s) : Within (modDay (fun d => { d with run := false }) s) :=
    h.same

protected theorem Within.enterStopped (h : Within s) : Within (enterStopped s) := by
  unfold Machine.enterStopped
  extract_lets t u v
  have ht : Within t := h.dropSwitch.enterState.stopChains
  have hu : Within u := ht.clearLatch.modLink
  have hv : Within v := hu.mapEngines
    (f := fun x => { x with rest := if x.rest == .idle then .idle else .done, loops := [], lockOpen := false, lockCnt := 0 })
      fun _ hx => bounded_rest hx
  exact hv.dayStops.modNwt

protected theorem Within.stopModule (h : Within s) : Within (stopModule s) := by
  unfold Machine.stopModule
  extract_lets act d t u v
  have hs : Within { s with stopReq := none, stopActivate := false } := h.same
  have ht : Within t := hs.enterStopped
  have hu : Within u := by
    unfold u
    cases d with
    | none => exact ht
    | some d => exact ht.doneNotice
  have hv : Within v := hu.stateNotices
  exact .ite hv.restart hv

protected theorem Within.switchOut (h : Within s) : Within (switchOut s) := by
  unfold Machine.switchOut
  extract_lets made s1 s2 s3 s4 s5
  have hs1 : Within s1 := h.bump
  have hs2 : Within s2 := .ite hs1.switchDone hs1.switchDone
  have hs3 : Within s3 := hs2.clearLatch.endSwitch
  have hs4 : Within s4 := .ite hs3.dayFault.recordEvent hs3
  have hs5 : Within s5 := .ite hs4.dropStop hs4
  split
  · exact hs5.stopModule
  · exact hs5.enterStandby.stateNotices

protected theorem Within.switchBack (h : Within s) : Within (switchBack s) :=
  (Within.ite h.switchDone.dropStop h.switchDone.dropStop).same.endSwitch.dayFault

protected theorem Within.switchBegin (h : Within s) : Within (switchBegin s) := (Within.ite h.dropStop h).runSwitch
protected theorem Within.joined (h : Within s) : Within (joined s) := h.same

protected theorem Within.leaveDaybreak (h : Within s) : Within (leaveDaybreak s) := by
  unfold Machine.leaveDaybreak
  exact .ite h (.ite h.enterState.startDone.autoStart.stateNotices (.ite h.joined.enterStandby.startDone.stateNotices
    (.ite h.same.startDone.enterActive.stateNotices h)))

protected theorem Within.leaveStandby {old : Nat} (h : Within s) : Within (leaveStandby old s) :=
  h.dropStop.transition6.stateNotices

protected theorem Within.transitions {old : Nat} (h : Within s) : Within (transitions old s) := by
  unfold Machine.transitions
  split
  · exact h.leaveDaybreak
  · exact .ite h.leaveStandby (.ite h.stopModule h)
  · exact .ite (.ite h.switchBack h.switchOut) (.ite h.switchBegin (.ite h.stopModule h))
  · exact .ite h.stopModule h
  · exact h

protected theorem Within.changeMidnight {before : State} (h : Within s) : Within (changeMidnight before s) :=
  .ite h (.ite h.cancelChange h.beginChange)

protected theorem Within.heartbeat (h : Within s) : Within (heartbeat s) := .ite h.modNwt h
protected theorem Within.latchSafe {l : Nat} (h : Within s) : Within (latchSafe l s) := .ite h.tsRead h.tsRead.modChan

protected theorem Within.outputsMidnight (h : Within s) : Within (outputsMidnight s) :=
  .ite h (h.forUpto (fun _ _ ht => ht.outputMidnight))

protected theorem Within.startEngine {e : Nat} (h : Within s) : Within (startEngine e s) := by
  unfold Machine.startEngine
  extract_lets x d t
  have ht : Within t := .ite h.traceRest h
  exact ht.modEngine fun _ hx => bounded_rest hx

protected theorem Within.engineMidnight {e : Nat} (h : Within s) : Within (engineMidnight e s) := .ite h.startEngine h.modEngine
protected theorem Within.mandateWord {off : Nat} {v : Word} (h : Within s) : Within (mandateWord off v s) := .ite h h.tsWrite
protected theorem Within.mandateRecord (h : Within s) : Within (mandateRecord s) := h.foldl fun _ _ ht => ht.mandateWord
protected theorem Within.traceMidnight (h : Within s) : Within (traceMidnight s) := .ite h.traceRec h

protected theorem Within.dropReceived (h : Within s) :
    Within (modLink (fun l => { l with acked := false, rx := [], rxEnd := none, rxBad := false, complete := none }) s) :=
  h.same

protected theorem Within.dayStart {anew : Bool} (h : Within s) : Within (dayStart anew s) := by
  unfold Machine.dayStart
  extract_lets t u v w x y
  have ht : Within t := h.heartbeat
  have hu : Within u := ((ht.forUpto fun _ _ h1 => h1.sampleChan).forUpto fun _ _ h1 => h1.latchSafe).outputsMidnight
  have hv : Within v := (hu.forUpto fun _ _ h1 => h1.loopMidnight).safMidnight
  have hw : Within w := (hv.forUpto fun _ _ h1 => h1.portMidnight).syncMidnight
  have hx : Within x := hw.traceMidnight.postEvent
  have hy : Within y := (hx.forUpto fun _ _ h1 => h1.engineMidnight).mandateRecord
  have hl : Within (modLink (fun l => { l with acked := false, rx := [], rxEnd := none, rxBad := false, complete := none })
      (Machine.loadUpdate y)) := hy.loadUpdate.dropReceived
  exact hl.decideAtMidnight

protected theorem Within.grantDay (h : Within s) : Within (grantDay s) := by
  unfold Machine.grantDay
  split
  · exact .ite h.endGrant h
  · exact h

protected theorem Within.endDay (h : Within s) : Within (endDay s) := by
  unfold Machine.endDay
  extract_lets s1 s2
  have hs1 : Within s1 := h.newDay.slackMidnight.alarms.alignMidnight
  have hs2 : Within s2 := hs1.applyRegions.applyLater.grantDay
  exact .ite hs2.finishChange hs2

protected theorem Within.execMidnight (h : Within s) : WithinNext (execMidnight s) :=
  .ite h (Within.ite h.endDay.transitions.changeMidnight.dayStart h.endDay.transitions)

/-! Host sessions and how a request is served (R551 to R562, R508 to R511). -/

protected theorem Within.putSess {n : Nat} {x : HostSess} (h : Within s) : Within (putSess n x s) := h.same

protected theorem Within.tlsFailed {peer : BitVec 32} (h : Within s) : Within (tlsFailed peer s) := by
  unfold Machine.tlsFailed
  extract_lets n t
  have ht : Within t := h.setBit
  have hu : Within { t with net := { t.net with tlsAt := tabSet 0 t.net.tlsAt peer.toNat (t.now + 1) } } := ht.same
  exact .ite hu.raise ht

protected theorem Within.openSess {port : Nat} {roles : List Role} (h : Within s) :
    Within (openSess port roles s) := by
  unfold Machine.openSess
  split
  · exact h.putSess.emit
  · exact h.emit

protected theorem Within.execHostConnection {port : Fin 4} {peer : BitVec 32} {dial : Dial} {chain : List Cert}
    (h : Within s) :
    WithinNext (execHostConnection port peer dial chain s) := by
  unfold Machine.execHostConnection
  extract_lets recent s1 s2 s3
  have hs2 : Within s2 := h.same
  have hs3 : Within s3 := hs2.drawn
  split
  · exact h
  · split
    · exact h.dropTraffic
    · split
      · exact hs2.tlsFailed
      · split
        · exact hs3.openSess
        · split
          · exact hs3.openSess
          · exact hs3.setBit.raise

protected theorem Within.closeIf {reason n : Nat} (h : Within s) : Within (closeIf reason n s) := .ite h.closeSess h

protected theorem Within.execSessionIdleTimeout {sess : Fin 8} (h : Within s) :
    WithinNext (execSessionIdleTimeout sess s) := by
  unfold Machine.execSessionIdleTimeout
  split
  · exact .ite h.closeSess h
  · exact h

protected theorem Within.execTlsFailure {sess : Fin 8} (h : Within s) : WithinNext (execTlsFailure sess s) :=
  h.closeIf

protected theorem Within.execKeyUpdate {sess : Fin 8} (h : Within s) : WithinNext (execKeyUpdate sess s) := by
  unfold Machine.execKeyUpdate
  split
  · exact Within.ite h.putSess.emit h
  · exact h

protected theorem Within.execNetworkFrameDrop {port : Fin 4} {peer : BitVec 32} (h : Within s) :
    WithinNext (execNetworkFrameDrop port peer s) :=
  h.dropTraffic

protected theorem Within.execIcmpEcho {port : Fin 4} {ident : Nat} (h : Within s) : WithinNext (execIcmpEcho port ident s) :=
  .ite (h.same.emit) h.dropUnnamed

protected theorem Within.execRngReady (h : Within s) : WithinNext (execRngReady s) := .ite h h.same.setReg.raise
protected theorem Within.execRngHealthFail (h : Within s) : WithinNext (execRngHealthFail s) := .ite h.setReg.setBit.raise h
protected theorem Within.execDrbgReseed (h : Within s) : WithinNext (execDrbgReseed s) := Within.ite h.reseed h

protected theorem Within.execGrantExpiry (h : Within s) : WithinNext (execGrantExpiry s) := by
  unfold Machine.execGrantExpiry
  split
  · exact .ite h.endGrant h
  · exact h

protected theorem Within.execUpdateSessionLoss (h : Within s) : WithinNext (execUpdateSessionLoss s) := by
  unfold Machine.execUpdateSessionLoss
  split
  · split
    · exact .ite h.modBoot.setF.setBit.raise h
    · exact h
  · exact h

protected theorem Within.respond {q : Rq} {code status : Nat} {ws : List Word} (h : Within s) :
    Within (respond q code status ws s) :=
  h.emit

protected theorem Within.serveRequest {q : Rq} {h' : HostReq} {v : Service} {body : State → State} (h : Within s)
    (hf : ∀ x, Within x → Within (body x)) :
    Within (serveRequest q h' v body s) := by
  unfold Machine.serveRequest
  split
  · exact h
  · split
    · exact h.respond
    · exact hf _ (.ite h.drawn h)

protected theorem Within.serveMisformed {q : Rq} {code : Nat} (h : Within s) : Within (serveMisformed q code s) :=
  h.serveRequest fun _ ht => ht.respond

protected theorem Within.serveClash {q : Rq} {code : Nat} (h : Within s) : Within (serveClash q code s) := h.respond
protected theorem Within.queueReq {q : Rq} {h' : HostReq} (h : Within s) : Within (queueReq q h' s) := h.same

protected theorem Within.received {q : Rq} {x : HostSess} (h : Within s) : Within (received q x s) :=
  (Within.ite h.same h).putSess

protected theorem Within.arrive {q : Rq} {h' : HostReq} {serve : State → State} (h : Within s)
    (hf : ∀ x, Within x → Within (serve x)) :
    WithinNext (arrive q h' serve s) := by
  unfold Machine.arrive
  extract_lets clash
  split
  · exact h
  · extract_lets early s1
    have hs1 : Within s1 := h.received
    exact .ite hs1.respond (.ite hs1.queueReq (Within.ite hs1.serveClash (hf _ hs1)))

protected theorem Within.execHostFramingError {sess : Fin 8} {w0 w1 : Word} (h : Within s) :
    WithinNext (execHostFramingError sess w0 w1 s) :=
  .ite h.closeIf (h.arrive (fun _ ht => ht.serveMisformed))

/-! The host commands that read, stop, switch and arm (R22, R195, R398, R419, R475, R563, R564, R570, R574). -/

protected theorem Within.refused {q : Rq} {code fault reason : Nat} (h : Within s) : Within (refused q code fault reason s) :=
  h.respond

protected theorem Within.runIdent {q : Rq} (h : Within s) : Within (runIdent q s) := h.serveRequest fun _ ht => ht.respond

protected theorem Within.execIdent {q : Rq} (h : Within s) : WithinNext (execIdent q s) :=
  h.arrive fun _ ht => ht.runIdent

protected theorem Within.runEcho {q : Rq} {payload : List Word} (h : Within s) : Within (runEcho q payload s) :=
  h.serveRequest fun _ ht => ht.respond

protected theorem Within.execEcho {q : Rq} {payload : List Word} (h : Within s) : WithinNext (execEcho q payload s) :=
  h.arrive fun _ ht => ht.runEcho

protected theorem Within.runStatus {q : Rq} (h : Within s) : Within (runStatus q s) := h.serveRequest fun _ ht => ht.respond

protected theorem Within.execStatus {q : Rq} (h : Within s) : WithinNext (execStatus q s) :=
  h.arrive fun _ ht => ht.runStatus

protected theorem Within.memRequest {w : HostWait} {m : Nat} {f : State → State} (h : Within s)
    (hf : ∀ t, Within t → Within (f t)) : Within (memRequest w m f s) := by
  unfold Machine.memRequest
  extract_lets t
  have ht : Within t := hf _ h.untouched
  have hw : Within (Machine.waitFor m 0 t.tk.touched s) := h.waitFor
  exact .ite ht.settle hw.same

protected theorem Within.readWords {m : Nat} {secure peek : Bool} {n : Nat} {a : Word} (h : Within s) :
    Within (readWords m secure peek n a s).2 := by
  induction n generalizing a s with
  | zero => exact h
  | succ n ih =>
    refine ih ?_
    dsimp only
    split
    · exact h.touch.violate
    · exact h.touch.readMapped

protected theorem Within.serveRead {q : Rq} {a : Word} {count : Nat} (h : Within s) : Within (serveRead q a count s) :=
  h.readWords.respond

protected theorem Within.runRead {q : Rq} {a : Word} {count : Nat} (h : Within s) : Within (runRead q a count s) :=
  h.serveRequest fun _ ht => ht.memRequest (fun _ hu => hu.serveRead)

protected theorem Within.execRead {q : Rq} {a : Word} {count : Nat} (h : Within s) :
    WithinNext (execRead q a count s) :=
  h.arrive fun _ ht => ht.runRead

protected theorem Within.runLog {q : Rq} {first : Word} {count : Nat} (h : Within s) : Within (runLog q first count s) :=
  h.serveRequest fun _ ht => ht.respond

protected theorem Within.execLog {q : Rq} {first : Word} {count : Nat} (h : Within s) :
    WithinNext (execLog q first count s) :=
  h.arrive fun _ ht => ht.runLog

protected theorem Within.runTelem {q : Rq} (h : Within s) : Within (runTelem q s) := h.serveRequest fun _ ht => ht.respond

protected theorem Within.execTelem {q : Rq} (h : Within s) : WithinNext (execTelem q s) :=
  h.arrive fun _ ht => ht.runTelem

protected theorem Within.runPmucfg {q : Rq} {stream : Nat} (h : Within s) : Within (runPmucfg q stream s) :=
  h.serveRequest fun _ ht => ht.respond

protected theorem Within.execPmucfg {q : Rq} {stream : Nat} (h : Within s) : WithinNext (execPmucfg q stream s) :=
  h.arrive fun _ ht => ht.runPmucfg

protected theorem Within.acceptStop {forced activate : Bool} {q : Rq} (h : Within s) :
    Within (acceptStop forced activate q s) :=
  h.dropStop.same

protected theorem Within.stopBySwitch {activate : Bool} {q : Rq} (h : Within s) :
    Within (stopBySwitch activate q s) :=
  (Within.ite h.armSwitch h).acceptStop

protected theorem Within.serveStop {code : Nat} {forced activate : Bool} {q : Rq} (h : Within s) :
    Within (serveStop code forced activate q s) :=
  .ite (.ite h.stopBySwitch.respond h.refuseSwitch.refused) h.acceptStop.respond

protected theorem Within.runStop {q : Rq} {flags : Word} (h : Within s) : Within (runStop q flags s) :=
  h.serveRequest fun _ ht => ht.serveStop

protected theorem Within.execStop {q : Rq} {flags : Word} (h : Within s) : WithinNext (execStop q flags s) :=
  h.arrive fun _ ht => ht.runStop

protected theorem Within.runRestart {q : Rq} (h : Within s) : Within (runRestart q s) :=
  h.serveRequest fun _ ht => .ite ht.respond.restart ht.respond.retryStart

protected theorem Within.execRestart {q : Rq} (h : Within s) : WithinNext (execRestart q s) :=
  h.arrive fun _ ht => ht.runRestart

protected theorem Within.runSwitchReq {q : Rq} {day : Word} (h : Within s) : Within (runSwitchReq q day s) := by
  refine h.serveRequest fun t ht => ?_
  generalize switchReason t (fullDay t day) = o
  rcases o with _ | _ | _ | n
  · exact ht.armSwitch.modLink.respond
  · exact ht.refuseSwitch.refused
  · exact ht.refuseSwitch.respond
  · exact ht.refuseSwitch.refused

protected theorem Within.execSwitch {q : Rq} {day : Word} (h : Within s) : WithinNext (execSwitch q day s) :=
  h.arrive fun _ ht => ht.runSwitchReq

protected theorem Within.runUnlock {q : Rq} {drive : Nat} (h : Within s) : Within (runUnlock q drive s) :=
  h.serveRequest fun _ ht => .ite ht.unlock.respond ht.unlock.bump.refused

protected theorem Within.execHostUnlock {q : Rq} {drive : Nat} (h : Within s) :
    WithinNext (execHostUnlock q drive s) :=
  h.arrive fun _ ht => ht.runUnlock

protected theorem Within.runFpline {q : Rq} {line : Nat} {words : List Word} (h : Within s) :
    Within (runFpline q line words s) :=
  h.serveRequest (fun _ ht => (ht.foldl (fun _ _ hu => hu.setReg)).respond)

protected theorem Within.execFpline {q : Rq} {line : Nat} {words : List Word} (h : Within s) :
    WithinNext (execFpline q line words s) :=
  h.arrive fun _ ht => ht.runFpline

protected theorem Within.armOwner {o : Option (Nat × BitVec 20)} (h : Within s) : Within { s with armReq := o } := h.same

protected theorem Within.serveArm {q : Rq} {day : Word} (h : Within s) : Within (serveArm q day s) := by
  unfold Machine.serveArm
  extract_lets same served t
  have ht : Within t := h.bump
  generalize (if t.boot.staged.isNone then some (if served then 7 else 6) else armReason t (fullDay t day) same) = o
  cases o with
  | none =>
    exact ht.armChange.armOwner.respond
  | some n => exact .ite ht.refuseChange.refused ht.refuseChange.respond

protected theorem Within.runArm {q : Rq} {day : Word} (h : Within s) : Within (runArm q day s) :=
  h.serveRequest fun _ ht => ht.serveArm

protected theorem Within.execArm {q : Rq} {day : Word} (h : Within s) : WithinNext (execArm q day s) :=
  h.arrive fun _ ht => ht.runArm

/-! Update sessions, copies, rollback floors and activation (R478 to R488). -/

protected theorem Within.slotAt {bank slot : Nat} {x : Slot} (h : Within s) : Within (slotAt s bank slot x) :=
  h.same

protected theorem Within.noteRefusal {reason bank slot : Nat} (h : Within s) : Within (noteRefusal reason bank slot s) :=
  h.setF.setBit.raise

protected theorem Within.checkFault {fault bank slot : Nat} (h : Within s) : Within (checkFault fault bank slot s) :=
  .ite h h.raise

protected theorem Within.refuseUpdate {q : Rq} {code reason fault bank slot : Nat} (h : Within s) :
    Within (refuseUpdate q code reason fault bank slot s) :=
  h.checkFault.noteRefusal.refused

protected theorem Within.showSess {cls bank slot st : Nat} (h : Within s) : Within (showSess cls bank slot st s) := h.same

protected theorem Within.endSess {st : Nat} (h : Within s) : Within (endSess st s) := h.same

protected theorem Within.openUpdate {sess cls bank slot : Nat} {h' : Header} {ty f : Nat} (h : Within s) :
    Within (openUpdate sess cls bank slot h' ty f s) := by
  unfold Machine.openUpdate
  extract_lets kept s1 s2 s3
  have hs1 : Within s1 := .ite h.slotAt h
  have hs2 : Within s2 := .ite hs1.discardStaged hs1
  exact hs2.showSess.modBoot

protected theorem Within.runUopen {q : Rq} {cls bank slot : Nat} {k : RawHeader} {ty floor : Nat} (h : Within s) :
    Within (runUopen q cls bank slot k ty floor s) := by
  unfold Machine.runUopen
  extract_lets ht inRange
  refine h.serveRequest ?_
  intro t hu
  split
  · extract_lets s1
    have hs1 : Within s1 := hu.refuseUpdate
    exact .ite hs1 hs1.showSess
  · exact hu.openUpdate.respond

protected theorem Within.execUopen {q : Rq} {cls bank slot : Nat} {k : RawHeader} {ty floor : Nat} (h : Within s) :
    WithinNext (execUopen q cls bank slot k ty floor s) :=
  h.arrive fun _ ht => ht.runUopen

protected theorem Within.addBlock {u : Session} {k : Nat} {ws : List Word} (h : Within s) :
    Within (addBlock u k ws s) :=
  .ite h.modBoot.slotAt h.modBoot

protected theorem Within.runUblock {q : Rq} {offset : Nat} {words : List Word} (h : Within s) :
    Within (runUblock q offset words s) := by
  unfold Machine.runUblock
  refine h.serveRequest ?_
  intro t ht
  split
  · exact ht
  · split
    · exact ht.refuseUpdate
    · exact ht.addBlock.respond

protected theorem Within.execUblock {q : Rq} {offset : Nat} {words : List Word} (h : Within s) :
    WithinNext (execUblock q offset words s) :=
  h.arrive fun _ ht => ht.runUblock

protected theorem Within.committed {u : Session} (h : Within s) : Within (committed u s) := h.endSess.setBit.raise

protected theorem Within.commit {u : Session} (h : Within s) : Within (commit u s) := by
  unfold Machine.commit
  extract_lets ws s1
  have hs1 : Within s1 := .ite h.setF h.setF
  split
  · exact h.slotAt.modBoot.committed
  · exact h.modBoot.setF.committed
  · exact hs1.setBit.raise.committed

protected theorem Within.refuseClose {q : Rq} {u : Session} {k : Nat × Nat} (h : Within s) :
    Within (refuseClose q u k s) :=
  .ite ((Within.ite h.refuseUpdate.slotAt h.refuseUpdate).endSess) h.refuseUpdate

protected theorem Within.runUclose {q : Rq} (h : Within s) : Within (runUclose q s) := by
  unfold Machine.runUclose
  refine h.serveRequest ?_
  intro t ht
  split
  · exact ht
  · split
    · exact ht.refuseClose
    · exact ht.commit.respond

protected theorem Within.execUclose {q : Rq} (h : Within s) : WithinNext (execUclose q s) :=
  h.arrive fun _ ht => ht.runUclose

protected theorem Within.runUcopy {q : Rq} {slot : Nat} (h : Within s) : Within (runUcopy q slot s) := by
  unfold Machine.runUcopy
  refine h.serveRequest ?_
  intro t ht
  extract_lets s1
  split
  · extract_lets s2 s3
    have hs2 : Within s2 := ht.refuseUpdate
    have hs3 : Within s3 := .ite hs2.slotAt hs2
    exact .ite hs3 hs3.showSess
  · exact ht.showSess.commit.respond

protected theorem Within.execUcopy {q : Rq} {slot : Nat} (h : Within s) : WithinNext (execUcopy q slot s) :=
  h.arrive fun _ ht => ht.runUcopy

protected theorem Within.activateBank {bank : Nat} {keep : Bool} (h : Within s) : Within (activateBank bank keep s) :=
  h.hwField.setBit.setBit.raise

protected theorem Within.activateNow {q : Rq} (h : Within s) : Within (activateNow q s) := by
  unfold Machine.activateNow
  split
  · exact h.serveStop
  · exact h.modBoot.setF.respond
  · exact h.respond.restart

protected theorem Within.runActivate {q : Rq} {bank : Nat} {keep : Bool} (h : Within s) :
    Within (runActivate q bank keep s) := by
  unfold Machine.runActivate
  refine h.serveRequest ?_
  intro t ht
  split
  · exact ht.checkFault.noteRefusal.refused
  · exact .ite ht.activateBank.respond (.ite ht.serveStop ht.activateBank.activateNow)

protected theorem Within.execActivate {q : Rq} {bank : Nat} {keep : Bool} (h : Within s) :
    WithinNext (execActivate q bank keep s) :=
  h.arrive fun _ ht => ht.runActivate

/-! The key vault, zeroisation, commissioning and debug grants as host commands (R506, R507, R513, R563 to R565). -/

protected theorem Within.putItem {n : Nat} {x : VaultItem} (h : Within s) : Within (putItem n x s) := h.same

protected theorem Within.install {q : Rq} {h' : HostReq} {lo hi slot : Nat} {x : VaultItem} (h : Within s) :
    Within (install q h' lo hi slot x s) :=
  h.serveRequest fun _ ht => ht.putItem.respond

protected theorem Within.runDeviceKey {q : Rq} (h : Within s) : Within (runDeviceKey q s) :=
  h.serveRequest fun _ ht => ht.bump.putItem.respond

protected theorem Within.execVaultGenerateDeviceKey {q : Rq} (h : Within s) :
    WithinNext (execVaultGenerateDeviceKey q s) :=
  h.arrive fun _ ht => ht.runDeviceKey

protected theorem Within.runDeviceCert {q : Rq} {item : VaultItem} (h : Within s) :
    Within (runDeviceCert q item s) :=
  h.serveRequest fun _ ht => ht.putItem.respond

protected theorem Within.execVaultInstallDeviceCert {q : Rq} {item : VaultItem} (h : Within s) :
    WithinNext (execVaultInstallDeviceCert q item s) :=
  h.arrive fun _ ht => ht.runDeviceCert

protected theorem Within.execVaultInstallConfigKey {q : Rq} {slot : Nat} {item : VaultItem} (h : Within s) :
    WithinNext (execVaultInstallConfigKey q slot item s) :=
  h.arrive fun _ ht => ht.install

protected theorem Within.execVaultInstallTrustAnchor {q : Rq} {slot : Nat} {item : VaultItem} (h : Within s) :
    WithinNext (execVaultInstallTrustAnchor q slot item s) :=
  h.arrive fun _ ht => ht.install

protected theorem Within.execVaultInstallDebugKeys {q : Rq} {slot : Nat} {item : VaultItem} (h : Within s) :
    WithinNext (execVaultInstallDebugKeys q slot item s) :=
  h.arrive fun _ ht => ht.install

protected theorem Within.execVaultInstallAccessAnchor {q : Rq} {slot : Nat} {item : VaultItem} (h : Within s) :
    WithinNext (execVaultInstallAccessAnchor q slot item s) :=
  h.arrive fun _ ht => ht.install

protected theorem Within.runCrl {q : Rq} {item : VaultItem} (h : Within s) : Within (runCrl q item s) :=
  h.serveRequest fun _ ht => ht.putItem.respond

protected theorem Within.execVaultReplaceCrl {q : Rq} {item : VaultItem} (h : Within s) :
    WithinNext (execVaultReplaceCrl q item s) :=
  h.arrive fun _ ht => ht.runCrl

protected theorem Within.runDeleteSlot {q : Rq} {slot : Nat} (h : Within s) : Within (runDeleteSlot q slot s) :=
  h.serveRequest fun _ ht => ht.same.respond

protected theorem Within.execVaultDeleteSlot {q : Rq} {slot : Nat} (h : Within s) :
    WithinNext (execVaultDeleteSlot q slot s) :=
  h.arrive fun _ ht => ht.runDeleteSlot

protected theorem Within.runListSlots {q : Rq} (h : Within s) : Within (runListSlots q s) :=
  h.serveRequest fun _ ht => ht.respond

protected theorem Within.execVaultListSlots {q : Rq} (h : Within s) : WithinNext (execVaultListSlots q s) :=
  h.arrive fun _ ht => ht.runListSlots

protected theorem Within.runZeroise {q : Rq} {serial : List Word} (h : Within s) : Within (runZeroise q serial s) := by
  refine h.serveRequest fun t ht => ?_
  have hv : Within { modBoot (fun b => { b with slots := tabSet {} (tabSet {} b.slots 1 {}) 3 {} }) t with vault :=
    [] } := ht.same
  exact hv.setBit.raise.respond.closeAll

protected theorem Within.execZeroise {q : Rq} {serial : List Word} (h : Within s) :
    WithinNext (execZeroise q serial s) :=
  h.arrive fun _ ht => ht.runZeroise

protected theorem Within.runCommission {q : Rq} {key anchor access : VaultItem} (h : Within s) :
    Within (runCommission q key anchor access s) :=
  h.serveRequest fun _ ht => ht.putItem.putItem.putItem.respond.closeAll

protected theorem Within.execCommission {q : Rq} {key anchor access : VaultItem} (h : Within s) :
    WithinNext (execCommission q key anchor access s) :=
  h.arrive fun _ ht => ht.runCommission

protected theorem Within.runDbgchal {q : Rq} (h : Within s) : Within (runDbgchal q s) := by
  refine h.serveRequest fun t ht => ?_
  have hs : Within { t with sess := t.sess.map fun x =>
      if x.1 = q.sess.val then (x.1, { x.2 with challenge := some (Config.freeChallenge t.fresh) }) else x } := ht.same
  exact hs.bump.respond

protected theorem Within.execDbgchal {q : Rq} (h : Within s) : WithinNext (execDbgchal q s) :=
  h.arrive fun _ ht => ht.runDbgchal

protected theorem Within.runDbggrant {q : Rq} {g : Grant} (h : Within s) : Within (runDbggrant q g s) :=
  h.serveRequest fun _ ht => .ite ht.same.setF.raise.respond ht.setBit.raise.bump.respond

protected theorem Within.execDbggrant {q : Rq} {g : Grant} (h : Within s) : WithinNext (execDbggrant q g s) :=
  h.arrive fun _ ht => ht.runDbggrant

/-! Debug commands (R12, R206, R512, R578 to R580). -/

protected theorem Within.answer {q : Rq} {st seq : Nat} {ws : List Word} (h : Within s) : Within (answer q st seq ws s) :=
  h.respond

protected theorem Within.answerRead {q : Rq} {u : List (Option Word) × State} (h : Within u.2) : Within (answerRead q u) :=
    h.answer

protected theorem Within.servePeek {q : Rq} {a : Word} {count level : Nat} (h : Within s) : Within
    (servePeek q a count level s) :=
  h.readWords.answerRead

protected theorem Within.debugAccess {q : Rq} {h' : HostReq} {range : Bool} {m : Nat → MemReq} {f : Nat → State → State}
    (h : Within s) (hf : ∀ x y, Within y → Within (f x y)) :
    Within (debugAccess q h' range m f s) :=
  h.serveRequest fun _ ht => ht.memRequest (fun _ hu => hf _ _ hu)

protected theorem Within.runPeek {q : Rq} {a : Word} {count : Nat} (h : Within s) : Within (runPeek q a count s) :=
  h.debugAccess fun _ _ ht => ht.servePeek

protected theorem Within.execPeek {q : Rq} {a : Word} {count : Nat} (h : Within s) :
    WithinNext (execPeek q a count s) :=
  h.arrive fun _ ht => ht.runPeek

protected theorem Within.serveTake {q : Rq} {a : Word} {count level : Nat} (h : Within s) : Within
    (serveTake q a count level s) :=
  .ite h.answer (.ite h.answer h.readWords.answerRead)

protected theorem Within.runTake {q : Rq} {a : Word} {count : Nat} (h : Within s) : Within (runTake q a count s) :=
  h.debugAccess fun _ _ ht => ht.serveTake

protected theorem Within.execTake {q : Rq} {a : Word} {count : Nat} (h : Within s) :
    WithinNext (execTake q a count s) :=
  h.arrive fun _ ht => ht.runTake

protected theorem Within.servePoke {q : Rq} {a : Word} {words : List Word} {level : Nat} (h : Within s) :
    Within (servePoke q a words level s) := by
  unfold Machine.servePoke
  extract_lets secure
  split
  · exact h.answer
  · split
    · exact h.answer
    · split
      · exact h.answer
      · split
        · extract_lets t
          have ht : Within t := h.touch.violate
          exact ht.answer
        · exact (h.foldl (fun _ _ hu => hu.touch.writeMapped)).answer

protected theorem Within.runPoke {q : Rq} {a : Word} {words : List Word} (h : Within s) : Within (runPoke q a words s) :=
  h.debugAccess fun _ _ ht => ht.servePoke

protected theorem Within.execPoke {q : Rq} {a : Word} {words : List Word} (h : Within s) :
    WithinNext (execPoke q a words s) :=
  h.arrive fun _ ht => ht.runPoke

protected theorem Within.onEngine {q : Rq} {h' : HostReq} {e : Nat} {range : Bool} {body : State → State} (h : Within s)
    (hf : ∀ x, Within x → Within (body x)) :
    Within (onEngine q h' e range body s) := by
  unfold Machine.onEngine
  refine h.serveRequest ?_
  intro t ht
  split
  · exact ht.answer
  · exact hf _ ht

protected theorem Within.runHalt {q : Rq} {e : Nat} (h : Within s) : Within (runHalt q e s) :=
  h.onEngine fun _ ht => (ht.modEngine fun x hx => by split <;> exact hx).answer

protected theorem Within.execHalt {q : Rq} {e : Nat} (h : Within s) : WithinNext (execHalt q e s) :=
  h.arrive fun _ ht => ht.runHalt

protected theorem Within.releaseHalted {e n : Nat} (h : Within s) : Within (releaseHalted e n s) :=
  .ite ((Within.ite h.traceRest h).modEngine.modEngine) ((Within.ite h.traceRest h).modEngine)

protected theorem Within.runResume {q : Rq} {e : Nat} (h : Within s) : Within (runResume q e s) :=
  h.onEngine fun _ ht => ht.releaseHalted.answer

protected theorem Within.execResume {q : Rq} {e : Nat} (h : Within s) : WithinNext (execResume q e s) :=
  h.arrive fun _ ht => ht.runResume

protected theorem Within.runStep {q : Rq} {e n : Nat} (h : Within s) : Within (runStep q e n s) :=
  h.onEngine fun _ ht => ht.releaseHalted.answer

protected theorem Within.execStep {q : Rq} {e n : Nat} (h : Within s) : WithinNext (execStep q e n s) :=
  h.arrive fun _ ht => ht.runStep

protected theorem Within.serveRegs {q : Rq} {e since : Nat} (h : Within s) : Within (serveRegs q e since s) :=
  .ite h.answer (.ite h.answer h.same)

protected theorem Within.runRegs {q : Rq} {e : Nat} (h : Within s) : Within (runRegs q e s) :=
  h.serveRequest fun _ ht => ht.serveRegs

protected theorem Within.execRegs {q : Rq} {e : Nat} (h : Within s) : WithinNext (execRegs q e s) :=
  h.arrive fun _ ht => ht.runRegs

protected theorem Within.serveMem {w : HostWait} {k : MemReq} (h : Within s) : Within (serveMem w k s) := by
  unfold Machine.serveMem
  split
  · exact h.memRequest fun _ ht => ht.serveRead
  · exact h.memRequest fun _ hu => hu.servePeek
  · exact h.memRequest fun _ hv => hv.serveTake
  · exact h.memRequest fun _ hw => hw.servePoke

protected theorem Within.serveWait {w : HostWait} (h : Within s) : Within (serveWait w s) := by
  unfold Machine.serveWait
  cases w.req with
  | ident => exact h.runIdent
  | echo _ => exact h.runEcho
  | status => exact h.runStatus
  | read _ _ => exact h.runRead
  | log _ _ => exact h.runLog
  | telem => exact h.runTelem
  | pmucfg _ => exact h.runPmucfg
  | stop _ => exact h.runStop
  | restart => exact h.runRestart
  | switch _ => exact h.runSwitchReq
  | unlock _ => exact h.runUnlock
  | fpline _ _ => exact h.runFpline
  | uopen _ _ _ _ _ _ => exact h.runUopen
  | ublock _ _ => exact h.runUblock
  | uclose => exact h.runUclose
  | ucopy _ => exact h.runUcopy
  | activate _ _ => exact h.runActivate
  | arm _ => exact h.runArm
  | deviceKey => exact h.runDeviceKey
  | deviceCert _ => exact h.runDeviceCert
  | configKey _ _ => exact h.install
  | trustAnchor _ _ => exact h.install
  | debugKeys _ _ => exact h.install
  | accessAnchor _ _ => exact h.install
  | crl _ => exact h.runCrl
  | deleteSlot _ => exact h.runDeleteSlot
  | listSlots => exact h.runListSlots
  | zeroise _ => exact h.runZeroise
  | commission _ _ _ => exact h.runCommission
  | dbgchal => exact h.runDbgchal
  | dbggrant _ => exact h.runDbggrant
  | peek _ _ => exact h.runPeek
  | take _ _ => exact h.runTake
  | poke _ _ => exact h.runPoke
  | halt _ => exact h.runHalt
  | resume _ => exact h.runResume
  | step _ _ => exact h.runStep
  | regs _ => exact h.runRegs
  | misformed _ => exact h.serveMisformed
  | clash _ => exact h.serveClash
  | held _ => exact h.serveMem
  | resting _ _ => exact h.serveRegs

protected theorem Within.serveOrphan {w : HostWait} (h : Within s) :
    Within (serveOrphan w s) :=
  .ite h.serveWait.same h.serveWait

protected theorem Within.inOrder {w : HostWait} (h : Within s) :
    Within (inOrder w s) :=
  .ite h.same h.serveWait

protected theorem Within.takeTurn {w : HostWait} (h : Within s) :
    Within (takeTurn s w) := by
  unfold Machine.takeTurn
  split
  · exact h.inOrder
  · split
    · exact h.serveOrphan
    · exact h

protected theorem Within.execClockTick (h : Within s) :
    WithinNext (execClockTick s) := by
  unfold Machine.execClockTick
  extract_lets s4 s5
  have h6 : Within s4 := h.endPorts.passTick.retryEnds
  have h7 : Within s5 := h6.same.foldl (fun _ _ h8 => h8.takeTurn)
  exact ((h7.foldl (fun _ _ h11 => h11.portTick)).foldl (fun _ _ h12 => h12.copyRegs)).noteResults

/-! Loads, stores, software events and their service (R97). -/

protected theorem Within.execLd {e : Fin 1028} {f : RegForm} (h : Within s) : WithinNext (execLd e f s) :=
  h.releaseR fun _ _ ht => ⟨ht.addTx, ht⟩

protected theorem Within.execSt {e : Fin 1028} {f : RegForm} (h : Within s) : WithinNext (execSt e f s) :=
  h.releaseR fun _ _ ht => ⟨ht.addTx, ht⟩

protected theorem Within.execLdl {e : Fin 1028} {f : ImmForm} (h : Within s) : WithinNext (execLdl e f s) :=
  h.releaseI fun _ _ ht => ⟨ht.addTx, ht⟩

protected theorem Within.execStl {e : Fin 1028} {f : ImmForm} (h : Within s) : WithinNext (execStl e f s) :=
  h.releaseI fun _ _ ht => ⟨ht.addTx, ht⟩

protected theorem Within.addReq {e : Nat} {a : Word} {op : ReqOp} {x : Engine} (h : Within s) : Within (addReq e a op x s) :=
  h.same

protected theorem Within.request {e kind : Nat} {fields : List Word} {a : Word} {op : ReqOp} {x : Engine} (h : Within s) :
    Within (request e kind fields a op x s) :=
  .ite h.addTx h.addTx.addReq

protected theorem Within.execLds {e : Fin 1028} {f : RegForm} (h : Within s) : WithinNext (execLds e f s) := by
  refine h.releaseR fun x t ht => ⟨?_, ht⟩
  dsimp only
  split
  · exact ht.request
  · have hr : Within (Machine.supRead e.val (sharedAddr x f) t).2 := ht.supRead
    generalize Machine.supRead e.val (sharedAddr x f) t = u at hr ⊢
    obtain ⟨_ | v, u⟩ := u
    · exact hr
    · exact hr

protected theorem Within.execSts {e : Fin 1028} {f : RegForm} (h : Within s) : WithinNext (execSts e f s) :=
  h.releaseR fun _ _ ht => ⟨by split <;> [exact ht.request; exact ht.supWrite], ht⟩

protected theorem Within.postSoft {m : Nat} {secure : Bool} {target src payload : Nat} (h : Within s) :
    Within (postSoft m secure target src payload s) := by
  unfold Machine.postSoft
  extract_lets s1
  have hs1 : Within s1 := h.touch
  split
  · exact hs1.violate
  · exact hs1.enqueue

protected theorem Within.supEvs {e target src payload : Nat} (h : Within s) : Within (supEvs e target src payload s) := by
  unfold Machine.supEvs
  extract_lets t
  have ht : Within t := h.postSoft
  split
  · exact ht.noteWrite
  · exact ht

protected theorem Within.execEvs {e : Fin 1028} {f : RegForm} (h : Within s) : WithinNext (execEvs e f s) := by
  refine h.releaseR fun x t ht => ⟨?_, ht⟩
  dsimp only
  split
  · exact ht.request
  · exact ht.supEvs

protected theorem Within.lateService {k : Req} (h : Within s) : Within (lateService k s) := .ite h h.lateEvent

protected theorem Within.landReq {land : Nat} {k : Req} {fs : List Effect} (h : Within s) : Within (landReq land k fs s) :=
  h.modEngine

protected theorem Within.serve {k : Req} (h : Within s) : Within (serve k s) := by
  unfold Machine.serve
  extract_lets land s1 x
  have hs1 : Within s1 := h.same.lateService
  have hx : Within x.2 := hs1.gatedRead
  split
  · exact hx.landReq
  · exact hs1.gatedWrite.landReq
  · exact hs1.postSoft.landReq

protected theorem Within.execSharedAccessService {point : Nat} (h : Within s) : WithinNext (execSharedAccessService point s) := by
  unfold Machine.execSharedAccessService
  split
  · exact h
  · split
    · exact h.serve.untouched
    · exact h

/-! Multiplication, accumulators, division and CORDIC (R78, R89 to R96). -/

protected theorem Within.execMul {e : Fin 1028} {f : RegForm} (h : Within s) : WithinNext (execMul e f s) :=
  h.releaseR fun _ _ ht => ⟨ht, ht⟩

protected theorem Within.execMuls {e : Fin 1028} {f : RegForm} (h : Within s) : WithinNext (execMuls e f s) :=
  h.releaseR fun _ _ ht => ⟨ht, ht⟩

protected theorem Within.execPmul {e : Fin 1028} {f : RegForm} (h : Within s) : WithinNext (execPmul e f s) :=
  h.releaseR fun _ _ ht => ⟨ht, ht⟩

protected theorem Within.execMulh {e : Fin 1028} {f : RegForm} (h : Within s) : WithinNext (execMulh e f s) :=
  h.releaseR fun _ _ ht => ⟨ht, ht⟩

protected theorem Within.execTmul {e : Fin 1028} {f : RegForm} (h : Within s) : WithinNext (execTmul e f s) :=
  h.releaseR fun _ _ ht => ⟨ht, ht⟩

protected theorem Within.execMac {e : Fin 1028} {f : RegForm} (h : Within s) : WithinNext (execMac e f s) :=
  h.releaseR fun _ _ ht => ⟨ht, ht⟩

protected theorem Within.execAcx {e : Fin 1028} {f : RegForm} (h : Within s) : WithinNext (execAcx e f s) :=
  h.releaseR fun _ _ ht => ⟨ht, ht⟩

protected theorem Within.execAcm {e : Fin 1028} {f : RegForm} (h : Within s) : WithinNext (execAcm e f s) :=
  h.releaseR fun _ _ ht => ⟨ht, ht⟩

protected theorem Within.execDiv {e : Fin 1028} {f : RegForm} (h : Within s) : WithinNext (execDiv e f s) :=
  h.releaseR fun _ _ ht => ⟨ht, ht⟩

protected theorem Within.execRem {e : Fin 1028} {f : RegForm} (h : Within s) : WithinNext (execRem e f s) :=
  h.releaseR fun _ _ ht => ⟨ht, ht⟩

protected theorem Within.execPdiv {e : Fin 1028} {f : RegForm} (h : Within s) : WithinNext (execPdiv e f s) :=
  h.releaseR fun _ _ ht => ⟨ht, ht⟩

protected theorem Within.execSincos {e : Fin 1028} {f : RegForm} (h : Within s) : WithinNext (execSincos e f s) :=
  h.releaseR fun _ _ ht => ⟨ht, ht⟩

protected theorem Within.execVrot {e : Fin 1028} {f : RegForm} (h : Within s) : WithinNext (execVrot e f s) :=
  h.releaseR fun _ _ ht => ⟨ht, ht⟩

protected theorem Within.execAtan2 {e : Fin 1028} {f : RegForm} (h : Within s) : WithinNext (execAtan2 e f s) :=
  h.releaseR fun _ _ ht => ⟨ht, ht⟩

protected theorem Within.execMag {e : Fin 1028} {f : RegForm} (h : Within s) : WithinNext (execMag e f s) :=
  h.releaseR fun _ _ ht => ⟨ht, ht⟩

protected theorem Within.execSqrt {e : Fin 1028} {f : RegForm} (h : Within s) : WithinNext (execSqrt e f s) :=
  h.releaseR fun _ _ ht => ⟨ht, ht⟩

/-! The SYS extensions of supervisor engines (R116, R117, R503). -/

protected theorem Within.exceptFree {e cause seq : Nat} (h : Within s) : Within (exceptFree e cause seq s) := h.same

protected theorem Within.wrongWorld {e : Nat} (h : Within s) : Within (wrongWorld e s) := h.exceptFree

protected theorem Within.inWorld {secure : Bool} {e : Nat} {f : State → State × List Effect} (h : Within s)
    (hf : ∀ t, Within t → Within (f t).1) : Within (inWorld secure e f s).1 := by
  unfold Machine.inWorld
  split
  · exact hf _ h
  · exact h.wrongWorld

protected theorem Within.execJmp {e : Fin 1028} {f : RegForm} (h : Within s) : WithinNext (execJmp e f s) := by
  refine h.releaseR fun x t ht => ⟨?_, ht⟩
  dsimp only
  exact ht.modSup

protected theorem Within.execCall {e : Fin 1028} {f : RegForm} (h : Within s) : WithinNext (execCall e f s) := by
  refine h.releaseR fun x t ht => ⟨?_, ht⟩
  dsimp only
  exact ht.modSup

protected theorem Within.execEret {e : Fin 1028} {f : RegForm} (h : Within s) : WithinNext (execEret e f s) := by
  refine h.releaseR fun x t ht => ⟨?_, ht⟩
  dsimp only
  exact ht.modSup

protected theorem Within.execTrap {e : Fin 1028} {f : RegForm} (h : Within s) : WithinNext (execTrap e f s) :=
  h.releaseR fun _ _ ht => ⟨ht.exceptFree, ht⟩

protected theorem Within.execMfsr {e : Fin 1028} {f : RegForm} (h : Within s) : WithinNext (execMfsr e f s) :=
  h.releaseR fun _ _ ht => ⟨ht, ht⟩

protected theorem Within.sysWrite {e n : Nat} {v : Word} (h : Within s) : Within (sysWrite e n v s) := h.modSup

protected theorem Within.execMtsr {e : Fin 1028} {f : RegForm} (h : Within s) : WithinNext (execMtsr e f s) := by
  refine h.releaseR fun x t ht => ⟨?_, ht⟩
  dsimp only
  split
  · exact ht.inWorld fun _ h1 => h1.sysWrite
  · exact ht.sysWrite

protected theorem Within.execTlbi {e : Fin 1028} {f : RegForm} (h : Within s) : WithinNext (execTlbi e f s) := by
  refine h.releaseR fun x t ht => ⟨ht.inWorld fun u hu => ?_, ht⟩
  dsimp only
  exact hu.modSup

protected theorem Within.execFence {e : Fin 1028} {f : RegForm} (h : Within s) : WithinNext (execFence e f s) :=
  h.releaseR fun _ _ ht => ⟨ht, ht⟩

protected theorem Within.execCas {e : Fin 1028} {f : RegForm} (h : Within s) : WithinNext (execCas e f s) := by
  refine h.releaseR fun x t ht => ⟨?_, ht⟩
  have hr : Within (Machine.supCas e.val (opA x f) (opB x f) (opD x f) t).2 := ht.supCas
  dsimp only
  generalize Machine.supCas e.val (opA x f) (opB x f) (opD x f) t = u at hr ⊢
  obtain ⟨_ | v, u⟩ := u
  · exact hr
  · exact hr

protected theorem Within.execIdle {e : Fin 1028} {f : RegForm} (h : Within s) : WithinNext (execIdle e f s) := by
  refine h.releaseR fun x t ht => ⟨?_, ht⟩
  dsimp only
  exact ht.modEngine

protected theorem Within.execBeat {e : Fin 1028} {f : RegForm} (h : Within s) : WithinNext (execBeat e f s) := by
  refine h.releaseR fun x t ht => ⟨?_, ht⟩
  dsimp only
  exact ht.modNwt

protected theorem Within.execSwc {e : Fin 1028} {f : RegForm} (h : Within s) : WithinNext (execSwc e f s) := by
  refine h.releaseR fun x t ht => ⟨ht.inWorld fun u hu => ?_, ht⟩
  dsimp only
  exact hu.modSup

protected theorem Within.execSwr {e : Fin 1028} {f : RegForm} (h : Within s) : WithinNext (execSwr e f s) := by
  refine h.releaseR fun x t ht => ⟨ht.inWorld fun u hu => ?_, ht⟩
  dsimp only
  exact hu.modSup

/-! The dispatch. -/

/-- The instructions, which have no way to what the module keeps from its engines (R66). -/
protected theorem Within.instruction {i : Instr} (h : Within s) (hi : instrForm i ≠ none) : WithinNext (exec i s) := by
  cases i with
  | nop => exact h.execNop
  | waitt => exact h.execWaitt
  | waitev => exact h.execWaitev
  | loop => exact h.execLoop
  | lock => exact h.execLock
  | unlock => exact h.execUnlock
  | done => exact h.execDone
  | tstamp => exact h.execTstamp
  | add => exact h.execAdd
  | adds => exact h.execAdds
  | sub => exact h.execSub
  | subs => exact h.execSubs
  | and => exact h.execAnd
  | or => exact h.execOr
  | xor => exact h.execXor
  | andn => exact h.execAndn
  | neg => exact h.execNeg
  | negs => exact h.execNegs
  | abs => exact h.execAbs
  | abss => exact h.execAbss
  | min => exact h.execMin
  | max => exact h.execMax
  | sel => exact h.execSel
  | cls => exact h.execCls
  | shl => exact h.execShl
  | shls => exact h.execShls
  | shr => exact h.execShr
  | sar => exact h.execSar
  | rot => exact h.execRot
  | ext => exact h.execExt
  | ins => exact h.execIns
  | cvt => exact h.execCvt
  | ldi => exact h.execLdi
  | shi => exact h.execShi
  | addi => exact h.execAddi
  | cmp => exact h.execCmp
  | plog => exact h.execPlog
  | pmov => exact h.execPmov
  | rdf => exact h.execRdf
  | clrf => exact h.execClrf
  | mul => exact h.execMul
  | muls => exact h.execMuls
  | mulh => exact h.execMulh
  | pmul => exact h.execPmul
  | tmul => exact h.execTmul
  | mac => exact h.execMac
  | acx => exact h.execAcx
  | acm => exact h.execAcm
  | div => exact h.execDiv
  | rem => exact h.execRem
  | pdiv => exact h.execPdiv
  | sincos => exact h.execSincos
  | vrot => exact h.execVrot
  | atan2 => exact h.execAtan2
  | mag => exact h.execMag
  | sqrt => exact h.execSqrt
  | ld => exact h.execLd
  | st => exact h.execSt
  | lds => exact h.execLds
  | sts => exact h.execSts
  | ldl => exact h.execLdl
  | stl => exact h.execStl
  | evs => exact h.execEvs
  | popc => exact h.execPopc
  | tmark => exact h.execTmark
  | lim => exact h.execLim
  | srr => exact h.execSrr
  | jmp => exact h.execJmp
  | call => exact h.execCall
  | eret => exact h.execEret
  | trap => exact h.execTrap
  | mfsr => exact h.execMfsr
  | mtsr => exact h.execMtsr
  | tlbi => exact h.execTlbi
  | fence => exact h.execFence
  | cas => exact h.execCas
  | idle => exact h.execIdle
  | beat => exact h.execBeat
  | swc => exact h.execSwc
  | swr => exact h.execSwr
  | _ => exact absurd rfl hi

protected theorem Within.exec {i : Instr} (h : Within s) : WithinNext (exec i s) := by
  cases i with
  | resultLanding => exact h.execResultLanding
  | sharedAccessService => exact h.execSharedAccessService
  | waittTargetReached => exact h.execWaittTargetReached
  | eventWake => exact h.execEventWake
  | waitDeadline => exact h.execWaitDeadline
  | pairInputReplay => exact h.execPairInputReplay
  | comparatorCheck => exact h.execComparatorCheck
  | comparatorSelfTest => exact h.execComparatorSelfTest
  | detectorSelfTest => exact h.execDetectorSelfTest
  | comparatorArm => exact h.execComparatorArm
  | engineImageCapture => exact h.execEngineImageCapture
  | tripleStoreRepair => exact h.execTripleStoreRepair
  | tripleStoreScrub => exact h.execTripleStoreScrub
  | memoryScrub => exact h.execMemoryScrub
  | speedMeasurement => exact h.execSpeedMeasurement
  | analogueRecalibration l => exact h.execAnalogueRecalibration (input := l)
  | midnight => exact h.execMidnight
  | dayWatchdogCheck => exact h.execDayWatchdogCheck
  | checkpointCut => exact h.execCheckpointCut
  | deltaFrameSend => exact h.execDeltaFrameSend
  | endFrameSend => exact h.execEndFrameSend
  | duskStart => exact h.execDuskStart
  | commitComplete => exact h.execCommitComplete
  | sweepFrameSend => exact h.execSweepFrameSend
  | noonEvaluation => exact h.execNoonEvaluation
  | changeLoaderComplete => exact h.execChangeLoaderComplete
  | beaconSend => exact h.execBeaconSend
  | beaconMissed => exact h.execBeaconMissed
  | echoRequestSend => exact h.execEchoRequestSend
  | echoReplyReceive => exact h.execEchoReplyReceive
  | delayNoticeSend => exact h.execDelayNoticeSend
  | transmitAttempt => exact h.execTransmitAttempt
  | transmitSuccess => exact h.execTransmitSuccess
  | errorDetected => exact h.execErrorDetected
  | busOffRecoveryComplete => exact h.execBusOffRecoveryComplete
  | integrationComplete => exact h.execIntegrationComplete
  | protocolException => exact h.execProtocolException
  | dominantTimeout => exact h.execDominantTimeout
  | driverCurrentLimit => exact h.execDriverCurrentLimit
  | driverDisable => exact h.execDriverDisable
  | groupSupplyFail => exact h.execGroupSupplyFail
  | frameValid => exact h.execFrameValid
  | frameDeposit => exact h.execFrameDeposit
  | txptrWrite => exact h.execTxptrWrite
  | txcanCancel => exact h.execTxcanCancel
  | rxack => exact h.execRxack
  | cfgEnter => exact h.execCfgEnter
  | cfgLeave => exact h.execCfgLeave
  | loreqSet => exact h.execLoreqSet
  | loreqClear => exact h.execLoreqClear
  | borec => exact h.execBorec
  | unmute => exact h.execUnmute
  | clockTick => exact h.execClockTick
  | clockStep => exact h.execClockStep
  | daySequencerStart => exact h.execDaySequencerStart
  | pllUnlock => exact h.execPllUnlock
  | ptpSyncReceive => exact h.execPtpSyncReceive
  | ptpAnnounceReceive => exact h.execPtpAnnounceReceive
  | pdelayReqSend => exact h.execPdelayReqSend
  | pdelayReqReceive => exact h.execPdelayReqReceive
  | pdelayRespReceive => exact h.execPdelayRespReceive
  | announceTimeout => exact h.execAnnounceTimeout
  | gmChangeHoldEnd => exact h.execGmChangeHoldEnd
  | ppsEdge => exact h.execPpsEdge
  | irigFrame => exact h.execIrigFrame
  | sourceRevert => exact h.execSourceRevert
  | lockAcquired => exact h.execLockAcquired
  | holdLongEntry => exact h.execHoldLongEntry
  | trendLearned => exact h.execTrendLearned
  | leapApply => exact h.execLeapApply
  | farSourceReport => exact h.execFarSourceReport
  | timeWaitExpiry => exact h.execTimeWaitExpiry
  | ppsOutputEdge => exact h.execPpsOutputEdge
  | feedptrWrite => exact h.execFeedptrWrite
  | feedProcess => exact h.execFeedProcess
  | channelGo => exact h.execChannelGo
  | channelStop => exact h.execChannelStop
  | syncArmNextPps => exact h.execSyncArmNextPps
  | syncArmMidnight => exact h.execSyncArmMidnight
  | syncArmFail => exact h.execSyncArmFail
  | c37ConnectionAccept => exact h.execC37ConnectionAccept
  | c37DataOff => exact h.execC37DataOff
  | c37DataOn => exact h.execC37DataOn
  | c37SendHeader => exact h.execC37SendHeader
  | c37SendCfg2 => exact h.execC37SendCfg2
  | c37SendCfg3 => exact h.execC37SendCfg3
  | c37Cfg1Ignored _ p => exact h.execC37Cfg1Ignored (peer := p)
  | c37ExtendedFrameIgnored => exact h.execC37ExtendedFrameIgnored
  | c37DataFrameSend => exact h.execC37DataFrameSend
  | c37FrameTimeout => exact h.execC37FrameTimeout
  | remoteCfg2Receive => exact h.execRemoteCfg2Receive
  | remoteDataFrameReceive => exact h.execRemoteDataFrameReceive
  | remoteStreamLost => exact h.execRemoteStreamLost
  | remoteCfg2Rerequest => exact h.execRemoteCfg2Rerequest
  | mandateLoopStateChange => exact h.execMandateLoopStateChange
  | presenceChange => exact h.execPresenceChange
  | presenceDebounceEnd => exact h.execPresenceDebounceEnd
  | claimLatchSet => exact h.execClaimLatchSet
  | yieldRecheck => exact h.execYieldRecheck
  | claimConfirmation => exact h.execClaimConfirmation
  | loopError => exact h.execLoopError
  | switchoverReadback => exact h.execSwitchoverReadback
  | switchoverRelease => exact h.execSwitchoverRelease
  | switchoverFallbackCheck => exact h.execSwitchoverFallbackCheck
  | noticeSend => exact h.execNoticeSend
  | noticeReceive => exact h.execNoticeReceive
  | laneDown => exact h.execLaneDown
  | deltaReceive => exact h.execDeltaReceive
  | sweepReceive => exact h.execSweepReceive
  | endReceive => exact h.execEndReceive
  | abandonReceive => exact h.execAbandonReceive
  | ackReceive => exact h.execAckReceive
  | joinReceive => exact h.execJoinReceive
  | cloneReceive => exact h.execCloneReceive
  | cloneComplete => exact h.execCloneComplete
  | finalReceive => exact h.execFinalReceive
  | dayHeartbeatTimeout => exact h.execDayHeartbeatTimeout
  | supervisorHeartbeatTimeout => exact h.execSupervisorHeartbeatTimeout
  | fabricRailFault => exact h.execFabricRailFault
  | internalRailFault => exact h.execInternalRailFault
  | feedsLost => exact h.execFeedsLost
  | nightwatchRailLoss => exact h.execNightwatchRailLoss
  | sundown => exact h.execSundown
  | resetAssert => exact h.execResetAssert
  | resetRelease => exact h.execResetRelease
  | startThresholdReached => exact h.execStartThresholdReached
  | daybreak => exact h.execDaybreak
  | daybreakStepTimeout => exact h.execDaybreakStepTimeout
  | retryWaitExpiry => exact h.execRetryWaitExpiry
  | coldStartRelease => exact h.execColdStartRelease
  | safDrvCmdWrite => exact h.execSafDrvCmdWrite
  | safConnRxWrite => exact h.execSafConnRxWrite
  | safResumeWrite => exact h.execSafResumeWrite
  | safUnlockGo => exact h.execSafUnlockGo
  | testPulseStart => exact h.execTestPulseStart
  | testPulseCheck => exact h.execTestPulseCheck
  | testPulseEnd => exact h.execTestPulseEnd
  | darkTest => exact h.execDarkTest
  | contactorFeedbackTimeout => exact h.execContactorFeedbackTimeout
  | monitorDiscrepancy => exact h.execMonitorDiscrepancy
  | forcingPathTest => exact h.execForcingPathTest
  | inputCrossing => exact h.execInputCrossing
  | filteredBandChange => exact h.execFilteredBandChange
  | freezeEnd => exact h.execFreezeEnd
  | loadingSettle => exact h.execLoadingSettle
  | lioOutWrite => exact h.execLioOutWrite
  | pwmReload => exact h.execPwmReload
  | outputOverload => exact h.execOutputOverload
  | outputReadbackFault => exact h.execOutputReadbackFault
  | openLoad => exact h.execOpenLoad
  | groupFieldSupplyChange => exact h.execGroupFieldSupplyChange
  | testSupplyOverload => exact h.execTestSupplyOverload
  | testSupplyRetry => exact h.execTestSupplyRetry
  | loopSample => exact h.execLoopSample
  | faceplatePassStart => exact h.execFaceplatePassStart
  | faceplatePassComplete => exact h.execFaceplatePassComplete
  | faceplatePassAbandon => exact h.execFaceplatePassAbandon
  | feedDrop => exact h.execFeedDrop
  | feedOvervoltage => exact h.execFeedOvervoltage
  | feedReconnect => exact h.execFeedReconnect
  | feedReverse => exact h.execFeedReverse
  | storeStateChange => exact h.execStoreStateChange
  | storeCapacityTest => exact h.execStoreCapacityTest
  | interfaceOvertemp => exact h.execInterfaceOvertemp
  | hostConnection => exact h.execHostConnection
  | sessionIdleTimeout => exact h.execSessionIdleTimeout
  | tlsFailure => exact h.execTlsFailure
  | keyUpdate => exact h.execKeyUpdate
  | hostFramingError => exact h.execHostFramingError
  | networkFrameDrop => exact h.execNetworkFrameDrop
  | icmpEcho => exact h.execIcmpEcho
  | rngReady => exact h.execRngReady
  | rngHealthFail => exact h.execRngHealthFail
  | drbgReseed => exact h.execDrbgReseed
  | secRngRead => exact h.execSecRngRead
  | grantExpiry => exact h.execGrantExpiry
  | updateSessionLoss => exact h.execUpdateSessionLoss
  | ident => exact h.execIdent
  | echo => exact h.execEcho
  | status => exact h.execStatus
  | read => exact h.execRead
  | log => exact h.execLog
  | telem => exact h.execTelem
  | pmucfg => exact h.execPmucfg
  | stop => exact h.execStop
  | restart => exact h.execRestart
  | switch => exact h.execSwitch
  | hostUnlock => exact h.execHostUnlock
  | fpline => exact h.execFpline
  | uopen => exact h.execUopen
  | ublock => exact h.execUblock
  | uclose => exact h.execUclose
  | ucopy => exact h.execUcopy
  | activate => exact h.execActivate
  | arm => exact h.execArm
  | vaultGenerateDeviceKey => exact h.execVaultGenerateDeviceKey
  | vaultInstallDeviceCert => exact h.execVaultInstallDeviceCert
  | vaultInstallConfigKey => exact h.execVaultInstallConfigKey
  | vaultInstallTrustAnchor => exact h.execVaultInstallTrustAnchor
  | vaultInstallDebugKeys => exact h.execVaultInstallDebugKeys
  | vaultInstallAccessAnchor => exact h.execVaultInstallAccessAnchor
  | vaultReplaceCrl => exact h.execVaultReplaceCrl
  | vaultDeleteSlot => exact h.execVaultDeleteSlot
  | vaultListSlots => exact h.execVaultListSlots
  | zeroise => exact h.execZeroise
  | commission => exact h.execCommission
  | dbgchal => exact h.execDbgchal
  | dbggrant => exact h.execDbggrant
  | peek => exact h.execPeek
  | take => exact h.execTake
  | poke => exact h.execPoke
  | halt => exact h.execHalt
  | resume => exact h.execResume
  | step => exact h.execStep
  | regs => exact h.execRegs
  | fabLateRead _ b => exact h.execFabLateRead (secure := b)
  | dayOvrRead _ b => exact h.execDayOvrRead (secure := b)
  | cmpMismRead _ b => exact h.execCmpMismRead (secure := b)
  | gateViolRead _ b => exact h.execGateViolRead (secure := b)
  | dbgTrrdRead _ b => exact h.execDbgTrrdRead (secure := b)
  | dayNumlRead _ b => exact h.execDayNumlRead (secure := b)
  | timClknsRead _ b => exact h.execTimClknsRead (secure := b)
  | counterReadClear _ b _ => exact h.execCounterReadClear (secure := b)
  | gateRegionWrite _ b _ _ _ => exact h.execGateRegionWrite (secure := b)
  | registerWrite _ b _ _ => exact h.execRegisterWrite (secure := b)
  | telemetryCollection => exact h.execTelemetryCollection
  | logEntryWrite => exact h.execLogEntryWrite
  | traceWrite => exact h.execTraceWrite
  | feedReturn => exact h.execFeedReturn
  | syncMissing => exact h.execSyncMissing
  | peerDelayTimeout => exact h.execPeerDelayTimeout
  | ppsEdgeMissing => exact h.execPpsEdgeMissing
  | irigSignalLoss => exact h.execIrigSignalLoss
  | partnerLoopUnknownRepeat => exact h.execPartnerLoopUnknownRepeat
  | cloneFrameSend => exact h.execCloneFrameSend
  | groupSupplyReturn => exact h.execGroupSupplyReturn
  | pllRelock => exact h.execPllRelock
  | _ => exact h.instruction (by simp [instrForm])

/-! One step. -/

protected theorem Within.step (h : Within s) : WithinNext (step s) := by
  unfold Machine.step
  split
  · exact h
  · exact h.same.exec

/-- Settles O4: in a state of canonical form the bounds are those of every listed engine and pair, which the queue's front command
keeps. -/
theorem everyStepKeepsItsQueuesBounded : Obligations.EveryStepKeepsItsQueuesBounded := by
  intro s t hw hb h
  have hk : WithinNext (step s) := ((bounded_iff_within hw).1 hb).step
  rw [h] at hk
  exact (bounded_iff_within (everyStepKeepsTheCanonicalForm s t hw h)).2 hk


end Sys2Proof.Machine
end

section
/-! SUPPORT. CLRF, logic, selection, constants, shifts, rotation and counts (R55, R76 to R84, R88). -/

namespace Sys2Proof.Machine

theorem clrf_wellFormed {e : Fin 1028} {f : RegForm} (h : wellFormed (.clrf e f) = true) : f.m.getLsbD 3 = false := by
  have hm : f.m.toNat < 8 := by
    simp only [wellFormed, RegForm.fits, Bool.and_eq_true, decide_eq_true_eq] at h
    exact h.2
  exact Nat.testBit_lt_two_pow hm

/-- R88, R72: a CLRF clears the flags it names, where none was set in its tick. -/
theorem clearFlags_unset_at {m : BitVec 4} {land : Nat} {x : Engine} (hV : x.setV ≠ land + 1) (hS : x.setS ≠ land + 1)
    (hD : x.setD ≠ land + 1) : (clearFlags m.toNat land x).fV = (x.fV && !m.getLsbD 0)
      ∧ (clearFlags m.toNat land x).fS = (x.fS && !m.getLsbD 1) ∧ (clearFlags m.toNat land x).fD = (x.fD && !m.getLsbD 2) := by
  have hbits : (m.toNat % 2 == 1) = m.getLsbD 0 ∧ (m.toNat / 2 % 2 == 1) = m.getLsbD 1 ∧ (m.toNat / 4 % 2 == 1) = m.getLsbD 2 := by
    revert m; decide
  obtain ⟨h0, h1, h2⟩ := hbits
  simp [clearFlags, bne_iff_ne.2 hV, bne_iff_ne.2 hS, bne_iff_ne.2 hD, h0, h1, h2]

/-- Settles O9: a CLRF's one effect is in flight or in place, and its landing clears the flags named that were not set in its tick. -/
theorem clrfClearsTheNamedFlags : Obligations.ClrfClearsTheNamedFlags := by
  unfold Obligations.ClrfClearsTheNamedFlags
  refine ⟨fun e f s => clrf_computes e f s fun _ => rfl, fun m land x hV hS hD => ?_, fun e f h => ?_⟩
  · obtain ⟨kV, kS, kD⟩ := clearFlags_unset_at (m := m) hV hS hD
    exact ⟨kV, kS, kD, rfl, rfl⟩
  · exact Bool.eq_false_iff.2 fun hwf => by rw [clrf_wellFormed hwf] at h; cases h

/-! Selection and constants (R77, R83, R84). -/

theorem aluMin_toInt (a b : Word) : (aluMin a b).toInt = min a.toInt b.toInt := by
  unfold aluMin; split <;> omega

theorem aluMax_toInt (a b : Word) : (aluMax a b).toInt = max a.toInt b.toInt := by
  unfold aluMax; split <;> omega

theorem aluLim_toInt (a b d : Word) : (aluLim a b d).toInt = max a.toInt (min d.toInt b.toInt) := by
  rw [aluLim, aluMax_toInt, aluMin_toInt]

/-- R84: the bits below the shifted immediate are clear. -/
theorem aluShi_eq (d : Word) (imm : BitVec 16) : aluShi d imm = (d <<< 16) + imm.zeroExtend 36 := by
  apply BitVec.eq_of_toNat_eq
  simp [aluShi, word, Nat.shiftLeft_eq]
  omega

/-! Shifts and rotation (R55, R79). -/

/-- R55: SHL sets V where the shifted word is not the exact product. -/
theorem resEffects_shl (d : BitVec 6) (a b : Word) : resEffects d (aluShl a b) = setsIf d (a <<< (b.toNat % 256)) 0
    (decide ((a <<< (b.toNat % 256)).toInt ≠ a.toInt * 2 ^ (b.toNat % 256))) := by
  have hflag : (if (a <<< (b.toNat % 256)).toInt = a.toInt * 2 ^ (b.toNat % 256) then none else some (0 : Fin 3)) =
      if decide ((a <<< (b.toNat % 256)).toInt ≠ a.toInt * 2 ^ (b.toNat % 256)) then some 0 else none := by
    simp only [decide_eq_true_eq, ite_not]
  rw [← resEffects_setsIf, ← hflag]
  rfl

theorem shl_getLsbD (a : Word) {n k : Nat} (h : k < 36) : (a <<< n).getLsbD k = (decide (n ≤ k) && a.getLsbD (k - n)) := by
  rw [BitVec.getLsbD_shiftLeft, decide_eq_true h, Bool.true_and]
  congr 1
  simp only [← decide_not, not_lt]

theorem aluShr_toNat (a b : Word) : (aluShr a b).toNat = a.toNat / 2 ^ (b.toNat % 256) := by
  rw [aluShr, BitVec.toNat_ushiftRight, Nat.shiftRight_eq_div_pow, countOf]

theorem aluSar_toInt (a b : Word) : (aluSar a b).toInt = a.toInt / 2 ^ (b.toNat % 256) := by
  rw [aluSar, BitVec.toInt_sshiftRight, Int.shiftRight_eq_div_pow, countOf]; rfl

/-- R55: ROT moves bit k to k + n modulo 36. -/
theorem aluRot_getLsbD (a b : Word) {k : Nat} (h : k < 36) : (aluRot a b).getLsbD ((k + b.toNat % 256) % 36) = a.getLsbD k := by
  rw [aluRot, countOf, BitVec.getLsbD_rotateLeft]
  generalize b.toNat % 256 = n
  by_cases hn : k + n % 36 < 36
  · have hpos : (k + n) % 36 = k + n % 36 := by omega
    rw [hpos, decide_eq_false (by omega), cond_false, decide_eq_true hn, Bool.true_and, show k + n % 36 - n % 36 % 36 = k by omega]
  · have hpos : (k + n) % 36 = k + n % 36 - 36 := by omega
    rw [hpos, decide_eq_true (by omega), cond_true, show 36 - n % 36 % 36 + (k + n % 36 - 36) = k by omega]

theorem roundShift_zero (floor : Bool) (v : Int) : roundShift floor v 0 = v := by
  simp [roundShift]

/-- R79: a word divided by a power of two is a word. -/
theorem aluSrr_toInt (floor : Bool) (a b : Word) : (aluSrr floor a b).toInt = roundShift floor a.toInt (b.toNat % 256) := by
  rw [aluSrr, countOf]
  obtain ⟨halo, hahi⟩ := word_toInt_bounds a
  cases b.toNat % 256 with
  | zero => rw [roundShift_zero]; exact wordI_toInt halo hahi
  | succ n =>
    obtain ⟨hlo, hhi⟩ := roundShift_bounds floor a.toInt (n + 1)
    have htwo : (2 : Int) ≤ 2 ^ (n + 1) := by rw [pow_succ]; linarith [one_le_pow₀ (n := n) (by norm_num : (1 : Int) ≤ 2)]
    have hdlo : -2 ^ 34 ≤ a.toInt / 2 ^ (n + 1) := Int.le_ediv_of_mul_le (by positivity) (by linarith)
    have hdhi : a.toInt / 2 ^ (n + 1) < 2 ^ 34 := Int.ediv_lt_of_lt_mul (by positivity) (by linarith)
    exact wordI_toInt (by omega) (by omega)

/-- Settles O13: each result bit by bit or as an exact integer. -/
theorem logicShiftsAndRotation : Obligations.LogicShiftsAndRotation := by
  unfold Obligations.LogicShiftsAndRotation
  refine ⟨fun e f g s => ⟨?and, ?or, ?xor, ?andn, ?min, ?max, ?sel, ?lim, ?ldi, ?shi⟩,
    fun e f s => ⟨?shl, ?shls, ?shr, ?sar, ?rot, ?srr⟩⟩
  case and => exact computes_reg rfl (fun _ _ => rfl) fun _ x => ⟨_, fun k => BitVec.getLsbD_and, rfl⟩
  case or => exact computes_reg rfl (fun _ _ => rfl) fun _ x => ⟨_, fun k => BitVec.getLsbD_or, rfl⟩
  case xor => exact computes_reg rfl (fun _ _ => rfl) fun _ x => ⟨_, fun k => BitVec.getLsbD_xor, rfl⟩
  case andn =>
    exact computes_reg rfl (fun _ _ => rfl) fun _ x => ⟨_, fun k hk => by
      rw [BitVec.getLsbD_and, BitVec.getLsbD_not, decide_eq_true hk, Bool.true_and], rfl⟩
  case min => exact computes_reg rfl (fun _ _ => rfl) fun _ x => ⟨_, aluMin_toInt _ _, rfl⟩
  case max => exact computes_reg rfl (fun _ _ => rfl) fun _ x => ⟨_, aluMax_toInt _ _, rfl⟩
  case sel => exact computes_reg rfl (fun _ _ => rfl) fun _ x => by simp only [Bool.bne_eq_xor]
  case lim => exact computes_reg rfl (fun _ _ => rfl) fun _ x => ⟨_, aluLim_toInt _ _ _, rfl⟩
  case ldi => exact computes_reg rfl (fun _ _ => rfl) fun _ x => ⟨_, BitVec.toInt_signExtend_of_le (by decide), rfl⟩
  case shi => exact computes_reg rfl (fun _ _ => rfl) fun _ x => by rw [aluShi_eq]
  case shl => exact computes_res rfl (fun _ _ => rfl) fun _ x => ⟨_, fun k hk => shl_getLsbD _ hk, resEffects_shl _ _ _⟩
  case shls => exact computes_res rfl (fun _ _ => rfl) fun _ x => ⟨_, wordI_clamp_toInt _, resEffects_sat ..⟩
  case shr => exact computes_reg rfl (fun _ _ => rfl) fun _ x => ⟨_, aluShr_toNat _ _, rfl⟩
  case sar => exact computes_reg rfl (fun _ _ => rfl) fun _ x => ⟨_, aluSar_toInt _ _, rfl⟩
  case rot => exact computes_reg rfl (fun _ _ => rfl) fun _ x => ⟨_, fun k hk => aluRot_getLsbD _ _ hk, rfl⟩
  case srr => exact computes_reg rfl (fun _ _ => rfl) fun _ x => ⟨_, aluSrr_toInt _ _ _, rfl⟩

/-! Counts (R80). -/

/-- R80: a run of bits equal to the sign, from bit `n - 1` down. -/
theorem runOf_spec (w : Word) (sign : Bool) (n : Nat) : runOf w sign n ≤ n
    ∧ (∀ k < runOf w sign n, w.getLsbD (n - 1 - k) = sign)
    ∧ (runOf w sign n < n → w.getLsbD (n - 1 - runOf w sign n) ≠ sign) := by
  induction n with
  | zero => exact ⟨le_rfl, fun k hk => absurd hk (Nat.not_lt_zero k), fun h => absurd h (lt_irrefl 0)⟩
  | succ n ih =>
    obtain ⟨hle, hrun, hend⟩ := ih
    rw [runOf]
    split
    · next hn =>
      refine ⟨Nat.succ_le_succ hle, fun k hk => ?_, fun h => ?_⟩
      · cases k with
        | zero => exact beq_iff_eq.1 hn
        | succ k => rw [show n + 1 - 1 - (k + 1) = n - 1 - k by omega]; exact hrun k (by omega)
      · rw [show n + 1 - 1 - (runOf w sign n + 1) = n - 1 - runOf w sign n by omega]
        exact hend (Nat.lt_of_succ_lt_succ h)
    · next hn => exact ⟨Nat.zero_le _, fun k hk => absurd hk (Nat.not_lt_zero k), fun _ => fun h => hn (beq_iff_eq.2 h)⟩

theorem countP_range_eq_card (n : Nat) (p : Nat → Bool) :
    (List.range n).countP p = (Finset.univ.filter fun k : Fin n => p k = true).card := by
  rw [Finset.card_filter, Fin.sum_univ_eq_sum_range (fun k => if p k = true then 1 else 0), ← Finset.card_filter,
    ← Nat.count_eq_card_filter_range, Nat.count]
  simp only [Bool.decide_eq_true]

/-- Settles O14: the run of sign bits from the top, and the number of bits set. -/
theorem signBitAndOneBitCounts : Obligations.SignBitAndOneBitCounts := by
  unfold Obligations.SignBitAndOneBitCounts
  refine fun e f s => ⟨?cls, ?popc⟩
  case cls =>
    refine computes_reg rfl (fun _ _ => rfl) fun _ x => ?_
    obtain ⟨hle, hrun, hend⟩ := runOf_spec (opA x f) ((opA x f).getLsbD 35) 35
    refine ⟨_, hle, fun h => ?_, fun k hk => hrun k hk, hend, rfl⟩
    rcases h with h | h <;> rw [h] <;> rfl
  case popc =>
    refine computes_reg rfl (fun _ _ => rfl) fun _ x => ⟨_, ?_, countP_range_eq_card _ _, rfl⟩
    exact (List.countP_le_length).trans (List.length_range).le

end Sys2Proof.Machine
end

section
/-! SUPPORT. The release of a plant engine's instruction whatever it does (R67 to R72, R114, R126): which engines and which parts of the
module it leaves, and what its own engine is afterwards. -/

namespace Sys2Proof.Machine

/-! What leaves all but one engine. -/

/-- The day's tick, its length and the bindings of events are as before. -/
def clockKept (s t : State) : Prop := dayTick t = dayTick s ∧ dayT t = dayT s ∧ t.bindings = s.bindings

theorem clockKept.trans {s t u : State} (h : clockKept s t) (k : clockKept t u) : clockKept s u :=
  ⟨k.1.trans h.1, k.2.1.trans h.2.1, k.2.2.trans h.2.2⟩

theorem clockKept_of_day {s t : State} (h : t.day = s.day) (hb : t.bindings = s.bindings) : clockKept s t :=
  ⟨by unfold dayTick dayT dayL; rw [h], by unfold dayT dayL; rw [h], hb⟩

/-- R150: a breach is none of the sequencer's. -/
theorem breach_clockKept (s : State) : clockKept s (breach s) := by
  unfold breach; split <;> exact ⟨rfl, rfl, rfl⟩

theorem lateWith_clockKept (code m pos sch act detail : Nat) (s : State) : clockKept s (lateWith code m pos sch act detail s) := by
  unfold lateWith
  refine clockKept.trans (clockKept_of_day ?_ ?_) (breach_clockKept _)
  · rw [traceEngine_day, raise_day, lateRecord_day]
  · rw [traceEngine_bindings, raise_bindings, lateRecord_bindings]

theorem countIf_clockKept (c : Bool) (e pos : Nat) (s : State) : clockKept s (countIf c e pos s) := by
  unfold countIf; split
  · exact clockKept_of_day (countLock_day ..) (countLock_bindings ..)
  · exact ⟨rfl, rfl, rfl⟩

/-- From `s`, `t` has been reached by operations of engine `e` that leave the other engines and what a release leaves. -/
structure Spares (e : Nat) (s t : State) : Prop where
  rest : restKept s t
  regs : rising t.regs
  eng : rising t.eng
  others : ∀ j, j ≠ e → engine t j = engine s j
  now : t.now = s.now
  clock : clockKept s t

theorem Spares.refl {e : Nat} {s : State} (h : Canonical s) : Spares e s s :=
  ⟨restKept_of_eng rfl, h.regs, h.eng, fun _ _ => rfl, rfl, rfl, rfl, rfl⟩

theorem Spares.trans {e : Nat} {s t u : State} (h : Spares e s t) (k : Spares e t u) : Spares e s u :=
  ⟨h.rest.trans k.rest, k.regs, k.eng, fun j hj => (k.others j hj).trans (h.others j hj), k.now.trans h.now,
    h.clock.trans k.clock⟩

theorem Spares.modEngine {e : Nat} {f : Engine → Engine} {s t : State} (h : Spares e s t) : Spares e s (modEngine e f t) :=
  ⟨h.rest.trans (restKept_of_eng rfl), h.regs, modEngine_rising _ _ _ h.eng,
    fun j hj => (engine_modEngine_ne _ _ _ _ h.eng hj).trans (h.others j hj), h.now, h.clock⟩

/-- An operation that changes neither an engine nor what a release leaves. -/
theorem Spares.same {e : Nat} {s t u : State} (h : Spares e s t) (heng : u.eng = t.eng) (hregs : rising u.regs) (hrest : restKept t u)
    (hnow : u.now = t.now) (hclock : clockKept t u) : Spares e s u :=
  h.trans ⟨hrest, hregs, heng ▸ h.eng, fun j _ => engine_congr heng j, hnow, hclock⟩

theorem Spares.lateWith {e code pos sch act detail m : Nat} {s t : State} (h : Spares e s t) :
    Spares e s (lateWith code m pos sch act detail t) :=
  h.same (lateWith_eng ..) (lateWith_rising _ _ _ _ _ _ _ h.regs) (lateWith_restKept _ _ _ _ _ _ _ h.regs) (lateWith_now ..)
    (lateWith_clockKept ..)

theorem Spares.lateEvent {e code pos sch act m : Nat} {s t : State} (h : Spares e s t) : Spares e s (lateEvent code m pos sch act t) :=
  h.lateWith

theorem Spares.lateRelease {e delta : Nat} {s t : State} (h : Spares e s t) : Spares e s (lateRelease e delta t) := by
  unfold Machine.lateRelease
  extract_lets x
  split
  · exact h.lateEvent
  · exact h

theorem Spares.countIf {e pos : Nat} {c : Bool} {s t : State} (h : Spares e s t) : Spares e s (countIf c e pos t) := by
  have hreg : rising (Machine.countIf c e pos t).regs := by
    unfold Machine.countIf countLock
    extract_lets x
    split
    · split
      · split
        · exact h.regs
        · exact raise_rising _ _ _ h.regs
      · exact h.regs
    · exact h.regs
  exact h.trans ⟨countIf_restKept _ _ _ _ h.regs, hreg, countIf_rising _ _ _ _ h.eng, fun j hj => countIf_engine_ne _ _ _ _ _ h.eng hj,
    countIf_now .., countIf_clockKept ..⟩

theorem Spares.released {e r : Nat} {s t : State} (h : Spares e s t) : Spares e s (released e r t) := h.modEngine

theorem traceEngine_restKept {e ty kind value pos : Nat} {s : State} (h : rising s.regs) :
    restKept s (traceEngine e ty kind value pos s) := by
  have hreg (a : Nat) (ha : a ∉ [fabStatus, dbgTrStat]) : reg (traceEngine e ty kind value pos s) a = reg s a :=
    traceEngine_reg _ _ _ _ _ _ h _ (List.ne_of_not_mem_cons (List.not_mem_of_not_mem_cons ha))
  exact ⟨traceEngine_mem .., traceEngine_chk .., traceEngine_ts .., traceEngine_priv .., traceEngine_sup .., traceEngine_reqs ..,
    traceEngine_ports .., traceEngine_time .., traceEngine_lio .., traceEngine_sig .., traceEngine_saf .., traceEngine_boot ..,
    traceEngine_mst .., traceEngine_pending .., fun a ha _ _ => hreg a ha⟩

theorem Spares.traceEngine {e m ty kind value pos : Nat} {s t : State} (h : Spares e s t) :
    Spares e s (traceEngine m ty kind value pos t) :=
  h.same (traceEngine_eng ..) (traceEngine_rising _ _ _ _ _ _ h.regs) (traceEngine_restKept h.regs) (traceEngine_now ..)
    (clockKept_of_day (traceEngine_day ..) (traceEngine_bindings ..))

theorem Spares.traceRest {e m ty value pos : Nat} {s t : State} (h : Spares e s t) : Spares e s (traceRest m ty value pos t) := by
  unfold Machine.traceRest
  split
  · exact h.traceEngine
  · exact h

/-- R211: a transaction joins a list of the pair's, or none where the engine is in no joined pair. -/
theorem addTx_cases (e kind pos : Nat) (fields : List Word) (s : State) : addTx e kind pos fields s = s
    ∨ ∃ f : Pair → Pair, addTx e kind pos fields s = modPair (e / 2) f s ∧ ∀ q, (f q).joined = q.joined := by
  unfold addTx
  extract_lets x
  split
  · exact .inr ⟨_, rfl, fun _ => rfl⟩
  · split
    · exact .inr ⟨_, rfl, fun _ => rfl⟩
    · exact .inl rfl

theorem Spares.addTx {e m kind pos : Nat} {fields : List Word} {s t : State} (h : Spares e s t) :
    Spares e s (addTx m kind pos fields t) := by
  rcases addTx_cases m kind pos fields t with hx | ⟨f, hx, -⟩
  · rw [hx]; exact h
  · rw [hx]
    exact h.same rfl h.regs ⟨rfl, rfl, rfl, rfl, rfl, rfl, rfl, rfl, rfl, rfl, rfl, rfl, rfl, rfl, fun _ _ _ _ => rfl⟩ rfl ⟨rfl, rfl, rfl⟩

theorem addTx_eng (e kind pos : Nat) (fields : List Word) (s : State) : (addTx e kind pos fields s).eng = s.eng := by
  unfold addTx; split
  · rfl
  · split <;> rfl

theorem Spares.bump {e : Nat} {s t : State} (h : Spares e s t) : Spares e s (bump t) :=
  h.same rfl h.regs ⟨rfl, rfl, rfl, rfl, rfl, rfl, rfl, rfl, rfl, rfl, rfl, rfl, rfl, rfl, fun _ _ _ _ => rfl⟩ rfl ⟨rfl, rfl, rfl⟩

/-! The engine that a release leaves. -/

/-- R114: an engine with an instruction counted in its open bracket, which the 32nd closes. -/
def bracketed (c : Bool) (x : Engine) : Engine :=
  if c && x.lockOpen then
    if x.lockCnt + 1 < 32 then { x with lockCnt := x.lockCnt + 1 } else { x with lockOpen := false, lockCnt := 0 }
  else x

theorem engine_countIf {c : Bool} {e pos : Nat} {s : State} (h : rising s.eng) :
    engine (countIf c e pos s) e = bracketed c (engine s e) := by
  unfold countIf bracketed countLock
  extract_lets x
  cases c
  · rfl
  · simp only [Bool.true_and, if_true]
    split
    · split
      · exact engine_setEngine_same _ _ _ h
      · exact (engine_congr (raise_eng _ _ _) e).trans (engine_setEngine_same _ _ _ h)
    · rfl

theorem bracketed_closed {c : Bool} {x : Engine} (h : x.lockOpen = false) : bracketed c x = x := by
  simp [bracketed, h]

theorem bracketed_arch (c : Bool) (x : Engine) : archKept x (bracketed c x) := by
  unfold bracketed
  split
  · split <;> exact archKept.refl _
  · exact archKept.refl _

theorem bracketed_timing (c : Bool) (x : Engine) : (bracketed c x).fly = x.fly ∧ (bracketed c x).pos = x.pos ∧ (bracketed c x).loops = x.loops
    ∧ (bracketed c x).rest = x.rest ∧ (bracketed c x).ord = x.ord := by
  unfold bracketed
  split
  · split <;> exact ⟨rfl, rfl, rfl, rfl, rfl⟩
  · exact ⟨rfl, rfl, rfl, rfl, rfl⟩

/-- R71, R133, R158: the unit is taken, and the result, or an operation's completion, is in flight. -/
def Issue.put (k : Issue) (now pos : Nat) (held : List Nat) (fs : List Effect) (x : Engine) : Engine :=
  if fs.isEmpty && !k.completes then takeUnit now held k.unit x
  else addLanding (now + k.dur) (takeUnit now held k.unit x).ord k.cls pos k.cap fs (takeUnit now held k.unit x) k.entry

theorem execBody_eq (e : Nat) (k : Issue) (s : State) : execBody e k s =
    modEngine e (k.put s.now (engine s e).pos (portHeld s e) (k.body (engine s e) s).2) (k.body (engine s e) s).1 := rfl

theorem Spares.execBody {e : Nat} {k : Issue} {s t : State} (h : Spares e s (k.body (engine t e) t).1) : Spares e s (execBody e k t) := by
  rw [execBody_eq]; exact h.modEngine

theorem Issue.put_arch (k : Issue) (now pos : Nat) (held : List Nat) (fs : List Effect) (x : Engine) :
    archKept x (k.put now pos held fs x) := by
  unfold Issue.put
  split
  · exact takeUnit_arch _ _ _ _
  · exact takeUnit_arch _ _ _ _

theorem takeUnit_lock (now : Nat) (held : List Nat) (u : UnitKind) (x : Engine) : (takeUnit now held u x).lockOpen = x.lockOpen
    ∧ (takeUnit now held u x).lockCnt = x.lockCnt := by cases u <;> exact ⟨rfl, rfl⟩

theorem Issue.put_timing (k : Issue) (now pos : Nat) (held : List Nat) (fs : List Effect) (x : Engine) :
    (k.put now pos held fs x).pos = x.pos ∧ (k.put now pos held fs x).loops = x.loops ∧ (k.put now pos held fs x).rest = x.rest
      ∧ (k.put now pos held fs x).lockOpen = x.lockOpen ∧ (k.put now pos held fs x).lockCnt = x.lockCnt := by
  obtain ⟨hpos, hloops, hrest⟩ := takeUnit_timing now held k.unit x
  obtain ⟨hopen, hcnt⟩ := takeUnit_lock now held k.unit x
  unfold Issue.put
  split <;> exact ⟨hpos, hloops, hrest, hopen, hcnt⟩

/-- R71: beside what was in flight there is the result, where there is one or the operation completes. -/
theorem Issue.mem_put_fly {k : Issue} {now pos : Nat} {held : List Nat} {fs : List Effect} {x : Engine} {l : Landing} :
    l ∈ (k.put now pos held fs x).fly ↔ l ∈ x.fly ∨ ((fs.isEmpty && !k.completes) = false
      ∧ l = { land := now + k.dur, ord := (takeUnit now held k.unit x).ord, cls := k.cls, word := pos, effs := fs, shared := false,
              capture := k.cap, due := now + k.dur, entry := k.entry }) := by
  unfold Issue.put
  split
  · next h => rw [takeUnit_fly]; simp [h]
  · next h => rw [addLanding_fly, takeUnit_fly]; simp [h, or_comm]

theorem booked_loops (now r : Nat) (x : Engine) : (booked now r x).loops = (advance x.loops (x.pos + 1)).2.1 := by
  unfold booked countStep stepPos
  extract_lets a y
  split <;> split <;> rfl

theorem booked_fly (now r : Nat) (x : Engine) {l : Landing} (h : l ∈ x.fly) : l ∈ (booked now r x).fly := by
  rw [booked, countStep_fly]; exact stepPos_fly _ _ _ h

/-- R101: outside any loop the position is the next plan word. -/
theorem advanceIn_of_ne {n : Nat} {ls : List LoopEnt} {p : Nat} (h : ∀ l ∈ ls.head?, p ≠ l.start + l.len) :
    advanceIn n ls p = (p % n, ls, []) := by
  cases ls with
  | nil => rfl
  | cons l ls => rw [advanceIn, if_neg (h l rfl)]

/-- R67 to R72: what a ready plant instruction whose condition holds leaves of its engine `e` and of the rest, from what its body makes. -/
theorem exec_plantReady {s : State} {e : Fin 1028} {i : Instr} {delta : Nat} {neg : Bool} {pred : BitVec 3} {k : Issue}
    (hx : exec i s = release e i delta neg pred k s) (hr : plantReady s e i delta k.unit)
    (hc : condHolds (engine s e) neg pred = true) :
    exec i s = .next (released e (if k.wait then s.now else (engine s e).prev + delta)
      (countIf true e (engine s e).pos (execBody e k (lateRelease e delta s)))) := by
  rw [hx, release, if_pos hr.1, plantRelease_ready _ _ _ _ _ _ _ hr hc]; rfl

/-- And under a false condition. -/
theorem exec_plantReady_false {s : State} {e : Fin 1028} {i : Instr} {delta : Nat} {neg : Bool} {pred : BitVec 3} {k : Issue}
    (hx : exec i s = release e i delta neg pred k s) (hr : plantReady s e i delta k.unit)
    (hc : condHolds (engine s e) neg pred = false) :
    exec i s = .next (released e (if k.wait then s.now else (engine s e).prev + delta)
      (countIf k.counts e (engine s e).pos (execBody e k.idle (lateRelease e delta s)))) := by
  rw [hx, release, if_pos hr.1, plantRelease_false _ _ _ _ _ _ _ hr hc]

section
variable {s : State} {e delta r : Nat} {c : Bool} {k : Issue} {t v : State}

theorem engine_lateRelease (j : Nat) : engine (lateRelease e delta s) j = engine s j := engine_congr (lateRelease_eng _ _ _) j

/-- The engine of a released instruction, from the one its body leaves. -/
theorem engine_release (hv : v = (k.body (engine s e) (lateRelease e delta s)).1) (hrise : rising v.eng) (hnow : v.now = s.now)
    (ht : t = released e r (countIf c e (engine s e).pos (execBody e k (lateRelease e delta s)))) :
    engine t e = booked s.now r (bracketed c (k.put s.now (engine s e).pos (portHeld (lateRelease e delta s) e)
      (k.body (engine s e) (lateRelease e delta s)).2 (engine v e))) := by
  have hb : execBody e k (lateRelease e delta s) = modEngine e (k.put s.now (engine s e).pos (portHeld (lateRelease e delta s) e)
      (k.body (engine s e) (lateRelease e delta s)).2) v := by
    rw [execBody_eq, engine_lateRelease, lateRelease_now, ← hv]
  have hrm := modEngine_rising e (k.put s.now (engine s e).pos (portHeld (lateRelease e delta s) e)
      (k.body (engine s e) (lateRelease e delta s)).2) v hrise
  rw [ht, released_eq, engine_modEngine_same _ _ _ (countIf_rising _ _ _ _ (hb ▸ hrm)), engine_countIf (hb ▸ hrm), countIf_now, hb,
    engine_modEngine_same _ _ _ hrise, modEngine_now, hnow]

theorem engine_release_ne {fs : List Effect} (hb : k.body (engine s e) (lateRelease e delta s) = (v, fs)) (hrise : rising v.eng)
    (ht : t = released e r (countIf c e (engine s e).pos (execBody e k (lateRelease e delta s)))) {j : Nat} (hj : j ≠ e) :
    engine t j = engine v j := by
  have hbody : execBody e k (lateRelease e delta s) = modEngine e (k.put (lateRelease e delta s).now (engine s e).pos
      (portHeld (lateRelease e delta s) e) fs) v := by rw [execBody_eq, engine_lateRelease, hb]
  have hbr : rising (execBody e k (lateRelease e delta s)).eng := hbody ▸ modEngine_rising _ _ _ hrise
  rw [ht, released_eq, engine_modEngine_ne _ _ _ _ (countIf_rising _ _ _ _ hbr) hj, countIf_engine_ne _ _ _ _ _ hbr hj, hbody,
    engine_modEngine_ne _ _ _ _ hrise hj]

/-- What a release leaves of the rest, where its body does. -/
theorem spares_release (hv : Spares e s (k.body (engine s e) (lateRelease e delta s)).1)
    (ht : t = released e r (countIf c e (engine s e).pos (execBody e k (lateRelease e delta s)))) : Spares e s t := by
  have hb : Spares e s (execBody e k (lateRelease e delta s)) := Spares.execBody (by rw [engine_lateRelease]; exact hv)
  rw [ht]
  exact hb.countIf.released

/-- A body that changes nothing but its own engine leaves the pairs, and a punctual release leaves all but the engines. -/
theorem releaseFrame_of {fs : List Effect} (hb : k.body (engine s e) (lateRelease e delta s) = (v, fs)) (hv : Spares e s v)
    (hframe : v = { lateRelease e delta s with eng := v.eng })
    (hlock : punctual s e delta → (engine v e).lockOpen = true → (engine v e).lockCnt < 31)
    (ht : t = released e r (countIf c e (engine s e).pos (execBody e k (lateRelease e delta s)))) : releaseFrame s t e delta := by
  have hspare := spares_release (by rw [hb]; exact hv) ht
  have hbody : execBody e k (lateRelease e delta s) = modEngine e (k.put (lateRelease e delta s).now (engine s e).pos
      (portHeld (lateRelease e delta s) e) fs) v := by rw [execBody_eq, engine_lateRelease, hb]
  have hframe' : execBody e k (lateRelease e delta s) = { lateRelease e delta s with eng := (execBody e k (lateRelease e delta s)).eng } := by
    rw [hbody]; exact onlyEng_trans hframe rfl
  refine ⟨hspare.others, ?_, hspare.rest, fun hp => ?_⟩
  · rw [ht, released_pairs, countIf_pairs, hframe']; exact lateRelease_pairs ..
  · obtain ⟨-, -, -, hopen, hcnt⟩ := k.put_timing (lateRelease e delta s).now (engine s e).pos (portHeld (lateRelease e delta s) e) fs
      (engine v e)
    have hc := countIf_open c e (engine s e).pos (execBody e k (lateRelease e delta s)) (by
      rw [hbody, engine_modEngine_same _ _ _ hv.eng, hopen, hcnt]; exact hlock hp)
    rw [lateRelease_punctual e delta s hp.1] at hc hframe' ht
    rw [ht]
    exact onlyEng_trans (onlyEng_trans hframe' hc) rfl

end

/-- R101 to R103: how the position and loop stack `y` has stands after the instruction. -/
def Engine.step (y : Engine) : Nat × List LoopEnt × List Effect := advance y.loops (y.pos + 1)

/-- The engine that a release leaves, from the engine `y` that the body of its instruction `k` leaves, and the result `fs`. -/
structure Booked (s : State) (e r : Nat) (c : Bool) (k : Issue) (fs : List Effect) (y z : Engine) : Prop where
  arch : archKept y z
  loops : z.loops = y.step.2.1
  pos : z.pos = y.step.1
  prev : z.prev = r
  rest : z.rest = y.rest
  lockOpen : z.lockOpen = (bracketed c y).lockOpen
  lockCnt : z.lockCnt = (bracketed c y).lockCnt
  kept : ∀ l ∈ y.fly, l ∈ z.fly
  result : (fs.isEmpty && !k.completes) = false →
    ∃ l ∈ z.fly, l.land = s.now + k.dur ∧ l.cls = k.cls ∧ l.word = (engine s e).pos ∧ l.capture = k.cap ∧ l.effs = fs
  fly : ∀ l ∈ z.fly, l ∈ y.fly ∨ ((fs.isEmpty && !k.completes) = false ∧ l.land = s.now + k.dur ∧ l.word = (engine s e).pos ∧ l.effs = fs)
    ∨ (l.land = s.now + 1 ∧ l.effs = y.step.2.2)

theorem bracketed_lock {c : Bool} {x y : Engine} (ho : y.lockOpen = x.lockOpen) (hc : y.lockCnt = x.lockCnt) :
    (bracketed c y).lockOpen = (bracketed c x).lockOpen ∧ (bracketed c y).lockCnt = (bracketed c x).lockCnt := by
  unfold bracketed
  rw [ho, hc]
  split
  · split <;> exact ⟨rfl, rfl⟩
  · exact ⟨ho, hc⟩

/-- R67 to R72: what a release leaves of its engine. -/
theorem release_booked {s t v : State} {e delta r : Nat} {c : Bool} {k : Issue} {fs : List Effect} {y : Engine}
    (hb : k.body (engine s e) (lateRelease e delta s) = (v, fs)) (hrise : rising v.eng) (hnow : v.now = s.now) (hy : engine v e = y)
    (ht : t = released e r (countIf c e (engine s e).pos (execBody e k (lateRelease e delta s)))) :
    Booked s e r c k fs y (engine t e) := by
  have heng := engine_release (by rw [hb]) hrise hnow ht
  rw [hb, hy] at heng
  obtain ⟨kpos, kloops, krest, kopen, kcnt⟩ := k.put_timing s.now (engine s e).pos (portHeld (lateRelease e delta s) e) fs y
  have karch := k.put_arch s.now (engine s e).pos (portHeld (lateRelease e delta s) e) fs y
  have kfly := fun l => Issue.mem_put_fly (k := k) (now := s.now) (pos := (engine s e).pos)
    (held := portHeld (lateRelease e delta s) e) (fs := fs) (x := y) (l := l)
  generalize k.put s.now (engine s e).pos (portHeld (lateRelease e delta s) e) fs y = z at heng kpos kloops krest kopen kcnt karch kfly
  obtain ⟨cfly, cpos, cloops, crest, -⟩ := bracketed_timing c z
  obtain ⟨copen, ccnt⟩ := bracketed_lock (c := c) kopen kcnt
  obtain ⟨bopen, bcnt, bpos, bprev, brest⟩ := booked_timing s.now r (bracketed c z)
  have hstep : advance (bracketed c z).loops ((bracketed c z).pos + 1) = y.step := by rw [cloops, cpos, kloops, kpos]; rfl
  constructor
  case arch => rw [heng]; exact karch.trans ((bracketed_arch c z).trans (booked_arch _ _ _))
  case loops => rw [heng, booked_loops, hstep]
  case pos => rw [heng, bpos, hstep]
  case prev => rw [heng, bprev]
  case rest => rw [heng, brest, crest, krest]
  case lockOpen => rw [heng, bopen, copen]
  case lockCnt => rw [heng, bcnt, ccnt]
  case kept => exact fun l hl => heng ▸ booked_fly _ _ _ (cfly ▸ (kfly l).2 (.inl hl))
  case result => exact fun h => ⟨_, heng ▸ booked_fly _ _ _ (cfly ▸ (kfly _).2 (.inr ⟨h, rfl⟩)), rfl, rfl, rfl, rfl, rfl⟩
  case fly =>
    intro l hl
    rw [heng] at hl
    rcases mem_booked_fly hl with hl | hl
    · rw [cfly] at hl
      rcases (kfly l).1 hl with hl | ⟨h, rfl⟩
      · exact .inl hl
      · exact .inr (.inl ⟨h, rfl, rfl, rfl⟩)
    · exact .inr (.inr (hstep ▸ hl))

/-- R67 to R72: a due plant instruction whose condition holds, from the state `v` and the result `fs` that its body leaves. -/
theorem exec_booked {s v : State} {e : Fin 1028} {i : Instr} {delta : Nat} {neg : Bool} {pred : BitVec 3} {k : Issue} {fs : List Effect}
    (hx : exec i s = release e i delta neg pred k s) (hr : plantReady s e i delta k.unit)
    (hc : condHolds (engine s e) neg pred = true) (hb : k.body (engine s e) (lateRelease e delta s) = (v, fs)) (hv : Spares e s v) :
    ∃ t, exec i s = .next t ∧ Spares e s t
      ∧ Booked s e (if k.wait then s.now else (engine s e).prev + delta) true k fs (engine v e) (engine t e)
      ∧ t = released e (if k.wait then s.now else (engine s e).prev + delta)
        (countIf true e (engine s e).pos (execBody e k (lateRelease e delta s))) :=
  ⟨_, exec_plantReady hx hr hc, spares_release (by rw [hb]; exact hv) rfl, release_booked hb hv.eng hv.now rfl rfl, rfl⟩

/-- R132, R158: an operation whose body leaves the engine's registers, flags, queue, position, loops and results in flight completes. -/
theorem Booked.completes {s t : State} {e delta r : Nat} {c : Bool} {k : Issue} {y : Engine} (h : Booked s e r c k [] y (engine t e))
    (harch : archKept (engine s e) y) (hfly : y.fly = (engine s e).fly) (hstep : y.step = (engine s e).step)
    (hrest : y.rest = (engine s e).rest) (hk : k.completes = true) (hdur : k.dur = 1) (hframe : releaseFrame s t e delta) :
    completes s t e delta r := by
  refine ⟨⟨harch.trans h.arch, hframe, by rw [h.pos, hstep]; rfl, h.prev, by rw [h.rest, hrest], fun l hl => h.kept l (hfly ▸ hl),
    fun l hl => ?_⟩, ?_⟩
  · rcases h.fly l hl with hl | ⟨-, hland, hword, heff⟩ | ⟨hland, heff⟩
    · exact .inl (hfly ▸ hl)
    · exact .inr (.inl ⟨hdur ▸ hland, heff, hword⟩)
    · exact .inr (.inr ⟨hland, by rw [heff, hstep]; rfl⟩)
  · obtain ⟨l, hl, hland, -, hword, -, heff⟩ := h.result (by rw [hk]; rfl)
    exact ⟨l, hl, hdur ▸ hland, heff, hword⟩

end Sys2Proof.Machine
end

section
/-! SUPPORT. A supervisor engine's instruction that ends no loop's body and stands in no bracket (R101, R114, R115). -/

namespace Sys2Proof.Machine

/-- A supervisor engine after an instruction that brings its counter to `p` with its loop stack at `ls`. -/
def supMoved (p : Nat) (ls : List LoopEnt) (x : Engine) : Engine :=
  countStep { x with ord := x.ord + 1, entry := none, loops := ls, pos := p, fly := [] }

theorem supMoved_keeps (p : Nat) (ls : List LoopEnt) (x : Engine) : archKept x (supMoved p ls x)
    ∧ (supMoved p ls x).lockOpen = x.lockOpen ∧ (supMoved p ls x).loops = ls ∧ (supMoved p ls x).rest = x.rest := by
  unfold supMoved countStep
  split <;> exact ⟨archKept.refl _, rfl, rfl, rfl⟩

/-- R101, R114, R115: the bookkeeping of an instruction that writes no loop's index and stands in no bracket. -/
theorem supReleased_eq {v : State} {e pos p : Nat} {c : Bool} {ls : List LoopEnt} (h : rising v.eng)
    (ha : advanceSup (engine v e).loops (supOf v e).pc.toNat = (p, ls, [])) (hlock : (engine v e).lockOpen = false) :
    supReleased e pos c v = modSup e (fun y => { y with pc := word p }) (modEngine e (supMoved p ls) v) := by
  have hrun : supReleased e pos c v = countIf c e pos (modSup e (fun y => { y with pc := word p }) (modEngine e (supMoved p ls) v)) := by
    unfold supReleased
    rw [ha]
    rfl
  have hopen : (engine (modSup e (fun y => { y with pc := word p }) (modEngine e (supMoved p ls) v)) e).lockOpen = false := by
    rw [engine_congr (modSup_eng ..), engine_modEngine_same _ _ _ h, (supMoved_keeps _ _ _).2.1, hlock]
  rw [hrun]
  unfold countIf countLock
  simp [hopen]

/-- What a supervisor instruction's command answers, from the state `v` after its effects: its engine and its supervisor registers, and
every part of the module that neither keeps a tick's accesses nor an engine's. -/
structure SupEnds (e : Nat) (p : Nat) (ls : List LoopEnt) (v t : State) : Prop where
  eng : engine t e = supMoved p ls (engine v e)
  sup : supOf t e = { supOf v e with pc := word p }
  others : ∀ j, j ≠ e → engine t j = engine v j ∧ supOf t j = supOf v j
  frame : t = { v with eng := t.eng, sup := t.sup, owed := t.owed, tk := t.tk }

/-- R115: a ready supervisor instruction that stands in no bracket executes, and the counter moves on. -/
theorem exec_supEnds {s u v : State} {e : Fin 1028} {i : Instr} {delta : Nat} {neg : Bool} {pred : BitVec 3} {k : Issue} {p : Nat}
    {ls : List LoopEnt} (hx : exec i s = release e i delta neg pred k s) (hr : supReady s e i u)
    (hv : supExecute e neg pred k u = v) (he : rising v.eng) (hs : rising v.sup) (hw : rising (engine v e).w)
    (ht : v.tk.touched = u.tk.touched) (ha : advanceSup (engine v e).loops (supOf v e).pc.toNat = (p, ls, []))
    (hlock : (engine v e).lockOpen = false) : ∃ t, exec i s = .next t ∧ SupEnds e p ls v t := by
  obtain ⟨c, hexec⟩ := exec_supReady hx hr hv he hs hw ht
  rw [supReleased_eq he ha hlock] at hexec
  have hhold : holdBanks e (engine s e).lockOpen (modSup e (fun y => { y with pc := word p }) (modEngine e (supMoved p ls) v)) =
      modSup e (fun y => { y with pc := word p }) (modEngine e (supMoved p ls) v) := by
    rw [holdBanks, engine_congr (modSup_eng ..), engine_modEngine_same _ _ _ he, (supMoved_keeps _ _ _).2.1, hlock, Bool.and_false]
    rfl
  rw [hhold] at hexec
  exact ⟨_, hexec, engine_modEngine_same _ _ _ he, tabGet_tabSet_same _ _ _ _ hs,
    fun j hj => ⟨engine_modEngine_ne _ _ _ _ he hj, tabGet_tabSet_other _ _ _ _ _ _ hs hj⟩, rfl⟩

/-- R115: what a supervisor instruction executes: its body on the engine as it begins, and its effects at once. -/
theorem supExecute_eq {u : State} (h : Canonical u) {e : Nat} {neg : Bool} {pred : BitVec 3} {k : Issue} {b : State × List Effect}
    (hb : (if condHolds (engine u e) neg pred = true then k.body else k.onFalse) (supEngine (supOf u e).pc.toNat (engine u e))
      (supBegun e u) = b) : supExecute e neg pred k u = applyAll e u.now (supOf u e).pc.toNat b.2 b.1 := by
  have hexec : supExecute e neg pred k u = applyAll e u.now (engine (supBegun e u) e).pos
      ((if condHolds (engine (supBegun e u) e) neg pred then k.body else k.onFalse) (engine (supBegun e u) e) (supBegun e u)).2
      ((if condHolds (engine (supBegun e u) e) neg pred then k.body else k.onFalse) (engine (supBegun e u) e) (supBegun e u)).1 := rfl
  have hcond : condHolds (supEngine (supOf u e).pc.toNat (engine u e)) neg pred = condHolds (engine u e) neg pred := rfl
  rw [hexec, engine_supBegun h, hcond, hb]
  rfl

theorem supBegun_rising {u : State} (h : Canonical u) (e : Nat) : rising (supBegun e u).eng ∧ rising (supBegun e u).sup :=
  ⟨modEngine_rising _ _ _ h.eng, tabSet_rising _ _ _ _ h.sup⟩

theorem supOf_supBegun_ne {u : State} (h : Canonical u) {e j : Nat} (hj : j ≠ e) : supOf (supBegun e u) j = supOf u j :=
  tabGet_tabSet_other _ _ _ _ _ _ h.sup hj

/-- R115: a supervisor instruction without a result whose body leaves `v`: outside any loop and bracket, the counter moves on. -/
theorem sup_ends {s u v : State} {e : Fin 1028} {i : Instr} {delta : Nat} {neg : Bool} {pred : BitVec 3} {k : Issue}
    (hx : exec i s = release e i delta neg pred k s) (hr : supReady s e i u) (hw : u.wf)
    (hc : condHolds (engine u e) neg pred = true)
    (hb : k.body (supEngine (supOf u e).pc.toNat (engine u e)) (supBegun e u) = (v, [])) (heng : v.eng = (supBegun e u).eng)
    (hs : rising v.sup) (ht : v.tk.touched = u.tk.touched) (hl : (engine u e).loops = []) (hlock : (engine u e).lockOpen = false) :
    ∃ t, exec i s = .next t ∧ SupEnds e (supOf v e).pc.toNat [] v t := by
  have hcan := (wf_iff_canonical u).1 hw
  have he : engine v e = supEngine (supOf u e).pc.toNat (engine u e) := (engine_congr heng e).trans (engine_supBegun hcan e)
  have hadv : advanceSup (engine v e).loops (supOf v e).pc.toNat = ((supOf v e).pc.toNat, [], []) := by
    rw [he, show (supEngine (supOf u e).pc.toNat (engine u e)).loops = [] from hl]
    exact congrArg (·, [], []) (Nat.mod_eq_of_lt (supOf v e).pc.isLt)
  exact exec_supEnds hx hr (supExecute_eq hcan (by rw [hc, if_pos rfl, hb])) (heng ▸ (supBegun_rising hcan e).1) hs
    (by rw [he]; exact engine_w hcan e) ht hadv (by rw [he]; exact hlock)

/-- R115: where the supervisor registers alone have changed. -/
theorem SupEnds.leaves {u v t : State} {e : Nat} (h : SupEnds e (supOf v e).pc.toNat [] v t) (hcan : Canonical u)
    (heng : v.eng = (supBegun e u).eng) (hsup : ∀ j, j ≠ e → supOf v j = supOf u j) (hmem : v.mem = u.mem) (hpriv : v.priv = u.priv)
    (hreqs : v.reqs = u.reqs) : sysLeaves u t e (supOf v e) := by
  obtain ⟨hte, hts, hothers, hframe⟩ := h
  refine ⟨?_, fun j hj => ?_, ?_, ?_, ?_, ?_⟩
  · rw [hts, word, BitVec.ofNat_toNat, BitVec.setWidth_eq]
  · obtain ⟨hje, hjs⟩ := hothers j hj
    exact ⟨hjs.trans (hsup j hj), hje.trans ((engine_congr heng j).trans (engine_supBegun_ne hcan hj))⟩
  · rw [hte, engine_congr heng, engine_supBegun hcan]
    exact archKept.trans (y := supEngine (supOf u e).pc.toNat (engine u e)) (archKept.refl _) (supMoved_keeps _ _ _).1
  · rw [hframe]; exact hmem
  · rw [hframe]; exact hpriv
  · rw [hframe]; exact hreqs

theorem addTx_sup {e : Nat} (he : 1024 ≤ e) (kind pos : Nat) (fields : List Word) (s : State) : addTx e kind pos fields s = s := by
  have hl : leadsJoined s e = false := by simp [leadsJoined]; omega
  have ht : trailsJoined s e = false := by simp [trailsJoined]; omega
  simp [addTx, hl, ht]

end Sys2Proof.Machine
end

section
/-! SUPPORT. LOOP (R101 to R104): the body it opens, its first index, and the count of its releases. -/

namespace Sys2Proof.Machine

/-- R101: the body that a LOOP at engine `x`'s position opens. -/
def loopOf (dead : Bool) (g : ImmForm) (x : Engine) : LoopEnt :=
  { start := x.pos + 1, len := g.imm.toNat % 64 + 1, left := g.imm.toNat / 64, idx := g.d.toNat, k := 0, dead := dead, ord := x.ord }

/-- An engine with a LOOP's body open. -/
def loopOpened (dead : Bool) (g : ImmForm) (x : Engine) : Engine := { x with loops := loopOf dead g x :: x.loops }

theorem openLoop_eq (e : Nat) (dead : Bool) (g : ImmForm) (s : State) : openLoop e dead g s =
    modEngine e (fun x => if x.loops.length < 4 then loopOpened dead g x else x) s := rfl

theorem engine_openLoop {e : Nat} {dead : Bool} {g : ImmForm} {s : State} (h : rising s.eng) (hl : (engine s e).loops.length < 4) :
    engine (openLoop e dead g s) e = loopOpened dead g (engine s e) := by
  rw [openLoop_eq, engine_modEngine_same _ _ _ h, if_pos hl]

/-- R101: a LOOP's body has an instruction at least, so its first word does not end it. -/
theorem loopOpened_step (dead : Bool) (g : ImmForm) (x : Engine) :
    (loopOpened dead g x).step = ((x.pos + 1) % 4096, loopOf dead g x :: x.loops, []) :=
  advanceIn_of_ne fun l hl => by cases hl; simp [loopOf, loopOpened]

/-- R101, R104: what a LOOP's release leaves, whatever its condition. -/
theorem loop_released {s t : State} {e delta r : Nat} {c dead : Bool} {g : ImmForm} {k : Issue} {fs : List Effect} (hw : s.wf)
    (hl : (engine s e).loops.length < 4) (hb : k.body = fun _ s => (openLoop e dead g s, fs))
    (ht : t = released e r (countIf c e (engine s e).pos (execBody e k (lateRelease e delta s)))) :
    archKept (engine s e) (engine t e) ∧ (engine t e).loops = loopOf dead g (engine s e) :: (engine s e).loops
      ∧ (engine t e).pos = ((engine s e).pos + 1) % 4096 ∧ releaseFrame s t e delta
      ∧ (fs ≠ [] → ∃ l ∈ (engine t e).fly, l.land = s.now + k.dur ∧ l.effs = fs) := by
  have hcan := (wf_iff_canonical s).1 hw
  have hlate : rising (lateRelease e delta s).eng := by rw [lateRelease_eng]; exact hcan.eng
  have hopen : engine (openLoop e dead g (lateRelease e delta s)) e = loopOpened dead g (engine s e) := by
    rw [engine_openLoop hlate (by rw [engine_lateRelease]; exact hl), engine_lateRelease]
  have hv : k.body (engine s e) (lateRelease e delta s) = (openLoop e dead g (lateRelease e delta s), fs) := by rw [hb]
  have hspare : Spares e s (openLoop e dead g (lateRelease e delta s)) := (Spares.refl hcan).lateRelease.modEngine
  have hbook := release_booked hv hspare.eng hspare.now hopen ht
  refine ⟨hbook.arch, by rw [hbook.loops, loopOpened_step], by rw [hbook.pos, loopOpened_step],
    releaseFrame_of hv hspare rfl (fun hp ho => ?_) ht, fun hne => ?_⟩
  · rw [hopen] at ho ⊢
    exact hp.2 ho
  · obtain ⟨l, hfly, hland, -, -, -, heff⟩ := hbook.result (by rw [List.isEmpty_eq_false_iff.2 hne]; rfl)
    exact ⟨l, hfly, hland, heff⟩

/-- R101: a LOOP's release. -/
def loopIssue (e : Nat) (g : ImmForm) : Issue :=
  { body := fun _ s => (openLoop e false g s, if g.d = 0 then [] else [.reg g.d.toNat 0]),
    onFalse := fun _ s => (openLoop e true g s, []) }

theorem exec_loop (e : Fin 1028) (g : ImmForm) (s : State) :
    exec (.loop e g) s = release e (.loop e g) g.delta.toNat g.neg g.pred (loopIssue e g) s := rfl

/-- R101, R103, R104: a due LOOP of a plant engine completes. -/
theorem loop_plant {e : Fin 1028} {g : ImmForm} {s : State} (hw : s.wf) (hr : plantReady s e (.loop e g) g.delta.toNat .none)
    (hl : (engine s e).loops.length < 4) : ∃ t, exec (.loop e g) s = .next t ∧ archKept (engine s e) (engine t e)
      ∧ (engine t e).loops = loopOf (!condHolds (engine s e) g.neg g.pred) g (engine s e) :: (engine s e).loops
      ∧ (engine t e).pos = ((engine s e).pos + 1) % 4096 ∧ releaseFrame s t e g.delta.toNat
      ∧ (g.d ≠ 0 → condHolds (engine s e) g.neg g.pred = true →
        ∃ l ∈ (engine t e).fly, l.land = s.now + 1 ∧ l.effs = [.reg g.d.toNat 0]) := by
  cases hc : condHolds (engine s e) g.neg g.pred
  · obtain ⟨harch, hloops, hpos, hframe, -⟩ := loop_released (k := (loopIssue e g).idle) (dead := true) hw hl rfl rfl
    exact ⟨_, exec_plantReady_false (exec_loop e g s) hr hc, harch, hloops, hpos, hframe, fun _ h => by cases h⟩
  · obtain ⟨harch, hloops, hpos, hframe, hland⟩ := loop_released (k := loopIssue e g) (dead := false) hw hl rfl rfl
    refine ⟨_, exec_plantReady (exec_loop e g s) hr hc, harch, hloops, hpos, hframe, fun hd _ => ?_⟩
    rw [if_neg hd] at hland
    exact hland (List.cons_ne_nil _ _)

/-! On a supervisor engine. -/

/-- R115: the first index is in place at once. -/
def indexSet (g : ImmForm) (c : Bool) (x : Engine) : Engine := if c = true ∧ g.d ≠ 0 then wSet g.d.toNat 0 x else x

theorem indexSet_keeps (g : ImmForm) (c : Bool) (x : Engine) : (indexSet g c x).loops = x.loops ∧ (indexSet g c x).lockOpen = x.lockOpen := by
  unfold indexSet wSet
  split
  · split <;> exact ⟨rfl, rfl⟩
  · exact ⟨rfl, rfl⟩

theorem indexSet_rising {g : ImmForm} {c : Bool} {x : Engine} (h : rising x.w) : rising (indexSet g c x).w := by
  unfold indexSet; split
  · exact wSet_rising _ _ _ h
  · exact h

theorem wGet_indexSet {g : ImmForm} {c : Bool} {x : Engine} (h : rising x.w) {r : Nat} (hr : r % 64 ≠ 0) :
    wGet (indexSet g c x) r = if g.d.toNat = r % 64 ∧ c = true then 0 else wGet x r := by
  have hd : g.d.toNat % 64 = g.d.toNat := Nat.mod_eq_of_lt g.d.isLt
  unfold indexSet
  split
  · next hcd => rw [wGet_wSet _ _ _ _ h hr, hd]; simp only [hcd.1, and_true]
  · next hcd =>
    refine (if_neg ?_).symm
    rintro ⟨hdr, hc⟩
    refine hcd ⟨hc, fun h0 => hr ?_⟩
    rw [← hdr, h0]; rfl

/-- R101, R115: a supervisor's LOOP as it executes: the body is open, and the index in place. -/
theorem loop_executes {u : State} (h : Canonical u) {e : Nat} {g : ImmForm} (hl : (engine u e).loops.length < 4) {c : Bool}
    (hc : condHolds (engine u e) g.neg g.pred = c) : ∃ v, supExecute e g.neg g.pred (loopIssue e g) u = v
      ∧ engine v e = indexSet g c (loopOpened (!c) g (supEngine (supOf u e).pc.toNat (engine u e)))
      ∧ v = { supBegun e u with eng := v.eng } ∧ rising v.eng ∧ ∀ j, j ≠ e → engine v j = engine u j := by
  obtain ⟨hrise, -⟩ := supBegun_rising h e
  have hopen (dead : Bool) : engine (openLoop e dead g (supBegun e u)) e =
      loopOpened dead g (supEngine (supOf u e).pc.toNat (engine u e)) := by
    rw [engine_openLoop hrise (by rw [engine_supBegun h]; exact hl), engine_supBegun h]
  have hr (dead : Bool) : rising (openLoop e dead g (supBegun e u)).eng := modEngine_rising _ _ _ hrise
  have hne (dead : Bool) {j : Nat} (hj : j ≠ e) : engine (openLoop e dead g (supBegun e u)) j = engine u j :=
    (engine_modEngine_ne _ _ _ _ hrise hj).trans (engine_supBegun_ne h hj)
  have hrun {b : State × List Effect} (hb : (if c = true then (loopIssue e g).body else (loopIssue e g).onFalse)
      (supEngine (supOf u e).pc.toNat (engine u e)) (supBegun e u) = b) :
      supExecute e g.neg g.pred (loopIssue e g) u = applyAll e u.now (supOf u e).pc.toNat b.2 b.1 :=
    supExecute_eq h (by rw [hc]; exact hb)
  cases c
  · refine ⟨openLoop e true g (supBegun e u), hrun rfl, ?_, rfl, hr true, fun j hj => hne true hj⟩
    exact (hopen true).trans (if_neg fun hf => Bool.false_ne_true hf.1).symm
  · by_cases hd : g.d = 0
    · refine ⟨openLoop e false g (supBegun e u), (hrun rfl).trans ?_, ?_, rfl, hr false, fun j hj => hne false hj⟩
      · show applyAll _ _ _ (if g.d = 0 then [] else [.reg g.d.toNat 0]) _ = _
        rw [if_pos hd]; rfl
      · exact (hopen false).trans (if_neg fun hf => hf.2 hd).symm
    · refine ⟨modEngine e (wSet g.d.toNat 0) (openLoop e false g (supBegun e u)), (hrun rfl).trans ?_, ?_, rfl,
        modEngine_rising _ _ _ (hr false), fun j hj => (engine_modEngine_ne _ _ _ _ (hr false) hj).trans (hne false hj)⟩
      · show applyAll _ _ _ (if g.d = 0 then [] else [.reg g.d.toNat 0]) _ = _
        rw [if_neg hd]; rfl
      · rw [engine_modEngine_same _ _ _ (hr false), hopen]
        exact (if_pos ⟨rfl, hd⟩).symm

theorem word_succ_toNat (w : Word) : word ((w + 1).toNat % 2 ^ 36) = w + 1 := by
  rw [Nat.mod_eq_of_lt (w + 1).isLt, word, BitVec.ofNat_toNat, BitVec.setWidth_eq]

/-- R101, R104, R115: a supervisor engine's LOOP completes. -/
theorem loop_sup {e : Fin 1028} {g : ImmForm} {s u : State} (hw : u.wf) (hr : supReady s e (.loop e g) u)
    (hl : (engine u e).loops.length < 4) (hlock : (engine u e).lockOpen = false) {c : Bool}
    (hc : condHolds (engine u e) g.neg g.pred = c) : ∃ t, exec (.loop e g) s = .next t
      ∧ (engine t e).loops = loopOf (!c) g (supEngine (supOf u e).pc.toNat (engine u e)) :: (engine u e).loops
      ∧ (supOf t e).pc = (supOf u e).pc + 1
      ∧ (∀ r, r % 64 ≠ 0 → wGet (engine t e) r = if g.d.toNat = r % 64 ∧ c = true then 0 else wGet (engine u e) r)
      ∧ t.mem = u.mem ∧ t.reqs = u.reqs ∧ ∀ j, j ≠ e.val → engine t j = engine u j := by
  have hcan := (wf_iff_canonical u).1 hw
  obtain ⟨v, hrun, heng, hframe, hrise, hothers⟩ := loop_executes hcan hl hc
  generalize hx : loopOpened (!c) g (supEngine (supOf u e).pc.toNat (engine u e)) = x at heng
  have hxw : rising x.w := by rw [← hx]; exact engine_w hcan e
  obtain ⟨hiloops, hiopen⟩ := indexSet_keeps g c x
  have hsup : supOf v e = { supOf u e with pc := (supOf u e).pc + 1 } := by rw [hframe]; exact supOf_supBegun hcan e
  have hloops : (engine v e).loops = loopOf (!c) g (supEngine (supOf u e).pc.toNat (engine u e)) :: (engine u e).loops := by
    rw [heng, hiloops, ← hx]; rfl
  have hadv : advanceSup (engine v e).loops (supOf v e).pc.toNat = (((supOf u e).pc + 1).toNat % 2 ^ 36,
      loopOf (!c) g (supEngine (supOf u e).pc.toNat (engine u e)) :: (engine u e).loops, []) := by
    rw [hloops, hsup]
    refine advanceIn_of_ne fun l hl => ?_
    cases hl
    show ((supOf u e).pc + 1).toNat ≠ (supOf u e).pc.toNat + 1 + (g.imm.toNat % 64 + 1)
    bv_omega
  have hvs : rising v.sup := by rw [hframe]; exact (supBegun_rising hcan e).2
  obtain ⟨t, hexec, hend⟩ := exec_supEnds (exec_loop e g s) hr hrun hrise hvs (by rw [heng]; exact indexSet_rising hxw)
    (by rw [hframe]; rfl) hadv (by rw [heng, hiopen, ← hx]; exact hlock)
  obtain ⟨hteng, htsup, htothers, htframe⟩ := hend
  obtain ⟨⟨hregs, -⟩, -, hmloops, -⟩ := supMoved_keeps (((supOf u e).pc + 1).toNat % 2 ^ 36)
    (loopOf (!c) g (supEngine (supOf u e).pc.toNat (engine u e)) :: (engine u e).loops) (engine v e)
  refine ⟨t, hexec, by rw [hteng, hmloops], ?_, fun r hr0 => ?_, by rw [htframe, hframe]; rfl, by rw [htframe, hframe]; rfl,
    fun j hj => (htothers j hj).1.trans (hothers j hj)⟩
  · rw [htsup]; exact word_succ_toNat _
  · have hwg : wGet (engine t e) r = wGet (engine v e) r := by rw [hteng, wGet, hregs, wGet]
    rw [hwg, heng, wGet_indexSet hxw hr0, ← hx]
    rfl

/-! The count of a body's releases (R101, R102). -/

/-- Within its body a loop's instructions move the position on one by one. -/
theorem positions_within {x : LoopEnt} {ls : List LoopEnt} (hlt : x.start + x.len < 4096) {j : Nat} (hj : j < x.len) (n : Nat) :
    positions (j + n) (x :: ls) x.start = positions n (x :: ls) (x.start + j) := by
  induction j generalizing n with
  | zero => rw [Nat.zero_add, Nat.add_zero]
  | succ j ih =>
    rw [show j + 1 + n = j + (n + 1) by omega, ih (by omega), positions,
      show advance (x :: ls) (x.start + j + 1) = ((x.start + j + 1) % 4096, x :: ls, []) from
        advanceIn_of_ne fun l hl => by cases hl; omega,
      Nat.mod_eq_of_lt (by omega)]
    rfl

/-- One iteration brings the position to the end of the body. -/
theorem positions_iteration {x : LoopEnt} {ls : List LoopEnt} (hlt : x.start + x.len < 4096) (hpos : 0 < x.len) (n : Nat) :
    positions (x.len + n) (x :: ls) x.start = positions n (advance (x :: ls) (x.start + x.len)).2.1
      (advance (x :: ls) (x.start + x.len)).1 := by
  rw [show x.len + n = x.len - 1 + (n + 1) by omega, positions_within hlt (by omega), positions,
    show x.start + (x.len - 1) + 1 = x.start + x.len by omega]

/-- R101, R102: c times b releases bring the position past a body of b instructions repeated c times. -/
theorem positions_loop {x : LoopEnt} {ls : List LoopEnt} (hlt : x.start + x.len < 4096) (hpos : 0 < x.len)
    (hne : ∀ y ∈ ls, y.start + y.len ≠ x.start + x.len) :
    positions (x.len * (x.left + 1)) (x :: ls) x.start = (x.start + x.len, ls) := by
  induction hleft : x.left generalizing x with
  | zero =>
    have hadv : advance (x :: ls) (x.start + x.len) = (x.start + x.len, ls, []) := by
      rw [advance, advanceIn, if_pos rfl, if_neg (by omega), advanceIn_of_ne fun l hl => (hne l (List.mem_of_mem_head? hl)).symm,
        Nat.mod_eq_of_lt hlt]
    rw [show x.len * (0 + 1) = x.len + 0 by omega, positions_iteration hlt hpos, hadv]
    rfl
  | succ n ih =>
    have hadv : (advance (x :: ls) (x.start + x.len)).1 = x.start
        ∧ (advance (x :: ls) (x.start + x.len)).2.1 = { x with left := n, k := x.k + 1 } :: ls := by
      rw [advance, advanceIn, if_pos rfl, if_pos (by omega), hleft]
      exact ⟨rfl, rfl⟩
    rw [show x.len * (n + 1 + 1) = x.len + x.len * (n + 1) by ring, positions_iteration hlt hpos, hadv.1, hadv.2]
    exact ih (x := { x with left := n, k := x.k + 1 }) hlt hpos hne rfl

/-- Settles O19: the release of a LOOP on either kind of engine, and by induction on the iterations left the count of its releases. -/
theorem loopRunsItsBody : Obligations.LoopRunsItsBody := by
  unfold Obligations.LoopRunsItsBody
  exact ⟨fun e g s hw hr hl => loop_plant hw hr hl, fun e g s u hw hr hl hlock => loop_sup hw hr hl hlock rfl,
    fun x ls hlt hpos hne => positions_loop hlt hpos hne⟩

end Sys2Proof.Machine
end

section
/-! SUPPORT. NOP, LOCK, UNLOCK, DONE and TMARK (R100, R112 to R114, R576). -/

namespace Sys2Proof.Machine

/-- R70: a NOP completes. -/
theorem nop_completes {e : Fin 1028} {f : RegForm} {s : State} (hw : s.wf) (hc : condHolds (engine s e) f.neg f.pred = true)
    (hr : plantReady s e (.nop e f) f.delta.toNat .none) :
    ∃ t, exec (.nop e f) s = .next t ∧ completes s t e f.delta.toNat ((engine s e).prev + f.delta.toNat) := by
  have hspare := (Spares.refl (e := e) ((wf_iff_canonical s).1 hw)).lateRelease (delta := f.delta.toNat)
  obtain ⟨t, hexec, -, hbook, ht⟩ := exec_booked (k := { body := nothing }) rfl hr hc rfl hspare
  have heng := engine_lateRelease (s := s) (e := e) (delta := f.delta.toNat) e
  rw [heng] at hbook
  exact ⟨t, hexec, hbook.completes (archKept.refl _) rfl rfl rfl rfl rfl
    (releaseFrame_of (v := lateRelease e f.delta.toNat s) rfl hspare rfl (fun hp ho => by rw [heng] at ho ⊢; exact hp.2 ho) ht)⟩

/-! Brackets (R113, R114). -/

/-- An engine with its bracket opened or closed, nothing counted. -/
def lockSet (o : Bool) (x : Engine) : Engine := { x with lockOpen := o, lockCnt := 0 }

theorem freeBanks_plant {e : Nat} (he : e < 1024) (s : State) : freeBanks e s = s := if_pos he

/-- R113: a LOCK that opens a bracket, and an UNLOCK: what is released beside the bracket. -/
theorem lockSet_booked {e : Fin 1028} {i : Instr} {delta : Nat} {neg o : Bool} {pred : BitVec 3} {k : Issue} {s : State} (hw : s.wf)
    (hx : exec i s = release e i delta neg pred k s) (hr : plantReady s e i delta k.unit) (hc : condHolds (engine s e) neg pred = true)
    (hb : k.body (engine s e) (lateRelease e delta s) = (freeBanks e (modEngine e (lockSet o) (lateRelease e delta s)), [])) :
    ∃ t, exec i s = .next t ∧ Spares e s t
      ∧ Booked s e (if k.wait then s.now else (engine s e).prev + delta) true k [] (lockSet o (engine s e)) (engine t e)
      ∧ releaseFrame s t e delta := by
  rw [freeBanks_plant hr.1] at hb
  have hlate := (Spares.refl (e := e) ((wf_iff_canonical s).1 hw)).lateRelease (delta := delta)
  have hspare := hlate.modEngine (f := lockSet o)
  obtain ⟨t, hexec, hts, hbook, ht⟩ := exec_booked hx hr hc hb hspare
  have heng : engine (modEngine e (lockSet o) (lateRelease e delta s)) e = lockSet o (engine s e) := by
    rw [engine_modEngine_same _ _ _ hlate.eng, engine_lateRelease]
  rw [heng] at hbook
  refine ⟨t, hexec, hts, hbook, releaseFrame_of hb hspare rfl (fun _ _ => ?_) ht⟩
  rw [heng]
  exact Nat.succ_pos _

/-! DONE (R112). -/

/-- R112: the engine rests with an empty loop stack. -/
def doneRest (x : Engine) : Engine := { x with rest := .done, loops := [] }

theorem restDone_eq (e : Nat) (s : State) : restDone e s =
    traceRest e 1 2 (engine s e).pos (addTx e 5 (engine s e).pos [] (modEngine e doneRest s)) := rfl

theorem done_released {e : Fin 1028} {f : RegForm} {s : State} (hw : s.wf) (hc : condHolds (engine s e) f.neg f.pred = true)
    (hr : plantReady s e (.done e f) f.delta.toNat .none) : ∃ t, exec (.done e f) s = .next t ∧ archKept (engine s e) (engine t e)
      ∧ (engine t e).rest = .done ∧ (engine t e).loops = [] ∧ (∀ j, j ≠ e.val → engine t j = engine s j) ∧ restKept s t := by
  have hlate := (Spares.refl (e := e) ((wf_iff_canonical s).1 hw)).lateRelease (delta := f.delta.toNat)
  have hspare : Spares e s (restDone e (lateRelease e f.delta.toNat s)) := by
    rw [restDone_eq]; exact hlate.modEngine.addTx.traceRest
  have heng : engine (restDone e (lateRelease e f.delta.toNat s)) e = doneRest (engine s e) := by
    rw [restDone_eq, engine_congr (traceRest_eng ..), engine_congr (addTx_eng ..), engine_modEngine_same _ _ _ hlate.eng,
      engine_lateRelease]
  obtain ⟨t, hexec, hts, hbook, -⟩ := exec_booked (k := { lands := false, body := fun _ s => (if e.val < 1024 then restDone e s else s, []) })
    rfl hr hc (congrArg (·, []) (if_pos hr.1)) hspare
  rw [heng] at hbook
  exact ⟨t, hexec, archKept.trans (y := doneRest (engine s e)) (archKept.refl _) hbook.arch, hbook.rest, hbook.loops, hts.others, hts.rest⟩

/-! TMARK (R100, R576). -/

theorem addTx_trace (e kind pos : Nat) (fields : List Word) (s : State) : (addTx e kind pos fields s).trace = s.trace := by
  rcases addTx_cases e kind pos fields s with h | ⟨f, h, -⟩
  · rw [h]
  · rw [h]; rfl

/-- R576: the comparator's transactions are no part of what makes a record. -/
theorem addTx_traced (e kind pos : Nat) (fields : List Word) (s : State) (h : rising s.pairs) :
    traced (addTx e kind pos fields s) e = traced s e
      ∧ ∀ ty k v p, traceWords (addTx e kind pos fields s) ty k e v p = traceWords s ty k e v p := by
  rcases addTx_cases e kind pos fields s with hs | ⟨f, hs, hf⟩
  · rw [hs]; exact ⟨rfl, fun _ _ _ _ => rfl⟩
  · have hj : (pairOf (modPair (e / 2) f s) (e / 2)).joined = (pairOf s (e / 2)).joined := by
      rw [modPair, setPair, pairOf, tabGet_tabSet_same _ _ _ _ h, hf]
    rw [hs]
    refine ⟨?_, fun _ _ _ _ => rfl⟩
    unfold traced
    rw [hj]
    rfl

theorem traceEngine_trace_of_traced {e ty kind value pos : Nat} {s : State} (h : traced s e = true) (hroom : s.trace.intake.length < 1024) :
    (traceEngine e ty kind value pos s).trace.intake = s.trace.intake ++ [traceWords s ty kind e value pos] := by
  rw [traceEngine, if_pos h, traceRec, if_pos hroom]; rfl

theorem traceEngine_untraced {e ty kind value pos : Nat} {s : State} (h : traced s e = false) : traceEngine e ty kind value pos s = s := by
  rw [traceEngine, if_neg (by rw [h]; exact Bool.false_ne_true)]

/-- R575, R576: what TMARK puts in the trace. -/
def marked (e : Nat) (f : RegForm) (x : Engine) (s : State) : State :=
  traceEngine e 0 f.m.toNat (opA x f).toNat x.pos (addTx e 3 x.pos [word f.m.toNat, opA x f] s)

theorem marked_trace {e : Nat} {f : RegForm} {x : Engine} {s : State} (h : rising s.pairs) :
    (traced s e = true → s.trace.intake.length < 1024 → (marked e f x s).trace.intake = s.trace.intake
      ++ [traceWords s 0 f.m.toNat e (opA x f).toNat x.pos]) ∧ (traced s e = false → (marked e f x s).trace = s.trace) := by
  obtain ⟨htraced, hwords⟩ := addTx_traced e 3 x.pos [word f.m.toNat, opA x f] s h
  have htrace := addTx_trace e 3 x.pos [word f.m.toNat, opA x f] s
  constructor
  · intro ht hroom
    rw [marked, traceEngine_trace_of_traced (htraced.trans ht) (by rw [htrace]; exact hroom), htrace, hwords]
  · intro ht
    rw [marked, traceEngine_untraced (htraced.trans ht), htrace]

theorem released_countIf_trace (e r pos : Nat) (c : Bool) (s : State) : (released e r (countIf c e pos s)).trace = s.trace := by
  unfold countIf; split
  · exact countLock_trace ..
  · rfl

theorem tmark_plant {e : Fin 1028} {f : RegForm} {s : State} (hw : s.wf) (hc : condHolds (engine s e) f.neg f.pred = true)
    (hr : plantReady s e (.tmark e f) f.delta.toNat .none) (hp : punctual s e f.delta.toNat) :
    ∃ t, exec (.tmark e f) s = .next t ∧ archKept (engine s e) (engine t e) ∧ restKept s t
      ∧ (∀ j, j ≠ e.val → engine t j = engine s j)
      ∧ (traced s e = true → s.trace.intake.length < 1024 → t.trace.intake = s.trace.intake
        ++ [traceWords s 0 f.m.toNat e.val (opA (engine s e) f).toNat (engine s e).pos])
      ∧ (traced s e = false → t.trace = s.trace) := by
  have hcan := (wf_iff_canonical s).1 hw
  have hspare : Spares e s (marked e f (engine s e) (lateRelease e f.delta.toNat s)) :=
    (Spares.refl hcan).lateRelease.addTx.traceEngine
  have heng : engine (marked e f (engine s e) (lateRelease e f.delta.toNat s)) e = engine s e := by
    rw [marked, engine_congr (traceEngine_eng ..), engine_congr (addTx_eng ..), engine_lateRelease]
  obtain ⟨t, hexec, hts, hbook, ht⟩ := exec_booked (k := { body := fun x s => (marked e f x s, []) }) rfl hr hc rfl hspare
  rw [heng] at hbook
  have htrace : t.trace = (marked e f (engine s e) s).trace := by
    rw [ht, released_countIf_trace, lateRelease_punctual _ _ _ hp.1]; rfl
  obtain ⟨hmark, hnone⟩ := marked_trace (e := e) (f := f) (x := engine s e) hcan.pairs
  exact ⟨t, hexec, hbook.arch, hts.rest, hts.others, fun h hroom => (congrArg Trace.intake htrace).trans (hmark h hroom),
    fun h => htrace.trans (hnone h)⟩

/-! On a supervisor engine. -/

/-- R576: no supervisor engine is traced. -/
theorem marked_sup {e : Nat} (he : 1024 ≤ e) (f : RegForm) (x : Engine) (s : State) : marked e f x s = s := by
  rw [marked, addTx_sup he, traceEngine_untraced]
  simp only [traced, Bool.and_eq_false_iff, decide_eq_false_iff_not]
  exact .inl (.inl (.inr (by omega)))

theorem tmark_sup {e : Fin 1028} {f : RegForm} {s u : State} (hr : supReady s e (.tmark e f) u) (hw : u.wf)
    (hc : condHolds (engine u e) f.neg f.pred = true) (hl : (engine u e).loops = []) (hlock : (engine u e).lockOpen = false) :
    ∃ t, exec (.tmark e f) s = .next t ∧ sysLeaves u t e { supOf u e with pc := (supOf u e).pc + 1 } ∧ t.trace = u.trace := by
  have hcan := (wf_iff_canonical u).1 hw
  obtain ⟨t, hexec, hend⟩ := sup_ends (k := { body := fun x s => (marked e f x s, []) }) rfl hr hw hc
    (congrArg (·, []) (marked_sup hr.1 f _ _)) rfl (supBegun_rising hcan e).2 rfl hl hlock
  have hleaves := hend.leaves hcan rfl (fun j hj => supOf_supBegun_ne hcan hj) rfl rfl rfl
  rw [supOf_supBegun hcan] at hleaves
  exact ⟨t, hexec, hleaves, by rw [hend.frame]; rfl⟩

/-- Settles O10: what the body of each leaves of its engine is released. -/
theorem bracketsDoneAndMarkers : Obligations.BracketsDoneAndMarkers := by
  unfold Obligations.BracketsDoneAndMarkers
  refine ⟨fun e f s hw hc => ⟨nop_completes hw hc, fun hr hlock => ?_, fun hr hlock => ?_, fun hr hlock => ?_, done_released hw hc⟩,
    fun e f s => ⟨tmark_plant, fun u hr hw hc hl hlock => tmark_sup hr hw hc hl hlock⟩⟩
  case refine_1 =>
    obtain ⟨t, hexec, hts, hbook, -⟩ := lockSet_booked (o := true) (k := { counts := true, body := _ }) hw rfl hr hc
      (congrArg (·, []) (if_neg (by rw [hlock]; exact Bool.false_ne_true)))
    exact ⟨t, hexec, hbook.arch, hbook.lockOpen, hbook.lockCnt, hts.others, hts.rest⟩
  case refine_2 =>
    obtain ⟨t, hexec, hts, hbook, -⟩ := lockSet_booked (o := false) (k := { counts := true, body := _ }) hw rfl hr hc rfl
    exact ⟨t, hexec, hbook.arch, hbook.lockOpen, hts.others, hts.rest⟩
  case refine_3 =>
    obtain ⟨t, hexec, hts, hbook, hframe⟩ := lockSet_booked (o := false) (k := { counts := true, body := _ }) hw rfl hr hc rfl
    exact ⟨t, hexec, hbook.completes (archKept.refl _) rfl rfl rfl rfl rfl hframe⟩

end Sys2Proof.Machine
end

section
/-! SUPPORT. Waits, how they end, and time stamps (R106, R107, R110, R126 to R129). -/

namespace Sys2Proof.Machine

/-! An input of an engine that leads no joined pair is not captured (R208). -/

theorem captureDue_unpaired {e n due pos ord : Nat} {inp : Input} {s : State} (h : leadsJoined s e = false) :
    captureDue e n due pos ord inp s = s := by
  unfold captureDue; rw [h]; rfl

theorem capture_unpaired {e n ord : Nat} {inp : Input} {s : State} (h : leadsJoined s e = false) : capture e n ord inp s = s :=
  captureDue_unpaired h

theorem addTx_unpaired {e kind pos : Nat} {fields : List Word} {s : State} (hl : leadsJoined s e = false)
    (ht : trailsJoined s e = false) : addTx e kind pos fields s = s := by
  simp [addTx, hl, ht]

theorem leadsJoined_congr {s t : State} (h : t.pairs = s.pairs) (e : Nat) : leadsJoined t e = leadsJoined s e := by
  unfold leadsJoined pairOf; rw [h]

theorem trailsJoined_congr {s t : State} (h : t.pairs = s.pairs) (e : Nat) : trailsJoined t e = trailsJoined s e := by
  unfold trailsJoined pairOf; rw [h]

/-! The outcome of a wait (R107). -/

theorem waitResult_keeps (now ord : Nat) (ev : Bool) (d m : Nat) (w : Word) (x : Engine) :
    (waitResult now ord ev d m w x).rest = x.rest ∧ (waitResult now ord ev d m w x).evq = x.evq
      ∧ (waitResult now ord ev d m w x).prev = x.prev := by
  unfold waitResult noteLanded pSet wSet
  split <;> split <;> exact ⟨rfl, rfl, rfl⟩

theorem wGet_waitResult {now ord : Nat} {ev : Bool} {d m : Nat} {w : Word} {x : Engine} (h : rising x.w) {r : Nat} (hr : r % 64 ≠ 0) :
    wGet (waitResult now ord ev d m w x) r = if d % 64 = r % 64 then (if ev then w else 0) else wGet x r := by
  have hp (y : Engine) : (noteLanded now ord [.reg d 0, .pred m ev] (pSet m ev y)).w = y.w := by
    unfold noteLanded pSet; split <;> rfl
  rw [← wGet_wSet d r _ x h hr, waitResult, wGet, hp, wGet]

theorem pGet_waitResult {now ord : Nat} {ev : Bool} {d m : Nat} {w : Word} {x : Engine} {n : Nat} (hn : n % 8 ≠ 0) :
    pGet (waitResult now ord ev d m w x) n = if m % 8 = n % 8 then ev else pGet x n := by
  have hw : pGet (wSet d (if ev then w else 0) x) n = pGet x n := by unfold wSet; split <;> rfl
  rw [← hw, ← pGet_pSet m n ev _ hn]
  rfl

/-! How waits end. -/

theorem engine_endWait {e t cause : Nat} {s : State} (h : rising s.eng) :
    engine (endWait e t cause s) e = { engine s e with rest := .run, prev := t } := by
  rw [endWait, engine_congr (traceRest_eng ..), engine_modEngine_same _ _ _ h]

theorem Spares.endWait {e t' cause : Nat} {s t : State} (h : Spares e s t) : Spares e s (endWait e t' cause t) :=
  h.modEngine.traceRest

theorem capture_endWait {e n ord t cause : Nat} {inp : Input} {s u : State} (hp : u.pairs = s.pairs) (h : leadsJoined s e = false) :
    capture e n ord inp (endWait e t cause u) = endWait e t cause u := by
  refine capture_unpaired ((leadsJoined_congr ?_ e).trans h)
  rw [Machine.endWait, traceRest_pairs]; exact hp

section
variable {s : State} {e : Fin 1028}

/-- R106: a wait for a day tick ends at that tick. -/
theorem waitT_ends (hw : s.wf) (ht : trailsJoined s e = false) (hl : leadsJoined s e = false) {n : Nat}
    (hrest : (engine s e).rest = .waitT n) :
    (n ≤ s.now → ∃ t, exec (.waittTargetReached e) s = .next t ∧ (engine t e).rest = .run ∧ (engine t e).prev = n
      ∧ archKept (engine s e) (engine t e) ∧ (∀ j, j ≠ e.val → engine t j = engine s j) ∧ restKept s t)
    ∧ (s.now < n → exec (.waittTargetReached e) s = .next s) := by
  have hcan := (wf_iff_canonical s).1 hw
  have hx : exec (.waittTargetReached e) s = if n ≤ s.now ∧ !trailsJoined s e then
      .next (capture e 1 ((engine s e).ord - 1) .waitT (endWait e n 0 s)) else .next s := by
    show execWaittTargetReached e s = _
    unfold execWaittTargetReached
    rw [hrest]
  constructor
  · intro hn
    have hspare := (Spares.refl (e := e) hcan).endWait (t' := n) (cause := 0)
    have heng := engine_endWait (e := e) (t := n) (cause := 0) hcan.eng
    rw [if_pos ⟨hn, by rw [ht]; rfl⟩, capture_endWait rfl hl] at hx
    exact ⟨_, hx, by rw [heng], by rw [heng], by rw [heng]; exact archKept.refl _, hspare.others, hspare.rest⟩
  · intro hn
    rw [hx, if_neg fun h => absurd h.1 (by omega)]

/-- R107, R128: an engine that the outcome of its wait for an event reaches, its queue and counters as `f` leaves them. -/
theorem outcome_ends (hcan : Canonical s) (f : Engine → Engine) (ev : Bool) (d m : Nat) (v : Word) (hf : rising (f (engine s e)).w)
    (hpart : ∀ r, wGet (f (engine s e)) r = wGet (engine s e) r ∧ pGet (f (engine s e)) r = pGet (engine s e) r) (n cause : Nat) {t : State}
    (ht : t = endWait e n cause (modEngine e (fun x => waitResult s.now (x.ord - 1) ev d m v (f x)) s)) :
    (engine t e).rest = .run ∧ (engine t e).prev = n
      ∧ (∀ r, r % 64 ≠ 0 → wGet (engine t e) r = if d % 64 = r % 64 then (if ev then v else 0) else wGet (engine s e) r)
      ∧ (∀ k, k % 8 ≠ 0 → pGet (engine t e) k = if m % 8 = k % 8 then ev else pGet (engine s e) k)
      ∧ (engine t e).evq = (f (engine s e)).evq ∧ (∀ j, j ≠ e.val → engine t j = engine s j) ∧ restKept s t := by
  have hspare : Spares e s t := ht ▸ (Spares.refl hcan).modEngine.endWait
  have heng : engine t e = { waitResult s.now ((engine s e).ord - 1) ev d m v (f (engine s e)) with rest := .run, prev := n } := by
    rw [ht, engine_endWait (modEngine_rising _ _ _ hcan.eng), engine_modEngine_same _ _ _ hcan.eng]
  refine ⟨by rw [heng], by rw [heng], fun r hr => ?_, fun k hk => ?_, ?_, hspare.others, hspare.rest⟩
  · rw [← (hpart r).1, ← wGet_waitResult (now := s.now) (ord := (engine s e).ord - 1) (m := m) hf hr, heng]; rfl
  · rw [← (hpart k).2, ← pGet_waitResult (now := s.now) (ord := (engine s e).ord - 1) (d := d) (w := v) hk, heng]; rfl
  · obtain ⟨-, hevq, -⟩ := waitResult_keeps s.now ((engine s e).ord - 1) ev d m v (f (engine s e))
    rw [heng]; exact hevq

theorem dropEvent_length {any : Bool} {src latest : Nat} {v : EvEntry} (h : findEvent s e any src latest = some v) :
    (dropEvent s e any src latest (engine s e)).evq.length + 1 = (engine s e).evq.length := by
  have hmem := List.mem_of_find?_eq_some h
  have hpos := List.length_pos_of_mem hmem
  rw [dropEvent, List.length_eraseP_of_mem hmem (List.find?_some h)]
  omega

/-- R107, R128: a wait for an event ends on it, 14 ticks after it came. -/
theorem waitEv_wakes (hw : s.wf) (ht : trailsJoined s e = false) (hl : leadsJoined s e = false) {any : Bool} {src dl d m : Nat}
    (hrest : (engine s e).rest = .waitEv any src dl d m) {v : EvEntry} (hv : findEvent s e any src dl = some v) :
    (v.tick + 14 ≤ s.now → ∃ t, exec (.eventWake e) s = .next t ∧ (engine t e).rest = .run ∧ (engine t e).prev = v.tick + 14
      ∧ (∀ r, r % 64 ≠ 0 → wGet (engine t e) r = if d % 64 = r % 64 then v.word else wGet (engine s e) r)
      ∧ (∀ n, n % 8 ≠ 0 → pGet (engine t e) n = if m % 8 = n % 8 then true else pGet (engine s e) n)
      ∧ (engine t e).evq.length + 1 = (engine s e).evq.length ∧ (∀ j, j ≠ e.val → engine t j = engine s j) ∧ restKept s t)
    ∧ (s.now < v.tick + 14 → exec (.eventWake e) s = .next s) ∧ exec (.waitDeadline e) s = .next s := by
  have hcan := (wf_iff_canonical s).1 hw
  have hx : exec (.eventWake e) s = if v.tick + 14 ≤ s.now ∧ !trailsJoined s e then
      .next (capture e 2 ((engine s e).ord - 1) (.waitEv true d m v.word) (endWait e (v.tick + 14) 1 (modEngine e (fun x =>
        waitResult s.now (x.ord - 1) true d m v.word { dropEvent s e any src dl x with waitCnt := 0, entry := some v }) s)))
      else .next s := by
    show execEventWake e s = _
    unfold execEventWake
    rw [hrest]; dsimp only; rw [hv]
  have hdl : exec (.waitDeadline e) s = .next s := by
    show execWaitDeadline e s = _
    unfold execWaitDeadline
    rw [hrest]; dsimp only; rw [hv]
    exact if_neg fun h => Option.some_ne_none _ h.2.2
  refine ⟨fun hn => ?_, fun hn => by rw [hx, if_neg fun h => absurd h.1 (by omega)], hdl⟩
  rw [if_pos ⟨hn, by rw [ht]; rfl⟩, capture_endWait (modEngine_pairs ..) hl] at hx
  obtain ⟨hrun, hprev, hregs, hpreds, hevq, hothers, hrest⟩ := outcome_ends hcan
    (fun x => { dropEvent s e any src dl x with waitCnt := 0, entry := some v }) true d m v.word (engine_w hcan e) (fun _ => ⟨rfl, rfl⟩)
    (v.tick + 14) 1 rfl
  exact ⟨_, hx, hrun, hprev, hregs, hpreds, by rw [hevq]; exact dropEvent_length hv, hothers, hrest⟩

/-- R107, R128: without one it ends at its deadline. -/
theorem waitEv_expires (hw : s.wf) (ht : trailsJoined s e = false) (hl : leadsJoined s e = false) {any : Bool} {src dl d m : Nat}
    (hrest : (engine s e).rest = .waitEv any src dl d m) (hv : findEvent s e any src dl = none) :
    (dl ≤ s.now → ∃ t, exec (.waitDeadline e) s = .next t ∧ (engine t e).rest = .run ∧ (engine t e).prev = dl
      ∧ (∀ r, r % 64 ≠ 0 → wGet (engine t e) r = if d % 64 = r % 64 then 0 else wGet (engine s e) r)
      ∧ (∀ n, n % 8 ≠ 0 → pGet (engine t e) n = if m % 8 = n % 8 then false else pGet (engine s e) n)
      ∧ (engine t e).evq = (engine s e).evq ∧ (∀ j, j ≠ e.val → engine t j = engine s j) ∧ restKept s t)
    ∧ (s.now < dl → exec (.waitDeadline e) s = .next s) ∧ exec (.eventWake e) s = .next s := by
  have hcan := (wf_iff_canonical s).1 hw
  have hx : exec (.waitDeadline e) s = if dl ≤ s.now ∧ !trailsJoined s e ∧ findEvent s e any src dl = none then
      .next (capture e 2 ((engine s e).ord - 1) (.waitEv false d m 0) (endWait e dl 2 (modEngine e (fun x =>
        waitResult s.now (x.ord - 1) false d m 0 { x with waitCnt := 0 }) s))) else .next s := by
    show execWaitDeadline e s = _
    unfold execWaitDeadline
    rw [hrest]
  have hwake : exec (.eventWake e) s = .next s := by
    show execEventWake e s = _
    unfold execEventWake
    rw [hrest]; dsimp only; rw [hv]
  refine ⟨fun hn => ?_, fun hn => by rw [hx, if_neg fun h => absurd h.1 (by omega)], hwake⟩
  rw [if_pos ⟨hn, by rw [ht]; rfl, hv⟩, capture_endWait (modEngine_pairs ..) hl] at hx
  obtain ⟨hrun, hprev, hregs, hpreds, hevq, hothers, hrest⟩ := outcome_ends hcan (fun x => { x with waitCnt := 0 }) false d m 0
    (engine_w hcan e) (fun _ => ⟨rfl, rfl⟩) dl 2 rfl
  exact ⟨_, hx, hrun, hprev, hregs, hpreds, hevq, hothers, hrest⟩

/-! How waits begin. -/

theorem reachWait_eq (x : Engine) (t : State) : reachWait e x t = modEngine e (fun y => { y with waitWord := x.pos }) t := rfl

theorem Spares.reachWait {x : Engine} {t : State} (h : Spares e s t) : Spares e s (reachWait e x t) := h.modEngine

/-- R106, R127: WAITT of an engine in no joined pair: it rests until a target to come, and otherwise goes on, late after one that has
passed. -/
theorem beginWaitT_unpaired {n : Nat} {x : Engine} {t : State} (hp : t.pairs = s.pairs) (ht : trailsJoined s e = false)
    (hl : leadsJoined s e = false) (he : e.val < 1024) : beginWaitT e n x t =
      if dayTick t < n then
        traceRest e 1 0 x.pos (modEngine e (fun y => { y with rest := .waitT (dayInstant t n) }) (reachWait e x t))
      else if n < dayTick t then lateEvent 0x103 e x.pos n (dayTick t) (reachWait e x t) else reachWait e x t := by
  have htr : trailsJoined (reachWait e x t) e = false := (trailsJoined_congr hp e).trans ht
  have hd : dayTick (reachWait e x t) = dayTick t := rfl
  unfold beginWaitT
  simp only [htr, hd, he, and_true, Bool.false_eq_true, if_false]
  split
  · rfl
  · refine capture_unpaired ((leadsJoined_congr ?_ e).trans hl)
    split
    · exact (lateEvent_pairs ..).trans hp
    · exact hp

theorem late_of_release {v t : State} {delta r : Nat} {c : Bool} {k : Issue} {fs : List Effect}
    (hb : k.body (engine s e) (lateRelease e delta s) = (v, fs))
    (ht : t = released e r (countIf c e (engine s e).pos (execBody e k (lateRelease e delta s)))) : t.late = v.late := by
  rw [ht, released_late, countIf_late, execBody_eq, engine_lateRelease, hb]
  rfl

/-- R123, R131: a due instruction's engine runs. -/
theorem runs_of_ready {i : Instr} {delta : Nat} {u : UnitKind} (h : plantReady s e i delta u) : (engine s e).rest = .run := by
  obtain ⟨-, -, hmay, -⟩ := h
  simp only [mayRelease, Bool.and_eq_true, beq_iff_eq] at hmay
  obtain ⟨⟨⟨⟨⟨⟨hrun, -⟩, -⟩, -⟩, -⟩, -⟩, -⟩ := hmay
  exact hrun

/-- What a WAITT does at its release. -/
def waittIssue (e : Fin 1028) (f : RegForm) : Issue :=
  { wait := true
    body := fun x s => (beginWaitT e.val (tickOperand s e.val (word (Nat.min (opA x f).toNat (dayT s - 1)))) x
      (addTx e.val 4 x.pos [opA x f] s), []) }

theorem exec_waitt (e : Fin 1028) (f : RegForm) (s : State) :
    exec (.waitt e f) s = release e (.waitt e f) 1 f.neg f.pred (waittIssue e f) s := rfl

/-- R106, R127: WAITT. -/
theorem waitt_begins {f : RegForm} (hw : s.wf) (hc : condHolds (engine s e) f.neg f.pred = true) (ht : trailsJoined s e = false)
    (hl : leadsJoined s e = false) (hr : plantReady s e (.waitt e f) 1 .none) {a : Nat}
    (ha : a = Nat.min (opA (engine s e) f).toNat (dayT s - 1)) :
    ∃ t, exec (.waitt e f) s = .next t ∧ archKept (engine s e) (engine t e)
      ∧ (∀ j, j ≠ e.val → engine t j = engine s j) ∧ restKept s t
      ∧ (dayTick s < a → (engine t e).rest = .waitT (s.now - dayTick s + a))
      ∧ (a ≤ dayTick s → (engine t e).rest = .run)
      ∧ (a < dayTick s → punctual s e 1 → s.late.length < 16 → t.late = s.late
        ++ [(word (0x103 * 2 ^ 24 + e.val * 2 ^ 13 + (engine s e).pos % 4096), a % 2 ^ 28, dayTick s % 2 ^ 28)])
      ∧ (a = dayTick s → punctual s e 1 → t.late = s.late) := by
  have hcan := (wf_iff_canonical s).1 hw
  have hlate := (Spares.refl (e := e) hcan).lateRelease (delta := 1)
  have hpairs : (lateRelease e 1 s).pairs = s.pairs := lateRelease_pairs ..
  obtain ⟨hday, hlen, -⟩ := hlate.clock
  have hop : tickOperand (lateRelease e 1 s) e (word (Nat.min (opA (engine s e) f).toNat (dayT (lateRelease e 1 s) - 1))) = a := by
    have hlt : a < 2 ^ 36 := ha ▸ lt_of_le_of_lt (Nat.min_le_left _ _) (opA (engine s e) f).isLt
    rw [tickOperand, trailsJoined_congr hpairs, ht, hlen, ← ha, word, BitVec.toNat_ofNat, Nat.mod_eq_of_lt hlt]
    rfl
  generalize hv : beginWaitT e a (engine s e) (lateRelease e 1 s) = v
  have hbody : (waittIssue e f).body (engine s e) (lateRelease e 1 s) = (v, []) := by
    show (beginWaitT _ _ _ _, []) = _
    rw [hop, addTx_unpaired ((leadsJoined_congr hpairs e).trans hl) ((trailsJoined_congr hpairs e).trans ht), hv]
  rw [beginWaitT_unpaired hpairs ht hl hr.1, hday] at hv
  have hreach := hlate.reachWait (x := engine s e)
  have hspare : Spares e s v := by
    rw [← hv]; split
    · exact hreach.modEngine.traceRest
    · split
      · exact hreach.lateEvent
      · exact hreach
  have heng : engine v e = { engine s e with
      waitWord := (engine s e).pos, rest := if dayTick s < a then .waitT (s.now - dayTick s + a) else (engine s e).rest } := by
    have h0 : engine (reachWait e (engine s e) (lateRelease e 1 s)) e = { engine s e with waitWord := (engine s e).pos } := by
      rw [reachWait_eq, engine_modEngine_same _ _ _ hlate.eng, engine_lateRelease]
    rw [← hv]; split
    · rw [engine_congr (traceRest_eng ..), engine_modEngine_same _ _ _ hreach.eng, h0, dayInstant, hday, hlate.now]
    · split
      · rw [engine_congr (lateEvent_eng ..), h0]
      · rw [h0]
  obtain ⟨t, hexec, hts, hbook, htt⟩ := exec_booked (exec_waitt e f s) hr hc hbody hspare
  rw [heng] at hbook
  have htl := late_of_release hbody htt
  refine ⟨t, hexec, archKept.trans (archKept.refl _) hbook.arch, hts.others, hts.rest, fun h => ?_, fun h => ?_, fun h hp hroom => ?_,
    fun h hp => ?_⟩
  · exact hbook.rest.trans (if_pos h)
  · exact hbook.rest.trans ((if_neg (by omega)).trans (runs_of_ready hr))
  · rw [htl, ← hv, if_neg (by omega), if_pos h, lateRelease_punctual _ _ _ hp.1]
    have he : e.val % 2048 = e.val := Nat.mod_eq_of_lt (by omega)
    have hrec := lateWith_late (code := 0x103) (master := e) (pos := (engine s e).pos) (sch := a) (act := dayTick s)
      (detail := detailEngine e (engine s e).pos) (s := reachWait e (engine s e) s) hroom
    rw [he] at hrec
    exact hrec
  · rw [htl, ← hv, if_neg (by omega), if_neg (by omega), lateRelease_punctual _ _ _ hp.1]
    rfl

/-- R107, R128: WAITEV of an engine in no joined pair. -/
theorem beginWaitEv_unpaired {any : Bool} {src dl d m : Nat} {x : Engine} {t : State} (hp : t.pairs = s.pairs)
    (ht : trailsJoined s e = false) (hl : leadsJoined s e = false) : beginWaitEv e any src dl d m x t =
      match findEvent (reachWait e x t) e any src t.now with
      | some v => modEngine e (fun y => waitResult t.now y.ord true d m v.word
          { dropEvent (reachWait e x t) e any src t.now y with waitCnt := Nat.min (t.now + 1 - v.tick) 262143 }) (reachWait e x t)
      | none =>
        if dl < dayTick t then modEngine e (fun y => waitResult t.now y.ord false d m 0 { y with waitCnt := 0 }) (reachWait e x t)
        else traceRest e 1 1 x.pos
          (modEngine e (fun y => { y with rest := .waitEv any src (dayInstant t dl) d m }) (reachWait e x t)) := by
  have htr : trailsJoined (reachWait e x t) e = false := (trailsJoined_congr hp e).trans ht
  have hcap (n ord : Nat) (inp : Input) (g : Engine → Engine) :
      capture e n ord inp (modEngine e g (reachWait e x t)) = modEngine e g (reachWait e x t) :=
    capture_unpaired ((leadsJoined_congr hp e).trans hl)
  unfold beginWaitEv
  simp only [htr, hcap, Bool.false_eq_true, if_false]
  rfl

theorem findEvent_congr {t : State} {any : Bool} {src n : Nat} (hq : (engine t e).evq = (engine s e).evq) (hb : t.bindings = s.bindings) :
    findEvent t e any src n = findEvent s e any src n := by
  unfold findEvent answers; rw [hq, hb]

/-- What a WAITEV does at its release. -/
def waitevIssue (e : Fin 1028) (f : RegForm) : Issue :=
  { wait := true
    body := fun x s => (beginWaitEv e.val (f.m.getLsbD 0) (slice (opA x f).toNat 15 0) (tickOperand s e.val (opB x f)) f.d.toNat
      (f.m.toNat / 2) x (addTx e.val 4 x.pos
        [opB x f, if f.m.getLsbD 0 then 0 else word (slice (opA x f).toNat 15 0), word (f.m.toNat % 2)] s), []) }

theorem exec_waitev (e : Fin 1028) (f : RegForm) (s : State) :
    exec (.waitev e f) s = release e (.waitev e f) 1 f.neg f.pred (waitevIssue e f) s := rfl

/-- R107, R128: WAITEV. -/
theorem waitev_begins {f : RegForm} (hw : s.wf) (hc : condHolds (engine s e) f.neg f.pred = true) (ht : trailsJoined s e = false)
    (hl : leadsJoined s e = false) (hr : plantReady s e (.waitev e f) 1 .none) {any : Bool} {src : Nat} (hany : any = f.m.getLsbD 0)
    (hsrc : src = slice (opA (engine s e) f).toNat 15 0) :
    ∃ t, exec (.waitev e f) s = .next t ∧ (∀ j, j ≠ e.val → engine t j = engine s j) ∧ restKept s t
      ∧ (∀ v, findEvent s e any src s.now = some v → (engine t e).rest = .run
          ∧ (∀ r, r % 64 ≠ 0 → wGet (engine t e) r = if f.d.toNat = r % 64 then v.word else wGet (engine s e) r)
          ∧ (∀ n, n % 8 ≠ 0 → pGet (engine t e) n = if f.m.toNat / 2 = n % 8 then true else pGet (engine s e) n))
      ∧ (findEvent s e any src s.now = none →
          (dayTick s ≤ (opB (engine s e) f).toNat → archKept (engine s e) (engine t e)
            ∧ (engine t e).rest = .waitEv any src (s.now - dayTick s + (opB (engine s e) f).toNat) f.d.toNat (f.m.toNat / 2))
          ∧ ((opB (engine s e) f).toNat < dayTick s → (engine t e).rest = .run
            ∧ (∀ r, r % 64 ≠ 0 → wGet (engine t e) r = if f.d.toNat = r % 64 then 0 else wGet (engine s e) r)
            ∧ (∀ n, n % 8 ≠ 0 → pGet (engine t e) n = if f.m.toNat / 2 = n % 8 then false else pGet (engine s e) n))) := by
  have hcan := (wf_iff_canonical s).1 hw
  have hlate := (Spares.refl (e := e) hcan).lateRelease (delta := 1)
  have hpairs : (lateRelease e 1 s).pairs = s.pairs := lateRelease_pairs ..
  obtain ⟨hday, -, hbind⟩ := hlate.clock
  have hd : f.d.toNat % 64 = f.d.toNat := Nat.mod_eq_of_lt f.d.isLt
  have hm : f.m.toNat / 2 % 8 = f.m.toNat / 2 := Nat.mod_eq_of_lt (by omega)
  have hop : tickOperand (lateRelease e 1 s) e (opB (engine s e) f) = (opB (engine s e) f).toNat := by
    rw [tickOperand, trailsJoined_congr hpairs, ht]; rfl
  have hreach := hlate.reachWait (x := engine s e)
  have h0 : engine (reachWait e (engine s e) (lateRelease e 1 s)) e = { engine s e with waitWord := (engine s e).pos } := by
    rw [reachWait_eq, engine_modEngine_same _ _ _ hlate.eng, engine_lateRelease]
  have hfind : findEvent (reachWait e (engine s e) (lateRelease e 1 s)) e any src (lateRelease e 1 s).now =
      findEvent s e any src s.now := by
    rw [hlate.now]; exact findEvent_congr (by rw [h0]) hbind
  generalize hv : beginWaitEv e any src (opB (engine s e) f).toNat f.d.toNat (f.m.toNat / 2) (engine s e) (lateRelease e 1 s) = v
  have hbody : (waitevIssue e f).body (engine s e) (lateRelease e 1 s) = (v, []) := by
    show (beginWaitEv _ _ _ _ _ _ _ _, []) = _
    rw [hop, addTx_unpaired ((leadsJoined_congr hpairs e).trans hl) ((trailsJoined_congr hpairs e).trans ht), ← hany, ← hsrc, hv]
  rw [beginWaitEv_unpaired hpairs ht hl, hfind, hday] at hv
  have hspare : Spares e s v := by
    rw [← hv]; split
    · exact hreach.modEngine
    · split
      · exact hreach.modEngine
      · exact hreach.modEngine.traceRest
  obtain ⟨t, hexec, hts, hbook, -⟩ := exec_booked (exec_waitev e f s) hr hc hbody hspare
  have hthen {ev : Bool} {w : Word} {g : Engine → Engine}
      (hve : v = modEngine e (fun y => waitResult (lateRelease e 1 s).now y.ord ev f.d.toNat (f.m.toNat / 2) w (g y))
        (reachWait e (engine s e) (lateRelease e 1 s))) (hg : ∀ x, (g x).w = x.w ∧ (g x).p = x.p ∧ (g x).rest = x.rest) : (engine t e).rest = .run
        ∧ (∀ r, r % 64 ≠ 0 → wGet (engine t e) r = if f.d.toNat = r % 64 then (if ev then w else 0) else wGet (engine s e) r)
        ∧ (∀ n, n % 8 ≠ 0 → pGet (engine t e) n = if f.m.toNat / 2 = n % 8 then ev else pGet (engine s e) n) := by
    obtain ⟨hgw, hgp, hgr⟩ := hg (engine (reachWait e (engine s e) (lateRelease e 1 s)) e)
    have heng := engine_modEngine_same e (fun y => waitResult (lateRelease e 1 s).now y.ord ev f.d.toNat (f.m.toNat / 2) w (g y)) _ hreach.eng
    rw [← hve] at heng
    rw [heng] at hbook
    rw [h0] at hgw hgp hgr hbook
    obtain ⟨hregs, -, -, hpred, -⟩ := hbook.arch
    obtain ⟨hwr, -, -⟩ := waitResult_keeps (lateRelease e 1 s).now (engine s e).ord ev f.d.toNat (f.m.toNat / 2) w
      (g { engine s e with waitWord := (engine s e).pos })
    refine ⟨hbook.rest.trans (hwr.trans (hgr.trans (runs_of_ready hr))), fun r hr0 => ?_, fun n hn => ?_⟩
    · have hwg := wGet_waitResult (now := (lateRelease e 1 s).now) (ord := (engine s e).ord) (ev := ev) (d := f.d.toNat)
        (m := f.m.toNat / 2) (w := w) (hgw ▸ engine_w hcan e) hr0
      rw [wGet, hregs, ← wGet, hwg, hd, wGet, hgw, ← wGet]; rfl
    · have hpg := pGet_waitResult (now := (lateRelease e 1 s).now) (ord := (engine s e).ord) (ev := ev) (d := f.d.toNat)
        (m := f.m.toNat / 2) (w := w) (x := g { engine s e with waitWord := (engine s e).pos }) hn
      rw [pGet, hpred, ← pGet, hpg, hm, pGet, hgp, ← pGet]; rfl
  refine ⟨t, hexec, hts.others, hts.rest, fun w hw' => ?_, fun hnone => ⟨fun hle => ?_, fun hlt => ?_⟩⟩
  · rw [hw'] at hv
    exact hthen hv.symm fun _ => ⟨rfl, rfl, rfl⟩
  · rw [hnone] at hv
    have hve := hv.symm.trans (if_neg (by omega))
    have heng : engine v e = { engine s e with
        waitWord := (engine s e).pos
        rest := .waitEv any src (s.now - dayTick s + (opB (engine s e) f).toNat) f.d.toNat (f.m.toNat / 2) } := by
      rw [hve, engine_congr (traceRest_eng ..), engine_modEngine_same _ _ _ hreach.eng, h0, dayInstant, hday, hlate.now]
    rw [heng] at hbook
    exact ⟨archKept.trans (archKept.refl _) hbook.arch, hbook.rest⟩
  · rw [hnone] at hv
    exact hthen (hv.symm.trans (if_pos hlt)) fun _ => ⟨rfl, rfl, rfl⟩

/-! Time stamps (R110, R129). -/

theorem clockSample_of_unentered {x : Engine} (h : x.entry = none) (delta : Nat) (t : State) :
    clockSample x delta t = (t.time.sec, t.time.ns64) := by
  unfold clockSample; rw [h]

/-- R110: the time triple in three registers, and what follows it. -/
theorem regEffects_triple (d sec ns64 : Nat) (ws : List Word) : regEffects d (triple sec ns64 ++ ws) =
    .reg d (word ns64) :: .reg (d + 1) (word (sec / 2 ^ 36 % 4096)) :: .reg (d + 2) (word (sec % 2 ^ 36)) :: regEffects (d + 3) ws := by
  unfold regEffects triple
  simp [List.mapIdx_cons, Nat.add_comm, Nat.add_left_comm]

/-- R110, R129: TSTAMP. -/
theorem tstamp_stamps {f : RegForm} (hw : s.wf) (hc : condHolds (engine s e) f.neg f.pred = true) (ht : trailsJoined s e = false)
    (hr : plantReady s e (.tstamp e f) f.delta.toNat .none) :
    ∃ t, exec (.tstamp e f) s = .next t ∧ archKept (engine s e) (engine t e)
      ∧ (∀ j, j ≠ e.val → engine t j = engine s j) ∧ restKept s t
      ∧ ((engine s e).entry = none → ∃ l ∈ (engine t e).fly, ∃ rest, l.land = s.now + 2 ∧ l.capture = true
        ∧ l.effs = .reg f.d.toNat (word s.time.ns64) :: .reg (f.d.toNat + 1) (word (s.time.sec / 2 ^ 36 % 4096))
            :: .reg (f.d.toNat + 2) (word (s.time.sec % 2 ^ 36)) :: rest
        ∧ (f.m.getLsbD 0 = false → rest = [])
        ∧ (f.m.getLsbD 0 = true → ∃ w, rest = [.reg (f.d.toNat + 3) w] ∧ w.toNat / 2 ^ 18 = (engine s e).waitCnt % 2 ^ 18)) := by
  have hcan := (wf_iff_canonical s).1 hw
  have hlate := (Spares.refl (e := e) hcan).lateRelease (delta := f.delta.toNat)
  have htime : (lateRelease e f.delta.toNat s).time = s.time := lateRelease_time ..
  obtain ⟨k, hx, hcap, hdur, hunit, hbody⟩ : ∃ k : Issue, exec (.tstamp e f) s = release e (.tstamp e f) f.delta.toNat f.neg f.pred k s
      ∧ k.cap = true ∧ k.dur = 2 ∧ k.unit = .none ∧ k.body (engine s e) (lateRelease e f.delta.toNat s) =
        (bump (bump (lateRelease e f.delta.toNat s)),
          regEffects f.d.toNat (stampWords e (engine s e) f (lateRelease e f.delta.toNat s))) := by
    refine ⟨_, rfl, rfl, rfl, rfl, if_neg ?_⟩
    rw [trailsJoined_congr (lateRelease_pairs ..), ht]
    exact Bool.false_ne_true
  obtain ⟨t, hexec, hts, hbook, -⟩ := exec_booked hx (hunit ▸ hr) hc hbody hlate.bump.bump
  have harch := hbook.arch
  rw [show engine (bump (bump (lateRelease e f.delta.toNat s))) e = engine s e from engine_lateRelease _] at harch
  refine ⟨t, hexec, harch, hts.others, hts.rest, fun hentry => ?_⟩
  have hwords : stampWords e (engine s e) f (lateRelease e f.delta.toNat s) = triple s.time.sec s.time.ns64 ++
      (if f.m.getLsbD 0 then [word ((engine s e).waitCnt * 2 ^ 18 + entryEstimate (lateRelease e f.delta.toNat s) e % 2 ^ 18)] else []) := by
    rw [stampWords, clockSample_of_unentered hentry, htime]
  rw [hwords, regEffects_triple] at hbook
  obtain ⟨l, hl, hland, -, -, hlcap, heff⟩ := hbook.result rfl
  refine ⟨l, hl, _, hdur ▸ hland, hcap ▸ hlcap, heff, fun hm => ?_, fun hm => ?_⟩
  · rw [hm]; rfl
  · rw [hm]
    refine ⟨_, rfl, ?_⟩
    rw [word, BitVec.toNat_ofNat]
    omega

/-- Settles O20: how each wait begins and ends, and what a time stamp holds, of an engine outside joined pairs. -/
theorem waitsBeginAndEnd : Obligations.WaitsBeginAndEnd := by
  unfold Obligations.WaitsBeginAndEnd
  refine ⟨fun e f s hw hc ht hl => ⟨fun hr a ha => waitt_begins hw hc ht hl hr ha, fun hr => waitev_begins hw hc ht hl hr rfl rfl,
    tstamp_stamps hw hc ht⟩, fun e s hw ht hl => ⟨fun n hn => waitT_ends hw ht hl hn, fun any src dl d m hrest =>
      ⟨fun v hv => waitEv_wakes hw ht hl hrest hv, fun hv => waitEv_expires hw ht hl hrest hv⟩⟩⟩

end

end Sys2Proof.Machine
end

section
/-! SUPPORT. Local accesses, and shared accesses as they are issued (R97 to R99, R115, R132, R134, R136, R211, R215). -/

namespace Sys2Proof.Machine

/-- R97: the offset (wa + wb) mod 8,192. -/
theorem offsetAB_eq (x : Engine) (f : RegForm) : offsetAB x f % 8192 = (opA x f + opB x f).toNat % 8192 := by
  rw [offsetAB, BitVec.toNat_add]; omega

theorem localAddr_mod (e n : Nat) : localAddr e (n % 8192) = 0x01000000 + e * 0x2000 + n % 8192 := by
  rw [localAddr, Nat.mod_mod]

/-! Plant engines. -/

/-- R211: the transaction of a leading engine joins its pair's, and that of an engine in no joined pair none. -/
theorem addTx_pairs {e kind pos : Nat} {fields : List Word} {s : State} (h : rising s.pairs) :
    (leadsJoined s e = false → trailsJoined s e = false → (addTx e kind pos fields s).pairs = s.pairs)
      ∧ (leadsJoined s e = true → (pairOf (addTx e kind pos fields s) (e / 2)).lead =
        (pairOf s (e / 2)).lead ++ [⟨s.now, kind, fields, pos⟩]) := by
  refine ⟨fun hl ht => by rw [addTx_unpaired hl ht], fun hl => ?_⟩
  rw [addTx, if_pos hl, modPair, setPair, pairOf, tabGet_tabSet_same _ _ _ _ h]

/-- A local access's release: the transaction made, and one effect in flight. -/
theorem local_issued {e : Fin 1028} {i : Instr} {delta : Nat} {neg : Bool} {pred : BitVec 3} {k : Issue} {s : State} {eff : Effect}
    {fields : List Word} (hw : s.wf) (hx : exec i s = release e i delta neg pred k s) (hr : plantReady s e i delta .none)
    (hunit : k.unit = .none) (hc : condHolds (engine s e) neg pred = true) (hcls : k.cls = 3) (hdur : k.dur = 2)
    (hb : k.body (engine s e) (lateRelease e delta s) = (addTx e 0 (engine s e).pos fields (lateRelease e delta s), [eff])) :
    ∃ t, exec i s = .next t ∧ issuesLocal s t e eff fields := by
  have hcan := (wf_iff_canonical s).1 hw
  have hpairs : (lateRelease e delta s).pairs = s.pairs := lateRelease_pairs ..
  obtain ⟨t, hexec, hts, hbook, ht⟩ := exec_booked hx (hunit ▸ hr) hc hb (Spares.refl hcan).lateRelease.addTx
  rw [engine_congr (addTx_eng ..), engine_lateRelease] at hbook
  obtain ⟨l, hl, hland, hlcls, hword, -, heff⟩ := hbook.result rfl
  have htp : t.pairs = (addTx e 0 (engine s e).pos fields (lateRelease e delta s)).pairs := by
    rw [ht, released_pairs, countIf_pairs, execBody_eq, engine_lateRelease, hb]; rfl
  obtain ⟨hfree, hlead⟩ := addTx_pairs (e := e) (kind := 0) (pos := (engine s e).pos) (fields := fields)
    (s := lateRelease e delta s) (hpairs ▸ hcan.pairs)
  rw [leadsJoined_congr hpairs, trailsJoined_congr hpairs] at hfree
  rw [leadsJoined_congr hpairs, lateRelease_now] at hlead
  refine ⟨t, hexec, ⟨l, hl, hdur ▸ hland, hlcls.trans hcls, hword, heff⟩, hbook.arch, hts.others, hts.rest, fun h1 h2 => ?_, fun h1 => ?_⟩
  · rw [htp, hfree h1 h2, hpairs]
  · rw [pairOf, htp, ← pairOf, hlead h1, pairOf, hpairs, ← pairOf]

/-! Requests. -/

theorem trailsJoined_addTx {e kind pos : Nat} {fields : List Word} {s : State} (h : rising s.pairs) :
    trailsJoined (addTx e kind pos fields s) e = trailsJoined s e := by
  rcases addTx_cases e kind pos fields s with hx | ⟨f, hx, hf⟩
  · rw [hx]
  · rw [hx, trailsJoined, modPair, setPair, pairOf, tabGet_tabSet_same _ _ _ _ h, hf]; rfl

theorem mem_sup_reqs_of_release {s v t : State} {e delta r : Nat} {c : Bool} {k : Issue} {fs : List Effect}
    (hb : k.body (engine s e) (lateRelease e delta s) = (v, fs))
    (ht : t = released e r (countIf c e (engine s e).pos (execBody e k (lateRelease e delta s)))) :
    t.mem = v.mem ∧ t.sup = v.sup ∧ t.reqs = v.reqs := by
  rw [ht, execBody_eq, engine_lateRelease, hb]
  simp

theorem addTx_keeps (e kind pos : Nat) (fields : List Word) (s : State) : (addTx e kind pos fields s).now = s.now
    ∧ (addTx e kind pos fields s).mem = s.mem ∧ (addTx e kind pos fields s).sup = s.sup ∧ (addTx e kind pos fields s).reqs = s.reqs := by
  rcases addTx_cases e kind pos fields s with hx | ⟨f, hx, -⟩ <;> rw [hx] <;> exact ⟨rfl, rfl, rfl, rfl⟩

theorem request_eq (e kind : Nat) (fields : List Word) (a : Word) (op : ReqOp) (x : Engine) (s : State) (h : rising s.pairs) :
    request e kind fields a op x s =
      if trailsJoined s e then addTx e kind x.pos fields s else addReq e a op x (addTx e kind x.pos fields s) := by
  rw [request, trailsJoined_addTx h]

theorem request_keeps (e kind : Nat) (fields : List Word) (a : Word) (op : ReqOp) (x : Engine) (s : State) :
    (request e kind fields a op x s).eng = s.eng ∧ (request e kind fields a op x s).now = s.now
      ∧ (request e kind fields a op x s).mem = s.mem ∧ (request e kind fields a op x s).sup = s.sup := by
  obtain ⟨hnow, hmem, hsup, -⟩ := addTx_keeps e kind x.pos fields s
  unfold request
  extract_lets u
  split
  · exact ⟨addTx_eng .., hnow, hmem, hsup⟩
  · exact ⟨addTx_eng .., hnow, hmem, hsup⟩

/-- R136, R215: the request made, or none of a trailing engine. -/
theorem request_reqs (e kind : Nat) (fields : List Word) (a : Word) (op : ReqOp) (x : Engine) (s : State) (h : rising s.pairs) :
    (trailsJoined s e = false → ∃ r, (request e kind fields a op x s).reqs = s.reqs ++ [r] ∧ r.master = e ∧ r.secure = false ∧ r.addr = a
      ∧ r.op = op ∧ r.rel = s.now ∧ r.acc = s.now + 2 + hopsTo e a ∧ r.word = x.pos)
    ∧ (trailsJoined s e = true → (request e kind fields a op x s).reqs = s.reqs) := by
  obtain ⟨hnow, -, -, hreqs⟩ := addTx_keeps e kind x.pos fields s
  rw [request_eq _ _ _ _ _ _ _ h]
  refine ⟨fun ht => ?_, fun ht => by rw [if_pos ht, hreqs]⟩
  rw [ht, if_neg Bool.false_ne_true, addReq, hnow, hreqs]
  exact ⟨_, rfl, rfl, rfl, rfl, rfl, rfl, rfl, rfl⟩

/-- R98, R99, R136, R215: a shared access's release: a request, which a trailing engine's is not. -/
theorem shared_requests {e : Fin 1028} {i : Instr} {delta : Nat} {neg : Bool} {pred : BitVec 3} {k : Issue} {s : State} {kind : Nat}
    {fields : List Word} {a : Word} {op : ReqOp} (hw : s.wf) (hx : exec i s = release e i delta neg pred k s)
    (hr : plantReady s e i delta .shared) (hunit : k.unit = .shared) (hc : condHolds (engine s e) neg pred = true)
    (hb : k.body (engine s e) (lateRelease e delta s) = (request e kind fields a op (engine s e) (lateRelease e delta s), [])) :
    ∃ t, exec i s = .next t ∧ requests s t e a op := by
  have hcan := (wf_iff_canonical s).1 hw
  have hpairs : (lateRelease e delta s).pairs = s.pairs := lateRelease_pairs ..
  have hlate := (Spares.refl (e := e) hcan).lateRelease (delta := delta)
  obtain ⟨heng, hnow, hmem, hsup⟩ := request_keeps e kind fields a op (engine s e) (lateRelease e delta s)
  obtain ⟨hmade, hnone⟩ := request_reqs e kind fields a op (engine s e) (lateRelease e delta s) (hpairs ▸ hcan.pairs)
  rw [trailsJoined_congr hpairs, hlate.now, lateRelease_reqs] at hmade
  rw [trailsJoined_congr hpairs, lateRelease_reqs] at hnone
  have hexec := exec_plantReady hx (hunit ▸ hr) hc
  generalize ht : released e (if k.wait then s.now else (engine s e).prev + delta)
    (countIf true e (engine s e).pos (execBody e k (lateRelease e delta s))) = t at hexec
  have hrise : rising (request e kind fields a op (engine s e) (lateRelease e delta s)).eng := heng ▸ hlate.eng
  have hbook := release_booked hb hrise (hnow.trans hlate.now) ((engine_congr heng e).trans (engine_lateRelease _)) ht.symm
  obtain ⟨tmem, tsup, treqs⟩ := mem_sup_reqs_of_release hb ht.symm
  refine ⟨t, hexec, hbook.arch, fun j hj => ?_, by rw [tmem, hmem, lateRelease_mem], by rw [tsup, hsup, lateRelease_sup],
    fun htr => by rw [treqs]; exact hmade htr, fun htr => by rw [treqs]; exact hnone htr⟩
  rw [engine_release_ne hb hrise ht.symm hj, engine_congr heng, engine_lateRelease]

/-! Supervisor engines. -/

theorem memRead_ok {plant : Option (Nat × Nat)} {a : Nat} {s : State} (h : chkOf s a = .ok) : memRead plant a s = (memGet s a, s) := by
  rw [memRead, h]

/-- R205: a supervisor engine's write is none of a plant engine's write set. -/
theorem memWrite_sup {m : Nat} (hm : 1024 ≤ m) (a : Nat) (v : Word) (s : State) : (memWrite m a v s).mem = (memSet s a v).mem ∧ (memWrite m a v s).eng = s.eng
    ∧ (memWrite m a v s).sup = s.sup ∧ (memWrite m a v s).tk.touched = s.tk.touched := by
  unfold memWrite
  extract_lets s₁ t j
  have hs : s₁ = s := if_neg (by omega)
  clear_value s₁
  subst hs
  split <;> exact ⟨rfl, rfl, rfl, rfl⟩

/-- R97, R115: a supervisor engine's local load. -/
theorem local_loaded {s u : State} {e : Fin 1028} {i : Instr} {delta off : Nat} {neg : Bool} {pred : BitVec 3} {k : Issue} {d : BitVec 6}
    (hx : exec i s = release e i delta neg pred k s) (hr : supReady s e i u) (hw : u.wf) (hc : condHolds (engine u e) neg pred = true)
    (hb : k.body (supEngine (supOf u e).pc.toNat (engine u e)) (supBegun e u) = (supBegun e u, [.load off d.toNat]))
    (hok : chkOf u (localAddr e off) = .ok) (hl : (engine u e).loops = []) :
    ∃ t, exec i s = .next t ∧ (∀ r, r % 64 ≠ 0 → wGet (engine t e) r =
      if d.toNat = r % 64 then memGet u (localAddr e off) else wGet (engine u e) r) ∧ t.mem = u.mem := by
  have hcan := (wf_iff_canonical u).1 hw
  have hd : d.toNat % 64 = d.toNat := Nat.mod_eq_of_lt d.isLt
  obtain ⟨hrise, hsup⟩ := supBegun_rising hcan e
  have hrun : supExecute e neg pred k u = modEngine e (wSet d.toNat (memGet u (localAddr e off))) (supBegun e u) := by
    rw [supExecute_eq hcan (by rw [hc, if_pos rfl, hb])]
    show modEngine e (wSet d.toNat (memRead _ _ (supBegun e u)).1) (memRead _ _ (supBegun e u)).2 = _
    rw [memRead_ok (show chkOf (supBegun e u) _ = _ from hok)]
    rfl
  have hmr := modEngine_rising e (wSet d.toNat (memGet u (localAddr e off))) _ hrise
  have hge : engine (modEngine e (wSet d.toNat (memGet u (localAddr e off))) (supBegun e u)) e =
      wSet d.toNat (memGet u (localAddr e off)) (supEngine (supOf u e).pc.toNat (engine u e)) := by
    rw [engine_modEngine_same _ _ _ hrise, engine_supBegun hcan]
  have hxw : rising (supEngine (supOf u e).pc.toNat (engine u e)).w := engine_w hcan e
  have hgw := wSet_rising d.toNat (memGet u (localAddr e off)) _ hxw
  obtain ⟨c, hexec⟩ := exec_supReady hx hr hrun hmr hsup (hge ▸ hgw) rfl
  obtain ⟨hregs, -, -, -, -, -, hmem, -, -, -, hrs⟩ := supReleased_effect _ e (engine u e).pos c hmr hsup (hge ▸ hgw)
  obtain ⟨heng, hmem', -, -, -⟩ := holdBanks_keeps e (engine s e).lockOpen _ hrs
  refine ⟨_, hexec, fun r hr0 => ?_, hmem'.trans hmem⟩
  have hloops : (wSet d.toNat (memGet u (localAddr e off)) (supEngine (supOf u e).pc.toNat (engine u e))).loops = [] := by
    unfold wSet; split <;> exact hl
  rw [hge, hloops] at hregs
  have hend := (congrArg (wGet · r) (engine_congr heng e)).trans (hregs r hr0 fun l hl => by cases hl)
  refine hend.trans ?_
  rw [wGet_wSet _ _ _ _ hxw hr0, hd]
  rfl

/-- R97, R115: a supervisor engine's local store. -/
theorem local_stored {s u : State} {e : Fin 1028} {i : Instr} {delta off : Nat} {neg : Bool} {pred : BitVec 3} {k : Issue} {v : Word}
    (hx : exec i s = release e i delta neg pred k s) (hr : supReady s e i u) (hw : u.wf) (hc : condHolds (engine u e) neg pred = true)
    (hb : k.body (supEngine (supOf u e).pc.toNat (engine u e)) (supBegun e u) = (supBegun e u, [.store off v])) :
    ∃ t, exec i s = .next t ∧ memAfter u t (localAddr e off) v := by
  have hcan := (wf_iff_canonical u).1 hw
  have hrun : supExecute e neg pred k u = memWrite e (localAddr e off) v (supBegun e u) :=
    supExecute_eq hcan (by rw [hc, if_pos rfl, hb])
  obtain ⟨hwmem, hweng, hwsup, hwtouched⟩ := memWrite_sup hr.1 (localAddr e off) v (supBegun e u)
  obtain ⟨hrise, hsup⟩ := supBegun_rising hcan e
  have hew : rising (engine (memWrite e (localAddr e off) v (supBegun e u)) e).w := by
    rw [engine_congr hweng, engine_supBegun hcan]; exact engine_w hcan e
  obtain ⟨c, hexec⟩ := exec_supReady hx hr hrun (hweng ▸ hrise) (hwsup ▸ hsup) hew hwtouched
  obtain ⟨-, -, -, -, -, -, hmem, -, -, -, hrs⟩ := supReleased_effect _ e (engine u e).pos c (hweng ▸ hrise) (hwsup ▸ hsup) hew
  obtain ⟨-, hmem', -, -, -⟩ := holdBanks_keeps e (engine s e).lockOpen _ hrs
  have hmemv : (memWrite e (localAddr e off) v (supBegun e u)).mem = (memSet u (localAddr e off) v).mem := hwmem
  have hread (b : Nat) : memGet (settle e 0 s.tk.touched (holdBanks e (engine s e).lockOpen (supReleased e (engine u e).pos c
      (memWrite e (localAddr e off) v (supBegun e u))))) b = memGet (memSet u (localAddr e off) v) b :=
    congrArg (tabGet 0 · b) (hmem'.trans (hmem.trans hmemv))
  exact ⟨_, hexec, (hread _).trans (memGet_memSet_same _ _ _ hcan.mem), fun b hb => (hread b).trans (memGet_memSet_ne _ _ _ _ hcan.mem hb)⟩

/-- Settles O21: the release of a local access puts its effect in flight or in place, and that of a shared one makes its request. -/
theorem localAndSharedAccesses : Obligations.LocalAndSharedAccesses := by
  unfold Obligations.LocalAndSharedAccesses
  refine ⟨fun e f g s => ⟨fun hw hc => ⟨fun hr => ?_, fun hr => ?_⟩, fun hw hc => ⟨fun hr => ?_, fun hr => ?_⟩,
    fun u hw hc a ha => ⟨fun hr hok hl => ?_, fun hr => ?_⟩, fun u hw hc a ha => ⟨fun hr hok hl => ?_, fun hr => ?_⟩⟩,
    fun e f s hw hc => ⟨fun hr => ?_, fun hr => ?_, fun hr => ?_⟩⟩
  · rw [← offsetAB_eq]
    exact local_issued hw rfl hr rfl hc rfl rfl rfl
  · rw [← offsetAB_eq]
    exact local_issued hw rfl hr rfl hc rfl rfl rfl
  · exact local_issued hw rfl hr rfl hc rfl rfl rfl
  · exact local_issued hw rfl hr rfl hc rfl rfl rfl
  · rw [← offsetAB_eq, ← localAddr_mod] at ha
    subst ha
    exact local_loaded rfl hr hw hc (congrArg (·, _) (addTx_sup hr.1 ..)) hok hl
  · rw [← offsetAB_eq, ← localAddr_mod] at ha
    subst ha
    exact local_stored rfl hr hw hc (congrArg (·, _) (addTx_sup hr.1 ..))
  · rw [← localAddr_mod] at ha
    subst ha
    exact local_loaded rfl hr hw hc (congrArg (·, _) (addTx_sup hr.1 ..)) hok hl
  · rw [← localAddr_mod] at ha
    subst ha
    exact local_stored rfl hr hw hc (congrArg (·, _) (addTx_sup hr.1 ..))
  · exact shared_requests hw rfl hr rfl hc (if_pos hr.1)
  · exact shared_requests hw rfl hr rfl hc (if_pos hr.1)
  · exact shared_requests hw rfl hr rfl hc (if_pos hr.1)

end Sys2Proof.Machine
end

section
/-! SUPPORT. The SYS functions of supervisor engines (R115 to R117, R494, R499, R503). -/

namespace Sys2Proof.Machine

/-- R115: a supervisor instruction that leaves the engine outside any loop and bracket, from its body and its effects. -/
theorem sup_ends_of {s u v w : State} {e : Fin 1028} {i : Instr} {delta : Nat} {neg : Bool} {pred : BitVec 3} {k : Issue}
    {fs : List Effect} (hx : exec i s = release e i delta neg pred k s) (hr : supReady s e i u) (hcan : Canonical u)
    (hc : condHolds (engine u e) neg pred = true)
    (hb : k.body (supEngine (supOf u e).pc.toNat (engine u e)) (supBegun e u) = (w, fs))
    (hv : applyAll e u.now (supOf u e).pc.toNat fs w = v) (he : rising v.eng) (hs : rising v.sup) (hw : rising (engine v e).w)
    (ht : v.tk.touched = u.tk.touched) (hl : (engine v e).loops = []) (hlock : (engine v e).lockOpen = false) :
    ∃ t, exec i s = .next t ∧ SupEnds e (supOf v e).pc.toNat [] v t :=
  exec_supEnds hx hr (by rw [supExecute_eq hcan (by rw [hc, if_pos rfl, hb]), hv]) he hs hw ht
    (by rw [hl]; exact congrArg (·, [], []) (Nat.mod_eq_of_lt (supOf v e).pc.isLt)) hlock

theorem SupEnds.supOf_eq {e : Nat} {v t : State} (h : SupEnds e (supOf v e).pc.toNat [] v t) : supOf t e = supOf v e := by
  rw [h.sup, word, BitVec.ofNat_toNat, BitVec.setWidth_eq]

/-- A SYS function that changes the engine's supervisor registers alone. -/
theorem sys_registers {s u v : State} {e : Fin 1028} {i : Instr} {delta : Nat} {neg : Bool} {pred : BitVec 3} {k : Issue} {g : Sup → Sup}
    (hx : exec i s = release e i delta neg pred k s) (hr : supReady s e i u) (hw : u.wf) (hc : condHolds (engine u e) neg pred = true)
    (hl : (engine u e).loops = []) (hlock : (engine u e).lockOpen = false)
    (hb : k.body (supEngine (supOf u e).pc.toNat (engine u e)) (supBegun e u) = (v, [])) (heng : v.eng = (supBegun e u).eng)
    (hsup : v.sup = (modSup e g (supBegun e u)).sup) (hmem : v.mem = u.mem) (hpriv : v.priv = u.priv) (hreqs : v.reqs = u.reqs)
    (ht : v.tk.touched = u.tk.touched) :
    ∃ t, exec i s = .next t ∧ sysLeaves u t e (g { supOf u e with pc := (supOf u e).pc + 1 }) ∧ t.nwt = v.nwt := by
  have hcan := (wf_iff_canonical u).1 hw
  obtain ⟨-, hrs⟩ := supBegun_rising hcan e
  have hvs : rising v.sup := hsup ▸ tabSet_rising _ _ _ _ hrs
  obtain ⟨t, hexec, hend⟩ := sup_ends hx hr hw hc hb heng hvs ht hl hlock
  have hve : supOf v e = g { supOf u e with pc := (supOf u e).pc + 1 } := by
    rw [supOf, hsup]
    exact (tabGet_tabSet_same _ _ _ _ hrs).trans (congrArg g (supOf_supBegun hcan e))
  have hvne (j : Nat) (hj : j ≠ e) : supOf v j = supOf u j := by
    rw [supOf, hsup]
    exact (tabGet_tabSet_other _ _ _ _ _ _ hrs hj).trans (supOf_supBegun_ne hcan hj)
  exact ⟨t, hexec, hve ▸ hend.leaves hcan heng hvne hmem hpriv hreqs, by rw [hend.frame]⟩

/-- R115: a SYS function that writes `w` to wd. -/
theorem sys_result {s u v : State} {e : Fin 1028} {i : Instr} {delta : Nat} {neg : Bool} {pred : BitVec 3} {k : Issue} {d : BitVec 6}
    {w : Word} (hx : exec i s = release e i delta neg pred k s) (hr : supReady s e i u) (hw : u.wf)
    (hc : condHolds (engine u e) neg pred = true) (hl : (engine u e).loops = []) (hlock : (engine u e).lockOpen = false)
    (hb : k.body (supEngine (supOf u e).pc.toNat (engine u e)) (supBegun e u) = (v, [.reg d.toNat w])) (heng : v.eng = (supBegun e u).eng)
    (hs : rising v.sup) (ht : v.tk.touched = u.tk.touched) :
    ∃ t, exec i s = .next t ∧ supOf t e = supOf v e ∧ t.mem = v.mem ∧ t.priv = v.priv
      ∧ ∀ r, r % 64 ≠ 0 → wGet (engine t e) r = if d.toNat = r % 64 then w else wGet (engine u e) r := by
  have hcan := (wf_iff_canonical u).1 hw
  have hd : d.toNat % 64 = d.toNat := Nat.mod_eq_of_lt d.isLt
  have hvr : rising v.eng := heng ▸ (supBegun_rising hcan e).1
  have hxw : rising (supEngine (supOf u e).pc.toNat (engine u e)).w := engine_w hcan e
  have hge : engine (modEngine e (wSet d.toNat w) v) e = wSet d.toNat w (supEngine (supOf u e).pc.toNat (engine u e)) := by
    rw [engine_modEngine_same _ _ _ hvr, engine_congr heng, engine_supBegun hcan]
  have hkeep : (wSet d.toNat w (supEngine (supOf u e).pc.toNat (engine u e))).loops = []
      ∧ (wSet d.toNat w (supEngine (supOf u e).pc.toNat (engine u e))).lockOpen = false := by
    unfold wSet; split <;> exact ⟨hl, hlock⟩
  obtain ⟨t, hexec, hend⟩ := sup_ends_of (v := modEngine e (wSet d.toNat w) v) hx hr hcan hc hb rfl (modEngine_rising _ _ _ hvr) hs
    (by rw [hge]; exact wSet_rising _ _ _ hxw) ht (by rw [hge, hkeep.1]) (by rw [hge, hkeep.2])
  refine ⟨t, hexec, hend.supOf_eq, by rw [hend.frame]; rfl, by rw [hend.frame]; rfl, fun r hr0 => ?_⟩
  obtain ⟨⟨hregs, -⟩, -⟩ := supMoved_keeps (supOf (modEngine e (wSet d.toNat w) v) e).pc.toNat [] (engine (modEngine e (wSet d.toNat w) v) e)
  rw [hend.eng, wGet, hregs, ← wGet, hge, wGet_wSet _ _ _ _ hxw hr0, hd]
  rfl

theorem supOf_modSup {e : Nat} {g : Sup → Sup} {s : State} (h : rising s.sup) : supOf (modSup e g s) e = g (supOf s e) :=
  tabGet_tabSet_same _ _ _ _ h

/-! Worlds (R117, R503). -/

theorem slice_eq_mod (n : Nat) : slice n 11 0 = n % 4096 := by rw [slice]; simp

theorem inWorld_same {secure : Bool} {e : Nat} {f : State → State × List Effect} {s : State} (h : (supOf s e).secure = secure) :
    inWorld secure e f s = f s := if_pos h

theorem inWorld_other {secure : Bool} {e : Nat} {f : State → State × List Effect} {s : State} (h : (supOf s e).secure ≠ secure) :
    inWorld secure e f s = (wrongWorld e s, []) := if_neg h

theorem exceptFree_sup {u : State} (h : Canonical u) (e cause seq : Nat) : (exceptFree e cause seq (supBegun e u)).sup =
    (modSup e (fun y => inHandler y cause 0 seq (Config.freeWord u.fresh) (supOf u e).pc) (supBegun e u)).sup := by
  have hpc : (supOf (bump (supBegun e u)) e).pc - 1 = (supOf u e).pc := by
    rw [show supOf (bump (supBegun e u)) e = supOf (supBegun e u) e from rfl, supOf_supBegun h]
    exact BitVec.add_sub_cancel _ _
  unfold exceptFree except
  rw [hpc]
  rfl

theorem secure_supBegun {u : State} (h : Canonical u) (e : Nat) : (supOf (supBegun e u) e).secure = (supOf u e).secure := by
  rw [supOf_supBegun h]

/-- R503: the translations that a TLBI leaves. -/
def tlbAfter (f : RegForm) (x : Engine) (y : Sup) : Sup :=
  { y with tlb := if (opB x f).getLsbD 0 then [] else y.tlb.filter fun k => k.2.1 != slice (opA x f).toNat 31 12 }

section
variable {e : Fin 1028} {f : RegForm} {s u : State}

theorem tlbi_body : ∃ k : Issue, exec (.tlbi e f) s = release e (.tlbi e f) f.delta.toNat f.neg f.pred k s
    ∧ k.body (supEngine (supOf u e).pc.toNat (engine u e)) (supBegun e u) =
      inWorld true e (fun s => (modSup e (tlbAfter f (engine u e)) s, [])) (supBegun e u) := ⟨_, rfl, rfl⟩

theorem swc_body : ∃ k : Issue, exec (.swc e f) s = release e (.swc e f) f.delta.toNat f.neg f.pred k s
    ∧ k.body (supEngine (supOf u e).pc.toNat (engine u e)) (supBegun e u) =
      inWorld false e (fun s => (modSup e (fun y => { y with secure := true, pc := Config.secureEntry }) s, [])) (supBegun e u) :=
  ⟨_, rfl, rfl⟩

theorem swr_body : ∃ k : Issue, exec (.swr e f) s = release e (.swr e f) f.delta.toNat f.neg f.pred k s
    ∧ k.body (supEngine (supOf u e).pc.toNat (engine u e)) (supBegun e u) =
      inWorld true e (fun s => (modSup e (fun y => { y with secure := false }) s, [])) (supBegun e u) := ⟨_, rfl, rfl⟩

end

section
variable {e : Fin 1028} {f : RegForm} {s u : State} (hw : u.wf) (hl : (engine u e).loops = [])
  (hc : condHolds (engine u e) f.neg f.pred = true) (hlock : (engine u e).lockOpen = false)
include hw hl hc hlock

/-- R117, R503: an instruction whose body enters the handler. -/
theorem sys_excepts {i : Instr} {k : Issue} {cause seq : Nat} (hx : exec i s = release e i f.delta.toNat f.neg f.pred k s)
    (hr : supReady s e i u)
    (hb : k.body (supEngine (supOf u e).pc.toNat (engine u e)) (supBegun e u) = (exceptFree e cause seq (supBegun e u), [])) :
    ∃ t va, exec i s = .next t ∧ sysLeaves u t e (inHandler { supOf u e with pc := (supOf u e).pc + 1 } cause 0 seq va (supOf u e).pc) := by
  obtain ⟨t, hexec, hleaves, -⟩ := sys_registers hx hr hw hc hl hlock hb rfl
    (exceptFree_sup ((wf_iff_canonical u).1 hw) e cause seq) rfl rfl rfl rfl
  exact ⟨t, _, hexec, hleaves⟩

/-- An instruction that changes the engine's supervisor registers by `g`. -/
theorem sys_changes {i : Instr} {k : Issue} {g : Sup → Sup} (hx : exec i s = release e i f.delta.toNat f.neg f.pred k s)
    (hr : supReady s e i u)
    (hb : k.body (supEngine (supOf u e).pc.toNat (engine u e)) (supBegun e u) = (modSup e g (supBegun e u), [])) :
    ∃ t, exec i s = .next t ∧ sysLeaves u t e (g { supOf u e with pc := (supOf u e).pc + 1 }) := by
  obtain ⟨t, hexec, hleaves, -⟩ := sys_registers hx hr hw hc hl hlock hb rfl rfl rfl rfl rfl rfl
  exact ⟨t, hexec, hleaves⟩

/-- An instruction without effect but on its counter. -/
theorem sys_nothing {i : Instr} {k : Issue} (hx : exec i s = release e i f.delta.toNat f.neg f.pred k s) (hr : supReady s e i u) {v : State}
    (hb : k.body (supEngine (supOf u e).pc.toNat (engine u e)) (supBegun e u) = (v, [])) (heng : v.eng = (supBegun e u).eng)
    (hsup : v.sup = (supBegun e u).sup) (hmem : v.mem = u.mem) (hpriv : v.priv = u.priv) (hreqs : v.reqs = u.reqs)
    (ht : v.tk.touched = u.tk.touched) :
    ∃ t, exec i s = .next t ∧ sysLeaves u t e { supOf u e with pc := (supOf u e).pc + 1 } ∧ t.nwt = v.nwt := by
  have hcan := (wf_iff_canonical u).1 hw
  have hrs := (supBegun_rising hcan e).2
  obtain ⟨t, hexec, hend⟩ := sup_ends hx hr hw hc hb heng (hsup ▸ hrs) ht hl hlock
  have hve (j : Nat) : supOf v j = supOf (supBegun e u) j := by rw [supOf, hsup]; rfl
  have hleaves := hend.leaves hcan heng (fun j hj => (hve j).trans (supOf_supBegun_ne hcan hj)) hmem hpriv hreqs
  rw [hve, supOf_supBegun hcan] at hleaves
  exact ⟨t, hexec, hleaves, by rw [hend.frame]⟩

/-- R116: IDLE. -/
theorem idle_rests (hr : supReady s e (.idle e f) u) : ∃ t, exec (.idle e f) s = .next t
    ∧ sysLeaves u t e { supOf u e with pc := (supOf u e).pc + 1 } ∧ (engine t e).rest = .sleep := by
  have hcan := (wf_iff_canonical u).1 hw
  obtain ⟨hre, hrs⟩ := supBegun_rising hcan e
  have hge := engine_modEngine_same e (fun x => { x with rest := .sleep }) _ hre
  rw [engine_supBegun hcan] at hge
  obtain ⟨t, hexec, hend⟩ := sup_ends_of (v := modEngine e (fun x => { x with rest := .sleep }) (supBegun e u)) rfl hr hcan hc rfl rfl
    (modEngine_rising _ _ _ hre) hrs (by rw [hge]; exact engine_w hcan e) rfl (by rw [hge]; exact hl) (by rw [hge]; exact hlock)
  obtain ⟨harch, -, -, hrest⟩ := supMoved_keeps (supOf (modEngine e (fun x => { x with rest := .sleep }) (supBegun e u)) e).pc.toNat []
    (engine (modEngine e (fun x => { x with rest := .sleep }) (supBegun e u)) e)
  rw [← hend.eng, hge] at harch hrest
  refine ⟨t, hexec, ⟨hend.supOf_eq.trans (supOf_supBegun hcan e), fun j hj => ?_, ?_, by rw [hend.frame]; rfl, by rw [hend.frame]; rfl,
    by rw [hend.frame]; rfl⟩, hrest⟩
  · obtain ⟨hje, hjs⟩ := hend.others j hj
    exact ⟨hjs.trans (supOf_supBegun_ne hcan hj),
      hje.trans ((engine_modEngine_ne _ _ _ _ hre hj).trans (engine_supBegun_ne hcan hj))⟩
  · exact archKept.trans (archKept.refl _) harch

/-- R116, R503: MTSR. -/
theorem mtsr_writes (hr : supReady s e (.mtsr e f) u) : ∃ t va, exec (.mtsr e f) s = .next t
    ∧ ((opA (engine u e) f).toNat % 4096 = 1 → (supOf u e).secure = true →
      sysLeaves u t e { supOf u e with pc := (supOf u e).pc + 1, ttbS := opB (engine u e) f })
    ∧ ((opA (engine u e) f).toNat % 4096 = 1 → (supOf u e).secure = false →
      sysLeaves u t e (inHandler { supOf u e with pc := (supOf u e).pc + 1 } 7 0 0 va (supOf u e).pc))
    ∧ ((opA (engine u e) f).toNat % 4096 = 2 → sysLeaves u t e { supOf u e with pc := (supOf u e).pc + 1, ttbN := opB (engine u e) f }) := by
  have hcan := (wf_iff_canonical u).1 hw
  have hsec := secure_supBegun hcan e
  obtain ⟨k, hx, hbody⟩ : ∃ k : Issue, exec (.mtsr e f) s = release e (.mtsr e f) f.delta.toNat f.neg f.pred k s
      ∧ ∀ n, slice (opA (engine u e) f).toNat 11 0 = n → k.body (supEngine (supOf u e).pc.toNat (engine u e)) (supBegun e u) =
        if n = 1 then inWorld true e (fun s => (sysWrite e n (opB (engine u e) f) s, [])) (supBegun e u)
        else (sysWrite e n (opB (engine u e) f) (supBegun e u), []) :=
    ⟨_, rfl, fun n hn => by subst hn; rfl⟩
  rw [slice_eq_mod] at hbody
  have hb := hbody _ rfl
  by_cases h1 : (opA (engine u e) f).toNat % 4096 = 1
  · rw [h1, if_pos rfl] at hb
    cases hs : (supOf u e).secure
    · rw [inWorld_other (by rw [hsec, hs]; exact Bool.false_ne_true)] at hb
      obtain ⟨t, va, hexec, hleaves⟩ := sys_excepts hw hl hc hlock hx hr hb
      exact ⟨t, va, hexec, fun _ h => (by cases h), fun _ _ => hleaves, fun h2 => by omega⟩
    · rw [inWorld_same (hsec.trans hs)] at hb
      obtain ⟨t, hexec, hleaves⟩ := sys_changes (g := fun y => { y with ttbS := opB (engine u e) f }) hw hl hc hlock hx hr hb
      exact ⟨t, 0, hexec, fun _ _ => hleaves, fun _ h => (by cases h), fun h2 => by omega⟩
  · rw [if_neg h1] at hb
    obtain ⟨t, hexec, hleaves⟩ := sys_changes (g := _) hw hl hc hlock hx hr hb
    refine ⟨t, 0, hexec, fun h => absurd h h1, fun h => absurd h h1, fun h2 => ?_⟩
    rw [h2] at hleaves
    exact hleaves

/-- R117: an instruction that changes the engine's supervisor registers by `g` in one world, and enters the handler in the other. -/
theorem sys_inWorld {i : Instr} {k : Issue} {secure : Bool} {g : Sup → Sup} (hx : exec i s = release e i f.delta.toNat f.neg f.pred k s)
    (hr : supReady s e i u) (hb : k.body (supEngine (supOf u e).pc.toNat (engine u e)) (supBegun e u) =
      inWorld secure e (fun s => (modSup e g s, [])) (supBegun e u)) :
    ((supOf u e).secure = secure → ∃ t, exec i s = .next t ∧ sysLeaves u t e (g { supOf u e with pc := (supOf u e).pc + 1 }))
    ∧ ((supOf u e).secure ≠ secure → ∃ t va, exec i s = .next t
      ∧ sysLeaves u t e (inHandler { supOf u e with pc := (supOf u e).pc + 1 } 7 0 0 va (supOf u e).pc)) := by
  have hsec := secure_supBegun ((wf_iff_canonical u).1 hw) e
  constructor
  · intro hs
    rw [inWorld_same (hsec.trans hs)] at hb
    exact sys_changes hw hl hc hlock hx hr hb
  · intro hs
    rw [inWorld_other (hsec ▸ hs)] at hb
    exact sys_excepts hw hl hc hlock hx hr hb

/-- R116, R503: MFSR. -/
theorem mfsr_reads (hr : supReady s e (.mfsr e f) u) : ∃ t v, exec (.mfsr e f) s = .next t
    ∧ supOf t e = { supOf u e with pc := (supOf u e).pc + 1 } ∧ t.mem = u.mem
    ∧ (∀ r, r % 64 ≠ 0 → wGet (engine t e) r = if f.d.toNat = r % 64 then v else wGet (engine u e) r)
    ∧ ((opA (engine u e) f).toNat % 4096 = 1 → v = (supOf u e).ttbS) ∧ ((opA (engine u e) f).toNat % 4096 = 2 → v = (supOf u e).ttbN)
    ∧ ((opA (engine u e) f).toNat % 4096 = 16 → v = (supOf u e).cause)
    ∧ ((opA (engine u e) f).toNat % 4096 = 17 → v = (supOf u e).excVa)
    ∧ ((opA (engine u e) f).toNat % 4096 = 18 → v = (supOf u e).excPc) := by
  have hcan := (wf_iff_canonical u).1 hw
  have hz := supOf_supBegun hcan e
  obtain ⟨t, hexec, hsup, hmem, -, hregs⟩ := sys_result (v := supBegun e u)
    (w := sysRead (supBegun e u) e (slice (opA (engine u e) f).toNat 11 0)) rfl hr hw hc hl hlock rfl rfl (supBegun_rising hcan e).2 rfl
  rw [slice_eq_mod] at hregs
  refine ⟨t, _, hexec, hsup.trans hz, hmem, hregs, ?_, ?_, ?_, ?_, ?_⟩ <;> intro hn <;> rw [hn, sysRead, hz]

/-- R116, R494: CAS on a word of the module's own memory. -/
theorem cas_swaps {a : Nat} {w : Bool × Nat × Word} (hr : supReady s e (.cas e f) u)
    (htlb : (supOf u e).tlb.find? (fun t => t.1 == (supOf u e).secure && t.2.1 == slice (opA (engine u e) f).toNat 31 12) = some w)
    (hva : (opA (engine u e) f).toNat < 2 ^ 32)
    (hphys : physical (supOf u e) { rd := true, wr := true } (opA (engine u e) f).toNat w.2.2 = .to true a) :
    ∃ t, exec (.cas e f) s = .next t
      ∧ (∀ r, r % 64 ≠ 0 → wGet (engine t e) r = if f.d.toNat = r % 64 then privGet u a else wGet (engine u e) r)
      ∧ privGet t a = (if privGet u a = opB (engine u e) f then opD (engine u e) f else privGet u a)
      ∧ (∀ b, b ≠ a → privGet t b = privGet u b) ∧ t.mem = u.mem := by
  have hcan := (wf_iff_canonical u).1 hw
  have hz := supOf_supBegun hcan e
  have htrans : translate e { rd := true, wr := true } (opA (engine u e) f).toNat (supBegun e u) = (.to true a, supBegun e u) := by
    unfold translate
    rw [hz]
    dsimp only
    rw [htlb]
    exact congrArg (·, supBegun e u) hphys
  have hcas : supCas e (opA (engine u e) f) (opB (engine u e) f) (opD (engine u e) f) (supBegun e u) =
      (some (privGet u a), if privGet u a = opB (engine u e) f then privSet a (opD (engine u e) f) (supBegun e u) else supBegun e u) := by
    unfold supCas
    rw [vaBad, if_neg (by rw [decide_eq_true_iff]; omega), htrans]
    rfl
  obtain ⟨k, hx, hbody⟩ : ∃ k : Issue, exec (.cas e f) s = release e (.cas e f) f.delta.toNat f.neg f.pred k s
      ∧ ∀ t v, supCas e (opA (engine u e) f) (opB (engine u e) f) (opD (engine u e) f) (supBegun e u) = (some t, v) →
        k.body (supEngine (supOf u e).pc.toNat (engine u e)) (supBegun e u) = (v, [.reg f.d.toNat t]) := by
    refine ⟨_, rfl, fun t v ht => ?_⟩
    show (match supCas e (opA (engine u e) f) (opB (engine u e) f) (opD (engine u e) f) (supBegun e u) with
      | (some t, s) => (s, [Effect.reg f.d.toNat t])
      | (none, s) => (s, [])) = _
    rw [ht]
  have hswap : ∀ v, v = (if privGet u a = opB (engine u e) f then privSet a (opD (engine u e) f) (supBegun e u) else supBegun e u) →
      v.eng = (supBegun e u).eng ∧ v.sup = (supBegun e u).sup ∧ v.tk.touched = u.tk.touched ∧ v.mem = u.mem
        ∧ privGet v a = (if privGet u a = opB (engine u e) f then opD (engine u e) f else privGet u a)
        ∧ ∀ b, b ≠ a → privGet v b = privGet u b := by
    rintro v rfl
    split
    · exact ⟨rfl, rfl, rfl, rfl, tabGet_tabSet_same _ _ _ _ hcan.priv, fun b hb => tabGet_tabSet_other _ _ _ _ _ _ hcan.priv hb⟩
    · exact ⟨rfl, rfl, rfl, rfl, rfl, fun _ _ => rfl⟩
  obtain ⟨heng, hsup, htouched, hmem, hword, hothers⟩ := hswap _ rfl
  obtain ⟨t, hexec, -, htmem, htpriv, hregs⟩ := sys_result hx hr hw hc hl hlock (hbody _ _ hcas) heng
    (hsup ▸ (supBegun_rising hcan e).2) htouched
  have hpriv (b : Nat) := congrArg (tabGet privFill · b) htpriv
  exact ⟨t, hexec, hregs, (hpriv a).trans hword, fun b hb => (hpriv b).trans (hothers b hb), htmem.trans hmem⟩

end

/-! Notices (R499). -/

/-- R499: a notice of a refused write is delivered in the place of an instruction. -/
theorem notice_delivered {i : Instr} {e : Fin 1028} {delta : Nat} {neg : Bool} {pred : BitVec 3} {k : Issue} {s : State} {n : Nat}
    {ns : List Nat} (hx : exec i s = release e i delta neg pred k s) (hcan : Canonical s) (he : 1024 ≤ e.val)
    (hwell : wellFormed i = true) (hwaits : supWaits (engine s e) = false) (hhalts : haltsNow s e = false)
    (hn : (supOf s e).notices = n :: ns) : ∃ t, exec i s = .next t
      ∧ supOf t e = inHandler { supOf s e with notices := ns } 3 0 n 0 (supOf s e).pc
      ∧ t.eng = s.eng ∧ t.mem = s.mem ∧ t.priv = s.priv := by
  have hrun : supRelease e neg pred k (untouched s) =
      enterHandler e 3 0 n 0 (supOf s e).pc (modSup e (fun y => { y with notices := ns }) (untouched s)) := by
    have hwaits' : supWaits (engine (untouched s) e) = false := hwaits
    have hhalts' : haltsNow (untouched s) e = false := hhalts
    have hn' : (supOf (untouched s) e).notices = n :: ns := hn
    rw [supRelease, hwaits', hhalts', hn']
    rfl
  have hfree : freeFor e 0 s (enterHandler e 3 0 n 0 (supOf s e).pc (modSup e (fun y => { y with notices := ns }) (untouched s))) = true :=
    rfl
  rw [hx, release, if_neg (by omega), if_pos hwell, ifFree, hrun]
  simp only [hfree, if_true]
  refine ⟨_, rfl, ?_, rfl, rfl, rfl⟩
  have hset : supOf (modSup e (fun y => { y with notices := ns }) s) e = { supOf s e with notices := ns } :=
    tabGet_tabSet_same _ _ _ _ hcan.sup
  exact (tabGet_tabSet_same _ _ _ _ (tabSet_rising _ _ _ _ hcan.sup)).trans
    (congrArg (fun y => inHandler y 3 0 n 0 (supOf s e).pc) hset)

/-- Settles O23: each function by what its body makes of the engine's supervisor registers, and a notice in the place of any. -/
theorem supervisorFunctions : Obligations.SupervisorFunctions := by
  unfold Obligations.SupervisorFunctions
  refine ⟨fun e f s u x y z hw hx hy hz hl hc hlock => ?_, ⟨fun e f s u x y hw hx hy hl hc hlock => ?_,
    fun i e delta neg pred k s n ns hform hw he hwell hwaits hhalts hn => ?_⟩⟩
  · subst hx hy hz
    have hcan := (wf_iff_canonical u).1 hw
    refine ⟨fun hr => sys_changes (g := fun y => { y with pc := opA (engine u e) f }) hw hl hc hlock rfl hr rfl, fun hr => ?_,
      fun hr => sys_changes (g := fun y => { y with pc := y.excPc, secure := y.excSecure }) hw hl hc hlock rfl hr rfl, fun hr => ?_,
      mfsr_reads hw hl hc hlock, mtsr_writes hw hl hc hlock, fun hr hs => ?_, fun hr => ?_, idle_rests hw hl hc hlock, fun hr => ?_,
      fun hr hs => ?_, fun hr hs => ?_⟩
    · obtain ⟨t, hexec, hsup, hmem, -, hregs⟩ := sys_result
        (v := modSup e (fun y => { y with pc := opA (engine u e) f }) (supBegun e u)) rfl hr hw hc hl hlock rfl rfl
        (tabSet_rising _ _ _ _ (supBegun_rising hcan e).2) rfl
      have hz := supOf_supBegun hcan e
      refine ⟨t, hexec, hsup.trans ?_, fun r hr0 => ?_, hmem⟩
      · rw [supOf_modSup (supBegun_rising hcan e).2, hz]
      · rw [hregs r hr0, hz]
    · rw [← slice_eq_mod]
      exact sys_excepts hw hl hc hlock rfl hr rfl
    · obtain ⟨k, hx, hb⟩ := tlbi_body (e := e) (f := f) (s := s) (u := u)
      obtain ⟨t, hexec, hleaves⟩ := (sys_inWorld hw hl hc hlock hx hr hb).1 hs
      refine ⟨t, hexec, fun h => ?_, fun h => ?_⟩ <;> (rw [tlbAfter, h] at hleaves; exact hleaves)
    · obtain ⟨t, hexec, hleaves, -⟩ := sys_nothing (v := supBegun e u) hw hl hc hlock rfl hr rfl rfl rfl rfl rfl rfl rfl
      exact ⟨t, hexec, hleaves⟩
    · obtain ⟨t, hexec, hleaves, hnwt⟩ := sys_nothing
        (v := modNwt (fun n => { n with strobe := (supBegun e u).now }) (supBegun e u)) hw hl hc hlock rfl hr rfl rfl rfl rfl rfl rfl rfl
      exact ⟨t, hexec, hleaves, by rw [hnwt]; rfl⟩
    · obtain ⟨k, hx, hb⟩ := swc_body (e := e) (f := f) (s := s) (u := u)
      exact (sys_inWorld hw hl hc hlock hx hr hb).1 hs
    · obtain ⟨k, hx, hb⟩ := swr_body (e := e) (f := f) (s := s) (u := u)
      exact (sys_inWorld hw hl hc hlock hx hr hb).1 hs
  · subst hx hy
    refine ⟨fun hr hs => ?_, fun hr hs => ?_, fun hr hs => ?_, fun a w hr htlb hva hphys => cas_swaps hw hl hc hlock hr htlb hva hphys⟩
    · obtain ⟨k, hx, hb⟩ := tlbi_body (e := e) (f := f) (s := s) (u := u)
      exact (sys_inWorld hw hl hc hlock hx hr hb).2 (by rw [hs]; exact Bool.false_ne_true)
    · obtain ⟨k, hx, hb⟩ := swr_body (e := e) (f := f) (s := s) (u := u)
      exact (sys_inWorld hw hl hc hlock hx hr hb).2 (by rw [hs]; exact Bool.false_ne_true)
    · obtain ⟨k, hx, hb⟩ := swc_body (e := e) (f := f) (s := s) (u := u)
      exact (sys_inWorld hw hl hc hlock hx hr hb).2 (by rw [hs]; exact Bool.false_ne_true.symm)
  · obtain ⟨k, hx, -⟩ := exec_instruction hform s
    exact notice_delivered hx ((wf_iff_canonical s).1 hw) he hwell hwaits hhalts hn

end Sys2Proof.Machine
end

section
/-! SUPPORT. HALT, STEP and RESUME, and the release that a halt meets (R113, R512, R578, R580). -/

namespace Sys2Proof.Machine

/-! The release that a halt meets. -/

/-- R119: a reserved encoding reads no operand but the predicate that always holds. -/
theorem atRelease_none (x : Engine) : ({} : Sources).atRelease x = {} ∨ ({} : Sources).atRelease x = { preds := [0] } := by
  unfold Sources.atRelease
  split
  · exact .inl rfl
  · split <;> exact .inr rfl

theorem waitsFor_none (x : Engine) (f : Effect) : (({} : Sources).atRelease x).waitsFor f = false := by
  rcases atRelease_none x with h | h <;> rw [h] <;> cases f
  case inr.pred n v =>
    by_cases hn : n % 8 = 0
    · simp [Sources.waitsFor, hn]
    · simp [Sources.waitsFor, Ne.symm hn]
  all_goals simp [Sources.waitsFor]

theorem mayRelease_reserved {s : State} {e delta : Nat} {q : Sources} {u : UnitKind} (h : mayRelease s e q delta u = true) :
    mayRelease s e {} delta (if u = .shared then .none else u) = true := by
  simp only [mayRelease, Bool.and_eq_true] at h ⊢
  obtain ⟨⟨htiming, -⟩, hunit⟩ := h
  refine ⟨⟨htiming, ?_⟩, ?_⟩
  · have hnone (p : Nat × List Effect) : p.2.any (({} : Sources).atRelease (engine s e)).waitsFor = false :=
      List.any_eq_false.2 fun f _ => by rw [waitsFor_none]; exact Bool.false_ne_true
    simp only [operandsLanded, List.all_eq_true, hnone, Bool.not_false, Bool.or_true, implies_true]
  · cases u <;> simp_all [unitFree]

/-- R580: a release that may happen and that a halt meets. -/
theorem halt_met {s : State} {e : Fin 1028} {i : Instr} {delta : Nat} {neg : Bool} {pred : BitVec 3} {k : Issue}
    (hx : exec i s = release e i delta neg pred k s) (he : e.val < 1024) (hm : mayRelease s e (sources i) delta k.unit = true)
    (hh : haltsNow s e = true) : exec i s = .next (haltEngine e s) := by
  have hmay : mayIssue s e (wellFormed i) (sources i) delta k = true := by
    cases hres : reservedHere s e (wellFormed i)
    · simp [mayIssue, hres, hm]
    · simp only [mayIssue, hres, if_true, idle_unit]
      exact mayRelease_reserved hm
  rw [hx, release, if_pos he, plantRelease, hmay, hh]
  rfl

theorem halt_stands {s : State} (hcan : Canonical s) (e : Nat) : (engine (haltEngine e s) e).halted = true
    ∧ archKept (engine s e) (engine (haltEngine e s) e) ∧ (engine (haltEngine e s) e).pos = (engine s e).pos
    ∧ (haltEngine e s).mem = s.mem ∧ (haltEngine e s).reqs = s.reqs ∧ ∀ j, j ≠ e → engine (haltEngine e s) j = engine s j := by
  have heng (j : Nat) := engine_congr (traceRest_eng e 1 3 (engine s e).pos
    (modEngine e (fun x => { x with halted := true, haltReq := false, stepN := 0 }) s)) j
  have hself := (heng e).trans (engine_modEngine_same _ _ _ hcan.eng)
  unfold haltEngine
  rw [hself]
  exact ⟨rfl, archKept.refl _, rfl, traceRest_mem .., traceRest_reqs .., fun j hj => (heng j).trans (engine_modEngine_ne _ _ _ _ hcan.eng hj)⟩

/-! A halted engine goes on (R580). -/

section
variable {s : State} (hrise : rising s.eng) (hrises : rising s.regs) {e n : Nat}

include hrises in
/-- The state in which the engine's going on is traced. -/
theorem releaseHalted_eq : ∃ u, u.eng = s.eng ∧ u.mem = s.mem ∧ u.out = s.out ∧ regsKept [dbgTrStat] s u
    ∧ releaseHalted e n s = if leadsJoined s e then modEngine (e + 1) (goOn (s.now + (pairOf s (e / 2)).d) 0) (modEngine e (goOn s.now n) u)
      else modEngine e (goOn s.now n) u := by
  refine ⟨if (engine s e).halted then traceRest e 2 4 (engine s e).pos s else s, ?_, ?_, ?_, ?_, rfl⟩ <;> split
  · exact traceRest_eng ..
  · rfl
  · exact traceRest_mem ..
  · rfl
  · exact traceRest_out ..
  · rfl
  · intro a ha
    unfold traceRest
    split
    · exact traceEngine_reg _ _ _ _ _ _ hrises _ (List.ne_of_not_mem_cons ha)
    · rfl
  · exact fun _ _ => rfl

include hrise hrises in
/-- R580: the engine goes on from now, and its trailing engine D ticks later. -/
theorem releaseHalted_goes : engine (releaseHalted e n s) e = goOn s.now n (engine s e)
    ∧ (leadsJoined s e = true → engine (releaseHalted e n s) (e + 1) = goOn (s.now + (pairOf s (e / 2)).d) 0 (engine s (e + 1)))
    ∧ (∀ j, j ≠ e → j ≠ e + 1 → engine (releaseHalted e n s) j = engine s j) ∧ (releaseHalted e n s).mem = s.mem
    ∧ (releaseHalted e n s).out = s.out ∧ regsKept [dbgTrStat] s (releaseHalted e n s) := by
  obtain ⟨u, heng, hmem, hout, hregs, hgo⟩ := releaseHalted_eq hrises (e := e) (n := n)
  have hu : rising u.eng := heng ▸ hrise
  have hm := modEngine_rising e (goOn s.now n) u hu
  have hself : engine (modEngine e (goOn s.now n) u) e = goOn s.now n (engine s e) := by
    rw [engine_modEngine_same _ _ _ hu, engine_congr heng]
  have hne (j : Nat) (hj : j ≠ e) : engine (modEngine e (goOn s.now n) u) j = engine s j :=
    (engine_modEngine_ne _ _ _ _ hu hj).trans (engine_congr heng j)
  rw [hgo]
  split
  · refine ⟨?_, fun _ => ?_, fun j hj hj' => ?_, hmem, hout, hregs⟩
    · rw [engine_modEngine_ne _ _ _ _ hm (by omega), hself]
    · rw [engine_modEngine_same _ _ _ hm, hne _ (by omega)]
    · rw [engine_modEngine_ne _ _ _ _ hm hj', hne j hj]
  · next hl => exact ⟨hself, fun h => absurd h hl, fun j hj _ => hne j hj, hmem, hout, hregs⟩

end

/-! The requests. -/

section
variable {q : Rq} {s : State} {e : Nat}

/-- R113: a HALT asks for the halt of an engine that is not halted. -/
def haltAsked (x : Engine) : Engine := if x.halted then x else { x with haltReq := true, stepN := 0 }

theorem haltBarred_status {n st : Nat} (h : haltBarred s n e = some st) : st = 2 ∨ st = 3 ∨ st = 6 := by
  unfold haltBarred at h
  generalize (if e < 1024 then 2 else 3) = m at h
  split at h
  · exact .inl (Option.some.inj h).symm
  · split at h
    · exact .inr (.inl (Option.some.inj h).symm)
    · split at h
      · exact .inr (.inr (Option.some.inj h).symm)
      · cases h

/-- R512, R578: a debug command on an engine: the reason that bars it, or its effect. -/
theorem onEngine_served {h : HostReq} {range : Bool} (body : State → State) (hm : mayServe s q h.roles false) (hexcl : h.excl = false)
    (he : e < 1028) (hr : range = true) : ∃ se ne, arrive q h (onEngine q h e range body) s =
      .next (match haltBarred s q.sess e with
        | some st => answer q st 0 [] (bookkept se ne s)
        | none => body (bookkept se ne s)) :=
  arrive_served (form := true) (range := e < 1028 && range) _ hm (fun h => by rw [hexcl] at h; cases h) rfl (by simp [he, hr])

/-- A barred command. -/
theorem onEngine_barred {h : HostReq} {range : Bool} (body : State → State) (hm : mayServe s q h.roles false) (hexcl : h.excl = false)
    (he : e < 1028) (hr : range = true) {st : Nat} (hb : haltBarred s q.sess e = some st) :
    ∃ t, arrive q h (onEngine q h e range body) s = .next t ∧ onlyAnswers s t ∧ answered s t q 0x052 0 (debugWords st 0 []) := by
  obtain ⟨se, ne, hexec⟩ := onEngine_served body hm hexcl he hr
  rw [hb] at hexec
  exact ⟨_, hexec, respond_answers ..⟩

end

section
variable {q : Rq} {s : State} {e : Nat} (hw : s.wf) (hm : mayServe s q [.service] false) (he : e < 1028)
  (hb : haltBarred s q.sess e = none)
include hw hm he hb

theorem halt_asked : ∃ t, exec (.halt q e) s = .next t
    ∧ answered s t q 0x052 0 (debugWords (if (engine s e).lockOpen = true then 4 else 0) 0 [])
    ∧ ((engine s e).halted = false → engine t e = { engine s e with haltReq := true, stepN := 0 })
    ∧ ((engine s e).halted = true → engine t e = engine s e)
    ∧ (∀ j, j ≠ e → engine t j = engine s j) ∧ t.regs = s.regs ∧ t.mem = s.mem := by
  have hcan := (wf_iff_canonical s).1 hw
  obtain ⟨se, ne, hexec⟩ := onEngine_served (h := .halt e) (range := true) (fun s => answer q (if (engine s e).lockOpen then 4 else 0) 0 []
    (modEngine e haltAsked s)) hm rfl he rfl
  rw [hb] at hexec
  have hself := engine_modEngine_same e haltAsked s hcan.eng
  refine ⟨_, hexec, rfl, fun hh => hself.trans (if_neg (by rw [hh]; exact Bool.false_ne_true)),
    fun hh => hself.trans (if_pos hh), fun j hj => engine_modEngine_ne e j haltAsked s hcan.eng hj,
    rfl, rfl⟩

theorem resume_goes : ∃ t, exec (.resume q e) s = .next t ∧ answered s t q 0x052 0 (debugWords 0 0 [])
    ∧ (engine t e).halted = false ∧ (engine t e).haltReq = false ∧ (engine t e).stepN = 0 ∧ (engine t e).pos = (engine s e).pos
    ∧ (engine t e).w = (engine s e).w ∧ ((engine s e).halted = true → (engine t e).prev = s.now)
    ∧ ((engine s e).halted = false → (engine t e).prev = (engine s e).prev)
    ∧ (leadsJoined s e = true → (engine s (e + 1)).halted = true → (engine t (e + 1)).halted = false
      ∧ (engine t (e + 1)).prev = s.now + (pairOf s (e / 2)).d)
    ∧ (∀ j, j ≠ e → j ≠ e + 1 → engine t j = engine s j) ∧ t.mem = s.mem ∧ regsKept [dbgTrStat] s t := by
  have hcan := (wf_iff_canonical s).1 hw
  obtain ⟨se, ne, hexec⟩ := onEngine_served (h := .resume e) (range := true) (fun s => answer q 0 0 [] (releaseHalted e 0 s)) hm rfl he rfl
  rw [hb] at hexec
  obtain ⟨hself, hpair, hothers, hmem, hout, hregs⟩ := releaseHalted_goes (s := bookkept se ne s) hcan.eng hcan.regs (e := e) (n := 0)
  generalize releaseHalted e 0 (bookkept se ne s) = v at hexec hself hpair hothers hmem hout hregs
  have hte : engine (answer q 0 0 [] v) e = goOn s.now 0 (engine s e) := hself
  refine ⟨_, hexec, congrArg (· ++ [_]) hout, ?_, ?_, ?_, ?_, ?_, fun hh => ?_, fun hh => ?_, fun hl hh => ?_, hothers, hmem, hregs⟩
  · rw [hte]; rfl
  · rw [hte]; rfl
  · rw [hte]; rfl
  · rw [hte]; rfl
  · rw [hte]; rfl
  · rw [hte]; exact if_pos hh
  · rw [hte]; exact if_neg (by rw [hh]; exact Bool.false_ne_true)
  · have htp : engine (answer q 0 0 [] v) (e + 1) = goOn (s.now + (pairOf s (e / 2)).d) 0 (engine s (e + 1)) := hpair hl
    rw [htp]
    exact ⟨rfl, if_pos hh⟩

theorem step_goes {n : Nat} (h1 : 1 ≤ n) (hn : n ≤ 64) : ∃ t, exec (.step q e n) s = .next t ∧ answered s t q 0x052 0 (debugWords 0 0 [])
    ∧ (engine t e).halted = false ∧ (engine t e).haltReq = false ∧ (engine t e).stepN = n ∧ (engine t e).w = (engine s e).w
    ∧ ((engine s e).halted = true → (engine t e).prev = s.now) ∧ t.mem = s.mem := by
  have hcan := (wf_iff_canonical s).1 hw
  obtain ⟨se, ne, hexec⟩ := onEngine_served (h := .step e n) (range := 1 ≤ n && n ≤ 64) (fun s => answer q 0 0 [] (releaseHalted e n s)) hm
    rfl he (by simp [h1, hn])
  rw [hb] at hexec
  obtain ⟨hself, -, -, hmem, hout, -⟩ := releaseHalted_goes (s := bookkept se ne s) hcan.eng hcan.regs (e := e) (n := n)
  generalize releaseHalted e n (bookkept se ne s) = v at hexec hself hmem hout
  have hte : engine (answer q 0 0 [] v) e = goOn s.now n (engine s e) := hself
  refine ⟨_, hexec, congrArg (· ++ [_]) hout, ?_, ?_, ?_, ?_, fun hh => ?_, hmem⟩
  · rw [hte]; rfl
  · rw [hte]; rfl
  · rw [hte]; rfl
  · rw [hte]; rfl
  · rw [hte]; exact if_pos hh

end

/-- Settles O37: what bars a command on an engine, what each makes of it, and the release that a halt meets. -/
theorem haltStepAndResume : Obligations.HaltStepAndResume := by
  unfold Obligations.HaltStepAndResume
  refine fun q s hw hm => ⟨fun e n st he h1 hn hb => ⟨haltBarred_status hb, ?_⟩, fun e n he h1 hn hb =>
    ⟨halt_asked hw hm he hb, resume_goes hw hm he hb, step_goes hw hm he hb h1 hn⟩,
    fun i e delta neg pred u hform he hmay hh => ?_⟩
  · simp only [List.forall_mem_cons, List.not_mem_nil, false_implies, implies_true, and_true]
    exact ⟨onEngine_barred (h := .halt e) (range := true) _ hm rfl he rfl hb,
      onEngine_barred (h := .resume e) (range := true) _ hm rfl he rfl hb,
      onEngine_barred (h := .step e n) (range := 1 ≤ n && n ≤ 64) _ hm rfl he (by simp [h1, hn]) hb⟩
  · obtain ⟨k, hx, hunit, -⟩ := exec_instruction hform s
    exact ⟨_, halt_met hx he (hunit ▸ hmay) hh, halt_stands ((wf_iff_canonical s).1 hw) e⟩

end Sys2Proof.Machine
end

section
/-! SUPPORT. The refutation of O22. Its first clause asks only that a request's address lie in shared memory, and says of every such
request that no engine but its master changes. A software event's request with such an address (none is released so, R99, but the
canonical form admits it) is gated at its target's local data and reaches the target's event queue. -/

namespace Sys2Proof.Machine

/-- A due software event of engine 0 for engine 5, at the first word of shared memory. -/
def strayEvent : Req :=
  { master := 0, secure := false, addr := 0, op := .evs 5 0x0A00 0, rel := 0, acc := 0, hops := 0, ord := 0, word := 0 }

/-- The state in which it waits, region 0 granting every master's writes of engine 5's local data from the normal world. -/
def strayService : State :=
  { regs := [(gateR 0 0, evsAddr 5), (gateR 0 1, evsAddr 5), (gateR 0 2, 0xD400007FF)], reqs := [strayEvent] }

theorem strayService_wf : strayService.wf := (wf_iff_canonical _).2 (by constructor <;> decide)

theorem strayEvent_granted : gate strayService 0 false .write (evsAddr 5) = none := by decide

/-- The events that wait at engine 5 after the point is served. -/
def eventsAfter : Host.Outcome State Fault Refusal → Nat
  | .next t => (engine t 5).evq.length
  | _ => 0

/-- R99: the event reaches engine 5. -/
theorem strayService_enqueues : eventsAfter (exec (.sharedAccessService (pointOf strayEvent.addr)) strayService) = 1 := by decide

/-- Refutes O22: the service of the stray event changes engine 5, which is not its master. -/
theorem not_serviceAndLanding : ¬ Obligations.ServiceAndLanding := by
  unfold Obligations.ServiceAndLanding
  rintro ⟨hserve, -⟩
  obtain ⟨t, hexec, -, -, -, -, -, hothers⟩ := hserve strayService strayEvent strayService_wf (by decide) (by decide) (by decide)
    (by decide) (by decide) (by decide) (by decide)
  have hqueue := strayService_enqueues
  rw [hexec, eventsAfter, hothers 5 (by decide)] at hqueue
  exact absurd hqueue (by decide)

end Sys2Proof.Machine
end

section
/-! SUPPORT. What every command answers, and commands that complete under conditions alone: the pair's comparisons and self-tests,
the signal chains, the claim and the time inputs (R69, R101, R209 to R221, R308 to R318, R338 to R349, R373 to R396, R533). -/

namespace Sys2Proof.Machine

/-! Every command answers a next state, but for the two conditions (R69, R533). -/

/-- The command is answered with a next state. -/
def Continues (o : Host.Outcome State Fault Refusal) : Prop := ∃ t, o = .next t

theorem continues_next (t : State) : Continues (.next t) := ⟨t, rfl⟩

/-- The decision is implicit, to be found with the command's own condition. -/
theorem continues_ite {c : Prop} {d : Decidable c} {a b : Host.Outcome State Fault Refusal} (ha : Continues a)
    (hb : Continues b) : Continues (if c then a else b) := by
  split <;> assumption

/-- The feed events that a withstand bounds (R533). -/
def bearsWithstand : Instr → Bool
  | .feedDrop .. | .feedOvervoltage .. | .feedReverse .. => true
  | _ => false

/-- Every request of a host is answered, queued or served (R553, R559). -/
theorem arrive_continues (q : Rq) (h : HostReq) (serve : State → State) (s : State) : Continues (arrive q h serve s) := by
  unfold arrive
  split
  · exact continues_next _
  · exact continues_ite (continues_next _) (continues_ite (continues_next _) (continues_next _))

/-- The commands that are no instructions and no feed event: requests of a host, unconditional ones, and those that wait for
conditions or for what the state holds. -/
theorem exec_continues {i : Instr} (hi : instrForm i = none) (hf : bearsWithstand i = false) (s : State) :
    Continues (exec i s) := by
  cases i with
  | feedDrop | feedOvervoltage | feedReverse => cases hf
  | hostFramingError => exact continues_ite (continues_next _) (arrive_continues ..)
  | ident | echo | status | read | log | telem | pmucfg | stop | restart | switch | hostUnlock | fpline | uopen | ublock
  | uclose | ucopy | activate | arm | vaultGenerateDeviceKey | vaultInstallDeviceCert | vaultInstallConfigKey
  | vaultInstallTrustAnchor | vaultInstallDebugKeys | vaultInstallAccessAnchor | vaultReplaceCrl | vaultDeleteSlot
  | vaultListSlots | zeroise | commission | dbgchal | dbggrant | peek | take | poke | halt | resume | step | regs =>
    exact arrive_continues ..
  | comparatorCheck | tripleStoreScrub | speedMeasurement | analogueRecalibration | commitComplete | transmitAttempt
  | integrationComplete | groupSupplyFail | txptrWrite | txcanCancel | rxack | cfgEnter | cfgLeave | loreqSet | loreqClear
  | borec | unmute | clockTick | pllUnlock | pdelayReqSend | pdelayReqReceive | gmChangeHoldEnd | ppsEdge | irigFrame
  | trendLearned | feedptrWrite | feedProcess | channelGo | channelStop | syncArmNextPps | syncArmMidnight | c37DataOff
  | c37DataOn | c37SendHeader | c37SendCfg2 | c37SendCfg3 | c37Cfg1Ignored | c37ExtendedFrameIgnored | presenceDebounceEnd
  | noticeReceive | deltaReceive | sweepReceive | endReceive | abandonReceive | ackReceive | joinReceive | cloneReceive
  | finalReceive | fabricRailFault | internalRailFault | safDrvCmdWrite | safConnRxWrite | safResumeWrite | safUnlockGo
  | darkTest | monitorDiscrepancy | forcingPathTest | inputCrossing | filteredBandChange | lioOutWrite | pwmReload
  | groupFieldSupplyChange | testSupplyRetry | loopSample | storeCapacityTest | tlsFailure | networkFrameDrop | drbgReseed
  | secRngRead | fabLateRead | dayOvrRead | cmpMismRead | gateViolRead | dbgTrrdRead | dayNumlRead | timClknsRead
  | counterReadClear | gateRegionWrite | registerWrite | peerDelayTimeout | irigSignalLoss | groupSupplyReturn | pllRelock =>
    exact continues_next _
  | comparatorSelfTest | detectorSelfTest | comparatorArm | engineImageCapture | memoryScrub | midnight | dayWatchdogCheck
  | checkpointCut | deltaFrameSend | endFrameSend | duskStart | sweepFrameSend | noonEvaluation | changeLoaderComplete
  | beaconSend | beaconMissed | transmitSuccess | errorDetected | busOffRecoveryComplete | protocolException | dominantTimeout
  | driverCurrentLimit | driverDisable | frameValid | clockStep | daySequencerStart | ptpSyncReceive | ptpAnnounceReceive
  | pdelayRespReceive | leapApply | farSourceReport | timeWaitExpiry | ppsOutputEdge | syncArmFail | c37ConnectionAccept
  | c37FrameTimeout | remoteCfg2Receive | remoteStreamLost | remoteCfg2Rerequest | mandateLoopStateChange | presenceChange
  | claimLatchSet | claimConfirmation | loopError | switchoverReadback | switchoverRelease | switchoverFallbackCheck
  | noticeSend | laneDown | supervisorHeartbeatTimeout | feedsLost | nightwatchRailLoss | startThresholdReached | daybreak
  | daybreakStepTimeout | testPulseStart | testPulseCheck | testPulseEnd | contactorFeedbackTimeout | outputOverload
  | outputReadbackFault | openLoad | testSupplyOverload | faceplatePassStart | feedReconnect | storeStateChange
  | interfaceOvertemp | icmpEcho | rngReady | rngHealthFail | telemetryCollection | traceWrite | feedReturn | syncMissing
  | partnerLoopUnknownRepeat =>
    repeat' apply continues_ite
    all_goals exact continues_next _
  | resultLanding | sharedAccessService | waittTargetReached | eventWake | waitDeadline | pairInputReplay | tripleStoreRepair
  | echoRequestSend | echoReplyReceive | delayNoticeSend | frameDeposit | announceTimeout | sourceRevert | lockAcquired
  | holdLongEntry | c37DataFrameSend | remoteDataFrameReceive | yieldRecheck | cloneComplete | dayHeartbeatTimeout | sundown
  | resetAssert | resetRelease | retryWaitExpiry | coldStartRelease | freezeEnd | loadingSettle | faceplatePassComplete
  | faceplatePassAbandon | hostConnection | sessionIdleTimeout | keyUpdate | grantExpiry | updateSessionLoss | logEntryWrite
  | ppsEdgeMissing | cloneFrameSend =>
    simp only [exec, execResultLanding, execSharedAccessService, execWaittTargetReached, execEventWake,
      execWaitDeadline, execPairInputReplay, execTripleStoreRepair, execEchoRequestSend, execEchoReplyReceive,
      execDelayNoticeSend, execFrameDeposit, execAnnounceTimeout, execSourceRevert, execLockAcquired,
      execHoldLongEntry, execC37DataFrameSend, execRemoteDataFrameReceive, execYieldRecheck, execCloneComplete,
      execDayHeartbeatTimeout, execSundown, execResetAssert, execResetRelease, execRetryWaitExpiry,
      execColdStartRelease, execFreezeEnd, execLoadingSettle, execFaceplatePassComplete, execFaceplatePassAbandon,
      execHostConnection, execSessionIdleTimeout, execKeyUpdate, execGrantExpiry, execUpdateSessionLoss,
      execLogEntryWrite, execPpsEdgeMissing, execCloneFrameSend]
    repeat' split
    all_goals exact continues_next _
  | _ => cases hi

/-- An instruction stops the machine only as a reserved encoding of a supervisor engine. -/
theorem release_continues (e : Fin 1028) (i : Instr) (delta : Nat) (neg : Bool) (pred : BitVec 3) (k : Issue) (s : State) :
    Continues (release e i delta neg pred k s)
      ∨ 1024 ≤ e.val ∧ wellFormed i = false ∧ release e i delta neg pred k s = .fault (.reservedOnSupervisor e.val) := by
  unfold release
  split
  · exact .inl (continues_next _)
  · split
    · exact .inl (continues_next _)
    · next he hf => exact .inr ⟨Nat.le_of_not_lt he, Bool.eq_false_of_not_eq_true hf, rfl⟩

/-- A feed event stops the machine only beyond the withstand (R533). -/
theorem feed_continues {i : Instr} (hf : bearsWithstand i = true) (s : State) : Continues (exec i s)
    ∨ ∃ (k : Fin 2) (v : Int),
      ((i = .feedOvervoltage k v ∧ 80000 < v) ∨ ((i = .feedReverse k v ∨ i = .feedDrop k v) ∧ v < -60000))
      ∧ exec i s = .fault (.feedBeyondWithstand (k.val + 1)) := by
  cases i with
  | feedDrop k v =>
    by_cases hv : v < -60000
    · exact .inr ⟨k, v, .inr ⟨.inr rfl, hv⟩, if_pos hv⟩
    · exact .inl (by rw [exec, execFeedDrop, if_neg hv]; exact continues_ite (continues_next _) (continues_next _))
  | feedOvervoltage k v =>
    by_cases hv : 80000 < v
    · exact .inr ⟨k, v, .inl ⟨rfl, hv⟩, if_pos hv⟩
    · exact .inl (by rw [exec, execFeedOvervoltage, if_neg hv]; exact continues_ite (continues_next _) (continues_next _))
  | feedReverse k v =>
    by_cases hv : v < -60000
    · exact .inr ⟨k, v, .inr ⟨.inl rfl, hv⟩, if_pos hv⟩
    · exact .inl (by rw [exec, execFeedReverse, if_neg hv]; exact continues_ite (continues_next _) (continues_next _))
  | _ => cases hf

theorem exec_stops (i : Instr) (s : State) : (∃ t, exec i s = .next t)
    ∨ (∃ e : Fin 1028, 1024 ≤ e.val ∧ wellFormed i = false ∧ exec i s = .fault (.reservedOnSupervisor e.val))
    ∨ (∃ (k : Fin 2) (v : Int),
      ((i = .feedOvervoltage k v ∧ 80000 < v) ∨ ((i = .feedReverse k v ∨ i = .feedDrop k v) ∧ v < -60000))
      ∧ exec i s = .fault (.feedBeyondWithstand (k.val + 1))) := by
  cases hi : instrForm i with
  | some x =>
    obtain ⟨k, hx, -⟩ := exec_instruction hi s
    rw [hx]
    exact (release_continues ..).imp_right fun h => .inl ⟨_, h⟩
  | none =>
    cases hf : bearsWithstand i with
    | true => exact (feed_continues hf s).imp_right .inr
    | false => exact .inl (exec_continues hi hf s)

/-! What leaves a field of a register as it was. -/

/-- The register file stays in order, and the field `a[hi:lo]` reads as before. -/
structure FieldKept (a hi lo : Nat) (s t : State) : Prop where
  keeps : rising s.regs → rising t.regs ∧ getF t a hi lo = getF s a hi lo

section
variable {a hi lo : Nat} {s t : State}

theorem FieldKept.refl (a hi lo : Nat) (s : State) : FieldKept a hi lo s s := ⟨fun h => ⟨h, rfl⟩⟩

/-- What writes no register keeps every field. -/
protected theorem FieldKept.same (h : FieldKept a hi lo s t) {u : State} (hu : u.regs = t.regs) : FieldKept a hi lo s u := by
  constructor
  intro hr
  obtain ⟨ht, hf⟩ := h.keeps hr
  exact ⟨hu ▸ ht, by rw [← hf, getF, getF, reg, reg, hu]⟩

/-- A write of another register, or of other bits of the same one. -/
protected theorem FieldKept.setF (h : FieldKept a hi lo s t) {b y x : Nat} (v : Nat)
    (hd : b ≠ a ∨ y < lo ∨ hi < x := by decide)
    (hb : lo ≤ hi ∧ x ≤ y ∧ y < 36 := by decide) : FieldKept a hi lo s (Machine.setF t b y x v) := by
  constructor
  intro hr
  obtain ⟨ht, hf⟩ := h.keeps hr
  refine ⟨setF_rising _ _ _ _ _ ht, hf ▸ ?_⟩
  by_cases hba : b = a
  · subst hba
    exact getF_setF_other _ _ _ _ _ _ _ ht hb.2.1 hb.2.2 hb.1 (hd.resolve_left (absurd rfl))
  · exact getF_setF_ne _ _ _ _ _ _ _ _ ht (Ne.symm hba)

protected theorem FieldKept.setBit (h : FieldKept a hi lo s t) {b n : Nat} (v : Bool)
    (hd : b ≠ a ∨ n < lo ∨ hi < n := by decide)
    (hb : lo ≤ hi ∧ n ≤ n ∧ n < 36 := by decide) : FieldKept a hi lo s (Machine.setBit t b n v) :=
  (h.setF (if v then 1 else 0) hd hb).same rfl

protected theorem FieldKept.addSat (h : FieldKept a hi lo s t) {b y x : Nat} (n : Nat)
    (hd : b ≠ a ∨ y < lo ∨ hi < x := by decide)
    (hb : lo ≤ hi ∧ x ≤ y ∧ y < 36 := by decide) : FieldKept a hi lo s (Machine.addSat t b y x n) :=
  (h.setF _ hd hb).same rfl

protected theorem FieldKept.hwField (h : FieldKept a hi lo s t) {b y x : Nat} (v : Nat)
    (hd : b ≠ a ∨ y < lo ∨ hi < x := by decide)
    (hb : lo ≤ hi ∧ x ≤ y ∧ y < 36 := by decide) : FieldKept a hi lo s (Machine.hwField t b y x v) := by
  refine FieldKept.same (t := if t.tk.wrote.contains b then t else Machine.setF t b y x v) ?_ rfl
  split
  · exact h
  · exact h.setF v hd hb

protected theorem FieldKept.raise (h : FieldKept a hi lo s t) (code detail : Nat)
    (ha : a ≠ midLastF ∧ a ≠ midLog := by decide) : FieldKept a hi lo s (Machine.raise code detail t) := by
  constructor
  intro hr
  obtain ⟨ht, hf⟩ := h.keeps hr
  exact ⟨raise_rising _ _ _ ht, by rw [← hf, getF, raise_reg _ _ _ ht a ha.1 ha.2, getF]⟩

protected theorem FieldKept.ite (c : Prop) [Decidable c] {u : State} (ht : FieldKept a hi lo s t) (hu : FieldKept a hi lo s u) :
    FieldKept a hi lo s (if c then t else u) := by
  split <;> assumption

protected theorem FieldKept.breach (h : FieldKept a hi lo s t) : FieldKept a hi lo s (Machine.breach t) := h.same (breach_regs t)

protected theorem FieldKept.traceEngine (h : FieldKept a hi lo s t) (e ty kind value pos : Nat)
    (hd : dbgTrStat ≠ a := by decide) (hl : lo ≤ hi := by decide) :
    FieldKept a hi lo s (Machine.traceEngine e ty kind value pos t) := by
  refine .ite _ ?_ h
  refine .ite _ (h.same rfl) (.addSat ?_ _ (.inl hd) ⟨hl, by decide⟩)
  exact h.same rfl

/-- After its own write the field reads what was written, modulo its width. -/
theorem FieldKept.getF_setF {v : Nat} (h : FieldKept a hi lo (Machine.setF s a hi lo v) t) (hr : rising s.regs)
    (hb : lo ≤ hi ∧ hi < 36 := by decide) : getF t a hi lo = v % 2 ^ (hi + 1 - lo) :=
  (h.keeps (setF_rising _ _ _ _ _ hr)).2.trans (getF_setF_same _ _ _ _ _ hr hb.1 hb.2)

theorem FieldKept.bitOf_setBit {n : Nat} (h : FieldKept a n n (Machine.setBit s a n) t) (hr : rising s.regs)
    (hn : n < 36 := by decide) : bitOf t a n = true := by
  rw [bitOf, (h.keeps (setBit_rising _ _ _ _ hr)).2, ← bitOf]
  exact bitOf_setBit_same _ _ _ _ hr hn

end

/-! The pair's inputs, comparisons and self-tests, and the images (R209 to R221). -/

section
variable {s : State}

theorem pairInputReplay_drops (hw : s.wf) {k : Fin 512} {b : BufEnt} {bs : List BufEnt} (hb : (pairOf s k).buf = b :: bs)
    (ht : b.tick + (pairOf s k).d ≤ s.now) : ∃ t, exec (.pairInputReplay k false) s = .next t ∧ (pairOf t k).buf = bs := by
  have hcan := (wf_iff_canonical s).1 hw
  have hset : pairOf (setPair s k.val { pairOf s k with buf := bs }) k = { pairOf s k with buf := bs } :=
    tabGet_tabSet_same _ _ _ _ hcan.pairs
  refine ⟨_, by simp only [exec, execPairInputReplay, hb, if_pos ht]; rfl, ?_⟩
  exact congrArg Pair.buf hset

theorem firstDiff_self (l : List Word) : firstDiff l l = none := by
  induction l with
  | nil => rfl
  | cons x l ih => rw [firstDiff, if_pos rfl, ih]

/-- Two records that agree leave the pair's lists and nothing else. -/
theorem compareNext_agrees {k : Nat} {p : Pair} {a b : Tx} {ls ts : List Tx} (hl : p.lead = a :: ls) (ht : p.trail = b :: ts)
    (ha : a.kind < 5) (hk : b.kind = a.kind) (hf : b.fields = a.fields) (hd : b.tick = a.tick + p.d) (hn : b.tick < s.now) :
    compareNext k p s = setPair s k { p with lead := ls, trail := ts } := by
  rw [compareNext, hl, ht]
  simp only [hd ▸ hn, hd, hk, hf, ha.ne, compareTx, firstDiff_self, lt_irrefl, ne_eq, not_true, false_and, if_false]
  rw [if_neg (by omega)]

theorem comparatorCheck_agrees (hw : s.wf) {k : Fin 512} {a b : Tx} {ls ts : List Tx} (harm : (pairOf s k).armed = true)
    (hl : (pairOf s k).lead = a :: ls) (ht : (pairOf s k).trail = b :: ts) (ha : a.kind < 5) (hk : b.kind = a.kind)
    (hf : b.fields = a.fields) (hd : b.tick = a.tick + (pairOf s k).d) (hn : b.tick < s.now) :
    ∃ t, exec (.comparatorCheck k) s = .next t ∧ (pairOf t k).lead = ls ∧ (pairOf t k).trail = ts ∧ t.mism = s.mism := by
  have hset : pairOf (setPair s k.val { pairOf s k with lead := ls, trail := ts }) k
      = { pairOf s k with lead := ls, trail := ts } := tabGet_tabSet_same _ _ _ _ ((wf_iff_canonical s).1 hw).pairs
  have hx : exec (.comparatorCheck k) s = .next (setPair s k.val { pairOf s k with lead := ls, trail := ts }) := by
    rw [exec, execComparatorCheck, if_pos harm, compareNext_agrees hl ht ha hk hf hd hn]
  exact ⟨_, hx, congrArg Pair.lead hset, congrArg Pair.trail hset, rfl⟩

protected theorem FieldKept.mismRecord {u t : State} {n : Nat} (h : FieldKept cmpStatus n n u t) (hn : n < 8)
    (code k kind pos : Nat) (lead trail : Word) :
    FieldKept cmpStatus n n u (Machine.mismRecord code k kind pos lead trail t) :=
  .ite _ (h.same rfl) (h.addSat _ (.inr (.inr hn)) (by omega))

protected theorem FieldKept.safetySignal {u t : State} {n : Nat} (h : FieldKept cmpStatus n n u t) (code detail : Nat) :
    FieldKept cmpStatus n n u (Machine.safetySignal code detail t) := by
  have hf : FieldKept cmpStatus n n u { t with saf := { t.saf with frozen := true } } := h.same rfl
  exact (hf.setBit true (.inl (by decide)) ⟨le_rfl, le_rfl, by split <;> decide⟩).raise code detail

protected theorem FieldKept.mismatchResponse {u t : State} {n : Nat} (h : FieldKept cmpStatus n n u t) (k : Nat) :
    FieldKept cmpStatus n n u (Machine.mismatchResponse k t) := by
  have hf : ∀ {x}, FieldKept cmpStatus n n u x → FieldKept cmpStatus n n u (Machine.setBit x fabStatus 0) := fun hx =>
    hx.setBit true (.inl (by decide)) ⟨le_rfl, le_rfl, by decide⟩
  unfold Machine.mismatchResponse
  split
  · exact (hf (.ite _ (h.safetySignal _ _) h)).breach
  · exact hf h
  · exact h

theorem comparatorSelfTest_completes (hw : s.wf) {k : Fin 512} {x y : Word} (h0 : restsNow (engine s (2 * k.val)) = true)
    (h1 : restsNow (engine s (2 * k.val + 1)) = true) :
    ∃ t, exec (.comparatorSelfTest k false x y) s = .next t ∧ bitOf t cmpStatus 2 = true := by
  have hr := ((wf_iff_canonical s).1 hw).regs
  refine ⟨_, by simp only [exec, execComparatorSelfTest, h0, h1]; rfl, ?_⟩
  exact FieldKept.bitOf_setBit (((((FieldKept.refl _ _ _ _).raise _ _).mismRecord (by decide) _ _ _ _ _ _).mismatchResponse _)) hr

protected theorem FieldKept.lateRecord {u t : State} (h : FieldKept fabStatus 7 7 u t) (code master pos sch act : Nat) :
    FieldKept fabStatus 7 7 u (Machine.lateRecord code master pos sch act t) :=
  .ite _ ((h.setBit _).same rfl) ((h.setBit _).addSat _)

protected theorem FieldKept.lateEvent {u t : State} (h : FieldKept fabStatus 7 7 u t) (code master pos sch act : Nat) :
    FieldKept fabStatus 7 7 u (Machine.lateEvent code master pos sch act t) :=
  (((h.lateRecord _ _ _ _ _).raise _ _).traceEngine _ _ _ _ _).breach

theorem detectorSelfTest_completes (hw : s.wf) {c : Fin 64} (h : ∀ i < 16, restsNow (engine s (16 * c.val + i)) = true) :
    ∃ t, exec (.detectorSelfTest c false) s = .next t ∧ bitOf t fabStatus 7 = true := by
  have hall : (List.range 16).all (fun i => restsNow (engine s (16 * c.val + i))) = true :=
    List.all_eq_true.2 fun i hi => h i (List.mem_range.1 hi)
  refine ⟨_, by simp only [exec, execDetectorSelfTest, hall]; rfl, ?_⟩
  exact FieldKept.bitOf_setBit ((FieldKept.refl _ _ _ _).lateEvent _ _ _ _ _) ((wf_iff_canonical s).1 hw).regs

theorem comparatorArm_arms (hw : s.wf) {k : Fin 512} (hj : (pairOf s k).joined = true) (ha : (pairOf s k).armed = false)
    (hd : dayTick s = 71) : ∃ t, exec (.comparatorArm k) s = .next t ∧ (pairOf t k).armed = true := by
  refine ⟨_, by simp only [exec, execComparatorArm, hj, ha, hd]; rfl, ?_⟩
  rw [modPair, pairOf, setPair, tabGet_tabSet_same _ _ _ _ ((wf_iff_canonical s).1 hw).pairs]

theorem engineImageCapture_captures (hw : s.wf) {e : Fin 1024} (hm : s.mst = .active) (ht : trailsJoined s e = false)
    (hran : (engine s e).ran = true) (hdone : (engine s e).rest = .done) (hfly : (engine s e).fly = []) :
    ∃ t, exec (.engineImageCapture e) s = .next t ∧ tabGet [] t.link.images e = engineImage s e := by
  refine ⟨_, by simp only [exec, execEngineImageCapture, hm, ht, hran, hdone, hfly]; rfl, ?_⟩
  exact tabGet_tabSet_same _ _ _ _ ((wf_iff_canonical s).1 hw).images

theorem speedMeasurement_shows (hw : s.wf) (c : Fin 64) (i : BitVec 12) (j : BitVec 9) :
    ∃ t, exec (.speedMeasurement c (some i) (some j)) s = .next t ∧ getF t (fabSpeed c) 20 12 = j.toNat := by
  obtain ⟨v, t, ht, hregs⟩ : ∃ v t, exec (.speedMeasurement c (some i) (some j)) s = .next t
      ∧ t.regs = (setF (setF s (fabSpeed c) 11 0 v) (fabSpeed c) 20 12 j.toNat).regs :=
    ⟨_, _, congrArg Host.Outcome.next (if_neg Bool.false_ne_true), (apply_ite State.regs _ _ _).trans (ite_self _)⟩
  refine ⟨t, ht, (FieldKept.getF_setF ((FieldKept.refl _ _ _ _).same hregs) ?_).trans (Nat.mod_eq_of_lt j.isLt)⟩
  exact setF_rising _ _ _ _ _ ((wf_iff_canonical s).1 hw).regs

end

/-! The commands of the signal chains (R338 to R349). -/

section
variable {s : State}

theorem feedptrWrite_puts (hw : s.wf) (p : BitVec 8) :
    ∃ t, exec (.feedptrWrite p) s = .next t ∧ getF t sigFeedPtr 7 0 = p.toNat := by
  refine ⟨_, rfl, ?_⟩
  exact (FieldKept.getF_setF ((FieldKept.refl _ _ _ _).same rfl) ((wf_iff_canonical s).1 hw).regs).trans (Nat.mod_eq_of_lt p.isLt)

theorem channelGo_activates (hw : s.wf) {c : Fin 2048} (hidle : chActive s c = false) (hm : s.mst ≠ .standby)
    (hctx : contextOk s c = true) (hload : loadOk s c = true) :
    ∃ t, exec (.channelGo c) s = .next t ∧ getF t (sigCh c 0) 35 34 = 1 := by
  refine ⟨_, rfl, ?_⟩
  rw [chStart, hidle, hctx, hload, if_neg (by simpa using hm), if_neg (by decide), if_neg (by decide)]
  exact chState_started ((wf_iff_canonical s).1 hw).regs

theorem channelStop_stops (hw : s.wf) {c : Fin 2048} (hact : chActive s c = true) :
    ∃ t, exec (.channelStop c) s = .next t ∧ getF t (sigCh c 0) 35 34 = 0 := by
  refine ⟨_, rfl, ?_⟩
  rw [chStop, if_pos hact]
  exact chState_setF ((wf_iff_canonical s).1 hw).regs

theorem syncArmNextPps_arms (hw : s.wf) : ∃ t, exec .syncArmNextPps s = .next t ∧ getF t sigSync 1 0 = 1 :=
  ⟨_, rfl, FieldKept.getF_setF (s := noteWrote sigSync s) ((FieldKept.refl ..).same rfl) ((wf_iff_canonical s).1 hw).regs⟩

/-- R349: with the named midnight ahead, arming for it only arms. -/
theorem armMidnight_ahead (hr : rising s.regs) (hrun : s.day.run = true) (hn : s.day.n < syncDayFull s) :
    armMidnight s = modSig (fun x => { x with armAt := s.now }) (setF s sigSync 1 0 2) := by
  have hday : syncDayFull (modSig (fun x => { x with armAt := s.now }) (setF s sigSync 1 0 2)) = syncDayFull s :=
    congrArg (fun w : Word => (if s.day.run then s.day.n else clockDay s) / 2 ^ 36 * 2 ^ 36 + w.toNat)
      (reg_setF_ne s sigSync 1 0 2 sigSyncDay hr (by decide))
  rw [armMidnight, if_pos hrun, if_neg (not_le.2 (hday ▸ hn))]

theorem syncArmMidnight_arms (hw : s.wf) (hrun : s.day.run = true) (hn : s.day.n < syncDayFull s) :
    ∃ t, exec .syncArmMidnight s = .next t ∧ getF t sigSync 1 0 = 2 := by
  have hr := ((wf_iff_canonical s).1 hw).regs
  refine ⟨_, congrArg Host.Outcome.next (armMidnight_ahead (s := noteWrote sigSync s) hr hrun hn), ?_⟩
  exact FieldKept.getF_setF (s := noteWrote sigSync s) ((FieldKept.refl _ _ _ _).same rfl) hr

theorem syncArmFail_fails (hw : s.wf) (harm : syncArm s = 1) (ht : s.sig.armAt + 1000000000 ≤ s.now)
    (hp : bitOf s timState 6 = false) : ∃ t, exec .syncArmFail s = .next t ∧ bitOf t sigSync 2 = true := by
  refine ⟨_, if_pos ⟨harm, ht, hp⟩, ?_⟩
  refine FieldKept.bitOf_setBit ((FieldKept.refl _ _ _ _).raise _ _) ?_
  exact (((FieldKept.refl sigSync 35 35 s).hwField _ (.inr (by decide)) (by decide)).keeps ((wf_iff_canonical s).1 hw).regs).1

/-- The register file stays in order, and no register outside the list is written. -/
structure WritesOnly (l : List Nat) (s t : State) : Prop where
  keeps : rising s.regs → rising t.regs ∧ regsKept l s t

section
variable {l : List Nat} {t : State}

theorem WritesOnly.refl (l : List Nat) (s : State) : WritesOnly l s s := ⟨fun h => ⟨h, fun _ _ => rfl⟩⟩

protected theorem WritesOnly.same (h : WritesOnly l s t) {u : State} (hu : u.regs = t.regs) : WritesOnly l s u := by
  constructor
  intro hr
  obtain ⟨ht, hk⟩ := h.keeps hr
  exact ⟨hu ▸ ht, fun a ha => by rw [← hk a ha, reg, reg, hu]⟩

protected theorem WritesOnly.setF (h : WritesOnly l s t) {a hi lo v : Nat} (ha : a ∈ l := by decide) :
    WritesOnly l s (Machine.setF t a hi lo v) := by
  constructor
  intro hr
  obtain ⟨ht, hk⟩ := h.keeps hr
  exact ⟨setF_rising _ _ _ _ _ ht, fun b hb => (reg_setF_ne _ _ _ _ _ _ ht (ne_of_mem_of_not_mem ha hb).symm).trans (hk b hb)⟩

protected theorem WritesOnly.setBit (h : WritesOnly l s t) {a n : Nat} {v : Bool} (ha : a ∈ l := by decide) :
    WritesOnly l s (Machine.setBit t a n v) := (h.setF ha).same rfl

protected theorem WritesOnly.addSat (h : WritesOnly l s t) {a hi lo n : Nat} (ha : a ∈ l := by decide) :
    WritesOnly l s (Machine.addSat t a hi lo n) := (h.setF ha).same rfl

protected theorem WritesOnly.raise (h : WritesOnly l s t) {code detail : Nat}
    (hf : midLastF ∈ l ∧ midLog ∈ l := by decide) : WritesOnly l s (Machine.raise code detail t) := by
  constructor
  intro hr
  obtain ⟨ht, hk⟩ := h.keeps hr
  refine ⟨raise_rising _ _ _ ht, fun b hb => (raise_reg _ _ _ ht b ?_ ?_).trans (hk b hb)⟩
  · exact (ne_of_mem_of_not_mem hf.1 hb).symm
  · exact (ne_of_mem_of_not_mem hf.2 hb).symm

protected theorem WritesOnly.ite {c : Prop} [Decidable c] {u : State} (ht : WritesOnly l s t) (hu : WritesOnly l s u) :
    WritesOnly l s (if c then t else u) := by
  split <;> assumption

theorem WritesOnly.getF (h : WritesOnly l s t) (hr : rising s.regs) {a : Nat} (hi lo : Nat) (ha : a ∉ l := by decide) :
    getF t a hi lo = getF s a hi lo := getF_congr ((h.keeps hr).2 a ha) hi lo

end

/-- The registers that an access to memory may write: those of refusals, errors found and raised faults (R492, R571). -/
def accessRegs : List Nat := [gateStatus, gateCnt, cmpStatus, fabMemErr, midLastF, midLog]

section
variable {t : State}

protected theorem WritesOnly.violate (h : WritesOnly accessRegs s t) (m : Nat) (secure write : Bool)
    (r : Nat × Nat) (walk : Bool) (x : Word) : WritesOnly accessRegs s (Machine.violate m secure write r walk x t) := by
  unfold Machine.violate
  extract_lets queued counted numbered shown
  have hqueued : WritesOnly accessRegs s queued := by
    refine .ite (h.same rfl) (.addSat ?_)
    exact h.same rfl
  have hcounted : WritesOnly accessRegs s (addSat (setBit queued gateStatus 0) gateCnt 35 0 1) := hqueued.setBit.addSat
  have hnumbered : WritesOnly accessRegs s numbered := (hcounted.same (u := counted) rfl).same rfl
  have hshown : WritesOnly accessRegs s shown := .ite hnumbered.setBit.raise hnumbered
  refine .ite hshown (.raise ?_)
  exact hshown.same rfl

protected theorem WritesOnly.memRead (h : WritesOnly accessRegs s t) (a : Nat) :
    WritesOnly accessRegs s (Machine.memRead none a t).2 := by
  unfold Machine.memRead
  split
  · exact h
  · have hc : WritesOnly accessRegs s { t with chk := tabSet .ok t.chk a .ok } := h.same rfl
    exact hc.addSat.raise.same rfl
  · have hc : WritesOnly accessRegs s (modTelem (fun x => { x with uncor := x.uncor + 1 }) (addSat t fabMemErr 17 0 1)) :=
      h.addSat.same rfl
    exact hc.raise

protected theorem WritesOnly.mRead (h : WritesOnly accessRegs s t) (m a : Nat) :
    WritesOnly accessRegs s (Machine.mRead m a t).2 := by
  have ht : WritesOnly accessRegs s (touch a t) := h.same rfl
  simp only [Machine.mRead]
  split
  · exact ht.violate ..
  · split
    · exact ht.memRead a
    · exact ht

/-- Only an engine's write marks what a checkpoint has yet to send. -/
protected theorem WritesOnly.memWrite (h : WritesOnly accessRegs s t) {m : Nat} (hm : 1024 ≤ m) (a : Nat) (v : Word) :
    WritesOnly accessRegs s (Machine.memWrite m a v t) := by
  unfold Machine.memWrite
  rw [if_neg (not_lt.2 hm)]
  exact .ite (h.same rfl) (h.same rfl)

protected theorem WritesOnly.mWrite (h : WritesOnly accessRegs s t) {m : Nat} (hm : 1024 ≤ m) (a : Nat) (v : Word) :
    WritesOnly accessRegs s (Machine.mWrite m a v t) := by
  have ht : WritesOnly accessRegs s (touch a t) := h.same rfl
  simp only [Machine.mWrite]
  split
  · exact ht.violate ..
  · exact .ite (ht.memWrite hm a v) ht

/-- R342: at the end of a feed GET moves on by one around the ring. -/
theorem endFeed_get (hr : rising s.regs) (reason : Nat) :
    rising (endFeed reason s).regs ∧ feedGet (endFeed reason s) = (feedGet s + 1) % Nat.max (feedSize s) 1 % 256 := by
  unfold endFeed
  extract_lets a r w written since counted moved
  have hu : WritesOnly accessRegs s counted :=
    (((WritesOnly.refl accessRegs s).mRead masterSig a).mWrite (by decide) a (word w)).same rfl
  have hm : FieldKept sigFeedPtr 15 8 moved
      (if since + 4096 < moved.now then raise 0x608 0 (setBit moved sigStatus 4) else moved) :=
    .ite _ (((FieldKept.refl sigFeedPtr 15 8 moved).setBit true).raise _ _) (.refl _ _ _ _)
  have hget : feedGet counted = feedGet s := hu.getF hr 15 8
  have hsize : feedSize counted = feedSize s := hu.getF hr 8 0
  rw [← hget, ← hsize]
  have hcr := (hu.keeps hr).1
  exact ⟨(hm.keeps (setF_rising _ _ _ _ _ hcr)).1, hm.getF_setF hcr⟩

/-- R341: samples of channels that do not run are not taken. -/
theorem takeFeed_idle {f : Feed} (ws : List Word) (hcnt : f.cnt ≠ 0) (hidle : ∀ i < f.cnt, chActive s (f.first + i) = false) :
    takeFeed f ws s = s := by
  refine foldl_fixed_mem _ _ _ fun n _ => ?_
  have hn : chActive s (f.first + n % f.cnt) = false := hidle _ (Nat.mod_lt _ (Nat.pos_of_ne_zero hcnt))
  simp only [takeSample, hn]
  rfl

theorem cnt_ne_zero_of_feedReason {f : Feed} (h : feedReason s f = none) : f.cnt ≠ 0 := by
  intro h0
  simp [feedReason, h0] at h
  split_ifs at h

theorem feedSize_of_feedReady (h : feedReady s = true) : Nat.max (feedSize s) 1 = feedSize s := by
  have hposted : feedsPosted s ≠ 0 := by simpa using (Bool.and_eq_true_iff.1 h).1
  have hsize : ¬ feedSize s < 2 := fun hlt => hposted (if_pos hlt)
  exact Nat.max_eq_left (by omega)

theorem feedProcess_moves (hw : s.wf) {e : Nat} {f : Feed} {ws : List Word} {u v : State} (hready : feedReady s = true)
    (hfree : freeFor masterSig (headPipe s) s (processFeed (untouched s)) = true)
    (hfetch : fetchFeed (untouched s) = (some (e, f), u)) (hu : onlyTouches s u) (hok : feedReason s f = none)
    (hreads : mReads masterSig (e + 6) (2 * f.len) u = (some ws, v)) (hv : onlyTouches s v)
    (hidle : ∀ i < f.cnt, chActive s (f.first + i) = false) :
    ∃ t, exec .feedProcess s = .next t ∧ feedGet t = (feedGet s + 1) % feedSize s % 256 := by
  have hr := ((wf_iff_canonical s).1 hw).regs
  have hvregs : v.regs = s.regs := (congrArg State.regs (show v = _ from hv)).trans rfl
  have hactive (c : Nat) : chActive v c = chActive s c := by rw [hv]; rfl
  have hproc : processFeed (untouched s) = ownFault (raise 0x604 0) v (endFeed 0 v) := by
    have hoku : feedReason u f = none := by rw [hu]; exact hok
    have htake : takeFeed f ws v = v :=
      takeFeed_idle ws (cnt_ne_zero_of_feedReason hok) fun i hi => (hactive _).trans (hidle i hi)
    simp only [processFeed, hfetch, hoku, hreads, htake]
  have hown : FieldKept sigFeedPtr 15 8 (endFeed 0 v) (ownFault (raise 0x604 0) v (endFeed 0 v)) :=
    .ite _ (.refl _ _ _ _) ((FieldKept.refl _ _ _ _).raise _ _)
  have hvget : feedGet v = feedGet s := by rw [hv]; rfl
  have hvsize : feedSize v = feedSize s := by rw [hv]; rfl
  refine ⟨settle masterSig (headPipe s) s.tk.touched (processFeed (untouched s)), ?_, ?_⟩
  · rw [exec, execFeedProcess, if_pos hready]
    exact congrArg _ (if_pos hfree)
  · obtain ⟨hend, hget⟩ := endFeed_get (s := v) (hvregs ▸ hr) 0
    calc feedGet (settle masterSig (headPipe s) s.tk.touched (processFeed (untouched s)))
        = feedGet (processFeed (untouched s)) := rfl
      _ = feedGet (ownFault (raise 0x604 0) v (endFeed 0 v)) := congrArg feedGet hproc
      _ = feedGet (endFeed 0 v) := (hown.keeps hend).2
      _ = (feedGet s + 1) % feedSize s % 256 := by rw [hget, hvget, hvsize, feedSize_of_feedReady hready]

end

end

/-! The claim (R373 to R378, R395, R396). -/

section
variable {s : State}

theorem forUpto_keeps {α : Type} (p : State → α) {f : Nat → State → State} (hf : ∀ i t, p (f i t) = p t)
    (n : Nat) (s : State) : p (forUpto n f s) = p s := by
  rw [forUpto]
  induction List.range n generalizing s with
  | nil => rfl
  | cons i l ih => exact (ih _).trans (hf i s)

@[simp] theorem loadUpdate_link (s : State) : (loadUpdate s).link = s.link := by
  unfold loadUpdate
  split
  · rfl
  · split
    · rfl
    · refine (forUpto_keeps State.link ?_ 24 _).trans ?_
      · exact fun _ _ => rfl
      · rfl

@[simp] theorem linkFault_link (code bit : Nat) (s : State) : (linkFault code bit s).link = s.link :=
  (raise_link code (dayN s % 2 ^ 36) (setBit s pairStatus bit)).trans rfl

theorem setLatch_latch (s : State) : (setLatch s).link.latch = true := congrArg Link.latch (loadUpdate_link _)

/-- Deciding on a takeover notes when the decision fell and when an unknown loop was reported, and nothing else of the link. -/
theorem decideTakeover_link (was s : State) : (decideTakeover was s).link =
    { s.link with
      decided := (decideTakeover was s).link.decided, unknownAt := (decideTakeover was s).link.unknownAt } := by
  unfold decideTakeover
  repeat' split
  all_goals simp [unknownFault, modLink]

theorem yieldClaim_part (s : State) : (yieldClaim s).link.part = s.link.part := by
  unfold yieldClaim
  split
  · rw [modLink, clearLatch, loadUpdate_link]
    rfl
  · rfl

theorem partnerLoopChanged_part (was s : State) : (partnerLoopChanged was s).link.part = s.link.part := by
  unfold partnerLoopChanged
  rw [decideTakeover_link, yieldClaim_part]
  split <;> rfl

theorem mandateLoopStateChange_reads (p : Bool) (x : BitVec 9) : ∃ t, exec (.mandateLoopStateChange p x) s = .next t
    ∧ (if p then t.link.part else t.link.own) = loopBand x.toNat := by
  cases p with
  | false => exact ⟨_, rfl, rfl⟩
  | true =>
    refine ⟨_, rfl, ?_⟩
    rw [if_pos rfl]
    split
    · rfl
    · exact partnerLoopChanged_part _ _

theorem presenceChange_reads (p b : Bool) : ∃ t, exec (.presenceChange p b) s = .next t
    ∧ (if p then t.link.partner else t.link.inserted) = b := by
  cases p with
  | false =>
    by_cases hb : b = s.link.inserted
    · exact ⟨s, if_pos hb, hb.symm⟩
    · refine ⟨_, if_neg hb, ?_⟩
      cases b
      · exact congrArg Link.inserted (loadUpdate_link _)
      · rfl
  | true =>
    by_cases hb : b = s.link.partner
    · exact ⟨s, if_pos hb, hb.symm⟩
    · refine ⟨_, if_neg hb, ?_⟩
      rw [if_pos rfl, decideTakeover_link]
      exact congrArg Link.partner (loadUpdate_link _)

theorem claimLatchSet_latches (hc : claims s = true) (ht : dayTick s + 2500 = dayT s) :
    ∃ t, exec .claimLatchSet s = .next t ∧ t.link.latch = true := by
  have hdue : (claims s && dayTick s + 2500 == dayT s) = true := by simp [hc, ht]
  exact ⟨_, if_pos hdue, setLatch_latch _⟩

theorem yieldRecheck_latches {n : Nat} (hy : s.link.yielded = some n) (hn : n + 1250 ≤ s.now) (hmay : mayClaim s = true)
    (hclear : partnerClear s.link = true) : ∃ t, exec .yieldRecheck s = .next t ∧ t.link.latch = true := by
  refine ⟨setLatch s, ?_, setLatch_latch s⟩
  simp only [exec, execYieldRecheck, hy, hmay, hclear, if_neg (not_lt.2 hn)]
  rfl

theorem claimConfirmation_confirms (hrun : s.day.run = true) (ht : dayTick s + 1 = dayT s)
    (hday : s.link.claimDay = some (s.day.n + 1)) (hconf : s.link.confirmed = false) (hlatch : s.link.latch = true)
    (hmay : mayClaim s = true) (hclear : partnerClear s.link = true) :
    ∃ t, exec .claimConfirmation s = .next t ∧ t.link.estab = true := by
  refine ⟨modLink (fun l => { l with estab := true, confirmed := true }) s, ?_, rfl⟩
  simp [exec, execClaimConfirmation, hrun, ht, hday, hconf, hlatch, hmay, hclear]

/-- A fault of the pair shows its bit of PAIR_STATUS. -/
theorem linkFault_bit (hr : rising s.regs) (code : Nat) {bit : Nat} (hb : bit < 36) :
    bitOf (linkFault code bit s) pairStatus bit = true :=
  ((FieldKept.refl _ _ _ _).raise _ _).bitOf_setBit hr hb

theorem loopError_reports (hw : s.wf) (hi : 60 ≤ s.link.ownI.toNat) :
    ∃ t, exec (.loopError true) s = .next t ∧ bitOf t pairStatus 7 = true :=
  ⟨_, if_pos hi, linkFault_bit ((wf_iff_canonical s).1 hw).regs _ (by decide)⟩

theorem partnerLoopUnknownRepeat_reports (hw : s.wf) (hm : s.mst = .standby) (hp : s.link.part = .unknown)
    (hg : partnerGone s = false) (ht : s.link.unknownAt + 250000000 ≤ s.now + 1) :
    ∃ t, exec .partnerLoopUnknownRepeat s = .next t ∧ bitOf t pairStatus 8 = true := by
  have hdue : (s.mst == .standby && unknownLoop s && s.link.unknownAt + secTicks 1 ≤ s.now + 1) = true := by
    simpa [hm, unknownLoop, hp, hg, secTicks] using ht
  exact ⟨_, if_pos hdue, linkFault_bit (s := modLink _ s) ((wf_iff_canonical s).1 hw).regs _ (by decide)⟩

end

/-! The time inputs (R308 to R318). -/

/-- What was kept of the last edge of PPS, of the last IRIG-B frame and of the frames in a row is as before. -/
structure EdgesKept (s t : State) : Prop where
  pps : t.time.ppsAt = s.time.ppsAt
  irig : t.time.irigAt = s.time.irigAt
  run : t.time.irigCnt = s.time.irigCnt

section
variable {s t : State}

theorem EdgesKept.refl (s : State) : EdgesKept s s := ⟨rfl, rfl, rfl⟩

/-- A change of anything else. -/
protected theorem EdgesKept.beside (h : EdgesKept s t) {u : State} (hp : u.time.ppsAt = t.time.ppsAt)
    (hi : u.time.irigAt = t.time.irigAt) (hc : u.time.irigCnt = t.time.irigCnt) : EdgesKept s u :=
  ⟨hp.trans h.pps, hi.trans h.irig, hc.trans h.run⟩

protected theorem EdgesKept.same (h : EdgesKept s t) {u : State} (hu : u.time = t.time) : EdgesKept s u :=
  h.beside (congrArg _ hu) (congrArg _ hu) (congrArg _ hu)

theorem hwField_time (s : State) (a hi lo v : Nat) : (hwField s a hi lo v).time = s.time := by
  unfold hwField
  split <;> rfl

/-- R349: the first `n` channels, where they run, are told of the instant. -/
def tellSync (n sec us : Nat) : State → State :=
  forUpto n fun c s => if chActive s c then modSigChan c (fun x => { x with sync := some (sec, us) }) s else s

theorem applySync_eq (sec us : Nat) (s : State) :
    applySync sec us s = raise 0x60A 0 (setBit (hwField (tellSync 2048 sec us s) sigSync 1 0 0) sigSync 3) := rfl

theorem tellSync_time (n sec us : Nat) (s : State) : (tellSync n sec us s).time = s.time := by
  refine forUpto_keeps State.time (fun i u => ?_) n s
  split <;> rfl

theorem applySync_time (sec us : Nat) (s : State) : (applySync sec us s).time = s.time := by
  rw [applySync_eq, raise_time, setBit_time, hwField_time, tellSync_time]

protected theorem EdgesKept.ite {c : Prop} [Decidable c] {u : State} (ht : EdgesKept s t) (hu : EdgesKept s u) :
    EdgesKept s (if c then t else u) := by
  split <;> assumption

protected theorem EdgesKept.raise (h : EdgesKept s t) (code detail : Nat) : EdgesKept s (Machine.raise code detail t) :=
  h.same (raise_time code detail t)

protected theorem EdgesKept.timeFault (h : EdgesKept s t) (code src : Nat) : EdgesKept s (Machine.timeFault code src t) :=
  h.raise code src

protected theorem EdgesKept.noteBound (h : EdgesKept s t) : EdgesKept s (Machine.noteBound t) := by
  unfold Machine.noteBound
  split
  · exact h.beside rfl rfl rfl
  · exact h

protected theorem EdgesKept.setTimeState (h : EdgesKept s t) (code : Nat) : EdgesKept s (Machine.setTimeState code t) := by
  unfold Machine.setTimeState
  extract_lets left shown
  have hl : EdgesKept s left := .ite (h.beside rfl rfl rfl) h
  have hs : EdgesKept s shown := hl.beside rfl rfl rfl
  refine .ite (hs.beside rfl rfl rfl) (.ite (hs.beside rfl rfl rfl) (.ite (.noteBound ?_) hs.noteBound))
  exact hs.beside rfl rfl rfl

protected theorem EdgesKept.selectSrc (h : EdgesKept s t) (src : Nat) : EdgesKept s (Machine.selectSrc src t) := by
  unfold Machine.selectSrc
  refine .beside (.setTimeState (t := modTime (fun x => { x with holdAt := none }) (setF t timState 15 12 src)) ?_ 1) rfl rfl rfl
  exact h.beside rfl rfl rfl

protected theorem EdgesKept.switchSrc (h : EdgesKept s t) (src : Nat) : EdgesKept s (Machine.switchSrc src t) := by
  refine .timeFault (.beside (h.selectSrc src) ?_ ?_ ?_) _ _ <;> rfl

protected theorem EdgesKept.enterHold (h : EdgesKept s t) : EdgesKept s (Machine.enterHold t) := by
  unfold Machine.enterHold
  extract_lets held
  have hw : EdgesKept s (hwField t timRate 35 0 (wordI (rateMean t)).toNat) := h.same (hwField_time ..)
  have hh : EdgesKept s held := hw.beside rfl rfl rfl
  exact .timeFault ((hh.setTimeState 7).same (setBit_time _ _ _ _)) _ _

protected theorem EdgesKept.reselect (h : EdgesKept s t) : EdgesKept s (Machine.reselect t) := by
  unfold Machine.reselect
  extract_lets cur
  refine .ite (h.beside rfl rfl rfl) ?_
  split
  · exact .ite (h.selectSrc _) (h.switchSrc _)
  · exact .ite h h.enterHold

protected theorem EdgesKept.setUsable (h : EdgesKept s t) (src : Nat) (v : Bool) : EdgesKept s (Machine.setUsable src v t) := by
  unfold Machine.setUsable
  extract_lets was shown x
  have hs : EdgesKept s shown := h.same (setBit_time _ _ _ _)
  have hx : EdgesKept s x := by
    unfold x
    split <;> exact hs.same (setBit_time _ _ _ _)
  refine .ite ?_ hx
  split <;> exact .timeFault (hx.same (setBit_time _ _ _ _)) _ _

protected theorem EdgesKept.servoRate (h : EdgesKept s t) (ofs : Int) : EdgesKept s (Machine.servoRate ofs t) := by
  have hb : EdgesKept s (bump t) := h.same rfl
  exact hb.same (hwField_time ..)

protected theorem EdgesKept.trackLock (h : EdgesKept s t) (ofs : Int) : EdgesKept s (Machine.trackLock ofs t) :=
  .ite (.ite (.beside (h.setTimeState 1) rfl rfl rfl) h) (.ite (h.beside rfl rfl rfl) (h.beside rfl rfl rfl))

protected theorem EdgesKept.postDelayed (h : EdgesKept s t) (delay src payload : Nat) :
    EdgesKept s (Machine.postDelayed delay src payload t) := by
  have hb : EdgesKept s (bump t) := h.beside rfl rfl rfl
  refine .ite ?_ (hb.beside rfl rfl rfl)
  unfold postEvent
  split
  · refine .ite (hb.same rfl) (.raise ?_ _ _)
    exact hb.same rfl
  · exact hb

protected theorem EdgesKept.syncPps (h : EdgesKept s t) : EdgesKept s (Machine.syncPps t) :=
  .ite (h.same (applySync_time ..)) h

theorem ppsEdge_kept (s : State) : ∃ t, exec .ppsEdge s = .next t ∧ t.time.ppsAt = some (s.time.sec, s.time.ns64) := by
  unfold exec execPpsEdge
  extract_lets c inWin o j counted faulted shown chosen
  have hchosen : EdgesKept shown chosen := ((EdgesKept.refl shown).setUsable ..).reselect
  have hserved : EdgesKept shown (if timeSrc chosen = 3 then servoRate o (trackLock o chosen) else chosen) :=
    .ite ((hchosen.trackLock o).servoRate o) hchosen
  exact ⟨_, rfl, (hserved.postDelayed _ _ _).syncPps.pps⟩

theorem ppsEdgeMissing_forgets {p : Nat × Nat} (hp : s.time.ppsAt = some p)
    (hd : 64000000000 + 64000 < clockDiff (s.time.sec, s.time.ns64) p) :
    ∃ t, exec .ppsEdgeMissing s = .next t ∧ t.time.ppsAt = none := by
  have hlate : ¬ clockDiff (s.time.sec, s.time.ns64) p ≤ (nsWrap : Int) + oneUs := by
    rw [nsWrap, oneUs]; omega
  refine ⟨reselect (setUsable 3 false (modTime (fun t => { t with ppsAt := none }) (addSat s timPpsSt 11 0 1))), ?_, ?_⟩
  · simp only [exec, execPpsEdgeMissing, hp, if_neg hlate]
  · exact ((EdgesKept.refl _).setUsable 3 false).reselect.pps.trans rfl

theorem irigFrame_kept (ws : List Nat) (s : State) :
    ∃ t, exec (.irigFrame ws) s = .next t ∧ t.time.irigAt = some (s.time.sec, s.time.ns64) := by
  refine ⟨_, rfl, ?_⟩
  exact ((EdgesKept.refl _).reselect.postDelayed _ _ _).irig.trans rfl

theorem irigSignalLoss_forgets (s : State) : ∃ t, exec .irigSignalLoss s = .next t ∧ t.time.irigCnt = 0 := by
  refine ⟨_, rfl, ?_⟩
  exact ((EdgesKept.refl _).setUsable 4 false).reselect.run.trans rfl

/-- The time state's code is written first; what follows writes the bound beside it. -/
theorem setTimeState_fields (s : State) (code : Nat) {hi lo : Nat} (hf : lo ≤ hi ∧ hi < 24) :
    ∃ u, u.regs = s.regs ∧ FieldKept timState hi lo (setF u timState 3 0 code) (setTimeState code s) := by
  have hbound {x t : State} (h : FieldKept timState hi lo x t) (v : Nat) : FieldKept timState hi lo x (setF t timState 35 24 v) :=
    h.setF v (.inr (.inr hf.2)) ⟨hf.1, by decide⟩
  have hnote {x t : State} (h : FieldKept timState hi lo x t) : FieldKept timState hi lo x (noteBound t) := by
    unfold noteBound
    split
    · exact hbound h _
    · exact h
  refine ⟨if isLock (timeCode s) then leaveLock s else s, by split <;> rfl, ?_⟩
  refine .ite _ (hbound (.refl ..) _) (.ite _ (hbound (.same (.refl ..) ?_) _)
    (.ite _ (hnote (.same (.refl ..) ?_)) (hnote (.refl ..))))
  · rfl
  · rfl

/-- R315, R316: the state of the time base shows the code that was set. -/
theorem setTimeState_code (hr : rising s.regs) (code : Nat) : timeCode (setTimeState code s) = code % 16 := by
  obtain ⟨u, hu, hk⟩ := setTimeState_fields s code (hi := 3) (lo := 0) (by decide)
  exact hk.getF_setF (hu ▸ hr)

theorem setTimeState_rising (hr : rising s.regs) (code : Nat) : rising (setTimeState code s).regs := by
  obtain ⟨u, hu, hk⟩ := setTimeState_fields s code (hi := 3) (lo := 0) (by decide)
  exact (hk.keeps (setF_rising _ _ _ _ _ (hu ▸ hr))).1

theorem setTimeState_src (hr : rising s.regs) (code : Nat) : timeSrc (setTimeState code s) = timeSrc s := by
  obtain ⟨u, hu, hk⟩ := setTimeState_fields s code (hi := 15) (lo := 12) (by decide)
  have hur : rising u.regs := hu ▸ hr
  calc timeSrc (setTimeState code s)
      = timeSrc (setF u timState 3 0 code) := (hk.keeps (setF_rising _ _ _ _ _ hur)).2
    _ = timeSrc u := getF_setF_other _ _ _ _ _ _ _ hur (by decide) (by decide) (by decide) (by decide)
    _ = timeSrc s := getF_congr (congrArg (fun l => tabGet (regReset timState) l timState) hu) _ _

theorem lockAcquired_locks (hw : s.wf) {a : Nat} (ha : s.time.inBand = some a) (hc : timeCode s = 1) (h1 : 1 ≤ timeSrc s)
    (h5 : timeSrc s ≤ 5) (hn : a + 15000000000 ≤ s.now) :
    ∃ t, exec .lockAcquired s = .next t ∧ timeCode t = timeSrc s + 1 := by
  have hr := ((wf_iff_canonical s).1 hw).regs
  refine ⟨modTime (fun t => { t with lockedAt := some s.now, slew := none }) (setTimeState (timeSrc s + 1) s), ?_, ?_⟩
  · simp only [exec, execLockAcquired, ha]
    exact if_pos ⟨hc, h1, hn⟩
  · exact (setTimeState_code hr _).trans (Nat.mod_eq_of_lt (by omega))

theorem src_lt_of_revertDue {h : Nat} (hd : revertDue s h = true) : h < 16 := by
  simp only [revertDue, srcMay, Bool.and_eq_true] at hd
  obtain ⟨⟨hu, -⟩, -⟩ := hd
  unfold srcUsable at hu
  split at hu
  · decide
  · decide
  · decide
  · decide
  · decide
  · cases hu

/-- R314: the source that was chosen is the one shown. -/
theorem selectSrc_src (hr : rising s.regs) {h : Nat} (hh : h < 16) :
    rising (selectSrc h s).regs ∧ timeSrc (selectSrc h s) = h := by
  have hset : rising (setF s timState 15 12 h).regs := setF_rising _ _ _ _ _ hr
  have hsrc : timeSrc (setF s timState 15 12 h) = h :=
    (getF_setF_same _ _ _ _ _ hr (by decide) (by decide)).trans (Nat.mod_eq_of_lt hh)
  exact ⟨setTimeState_rising (s := modTime _ (setF s timState 15 12 h)) hset 1,
    (setTimeState_src (s := modTime _ (setF s timState 15 12 h)) hset 1).trans hsrc⟩

theorem switchSrc_src (hr : rising s.regs) {h : Nat} (hh : h < 16) : timeSrc (switchSrc h s) = h := by
  obtain ⟨hsel, hsrc⟩ := selectSrc_src hr hh
  have hkept : FieldKept timState 15 12 (selectSrc h s) (switchSrc h s) := by
    refine .raise (.setBit (.same (.refl ..) ?_) true) _ _
    rfl
  exact (hkept.keeps hsel).2.trans hsrc

theorem sourceRevert_reverts (hw : s.wf) {h : Nat} (hh : (higherSrcs s (timeSrc s)).find? (revertDue s) = some h)
    (hd : disagrees s = false) (hn : s.time.ns64 < lastAdvance s) :
    ∃ t, exec .sourceRevert s = .next t ∧ timeSrc t = h := by
  refine ⟨switchSrc h s, ?_, switchSrc_src ((wf_iff_canonical s).1 hw).regs (src_lt_of_revertDue (List.find?_some hh))⟩
  rw [exec, execSourceRevert, hd, if_neg (by simpa using hn), hh]

theorem ppsOutputEdge_emits (hn : s.time.ns64 < lastAdvance s) (ho : bitOf s timPpsO 9 = true) :
    exec .ppsOutputEdge s = .next (emit (.pps (getF s timPpsO 8 0)) s) := by
  rw [exec, execPpsOutputEdge, if_neg (not_le.2 hn), ho]
  rfl

end

/-- Settles O7: every command's outcome by the kinds of commands, and the commands named by their units. -/
theorem onlyNamedConditionsStop : Obligations.OnlyNamedConditionsStop := by
  unfold Obligations.OnlyNamedConditionsStop
  refine ⟨exec_stops, fun s hw => ?_⟩
  refine ⟨?_, ?_, ?_, ?_, ?_, ?_, ?_, ?_, ?_, ?_, ?_, ?_, ?_, ?_, ?_, ?_, ?_, ?_, ?_, ?_, ?_, ?_, ?_, ?_, ?_, ?_,
    ?_, ?_, ?_⟩
  · intro e g hready hroom
    obtain ⟨t, ht, -, hloops, -⟩ := loop_plant hw hready hroom
    exact ⟨t, ht, by rw [hloops]; rfl⟩
  · exact fun k b bs hb ht => pairInputReplay_drops hw hb ht
  · exact fun k a b ls ts harm hl ht ha hk hf hd hn => comparatorCheck_agrees hw harm hl ht ha hk hf hd hn
  · exact fun k x y h0 h1 => comparatorSelfTest_completes hw h0 h1
  · exact fun c h => detectorSelfTest_completes hw h
  · exact fun k hj ha hd => comparatorArm_arms hw hj ha hd
  · exact fun e hm ht hran hdone hfly => engineImageCapture_captures hw hm ht hran hdone hfly
  · exact fun c i j => speedMeasurement_shows hw c i j
  · exact fun p => feedptrWrite_puts hw p
  · exact fun a e f ws u v hready hfree _ _ _ hfetch hu hok hreads hv hidle =>
      feedProcess_moves hw hready hfree hfetch hu hok hreads hv hidle
  · exact fun c hidle hm hctx hload => channelGo_activates hw hidle hm hctx hload
  · exact fun c hact => channelStop_stops hw hact
  · exact syncArmNextPps_arms hw
  · exact fun hrun hn => syncArmMidnight_arms hw hrun hn
  · exact fun harm ht hp => syncArmFail_fails hw harm ht hp
  · exact mandateLoopStateChange_reads
  · exact presenceChange_reads
  · exact claimLatchSet_latches
  · exact fun n hy hn hmay hclear => yieldRecheck_latches hy hn hmay hclear
  · exact claimConfirmation_confirms
  · exact loopError_reports hw
  · exact partnerLoopUnknownRepeat_reports hw
  · exact ppsEdge_kept s
  · exact fun p hp hd => ppsEdgeMissing_forgets hp hd
  · exact fun ws => irigFrame_kept ws s
  · exact irigSignalLoss_forgets s
  · exact fun a ha hc h1 h5 hn => lockAcquired_locks hw ha hc h1 h5 hn
  · exact fun h hh hd hn => sourceRevert_reverts hw hh hd hn
  · exact ppsOutputEdge_emits

end Sys2Proof.Machine
end
